-- ==== Sys2Proof/Word.lean ====
section
/-!
DEFINITION. The word types of the S3 (00 R1, R2; 02 R31): bytes, lanes of 32 bits, tags and 64-bit
words, 96-bit records, and the table type in which the model keeps sparse arrays.
-/
namespace Sys2Proof

/-- One byte of memory. -/
abbrev Byte := BitVec 8

/-- One data lane of a token (02 R31). -/
abbrev Lane := BitVec 32

/-- A tag, a q register or a system register (02 R34, 01 R20). -/
abbrev Word64 := BitVec 64

/-- A node record (08 R161). -/
abbrev Rec96 := BitVec 96

/-- A sparse array: keys strictly rising, no entry equal to the array's default value. -/
abbrev Tab (α : Type) := List (Nat × α)

end Sys2Proof
end

