-- ==== Sys2Proof/Syntax.lean ====
section
/-!
DEFINITION. The steps of the S3 as data: one constructor of `Instr` for each row of the table of
operations and events (spec/opcode_table.json). A record of the opcode map (08 R176) carries the fields of
its format; what an event selects, or brings from outside the part, stands in a `Sel` beside it.
-/
namespace Sys2Proof

/-- A destination field: D0 or D1 of a record (08 R167). -/
structure Dest where
  site : BitVec 8
  node : BitVec 5
  port : BitVec 3
deriving DecidableEq, Repr, Inhabited

/-- CTL[15:8] of formats N, M, T and S (08 R163). -/
structure Ctl where
  lituse : BitVec 2
  pred : Bool
  emit0 : BitVec 2
  emit1 : BitVec 2
  nullpass : Bool
deriving DecidableEq, Repr, Inhabited

/-- The fields of a format N record beside OP (08 R162); `hi` is MOD[87:84]. -/
structure RecN where
  hi : BitVec 4
  fmt : BitVec 4
  d0 : Dest
  d1 : Dest
  ctl : Ctl
  cf : BitVec 8
  lit : BitVec 32
deriving DecidableEq, Repr, Inhabited

/-- The fields of a format M record beside OP (08 R168); `d1lo` is D1[7:0]. -/
structure RecM where
  space : BitVec 2
  ord : BitVec 2
  fmt : BitVec 4
  d0 : Dest
  osite : BitVec 8
  d1lo : BitVec 8
  ctl : Ctl
  scope : BitVec 3
  lsid : BitVec 5
  prev : BitVec 8
  seq : BitVec 8
  next : BitVec 8
  off : BitVec 8
deriving DecidableEq, Repr, Inhabited

/-- The fields of a format T record beside OP (08 R170); `rsv` is CTL[33:32]. -/
structure RecT where
  ctag : BitVec 6
  hold : Bool
  fill : Bool
  d0 : Dest
  d1 : Dest
  ctl : Ctl
  pgn : BitVec 6
  rsv : BitVec 2
  mark : BitVec 16
  len : BitVec 16
deriving DecidableEq, Repr, Inhabited

/-- The fields of a format S record beside OP (08 R171). -/
structure RecS where
  sub : BitVec 8
  d0 : Dest
  d1 : Dest
  ctl : Ctl
  cf : BitVec 8
  obj : BitVec 32
deriving DecidableEq, Repr, Inhabited

/-- Who writes a system register (13 R281): a scribe block of panel `p` in context `ctx`, or the host
through the register window of function `fn`. -/
inductive Agent where
  | block (p ctx : Nat)
  | host (fn : Nat)
deriving DecidableEq, Repr, Inhabited

/-- The store that an uncorrectable error strikes (20 R400). -/
inductive ErrLoc where
  | dram (addr g : Nat)            -- a far-memory sector, found by a request of panel g
  | l2 (die addr g : Nat)          -- an L2 sector
  | well (p w sector : Nat)        -- a well sector
  | row (p site k : Nat)           -- operand `num` of the k-th waiting group of a nib
  | frame (p w k : Nat)            -- slot `num` of the k-th frame of a frame-store well
  | outQueue (k : Nat)             -- the k-th token in transit: output queue or link buffer
  | record (p site plane node : Nat) -- an instruction-store record
deriving DecidableEq, Repr, Inhabited

/-- What a request of a transfer carries to another part (06 R134): the slack that is left, its context's NBCTL.HOLD, and the HOLD
and FILL bits of its record (log 91). -/
structure Carried where
  slack : Nat
  hold : Nat
  held : Bool
  fill : Bool
deriving DecidableEq, Repr, Inhabited

/-- What a flit asks for (19 R374, R384, R386). Addresses are in the home-die form of 04 R99. -/
inductive FlitBody where
  | read (id addr len : Nat)                     -- a load of len bytes
  | write (id addr : Nat) (bytes : List (Nat × Byte)) (poison : Bool)  -- bytes at offsets from the address
  | atomic (id addr op : Nat) (ty : BitVec 4) (b c : List (Option Nat)) (poison : Bool)  -- elements; `none` is masked (11 R243)
  | acc (id addr beyond n idx : Nat) (base : Word64) (ty : BitVec 4) (b : List (Option Nat)) (poison : Bool)  -- an addend (11 R246); `beyond` is where its bytes go on in the next page
  | promote (id addr len scope : Nat)            -- a PROMOTE's read, after the push of its scope (16 R343)
  | response (id : Nat) (bytes : List Byte) (poison : Bool)  -- the answer to request id of this part
  | coll (id g table round : Nat) (tag : Word64) (ty : BitVec 4) (lanes : List Lane) (poison : Bool)
  | accepted (id : Nat) (taken : Bool)           -- the fate of a COLL of this part
  | fence (id : Nat)                             -- a drain fence flit (19 R386)
deriving DecidableEq, Repr, Inhabited

/-- One flit: the incarnation it is stamped with, whether its CRC holds, the device it is for, the device
it comes from, and what it asks for (19 R374, R375). -/
structure Flit where
  inc : BitVec 8
  crcOk : Bool
  dev : BitVec 12
  src : BitVec 12
  /-- of a transfer's request, and of the response that comes back to it (06 R134, R135) -/
  carried : Option Carried := none
  body : FlitBody
deriving DecidableEq, Repr, Inhabited

/-- One host CXL.mem request (19 R417): the function, the device physical address, and the bytes written
(`none` for a read of `len` bytes), with the CXL poison indication. -/
structure HostReq where
  fn : Nat
  addr : Nat
  len : Nat
  bytes : Option (List Byte)
  poison : Bool
deriving DecidableEq, Repr, Inhabited

/-- What an event of the table selects, or brings from outside the part: the panel, site, list position,
context, link and so on that it is about, and the data of an input. An event reads the fields its meaning
names. -/
structure Sel where
  p : Nat := 0
  site : Nat := 0
  k : Nat := 0
  plane : Nat := 0
  die : Nat := 0
  link : Nat := 0
  q : Nat := 0
  fn : Nat := 0
  num : Nat := 0
  /-- a byte offset in the register window (13 R281) -/
  off : Option Nat := none
  ctx : Nat := 0
  part : Nat := 0
  /-- a Boolean input: a signature or self-test that passes, current within SLEW -/
  ok : Bool := false
  who : Agent := .host 0
  v : Word64 := 0
  line : List Word64 := []
  nums : List Nat := []
  ranges : List (Nat × Nat) := []
  flit : Flit := default
  req : HostReq := default
  loc : ErrLoc := .outQueue 0
deriving DecidableEq, Repr, Inhabited

/-- The steps of the part (spec/opcode_table.json): first the record instructions with their fields, then
the events, whose selection and inputs stand in the state's `sel`. -/
inductive Instr where
  /-- NOP (R192). -/
  | nop (r : RecN)
  /-- IADD (R184). -/
  | iadd (r : RecN)
  /-- ISUB (R184). -/
  | isub (r : RecN)
  /-- IMUL (R184). -/
  | imul (r : RecN)
  /-- IMULH (R184). -/
  | imulh (r : RecN)
  /-- IMAD (R184). -/
  | imad (r : RecN)
  /-- IDIV (R185). -/
  | idiv (r : RecN)
  /-- IREM (R185). -/
  | irem (r : RecN)
  /-- IMIN (R184). -/
  | imin (r : RecN)
  /-- IMAX (R184). -/
  | imax (r : RecN)
  /-- IABS (R184). -/
  | iabs (r : RecN)
  /-- INEG (R184). -/
  | ineg (r : RecN)
  /-- AND (R184). -/
  | and (r : RecN)
  /-- OR (R184). -/
  | or (r : RecN)
  /-- XOR (R184). -/
  | xor (r : RecN)
  /-- ANDN (R184). -/
  | andn (r : RecN)
  /-- SHL (R186). -/
  | shl (r : RecN)
  /-- SHR (R186). -/
  | shr (r : RecN)
  /-- SRA (R186). -/
  | sra (r : RecN)
  /-- ROT (R186). -/
  | rot (r : RecN)
  /-- CLZ (R186). -/
  | clz (r : RecN)
  /-- POPC (R186). -/
  | popc (r : RecN)
  /-- BREV (R186). -/
  | brev (r : RecN)
  /-- BFX (R187). -/
  | bfx (r : RecN)
  /-- BFI (R187). -/
  | bfi (r : RecN)
  /-- ICMP (R188). -/
  | icmp (r : RecN)
  /-- SEL (R188). -/
  | sel (r : RecN)
  /-- ICLAMP (R188). -/
  | iclamp (r : RecN)
  /-- ADDR (R189). -/
  | addr (r : RecN)
  /-- IADDW (R190). -/
  | iaddw (r : RecN)
  /-- ICVT (R191). -/
  | icvt (r : RecN)
  /-- COPY (R194). -/
  | copy (r : RecN)
  /-- CONST (R195). -/
  | const (r : RecN)
  /-- SINK (R194). -/
  | sink (r : RecN)
  /-- GATE (R194). -/
  | gate (r : RecN)
  /-- JOIN (R195). -/
  | join (r : RecN)
  /-- STEER (R196). -/
  | steer (r : RecN)
  /-- MERGE (R197). -/
  | merge (r : RecN)
  /-- ENTER (R198). -/
  | enter (r : RecN)
  /-- WAVE (R198). -/
  | wave (r : RecN)
  /-- LEAVE (R198). -/
  | leave (r : RecN)
  /-- THROTTLE_ADMIT (R200). -/
  | throttleAdmit (r : RecN)
  /-- REPEAT (R202). -/
  | repeat (r : RecN)
  /-- TAGGET (R203). -/
  | tagget (r : RecN)
  /-- TAGSET (R203). -/
  | tagset (r : RecN)
  /-- VOID (R194). -/
  | void (r : RecN)
  /-- RANGE (R204). -/
  | range (r : RecN)
  /-- RUNEND (R205). -/
  | runend (r : RecN)
  /-- READ (R207). -/
  | read (r : RecN)
  /-- WRITE (R208). -/
  | write (r : RecN)
  /-- BRANCH (R209). -/
  | branch (r : RecN)
  /-- BCALL (R209). -/
  | bcall (r : RecN)
  /-- BRET (R209). -/
  | bret (r : RecN)
  /-- FADD (R213). -/
  | fadd (r : RecN)
  /-- FSUB (R213). -/
  | fsub (r : RecN)
  /-- FMUL (R213). -/
  | fmul (r : RecN)
  /-- FFMA (R214). -/
  | ffma (r : RecN)
  /-- FMIN (R215). -/
  | fmin (r : RecN)
  /-- FMAX (R215). -/
  | fmax (r : RecN)
  /-- FCMP (R216). -/
  | fcmp (r : RecN)
  /-- FCLASS (R217). -/
  | fclass (r : RecN)
  /-- FDIV (R219). -/
  | fdiv (r : RecN)
  /-- FSQRT (R219). -/
  | fsqrt (r : RecN)
  /-- FRCP (R219). -/
  | frcp (r : RecN)
  /-- FRSQ (R219). -/
  | frsq (r : RecN)
  /-- FRCPA (R220). -/
  | frcpa (r : RecN)
  /-- FRSQA (R220). -/
  | frsqa (r : RecN)
  /-- FEXP2 (R219). -/
  | fexp2 (r : RecN)
  /-- FLOG2 (R219). -/
  | flog2 (r : RecN)
  /-- FSINPI (R219). -/
  | fsinpi (r : RecN)
  /-- FCOSPI (R219). -/
  | fcospi (r : RecN)
  /-- FTANH (R219). -/
  | ftanh (r : RecN)
  /-- FSCALE (R221). -/
  | fscale (r : RecN)
  /-- FROUND (R221). -/
  | fround (r : RecN)
  /-- FSGN (R218). -/
  | fsgn (r : RecN)
  /-- CVT (R223). -/
  | cvt (r : RecN)
  /-- FTOI (R224). -/
  | ftoi (r : RecN)
  /-- ITOF (R224). -/
  | itof (r : RecN)
  /-- BXPACK (R225). -/
  | bxpack (r : RecN)
  /-- BXUNPK (R226). -/
  | bxunpk (r : RecN)
  /-- DOT (R227). -/
  | dot (r : RecN)
  /-- LSUM (R228). -/
  | lsum (r : RecN)
  /-- LSCAN (R228). -/
  | lscan (r : RecN)
  /-- LMAX (R229). -/
  | lmax (r : RecN)
  /-- LMIN (R229). -/
  | lmin (r : RecN)
  /-- SHUF (R230). -/
  | shuf (r : RecN)
  /-- BCAST (R231). -/
  | bcast (r : RecN)
  /-- IOTA (R232). -/
  | iota (r : RecN)
  /-- LMASK (R232). -/
  | lmask (r : RecN)
  /-- PACKC (R233). -/
  | packc (r : RecN)
  /-- UNPACKC (R234). -/
  | unpackc (r : RecN)
  /-- CMPFWD (R277). -/
  | cmpfwd (r : RecN)
  /-- RANKADM_CANDIDATE (R278). -/
  | rankadmCandidate (r : RecN)
  /-- LD (R240). -/
  | ld (r : RecM)
  /-- ST (R240). -/
  | st (r : RecM)
  /-- LDX (R241). -/
  | ldx (r : RecM)
  /-- STX (R241). -/
  | stx (r : RecM)
  /-- MNOP (R242). -/
  | mnop (r : RecM)
  /-- FENCE (R242). -/
  | fence (r : RecM)
  /-- ORDER (R242). -/
  | order (r : RecM)
  /-- AADD (R243). -/
  | aadd (r : RecM)
  /-- AMIN (R243). -/
  | amin (r : RecM)
  /-- AMAX (R243). -/
  | amax (r : RecM)
  /-- AAND (R243). -/
  | aand (r : RecM)
  /-- AOR (R243). -/
  | aor (r : RecM)
  /-- AXOR (R243). -/
  | axor (r : RecM)
  /-- AXCHG (R243). -/
  | axchg (r : RecM)
  /-- ACAS (R243). -/
  | acas (r : RecM)
  /-- ACC (R245). -/
  | acc (r : RecM)
  /-- WCFG (R247). -/
  | wcfg (r : RecM)
  /-- WFULL (R248). -/
  | wfull (r : RecM)
  /-- WEMPTY (R248). -/
  | wempty (r : RecM)
  /-- LDP (R276). -/
  | ldp (r : RecM)
  /-- PROMOTE (R343). -/
  | promote (r : RecM)
  /-- XFER (R250). -/
  | xfer (r : RecT)
  /-- XFERS (R250). -/
  | xfers (r : RecT)
  /-- PREF (R251). -/
  | pref (r : RecT)
  /-- PGINIT (R252). -/
  | pginit (r : RecS)
  /-- PGINIT_FREE (R252). -/
  | pginitFree (r : RecS)
  /-- PGADV (R252). -/
  | pgadv (r : RecS)
  /-- PGREAD (R252). -/
  | pgread (r : RecS)
  /-- WAITANY (R253). -/
  | waitany (r : RecN)
  /-- WAITALL (R253). -/
  | waitall (r : RecN)
  /-- FFREADY (R253). -/
  | ffready (r : RecN)
  /-- SCLEMIT (R254). -/
  | sclemit (r : RecN)
  /-- WLOAD (R258). -/
  | wload (r : RecN)
  /-- MMA (R259). -/
  | mma (r : RecN)
  /-- ACCIN (R261). -/
  | accin (r : RecN)
  /-- ACCOUT (R261). -/
  | accout (r : RecN)
  /-- SYSMODE_ENTER (R256). -/
  | sysmodeEnter (r : RecN)
  /-- SYSMODE_LEAVE (R256). -/
  | sysmodeLeave (r : RecN)
  /-- CAVJOIN_LOCAL (R268). -/
  | cavjoinLocal (r : RecS)
  /-- CAVJOIN_SEGMENT (R268). -/
  | cavjoinSegment (r : RecS)
  /-- CAVJOIN_LEAVE (R268). -/
  | cavjoinLeave (r : RecS)
  /-- CAV (R269). -/
  | cav (r : RecS)
  /-- PACESET_INIT (R273). -/
  | pacesetInit (r : RecS)
  /-- PACESET_LOAD (R273). -/
  | pacesetLoad (r : RecS)
  /-- PACESET_UPDATE (R275). -/
  | pacesetUpdate (r : RecS)
  /-- SWEEP (R274). -/
  | sweep (r : RecS)
  /-- PACEQ (R276). -/
  | paceq (r : RecS)
  /-- RULESET_WRITE (R390). -/
  | rulesetWrite (r : RecS)
  /-- RULESET_CLEAR (R390). -/
  | rulesetClear (r : RecS)
  /-- RULEARM_ARM (R387). -/
  | rulearmArm (r : RecS)
  /-- RULEARM_DISARM (R390). -/
  | rulearmDisarm (r : RecS)
  /-- COLL (R389). -/
  | coll (r : RecT)
  /-- SPAWN (R333). -/
  | spawn (r : RecN)
  /-- CALLOC_GRANT (R337). -/
  | callocGrant (r : RecN)
  /-- CALLOC_ENTRY (R337). -/
  | callocEntry (r : RecN)
  /-- RETURN (R335). -/
  | ret (r : RecN)
  /-- BINIT (R352). -/
  | binit (r : RecS)
  /-- BINIT_FREE (R352). -/
  | binitFree (r : RecS)
  /-- BARRIVE (R348). -/
  | barrive (r : RecS)
  /-- BARRIVE_TAG (R348). -/
  | barriveTag (r : RecS)
  /-- BWAIT (R353). -/
  | bwait (r : RecS)
  /-- BDROP (R356). -/
  | bdrop (r : RecS)
  /-- BTEST (R353). -/
  | btest (r : RecS)
  /-- BTEST_TICKET (R353). -/
  | btestTicket (r : RecS)
  /-- QPUT (R316). -/
  | qput (r : RecS)
  /-- QTAKE (R316). -/
  | qtake (r : RecS)
  /-- QTAKE_POLL (R316). -/
  | qtakePoll (r : RecS)
  /-- QSTAT (R316). -/
  | qstat (r : RecS)
  /-- QMARK (R316). -/
  | qmark (r : RecS)
  /-- KSTAGE (R322). -/
  | kstage (r : RecS)
  /-- KFLIP (R324). -/
  | kflip (r : RecS)
  /-- KDRAIN (R329). -/
  | kdrain (r : RecS)
  /-- KDRAIN_PURGE (R326). -/
  | kdrainPurge (r : RecS)
  /-- KDRAIN_POLL (R329). -/
  | kdrainPoll (r : RecS)
  /-- SNAP (R329). -/
  | snap (r : RecS)
  /-- CTXPRI (R299). -/
  | ctxpri (r : RecS)
  /-- PARK (R287). -/
  | park (r : RecS)
  /-- RESUME (R293). -/
  | resume (r : RecS)
  /-- YIELD (R299). -/
  | yield (r : RecS)
  /-- SREAD (R299). -/
  | sread (r : RecS)
  /-- SWRITE (R299). -/
  | swrite (r : RecS)
  /-- MPIN (R371). -/
  | mpin (r : RecS)
  /-- MUNPIN (R370). -/
  | munpin (r : RecS)
  /-- MINV (R370). -/
  | minv (r : RecS)
  /-- MINV_CONTEXT (R370). -/
  | minvContext (r : RecS)
  /-- MPROBE (R372). -/
  | mprobe (r : RecS)
  /-- MPROBE_READ (R370). -/
  | mprobeRead (r : RecS)
  /-- MPROBE_READ_CLEAR (R370). -/
  | mprobeReadClear (r : RecS)
  /-- TRAP (R398). -/
  | trap (r : RecS)
  /-- TRET (R398). -/
  | tret (r : RecS)
  /-- FTAKE (R398). -/
  | ftake (r : RecS)
  /-- FTAKE_RETRY (R398). -/
  | ftakeRetry (r : RecS)
  /-- FTAKE_DISCARD (R398). -/
  | ftakeDiscard (r : RecS)
  /-- FTAKE_PEEK (R398). -/
  | ftakePeek (r : RecS)
  /-- PTEST (R402). -/
  | ptest (r : RecN)
  /-- LSTAT (R390). -/
  | lstat (r : RecS)
  /-- LCTL_TRAIN (R376). -/
  | lctlTrain (r : RecS)
  /-- LCTL_DOWN (R376). -/
  | lctlDown (r : RecS)
  /-- LCTL_RESET (R376). -/
  | lctlReset (r : RecS)
  /-- LCTL_ROUTE (R380). -/
  | lctlRoute (r : RecS)
  /-- LCTL_CLEAR_COUNTERS (R390). -/
  | lctlClearCounters (r : RecS)
  /-- LCTL_OWN_NUMBER (R416). -/
  | lctlOwnNumber (r : RecS)
  /-- TOKEN_ARRIVAL (R41). -/
  | tokenArrival
  /-- FRAME_MATCH_RETURN (R42). -/
  | frameMatchReturn
  /-- SCALE_TOKEN_ARRIVAL (R68). -/
  | scaleTokenArrival
  /-- SHARE_WINDOW_START (R46). -/
  | shareWindowStart
  /-- DELAYED_RESULT_DELIVERY (R212). -/
  | delayedResultDelivery
  /-- THROTTLE_CREDIT (R200). -/
  | throttleCredit
  /-- GENERATOR_EMIT (R204). -/
  | generatorEmit
  /-- RANKADM_BATCH_COMPLETE (R278). -/
  | rankadmBatchComplete
  /-- ACC_ADDEND (R246). -/
  | accAddend
  /-- WCFG_TAKE_EFFECT (R86). -/
  | wcfgTakeEffect
  /-- ORDER_BUFFER_RELEASE (R108). -/
  | orderBufferRelease
  /-- WELL_ACCESS (R237). -/
  | wellAccess
  /-- PAGE_WINDOW_FILL (R90). -/
  | pageWindowFill
  /-- L2_FILL (R95). -/
  | l2Fill
  /-- ARBITER_SERVICE (R131). -/
  | arbiterService
  /-- TRANSFER_SECTOR_DONE (R250). -/
  | transferSectorDone
  /-- PULSE (R126). -/
  | pulse
  /-- SCALE_PORT_CONVERT (R255). -/
  | scalePortConvert
  /-- ARRAY_PASS_UPDATE (R260). -/
  | arrayPassUpdate
  /-- CAVITY_ROUND (R270). -/
  | cavityRound
  /-- CAVITY_CARRY_POLL (R266). -/
  | cavityCarryPoll
  /-- RULE_ARRIVAL (R384). -/
  | ruleArrival
  /-- RULE_EMIT (R386). -/
  | ruleEmit
  /-- DRAIN_FENCE_COMPLETE (R386). -/
  | drainFenceComplete
  /-- EAU_CREDIT (R388). -/
  | eauCredit
  /-- COLOUR_DRAW (R333). -/
  | colourDraw
  /-- RETURN_TOKEN_DELIVERY (R335). -/
  | returnTokenDelivery
  /-- COLOUR_DRAIN (R336). -/
  | colourDrain
  /-- GROUP_IDLE (R339). -/
  | groupIdle
  /-- PARKWAIT_EXPIRY (R340). -/
  | parkwaitExpiry
  /-- SLICE_EXPIRY (R288). -/
  | sliceExpiry
  /-- BARRIER_WATCH_EXPIRY (R349). -/
  | barrierWatchExpiry
  /-- BARRIER_NOTICE (R350). -/
  | barrierNotice
  /-- HOST_APPEND (R303). -/
  | hostAppend
  /-- QUEUE_CONFIG (R305). -/
  | queueConfig
  /-- QUEUE_START (R315). -/
  | queueStart
  /-- QUEUE_STOP (R315). -/
  | queueStop
  /-- QUEUE_RESET (R315). -/
  | queueReset
  /-- QUEUE_CLRO (R315). -/
  | queueClro
  /-- LAUNCH_PLACEMENT (R311). -/
  | launchPlacement
  /-- LAUNCH_COMPLETION (R313). -/
  | launchCompletion
  /-- STAGE_COMPLETE (R321). -/
  | stageComplete
  /-- PLANE_EMPTY (R325). -/
  | planeEmpty
  /-- MARKER_ARRIVAL (R327). -/
  | markerArrival
  /-- SNAP_TIMEOUT (R328). -/
  | snapTimeout
  /-- PARK_GATE (R287). -/
  | parkGate
  /-- PARK_SETTLE (R287). -/
  | parkSettle
  /-- PARK_QUIESCE (R287). -/
  | parkQuiesce
  /-- PARK_STREAM (R289). -/
  | parkStream
  /-- PARK_COMMIT (R294). -/
  | parkCommit
  /-- PARK_FAULT_ABANDON (R294). -/
  | parkFaultAbandon
  /-- PARK_ABANDON_TIMEOUT (R295). -/
  | parkAbandonTimeout
  /-- CREC_WRITE (R282). -/
  | crecWrite
  /-- VALIDATE (R283). -/
  | validate
  /-- RELEASE (R286). -/
  | release
  /-- PRANGE_WRITE (R280). -/
  | prangeWrite
  /-- PLPRI_WRITE (R285). -/
  | plpriWrite
  /-- PULSE_WRITE (R125). -/
  | pulseWrite
  /-- SVCMODE_WRITE (R54). -/
  | svcmodeWrite
  /-- SERVICE_MODE_CHANGE (R54). -/
  | serviceModeChange
  /-- PREEMPT (R295). -/
  | preempt
  /-- PCTL_FREEZE (R296). -/
  | pctlFreeze
  /-- PCTL_RESET (R296). -/
  | pctlReset
  /-- RESUMEP (R293). -/
  | resumep
  /-- REGISTER_WRITE (R281). -/
  | registerWrite
  /-- PAGE_WALK (R360). -/
  | pageWalk
  /-- BLOCK_ENTRY (R52). -/
  | blockEntry
  /-- BLOCK_COMMIT (R53). -/
  | blockCommit
  /-- TRAP_TAKEN (R397). -/
  | trapTaken
  /-- UNCORRECTABLE_ERROR (R400). -/
  | uncorrectableError
  /-- FLIT_RECEIVE (R375). -/
  | flitReceive
  /-- TRAINING_COMPLETE (R376). -/
  | trainingComplete
  /-- TRAINING_FAIL (R376). -/
  | trainingFail
  /-- RESETTING_DRAINED (R376). -/
  | resettingDrained
  /-- PEER_RESET_SEEN (R376). -/
  | peerResetSeen
  /-- LINK_LEAVES_UP (R377). -/
  | linkLeavesUp
  /-- RESPONSE_TIMEOUT (R377). -/
  | responseTimeout
  /-- DIE_LINK_FAILURE (R378). -/
  | dieLinkFailure
  /-- HOST_MEM_REQUEST (R417). -/
  | hostMemRequest
  /-- HOST_PORT_DOWN (R379). -/
  | hostPortDown
  /-- STANDBY_POWER_ON (R408). -/
  | standbyPowerOn
  /-- DIE_RESET_RELEASE (R408). -/
  | dieResetRelease
  /-- PANEL_START (R410). -/
  | panelStart
  /-- SELF_TEST_COMPLETE (R411). -/
  | selfTestComplete
  /-- LIMITER_STEP (R412). -/
  | limiterStep
  /-- POWER_CEILING_STEP (R412). -/
  | powerCeilingStep
  /-- GET_IDENTITY (R414). -/
  | getIdentity
  /-- GET_STATUS (R414). -/
  | getStatus
  /-- READ_COUNTERS (R414). -/
  | readCounters
  /-- READ_HISTOGRAM (R414). -/
  | readHistogram
  /-- SET_POLICY (R413). -/
  | setPolicy
  /-- KEY_ADD (R414). -/
  | keyAdd
  /-- ATTEST (R414). -/
  | attest
  /-- RESET_MAIN (R408). -/
  | resetMain
  /-- MGMT_BUSY (R414). -/
  | mgmtBusy
  /-- COUNTER_COMMIT (R415). -/
  | counterCommit
  /-- HISTOGRAM_SAMPLE (R415). -/
  | histogramSample
  /-- FLIP_TAKES_EFFECT (R324). -/
  | flipTakesEffect
  /-- RESUME_COMPLETE (R293). -/
  | resumeComplete
  /-- PARTITION_FROZEN (R296). -/
  | partitionFrozen
  /-- PARTITION_CLEARED (R296). -/
  | partitionCleared
  /-- RC_REGISTER_READ (R281). -/
  | rcRegisterRead
  /-- CONTROL_LINE_REJECTED (R305). -/
  | controlLineRejected
  /-- HDM_DECODER_WRITE (R379). -/
  | hdmDecoderWrite
  /-- MAIN_POWER_ON (R414). -/
  | mainPowerOn
  /-- MAIN_POWER_OFF (R27). -/
  | mainPowerOff
  /-- ORDERLY_POWER_DOWN (R415). -/
  | orderlyPowerDown
  /-- STANDBY_POWER_LOSS (R415). -/
  | standbyPowerLoss
deriving DecidableEq, Repr

end Sys2Proof
end

