-- ==== Sys2Proof/Config.lean ====
section
/-!
DEFINITION. What the spec leaves to the module or leaves open: opaque constants, applied to the fresh
counter of the state or to what they depend on. Nothing in Lean can evaluate them (logs 2, 8, 9, 15, 26, 28).
-/
namespace Sys2Proof.Config

/-- SERIAL of the identity block (26 R409): differs from module to module (log 2). -/
opaque serial : BitVec 64

/-- DEVKEY of the identity block (26 R409): differs from module to module (log 2). -/
opaque devKey : BitVec 64

/-- The words of the n-th attestation report, in Krytval's format (26 R414), which the spec does not give
(log 26). -/
opaque attestation : Nat → List (BitVec 64)

/-- A 64-bit value that the spec leaves open, by the fresh counter (log 9). -/
opaque freeWord : Nat → BitVec 64

/-- Whether r and s are an ECDSA signature, on brainpoolP384r1 under the key named, of the SHA-384 digest of the file bytes before
SIGN (07 R159): the key behind an identifier, the curve and the digest are not in the spec (log 26). -/
opaque signatureHolds : (key r s : Nat) → (signed : List (BitVec 8)) → Bool

/-- A byte of another part's memory, as its answer brings it within one step of an engine (log 15). -/
opaque remoteByte : (fresh addr : Nat) → BitVec 8

/-- A byte of a save area or of a dump whose place the spec gives to a part of the state without laying that part out in bytes (13 R291,
R296; log 34). -/
opaque imageByte : (fresh place : Nat) → BitVec 8

/-- The virtual address at which the object's DATA entry `sym` stands, for a relocation (07 R155): the spec does not
say how the part learns it (log 28). -/
opaque symbolVa : (object sym : Nat) → Nat

/-- The global panel assigned to a kernel panel that KSTAGE does not place (07 R155; log 28). -/
opaque assignedPanel : (object kidx kpanel : Nat) → Nat

/-- The choice, by the fresh counter, of which of `n` possible moves comes next (26 R418; log 8). -/
opaque choice : Nat → Nat

/-- Cycles, modulo 65, until the change of a colour's grant in a cycle reaches the copy that a site holds (16 R332: within 64). -/
opaque grantLag : (cycle colour site : Nat) → Nat

/-- What the sensors and the checks of the module report in a cycle, by the unit that asks: whether a self-test passes, whether the
die current may rise, the module's power and temperatures, whether the firmware verifies (26 R408, R411, R412, R415; log 8). -/
opaque sensors : (cycle unit : Nat) → Sel

/-- What comes from outside the part in one cycle, by the fresh counter: events of the table with their inputs (log 8). -/
opaque inputs : Nat → List (Instr × Sel)

end Sys2Proof.Config
end

