-- ==== Sys2Proof/WellFormed.lean ====
section
/-!
DEFINITION. Which terms of `Instr` stand for a step of the part: where the table gives a row to one SUB or OPX of an opcode,
the record carries that value.
-/
namespace Sys2Proof

/-- The term stands for a step of the part: a record that was split by SUB or OPX carries its row's value. -/
def Instr.wf (i : Instr) : Bool :=
  match i with
  | .nop _ => true
  | .iadd _ => true
  | .isub _ => true
  | .imul _ => true
  | .imulh _ => true
  | .imad _ => true
  | .idiv _ => true
  | .irem _ => true
  | .imin _ => true
  | .imax _ => true
  | .iabs _ => true
  | .ineg _ => true
  | .and _ => true
  | .or _ => true
  | .xor _ => true
  | .andn _ => true
  | .shl _ => true
  | .shr _ => true
  | .sra _ => true
  | .rot _ => true
  | .clz _ => true
  | .popc _ => true
  | .brev _ => true
  | .bfx _ => true
  | .bfi _ => true
  | .icmp _ => true
  | .sel _ => true
  | .iclamp _ => true
  | .addr _ => true
  | .iaddw _ => true
  | .icvt _ => true
  | .copy _ => true
  | .const _ => true
  | .sink _ => true
  | .gate _ => true
  | .join _ => true
  | .steer _ => true
  | .merge _ => true
  | .enter _ => true
  | .wave _ => true
  | .leave _ => true
  | .throttleAdmit _ => true
  | .repeat _ => true
  | .tagget _ => true
  | .tagset _ => true
  | .void _ => true
  | .range _ => true
  | .runend _ => true
  | .read _ => true
  | .write _ => true
  | .branch _ => true
  | .bcall _ => true
  | .bret _ => true
  | .fadd _ => true
  | .fsub _ => true
  | .fmul _ => true
  | .ffma _ => true
  | .fmin _ => true
  | .fmax _ => true
  | .fcmp _ => true
  | .fclass _ => true
  | .fdiv _ => true
  | .fsqrt _ => true
  | .frcp _ => true
  | .frsq _ => true
  | .frcpa _ => true
  | .frsqa _ => true
  | .fexp2 _ => true
  | .flog2 _ => true
  | .fsinpi _ => true
  | .fcospi _ => true
  | .ftanh _ => true
  | .fscale _ => true
  | .fround _ => true
  | .fsgn _ => true
  | .cvt _ => true
  | .ftoi _ => true
  | .itof _ => true
  | .bxpack _ => true
  | .bxunpk _ => true
  | .dot _ => true
  | .lsum _ => true
  | .lscan _ => true
  | .lmax _ => true
  | .lmin _ => true
  | .shuf _ => true
  | .bcast _ => true
  | .iota _ => true
  | .lmask _ => true
  | .packc _ => true
  | .unpackc _ => true
  | .cmpfwd _ => true
  | .rankadmCandidate _ => true
  | .ld _ => true
  | .st _ => true
  | .ldx _ => true
  | .stx _ => true
  | .mnop _ => true
  | .fence _ => true
  | .order _ => true
  | .aadd _ => true
  | .amin _ => true
  | .amax _ => true
  | .aand _ => true
  | .aor _ => true
  | .axor _ => true
  | .axchg _ => true
  | .acas _ => true
  | .acc _ => true
  | .wcfg _ => true
  | .wfull _ => true
  | .wempty _ => true
  | .ldp _ => true
  | .promote _ => true
  | .xfer _ => true
  | .xfers _ => true
  | .pref _ => true
  | .pginit r => r.sub == 0
  | .pginitFree r => r.sub == 1
  | .pgadv _ => true
  | .pgread _ => true
  | .waitany _ => true
  | .waitall _ => true
  | .ffready _ => true
  | .sclemit _ => true
  | .wload _ => true
  | .mma _ => true
  | .accin _ => true
  | .accout _ => true
  | .sysmodeEnter r => r.hi == 0
  | .sysmodeLeave r => r.hi == 1
  | .cavjoinLocal r => r.sub == 0
  | .cavjoinSegment r => r.sub == 1
  | .cavjoinLeave r => r.sub == 2
  | .cav _ => true
  | .pacesetInit r => r.sub == 0
  | .pacesetLoad r => r.sub == 1
  | .pacesetUpdate r => r.sub == 2
  | .sweep _ => true
  | .paceq _ => true
  | .rulesetWrite r => r.sub == 0
  | .rulesetClear r => r.sub == 1
  | .rulearmArm r => r.sub == 0
  | .rulearmDisarm r => r.sub == 1
  | .coll _ => true
  | .spawn _ => true
  | .callocGrant r => r.hi == 0
  | .callocEntry r => r.hi == 1
  | .ret _ => true
  | .binit r => r.sub == 0
  | .binitFree r => r.sub == 1
  | .barrive r => r.sub == 0
  | .barriveTag r => r.sub == 1
  | .bwait _ => true
  | .bdrop _ => true
  | .btest r => r.sub == 0
  | .btestTicket r => r.sub == 1
  | .qput _ => true
  | .qtake r => r.sub == 0
  | .qtakePoll r => r.sub == 1
  | .qstat _ => true
  | .qmark _ => true
  | .kstage _ => true
  | .kflip _ => true
  | .kdrain r => r.sub == 0
  | .kdrainPurge r => r.sub == 1
  | .kdrainPoll r => r.sub == 2
  | .snap _ => true
  | .ctxpri _ => true
  | .park _ => true
  | .resume _ => true
  | .yield _ => true
  | .sread _ => true
  | .swrite _ => true
  | .mpin _ => true
  | .munpin _ => true
  | .minv r => r.sub == 0
  | .minvContext r => r.sub == 1
  | .mprobe r => r.sub == 0
  | .mprobeRead r => r.sub == 1
  | .mprobeReadClear r => r.sub == 2
  | .trap _ => true
  | .tret _ => true
  | .ftake r => r.sub == 0
  | .ftakeRetry r => r.sub == 1
  | .ftakeDiscard r => r.sub == 2
  | .ftakePeek r => r.sub == 3
  | .ptest _ => true
  | .lstat _ => true
  | .lctlTrain r => r.sub == 1
  | .lctlDown r => r.sub == 2
  | .lctlReset r => r.sub == 3
  | .lctlRoute r => r.sub == 4
  | .lctlClearCounters r => r.sub == 5
  | .lctlOwnNumber r => r.sub == 6
  | .tokenArrival => true
  | .frameMatchReturn => true
  | .scaleTokenArrival => true
  | .shareWindowStart => true
  | .delayedResultDelivery => true
  | .throttleCredit => true
  | .generatorEmit => true
  | .rankadmBatchComplete => true
  | .accAddend => true
  | .wcfgTakeEffect => true
  | .orderBufferRelease => true
  | .wellAccess => true
  | .pageWindowFill => true
  | .l2Fill => true
  | .arbiterService => true
  | .transferSectorDone => true
  | .pulse => true
  | .scalePortConvert => true
  | .arrayPassUpdate => true
  | .cavityRound => true
  | .cavityCarryPoll => true
  | .ruleArrival => true
  | .ruleEmit => true
  | .drainFenceComplete => true
  | .eauCredit => true
  | .colourDraw => true
  | .returnTokenDelivery => true
  | .colourDrain => true
  | .groupIdle => true
  | .parkwaitExpiry => true
  | .sliceExpiry => true
  | .barrierWatchExpiry => true
  | .barrierNotice => true
  | .hostAppend => true
  | .queueConfig => true
  | .queueStart => true
  | .queueStop => true
  | .queueReset => true
  | .queueClro => true
  | .launchPlacement => true
  | .launchCompletion => true
  | .stageComplete => true
  | .planeEmpty => true
  | .markerArrival => true
  | .snapTimeout => true
  | .parkGate => true
  | .parkSettle => true
  | .parkQuiesce => true
  | .parkStream => true
  | .parkCommit => true
  | .parkFaultAbandon => true
  | .parkAbandonTimeout => true
  | .crecWrite => true
  | .validate => true
  | .release => true
  | .prangeWrite => true
  | .plpriWrite => true
  | .pulseWrite => true
  | .svcmodeWrite => true
  | .serviceModeChange => true
  | .preempt => true
  | .pctlFreeze => true
  | .pctlReset => true
  | .resumep => true
  | .registerWrite => true
  | .pageWalk => true
  | .blockEntry => true
  | .blockCommit => true
  | .trapTaken => true
  | .uncorrectableError => true
  | .flitReceive => true
  | .trainingComplete => true
  | .trainingFail => true
  | .resettingDrained => true
  | .peerResetSeen => true
  | .linkLeavesUp => true
  | .responseTimeout => true
  | .dieLinkFailure => true
  | .hostMemRequest => true
  | .hostPortDown => true
  | .standbyPowerOn => true
  | .dieResetRelease => true
  | .panelStart => true
  | .selfTestComplete => true
  | .limiterStep => true
  | .powerCeilingStep => true
  | .getIdentity => true
  | .getStatus => true
  | .readCounters => true
  | .readHistogram => true
  | .setPolicy => true
  | .keyAdd => true
  | .attest => true
  | .resetMain => true
  | .mgmtBusy => true
  | .counterCommit => true
  | .histogramSample => true
  | .flipTakesEffect => true
  | .resumeComplete => true
  | .partitionFrozen => true
  | .partitionCleared => true
  | .rcRegisterRead => true
  | .controlLineRejected => true
  | .hdmDecoderWrite => true
  | .mainPowerOn => true
  | .mainPowerOff => true
  | .orderlyPowerDown => true
  | .standbyPowerLoss => true

/-- A well-formed instruction. -/
abbrev Instr.WellFormed (i : Instr) : Prop := i.wf = true

end Sys2Proof
end

