-- ==== Sys2Proof/Decode.lean ====
section
/-!
DEFINITION. From a 96-bit record word to an instruction and back, written from 08 R161 to R176. `decode` is
total: it refuses by name a reserved opcode, a SUB or OPX that the opcode's description does not list, and a
block header. `encode` gives the word of a record instruction; an event of the table has no word.
-/
namespace Sys2Proof

/-- Why a record word is no instruction (08 R176, R179). -/
inductive DecodeError where
  | reservedOp (op : Nat)
  /-- the opcode's description lists no such SUB or OPX -/
  | badSub (op : Nat)
  /-- BLKHDR never fires (08 R172) -/
  | blockHeader
deriving DecidableEq, Repr

/-- The OP field (08 R161). -/
def opOf (w : Rec96) : BitVec 8 := w.extractLsb' 88 8

/-- The 16 bits of a destination field at bit `lo` (08 R167). -/
def Dest.at (w : Rec96) (lo : Nat) : Dest :=
  { site := w.extractLsb' (lo + 8) 8, node := w.extractLsb' (lo + 3) 5, port := w.extractLsb' lo 3 }

/-- CTL[15:8], in record bits [47:40] (08 R163). -/
def Ctl.ofBits (w : Rec96) : Ctl :=
  { lituse := w.extractLsb' 46 2, pred := w.getLsbD 45, emit0 := w.extractLsb' 43 2,
    emit1 := w.extractLsb' 41 2, nullpass := w.getLsbD 40 }

/-- Format N (08 R162). -/
def RecN.ofBits (w : Rec96) : RecN :=
  { hi := w.extractLsb' 84 4, fmt := w.extractLsb' 80 4, d0 := Dest.at w 64, d1 := Dest.at w 48,
    ctl := Ctl.ofBits w, cf := w.extractLsb' 32 8, lit := w.extractLsb' 0 32 }

/-- Format M (08 R168). -/
def RecM.ofBits (w : Rec96) : RecM :=
  { space := w.extractLsb' 86 2, ord := w.extractLsb' 84 2, fmt := w.extractLsb' 80 4,
    d0 := Dest.at w 64, osite := w.extractLsb' 56 8, d1lo := w.extractLsb' 48 8, ctl := Ctl.ofBits w,
    scope := w.extractLsb' 37 3, lsid := w.extractLsb' 32 5, prev := w.extractLsb' 24 8,
    seq := w.extractLsb' 16 8, next := w.extractLsb' 8 8, off := w.extractLsb' 0 8 }

/-- Format T (08 R170). -/
def RecT.ofBits (w : Rec96) : RecT :=
  { ctag := w.extractLsb' 82 6, hold := w.getLsbD 81, fill := w.getLsbD 80, d0 := Dest.at w 64,
    d1 := Dest.at w 48, ctl := Ctl.ofBits w, pgn := w.extractLsb' 34 6, rsv := w.extractLsb' 32 2,
    mark := w.extractLsb' 16 16, len := w.extractLsb' 0 16 }

/-- Format S (08 R171). -/
def RecS.ofBits (w : Rec96) : RecS :=
  { sub := w.extractLsb' 80 8, d0 := Dest.at w 64, d1 := Dest.at w 48, ctl := Ctl.ofBits w,
    cf := w.extractLsb' 32 8, obj := w.extractLsb' 0 32 }

/-- The instruction of a record word (08 R176). THROTTLE and RANKADM words stand for the step that a match
of the record takes; their other step is an event. -/
def decode (w : Rec96) : Except DecodeError Instr :=
  match (opOf w).toNat with
  | 0x00 => -- NOP
    .ok (.nop (RecN.ofBits w))
  | 0x01 => -- IADD
    .ok (.iadd (RecN.ofBits w))
  | 0x02 => -- ISUB
    .ok (.isub (RecN.ofBits w))
  | 0x03 => -- IMUL
    .ok (.imul (RecN.ofBits w))
  | 0x04 => -- IMULH
    .ok (.imulh (RecN.ofBits w))
  | 0x05 => -- IMAD
    .ok (.imad (RecN.ofBits w))
  | 0x06 => -- IDIV
    .ok (.idiv (RecN.ofBits w))
  | 0x07 => -- IREM
    .ok (.irem (RecN.ofBits w))
  | 0x08 => -- IMIN
    .ok (.imin (RecN.ofBits w))
  | 0x09 => -- IMAX
    .ok (.imax (RecN.ofBits w))
  | 0x0A => -- IABS
    .ok (.iabs (RecN.ofBits w))
  | 0x0B => -- INEG
    .ok (.ineg (RecN.ofBits w))
  | 0x0C => -- AND
    .ok (.and (RecN.ofBits w))
  | 0x0D => -- OR
    .ok (.or (RecN.ofBits w))
  | 0x0E => -- XOR
    .ok (.xor (RecN.ofBits w))
  | 0x0F => -- ANDN
    .ok (.andn (RecN.ofBits w))
  | 0x10 => -- SHL
    .ok (.shl (RecN.ofBits w))
  | 0x11 => -- SHR
    .ok (.shr (RecN.ofBits w))
  | 0x12 => -- SRA
    .ok (.sra (RecN.ofBits w))
  | 0x13 => -- ROT
    .ok (.rot (RecN.ofBits w))
  | 0x14 => -- CLZ
    .ok (.clz (RecN.ofBits w))
  | 0x15 => -- POPC
    .ok (.popc (RecN.ofBits w))
  | 0x16 => -- BREV
    .ok (.brev (RecN.ofBits w))
  | 0x17 => -- BFX
    .ok (.bfx (RecN.ofBits w))
  | 0x18 => -- BFI
    .ok (.bfi (RecN.ofBits w))
  | 0x19 => -- ICMP
    .ok (.icmp (RecN.ofBits w))
  | 0x1A => -- SEL
    .ok (.sel (RecN.ofBits w))
  | 0x1B => -- ICLAMP
    .ok (.iclamp (RecN.ofBits w))
  | 0x1C => -- ADDR
    .ok (.addr (RecN.ofBits w))
  | 0x1D => -- IADDW
    .ok (.iaddw (RecN.ofBits w))
  | 0x1E => -- ICVT
    .ok (.icvt (RecN.ofBits w))
  | 0x20 => -- COPY
    .ok (.copy (RecN.ofBits w))
  | 0x21 => -- CONST
    .ok (.const (RecN.ofBits w))
  | 0x22 => -- SINK
    .ok (.sink (RecN.ofBits w))
  | 0x23 => -- GATE
    .ok (.gate (RecN.ofBits w))
  | 0x24 => -- JOIN
    .ok (.join (RecN.ofBits w))
  | 0x25 => -- STEER
    .ok (.steer (RecN.ofBits w))
  | 0x26 => -- MERGE
    .ok (.merge (RecN.ofBits w))
  | 0x27 => -- ENTER
    .ok (.enter (RecN.ofBits w))
  | 0x28 => -- WAVE
    .ok (.wave (RecN.ofBits w))
  | 0x29 => -- LEAVE
    .ok (.leave (RecN.ofBits w))
  | 0x2A => -- THROTTLE
    .ok (.throttleAdmit (RecN.ofBits w))
  | 0x2B => -- REPEAT
    .ok (.repeat (RecN.ofBits w))
  | 0x2C => -- TAGGET
    .ok (.tagget (RecN.ofBits w))
  | 0x2D => -- TAGSET
    .ok (.tagset (RecN.ofBits w))
  | 0x2E => -- VOID
    .ok (.void (RecN.ofBits w))
  | 0x2F => -- RANGE
    .ok (.range (RecN.ofBits w))
  | 0x30 => -- RUNEND
    .ok (.runend (RecN.ofBits w))
  | 0x31 => -- READ
    .ok (.read (RecN.ofBits w))
  | 0x32 => -- WRITE
    .ok (.write (RecN.ofBits w))
  | 0x33 => -- BRANCH
    .ok (.branch (RecN.ofBits w))
  | 0x34 => -- BCALL
    .ok (.bcall (RecN.ofBits w))
  | 0x35 => -- BRET
    .ok (.bret (RecN.ofBits w))
  | 0x40 => -- FADD
    .ok (.fadd (RecN.ofBits w))
  | 0x41 => -- FSUB
    .ok (.fsub (RecN.ofBits w))
  | 0x42 => -- FMUL
    .ok (.fmul (RecN.ofBits w))
  | 0x43 => -- FFMA
    .ok (.ffma (RecN.ofBits w))
  | 0x44 => -- FMIN
    .ok (.fmin (RecN.ofBits w))
  | 0x45 => -- FMAX
    .ok (.fmax (RecN.ofBits w))
  | 0x46 => -- FCMP
    .ok (.fcmp (RecN.ofBits w))
  | 0x47 => -- FCLASS
    .ok (.fclass (RecN.ofBits w))
  | 0x48 => -- FDIV
    .ok (.fdiv (RecN.ofBits w))
  | 0x49 => -- FSQRT
    .ok (.fsqrt (RecN.ofBits w))
  | 0x4A => -- FRCP
    .ok (.frcp (RecN.ofBits w))
  | 0x4B => -- FRSQ
    .ok (.frsq (RecN.ofBits w))
  | 0x4C => -- FRCPA
    .ok (.frcpa (RecN.ofBits w))
  | 0x4D => -- FRSQA
    .ok (.frsqa (RecN.ofBits w))
  | 0x4E => -- FEXP2
    .ok (.fexp2 (RecN.ofBits w))
  | 0x4F => -- FLOG2
    .ok (.flog2 (RecN.ofBits w))
  | 0x50 => -- FSINPI
    .ok (.fsinpi (RecN.ofBits w))
  | 0x51 => -- FCOSPI
    .ok (.fcospi (RecN.ofBits w))
  | 0x52 => -- FTANH
    .ok (.ftanh (RecN.ofBits w))
  | 0x53 => -- FSCALE
    .ok (.fscale (RecN.ofBits w))
  | 0x54 => -- FROUND
    .ok (.fround (RecN.ofBits w))
  | 0x55 => -- FSGN
    .ok (.fsgn (RecN.ofBits w))
  | 0x60 => -- CVT
    .ok (.cvt (RecN.ofBits w))
  | 0x61 => -- FTOI
    .ok (.ftoi (RecN.ofBits w))
  | 0x62 => -- ITOF
    .ok (.itof (RecN.ofBits w))
  | 0x63 => -- BXPACK
    .ok (.bxpack (RecN.ofBits w))
  | 0x64 => -- BXUNPK
    .ok (.bxunpk (RecN.ofBits w))
  | 0x65 => -- DOT
    .ok (.dot (RecN.ofBits w))
  | 0x66 => -- LSUM
    .ok (.lsum (RecN.ofBits w))
  | 0x67 => -- LSCAN
    .ok (.lscan (RecN.ofBits w))
  | 0x68 => -- LMAX
    .ok (.lmax (RecN.ofBits w))
  | 0x69 => -- LMIN
    .ok (.lmin (RecN.ofBits w))
  | 0x6A => -- SHUF
    .ok (.shuf (RecN.ofBits w))
  | 0x6B => -- BCAST
    .ok (.bcast (RecN.ofBits w))
  | 0x6C => -- IOTA
    .ok (.iota (RecN.ofBits w))
  | 0x6D => -- LMASK
    .ok (.lmask (RecN.ofBits w))
  | 0x6E => -- PACKC
    .ok (.packc (RecN.ofBits w))
  | 0x6F => -- UNPACKC
    .ok (.unpackc (RecN.ofBits w))
  | 0x70 => -- CMPFWD
    .ok (.cmpfwd (RecN.ofBits w))
  | 0x71 => -- RANKADM
    .ok (.rankadmCandidate (RecN.ofBits w))
  | 0x80 => -- LD
    .ok (.ld (RecM.ofBits w))
  | 0x81 => -- ST
    .ok (.st (RecM.ofBits w))
  | 0x82 => -- LDX
    .ok (.ldx (RecM.ofBits w))
  | 0x83 => -- STX
    .ok (.stx (RecM.ofBits w))
  | 0x84 => -- MNOP
    .ok (.mnop (RecM.ofBits w))
  | 0x85 => -- FENCE
    .ok (.fence (RecM.ofBits w))
  | 0x86 => -- ORDER
    .ok (.order (RecM.ofBits w))
  | 0x87 => -- AADD
    .ok (.aadd (RecM.ofBits w))
  | 0x88 => -- AMIN
    .ok (.amin (RecM.ofBits w))
  | 0x89 => -- AMAX
    .ok (.amax (RecM.ofBits w))
  | 0x8A => -- AAND
    .ok (.aand (RecM.ofBits w))
  | 0x8B => -- AOR
    .ok (.aor (RecM.ofBits w))
  | 0x8C => -- AXOR
    .ok (.axor (RecM.ofBits w))
  | 0x8D => -- AXCHG
    .ok (.axchg (RecM.ofBits w))
  | 0x8E => -- ACAS
    .ok (.acas (RecM.ofBits w))
  | 0x8F => -- ACC
    .ok (.acc (RecM.ofBits w))
  | 0x90 => -- WCFG
    .ok (.wcfg (RecM.ofBits w))
  | 0x91 => -- WFULL
    .ok (.wfull (RecM.ofBits w))
  | 0x92 => -- WEMPTY
    .ok (.wempty (RecM.ofBits w))
  | 0x93 => -- LDP
    .ok (.ldp (RecM.ofBits w))
  | 0x94 => -- PROMOTE
    .ok (.promote (RecM.ofBits w))
  | 0xA0 => -- XFER
    .ok (.xfer (RecT.ofBits w))
  | 0xA1 => -- XFERS
    .ok (.xfers (RecT.ofBits w))
  | 0xA2 => -- PREF
    .ok (.pref (RecT.ofBits w))
  | 0xA3 => -- PGINIT
    if (RecS.ofBits w).sub = 0 then .ok (.pginit (RecS.ofBits w)) else
    if (RecS.ofBits w).sub = 1 then .ok (.pginitFree (RecS.ofBits w)) else .error (.badSub 163)
  | 0xA4 => -- PGADV
    .ok (.pgadv (RecS.ofBits w))
  | 0xA5 => -- PGREAD
    .ok (.pgread (RecS.ofBits w))
  | 0xA6 => -- WAITANY
    .ok (.waitany (RecN.ofBits w))
  | 0xA7 => -- WAITALL
    .ok (.waitall (RecN.ofBits w))
  | 0xA8 => -- FFREADY
    .ok (.ffready (RecN.ofBits w))
  | 0xA9 => -- SCLEMIT
    .ok (.sclemit (RecN.ofBits w))
  | 0xAA => -- WLOAD
    .ok (.wload (RecN.ofBits w))
  | 0xAB => -- MMA
    .ok (.mma (RecN.ofBits w))
  | 0xAC => -- ACCIN
    .ok (.accin (RecN.ofBits w))
  | 0xAD => -- ACCOUT
    .ok (.accout (RecN.ofBits w))
  | 0xAE => -- SYSMODE
    if (RecN.ofBits w).hi = 0 then .ok (.sysmodeEnter (RecN.ofBits w)) else
    if (RecN.ofBits w).hi = 1 then .ok (.sysmodeLeave (RecN.ofBits w)) else .error (.badSub 174)
  | 0xC0 => -- CAVJOIN
    if (RecS.ofBits w).sub = 0 then .ok (.cavjoinLocal (RecS.ofBits w)) else
    if (RecS.ofBits w).sub = 1 then .ok (.cavjoinSegment (RecS.ofBits w)) else
    if (RecS.ofBits w).sub = 2 then .ok (.cavjoinLeave (RecS.ofBits w)) else .error (.badSub 192)
  | 0xC1 => -- CAV
    .ok (.cav (RecS.ofBits w))
  | 0xC2 => -- PACESET
    if (RecS.ofBits w).sub = 0 then .ok (.pacesetInit (RecS.ofBits w)) else
    if (RecS.ofBits w).sub = 1 then .ok (.pacesetLoad (RecS.ofBits w)) else
    if (RecS.ofBits w).sub = 2 then .ok (.pacesetUpdate (RecS.ofBits w)) else .error (.badSub 194)
  | 0xC3 => -- SWEEP
    .ok (.sweep (RecS.ofBits w))
  | 0xC4 => -- PACEQ
    .ok (.paceq (RecS.ofBits w))
  | 0xC5 => -- RULESET
    if (RecS.ofBits w).sub = 0 then .ok (.rulesetWrite (RecS.ofBits w)) else
    if (RecS.ofBits w).sub = 1 then .ok (.rulesetClear (RecS.ofBits w)) else .error (.badSub 197)
  | 0xC6 => -- RULEARM
    if (RecS.ofBits w).sub = 0 then .ok (.rulearmArm (RecS.ofBits w)) else
    if (RecS.ofBits w).sub = 1 then .ok (.rulearmDisarm (RecS.ofBits w)) else .error (.badSub 198)
  | 0xC7 => -- COLL
    .ok (.coll (RecT.ofBits w))
  | 0xC8 => -- SPAWN
    .ok (.spawn (RecN.ofBits w))
  | 0xC9 => -- CALLOC
    if (RecN.ofBits w).hi = 0 then .ok (.callocGrant (RecN.ofBits w)) else
    if (RecN.ofBits w).hi = 1 then .ok (.callocEntry (RecN.ofBits w)) else .error (.badSub 201)
  | 0xCA => -- RETURN
    .ok (.ret (RecN.ofBits w))
  | 0xCB => -- BINIT
    if (RecS.ofBits w).sub = 0 then .ok (.binit (RecS.ofBits w)) else
    if (RecS.ofBits w).sub = 1 then .ok (.binitFree (RecS.ofBits w)) else .error (.badSub 203)
  | 0xCC => -- BARRIVE
    if (RecS.ofBits w).sub = 0 then .ok (.barrive (RecS.ofBits w)) else
    if (RecS.ofBits w).sub = 1 then .ok (.barriveTag (RecS.ofBits w)) else .error (.badSub 204)
  | 0xCD => -- BWAIT
    .ok (.bwait (RecS.ofBits w))
  | 0xCE => -- BDROP
    .ok (.bdrop (RecS.ofBits w))
  | 0xCF => -- BTEST
    if (RecS.ofBits w).sub = 0 then .ok (.btest (RecS.ofBits w)) else
    if (RecS.ofBits w).sub = 1 then .ok (.btestTicket (RecS.ofBits w)) else .error (.badSub 207)
  | 0xE0 => -- QPUT
    .ok (.qput (RecS.ofBits w))
  | 0xE1 => -- QTAKE
    if (RecS.ofBits w).sub = 0 then .ok (.qtake (RecS.ofBits w)) else
    if (RecS.ofBits w).sub = 1 then .ok (.qtakePoll (RecS.ofBits w)) else .error (.badSub 225)
  | 0xE2 => -- QSTAT
    .ok (.qstat (RecS.ofBits w))
  | 0xE3 => -- QMARK
    .ok (.qmark (RecS.ofBits w))
  | 0xE4 => -- KSTAGE
    .ok (.kstage (RecS.ofBits w))
  | 0xE5 => -- KFLIP
    .ok (.kflip (RecS.ofBits w))
  | 0xE6 => -- KDRAIN
    if (RecS.ofBits w).sub = 0 then .ok (.kdrain (RecS.ofBits w)) else
    if (RecS.ofBits w).sub = 1 then .ok (.kdrainPurge (RecS.ofBits w)) else
    if (RecS.ofBits w).sub = 2 then .ok (.kdrainPoll (RecS.ofBits w)) else .error (.badSub 230)
  | 0xE7 => -- SNAP
    .ok (.snap (RecS.ofBits w))
  | 0xE8 => -- CTXPRI
    .ok (.ctxpri (RecS.ofBits w))
  | 0xE9 => -- PARK
    .ok (.park (RecS.ofBits w))
  | 0xEA => -- RESUME
    .ok (.resume (RecS.ofBits w))
  | 0xEB => -- YIELD
    .ok (.yield (RecS.ofBits w))
  | 0xEC => -- MPIN
    .ok (.mpin (RecS.ofBits w))
  | 0xED => -- MUNPIN
    .ok (.munpin (RecS.ofBits w))
  | 0xEE => -- MINV
    if (RecS.ofBits w).sub = 0 then .ok (.minv (RecS.ofBits w)) else
    if (RecS.ofBits w).sub = 1 then .ok (.minvContext (RecS.ofBits w)) else .error (.badSub 238)
  | 0xEF => -- MPROBE
    if (RecS.ofBits w).sub = 0 then .ok (.mprobe (RecS.ofBits w)) else
    if (RecS.ofBits w).sub = 1 then .ok (.mprobeRead (RecS.ofBits w)) else
    if (RecS.ofBits w).sub = 2 then .ok (.mprobeReadClear (RecS.ofBits w)) else .error (.badSub 239)
  | 0xF0 => -- TRAP
    .ok (.trap (RecS.ofBits w))
  | 0xF1 => -- TRET
    .ok (.tret (RecS.ofBits w))
  | 0xF2 => -- FTAKE
    if (RecS.ofBits w).sub = 0 then .ok (.ftake (RecS.ofBits w)) else
    if (RecS.ofBits w).sub = 1 then .ok (.ftakeRetry (RecS.ofBits w)) else
    if (RecS.ofBits w).sub = 2 then .ok (.ftakeDiscard (RecS.ofBits w)) else
    if (RecS.ofBits w).sub = 3 then .ok (.ftakePeek (RecS.ofBits w)) else .error (.badSub 242)
  | 0xF3 => -- PTEST
    .ok (.ptest (RecN.ofBits w))
  | 0xF4 => -- SREAD
    .ok (.sread (RecS.ofBits w))
  | 0xF5 => -- SWRITE
    .ok (.swrite (RecS.ofBits w))
  | 0xF6 => -- LSTAT
    .ok (.lstat (RecS.ofBits w))
  | 0xF7 => -- LCTL
    if (RecS.ofBits w).sub = 1 then .ok (.lctlTrain (RecS.ofBits w)) else
    if (RecS.ofBits w).sub = 2 then .ok (.lctlDown (RecS.ofBits w)) else
    if (RecS.ofBits w).sub = 3 then .ok (.lctlReset (RecS.ofBits w)) else
    if (RecS.ofBits w).sub = 4 then .ok (.lctlRoute (RecS.ofBits w)) else
    if (RecS.ofBits w).sub = 5 then .ok (.lctlClearCounters (RecS.ofBits w)) else
    if (RecS.ofBits w).sub = 6 then .ok (.lctlOwnNumber (RecS.ofBits w)) else .error (.badSub 247)
  | 0xFF => .error .blockHeader
  | op => .error (.reservedOp op)

/-- The bits of a destination field. -/
def Dest.bits (d : Dest) : BitVec 16 := d.site ++ d.node ++ d.port

/-- A Boolean as one bit. -/
def bit1 (b : Bool) : BitVec 1 := BitVec.ofBool b

/-- The bits of CTL[15:8]. -/
def Ctl.bits (c : Ctl) : BitVec 8 := c.lituse ++ bit1 c.pred ++ c.emit0 ++ c.emit1 ++ bit1 c.nullpass

/-- A format N word (08 R162). -/
def RecN.bits (op : BitVec 8) (r : RecN) : Rec96 :=
  op ++ r.hi ++ r.fmt ++ r.d0.bits ++ r.d1.bits ++ r.ctl.bits ++ r.cf ++ r.lit

/-- A format M word (08 R168). -/
def RecM.bits (op : BitVec 8) (r : RecM) : Rec96 :=
  op ++ r.space ++ r.ord ++ r.fmt ++ r.d0.bits ++ r.osite ++ r.d1lo ++ r.ctl.bits ++ r.scope ++ r.lsid ++
    r.prev ++ r.seq ++ r.next ++ r.off

/-- A format T word (08 R170). -/
def RecT.bits (op : BitVec 8) (r : RecT) : Rec96 :=
  op ++ r.ctag ++ bit1 r.hold ++ bit1 r.fill ++ r.d0.bits ++ r.d1.bits ++ r.ctl.bits ++ r.pgn ++ r.rsv ++
    r.mark ++ r.len

/-- A format S word (08 R171). -/
def RecS.bits (op : BitVec 8) (r : RecS) : Rec96 :=
  op ++ r.sub ++ r.d0.bits ++ r.d1.bits ++ r.ctl.bits ++ r.cf ++ r.obj

/-- The word of a record instruction; `none` for an event. -/
def encode (i : Instr) : Option Rec96 :=
  match i with
  | .nop r => some (r.bits 0x00)
  | .iadd r => some (r.bits 0x01)
  | .isub r => some (r.bits 0x02)
  | .imul r => some (r.bits 0x03)
  | .imulh r => some (r.bits 0x04)
  | .imad r => some (r.bits 0x05)
  | .idiv r => some (r.bits 0x06)
  | .irem r => some (r.bits 0x07)
  | .imin r => some (r.bits 0x08)
  | .imax r => some (r.bits 0x09)
  | .iabs r => some (r.bits 0x0A)
  | .ineg r => some (r.bits 0x0B)
  | .and r => some (r.bits 0x0C)
  | .or r => some (r.bits 0x0D)
  | .xor r => some (r.bits 0x0E)
  | .andn r => some (r.bits 0x0F)
  | .shl r => some (r.bits 0x10)
  | .shr r => some (r.bits 0x11)
  | .sra r => some (r.bits 0x12)
  | .rot r => some (r.bits 0x13)
  | .clz r => some (r.bits 0x14)
  | .popc r => some (r.bits 0x15)
  | .brev r => some (r.bits 0x16)
  | .bfx r => some (r.bits 0x17)
  | .bfi r => some (r.bits 0x18)
  | .icmp r => some (r.bits 0x19)
  | .sel r => some (r.bits 0x1A)
  | .iclamp r => some (r.bits 0x1B)
  | .addr r => some (r.bits 0x1C)
  | .iaddw r => some (r.bits 0x1D)
  | .icvt r => some (r.bits 0x1E)
  | .copy r => some (r.bits 0x20)
  | .const r => some (r.bits 0x21)
  | .sink r => some (r.bits 0x22)
  | .gate r => some (r.bits 0x23)
  | .join r => some (r.bits 0x24)
  | .steer r => some (r.bits 0x25)
  | .merge r => some (r.bits 0x26)
  | .enter r => some (r.bits 0x27)
  | .wave r => some (r.bits 0x28)
  | .leave r => some (r.bits 0x29)
  | .throttleAdmit r => some (r.bits 0x2A)
  | .repeat r => some (r.bits 0x2B)
  | .tagget r => some (r.bits 0x2C)
  | .tagset r => some (r.bits 0x2D)
  | .void r => some (r.bits 0x2E)
  | .range r => some (r.bits 0x2F)
  | .runend r => some (r.bits 0x30)
  | .read r => some (r.bits 0x31)
  | .write r => some (r.bits 0x32)
  | .branch r => some (r.bits 0x33)
  | .bcall r => some (r.bits 0x34)
  | .bret r => some (r.bits 0x35)
  | .fadd r => some (r.bits 0x40)
  | .fsub r => some (r.bits 0x41)
  | .fmul r => some (r.bits 0x42)
  | .ffma r => some (r.bits 0x43)
  | .fmin r => some (r.bits 0x44)
  | .fmax r => some (r.bits 0x45)
  | .fcmp r => some (r.bits 0x46)
  | .fclass r => some (r.bits 0x47)
  | .fdiv r => some (r.bits 0x48)
  | .fsqrt r => some (r.bits 0x49)
  | .frcp r => some (r.bits 0x4A)
  | .frsq r => some (r.bits 0x4B)
  | .frcpa r => some (r.bits 0x4C)
  | .frsqa r => some (r.bits 0x4D)
  | .fexp2 r => some (r.bits 0x4E)
  | .flog2 r => some (r.bits 0x4F)
  | .fsinpi r => some (r.bits 0x50)
  | .fcospi r => some (r.bits 0x51)
  | .ftanh r => some (r.bits 0x52)
  | .fscale r => some (r.bits 0x53)
  | .fround r => some (r.bits 0x54)
  | .fsgn r => some (r.bits 0x55)
  | .cvt r => some (r.bits 0x60)
  | .ftoi r => some (r.bits 0x61)
  | .itof r => some (r.bits 0x62)
  | .bxpack r => some (r.bits 0x63)
  | .bxunpk r => some (r.bits 0x64)
  | .dot r => some (r.bits 0x65)
  | .lsum r => some (r.bits 0x66)
  | .lscan r => some (r.bits 0x67)
  | .lmax r => some (r.bits 0x68)
  | .lmin r => some (r.bits 0x69)
  | .shuf r => some (r.bits 0x6A)
  | .bcast r => some (r.bits 0x6B)
  | .iota r => some (r.bits 0x6C)
  | .lmask r => some (r.bits 0x6D)
  | .packc r => some (r.bits 0x6E)
  | .unpackc r => some (r.bits 0x6F)
  | .cmpfwd r => some (r.bits 0x70)
  | .rankadmCandidate r => some (r.bits 0x71)
  | .ld r => some (r.bits 0x80)
  | .st r => some (r.bits 0x81)
  | .ldx r => some (r.bits 0x82)
  | .stx r => some (r.bits 0x83)
  | .mnop r => some (r.bits 0x84)
  | .fence r => some (r.bits 0x85)
  | .order r => some (r.bits 0x86)
  | .aadd r => some (r.bits 0x87)
  | .amin r => some (r.bits 0x88)
  | .amax r => some (r.bits 0x89)
  | .aand r => some (r.bits 0x8A)
  | .aor r => some (r.bits 0x8B)
  | .axor r => some (r.bits 0x8C)
  | .axchg r => some (r.bits 0x8D)
  | .acas r => some (r.bits 0x8E)
  | .acc r => some (r.bits 0x8F)
  | .wcfg r => some (r.bits 0x90)
  | .wfull r => some (r.bits 0x91)
  | .wempty r => some (r.bits 0x92)
  | .ldp r => some (r.bits 0x93)
  | .promote r => some (r.bits 0x94)
  | .xfer r => some (r.bits 0xA0)
  | .xfers r => some (r.bits 0xA1)
  | .pref r => some (r.bits 0xA2)
  | .pginit r => some (r.bits 0xA3)
  | .pginitFree r => some (r.bits 0xA3)
  | .pgadv r => some (r.bits 0xA4)
  | .pgread r => some (r.bits 0xA5)
  | .waitany r => some (r.bits 0xA6)
  | .waitall r => some (r.bits 0xA7)
  | .ffready r => some (r.bits 0xA8)
  | .sclemit r => some (r.bits 0xA9)
  | .wload r => some (r.bits 0xAA)
  | .mma r => some (r.bits 0xAB)
  | .accin r => some (r.bits 0xAC)
  | .accout r => some (r.bits 0xAD)
  | .sysmodeEnter r => some (r.bits 0xAE)
  | .sysmodeLeave r => some (r.bits 0xAE)
  | .cavjoinLocal r => some (r.bits 0xC0)
  | .cavjoinSegment r => some (r.bits 0xC0)
  | .cavjoinLeave r => some (r.bits 0xC0)
  | .cav r => some (r.bits 0xC1)
  | .pacesetInit r => some (r.bits 0xC2)
  | .pacesetLoad r => some (r.bits 0xC2)
  | .pacesetUpdate r => some (r.bits 0xC2)
  | .sweep r => some (r.bits 0xC3)
  | .paceq r => some (r.bits 0xC4)
  | .rulesetWrite r => some (r.bits 0xC5)
  | .rulesetClear r => some (r.bits 0xC5)
  | .rulearmArm r => some (r.bits 0xC6)
  | .rulearmDisarm r => some (r.bits 0xC6)
  | .coll r => some (r.bits 0xC7)
  | .spawn r => some (r.bits 0xC8)
  | .callocGrant r => some (r.bits 0xC9)
  | .callocEntry r => some (r.bits 0xC9)
  | .ret r => some (r.bits 0xCA)
  | .binit r => some (r.bits 0xCB)
  | .binitFree r => some (r.bits 0xCB)
  | .barrive r => some (r.bits 0xCC)
  | .barriveTag r => some (r.bits 0xCC)
  | .bwait r => some (r.bits 0xCD)
  | .bdrop r => some (r.bits 0xCE)
  | .btest r => some (r.bits 0xCF)
  | .btestTicket r => some (r.bits 0xCF)
  | .qput r => some (r.bits 0xE0)
  | .qtake r => some (r.bits 0xE1)
  | .qtakePoll r => some (r.bits 0xE1)
  | .qstat r => some (r.bits 0xE2)
  | .qmark r => some (r.bits 0xE3)
  | .kstage r => some (r.bits 0xE4)
  | .kflip r => some (r.bits 0xE5)
  | .kdrain r => some (r.bits 0xE6)
  | .kdrainPurge r => some (r.bits 0xE6)
  | .kdrainPoll r => some (r.bits 0xE6)
  | .snap r => some (r.bits 0xE7)
  | .ctxpri r => some (r.bits 0xE8)
  | .park r => some (r.bits 0xE9)
  | .resume r => some (r.bits 0xEA)
  | .yield r => some (r.bits 0xEB)
  | .sread r => some (r.bits 0xF4)
  | .swrite r => some (r.bits 0xF5)
  | .mpin r => some (r.bits 0xEC)
  | .munpin r => some (r.bits 0xED)
  | .minv r => some (r.bits 0xEE)
  | .minvContext r => some (r.bits 0xEE)
  | .mprobe r => some (r.bits 0xEF)
  | .mprobeRead r => some (r.bits 0xEF)
  | .mprobeReadClear r => some (r.bits 0xEF)
  | .trap r => some (r.bits 0xF0)
  | .tret r => some (r.bits 0xF1)
  | .ftake r => some (r.bits 0xF2)
  | .ftakeRetry r => some (r.bits 0xF2)
  | .ftakeDiscard r => some (r.bits 0xF2)
  | .ftakePeek r => some (r.bits 0xF2)
  | .ptest r => some (r.bits 0xF3)
  | .lstat r => some (r.bits 0xF6)
  | .lctlTrain r => some (r.bits 0xF7)
  | .lctlDown r => some (r.bits 0xF7)
  | .lctlReset r => some (r.bits 0xF7)
  | .lctlRoute r => some (r.bits 0xF7)
  | .lctlClearCounters r => some (r.bits 0xF7)
  | .lctlOwnNumber r => some (r.bits 0xF7)
  | .tokenArrival => none
  | .frameMatchReturn => none
  | .scaleTokenArrival => none
  | .shareWindowStart => none
  | .delayedResultDelivery => none
  | .throttleCredit => none
  | .generatorEmit => none
  | .rankadmBatchComplete => none
  | .accAddend => none
  | .wcfgTakeEffect => none
  | .orderBufferRelease => none
  | .wellAccess => none
  | .pageWindowFill => none
  | .l2Fill => none
  | .arbiterService => none
  | .transferSectorDone => none
  | .pulse => none
  | .scalePortConvert => none
  | .arrayPassUpdate => none
  | .cavityRound => none
  | .cavityCarryPoll => none
  | .ruleArrival => none
  | .ruleEmit => none
  | .drainFenceComplete => none
  | .eauCredit => none
  | .colourDraw => none
  | .returnTokenDelivery => none
  | .colourDrain => none
  | .groupIdle => none
  | .parkwaitExpiry => none
  | .sliceExpiry => none
  | .barrierWatchExpiry => none
  | .barrierNotice => none
  | .hostAppend => none
  | .queueConfig => none
  | .queueStart => none
  | .queueStop => none
  | .queueReset => none
  | .queueClro => none
  | .launchPlacement => none
  | .launchCompletion => none
  | .stageComplete => none
  | .planeEmpty => none
  | .markerArrival => none
  | .snapTimeout => none
  | .parkGate => none
  | .parkSettle => none
  | .parkQuiesce => none
  | .parkStream => none
  | .parkCommit => none
  | .parkFaultAbandon => none
  | .parkAbandonTimeout => none
  | .crecWrite => none
  | .validate => none
  | .release => none
  | .prangeWrite => none
  | .plpriWrite => none
  | .pulseWrite => none
  | .svcmodeWrite => none
  | .serviceModeChange => none
  | .preempt => none
  | .pctlFreeze => none
  | .pctlReset => none
  | .resumep => none
  | .registerWrite => none
  | .pageWalk => none
  | .blockEntry => none
  | .blockCommit => none
  | .trapTaken => none
  | .uncorrectableError => none
  | .flitReceive => none
  | .trainingComplete => none
  | .trainingFail => none
  | .resettingDrained => none
  | .peerResetSeen => none
  | .linkLeavesUp => none
  | .responseTimeout => none
  | .dieLinkFailure => none
  | .hostMemRequest => none
  | .hostPortDown => none
  | .standbyPowerOn => none
  | .dieResetRelease => none
  | .panelStart => none
  | .selfTestComplete => none
  | .limiterStep => none
  | .powerCeilingStep => none
  | .getIdentity => none
  | .getStatus => none
  | .readCounters => none
  | .readHistogram => none
  | .setPolicy => none
  | .keyAdd => none
  | .attest => none
  | .resetMain => none
  | .mgmtBusy => none
  | .counterCommit => none
  | .histogramSample => none
  | .flipTakesEffect => none
  | .resumeComplete => none
  | .partitionFrozen => none
  | .partitionCleared => none
  | .rcRegisterRead => none
  | .controlLineRejected => none
  | .hdmDecoderWrite => none
  | .mainPowerOn => none
  | .mainPowerOff => none
  | .orderlyPowerDown => none
  | .standbyPowerLoss => none

/-- The instruction that the decoder reads from the record whose bits, numbered from the record's bit 0,
are `w`; bits above `nbits` are 0. A record is one 96-bit word (08 R161), so an `nbits` above 96 is no
record. -/
def decodeTableWord (nbits w : Nat) : Option Instr :=
  if nbits ≤ 96 then
    match decode (BitVec.ofNat 96 (w % 2 ^ nbits)) with
    | .ok i => some i
    | .error _ => none
  else none

/-- The record at twelve bytes of memory, byte 0 holding bits [7:0] (00 R2, 08 R161). -/
def recOfBytes (bs : List Byte) : Rec96 :=
  BitVec.ofNat 96 (bs.foldr (fun b n => n * 256 + b.toNat) 0)

end Sys2Proof
end

