-- ==== Sys2Proof/Machine/State.lean ====
section
/-!
DEFINITION. The state of the part as plain data, its reset value, and the reasons a step can stop.
Sites of a panel are numbered 0 to 255 (01 R16); a panel is a global panel, 0 to 47. Tables keyed by a
panel and a site use the key 256 p + site; by a panel and a plane, 4 p + plane; by a die and an index,
4096 die + index; by a partition and a colour, 4096 part + colour.
-/
namespace Sys2Proof.Machine

/-- Why the machine stops. No step of this model ends in a fault: the spec's faults are mailbox entries,
and the machine goes on after them (20 R392). The one constructor stands for an access to memory that the
spec says does not exist and that no cause of the spec covers; nothing raises it. Safe. -/
inductive Fault where
  | noSuchMemory
deriving DecidableEq, Repr

/-- Why a step has no next state. -/
inductive Refusal where
  /-- Raised by an arm of `exec` that has no meaning yet. Safe: nothing is claimed of the step. -/
  | notModelled (mnemonic : String)
  /-- Raised by a record's meaning when `State.cur` is not a match of that record: an operand port of the
  record holds no token, or the record stands at a site that 08 R177 does not admit (a stage refuses such a
  record, so no nib ever issues it). Safe: the record does not fire (02 R39). -/
  | noMatch
  /-- Raised by an event's meaning when the event cannot happen in this state (no such token in transit,
  the buffer is empty, the timer has not run out, the queue point has no room). Safe: `step` skips it. -/
  | notEnabled
deriving DecidableEq, Repr

/-- A token (02 R31); its width is the number of its lanes. -/
structure Token where
  tag : Word64 := 0
  site : BitVec 8 := 0
  node : BitVec 5 := 0
  port : BitVec 3 := 0
  plane : BitVec 2 := 0
  ty : BitVec 4 := 0
  null : Bool := false
  poison : Bool := false
  eor : Bool := false
  snap : Bool := false
  lanes : List Lane := []
deriving DecidableEq, Repr, Inhabited

/-- A scale token with the destination and POISON bit that the scale network carries beside it (03 R67). -/
structure ScaleTok where
  payload : Word64
  site : Nat
  node : Nat
  plane : Nat
  poison : Bool
deriving DecidableEq, Repr, Inhabited

/-- A token on its way in panel `p`; `src` is the emitting site (256 for the colour
point, 258 for a scribe record whose block has committed), and `queued`
says that it still stands in that site's output queue (02 R45). -/
structure Flight where
  p : Nat
  src : Nat
  queued : Bool
  tok : Token
deriving DecidableEq, Repr, Inhabited

/-- A scale token on its way in panel `p` (03 R68). -/
structure ScaleFlight where
  p : Nat
  tok : ScaleTok
deriving DecidableEq, Repr, Inhabited

/-- Waiting operands of one (plane, node, tag) that are to fire together, one row each (02 R40, R41). -/
structure Group where
  plane : Nat
  node : Nat
  tag : Word64
  ops : List (Nat × Token)
deriving DecidableEq, Repr, Inhabited

/-- A match on a ready list (02 R44): its completion cycle, and the issues of its plane at its entry. -/
structure Match where
  plane : Nat
  node : Nat
  tag : Word64
  ops : List (Nat × Token)
  scales : List ScaleTok := []
  done : Nat := 0
  entered : Nat := 0
  /-- 1 when the match has waited and is retested (11 R253, 17 R354); 2 a generator's next token. -/
  again : Nat := 0
  /-- the record of a match that is retested -/
  word : Rec96 := 0
  /-- a scribe record whose block has committed (02 R53, 24 R406) -/
  late : Bool := false
deriving DecidableEq, Repr, Inhabited

/-- The match whose record is being issued (08 R181): the model's own field (log 8). -/
structure Cur where
  p : Nat := 0
  site : Nat := 0
  plane : Nat := 0
  node : Nat := 0
  tag : Word64 := 0
  ops : List (Nat × Token) := []
  scales : List ScaleTok := []
  again : Nat := 0
  /-- the record -/
  word : Rec96 := 0
  /-- a scribe record whose block has committed (02 R53, 24 R406) -/
  late : Bool := false
deriving DecidableEq, Repr, Inhabited

/-- A THROTTLE window entry (09 R199). -/
structure ThrEntry where
  plane : Nat
  node : Nat
  base : Word64
  credits : Nat
  window : Nat
  eorSeen : Bool
deriving DecidableEq, Repr, Inhabited

/-- A sticky row: a REPEAT invariant (09 R202) or a RANKADM count (12 R278). -/
structure Sticky where
  plane : Nat
  node : Nat
  base : Word64
  tok : Token
deriving DecidableEq, Repr, Inhabited

/-- A RANKADM rank table (12 R278): candidates counted and the entries, highest first. -/
structure RankTable where
  plane : Nat
  node : Nat
  base : Word64
  counted : Nat
  entries : List Token
deriving DecidableEq, Repr, Inhabited

/-- What a generator emits (09 R204, 12 R274, 16 R333). -/
inductive GenKind where
  | range (fmt : BitVec 4) (n : Nat)
  | sweep (visits : List (Nat × Lane × Bool))
  | spawn (colours : List Nat)
deriving DecidableEq, Repr, Inhabited

/-- A generator in progress: its record's place and fields, its match's tag, its next index. -/
structure Gen where
  plane : Nat
  node : Nat
  tag : Word64
  level : Nat
  kind : GenKind
  arg : Token
  next : Nat
  d0 : Dest
  d1 : Dest
  ctl : Ctl
  poison : Bool
  /-- cycle of its last emission; it emits again from the next cycle on -/
  last : Nat
  /-- its scribe block has committed -/
  late : Bool := false
deriving DecidableEq, Repr, Inhabited

/-- A token that is to be sent, with its destination fields resolved except for the header's place. -/
structure Send where
  dest : Dest
  tag : Word64
  ty : BitVec 4
  null : Bool := false
  poison : Bool := false
  eor : Bool := false
  snap : Bool := false
  lanes : List Lane
deriving DecidableEq, Repr, Inhabited

/-- Results of a multi-cycle record, with the cycle they are due (08 R182, 10 R212). -/
structure Delayed where
  plane : Nat
  node : Nat
  tag : Word64
  due : Nat
  sends : List Send
  flags : BitVec 5
  /-- its scribe block has committed -/
  late : Bool := false
deriving DecidableEq, Repr, Inhabited

/-- What a waiting match waits for; it is retested when that changes. -/
inductive WaitOn where
  | done                        -- a busy completion tag of the scribe (11 R250)
  | test (cycle : Nat)          -- DONE of the scribe, which WAITANY, WAITALL and FFREADY test from this cycle on (11 R253)
  | barrier (die idx : Nat)     -- a completion notice (17 R354)
  | queue (q : Nat)             -- an append (14 R316)
  | acc (p : Nat)               -- an accumulator or a buffer of an array (11 R258, R261)
  | pace (p w : Nat)            -- a pending member of a pace store (12 R273, R274)
  | cavity (p w : Nat)          -- a round of a cavity (12 R268, R269)
deriving DecidableEq, Repr, Inhabited

/-- A match that has issued and waits, holding its row. -/
structure Waiting where
  on : WaitOn
  m : Match
  /-- what it waited for has changed while its plane's ready list was full: it is retested when there is room (02 R44) -/
  due : Bool := false
deriving DecidableEq, Repr, Inhabited

/-- A token that a snapshot holds at a join (15 R327). -/
structure HeldTok where
  tok : Token
deriving DecidableEq, Repr, Inhabited

/-- The state of one nib, and of the matching that a scribe does for its block (02 R39 to R49, R52). -/
structure Nib where
  /-- instruction store: record of plane k, node n at key 32 k + n -/
  store : Tab Rec96 := []
  /-- keys of records struck by an uncorrectable error (20 R400) -/
  storeBad : List Nat := []
  groups : List Group := []
  /-- keys 32 k + n with spill set (02 R41) -/
  spill : List Nat := []
  ready : List Match := []
  /-- issues in this window by key 32 k + n (02 R46) -/
  issued : Tab Nat := []
  /-- share by key 32 k + n, plus 1; 0 stands for the first window's 16 -/
  share : Tab Nat := []
  /-- row-cycles in this window by key 32 k + n -/
  occ : Tab Nat := []
  /-- issues of a plane since start (ages matches, 02 R45) -/
  planeIssues : Tab Nat := []
  lastIssue : Tab Nat := []
  nonemptySince : Tab Nat := []
  /-- plane served last; with 3 at reset, plane 0 is the first of equal planes that is served (02 R45; the model's choice, log 83) -/
  lastPlane : Nat := 3
  /-- tokens taken in this cycle: the side they came in by (0 to 3 north, west, east, south; 4 the nib's own output), and
  plane, node and port (02 R44) -/
  took : List (Nat × Nat × Nat × Nat) := []
  scales : List ScaleTok := []
  thr : List ThrEntry := []
  sticky : List Sticky := []
  ranks : List RankTable := []
  gens : List Gen := []
  delayed : List Delayed := []
  waits : List Waiting := []
  /-- marked (plane, node, port) of joins, held tokens, (plane, node, id) already forwarded (15 R327) -/
  marks : List (Nat × Nat × Nat) := []
  held : List Token := []
  forwarded : List (Nat × Nat × Nat) := []
  gated : List Nat := []
deriving DecidableEq, Repr, Inhabited

/-- One FIFO entry (04 R89). -/
structure FifoEntry where
  lanes : List Lane
  ty : BitVec 4
  null : Bool
  poison : Bool
  eor : Bool
deriving DecidableEq, Repr, Inhabited

/-- One page-window slot (04 R90): its page (virtual address div 4,096) and that page's physical address, which
sectors it holds and which are dirty (bit i for sector i of 128), the pin bit, the stamp of its last use. -/
structure PwSlot where
  page : Nat
  base : Nat := 0
  have_ : Nat
  dirty : Nat
  pin : Bool
  used : Nat
deriving DecidableEq, Repr, Inhabited

/-- One occupied frame slot (02 R42): the nib that sent the operand, and the operand. -/
structure FrameOp where
  site : Nat
  tok : Token
deriving DecidableEq, Repr, Inhabited

/-- One frame (02 R42, 04 R93): its number, 2 to 127, and its header: colour, level-0 field and the frame that follows it in its
chain, 0 for none. -/
structure Frame where
  num : Nat
  next : Nat := 0
  colour : Nat
  level0 : Nat
  slots : List FrameOp
deriving DecidableEq, Repr, Inhabited

/-- A memory access: the record that issued it and its match (11 R235 to R246, 12 R276, 16 R343). -/
structure Access where
  id : Nat
  op : Nat
  r : RecM
  p : Nat
  site : Nat
  plane : Nat
  node : Nat
  tag : Word64
  ctx : Nat
  a : Option Token
  b : Option Token
  c : Option Token
  isNull : Bool
  /-- a chain that FTAKE discards sends its nulls whatever NULLPASS holds (20 R398) -/
  discard : Bool := false
  born : Nat := 0
  /-- sector addresses (space's own address div 32) not yet performed; `none` before the first look -/
  left : Option (List Nat) := none
  /-- bytes loaded so far, by position in the access -/
  got : List (Nat × Byte) := []
  poison : Bool := false
  /-- performed, its result sent -/
  fin : Bool := false
  /-- the access has faulted and holds its chain (20 R395) -/
  heldFault : Bool := false
  /-- the block of the scribe record has committed -/
  late : Bool := false
  /-- an ACC of another part: the device and request to answer (19 R377) -/
  reply : Option (Nat × Nat) := none
  /-- where each of its sectors stands: sector of the address as given, the sector's place with its device, class -/
  pas : List (Nat × Nat × Nat) := []
  /-- cond of an ACAS so far -/
  cond : Bool := true
  /-- handed to the combiner of its location (11 R246) -/
  combining : Bool := false
  /-- count, index and base tag of an ACC of another part -/
  racc : Option (Nat × Nat × Word64) := none
deriving DecidableEq, Repr, Inhabited

/-- An open chain of an order buffer (05 R108): SEQ and NEXT of the record released last, the released
accesses not yet performed, whether the chain is closed, and whether FTAKE discards it. -/
structure Chain where
  tag : Word64
  last : Option (Nat × Nat)
  outst : List Nat
  closed : Bool
  discard : Bool
  /-- a FENCE or acquire that holds the chain -/
  hold : Option Nat
deriving DecidableEq, Repr, Inhabited

/-- The order buffer of an ordering site and its released accesses (05 R108). -/
structure OBuf where
  chains : List Chain := []
  waiting : List Access := []
  released : List Access := []
deriving DecidableEq, Repr, Inhabited

/-- An open ACC slot (11 R246): the key is the place, the address, the colour and the base tag. -/
structure AccSlot where
  place : Nat
  addr : Nat
  base : Word64
  next : Nat
  cnt : Nat
  /-- staged addends, by index -/
  staged : List (Nat × Access)
deriving DecidableEq, Repr, Inhabited

/-- A contribution present in a cavity's round (12 R269). -/
structure Contrib where
  idx : Nat
  /-- a lane is `none` when it is empty -/
  lanes : List (Option Lane)
  poison : Bool
  tag : Word64
  site : Nat
  plane : Nat
  node : Nat
  dest : Dest
  emit : Bool
  /-- the block of its CAV has committed -/
  late : Bool := false
deriving DecidableEq, Repr, Inhabited

/-- A cavity at its home well (12 R263 to R270). ROUND and the arrays X, P and S stand in the well's bytes. -/
structure Cavity where
  desc : BitVec 32
  lo : Nat
  hi : Nat
  seg : Nat
  last : Bool
  link : Nat
  ctx : Nat
  joined : List Nat := []
  contribs : List Contrib := []
  /-- carries read for this round, from the segment below and from the one above: lanes and poison -/
  pc : Option (List (Option Lane) × Bool) := none
  sc : Option (List (Option Lane) × Bool) := none
  /-- the forward chain of the round is done; its flags -/
  half : Bool := false
  pflags : BitVec 5 := 0
  /-- the cycle of the next read of a carry flag -/
  poll : Nat := 0
  /-- a link access has faulted (12 R266) -/
  stalled : Bool := false
  /-- sectors of a link area of another part that have come: side, sector, bytes, poison mark -/
  inbox : List (Bool × Nat × List Byte × Bool) := []
deriving DecidableEq, Repr, Inhabited

/-- A configuration word that an accepted WCFG or flip has left to take effect (04 R86). -/
structure PendCfg where
  word : BitVec 128
  ctx : Nat
  /-- the acknowledgement to send, and the access to finish, when it is a WCFG's -/
  acc : Option Access
  /-- plane whose accesses wait for this word (15 R324) -/
  plane : Option Nat
deriving DecidableEq, Repr, Inhabited

/-- The state of one well (04 R83 to R93). Its bytes stand in `State.wmem`. -/
structure Well where
  cfg : BitVec 128 := 0
  owner : Option Nat := none
  pend : List PendCfg := []
  /-- full buffers or lines -/
  full : List Nat := []
  /-- cycle plus 1 of the last change of a full/empty bit, and the bits as that cycle's requests see them (04 R88) -/
  fullWas : Nat × List Nat := (0, [])
  /-- bank of the last sector read (04 R83) -/
  rdBank : Nat := 0
  writer : Nat := 0
  reader : Nat := 0
  fifo : List FifoEntry := []
  /-- slot i lies at offset 4,096 i -/
  slots : Tab PwSlot := []
  frames : List Frame := []
  /-- directory of a frame store: first frame of the chain of an index (04 R93) -/
  dir : Tab Nat := []
  returns : List (Nat × Match) := []
  cavs : List Cavity := []
  /-- the parked context whose page-window slots the well still holds (04 R91) -/
  left : Option Nat := none
deriving DecidableEq, Repr, Inhabited

/-- A held effect of a scribe block, performed at commit in firing order (02 R53). -/
structure HeldEff where
  i : Instr
  cur : Cur
deriving DecidableEq, Repr

/-- The block that a scribe holds (02 R52, R53). -/
structure Block where
  plane : Nat
  index : Nat
  header : Rec96
  /-- LSIDs counted -/
  lsids : List Nat := []
  /-- WRITEs fired: record number, register, value (`none` for a null) -/
  writes : List (Nat × Nat × Option Word64) := []
  /-- exits fired: node, opcode, LIT, OPX, x[0] -/
  exits : List (Nat × Nat × BitVec 32 × Bool × Lane) := []
  /-- records that have fired at least once -/
  fired : List Nat := []
  stores : List Access := []
  held : List HeldEff := []
  /-- tokens to grid sites, in firing order -/
  sends : List Token := []
  /-- scale tokens to grid sites, in firing order -/
  scaleSends : List ScaleTok := []
  exc : Option Nat := none
  excInfo : Nat := 0
  /-- places of the mailbox entries that FTAKEs of the block have claimed (20 R398) -/
  claims : List Nat := []
deriving DecidableEq, Repr

/-- The state of one scribe (01 R20, 02 R52, 04 R100, 20 R396). -/
structure Scribe where
  q : Tab Word64 := []
  stack : List Nat := []
  btag : Word64 := 0
  done : Word64 := 0
  busy : Word64 := 0
  late : Word64 := 0
  /-- block store: record r of block b of plane k at key (k * 256 + b) * 64 + r -/
  blocks : Tab Rec96 := []
  storeBad : List Nat := []
  cur : Option Block := none
  next : Nat := 0
  resting : Bool := true
  /-- KFLIP or a park keeps the sends or the next entry back -/
  waitFlip : List Token := []
  waitScales : List ScaleTok := []
  trapPend : Option Nat := none
  exact : Option (Nat × Nat × Nat) := none
  latePend : Bool := false
  tvec : Word64 := 0
  tstat : Word64 := 0
  tretb : Word64 := 0
  tenable : Word64 := 0
  tscr0 : Word64 := 0
  tscr1 : Word64 := 0
  tscr2 : Word64 := 0
  tscr3 : Word64 := 0
  stopped : Bool := false
deriving DecidableEq, Repr, Inhabited

/-- One plane of a panel (15 R317, R318). -/
structure Plane where
  state : Nat := 0
  fail : Nat := 0
  obj : Nat := 0
  kidx : Nat := 0
  kpanel : Nat := 0
  dx : Int := 0
  dy : Int := 0
  ctx : Nat := 0
  layout : List Nat := []
  blocks : Nat := 0
  /-- held WELL words (site, word) and RULE entries -/
  wells : List (Nat × BitVec 128) := []
  rules : List (BitVec 256) := []
  /-- KSTAGE, KDRAIN records that wait for this plane's state: their matches and what they wait for -/
  waiters : List (Nat × Cur × RecS) := []
  /-- the load in progress ends clean (0) or with this FAIL code -/
  verdict : Nat := 0
  image : Tab Rec96 := []
  blockImage : Tab Rec96 := []
deriving DecidableEq, Repr, Inhabited

/-- An admission entry (13 R284). -/
structure Admission where
  base : Nat
  lim : Nat
  ctx : Nat
  rows : Nat
deriving DecidableEq, Repr, Inhabited

/-- The open snapshot of a panel (15 R328, R329). -/
structure Snap where
  id : Nat
  want : Nat
  count : Nat
  deadline : Option Nat
  cur : Cur
  r : RecS
deriving DecidableEq, Repr, Inhabited

/-- A flip in progress (15 R323, R324): its target, and the KFLIP that asks, or `none` for a launch (14 R311). -/
structure Flip where
  target : Nat
  ask : Option (Cur × RecS)
  born : Nat := 0
deriving DecidableEq, Repr, Inhabited

/-- The registers of one panel (02 R54, 06 R125, 11 R255, 13 R285, 15 R319, 26 R410, R411). -/
structure Panel where
  started : Bool := false
  tested : Bool := false
  fenced : Bool := false
  startCycle : Nat := 0
  tagged : Bool := false
  svcPend : Option Bool := none
  plog : Nat := 6
  plogPend : Option Nat := none
  plpri : BitVec 20 := 0
  planes : Tab Plane := []
  inj : Option Nat := none
  scribePlane : Option Nat := none
  admit_ : List Admission := []
  sprt : Tab Word64 := []
  portQ : List ScaleTok := []
  snap : Option Snap := none
  snapWait : List (Cur × RecS) := []
  lastSnap : Nat := 0
  /-- ids of snapshots aborted (15 R328) -/
  deadSnaps : List Nat := []
  /-- SYSMODE requests that wait to take effect (11 R256) -/
  sysPend : List (Cur × Bool × RecN) := []
  /-- cycle plus 1 of the last pulse -/
  lastPulse : Nat := 0
  flip : Option Flip := none
deriving DecidableEq, Repr, Inhabited

/-- A mailbox entry (20 R394). -/
structure MbEntry where
  tag : Word64 := 0
  addr : Nat := 0
  cause : Nat := 0
  kind : Nat := 0
  chain : Bool := false
  site : Nat := 0
  node : Nat := 0
  port : Nat := 0
  plane : Nat := 0
  panel : Nat := 0
  seq : Nat := 0xFF
  ctx : Nat := 0
  osite : Nat := 0xFF
  info : Nat := 0
  /-- the held access, for FTAKE SUB 1 and 2 (20 R395) -/
  acc : Nat := 0
  /-- where it stands among the entries of its cycle (20 R393): the cycle, and whether it comes from outside the panel -/
  born : Nat := 0
  outer : Bool := false
deriving DecidableEq, Repr, Inhabited

/-- A panel's mailbox (20 R393, R396). -/
structure Mailbox where
  entries : List MbEntry := []
  lost : Nat := 0
deriving DecidableEq, Repr, Inhabited

/-- What a PGINIT makes of a counter: allocated with these values, or free. -/
structure PgSet where
  alloc : Bool := false
  value : Nat := 0
  prior : Nat := 0
  colour : Nat := 0
  ctx : Nat := 0
deriving DecidableEq, Repr, Inhabited

/-- A progress counter (06 R123). -/
structure Pg where
  value : Nat := 0
  lvalue : Nat := 0
  colour : Nat := 0
  ctx : Nat := 0
  alloc : Bool := false
  acnt : Nat := 0
  prior : Nat := 0
  rate : Nat := 0
  /-- broadcasts that arbiters still use, newest first: cycle, LVALUE, RATE (06 R129, 21 R403) -/
  hist : List (Nat × Nat × Nat) := []
  /-- cycle plus 1 of the last change, and the words and context before that cycle's changes (11 R252) -/
  stamp : Nat := 0
  was : Nat × Nat × Nat := (0, 0, 0)
  /-- what a PGINIT in a pulse cycle puts in after the pulse (11 R252) -/
  pend : Option PgSet := none
deriving DecidableEq, Repr, Inhabited

/-- One accumulator of a south-edge cell (11 R257, R260). -/
structure Accum where
  run : Option Word64 := none
  next : Nat := 0
  v : List Lane := []
  poison : Bool := false
deriving DecidableEq, Repr, Inhabited

/-- A row's contribution to a pass (11 R259): `none` data for a null or false-predicated row. -/
structure PassRow where
  row : Nat
  /-- accumulator, level and weight buffer that its record names -/
  j : Nat := 0
  level : Nat := 0
  wb : Bool := false
  site : Nat := 0
  node : Nat := 0
  plane : Nat := 0
  tok : Option Token
  scales : List ScaleTok
deriving DecidableEq, Repr, Inhabited

/-- A pass of a systolic array, or of an ACCIN into one column (11 R259 to R261). -/
structure Pass where
  tag : Word64
  j : Nat
  level : Nat
  wb : Bool
  plane : Nat
  rows : List PassRow
  complete : Bool
  /-- an ACCIN's column and token -/
  accin : Option (Nat × Token)
  /-- columns that have combined it -/
  cols : List Nat
  colour : Nat
  withheld : Bool := false
  /-- cycle of the issue that completed it (11 R260) -/
  born : Nat := 0
deriving DecidableEq, Repr, Inhabited

/-- A systolic array (11 R256, R257). -/
structure SysArray where
  p : Nat
  y0 : Nat
  y1 : Nat
  x0 : Nat
  x1 : Nat
  ty : BitVec 4
  /-- the context whose SYSMODE formed it -/
  ctx : Nat := 0
  /-- weight elements: key ((cell row * 16 + cell column) * 2 + WB) * 4096 + index -/
  weights : Tab Lane := []
  /-- scale words of weight blocks: key of the block's first element -/
  wscales : Tab Nat := []
  wpoison : List Nat := []
  accs : Tab Accum := []
  passes : List Pass := []
deriving DecidableEq, Repr, Inhabited

/-- An arrival at a rule table (19 R384). -/
structure Arrival where
  p : Nat
  table : Nat
  round : Nat
  tag : Word64
  ty : BitVec 4
  lanes : List Lane
  poison : Bool
  /-- link it came from; `none` for a local arrival -/
  link : Option Nat
  /-- id of the COLL that sent it, and the part that it came from; `none` for this part -/
  coll : Nat
  origin : Option Nat
  /-- held before, and its sender told so -/
  told : Bool := false
deriving DecidableEq, Repr, Inhabited

/-- The combining of one rule entry (19 R385). -/
structure RuleAcc where
  next : Nat := 0
  acc : List Lane := []
  poison : Bool := false
  flags : BitVec 5 := 0
  width : Nat := 0
  staged : List (Nat × List Lane × Bool) := []
  emitted : Bool := false
deriving DecidableEq, Repr, Inhabited

/-- A drain fence that runs (19 R386): its round, its number, its start cycle, and the RULEARM to answer. -/
structure Fence where
  round : Nat
  id : Nat
  since : Nat
  cur : Cur
  r : RecS
deriving DecidableEq, Repr, Inhabited

/-- One rule table (19 R382 to R388). -/
structure RuleTable where
  entries : Tab (BitVec 256) := []
  armed : Option Nat := none
  inRound : Bool := false
  slots : Nat := 0
  credits : Nat := 0
  edge : Nat := 0
  dest : BitVec 16 := 0
  plane : Nat := 0
  accs : Tab RuleAcc := []
  /-- drain fences that run -/
  fences : List Fence := []
  /-- the arming of the round in progress -/
  arming : Option (Cur × RecS) := none
  /-- RULEARMs and RULESETs that wait -/
  waiters : List HeldEff := []
deriving DecidableEq, Repr

/-- The rule engine of a panel (19 R382, R384). -/
structure RuleEngine where
  tables : Tab RuleTable := []
  hold : List Arrival := []
deriving DecidableEq, Repr

/-- A sector of a die's L2 (04 R95, 18 R368). -/
structure L2Sector where
  data : BitVec 256
  dirty : Bool
  /-- bytes stored here and not yet passed on to the home die (05 R105) -/
  mask : BitVec 32 := 0
  poison : Bool
  ctx : Nat
  /-- a store at PANEL scope has left older copies in page windows valid (05 R105, R120) -/
  narrow : Bool := false
deriving DecidableEq, Repr, Inhabited

/-- A line of a die's L2 (04 R94, R96). -/
structure L2Line where
  cls : Nat
  pg : Nat
  mark : Nat
  used : Nat
  kernel : Nat
deriving DecidableEq, Repr, Inhabited

/-- A leaf in a translation cache (18 R365): `cache` 0 micro (key is the site), 1 panel, 2 die. -/
structure TlbEntry where
  cache : Nat
  key : Nat
  ctx : Nat
  page : Nat
  size : Nat
  leaf : Word64
deriving DecidableEq, Repr, Inhabited

/-- The end of a walk: its leaf, or a cause (18 R360; 04 R98). -/
inductive WalkEnd where
  | leaf (w : Word64)
  | bad (cause : Nat)
deriving DecidableEq, Repr, Inhabited

/-- A walk in progress (18 R360, R365): its next read is a request at the arbiters, until it has an end. -/
structure Walk where
  die : Nat
  ctx : Nat
  va : Nat
  /-- caches to fill: panel and site -/
  p : Nat
  site : Nat
  born : Nat := 0
  fin : Option WalkEnd := none
deriving DecidableEq, Repr, Inhabited

/-- A request at the colour point (0) or at the barrier point of a die (1 + die): the cycle in which it reached it, its kind in the order
of service, and the record that asks (16 R331, 17 R344). -/
structure PReq where
  point : Nat
  born : Nat
  kind : Nat
  i : Instr
  cur : Cur
deriving DecidableEq, Repr

/-- What a request at the arbiters does when it has been served everywhere on its path (06 R130). -/
inductive ReqKind where
  | piece (p site id sector pa : Nat)    -- a sector of a released access
  | xferSector (x row sec : Nat)         -- a sector of a transfer
  | incoming (link dev : Nat) (body : FlitBody)  -- a request of another part (19 R374)
  | fill (p w page sec : Nat)            -- a sector that a page window takes (04 R90)
  | flush (p w : Nat) (bytes : List (Nat × Byte)) (poison : Bool)  -- bytes of a sector of another part that a window writes back, or an engine stores
  | walk (die ctx va level table : Nat)  -- one entry that a walk reads (18 R360)
  | host (id sec : Nat) (bytes : List (Nat × Byte)) (poison : Bool)  -- a sector of a host request (01 R26)
  | carry (p w base : Nat) (up : Bool) (write : Option (List (Nat × Byte)))  -- a cavity's access to a link area of another part (12 R266)
  | back (id : Nat)                      -- a response on its way to another die
  | reply (dev : Nat) (body : FlitBody)  -- a response to another part
  | forward (x : Flit)                   -- a flit of another part for a third one (19 R380)
  | point (x : PReq)                     -- a request on its way to a point on another die (16 R331, 17 R344)
deriving DecidableEq, Repr, Inhabited

/-- A request waiting at an arbiter: `path` lists the arbiters still to pass (06 R130). -/
structure Req where
  kind : ReqKind
  path : List Nat
  born : Nat
  ctx : Nat
  issuer : Nat
  addr : Nat
  ctag : Nat
  /-- class of the page (04 R94) -/
  cls : Nat := 0
  /-- the destination of a transfer sector -/
  dst : Nat := 0
  /-- the sector that its source has given, with its poison mark -/
  data : Option (List Byte × Bool) := none
  /-- the first cycle in which its next stage can take it (21 R404) -/
  due : Nat := 0
  /-- what it carries from another part (06 R134), and the cycle in which it came -/
  carried : Option Carried := none
  came : Nat := 0
deriving DecidableEq, Repr, Inhabited

/-- A transfer in flight (11 R249 to R251), or a COLL (19 R389). -/
structure Xfer where
  id : Nat
  op : Nat
  p : Nat
  site : Nat
  plane : Nat
  node : Nat
  tag : Word64
  ctx : Nat
  r : RecT
  desc : List Lane
  cpanel : Nat
  born : Nat
  /-- sectors written so far, and whether no further sector is sent -/
  doneCount : Nat
  stopped : Bool
  freed : Bool
  flagged : Bool
  /-- lanes gathered for a FIFO destination -/
  fifo : List Lane
  /-- POISON of a gathered FIFO entry -/
  fpoison : Bool := false
  /-- slack in the cycle of issue (06 R134) -/
  slack0 : Nat := 0
  /-- a COLL: its arrival and its DEV (19 R389) -/
  arr : Option (Arrival × Nat) := none
deriving DecidableEq, Repr, Inhabited

/-- A request to another part that waits for its response (19 R377). -/
structure Remote where
  id : Nat
  dev : Nat
  link : Nat
  sent : Nat
  body : FlitBody
  /-- the request that the response answers; `none` for a store of an engine -/
  req : Option Req
  /-- the response, on its way from the die of its port -/
  ans : Option (List Byte × Bool) := none
deriving DecidableEq, Repr, Inhabited

/-- A context record (13 R282) and its status. -/
structure Ctx where
  state : Nat := 0
  priv : Nat := 0
  part : Nat := 0
  collim : Nat := 0
  colbase : Nat := 0
  planes : Nat := 0
  rows : Nat := 0
  saveBase : Nat := 0
  slots : Nat := 0
  ptroot : Nat := 0
  srseed : Word64 := 0
  pmask : Nat := 0
  slice : Nat := 0
  parkwait : Nat := 0
  nbctl : Word64 := 0xFFFF
  /-- cycle plus 1 of the last write of NBCTL, and the value that arbiters use in that cycle (06 R132) -/
  nbWas : Nat × Word64 := (0, 0)
  latecnt : Nat := 0
  gen : Nat := 0
  last : Nat := 0
  sliceCnt : Nat := 0
  panels : List Nat := []
  /-- the half of the save area that its last commit named (13 R290) -/
  half : Nat := 0
deriving DecidableEq, Repr, Inhabited

/-- A PARK or RESUME that waits for its outcome (13 R287, R293, R299), and its context. -/
structure ParkAsk where
  cur : Cur
  r : RecS
  ctx : Nat
deriving DecidableEq, Repr, Inhabited

/-- A park in progress (13 R287 to R295). `round` is 1 to 4; 5 when the commit store is due. -/
structure Park where
  ctx : Nat
  round : Nat
  began : Nat
  asks : List ParkAsk
  preempt : Bool
  faulted : Option (Nat × Nat × Nat)
deriving DecidableEq, Repr, Inhabited

/-- The saved image of a parked context on one panel: what round 4 takes from the fabric (13 R289 to R292), as data
(log 34). Its header and the bytes of its wells stand in memory alone; of its rows memory holds the lanes as well. -/
structure SavedPanel where
  g : Nat
  scribe : Scribe
  scribeNib : Nib
  planes : Tab Plane
  plpri : BitVec 20
  plog : Nat
  tagged : Bool
  inj : Option Nat
  scribePlane : Option Nat
  sprt : Tab Word64
  portQ : List ScaleTok
  scaleNet : List ScaleTok
  sysPend : List (Cur × Bool × RecN)
  snap : Option Snap
  snapWait : List (Cur × RecS)
  pgs : Tab Pg
  nibs : Tab Nib
  wells : Tab Well
  obufs : Tab OBuf
  accSlots : List AccSlot
  arrays : List SysArray
  tables : Tab RuleTable
  /-- pending tokens (13 R287) -/
  pending : List Token
  mailbox : List MbEntry
deriving DecidableEq, Repr

/-- A restore that has been started and is to complete (13 R293). -/
structure Resume where
  ctx : Nat
  /-- the target panel of each saved slot, as RESUME SUB 1 names them; `none` for the panels that the save area names -/
  panels : Option (List Nat)
  ask : Option ParkAsk
deriving DecidableEq, Repr, Inhabited

/-- A partition's registers (13 R298, 06 R133). -/
structure Part where
  prange : Word64 := 0
  pdump : Word64 := 0
  pstate : Nat := 0
  ccmdCtx : Nat := 0
  ccmdRes : Nat := 0
  bwshare : Word64 := 0
  /-- contexts that a pre-emption parked, its start cycle, and a freeze's start cycle and target -/
  parked : List Nat := []
  preT0 : Option Nat := none
  frzT0 : Option Nat := none
  clear_ : Bool := false
  dropped : Nat := 0
deriving DecidableEq, Repr, Inhabited

/-- A colour entry (16 R331) with the group's idle time. -/
structure Colour where
  gstate : Nat := 0
  retd : Bool := false
  leader : Nat := 0
  nm1 : Nat := 0
  idx : Nat := 0
  gwm1 : Nat := 0
  pk : Bool := false
  split : Nat := 0
  partner : Nat := 0
  rlev : Nat := 0
  ctx : Nat := 0
  rtag : Word64 := 0
  pwait : Nat := 0
  rplane : Nat := 0
  rpanel : Nat := 0
  rdest : BitVec 16 := 0
  /-- drained: back in the pool while its group is not yet retired -/
  drained : Bool := false
  /-- the group's key in `State.groups` -/
  gid : Nat := 0
  /-- changes of the grant that copies of the nibs may not show yet, newest first: cycle, and the grant before (16 R332) -/
  ghist : List (Nat × Option Nat) := []
deriving DecidableEq, Repr, Inhabited

/-- What a group keeps beside its colour entries (03 R75; 16 R336, R339): FPFLAGS, the cycle of its last issue,
the launch that drew it, its context, the colours not yet drained, and RTAG. -/
structure GroupRec where
  flags : BitVec 5 := 0
  lastIssue : Nat := 0
  launch : Option Nat := none
  ctx : Nat := 0
  left : Nat := 0
  rtag : Word64 := 0
deriving DecidableEq, Repr, Inhabited

/-- A draw that waits at the colour point (16 R333). -/
structure Draw where
  part : Nat
  ctx : Nat
  n : Nat
  base : Option Nat
  /-- the SPAWN that asks, or `none` for a launch -/
  spawn : Option (Cur × RecN)
  launch : Option Nat
  /-- the cycle in which it reached the colour point -/
  born : Nat := 0
deriving DecidableEq, Repr, Inhabited

/-- A return token at the colour point (16 R335). -/
structure RetTok where
  p : Nat
  tok : Token
deriving DecidableEq, Repr, Inhabited

/-- A barrier (17 R346) and its watch. -/
structure Barrier where
  state : Nat := 0
  phase : Bool := false
  scope : Nat := 0
  ctx : Nat := 0
  count : Nat := 0
  arr : Nat := 0
  early : Nat := 0
  bwatch : Nat := 0
  anchor : Nat := 0
  nph : Nat := 0
  watch : Nat := 0
  running : Bool := false
deriving DecidableEq, Repr, Inhabited

/-- A completion notice on its way to a site (17 R350). -/
structure Notice where
  p : Nat
  site : Nat
  die : Nat
  idx : Nat
  /-- the cycle of the completion -/
  born : Nat := 0
deriving DecidableEq, Repr, Inhabited

/-- A queue (14 R301 to R305, R314, R315). -/
structure Queue where
  state : Nat := 0
  lsz : Nat := 0
  ring : Nat := 0
  cpl : Nat := 0
  part : Nat := 0
  log : Nat := 0
  llsz : Nat := 0
  msiv : Nat := 0
  appseq : Nat := 0
  cplseq : Nat := 0
  drops : Nat := 0
  bad : Nat := 0
  markseq : Nat := 0
  overflow : Bool := false
  logbreak : Bool := false
  logn : Nat := 0
  /-- sequence numbers of the records that stand in the ring, neither launched nor taken; their words stand in memory -/
  recs : List Nat := []
  /-- sequence numbers completed or taken beyond CPLSEQ -/
  fin : List Nat := []
  /-- launched and not yet complete -/
  running : List Nat := []
  resetting : Bool := false
deriving DecidableEq, Repr, Inhabited

/-- What reaches a queue point (14 R303, R316): a line that a function writes, or a record's firing. -/
inductive QWhat where
  | line (fn : Nat) (ws : List Word64)
  | inst (e : HeldEff)
deriving DecidableEq, Repr

/-- A request at a queue point, with the cycle in which it reached it. -/
structure QReq where
  q : Nat
  born : Nat
  what : QWhat
deriving DecidableEq, Repr

/-- A CXL.mem request of the host in progress (14 R312, 19 R417): its function, its address and length, whether it writes, the
sectors not yet performed, and the bytes read so far. -/
structure HostOp where
  id : Nat
  fn : Nat
  addr : Nat
  len : Nat
  write : Bool
  born : Nat
  left : List Nat
  got : List (Nat × Byte) := []
  poison : Bool := false
deriving DecidableEq, Repr, Inhabited

/-- A launch from its placement to its completion (14 R311, R313). -/
structure Launch where
  id : Nat
  q : Nat
  seq : Nat
  words : List Word64
  ctx : Nat
  part : Nat
  prio : Nat
  /-- kernel panel k is placed on panels[k], in plane planes[k] -/
  panels : List Nat
  planes : List Nat
  born : Nat
  width : Nat
  ncol : Nat
  /-- 0 waits for its context or its draw, 1 stages and flips, 2 running, 3 completes with `status` -/
  stage : Nat
  /-- the resume of its context has been asked for (14 R311) -/
  resuming : Bool := false
  /-- kernel panels not yet flipped -/
  todo : List Nat := []
  /-- its group -/
  gid : Nat := 0
  status : Nat
  flags : BitVec 5
  leader : Nat
  kflags : Nat
deriving DecidableEq, Repr, Inhabited

/-- The turns of the clickers (14 R309): queue served last and its launches left, per priority. -/
structure Turn where
  lastQ : Nat := 255
  left : Nat := 0
deriving DecidableEq, Repr, Inhabited

/-- A link (19 R373, R376, R390). -/
structure Link where
  state : Nat := 0
  inc : BitVec 8 := 0
  lanes : Nat := 0
  fails : Nat := 0
  stale : Nat := 0
  replays : Nat := 0
  resets : Nat := 0
  /-- CRC errors in a row (19 R374) -/
  bad : Nat := 0
  /-- cycle of its entry to RESETTING (19 R376) -/
  since : Nat := 0
  /-- flits queued for sending -/
  txq : List Flit := []
deriving DecidableEq, Repr, Inhabited

/-- An LCTL that waits until no request to a device is in flight (19 R390, R416). -/
structure RouteAsk where
  cur : Cur
  r : RecS
  dev : Nat
  val : Nat
  own : Bool
deriving DecidableEq, Repr, Inhabited

/-- The management controller (26 R408 to R415). -/
structure Mgmt where
  standby : Bool := true
  main : Bool := true
  fwPass : Bool := true
  /-- die reset released -/
  released : Bool := true
  panelsFuse : BitVec 48 := 0xFFFFFFFFFFFF
  step : BitVec 4 := 1
  slew : BitVec 16 := 0x50
  ramp : BitVec 16 := 0x100
  /-- the request being served: its code and the words of its answer -/
  serving : Option (Nat × List Word64) := none
  /-- a RESET-MAIN waits until every partition is frozen -/
  resetting : Bool := false
  sigreq : BitVec 65 := 0
  sigreqStored : Option (BitVec 65) := none
  /-- identifiers of the object-signing keys, by place 0 to 7; keys stored while the main side is off -/
  keys : Tab Word64 := []
  keysStored : List Word64 := []
  /-- lifetime counters in RAM and in non-volatile storage, by `lifeKey` -/
  counters : Tab Nat := []
  nvCounters : Tab Nat := []
  /-- cycles of the last commit and of the last sample -/
  lastCommit : Nat := 0
  lastSample : Nat := 0
deriving DecidableEq, Repr, Inhabited

/-- The activity limiter of a die (26 R412). -/
structure Limiter where
  duty : Nat := 0
  ceiling : Nat := 16
  /-- the duty has passed 2 -/
  passed2 : Bool := false
  /-- cycles of the last pass, of the last change of the duty and of the ceiling; MMAs issued by a cell in the last 16
  cycles, with their cycles -/
  lastPass : Nat := 0
  lastStep : Nat := 0
  lastCeil : Nat := 0
  recent : List (Nat × Nat) := []
deriving DecidableEq, Repr, Inhabited

/-- An MPIN or MUNPIN at its well (18 R371): whether it pins, whether it has been tested, the pages still to pin with their places, and
the pages counted so far. -/
structure PinAsk where
  cur : Cur
  r : RecS
  w : Nat
  pins : Bool
  began : Bool := false
  todo : List (Nat × Nat) := []
  count : Nat := 0
deriving DecidableEq, Repr, Inhabited

/-- A release-filter entry of a die (16 R342): sector and panel mask, oldest first. -/
structure FilterEntry where
  sector : Nat
  mask : BitVec 16
deriving DecidableEq, Repr, Inhabited

/-- What the part shows outside: MSI-X vectors, answers to host reads (14 R313, 19 R417). -/
inductive Output where
  | msix (fn vec : Nat)
  | hostData (fn addr : Nat) (bytes : List Byte) (poison : Bool)
  | regData (fn num : Nat) (v : Word64)
  | mgmt (code : Nat) (words : List Word64)
  | flit (link : Nat) (x : Flit)
deriving DecidableEq, Repr, Inhabited

/-- What happens next: an event of the table, or the issue of a match of a site (log 8). -/
inductive Move where
  | event (i : Instr) (sel : Sel)
  | issue (p site : Nat)
  | tests (p : Nat)             -- the tests of DONE in a panel (11 R253)
  | pass (die hf : Nat)         -- a die's L2 passes on what it holds back of a sector (05 R105)
  | pins                        -- what MPINs and MUNPINs do at their wells (18 R371)
  | queues                      -- what the queue points take (14 R303)
  | points                      -- what the colour point and the barrier points serve (16 R331, 17 R344)
deriving DecidableEq, Repr

/-- The state of the part. Tables hold no entry for what is at its default value. -/
structure State where
  /-- die cycle since die reset release (06 R125) -/
  cycle : Nat
  /-- moves to come (log 8) -/
  sched : List Move
  cur : Cur
  /-- what the event being run selects or brings (log 8) -/
  sel : Sel
  /-- the counter that free values and ids are taken from (log 9) -/
  fresh : Nat
  nibs : Tab Nib
  wells : Tab Well
  /-- well bytes: key (256 p + w) * 524288 + offset; an unlisted byte is 0 (log 3) -/
  wmem : List Host.Cell
  /-- poisoned well sectors: key (256 p + w) * 16384 + sector -/
  wbad : Tab Bool
  obufs : Tab OBuf
  scribes : Tab Scribe
  panels : Tab Panel
  boxes : Tab Mailbox
  transit : List Flight
  scaleNet : List ScaleFlight
  pgs : Tab Pg
  arrays : List SysArray
  rules : Tab RuleEngine
  /-- arrivals on their way to a rule engine -/
  arrivals : List Arrival
  /-- ACC slots of wells (place 256 p + w) and of L2 banks (place 2^20 + 64 die + bank) -/
  accSlots : List AccSlot
  /-- addends at their combiner, in arrival order -/
  addends : List (Nat × Nat × Access)
  /-- far memory: key die * 2^42 + LOCAL; an unlisted byte is 0 (log 3) -/
  mem : List Host.Cell
  memBad : Tab Bool
  /-- L2 sectors: key die * 2^60 + (physical address div 32) -/
  l2 : Tab L2Sector
  /-- L2 lines: key die * 2^60 + (physical address div 256) -/
  l2lines : Tab L2Line
  tlb : List TlbEntry
  walks : List Walk
  filters : Tab (List FilterEntry)
  /-- traffic counters: key (die * 512 + context) * 8 + number -/
  traffic : Tab Nat
  reqs : List Req
  /-- last service of a partition at an arbiter: key arbiter * 128 + partition, cycle plus 1 -/
  served : Tab Nat
  xfers : List Xfer
  remotes : List Remote
  ctxs : Tab Ctx
  parks : List Park
  resumes : List Resume
  /-- committed images: key 2 × context + half -/
  images : Tab (List SavedPanel)
  parts : Tab Part
  colours : Tab Colour
  /-- groups by id (16 R331 to R341) -/
  groups : Tab GroupRec
  /-- flags of colours that no group holds, by partition and colour (03 R75) -/
  loose : Tab (BitVec 5)
  draws : List Draw
  /-- requests at the colour point and the barrier points -/
  points : List PReq
  /-- cycle plus 1 of the last service of a point -/
  pointUsed : Tab Nat
  returns : List RetTok
  barriers : Tab Barrier
  notices : List Notice
  queues : Tab Queue
  /-- requests at the queue points, in their order (14 R303) -/
  qreqs : List QReq
  /-- requests of the host in progress, in their order -/
  hostOps : List HostOp
  launches : List Launch
  turns : Tab Turn
  /-- cycle plus 1 of the last placement (14 R309) -/
  lastPlace : Nat
  /-- HDM ranges per function: base and size (19 R379) -/
  hdm : Tab (List (Nat × Nat))
  links : Tab Link
  /-- route table: device to link (19 R380) -/
  routes : Tab Nat
  owndev : BitVec 12
  routeAsks : List RouteAsk
  mgmt : Mgmt
  limiters : Tab Limiter
  /-- MPINs and MUNPINs at their wells, in arrival order (18 R371) -/
  pins : List PinAsk
  /-- MINVs that wait until accesses through dropped entries are performed: access ids -/
  minvs : List (Cur × RecS × List Nat)
  out : List Output
deriving DecidableEq, Repr

/-- The part in die cycle 0, just after the controller has released die reset (26 R408 step 3): every
panel unstarted, plain service, planes FREE, wells MODE 0, the die links and the host port TRAINING with
INC 1 (19 R376), OWNDEV 0xFFF (19 R416), panel 0 about to start (26 R410). Registers for which the spec states no reset value hold 0
(logs 1 to 9). -/
def State.reset : State where
  cycle := 0
  sched := [.event .panelStart {}]
  cur := {}
  sel := {}
  fresh := 0
  nibs := []
  wells := []
  wmem := []
  wbad := []
  obufs := []
  scribes := []
  panels := []
  boxes := []
  transit := []
  scaleNet := []
  pgs := []
  arrays := []
  rules := []
  arrivals := []
  accSlots := []
  addends := []
  mem := []
  memBad := []
  l2 := []
  l2lines := []
  tlb := []
  walks := []
  filters := []
  traffic := []
  reqs := []
  served := []
  xfers := []
  remotes := []
  ctxs := []
  parks := []
  resumes := []
  images := []
  parts := []
  colours := []
  groups := []
  loose := []
  draws := []
  points := []
  pointUsed := []
  returns := []
  barriers := []
  notices := []
  queues := []
  qreqs := []
  hostOps := []
  launches := []
  turns := []
  lastPlace := 0
  hdm := []
  links := [(0, { state := 1, inc := 1 }), (1, { state := 1, inc := 1 }),
    (2, { state := 1, inc := 1 }), (27, { state := 1, inc := 1 })]
  routes := []
  owndev := 0xFFF
  routeAsks := []
  mgmt := {}
  limiters := []
  pins := []
  minvs := []
  out := []

end Sys2Proof.Machine
end

