-- ==== Sys2Proof/Machine/Ops.lean ====
section
/-!
DEFINITION. Named operations over tables, memory and registers; the lookup of a colour's context, layout and
grant; posting to the mailbox; sending a token; and taking a trap and returning from one (20 R397, R398).
-/
namespace Sys2Proof.Machine

abbrev Outcome := Host.Outcome State Fault Refusal

/-! ## Tables -/

section
variable {α : Type}

/-- The entry at key `k`. -/
def tget? : Tab α → Nat → Option α
  | [], _ => none
  | (k', v) :: t, k => if k = k' then some v else tget? t k

/-- The table with `v` at key `k`, keys kept rising. -/
def tput : Tab α → Nat → α → Tab α
  | [], k, v => [(k, v)]
  | (k', v') :: t, k, v =>
    if k < k' then (k, v) :: (k', v') :: t
    else if k = k' then (k, v) :: t
    else (k', v') :: tput t k v

/-- The table with no entry at key `k`. -/
def tdel : Tab α → Nat → Tab α
  | [], _ => []
  | (k', v') :: t, k => if k = k' then t else (k', v') :: tdel t k

/-- The value at key `k`, `d` where the table lists none. -/
def tgetD (t : Tab α) (k : Nat) (d : α) : α := (tget? t k).getD d

/-- The table with value `v` at key `k`; the default `d` is not listed. -/
def tsetD [DecidableEq α] (t : Tab α) (k : Nat) (v d : α) : Tab α := if v = d then tdel t k else tput t k v

/-- Keys strictly rising, each above `lo`. -/
def keysAbove : Nat → Tab α → Bool
  | _, [] => true
  | lo, (k, _) :: t => decide (lo < k) && keysAbove k t

/-- Canonical keys: strictly rising. -/
def keysRise : Tab α → Bool
  | [] => true
  | (k, _) :: t => keysAbove k t

end

/-! ## Memory: bytes in one canonical form (00 R2) -/

/-- What a byte reads as that nothing has written (log 3). -/
def unlisted : Byte := 0

/-- The canonical form: addresses strictly rising, and no entry equal to what an unlisted address reads as. -/
def memWf (m : List Host.Cell) : Bool := keysRise m && m.all (fun c => c.2 != unlisted)

/-- One byte. -/
def mread (m : List Host.Cell) (a : Nat) : Byte := tgetD m a unlisted

/-- Write one byte. -/
def mwrite (m : List Host.Cell) (a : Nat) (b : Byte) : List Host.Cell := tsetD m a b unlisted

/-- Consecutive bytes. -/
def mreads (m : List Host.Cell) (a n : Nat) : List Byte := (List.range n).map (fun i => mread m (a + i))

/-- Write consecutive bytes. -/
def mwrites : List Host.Cell → Nat → List Byte → List Host.Cell
  | m, _, [] => m
  | m, a, b :: bs => mwrites (mwrite m a b) (a + 1) bs

/-- The number that little-endian bytes spell (00 R2). -/
def leNat (bs : List Byte) : Nat := bs.foldr (fun b n => n * 256 + b.toNat) 0

/-- The low `n` bytes of `v`, lowest first (00 R2). -/
def leBytes : Nat → Nat → List Byte
  | 0, _ => []
  | n + 1, v => BitVec.ofNat 8 v :: leBytes n (v / 256)

/-! ## Bit fields -/

/-- Bits [hi:lo] of a number. -/
def bits (v hi lo : Nat) : Nat := v / 2 ^ lo % 2 ^ (hi + 1 - lo)

/-- Bit `i` of a number. -/
def bit (v i : Nat) : Bool := v / 2 ^ i % 2 == 1

/-- A field value placed at bit `lo`. -/
def put (v lo : Nat) : Nat := v * 2 ^ lo

/-- A Boolean as 0 or 1. -/
def b2n (b : Bool) : Nat := if b then 1 else 0

/-- `v` as a signed number of `n` bits. -/
def sgn (n v : Nat) : Int := if v % 2 ^ n < 2 ^ (n - 1) then (v % 2 ^ n : Nat) else (v % 2 ^ n : Nat) - (2 ^ n : Nat)

/-- The two's complement pattern of `x` in `n` bits (08 R181 wrap). -/
def wrapN (n : Nat) (x : Int) : Nat := (x % (2 ^ n : Nat)).toNat

/-! ## Keys and parts of the state -/

def siteKey (p site : Nat) : Nat := 256 * p + site

/-- The die of a global panel (01 R11). -/
def dieOf (p : Nat) : Nat := p / 16

def nibAt (s : State) (p site : Nat) : Nib := tgetD s.nibs (siteKey p site) {}
def setNib (s : State) (p site : Nat) (n : Nib) : State :=
  { s with nibs := tsetD s.nibs (siteKey p site) n {} }

def wellAt (s : State) (p w : Nat) : Well := tgetD s.wells (siteKey p w) {}
def setWell (s : State) (p w : Nat) (x : Well) : State :=
  { s with wells := tsetD s.wells (siteKey p w) x {} }

def obufAt (s : State) (p site : Nat) : OBuf := tgetD s.obufs (siteKey p site) {}
def setObuf (s : State) (p site : Nat) (x : OBuf) : State :=
  { s with obufs := tsetD s.obufs (siteKey p site) x {} }

def scribeAt (s : State) (p : Nat) : Scribe := tgetD s.scribes p {}
def setScribe (s : State) (p : Nat) (x : Scribe) : State :=
  { s with scribes := tsetD s.scribes p x {} }

def panelAt (s : State) (p : Nat) : Panel := tgetD s.panels p {}
def setPanel (s : State) (p : Nat) (x : Panel) : State :=
  { s with panels := tsetD s.panels p x {} }

def planeOf (s : State) (p k : Nat) : Plane := tgetD (panelAt s p).planes k {}
def setPlane (s : State) (p k : Nat) (x : Plane) : State :=
  setPanel s p { panelAt s p with planes := tsetD (panelAt s p).planes k x {} }

def boxAt (s : State) (p : Nat) : Mailbox := tgetD s.boxes p {}
def pgAt (s : State) (p k : Nat) : Pg := tgetD s.pgs (64 * p + k) {}
def setPg (s : State) (p k : Nat) (x : Pg) : State := { s with pgs := tsetD s.pgs (64 * p + k) x {} }
def ctxAt (s : State) (c : Nat) : Ctx := tgetD s.ctxs c {}
def setCtx (s : State) (c : Nat) (x : Ctx) : State := { s with ctxs := tsetD s.ctxs c x {} }
def partAt (s : State) (k : Nat) : Part := tgetD s.parts k {}
def setPart (s : State) (k : Nat) (x : Part) : State := { s with parts := tsetD s.parts k x {} }
def linkAt (s : State) (l : Nat) : Link := tgetD s.links l {}
def setLink (s : State) (l : Nat) (x : Link) : State := { s with links := tsetD s.links l x {} }
def queueAt (s : State) (q : Nat) : Queue := tgetD s.queues q {}
def setQueue (s : State) (q : Nat) (x : Queue) : State := { s with queues := tsetD s.queues q x {} }
def barrierAt (s : State) (die i : Nat) : Barrier := tgetD s.barriers (4096 * die + i) {}
def setBarrier (s : State) (die i : Nat) (x : Barrier) : State :=
  { s with barriers := tsetD s.barriers (4096 * die + i) x {} }
def engineAt (s : State) (p : Nat) : RuleEngine := tgetD s.rules p {}
def setEngine (s : State) (p : Nat) (x : RuleEngine) : State := { s with rules := tsetD s.rules p x {} }
def tableAt (s : State) (p t : Nat) : RuleTable := tgetD (engineAt s p).tables t {}
def setTable (s : State) (p t : Nat) (x : RuleTable) : State :=
  setEngine s p { engineAt s p with tables := tsetD (engineAt s p).tables t x {} }

/-- Arrivals staged in an engine, whatever their table. -/
def engineStaged (s : State) (p : Nat) : Nat :=
  (engineAt s p).tables.foldl (fun n t => t.2.accs.foldl (fun n a => n + a.2.staged.length) n) 0

/-- The q register file (01 R20). -/
def qreg (s : State) (p i : Nat) : Word64 := tgetD (scribeAt s p).q i 0

/-- MODE of a configuration word (04 R84). -/
def wellMode (w : Well) : Nat := bits w.cfg.toNat 127 125

/-- Byte address of well offset `off` in `State.wmem` (04 R83). -/
def wellAddr (p w off : Nat) : Nat := siteKey p w * 524288 + off

/-! ## Tags (02 R34 to R36) -/

def colourOf (tag : Word64) : Nat := bits tag.toNat 63 52

/-- Width of level `j`; 0 at or beyond the layout's levels. -/
def levelWidth (layout : List Nat) (j : Nat) : Nat := layout.getD j 0

/-- Lowest bit of level `j`: level 0 takes the bits from bit 51 down (02 R35). -/
def levelLo (layout : List Nat) (j : Nat) : Nat := 52 - ((layout.take (j + 1)).foldl (· + ·) 0)

/-- `fld(t, j)` (08 R181). -/
def fld (layout : List Nat) (t : Word64) (j : Nat) : Nat :=
  t.toNat / 2 ^ levelLo layout j % 2 ^ levelWidth layout j

/-- `setfld(t, j, v)` (08 R181). -/
def setfld (layout : List Nat) (t : Word64) (j v : Nat) : Word64 :=
  let lo := levelLo layout j
  let w := levelWidth layout j
  BitVec.ofNat 64 (t.toNat - put (fld layout t j) lo + put (v % 2 ^ w) lo)

/-- The layout that the kernel in plane `k` declares (02 R35). -/
def layoutOf (s : State) (p k : Nat) : List Nat := (planeOf s p k).layout

/-! ## Colours and contexts (13 R284, 16 R331) -/

/-- The admission entry whose range holds colour `c` at panel `p` (13 R284). -/
def admission? (s : State) (p c : Nat) : Option Admission :=
  (panelAt s p).admit_.find? (fun a => a.base ≤ c && c ≤ a.lim)

/-- The context of a match: the one that admits its colour, else the one that holds the plane. -/
def matchCtx (s : State) (p plane : Nat) (tag : Word64) : Nat :=
  match admission? s p (colourOf tag) with
  | some a => a.ctx
  | none => (planeOf s p plane).ctx

/-- The partition of a context (13 R280). -/
def partOf (s : State) (ctx : Nat) : Nat := (ctxAt s ctx).part

/-- Privilege of a context (13 R281). -/
def privOf (s : State) (ctx : Nat) : Nat := (ctxAt s ctx).priv

def colKey (part c : Nat) : Nat := 4096 * part + c
def colourAt (s : State) (part c : Nat) : Colour := tgetD s.colours (colKey part c) {}
def setColour (s : State) (part c : Nat) (x : Colour) : State :=
  { s with colours := tsetD s.colours (colKey part c) x {} }
def groupAt (s : State) (gid : Nat) : GroupRec := tgetD s.groups gid {}
def setGroup (s : State) (gid : Nat) (x : GroupRec) : State := { s with groups := tput s.groups gid x }

/-- The group that holds a colour, by id. -/
def gidOf (s : State) (part c : Nat) : Option Nat :=
  if (colourAt s part c).gstate = 0 then none else some (colourAt s part c).gid

/-- Grant of a colour in lanes; `none` for a colour that no draw holds (16 R332). -/
def grant? (s : State) (part c : Nat) : Option Nat :=
  let e := colourAt s part c
  if e.gstate = 0 then none else some (e.gwm1 + 1)

/-- The grant as a copy shows it that a change reaches after `lag` cycles of it. -/
def copyOf (cycle : Nat) (lag : Nat → Nat) : Option Nat → List (Nat × Option Nat) → Option Nat
  | now, [] => now
  | now, (t, old) :: rest => if t + lag t ≤ cycle then now else copyOf cycle lag old rest

/-- The grant of a colour as the copy of a site shows it, within 64 cycles of a change the old one or the new (16 R332). -/
def grantCopy (s : State) (p site part c : Nat) : Option Nat :=
  copyOf s.cycle (fun t => Config.grantLag t (colKey part c) (siteKey p site) % 65) (grant? s part c) (colourAt s part c).ghist

/-- A colour's entry with another grant. -/
def withGrant (s : State) (part c : Nat) (e : Colour) (g : Nat) : Colour :=
  { e with gwm1 := g - 1, ghist := (s.cycle, grant? s part c) :: (colourAt s part c).ghist.filter (fun x => decide (s.cycle < x.1 + 65)) }

/-- PRANGE fields (13 R298). -/
def prangeCtxLim (v : Word64) : Nat := bits v.toNat 63 56
def prangeCtxBase (v : Word64) : Nat := bits v.toNat 55 48
def prangeColLim (v : Word64) : Nat := bits v.toNat 47 36
def prangeColBase (v : Word64) : Nat := bits v.toNat 35 24
def prangeRowMax (v : Word64) : Nat := bits v.toNat 3 0

/-- A partition's width limit, 4 × ROWMAX lanes (16 R332). -/
def widthLimit (s : State) (part : Nat) : Nat := 4 * prangeRowMax (partAt s part).prange

/-! ## Causes (20 R391) -/

def cILLEGAL : Nat := 1
def cTRANSLATION : Nat := 2
def cPERMISSION : Nat := 3
def cALIGNMENT : Nat := 4
def cPOISON : Nat := 5
def cFRAME : Nat := 6
def cTAG : Nat := 7
def cRULEMISS : Nat := 8
def cOVERRUN : Nat := 9
def cSTARVED : Nat := 10
def cLATE : Nat := 11
def cSTALE : Nat := 12
def cSNAP : Nat := 13
def cTRAP : Nat := 15

/-! ## The mailbox (20 R393, R394) -/

/-- An entry precedes another of the same cycle: the panel's own entries in ascending order of reporting site, before those from
outside the panel (20 R393). -/
def mbBefore (e x : MbEntry) : Bool := (!e.outer && x.outer) || (e.outer == x.outer && decide (e.site < x.site))

/-- Claims of the block at a panel's scribe, which hold places of its mailbox (20 R398). -/
def claimsAt (s : State) (p : Nat) : List Nat := ((scribeAt s p).cur.map (·.claims)).getD []

/-- The place of an entry that arrives: after those of earlier cycles, those that are claimed and those that precede it. -/
def mbPlace (s : State) (p : Nat) (es : List MbEntry) (e : MbEntry) : Nat :=
  (List.range es.length).foldl (fun n i => match es[i]? with
    | some x => if x.born < e.born ∨ (claimsAt s p).contains i ∨ !mbBefore e x then i + 1 else n
    | none => n) 0

/-- Post an entry to the mailbox of panel `p`: with 64 entries present it is dropped and counted (20 R393). -/
def postAt (s : State) (p : Nat) (e : MbEntry) : State :=
  let b := boxAt s p
  let e := { e with born := s.cycle, outer := e.outer || e.panel != p }
  let es := b.entries.take (mbPlace s p b.entries e) ++ e :: b.entries.drop (mbPlace s p b.entries e)
  let b' : Mailbox :=
    { entries := es.take 64, lost := if es.length ≤ 64 then b.lost else min (b.lost + 1) 0xFFFFFFFF }
  { s with boxes := tsetD s.boxes p b' {} }

/-- Post an entry to the mailbox of the reporting site's panel. -/
def post (s : State) (e : MbEntry) : State := postAt s e.panel e

/-- The four words of an entry (20 R394). -/
def mbWords (e : MbEntry) : List Nat :=
  [e.tag.toNat, e.addr % 2 ^ 56,
   put e.cause 56 + put (e.kind % 4) 54 + put (b2n e.chain) 53 + put (e.site % 256) 40 +
     put (e.node % 32) 35 + put (e.port % 8) 32 + put (e.plane % 4) 30 + put (e.panel % 64) 24 +
     put (e.seq % 256) 16 + put (e.ctx % 256) 8,
   put (e.osite % 256) 56 + e.info % 2 ^ 48]

/-- 64-bit words as lanes, low half first (02 R32). -/
def wordsLanes (ws : List Nat) : List Lane :=
  ws.flatMap (fun w => [BitVec.ofNat 32 w, BitVec.ofNat 32 (w / 2 ^ 32)])

/-- Record in the block of scribe `p`, if it holds one, that the exception bit has reached its end with a
cause (02 R53); the first cause stays. -/
def blockExc (s : State) (p cause info : Nat) : State :=
  let sc := scribeAt s p
  match sc.cur with
  | none => s
  | some b =>
    if b.exc.isSome then s
    else setScribe s p { sc with cur := some { b with exc := some cause, excInfo := info } }

/-- `fault(cause)` of a record's firing (08 R181): at a nib a mailbox entry; in a block the exception bit, with
the record's number as INFO (20 R391). -/
def faultCur (s : State) (c : Cur) (cause addr : Nat) : State :=
  if c.site = 240 ∧ !c.late ∧ (scribeAt s c.p).cur.isSome then blockExc s c.p cause (if cause = cILLEGAL then c.node + 1 else 0)
  else post s { tag := c.tag, addr := addr, cause := cause, site := c.site, node := c.node, plane := c.plane,
                panel := c.p, ctx := matchCtx s c.p c.plane c.tag,
                info := if c.site = 240 ∧ cause = cILLEGAL then c.node + 1 else 0 }

/-! ## Sending tokens (08 R167) -/

def destOfBits (v : BitVec 16) : Dest :=
  { site := v.extractLsb' 8 8, node := v.extractLsb' 3 5, port := v.extractLsb' 0 3 }

/-- The token of a send from `site` on `plane`. -/
def tokenOf (site plane : Nat) (x : Send) : Token :=
  { tag := x.tag, site := if x.dest.site = 254 then BitVec.ofNat 8 site else x.dest.site, node := x.dest.node,
    port := x.dest.port, plane := BitVec.ofNat 2 plane, ty := x.ty, null := x.null,
    poison := x.poison && !x.null, eor := x.eor, snap := x.snap, lanes := x.lanes }

/-- Put one token of panel `p` into the output queue of `src`. Site 255 discards it; a reserved site discards it
and posts ILLEGAL_OP (02 R33). -/
def sendTok (s : State) (p src : Nat) (t : Token) : State :=
  if t.site = 255 then s
  else if 246 ≤ t.site.toNat ∧ t.site.toNat ≤ 253 then
    post s { tag := t.tag, cause := cILLEGAL, site := t.site.toNat, node := t.node.toNat, port := t.port.toNat,
             plane := t.plane.toNat, panel := p, ctx := matchCtx s p t.plane.toNat t.tag }
  else { s with transit := s.transit ++ [{ p := p, src := src, queued := true, tok := t }] }

/-- A grid site: 0 to 239, or one of the sites 241 to 245 (15 R319). -/
def leavesScribe (site : Nat) : Bool := site != 240

/-- A token that a scribe sends: to the scribe itself it leaves at once; to a grid site it is held by the
block until commit (02 R52). -/
def sendScribe (s : State) (p : Nat) (t : Token) : State :=
  if leavesScribe t.site.toNat ∧ t.site ≠ 255 then
    match (scribeAt s p).cur with
    | some b => setScribe s p { scribeAt s p with cur := some { b with sends := b.sends ++ [t] } }
    | none => s
  else sendTok s p 240 t

/-- `Flight.src` of a token that a scribe record sends after its block has committed (24 R406). -/
def lateSrc : Nat := 258

/-- A token of a scribe record that leaves after its block has committed: to a grid site it carries the
panel's injection plane, and with none it is discarded with ILLEGAL_OP (15 R319). -/
def sendLate (s : State) (p : Nat) (t : Token) : State :=
  if leavesScribe t.site.toNat ∧ t.site ≠ 255 then
    match (panelAt s p).inj with
    | some k => sendTok s p lateSrc { t with plane := BitVec.ofNat 2 k }
    | none => post s { tag := t.tag, cause := cILLEGAL, site := 240, node := t.node.toNat, port := t.port.toNat,
                       plane := t.plane.toNat, panel := p, ctx := matchCtx s p t.plane.toNat t.tag }
  else sendTok s p lateSrc t

/-- Send from a firing: a nib's token enters its output queue, a scribe's is held by its block (02 R52). With no
block in hand the token of a scribe record leaves as one sent after commit. -/
def send (s : State) (c : Cur) (x : Send) : State :=
  let t := tokenOf c.site c.plane x
  if c.site = 240 then
    if (scribeAt s c.p).cur.isSome ∧ !c.late then sendScribe s c.p t else sendLate s c.p t
  else sendTok s c.p c.site t

/-- Send several, in order. -/
def sends (s : State) (c : Cur) (xs : List Send) : State := xs.foldl (fun s x => send s c x) s

/-- A result code of EMIT sends a value (08 R166). -/
def emits (code : BitVec 2) (cond : Bool) : Bool :=
  code == 0 || (code == 1 && cond) || (code == 2 && !cond)

/-- A code of EMIT that takes nulls (08 R166). -/
def takesNull (code : BitVec 2) : Bool := code == 0 || code == 3

/-! ## Group flags (03 R75, R76) -/

/-- OR flags into the FPFLAGS of a colour's group. -/
def orFlags (s : State) (part colour : Nat) (f : BitVec 5) : State :=
  if f = 0 then s
  else
    match gidOf s part colour with
    | some g => setGroup s g { groupAt s g with flags := (groupAt s g).flags ||| f }
    | none => { s with loose := tsetD s.loose (colKey part colour) (tgetD s.loose (colKey part colour) 0 ||| f) 0 }

/-- FPFLAGS of a colour's group (03 R75). -/
def groupFlags (s : State) (part colour : Nat) : BitVec 5 :=
  match gidOf s part colour with
  | some g => (groupAt s g).flags
  | none => tgetD s.loose (colKey part colour) 0

/-! ## Traps (20 R396 to R399) -/

/-- A trap that is due at a block boundary: cause, TKIND, CODE. -/
structure Due where
  cause : Nat
  kind : Nat
  code : Nat
deriving DecidableEq, Repr, Inhabited

/-- The trap to take first (20 R397): exact, TRAP, LATE, mailbox. -/
def trapDue (s : State) (p : Nat) : Option Due :=
  let sc := scribeAt s p
  match sc.exact with
  | some (cause, info, _) => some { cause := cause, kind := 0, code := info % 2 ^ 16 }
  | none =>
    match sc.trapPend with
    | some code => some { cause := cTRAP, kind := 1, code := code % 2 ^ 16 }
    | none =>
      if sc.latePend ∧ sc.late ≠ 0 then some { cause := cLATE, kind := 2, code := 0 }
      else
        let ctx := (planeOf s p ((panelAt s p).scribePlane.getD 0)).ctx
        match (boxAt s p).entries.find? (fun e => e.ctx == ctx && bit sc.tenable.toNat e.cause) with
        | some e => some { cause := e.cause, kind := 3, code := e.info % 2 ^ 16 }
        | none => none

/-- LATE takes a value; with no bit left no trap is due (06 R137). -/
def setLate (sc : Scribe) (v : Word64) : Scribe := { sc with late := v, latePend := sc.latePend && v != 0 }

/-- Block count of the kernel in the scribe plane (15 R319). -/
def blockCount (s : State) (p : Nat) : Nat :=
  match (panelAt s p).scribePlane with
  | some k => (planeOf s p k).blocks
  | none => 0

/-- A handler is installed and its block exists (20 R397). -/
def handlerOk (s : State) (p : Nat) : Bool :=
  bit (scribeAt s p).tvec.toNat 16 && bits (scribeAt s p).tvec.toNat 15 0 < blockCount s p

/-- THAND of TSTAT (20 R396). -/
def thand (sc : Scribe) : Bool := bit sc.tstat.toNat 53

/-- Taking a trap: TRETB saves the block to return to, TSTAT the cause, kind and code with THAND set, and the next
block is the handler (20 R397). -/
def takeTrap (s : State) (p : Nat) (d : Due) : State :=
  let sc := scribeAt s p
  let ret := match sc.exact with
    | some (_, _, blk) => blk
    | none => if sc.resting then 0xFFFF else sc.next
  setScribe s p
    { sc with
      tretb := BitVec.ofNat 64 ret
      tstat := BitVec.ofNat 64 (put d.cause 56 + put d.kind 54 + put 1 53 + d.code)
      exact := none
      trapPend := if d.kind = 1 then none else sc.trapPend
      latePend := if d.kind = 2 then false else sc.latePend
      resting := false
      next := bits sc.tvec.toNat 15 0 }

/-- The return that a committed TRET makes (20 R398): THAND := 0, and the next block is TRETB.BLK, or the scribe
rests. -/
def trapReturn (s : State) (p : Nat) : State :=
  let sc := scribeAt s p
  let blk := bits sc.tretb.toNat 15 0
  setScribe s p
    { sc with
      tstat := BitVec.ofNat 64 (sc.tstat.toNat - (if thand sc then put 1 53 else 0))
      resting := blk == 0xFFFF
      next := if blk = 0xFFFF then sc.next else blk }

/-! ## List helpers -/

/-- The list without its `k`-th element. -/
def dropAt {α : Type} (l : List α) (k : Nat) : List α := l.take k ++ l.drop (k + 1)

/-- The list with its `k`-th element replaced. -/
def setAt {α : Type} (l : List α) (k : Nat) (x : α) : List α :=
  if k < l.length then l.take k ++ x :: l.drop (k + 1) else l

/-- Position of the first element that satisfies a test. -/
def idxOf {α : Type} (p : α → Bool) : List α → Option Nat
  | [] => none
  | x :: t => if p x then some 0 else (idxOf p t).map (· + 1)

/-- Insert in a list kept rising by a measure, after equals. -/
def insBy {α : Type} (lt : α → α → Bool) (x : α) : List α → List α
  | [] => [x]
  | y :: t => if lt x y then x :: y :: t else y :: insBy lt x t

/-- Sort by insertion, stable. -/
def sortBy {α : Type} (lt : α → α → Bool) (l : List α) : List α := l.foldl (fun acc x => insBy lt x acc) []

/-- Apply a change of state `n` times over `0 .. n-1`. -/
def iter (s : State) (n : Nat) (f : State → Nat → State) : State := (List.range n).foldl f s

/-- The outcome of an event that cannot happen now. -/
def notNow : Outcome := .refused .notEnabled

/-- Before, in the order of lists. -/
def lexBefore (a b : List Nat) : Bool :=
  (a.zip b).foldr (fun (x : Nat × Nat) rest => decide (x.1 < x.2) || (x.1 == x.2 && rest)) false

/-- Die link between two dies, and direction (19 R373). -/
def arbDie (a b : Nat) : Nat :=
  4 * 2 ^ 16 + 2 * (if a + b = 1 then 0 else if a + b = 3 then 1 else 2) + (if a < b then 0 else 1)

/-- The stage of the die link from one die to another (01 R12), none on one die. -/
def linkPath (a b : Nat) : List Nat := if a = b then [] else [arbDie a b]

end Sys2Proof.Machine
end

