-- ==== Sys2Proof/Machine/Operands.lean ====
section
/-!
DEFINITION. Operand forms: element types (03 R56), literals (08 R164), port sets (08 R165), reading elements from
lanes (02 R32, R50), predicates and nulls (02 R51), and the emission of a record's results (08 R166, R167).
-/
namespace Sys2Proof.Machine

/-! ## Element types (03 R56) -/

def isIntTy (f : BitVec 4) : Bool := f.toNat < 8
def isSigned (f : BitVec 4) : Bool := f.toNat < 4
def isFloatTy (f : BitVec 4) : Bool := 8 ≤ f.toNat && f.toNat ≤ 10
def isBlockTy (f : BitVec 4) : Bool := 11 ≤ f.toNat && f.toNat ≤ 13

/-- Bits of a scalar element. -/
def elemBits (f : BitVec 4) : Nat :=
  match f.toNat with
  | 0 | 4 => 8
  | 1 | 5 => 16
  | 2 | 6 => 32
  | 3 | 7 => 64
  | 8 | 9 => 16
  | _ => 32

/-- Lanes of a scalar element. -/
def lanesPer (f : BitVec 4) : Nat := if elemBits f = 64 then 2 else 1

/-- Lanes of a block (03 R66). -/
def blockLanes (f : BitVec 4) : Nat := f.toNat - 9

/-- Mantissa bits m of a block type (03 R64). -/
def blockM (f : BitVec 4) : Nat := if f = 11 then 2 else if f = 12 then 4 else 7

/-- Whole blocks in a token of width `w` (03 R66). -/
def blockCountW (f : BitVec 4) (w : Nat) : Nat := min 8 (w / blockLanes f)

/-! ## Elements in lanes (02 R32) -/

def laneN (ls : List Lane) (i : Nat) : Nat := (ls.getD i 0).toNat

/-- Element `i` read as type `f`, an unsigned pattern; lanes beyond the width read 0 (02 R50). -/
def elem (f : BitVec 4) (ls : List Lane) (i : Nat) : Nat :=
  if elemBits f = 64 then laneN ls (2 * i) + laneN ls (2 * i + 1) * 2 ^ 32
  else laneN ls i % 2 ^ elemBits f

/-- The value of element `i`, signed for an i type. -/
def elemInt (f : BitVec 4) (ls : List Lane) (i : Nat) : Int :=
  if isSigned f then sgn (elemBits f) (elem f ls i) else (elem f ls i : Nat)

/-- Elements as `w` lanes, upper bits of a narrow element 0, an odd last lane of a 64-bit type 0 (02 R32). -/
def lanesOf (f : BitVec 4) (w : Nat) (g : Nat → Nat) : List Lane :=
  if elemBits f = 64 then
    (List.range w).map (fun l => if l / 2 < w / 2 then BitVec.ofNat 32 (g (l / 2) / 2 ^ (32 * (l % 2))) else 0)
  else (List.range w).map (fun l => BitVec.ofNat 32 (g l % 2 ^ elemBits f))

/-- `w` lanes of one word value. -/
def word1 (v : Nat) : List Lane := [BitVec.ofNat 32 v]

/-- A literal read as type `f` (08 R164). -/
def litVal (f : BitVec 4) (lit : BitVec 32) : Nat :=
  match f.toNat with
  | 0 | 4 => lit.toNat % 256
  | 1 | 5 | 8 | 9 => lit.toNat % 65536
  | 3 => wrapN 64 (sgn 32 lit.toNat)
  | _ => lit.toNat

/-! ## Operands of the match (08 R181) -/

def portTok? (c : Cur) (k : Nat) : Option Token := (c.ops.find? (fun x => x.1 == k)).map (·.2)

def portTok (c : Cur) (k : Nat) : Token := (portTok? c k).getD { }

/-- Width of port a's token, 1 when the record has none. -/
def widthA (c : Cur) : Nat :=
  match portTok? c 0 with
  | some t => t.lanes.length
  | none => 1

/-- Lanes of port `k`, the literal in every lane when LITUSE names the port (08 R164). -/
def lanesP (r : RecN) (c : Cur) (k : Nat) : List Lane :=
  if (r.ctl.lituse = 1 ∧ k = 1) ∨ (r.ctl.lituse = 2 ∧ k = 2) then
    lanesOf r.fmt (widthA c) (fun _ => litVal r.fmt r.lit)
  else (portTok c k).lanes

/-- The port set: listed ports, less those that the literal supplies, with c under PRED (08 R165). -/
def portSet (base : List Nat) (k : Ctl) : List Nat :=
  base.filter (fun p => !((k.lituse == 1 && p == 1) || (k.lituse == 2 && p == 2))) ++ (if k.pred then [2] else [])

/-- A breach of R178 or R179 in CTL: LITUSE 3, a literal for a port not listed, PRED beside a listed port c. -/
def badCtl (base : List Nat) (k : Ctl) : Bool :=
  k.lituse == 3 || (k.lituse == 1 && !base.contains 1) || (k.lituse == 2 && !base.contains 2) ||
    (k.pred && (base.contains 2 || k.lituse == 2))

/-- Lanes of a lane predicate: port c of width 2 or more under PRED (02 R51). -/
def lanePred (k : Ctl) (c : Cur) : Option (List Lane) :=
  if k.pred ∧ 2 ≤ (portTok c 2).lanes.length then some (portTok c 2).lanes else none

/-- Lane `l` of the predicate is true; lanes at or beyond its width are true (02 R51). -/
def predAt (p : Option (List Lane)) (l : Nat) : Bool :=
  match p with
  | none => true
  | some ls => if l < ls.length then laneN ls l != 0 else true

/-- A whole-token predicate that is false (02 R51). -/
def predFalse (k : Ctl) (c : Cur) : Bool :=
  k.pred && (portTok c 2).lanes.length == 1 && laneN (portTok c 2).lanes 0 == 0

/-- Masked lanes keep port a's lane (02 R51). -/
def maskLanes (p : Option (List Lane)) (a res : List Lane) : List Lane :=
  match p with
  | none => res
  | some _ => (List.range res.length).map (fun l => if predAt p l then res.getD l 0 else a.getD l 0)

/-- Records that move elements: one predicate lane for each element of `n` lanes, at its lowest lane (02 R51); a lane past the
last whole element belongs to none. -/
def maskElems (p : Option (List Lane)) (n : Nat) (a res : List Lane) : List Lane :=
  match p with
  | none => res
  | some _ =>
    (List.range res.length).map (fun l => if predAt p (l / n * n) ∨ res.length < l / n * n + n then res.getD l 0 else a.getD l 0)

/-- The result carries POISON if any operand or scale does (08 R167). -/
def curPoison (c : Cur) : Bool := c.ops.any (fun x => x.2.poison) || c.scales.any (fun x => x.poison)

/-! ## Sites that an operand, OBJ or a register holds (07 R157) -/

/-- A kernel-relative site moved by the placement shift of a plane; sites 240 to 255 stay; `none` off the grid. -/
def shiftBy (dy dx : Int) (site : Nat) : Option Nat :=
  if 240 ≤ site then some site
  else
    let y : Int := (site / 16 : Nat) + dy
    let x : Int := (site % 16 : Nat) + dx
    if 0 ≤ y ∧ y < 15 ∧ 0 ≤ x ∧ x < 16 then some (y * 16 + x).toNat else none

/-- The shift of a record's plane: the scribe plane's for a scribe record. -/
def shiftSite (s : State) (c : Cur) (site : Nat) : Option Nat :=
  let k := if c.site = 240 then (panelAt s c.p).scribePlane.getD c.plane else c.plane
  shiftBy (planeOf s c.p k).dy (planeOf s c.p k).dx site

/-- The site byte of destination fields [15:0], moved. -/
def shiftDest (s : State) (c : Cur) (v : Nat) : Option Nat :=
  (shiftSite s c (bits v 15 8)).map (fun y => put y 8 + v % 256)

/-! ## Results (08 R166, R167) -/

/-- Destinations and CTL of a record, whatever its format. -/
structure Form where
  d0 : Dest
  d1 : Dest
  ctl : Ctl
deriving DecidableEq, Repr, Inhabited

def formN (r : RecN) : Form := { d0 := r.d0, d1 := r.d1, ctl := r.ctl }
def formT (r : RecT) : Form := { d0 := r.d0, d1 := r.d1, ctl := r.ctl }
def formS (r : RecS) : Form := { d0 := r.d0, d1 := r.d1, ctl := r.ctl }
/-- Format M: D1 carries the ordering site and never a result (08 R168). -/
def formM (r : RecM) : Form := { d0 := r.d0, d1 := { site := 255, node := 0, port := 0 }, ctl := r.ctl }

/-- A value to send, its destination still open. -/
structure Val where
  tag : Word64
  ty : BitVec 4
  lanes : List Lane
  null : Bool := false
  eor : Bool := false
  snap : Bool := false
deriving DecidableEq, Repr, Inhabited

/-- What one firing computes: cond, a value for each destination, destinations that receive a null when their code
fails (09 R196), FPFLAGS raised, or a fault. -/
structure Res where
  cond : Bool := true
  v0 : Option Val := none
  v1 : Option Val := none
  voids : Bool := false
  flags : BitVec 5 := 0
  fault : Option Nat := none
deriving DecidableEq, Repr, Inhabited

def valSend (d : Dest) (poison : Bool) (v : Val) : Send :=
  { dest := d, tag := v.tag, ty := v.ty, null := v.null, poison := poison, eor := v.eor, snap := v.snap,
    lanes := v.lanes }

/-- The null that a match sends: its tag, the record's type, the width of port a (02 R50, R51). -/
def nullVal (c : Cur) (ty : BitVec 4) : Val :=
  { tag := c.tag, ty := ty, lanes := List.replicate (max 1 (widthA c)) 0, null := true }

/-- The null that a move sends: TYPE, width, EOR and SNAP of the operand it passes (09 R193, 10 R222; log 14). -/
def moveNull (c : Cur) (t : Token) : Val :=
  { tag := c.tag, ty := t.ty, lanes := List.replicate (max 1 t.lanes.length) 0, null := true, eor := t.eor, snap := t.snap }

/-- The sends of one destination. -/
def destSends (d : Dest) (code : BitVec 2) (poison : Bool) (cond voids : Bool) (nul : Val) (v : Option Val) :
    List Send :=
  match v with
  | none => []
  | some x =>
    if x.null then (if takesNull code then [valSend d false x] else [])
    else if emits code cond then [valSend d poison x]
    else if voids && code != 3 then [valSend d false nul]
    else []

/-- Both destinations' sends, D0 first. -/
def resSends (c : Cur) (f : Form) (ty : BitVec 4) (r : Res) : List Send :=
  destSends f.d0 f.ctl.emit0 (curPoison c) r.cond r.voids (nullVal c ty) r.v0 ++
    destSends f.d1 f.ctl.emit1 (curPoison c) r.cond r.voids (nullVal c ty) r.v1

/-- A token wider than the grant of its colour, a null too (02 R50, 16 R332). -/
def tooWide (s : State) (c : Cur) (x : Send) : Bool :=
  match grantCopy s c.p c.site (partOf s (matchCtx s c.p c.plane c.tag)) (colourOf x.tag) with
  | some g => decide (g < x.lanes.length)
  | none => false

/-- Send what a firing sends, unless a token is wider than the grant of its colour: then ILLEGAL_OP, and nothing leaves
(16 R332). -/
def sendAll (s : State) (c : Cur) (xs : List Send) : State :=
  if xs.any (tooWide s c) then faultCur s c cILLEGAL 0 else sends s c xs

/-- Set the flags of the match's group; a poisoned match sets none (03 R76). -/
def curFlags (s : State) (c : Cur) (f : BitVec 5) : State :=
  if curPoison c then s else orFlags s (partOf s (matchCtx s c.p c.plane c.tag)) (colourOf c.tag) f

/-- Send a firing's results: a fault withholds them, so does a result wider than the grant (16 R332). -/
def emitRes (s : State) (c : Cur) (f : Form) (ty : BitVec 4) (r : Res) : State :=
  match r.fault with
  | some k => faultCur s c k 0
  | none =>
    let xs := resSends c f ty r
    if xs.any (tooWide s c) then faultCur s c cILLEGAL 0 else sends (curFlags s c r.flags) c xs

/-- The nulls of a match (02 R51). -/
def emitNulls (s : State) (c : Cur) (f : Form) (ty : BitVec 4) : State :=
  sendAll s c (resSends c f ty { v0 := some (nullVal c ty), v1 := some (nullVal c ty) })

/-- Nulls `v0` to D0 and `v1` to D1 (02 R51). -/
def sendNulls (s : State) (c : Cur) (f : Form) (v0 v1 : Val) : State :=
  sendAll s c (resSends c f v0.ty { v0 := some v0, v1 := some v1 })

/-- Every port of the set holds a token. -/
def hasPorts (c : Cur) (ps : List Nat) : Bool := ps.all (fun k => (portTok? c k).isSome)

/-- Some operand of the set is null. -/
def anyNull (c : Cur) (ps : List Nat) : Bool := ps.any (fun k => (portTok c k).null)

/-- A block-typed value among the operands of the set. -/
def anyBlock (c : Cur) (ps : List Nat) : Bool :=
  ps.any (fun k => isBlockTy (portTok c k).ty && !(portTok c k).null)

/-- The firing of 02 R51 after the take-in checks of 08 R179: `bad` says that a field of the record is not
admitted; `blk` that the record admits block types (03 R80); `fin` sends the result. -/
def fireWith (s : State) (f : Form) (ty : BitVec 4) (base : List Nat) (bad blk : Bool) (op : Cur → Res)
    (fin : State → Cur → Form → BitVec 4 → Res → State) : Outcome :=
  let c := s.cur
  let ps := portSet base f.ctl
  if !hasPorts c ps then .refused .noMatch
  else if bad || badCtl base f.ctl || (f.ctl.lituse != 0 && isBlockTy ty) || (!blk && anyBlock c ps) then
    .next (faultCur s c cILLEGAL 0)
  else if anyNull c ps then .next (if f.ctl.nullpass then emitNulls s c f ty else s)
  else if predFalse f.ctl c then .next (emitNulls s c f ty)
  else .next (fin s c f ty (op c))

/-- A firing whose nulls are its own: `nuls` gives the one for D0 and the one for D1. -/
def fireNul (s : State) (f : Form) (ty : BitVec 4) (base : List Nat) (bad blk : Bool) (nuls : Cur → Val × Val) (op : Cur → Res) :
    Outcome :=
  let c := s.cur
  let ps := portSet base f.ctl
  if !hasPorts c ps then .refused .noMatch
  else if bad || badCtl base f.ctl || (f.ctl.lituse != 0 && isBlockTy ty) || (!blk && anyBlock c ps) then
    .next (faultCur s c cILLEGAL 0)
  else if anyNull c ps then .next (if f.ctl.nullpass then sendNulls s c f (nuls c).1 (nuls c).2 else s)
  else if predFalse f.ctl c then .next (sendNulls s c f (nuls c).1 (nuls c).2)
  else .next (emitRes s c f ty (op c))

/-- A firing whose whole effect takes place in its issue cycle (08 R182). -/
def fire (s : State) (f : Form) (ty : BitVec 4) (base : List Nat) (bad blk : Bool) (op : Cur → Res) : Outcome :=
  fireWith s f ty base bad blk op emitRes

/-- A result that is delivered `lat` cycles after issue, its flags set then (10 R212); with latency 1 it leaves in its issue
cycle, unless an earlier result of its record is still to come. -/
def delayRes (lat : Cur → Nat) (s : State) (c : Cur) (f : Form) (ty : BitVec 4) (r : Res) : State :=
  match r.fault with
  | some k => faultCur s c k 0
  | none =>
    let xs := resSends c f ty r
    let n := nibAt s c.p c.site
    if xs.any (tooWide s c) then faultCur s c cILLEGAL 0
    else if lat c ≤ 1 ∧ !(n.delayed.any (fun d => d.plane == c.plane && d.node == c.node)) then
      sends (curFlags s c r.flags) c xs
    else
      let d : Delayed :=
        { plane := c.plane, node := c.node, tag := c.tag, due := s.cycle + lat c, sends := xs,
          flags := if curPoison c then 0 else r.flags }
      setNib s c.p c.site { n with delayed := n.delayed ++ [d] }

/-- A firing whose result, and whose nulls with it, are delivered `lat` cycles after issue (10 R212): the results of two firings
of one record leave in issue order. -/
def fireLate (s : State) (f : Form) (ty : BitVec 4) (base : List Nat) (bad blk : Bool) (op : Cur → Res) (lat : Cur → Nat) : Outcome :=
  let c := s.cur
  let ps := portSet base f.ctl
  let nuls : Res := { v0 := some (nullVal c ty), v1 := some (nullVal c ty) }
  if !hasPorts c ps then .refused .noMatch
  else if bad || badCtl base f.ctl || (f.ctl.lituse != 0 && isBlockTy ty) || (!blk && anyBlock c ps) then
    .next (faultCur s c cILLEGAL 0)
  else if anyNull c ps then .next (if f.ctl.nullpass then delayRes lat s c f ty nuls else s)
  else if predFalse f.ctl c then .next (delayRes lat s c f ty nuls)
  else .next (delayRes lat s c f ty (op c))

/-- A record that computes one value for both destinations. -/
def both (v : Val) : Res := { v0 := some v, v1 := some v }

/-- The acknowledgement of 11 R235 with value `v`. -/
def ackVal (tag : Word64) (v : Nat) : Val := { tag := tag, ty := 6, lanes := word1 v }

/-! ## Port sets by opcode (08 R165, R184, R194; 10; 11 R235; 12 R262; and each format S file) -/

/-- Ports that the description of an opcode lists: a 0, b 1, c 2, w 4, x 5. -/
def basePorts (op : Nat) : List Nat :=
  match op with
  | 0x00 => []
  | 0x05 | 0x18 | 0x1A | 0x1B | 0x26 | 0x43 | 0x65 | 0x8E => [0, 1, 2]
  | 0x0A | 0x0B | 0x14 | 0x15 | 0x16 | 0x1E => [0]
  | 0x20 | 0x21 | 0x22 | 0x27 | 0x28 | 0x29 | 0x2C | 0x2E | 0x2F | 0x30 => [0]
  | 0x31 => []
  | 0x32 => [4]
  | 0x33 | 0x34 | 0x35 => [5]
  | 0x47 | 0x49 | 0x4A | 0x4B | 0x4C | 0x4D | 0x4E | 0x4F | 0x50 | 0x51 | 0x52 | 0x54 => [0]
  | 0x60 | 0x61 | 0x62 | 0x63 | 0x64 | 0x66 | 0x67 | 0x68 | 0x69 | 0x6B | 0x6C | 0x6D | 0x6F => [0]
  | 0x80 | 0x82 | 0x84 | 0x85 | 0x86 | 0x90 | 0x91 | 0x92 | 0x93 | 0x94 => [0]
  | 0xA0 | 0xA1 | 0xA2 | 0xA3 | 0xA4 | 0xA5 | 0xA9 | 0xAB | 0xAC | 0xAD | 0xAE => [0]
  | 0xC0 | 0xC2 | 0xC3 | 0xC4 | 0xC5 | 0xC6 | 0xC8 | 0xCA | 0xCB | 0xCC | 0xCD | 0xCE | 0xCF => [0]
  | _ => if op < 0x1F ∨ (0x20 ≤ op ∧ op < 0xE0) then [0, 1] else [0]

/-! ## Requests to the colour point and the barrier points (16 R331, 17 R344) -/

/-- The kind of a request, in the order of service: frees, grants and packing writes, draws; BINIT, BDROP, BARRIVE, and the reads, which
take no turn. -/
def pointKind (i : Instr) : Nat :=
  match i with
  | .callocGrant _ => 1
  | .callocEntry _ => 1
  | .packc _ => 1
  | .spawn _ => 2
  | .bdrop _ => 1
  | .barrive _ => 2
  | .barriveTag _ => 2
  | .bwait _ => 3
  | .btest _ => 3
  | .btestTicket _ => 3
  | _ => 0

/-- A SPAWN's draw (16 R333). -/
def drawOf (s : State) (c : Cur) (r : RecN) : Draw :=
  let ctx := matchCtx s c.p c.plane c.tag
  { part := partOf s ctx, ctx := ctx, n := r.lit.toNat % 64 + 1
    base := if bit r.hi.toNat 3 then some (laneN (portTok c 1).lanes 0) else none
    spawn := some (c, r), launch := none, born := s.cycle }

/-- A request reaches its point: a SPAWN joins the draws. -/
def pointArrive (s : State) (x : PReq) : State :=
  match x.i with
  | .spawn r => { s with draws := s.draws ++ [drawOf s x.cur r] }
  | _ => { s with points := s.points ++ [{ x with born := s.cycle }] }

/-- A record sends its request to a point; from another die it crosses the die link (01 R12). -/
def askPoint (s : State) (point die : Nat) (i : Instr) (c : Cur) : State :=
  let x : PReq := { point := point, born := s.cycle, kind := pointKind i, i := i, cur := c }
  if dieOf c.p = die then pointArrive s x
  else
    { s with reqs := s.reqs ++ [{ kind := .point x, path := linkPath (dieOf c.p) die, born := s.cycle,
                                  ctx := matchCtx s c.p c.plane c.tag, issuer := c.p, addr := 0, ctag := 64 }] }

/-- Requests of this part's records that no point has served, on their way or there. -/
def pointReqs (s : State) : List PReq :=
  s.points ++ s.reqs.filterMap (fun r => match r.kind with
    | .point x => some x
    | _ => none)

/-- Change the requests at the points and on their way there; `none` takes one away. -/
def mapPoints (s : State) (f : PReq → Option PReq) : State :=
  { s with
    points := s.points.filterMap f
    reqs := s.reqs.filterMap (fun r => match r.kind with
      | .point x => (f x).map (fun y => { r with kind := .point y })
      | _ => some r) }

end Sys2Proof.Machine
end

