-- ==== Sys2Proof/Machine/Fabric.lean ====
section
/-!
DEFINITION. Matching and issue at a nib and in the block of a scribe (02 R33, R38 to R49, R54): the port set of a
record, rows and shares, the ready lists, frame stores, and the choice of the next match.
-/
namespace Sys2Proof.Machine

/-! ## Records as matching sees them -/

def opOf (w : Rec96) : Nat := (w.extractLsb' 88 8).toNat
def modOf (w : Rec96) : Nat := (w.extractLsb' 80 8).toNat
def litOf (w : Rec96) : Nat := (w.extractLsb' 0 32).toNat

/-- CTL of a record of format N, M, T or S. -/
def ctlOf (w : Rec96) : Ctl :=
  { lituse := w.extractLsb' 46 2, pred := w.getLsbD 45, emit0 := w.extractLsb' 43 2, emit1 := w.extractLsb' 41 2,
    nullpass := w.getLsbD 40 }

def dest0Of (w : Rec96) : Dest := destOfBits (w.extractLsb' 64 16)
def dest1Of (w : Rec96) : Dest := destOfBits (w.extractLsb' 48 16)

/-- An opcode that 08 R176 does not define, or a header. -/
def reservedOp (w : Rec96) : Bool :=
  match decode w with
  | .error (.badSub _) => false
  | .error _ => true
  | .ok _ => false

/-- The ports that a record's description lists: CAVJOIN SUB 1 and SPAWN FORM 1 list port b as well (12 R268, 16 R333). -/
def listedPorts (w : Rec96) : List Nat :=
  basePorts (opOf w) ++ (if (opOf w = 0xC0 ∧ modOf w = 1) ∨ (opOf w = 0xC8 ∧ bit (modOf w) 7) then [1] else [])

/-- The port set of a record (08 R165); that of a NOP is empty, whatever its CTL holds (09 R192). -/
def portsOf (w : Rec96) : List Nat := if reservedOp w ∨ opOf w = 0 then [] else portSet (listedPorts w) (ctlOf w)

/-- Records that consume scales (03 R68): BXUNPK, DOT, SHUF, BCAST, WLOAD, MMA. -/
def scaleOp (op : Nat) : Bool := op == 0x64 || op == 0x65 || op == 0x6A || op == 0x6B || op == 0xAA || op == 0xAB

def opMerge : Nat := 0x26
def opThrottle : Nat := 0x2A
def opRepeat : Nat := 0x2B
def opRankadm : Nat := 0x71
def opPackc : Nat := 0x6E

/-- Key of record r of block b of plane k in a block store (02 R52): the header is record 0. -/
def blockKey (k b r : Nat) : Nat := (k * 256 + b) * 64 + r

/-- The record that a token for (plane, node) meets at a site; in a scribe, in the block it holds. -/
def recAt (s : State) (p site plane node : Nat) : Rec96 :=
  if site = 240 then
    match (scribeAt s p).cur with
    | some b => tgetD (scribeAt s p).blocks (blockKey b.plane b.index (node + 1)) 0
    | none => 0
  else tgetD (nibAt s p site).store (32 * plane + node) 0

/-- A well site (01 R16): y + x is odd. -/
def isWell (site : Nat) : Bool := site < 240 && (site / 16 + site % 16) % 2 == 1

def isNib (site : Nat) : Bool := site < 240 && !isWell site

/-- Rows and columns between two grid sites. -/
def distance (a b : Nat) : Nat :=
  (a / 16 - b / 16) + (b / 16 - a / 16) + ((a % 16 - b % 16) + (b % 16 - a % 16))

/-! ## Tags in the two services -/

def tagged (s : State) (p : Nat) : Bool := (panelAt s p).tagged

/-- The tag under which operands match: none in plain service (02 R54). -/
def keyTag (s : State) (p : Nat) (t : Word64) : Word64 := if tagged s p then t else 0

/-- The base tag of level `j` (09 R199, R202): one for the node in plain service (09 R206). -/
def baseTag (s : State) (p plane : Nat) (t : Word64) (j : Nat) : Word64 :=
  if tagged s p then setfld (layoutOf s p plane) t j 0 else 0

/-- The tag of a match: its port-a operand's, else the first operand's (log 12). -/
def matchTag (ops : List (Nat × Token)) : Word64 :=
  match ops.find? (fun x => x.1 == 0) with
  | some x => x.2.tag
  | none => match ops with
    | x :: _ => x.2.tag
    | [] => 0

/-! ## Rows (02 R40; 13 R284) -/

/-- A rank table's rows: its entries, and candidates matched and not yet issued, up to the capacity (12 R278). -/
def rankRows (s : State) (p site : Nat) (n : Nib) (r : RankTable) : Nat :=
  let w := recAt s p site r.plane r.node
  let j := bits (litOf w) 18 16
  let pend := (n.ready.filter (fun m => m.plane == r.plane && m.node == r.node &&
    baseTag s p r.plane m.tag j == r.base)).length
  min (litOf w % 65536) (r.entries.length + pend)

/-- The rank tables of a nib, with an empty one for each base whose candidates have matched and none has issued (12 R278). -/
def rankTabs (s : State) (p site : Nat) (n : Nib) : List RankTable :=
  n.ready.foldl (fun ts m =>
    let w := recAt s p site m.plane m.node
    let base := baseTag s p m.plane m.tag (bits (litOf w) 18 16)
    if opOf w = opRankadm ∧ m.again = 0 ∧ !(ts.any (fun r => r.plane == m.plane && r.node == m.node && r.base == base)) then
      ts ++ [{ plane := m.plane, node := m.node, base := base, counted := 0, entries := [] }]
    else ts) n.ranks

/-- A match that waits at a cavity's or a pace store's well holds no row of its nib (12 R269, R272). -/
def holdsRow : WaitOn → Bool
  | .pace _ _ => false
  | .cavity _ _ => false
  | _ => true

/-- Rows of a context in use at a nib; tokens held by a snapshot are counted in its reserve. -/
def rowsUsed (s : State) (p site ctx : Nat) : Nat :=
  let n := nibAt s p site
  let mine := fun plane tag => matchCtx s p plane tag == ctx
  (n.groups.map (fun g => (g.ops.filter (fun x => mine g.plane x.2.tag)).length)).foldl (· + ·) 0 +
    (n.thr.filter (fun e => mine e.plane e.base)).length +
    (n.sticky.filter (fun e => mine e.plane e.tok.tag)).length +
    (n.waits.filter (fun w => holdsRow w.on && mine w.m.plane w.m.tag)).length +
    (((rankTabs s p site n).filter (fun r => mine r.plane r.base)).map (rankRows s p site n)).foldl (· + ·) 0

/-- Rows of a context's share: 8 × ROWS, less 8 reserved while a snapshot is open (13 R282, R284; 15 R328). -/
def rowLimit (s : State) (p ctx : Nat) : Nat :=
  match (panelAt s p).admit_.find? (fun a => a.ctx == ctx) with
  | some a => 8 * a.rows - (if (panelAt s p).snap.isSome then 8 else 0)
  | none => 64

/-- A free row remains for the operand's context. A scribe's matching has no share. -/
def rowFree (s : State) (p site plane : Nat) (tag : Word64) : Bool :=
  site == 240 || rowsUsed s p site (matchCtx s p plane tag) < rowLimit s p (matchCtx s p plane tag)

/-! ## Ready lists (02 R44) -/

def readyRoom (n : Nib) (plane : Nat) : Bool := (n.ready.filter (fun m => m.plane == plane)).length < 64

/-- Before in a ready list: completion cycle, tag, node. -/
def readyBefore (a b : Match) : Bool :=
  a.done < b.done || (a.done == b.done &&
    (a.tag.toNat < b.tag.toNat || (a.tag == b.tag && a.node < b.node)))

/-- Append a match to its plane's ready list with this cycle as its completion cycle. -/
def toReady (cycle : Nat) (n : Nib) (m : Match) : Nib :=
  let empty := !(n.ready.any (fun x => x.plane == m.plane))
  { n with
    ready := insBy readyBefore { m with done := cycle, entered := tgetD n.planeIssues m.plane 0 } n.ready
    nonemptySince := if empty then tsetD n.nonemptySince m.plane (cycle + 1) 0 else n.nonemptySince }

/-! ## Scales (03 R67, R68) -/

/-- Blocks whose scales a match needs, as (side, block). A match with a null operand needs none, whatever its other operands
hold, and WLOAD and MMA need them outside an array as well (the model's readings of R68, log 85). -/
def scaleNeeds (op : Nat) (ops : List (Nat × Token)) : List (Nat × Nat) :=
  if scaleOp op && !(ops.any (fun x => x.2.null)) then
    ops.flatMap (fun x =>
      if x.1 < 2 ∧ isBlockTy x.2.ty then
        (List.range (blockCountW x.2.ty x.2.lanes.length)).map (fun b => (x.1, b))
      else [])
  else []

/-- Whether a scale token serves a need of a match. Its block tag must name the match's tag in plain service too (the model's
reading, log 85). -/
def scaleFits (x : ScaleTok) (plane node : Nat) (tag : Word64) (need : Nat × Nat) : Bool :=
  x.plane == plane && x.node == node && x.payload.toNat / 2 ^ 20 == tag.toNat / 2 ^ 20 &&
    bits x.payload.toNat 19 19 == need.1 && bits x.payload.toNat 18 16 == need.2

/-- Take the scales of a match from a store, the oldest of each block tag; `none` if one is missing. -/
def takeScales (plane node : Nat) (tag : Word64) :
    List (Nat × Nat) → List ScaleTok → List ScaleTok → Option (List ScaleTok × List ScaleTok)
  | [], store, got => some (store, got)
  | need :: rest, store, got =>
    match idxOf (fun x => scaleFits x plane node tag need) store with
    | none => none
    | some i =>
      match store[i]? with
      | some x => takeScales plane node tag rest (dropAt store i) (got ++ [x])
      | none => none

/-! ## What fires (02 R39, 09 R197) -/

/-- MERGE with OPX 0, which waits for c and the port that c selects, and not for the other. -/
def mergeOne (w : Rec96) : Bool := opOf w == opMerge && !bit (modOf w) 7

/-- The port that a token on port c of MERGE selects. -/
def selOf (t : Token) : Nat := if laneN t.lanes 0 ≠ 0 then 0 else 1

/-- What an operand of MERGE with OPX 0 meets as it arrives: `some none` when it fires alone, `some` a test of the waiting
operands of its key, of which it takes the oldest, when it needs one, and `none` when nothing can meet it. A null c selects neither
port, and fires alone (log 13); a literal on port b or c is always there (R164). -/
def mergeMeets (w : Rec96) (k : Nat) (t : Token) : Option (Option (Nat × Token → Bool)) :=
  let lit := (ctlOf w).lituse
  if k = 2 then
    if t.null ∨ (selOf t = 1 ∧ lit = 1) then some none else some (some (fun x => x.1 == selOf t))
  else if lit = 2 then (if k = (if litOf w % 256 ≠ 0 then 0 else 1) then some none else none)
  else some (some (fun x => x.1 == 2 && selOf x.2 == k))

/-- The oldest operand of a list of groups that passes a test, taken out of its group; a group left empty goes. -/
def takeOp (mine : Group → Bool) (f : Nat × Token → Bool) : List Group → Option ((Nat × Token) × List Group)
  | [] => none
  | g :: rest =>
    match (if mine g then idxOf f g.ops else none) with
    | some i =>
      match g.ops[i]? with
      | some x => some (x, if g.ops.length = 1 then rest else { g with ops := dropAt g.ops i } :: rest)
      | none => none
    | none => (takeOp mine f rest).map (fun y => (y.1, g :: y.2))

/-- The match that operands of one key make (not for MERGE with OPX 0). -/
def completes (w : Rec96) (ops : List (Nat × Token)) : Option (List (Nat × Token)) :=
  if !mergeOne w && (portsOf w).all (fun k => ops.any (fun x => x.1 == k)) then some ops else none

/-- The match that a new operand of one key makes with those that wait, in arrival order. -/
def completesWith (w : Rec96) (k : Nat) (t : Token) (wait : List (Nat × Token)) : Option (List (Nat × Token)) :=
  if mergeOne w then
    match mergeMeets w k t with
    | some none => some [(k, t)]
    | some (some f) => (wait.find? f).map (fun x => [(k, t), x])
    | none => none
  else
    completes w (wait.foldl (fun (ops : List (Nat × Token)) o => if ops.any (fun y => y.1 == o.1) then ops else ops ++ [o]) [(k, t)])

/-- Level of the base tag of a record that keeps an entry per loop instance: LEVEL of MOD (09 R193), or LIT[18:16]
of RANKADM (12 R278). -/
def entryLevel (w : Rec96) : Nat :=
  if opOf w = opRankadm then bits (litOf w) 18 16 else bits (modOf w) 6 4

/-- A record whose port b is taken into an entry: THROTTLE, REPEAT, RANKADM. -/
def entryOp (op : Nat) : Bool := op == opThrottle || op == opRepeat || op == opRankadm

/-- The port whose token is held as an entry: REPEAT's invariant, RANKADM's count, THROTTLE's credits. -/
def stickyPort (op : Nat) : Nat := if op = opRepeat then 0 else 1

/-- The other ports, which match under one tag. -/
def freePorts (w : Rec96) : List Nat := (portsOf w).filter (fun k => k != stickyPort (opOf w))

/-- A THROTTLE entry can admit the oldest of its waiting tokens: it has a credit, and none is ready before it (09 R200: one
admission per issue, in arrival order). -/
def thrFree (s : State) (p : Nat) (n : Nib) (e : ThrEntry) (j : Nat) : Bool :=
  decide (0 < e.credits) && !(n.ready.any (fun m => m.plane == e.plane && m.node == e.node && baseTag s p e.plane m.tag j == e.base))

/-! ## Entries that wait: THROTTLE, REPEAT, RANKADM, and matches that lack scales -/

/-- One waiting group that can move on now: the nib after it has. -/
def moveGroup (s : State) (p site : Nat) (n : Nib) (g : Group) (rest : List Group) : Option Nib :=
  let w := recAt s p site g.plane g.node
  let op := opOf w
  let j := entryLevel w
  let base := baseTag s p g.plane (matchTag g.ops) j
  let stick := n.sticky.find? (fun e => e.plane == g.plane && e.node == g.node && e.base == base)
  let m : Match := { plane := g.plane, node := g.node, tag := matchTag g.ops, ops := g.ops }
  if op = opThrottle then
    match n.thr.find? (fun e => e.plane == g.plane && e.node == g.node && e.base == base) with
    | some e =>
      if thrFree s p n e j ∧ readyRoom n g.plane then some (toReady s.cycle { n with groups := rest } m) else none
    | none => none
  else if entryOp op then
    if g.ops.any (fun x => x.1 == stickyPort op) then
      match g.ops, stick with
      | (_, t) :: _, none =>
        some { n with groups := rest,
                      sticky := n.sticky ++ [{ plane := g.plane, node := g.node, base := base, tok := t }] }
      | _, _ => none
    else
      match stick with
      | some e =>
        if op = opRepeat ∧ (freePorts w).all (fun k => g.ops.any (fun x => x.1 == k)) ∧ readyRoom n g.plane then
          some (toReady s.cycle { n with groups := rest } { m with ops := (0, e.tok) :: g.ops })
        else none
      | none => none
  else
    match completes w g.ops with
    | some ops =>
      match takeScales g.plane g.node m.tag (scaleNeeds op ops) n.scales [] with
      | some (store, got) =>
        if readyRoom n g.plane then
          some (toReady s.cycle { n with groups := rest, scales := store } { m with scales := got })
        else none
      | none => none
    | none => none

/-- The first waiting group that can move on, moved. -/
def moveFirst (s : State) (p site : Nat) (n : Nib) : List Group → List Group → Option Nib
  | _, [] => none
  | seen, g :: rest =>
    match moveGroup s p site n g (seen ++ rest) with
    | some n' => some n'
    | none => moveFirst s p site n (seen ++ [g]) rest

/-- Generators that have no place on a ready list take one when there is room (09 R204). -/
def armGens (s : State) (n : Nib) : Nib :=
  n.gens.foldl (fun n g =>
    if n.ready.any (fun m => m.again == 2 && m.plane == g.plane && m.node == g.node && m.tag == g.tag) ∨
        !readyRoom n g.plane then n
    else toReady s.cycle n { plane := g.plane, node := g.node, tag := g.tag, ops := [], again := 2 }) n

/-- Waiting matches that a test picks join their ready lists again (02 R44): one that finds its list full does so when there is
room. -/
def wakeNib (cycle : Nat) (f : Waiting → Bool) (n : Nib) : Nib :=
  n.waits.foldl (fun n x =>
    if !f x then { n with waits := n.waits ++ [x] }
    else if readyRoom n x.m.plane then toReady cycle n x.m
    else { n with waits := n.waits ++ [{ x with due := true }] }) { n with waits := [] }

/-- Move on all that can, at one site. -/
def settle (s : State) (p site : Nat) : State :=
  let go := fun (s : State) (_ : Nat) =>
    match moveFirst s p site (nibAt s p site) [] (nibAt s p site).groups with
    | some n => setNib s p site n
    | none => s
  let s := iter s (nibAt s p site).groups.length go
  setNib s p site (armGens s (wakeNib s.cycle (fun x => x.due) (nibAt s p site)))

/-! ## Frame stores (02 R42, R43; 04 R93) -/

/-- The frame-store well nearest to a nib, the lower site first among equals. -/
def frameWell (s : State) (p site : Nat) : Option Nat :=
  (List.range 240).foldl (fun best w =>
    if isWell w ∧ wellMode (wellAt s p w) = 6 then
      match best with
      | none => some w
      | some b => if distance site w < distance site b then some w else some b
    else best) none

/-- Level-0 field of a tag. -/
def level0 (s : State) (p plane : Nat) (tag : Word64) : Nat := fld (layoutOf s p plane) tag 0

/-- Frame operands of a nib with one key. -/
def frameOps (x : Well) (site plane node : Nat) (tag : Word64) : List Token :=
  x.frames.flatMap (fun f => (f.slots.filter (fun o =>
    o.site == site && o.tok.plane.toNat == plane && o.tok.node.toNat == node && o.tok.tag == tag)).map (·.tok))

/-- The frame operands of node `n`, whatever their tag. -/
def frameNode (x : Well) (site plane node : Nat) : Bool :=
  x.frames.any (fun f => f.slots.any (fun o =>
    o.site == site && o.tok.plane.toNat == plane && o.tok.node.toNat == node))

/-- Index of a frame's chain in the directory (04 R93). -/
def frameIndex (colour lev : Nat) : Nat := Nat.xor colour lev % 1024

/-- The frame of a colour and a level-0 field, along a chain. -/
def frameSeek (x : Well) (colour lev : Nat) : Nat → Nat → Option Frame
  | 0, _ => none
  | n + 1, num =>
    match x.frames.find? (fun f => f.num == num) with
    | none => none
    | some f => if f.colour = colour ∧ f.level0 = lev then some f else frameSeek x colour lev n f.next

/-- The frame of a colour and a level-0 field, through the directory (02 R42). -/
def frameOf (x : Well) (colour lev : Nat) : Option Frame := frameSeek x colour lev 126 (tgetD x.dir (frameIndex colour lev) 0)

/-- A slot for an operand in its frame, a new frame, first in its chain, if none exists; `none` when the frame area (126 frames) or
the frame (28 slots) is full. The key of a slot holds the sending nib's site beside plane, node, port and tag: nibs that share a
frame store never meet (the model's reading of R42, log 84). -/
def frameAdd (x : Well) (colour lev site : Nat) (t : Token) : Option Well :=
  match frameOf x colour lev with
  | some f =>
    if f.slots.length < 28 then
      some { x with frames := x.frames.map (fun g => if g.num = f.num then { g with slots := g.slots ++ [{ site := site, tok := t }] } else g) }
    else none
  | none =>
    match (List.range 126).find? (fun i => !(x.frames.any (fun f => f.num == i + 2))) with
    | some i =>
      let head := tgetD x.dir (frameIndex colour lev) 0
      some { x with
        frames := x.frames ++ [{ num := i + 2, next := head, colour := colour, level0 := lev, slots := [{ site := site, tok := t }] }]
        dir := tput x.dir (frameIndex colour lev) (i + 2) }
    | none => none

/-- A frame goes back to the free list, and leaves its chain. -/
def frameFree (x : Well) (f : Frame) : Well :=
  let i := frameIndex f.colour f.level0
  { x with
    dir := if tgetD x.dir i 0 = f.num then tsetD x.dir i f.next 0 else x.dir
    frames := (x.frames.filter (fun g => g.num != f.num)).map (fun g => if g.next = f.num then { g with next := f.next } else g) }

/-- Take one operand of a port from the frames; an empty frame is free again. -/
def frameTake (x : Well) (site plane node : Nat) (tag : Word64) (port : Nat) : Well :=
  let mine := fun (o : FrameOp) => o.site == site && o.tok.plane.toNat == plane && o.tok.node.toNat == node &&
    o.tok.tag == tag && o.tok.port.toNat == port
  match x.frames.find? (fun f => f.slots.any mine) with
  | none => x
  | some f =>
    let slots := match idxOf mine f.slots with
      | some i => dropAt f.slots i
      | none => f.slots
    if slots.isEmpty then frameFree x f
    else { x with frames := x.frames.map (fun g => if g.num = f.num then { g with slots := slots } else g) }

/-- Post FRAME_EXHAUST for an operand (02 R43): it is withheld. -/
def postTok (s : State) (p site cause : Nat) (t : Token) : State :=
  post s { tag := t.tag, cause := cause, site := site, node := t.node.toNat, port := t.port.toNat,
           plane := t.plane.toNat, panel := p, ctx := matchCtx s p t.plane.toNat t.tag }

/-- The context that configured a well has not admitted a colour there (04 R87). -/
def ownerRefuses (s : State) (p w : Nat) (tag : Word64) : Bool :=
  tagged s p &&
    (match (wellAt s p w).owner with
     | some o => (admission? s p (colourOf tag)).map (·.ctx) != some o
     | none => (admission? s p (colourOf tag)).isNone)

/-- Send an operand to the frame store; a match that it completes there is to be returned. A store whose owner has not admitted
the operand's colour discards it with TAG_RANGE (04 R87). -/
def toFrame (s : State) (p site : Nat) (t : Token) : State :=
  match frameWell s p site with
  | none => postTok s p site cFRAME t
  | some w =>
    let x := wellAt s p w
    let plane := t.plane.toNat
    let node := t.node.toNat
    if ownerRefuses s p w t.tag then postTok s p w cTAG t
    else match frameAdd x (colourOf t.tag) (level0 s p plane t.tag) site t with
    | none => postTok s p site cFRAME t
    | some x1 =>
      let wait := (frameOps x site plane node t.tag).map (fun o => (o.port.toNat, o))
      match completesWith (recAt s p site plane node) t.port.toNat t wait with
      | none => setWell s p w x1
      | some ops =>
        let x2 := ops.foldl (fun x o => frameTake x site plane node t.tag o.1) x1
        let m : Match := { plane := plane, node := node, tag := matchTag ops, ops := ops }
        setWell s p w { x2 with returns := x2.returns ++ [(site, m)] }

/-! ## Taking an operand (02 R41) -/

/-- Discard a token with ILLEGAL_OP (02 R33, 15 R320). -/
def discardTok (s : State) (p site : Nat) (t : Token) : State := postTok s p site cILLEGAL t

/-- Groups keyed (plane, node, tag), by index. -/
def keyed (s : State) (p : Nat) (t : Token) (g : Group) : Bool :=
  g.plane == t.plane.toNat && g.node == t.node.toNat && g.tag == keyTag s p t.tag

/-- Place an operand of a THROTTLE, REPEAT or RANKADM record, `none` when it waits on its link. None of them spills: a port-a token
of THROTTLE that finds no free row waits on its link like the rest (the model's reading, log 84). In plain service REPEAT's sticky
row is its port-a slot (09 R206). -/
def placeEntry (s : State) (p site : Nat) (t : Token) (w : Rec96) : Option State :=
  let n := nibAt s p site
  let plane := t.plane.toNat
  let node := t.node.toNat
  let op := opOf w
  let k := t.port.toNat
  let base := baseTag s p plane t.tag (entryLevel w)
  let stick := n.sticky.find? (fun e => e.plane == plane && e.node == node && e.base == base)
  let i := if k = stickyPort op then none else
    idxOf (fun g => keyed s p t g && !(g.ops.any (fun x => x.1 == k || x.1 == stickyPort op))) n.groups
  let shut := !tagged s p && op == opRepeat && stick.isSome
  let g : Group := match i with
    | some i => n.groups.getD i default
    | none => { plane := plane, node := node, tag := keyTag s p t.tag, ops := [] }
  let rest := match i with
    | some i => dropAt n.groups i
    | none => n.groups
  let ops := g.ops ++ [(k, t)]
  let full := (freePorts w).all (fun q => ops.any (fun x => x.1 == q))
  let m : Match := { plane := plane, node := node, tag := t.tag, ops := ops }
  let row : Option State :=
    if !tagged s p && n.groups.any (fun g => keyed s p t g && g.ops.any (fun x => x.1 == k)) then none
    else if rowFree s p site plane t.tag then
      let groups := match i with
        | some i => setAt n.groups i { g with ops := ops }
        | none => n.groups ++ [{ g with ops := ops }]
      some (settle (setNib s p site { n with groups := groups }) p site)
    else none
  let n' := { n with groups := rest }
  if k = stickyPort op then
    if op ≠ opThrottle ∧ stick.isNone then
      if rowFree s p site plane t.tag then
        some (settle (setNib s p site { n with
          sticky := n.sticky ++ [{ plane := plane, node := node, base := base, tok := t }] }) p site)
      else none
    else if shut then none
    else row
  else if !full then row
  else if op = opRankadm then
    let used := match (rankTabs s p site n).find? (fun r => r.plane == plane && r.node == node && r.base == base) with
      | some r => rankRows s p site n r
      | none => 0
    if readyRoom n plane ∧ (t.null ∨ litOf w % 65536 ≤ used ∨ rowFree s p site plane t.tag) then
      some (setNib s p site (toReady s.cycle n' m))
    else none
  else if op = opRepeat then
    match stick with
    | some e =>
      if readyRoom n plane then some (setNib s p site (toReady s.cycle n' { m with ops := (0, e.tok) :: ops })) else none
    | none => row
  else
    match n.thr.find? (fun e => e.plane == plane && e.node == node && e.base == base) with
    | some e =>
      if thrFree s p n e (entryLevel w) ∧ readyRoom n plane then some (setNib s p site (toReady s.cycle n' m))
      else row
    | none => row

/-- The match that a new operand makes with those that wait, and the groups that are left. -/
def placeMatch (s : State) (p : Nat) (n : Nib) (t : Token) (w : Rec96) : Option (List (Nat × Token) × List Group) :=
  let k := t.port.toNat
  if mergeOne w then
    match mergeMeets w k t with
    | some none => some ([(k, t)], n.groups)
    | some (some f) => (takeOp (keyed s p t) f n.groups).map (fun y => ([(k, t), y.1], y.2))
    | none => none
  else
    match idxOf (fun g => keyed s p t g && !(g.ops.any (fun x => x.1 == k))) n.groups with
    | some i => (completes w ((n.groups.getD i default).ops ++ [(k, t)])).map (fun m => (m, dropAt n.groups i))
    | none => (completes w [(k, t)]).map (fun m => (m, n.groups))

/-- The waiting groups with a new operand, in the first group of its key that lacks its port. -/
def joinGroups (s : State) (p : Nat) (gs : List Group) (t : Token) : List Group :=
  let k := t.port.toNat
  match idxOf (fun g => keyed s p t g && !(g.ops.any (fun x => x.1 == k))) gs with
  | some i => setAt gs i { gs.getD i default with ops := (gs.getD i default).ops ++ [(k, t)] }
  | none => gs ++ [{ plane := t.plane.toNat, node := t.node.toNat, tag := keyTag s p t.tag, ops := [(k, t)] }]

/-- Place an operand of any other record (02 R41); in plain service each port is one slot (02 R54). -/
def placePlain (s : State) (p site : Nat) (t : Token) (w : Rec96) : Option State :=
  let n := nibAt s p site
  let plane := t.plane.toNat
  let node := t.node.toNat
  let k := t.port.toNat
  let i := idxOf (fun g => keyed s p t g && !(g.ops.any (fun x => x.1 == k))) n.groups
  let g : Group := match i with
    | some i => n.groups.getD i default
    | none => { plane := plane, node := node, tag := keyTag s p t.tag, ops := [] }
  let others : List Group := match i with
    | some i => dropAt n.groups i
    | none => n.groups
  let ops := g.ops ++ [(k, t)]
  let joined := joinGroups s p n.groups t
  let fin : Option (Option State) :=
    match placeMatch s p n t w with
    | none => none
    | some (m, left) =>
      match takeScales plane node (matchTag m) (scaleNeeds (opOf w) m) n.scales [] with
      | none => none
      | some (store, got) => some (
          if readyRoom n plane then
            some (setNib s p site (toReady s.cycle { n with groups := left, scales := store }
              { plane := plane, node := node, tag := matchTag m, ops := m, scales := got }))
          else none)
  match fin with
  | some r => r
  | none =>
    if !tagged s p then
      if n.groups.any (fun g => keyed s p t g && g.ops.any (fun x => x.1 == k)) || !rowFree s p site plane t.tag then none
      else some (setNib s p site { n with groups := joined })
    else
      let spilled := n.spill.contains (32 * plane + node)
      let inFrame := match frameWell s p site with
        | some fw =>
          let os := frameOps (wellAt s p fw) site plane node t.tag
          let cnt := fun (q : Nat) => (os.filter (fun (o : Token) => o.port.toNat == q)).length
          spilled && (List.range 8).any (fun q => decide (cnt k < cnt q))
        | none => false
      if inFrame then some (toFrame s p site t)
      else if rowFree s p site plane t.tag then some (setNib s p site { n with groups := joined })
      else
        let n' := { n with
          spill := if spilled then n.spill else n.spill ++ [32 * plane + node]
          groups := others }
        some (ops.foldl (fun s (o : Nat × Token) => toFrame s p site o.2) (setNib s p site n'))

/-- Equal tag bits [51:0]; plain service ignores tags. -/
def sameStack (s : State) (p : Nat) (x y : Word64) : Bool := !tagged s p || x.toNat % 2 ^ 52 == y.toNat % 2 ^ 52

/-- Place an operand of a PACKC record (10 R233): port b is keyed by the stack alone, an arriving a meets the oldest
waiting b of its stack, and the operands never spill; `none` when it waits on its link. -/
def placePackc (s : State) (p site : Nat) (t : Token) (w : Rec96) : Option State :=
  let n := nibAt s p site
  let plane := t.plane.toNat
  let node := t.node.toNat
  let k := t.port.toNat
  let mine := fun (g : Group) => g.plane == plane && g.node == node
  let hasB := fun (g : Group) => g.ops.any (fun x => x.1 == 1)
  let full := fun (ops : List (Nat × Token)) =>
    ((portsOf w).filter (fun q => q != 1)).all (fun q => ops.any (fun x => x.1 == q))
  let j := if k = 1 then none else
    idxOf (fun g => keyed s p t g && !hasB g && !(g.ops.any (fun x => x.1 == k))) n.groups
  let g : Group := match j with
    | some j => n.groups.getD j default
    | none => { plane := plane, node := node, tag := keyTag s p t.tag, ops := [] }
  let ops := g.ops ++ [(k, t)]
  let partner := if k = 1 then idxOf (fun g => mine g && !hasB g && full g.ops && sameStack s p g.tag t.tag) n.groups
    else if full ops then idxOf (fun g => mine g && hasB g && sameStack s p g.tag t.tag) n.groups
    else none
  match partner with
  | some i =>
    let other := (n.groups.getD i default).ops
    let all := if k = 1 then other ++ ops else ops ++ other
    let groups := match j with
      | some j => if j < i then dropAt (dropAt n.groups i) j else dropAt (dropAt n.groups j) i
      | none => dropAt n.groups i
    if readyRoom n plane then
      some (setNib s p site (toReady s.cycle { n with groups := groups }
        { plane := plane, node := node, tag := matchTag all, ops := all }))
    else none
  | none =>
    if (!tagged s p && n.groups.any (fun g => keyed s p t g && g.ops.any (fun x => x.1 == k))) ||
        !rowFree s p site plane t.tag then none
    else
      let groups := match j with
        | some j => setAt n.groups j { g with ops := ops }
        | none => n.groups ++ [{ g with ops := ops }]
      some (setNib s p site { n with groups := groups })

/-- Whether a port of (plane, node) is marked by the open snapshot (15 R327). -/
def marked (n : Nib) (t : Token) : Bool :=
  n.marks.contains (t.plane.toNat, t.node.toNat, t.port.toNat)

/-- Put an operand where its record takes it. -/
def place (s : State) (p site : Nat) (t : Token) : Option State :=
  let w := recAt s p site t.plane.toNat t.node.toNat
  if !(portsOf w).contains t.port.toNat then some (discardTok s p site t)
  else if entryOp (opOf w) ∧ (portsOf w).contains 1 then placeEntry s p site t w
  else if opOf w = opPackc ∧ (portsOf w).contains 1 then placePackc s p site t w
  else placePlain s p site t w

/-- Release the tokens of an aborted or passed snapshot into matching, in arrival order; a token that cannot be taken
yet goes back onto its link. -/
def releaseHeld (s : State) (p site : Nat) (sel : Token → Bool) : State :=
  let n := nibAt s p site
  let out := n.held.filter sel
  let s := setNib s p site { n with held := n.held.filter (fun t => !sel t) }
  out.foldl (fun s t => match place s p site t with
    | some s' => s'
    | none => { s with transit := { p := p, src := site, queued := false, tok := t } :: s.transit }) s

/-- What a SNAP emits: its status, and the snapshot's id (15 R329). -/
def snapEmit (s : State) (c : Cur) (r : RecS) (status id : Nat) : State :=
  emitRes s { c with late := true } (formS r) 6
    (both { tag := c.tag, ty := 6, lanes := [BitVec.ofNat 32 status, BitVec.ofNat 32 id] })

/-- SNAP_ABORT of snapshot `id` (15 R328): posted for the site that aborted, and emitted by its SNAP. -/
def snapFail (s : State) (p site : Nat) (c : Cur) (r : RecS) (id : Nat) : State :=
  let s := post s { tag := c.tag, cause := cSNAP, site := site, node := c.node, plane := c.plane, panel := p,
                    ctx := matchCtx s p c.plane c.tag, info := id }
  let s := setPanel s p { panelAt s p with deadSnaps := (panelAt s p).deadSnaps ++ [id] }
  snapEmit s c r 3 id

/-- The markers of a snapshot leave the scribe, one to each destination (15 R329). -/
def sendMarkers (s : State) (c : Cur) (k id : Nat) : State :=
  (portTok c 0).lanes.foldl (fun s x =>
    let d := destOfBits (BitVec.ofNat 16 ((shiftDest s c (x.toNat % 65536)).getD 0xFF00))
    sendTok s c.p lateSrc { tag := c.tag, site := d.site, node := d.node, port := d.port, plane := BitVec.ofNat 2 k, ty := 6,
                            snap := true, lanes := [BitVec.ofNat 32 id] }) s

/-- SNAPs that wait are tried in order: one opens its snapshot and the rest wait on; one of a context with ROWS 1 aborts at
once, and one with no injection plane is faulty (15 R328, R329). -/
def openSnaps (p : Nat) : List (Cur × RecS) → State → State
  | [], s => setPanel s p { panelAt s p with snapWait := [] }
  | (c, r) :: rest, s =>
    let pn := panelAt s p
    let id := (pn.lastSnap + 1) % 2 ^ 32
    match pn.inj with
    | none => openSnaps p rest (faultCur s { c with late := true } cILLEGAL 0)
    | some k =>
      let s1 := setPanel s p { pn with lastSnap := id }
      if (ctxAt s (matchCtx s p c.plane c.tag)).rows = 1 then openSnaps p rest (snapFail s1 p 240 c r id)
      else
        let t := bits r.obj.toNat 23 16
        let sn : Snap := { id := id, want := r.obj.toNat % 65536, count := 0,
                           deadline := if t = 0 then none else some (s.cycle + 1024 * t), cur := c, r := r }
        sendMarkers (setPanel s1 p { panelAt s1 p with snap := some sn, snapWait := rest }) c k id

/-- Abort the open snapshot of a panel (15 R328): held tokens are released, marks cleared, SNAP_ABORT posted and
emitted by the SNAP record; a SNAP that waits opens its own. -/
def snapAbort (s : State) (p site : Nat) : State :=
  match (panelAt s p).snap with
  | none => s
  | some sn =>
    let s := setPanel s p { panelAt s p with snap := none }
    let s := iter s 240 (fun s i =>
      if isNib i then
        let s := setNib s p i { nibAt s p i with marks := [] }
        releaseHeld s p i (fun _ => true)
      else s)
    let s := snapFail s p site sn.cur sn.r sn.id
    openSnaps p (panelAt s p).snapWait s

/-- Hold a token that arrives at a marked port (15 R327, R328): a full reserve of 8 aborts the snapshot. -/
def holdTok (s : State) (p site : Nat) (t : Token) : Option State :=
  let n := nibAt s p site
  if n.held.length < 8 then some (setNib s p site { n with held := n.held ++ [t] })
  else place (snapAbort s p site) p site t

/-- The plane is LIVE or DRAINING (15 R320). -/
def planeRuns (s : State) (p k : Nat) : Bool := (planeOf s p k).state == 3 || (planeOf s p k).state == 4

/-- The context whose colours a site admits (02 R38); plain service ignores tags (02 R54). -/
def admits (s : State) (p : Nat) (tag : Word64) : Bool := !tagged s p || (admission? s p (colourOf tag)).isSome

/-- The context of a match is gated by a park, or is parked, frozen or cleared (13 R286, R287, R296). -/
def gatedCtx (s : State) (p site ctx : Nat) : Bool :=
  (nibAt s p site).gated.contains ctx || 4 ≤ (ctxAt s ctx).state

/-- No token of a context enters a site: it is PARKED or CLEARED, or frozen with rounds 1 and 2 over (13 R287, R296). -/
def entryShut (s : State) (ctx : Nat) : Bool :=
  let st := (ctxAt s ctx).state
  st == 4 || st == 6 || (st == 5 && (partAt s (partOf s ctx)).pstate != 3)

/-- Transfers of a context feed no sector: round 3 of its park has begun, or it holds no panel (13 R287). -/
def ctxHalted (s : State) (ctx : Nat) : Bool := 4 ≤ (ctxAt s ctx).state || s.parks.any (fun x => x.ctx == ctx && 3 ≤ x.round)

/-- An operand token reaches a site: a nib, a well site, or the scribe (02 R33, R38, R41; 24 R406). `none` when it is
not taken now. Edge units and the scale port take no operand: the token is discarded with ILLEGAL_OP, but for the
credits of 19 R388. -/
def takeToken (s : State) (p site : Nat) (t : Token) : Option State :=
  if site = 240 then
    match (scribeAt s p).cur with
    | none => none
    | some b =>
      let t' := { t with plane := BitVec.ofNat 2 b.plane }
      if !admits s p t.tag then some (postTok s p site cTAG t) else place s p site t'
  else if !isNib site then some (discardTok s p site t)
  else if !admits s p t.tag then some (postTok s p site cTAG t)
  else if !planeRuns s p t.plane.toNat then some (discardTok s p site t)
  else if marked (nibAt s p site) t then holdTok s p site t
  else place s p site t

/-- A token that a nib sends to itself waits behind those it sent itself before (25 R407); tokens whose context takes
none now hold nobody up. -/
def behindOwn (s : State) (k : Nat) (f : Flight) : Bool :=
  isNib f.src && f.tok.site.toNat == f.src &&
  (s.transit.take k).any (fun e => e.p == f.p && e.src == f.src && e.tok.site.toNat == f.src &&
    !entryShut s (matchCtx s e.p e.tok.plane.toNat e.tok.tag))

/-- Sides by which a token can come in at a nib: the last hop of a shortest path from its source (0 to 3 north, west, east, south), or
the nib's own output (4). -/
def sidesOf (src dst : Nat) : List Nat :=
  if src = dst then [4]
  else if 240 ≤ src then [0, 1, 2, 3]
  else
    (if src / 16 < dst / 16 then [0] else []) ++ (if src % 16 < dst % 16 then [1] else []) ++
      (if dst % 16 < src % 16 then [2] else []) ++ (if dst / 16 < src / 16 then [3] else [])

/-- The side by which a token comes in now; `none` when each has brought one in this cycle (02 R44). A scribe has no such bound. -/
def sideFree (n : Nib) (src dst : Nat) : Option Nat :=
  if isNib dst then (sidesOf src dst).find? (fun d => !(n.took.any (fun x => x.1 == d))) else some 4

/-- A REPEAT places port a, and a THROTTLE applies port b, before the other port's token of the same cycle (09 R200, R202): a token that
comes too late for that waits for the next cycle. -/
def pairLate (n : Nib) (op plane node port : Nat) : Bool :=
  (op == opRepeat && port == 0 && n.took.any (fun x => x.2 == (plane, node, 1))) ||
    (op == opThrottle && port == 1 && n.took.any (fun x => x.2 == (plane, node, 0)))

/-- Plane of a token that reaches a site: a scribe's block gives its own. -/
def planeAt (s : State) (p : Nat) (t : Token) : Nat :=
  if t.site = 240 then (match (scribeAt s p).cur with | some b => b.plane | none => 0) else t.plane.toNat

/-- A token cannot come in at its nib or scribe in this cycle. -/
def entryLate (s : State) (f : Flight) : Bool :=
  let site := f.tok.site.toNat
  let n := nibAt s f.p site
  (sideFree n f.src site).isNone ||
    pairLate n (opOf (recAt s f.p site (planeAt s f.p f.tok) f.tok.node.toNat)) (planeAt s f.p f.tok) f.tok.node.toNat f.tok.port.toNat

/-- A token comes in at its nib or scribe: noted for the cycle. -/
def noteTook (s : State) (f : Flight) : State :=
  let site := f.tok.site.toNat
  let n := nibAt s f.p site
  if isNib site ∨ site = 240 then
    setNib s f.p site { n with
      took := n.took ++ [((sideFree n f.src site).getD 4, planeAt s f.p f.tok, f.tok.node.toNat, f.tok.port.toNat)] }
  else s

/-- A port-b token of a THROTTLE record (09 R200), which THROTTLE_CREDIT takes. -/
def isCredit (s : State) (f : Flight) : Bool :=
  let site := f.tok.site.toNat
  let w := recAt s f.p site (planeAt s f.p f.tok) f.tok.node.toNat
  opOf w == opThrottle && f.tok.port == 1 && (isNib site || site == 240)

/-- A token for port b of an edge unit: credits of a rule table (19 R388). -/
def isEauCredit (f : Flight) : Bool := 241 ≤ f.tok.site.toNat && f.tok.site.toNat ≤ 244 && f.tok.port == 1

/-- TOKEN_ARRIVAL (R41, R44): the token `k` in transit is taken at its site; a nib takes one a cycle from each neighbour and one from
its own output. -/
def execTokenArrival (s : State) : Outcome :=
  match s.transit[s.sel.k]? with
  | none => notNow
  | some f =>
    if f.queued || f.tok.snap || isEauCredit f || isCredit s f || behindOwn s s.sel.k f || entryLate s f ||
        entryShut s (matchCtx s f.p f.tok.plane.toNat f.tok.tag) then notNow
    else
      match takeToken (noteTook { s with transit := dropAt s.transit s.sel.k } f) f.p f.tok.site.toNat f.tok with
      | some s' => .next s'
      | none => notNow

/-- FRAME_MATCH_RETURN (R42): the `k`-th match that a frame store has completed joins its nib's ready list; the nib's
spill bit clears when the node's last frame operand has left. -/
def execFrameMatchReturn (s : State) : Outcome :=
  let p := s.sel.p
  let w := s.sel.site
  let x := wellAt s p w
  match x.returns[s.sel.k]? with
  | none => notNow
  | some (site, m) =>
    let n := nibAt s p site
    let op := opOf (recAt s p site m.plane m.node)
    match takeScales m.plane m.node m.tag (scaleNeeds op m.ops) n.scales [] with
    | none => notNow
    | some (store, got) =>
      if !readyRoom n m.plane then notNow
      else
        let x' := { x with returns := dropAt x.returns s.sel.k }
        let gone := !frameNode x' site m.plane m.node
        let n' := toReady s.cycle { n with
          scales := store
          spill := if gone then n.spill.filter (· != 32 * m.plane + m.node) else n.spill } { m with scales := got }
        .next (setNib (setWell s p w x') p site n')

/-- SCALE_TOKEN_ARRIVAL (R68): scale token `k` of the scale network enters the scale store of its nib, at most 16
entries, or the scale port's queue. One for a record that consumes no scales is discarded with ILLEGAL_OP. -/
def execScaleTokenArrival (s : State) : Outcome :=
  match s.scaleNet[s.sel.k]? with
  | none => notNow
  | some f =>
    let s0 := { s with scaleNet := dropAt s.scaleNet s.sel.k }
    let x := f.tok
    if x.site = 245 then
      let pn := panelAt s0 f.p
      if pn.portQ.length < 16 then .next (setPanel s0 f.p { pn with portQ := pn.portQ ++ [x] }) else notNow
    else
      let tag : Word64 := BitVec.ofNat 64 (x.payload.toNat / 2 ^ 20 * 2 ^ 20)
      let tok : Token := { tag := tag, site := BitVec.ofNat 8 x.site, node := BitVec.ofNat 5 x.node, port := 3,
                           plane := BitVec.ofNat 2 x.plane }
      let plane := if x.site = 240 then (match (scribeAt s f.p).cur with | some b => b.plane | none => x.plane) else x.plane
      if x.site = 240 ∧ (scribeAt s f.p).cur.isNone then notNow
      else if !isNib x.site ∧ x.site ≠ 240 then .next (discardTok s0 f.p x.site tok)
      else if !admits s f.p tag then .next (postTok s0 f.p x.site cTAG tok)
      else if x.site ≠ 240 ∧ !planeRuns s f.p plane then .next (discardTok s0 f.p x.site tok)
      else if !scaleOp (opOf (recAt s f.p x.site plane x.node)) then .next (discardTok s0 f.p x.site tok)
      else
        let n := nibAt s0 f.p x.site
        if n.scales.length < 16 then
          .next (settle (setNib s0 f.p x.site { n with scales := n.scales ++ [{ x with plane := plane }] }) f.p x.site)
        else notNow

/-! ## Plain service: full slots (02 R54) -/

/-- The slot of a token's plane, node and port holds an operand. -/
def slotFull (s : State) (p : Nat) (t : Token) : Bool :=
  let site := t.site.toNat
  let plane := planeAt s p t
  let node := t.node.toNat
  let port := t.port.toNat
  let op := opOf (recAt s p site plane node)
  let n := nibAt s p site
  if entryOp op && op != opThrottle && port == stickyPort op then n.sticky.any (fun e => e.plane == plane && e.node == node)
  else n.groups.any (fun g => g.plane == plane && g.node == node && g.ops.any (fun x => x.1 == port))

/-- Two tokens for one slot. -/
def sameSlot (e f : Flight) : Bool :=
  e.p == f.p && e.tok.site == f.tok.site && e.tok.node == f.tok.node && e.tok.port == f.tok.port &&
    (e.tok.plane == f.tok.plane || e.tok.site == 240)

/-- In plain service a token for a full slot, or for a slot that another token is on its way to, stays in its sender's output
queue. -/
def slotShut (s : State) (fs : List Flight) (f : Flight) : Bool :=
  !tagged s f.p && (isNib f.tok.site.toNat || f.tok.site == 240) &&
    (slotFull s f.p f.tok || fs.any (fun e => !e.queued && sameSlot e f))

/-! ## Windows and issue (02 R45, R46) -/

/-- Key of a node's counters. -/
def nodeKey (plane node : Nat) : Nat := 32 * plane + node

/-- Share of a node in this window (R46). -/
def shareOf (n : Nib) (key : Nat) : Nat :=
  match tgetD n.share key 0 with
  | 0 => 16
  | v + 1 => v

/-- Row-cycles of a plane in the window. -/
def occPlane (n : Nib) (plane : Nat) : Nat :=
  (n.occ.filter (fun x => x.1 / 32 == plane)).foldl (fun a x => a + x.2) 0

/-- SHARE_WINDOW_START (R46), every 256 cycles from the panel's start. -/
def execShareWindowStart (s : State) : Outcome :=
  let p := s.sel.p
  let site := s.sel.site
  let start := (panelAt s p).startCycle
  let n := nibAt s p site
  if s.cycle ≤ start ∨ (s.cycle - start) % 256 ≠ 0 ∨ !isNib site then notNow
  else
    let share := (List.range 128).foldl (fun (t : Tab Nat) key =>
      let tot := occPlane n (key / 32)
      tsetD t key (if tot = 0 then 0 else 16 * tgetD n.occ key 0 / tot + 1) 0) []
    .next (setNib s p site { n with issued := [], share := share, occ := [] })

/-- Rows that hold operands, by node: waiting groups, sticky rows, rank tables, and matches that wait with a row (R40, R46). -/
def heldRows (s : State) (p site : Nat) (n : Nib) : List (Nat × Nat) :=
  n.groups.map (fun g => (nodeKey g.plane g.node, g.ops.length)) ++
    n.sticky.map (fun e => (nodeKey e.plane e.node, 1)) ++
    (rankTabs s p site n).map (fun r => (nodeKey r.plane r.node, rankRows s p site n r)) ++
    (n.waits.filter (fun w => holdsRow w.on)).map (fun w => (nodeKey w.m.plane w.m.node, 1))

/-- One cycle at a nib: row-cycles are added to the window's counts, and every neighbour may bring a token again. -/
def countRows (s : State) (p site : Nat) (n : Nib) : Nib :=
  { n with
    took := []
    occ := (heldRows s p site n).foldl (fun (t : Tab Nat) x => tsetD t x.1 (tgetD t x.1 0 + x.2) 0) n.occ }

/-- Priority of a plane and its STRICT bit (13 R285). -/
def planePri (s : State) (p k : Nat) : Nat := bits (panelAt s p).plpri.toNat (4 * k + 3) (4 * k)
def planeStrict (s : State) (p k : Nat) : Bool := bit (panelAt s p).plpri.toNat (16 + k)

def limiterAt (s : State) (die : Nat) : Limiter := tgetD s.limiters die {}
def setLimiter (s : State) (die : Nat) (x : Limiter) : State := { s with limiters := tput s.limiters die x }

/-- An MMA that the activity limiter holds back: its cell has issued as many passes in 16 cycles as the duty admits
(26 R412). -/
def mmaHeld (s : State) (p site : Nat) (m : Match) : Bool :=
  let w := if m.again = 1 then m.word else recAt s p site m.plane m.node
  let l := limiterAt s (dieOf p)
  m.again != 2 && opOf w == 0xAB &&
    decide (l.duty ≤ (l.recent.filter (fun x => x.1 == siteKey p site && s.cycle < x.2 + 16)).length)

/-- Count an MMA pass of a cell. -/
def noteMma (s : State) (p site : Nat) : State :=
  let l := limiterAt s (dieOf p)
  setLimiter s (dieOf p) { l with
    recent := (siteKey p site, s.cycle) :: l.recent.filter (fun x => s.cycle < x.2 + 16), lastPass := s.cycle }

/-- Matches of a plane that can issue: completed before this cycle, of a context that is not gated. -/
def issuable (s : State) (p site : Nat) (n : Nib) (k : Nat) : List Match :=
  n.ready.filter (fun m => m.plane == k && m.done < s.cycle && !gatedCtx s p site (matchCtx s p m.plane m.tag) &&
    !mmaHeld s p site m)

/-- wait(j) of R45. -/
def waitOf (s : State) (n : Nib) (k : Nat) : Nat :=
  s.cycle + 1 - max (tgetD n.lastIssue k 0) (tgetD n.nonemptySince k 0)

/-- The plane that R45 serves. -/
def pickPlane (s : State) (p site : Nat) (n : Nib) : Option Nat :=
  let live := (List.range 4).filter (fun k => !(issuable s p site n k).isEmpty)
  let turn := fun k => (k + 3 - n.lastPlane) % 4
  let top := live.foldl (fun (best : Option Nat) k => match best with
    | none => some k
    | some b =>
      if planePri s p b < planePri s p k ∨ (planePri s p b = planePri s p k ∧ turn k < turn b) then some k
      else some b) none
  match top with
  | none => none
  | some t =>
    let late := live.foldl (fun (best : Option Nat) k =>
      if 63 ≤ waitOf s n k then
        (match best with
         | none => some k
         | some b => if waitOf s n b < waitOf s n k then some k else some b)
      else best) none
    if planeStrict s p t then some t else some (late.getD t)

/-- The match that R45 issues from a plane: the head, or the first below its quota. A scribe's block fires in the order of its ready
list (R52). -/
def pickMatch (site : Nat) (n : Nib) (k : Nat) (ms : List Match) : Option Match :=
  let atQuota := fun (m : Match) => 16 * shareOf n (nodeKey k m.node) ≤ tgetD n.issued (nodeKey k m.node) 0
  match ms with
  | [] => none
  | e :: _ =>
    if site ≠ 240 ∧ atQuota e ∧ ¬ 256 ≤ tgetD n.planeIssues k 0 - e.entered then some ((ms.find? (fun m => !atQuota m)).getD e)
    else some e

/-- Tokens in the output queue of a site. -/
def queueLen (s : State) (p src : Nat) : Nat :=
  (s.transit.filter (fun f => f.p == p && f.src == src && f.queued)).length

/-- Entries of the output queue that a record's results need (08 R167). -/
def needOut (w : Rec96) : Nat :=
  let op := opOf w
  let m := 0x80 ≤ op && op < 0xA0
  (if (dest0Of w).site = 255 then 0 else 1) + (if m || (dest1Of w).site = 255 then 0 else 1)

/-- Entries of the output queue in use: tokens, and those reserved for results still to be delivered (10 R212). -/
def queueUsed (s : State) (p site : Nat) : Nat :=
  queueLen s p site + ((nibAt s p site).delayed.map (fun d => d.sends.length)).foldl (· + ·) 0

/-- Room for a record's results. -/
def outRoom (s : State) (p site : Nat) (w : Rec96) : Bool := queueUsed s p site + needOut w ≤ 8

/-- Entries of a group, by colour of the partition. -/
def groupColours (s : State) (part gid : Nat) : List Nat :=
  (s.colours.filter (fun x => x.1 / 4096 == part && x.2.gstate != 0 && x.2.gid == gid)).map (fun x => x.1 % 4096)

/-- A new state for every entry of a group (16 R341). -/
def setGstate (s : State) (part gid st : Nat) : State :=
  (groupColours s part gid).foldl (fun s c => setColour s part c { colourAt s part c with gstate := st }) s

/-- Note the issue of a group, for its idle time (16 R339): a WAITING group is RUNNING again. -/
def noteIssue (s : State) (p plane : Nat) (tag : Word64) : State :=
  let part := partOf s (matchCtx s p plane tag)
  match gidOf s part (colourOf tag) with
  | none => s
  | some g =>
    let s1 := setGroup s g { groupAt s g with lastIssue := s.cycle }
    if (colourAt s part (colourOf tag)).gstate = 2 then setGstate s1 part g 1 else s1

/-- The match that a site issues in this cycle, taken off its ready list, with the counts of R45 and R46. -/
def pickIssue (s : State) (p site : Nat) : Option (State × Match) :=
  let n := nibAt s p site
  if (List.range 4).any (fun k => tgetD n.lastIssue k 0 == s.cycle + 1) then none
  else
    match pickPlane s p site n with
    | none => none
    | some k =>
      match pickMatch site n k (issuable s p site n k) with
      | none => none
      | some m =>
        if !outRoom s p site (if m.again = 1 then m.word else recAt s p site k m.node) then none
        else
          match idxOf (fun x => decide (x = m)) n.ready with
          | none => none
          | some i =>
            let key := nodeKey k m.node
            let n' := { n with
              ready := dropAt n.ready i
              issued := tsetD n.issued key (tgetD n.issued key 0 + 1) 0
              planeIssues := tsetD n.planeIssues k (tgetD n.planeIssues k 0 + 1) 0
              lastIssue := tsetD n.lastIssue k (s.cycle + 1) 0
              lastPlane := k }
            let s1 := noteIssue (setNib s p site n') p k m.tag
            some (if opOf (recAt s p site k m.node) = opThrottle ∧ m.again = 0 then s1 else settle s1 p site, m)

/-- A record of the block in hand has fired, or has not after all: it waits (02 R53). -/
def noteFired (s : State) (p node : Nat) : State :=
  match (scribeAt s p).cur with
  | some b => setScribe s p { scribeAt s p with cur := some { b with fired := b.fired ++ [node] } }
  | none => s
def unFired (s : State) (p node : Nat) : State :=
  match (scribeAt s p).cur with
  | some b => setScribe s p { scribeAt s p with cur := some { b with fired := b.fired.erase node } }
  | none => s

/-- Issue of a match at a site: it becomes the current match; a record of a block has then fired (02 R53). -/
def beginIssue (s : State) (p site : Nat) (m : Match) : State :=
  let c : Cur := { p := p, site := site, plane := m.plane, node := m.node, tag := m.tag, ops := m.ops,
                   scales := m.scales, again := m.again, late := m.late
                   word := if m.again = 1 then m.word else recAt s p site m.plane m.node }
  let s := { s with cur := c }
  if site = 240 ∧ !m.late then noteFired s p m.node else s

/-- A record that an uncorrectable error has struck faults with POISON at each match (20 R400). -/
def recStruck (s : State) (p site plane node : Nat) : Bool :=
  if site = 240 then
    match (scribeAt s p).cur with
    | some b => (scribeAt s p).storeBad.contains (blockKey b.plane b.index (node + 1))
    | none => false
  else (nibAt s p site).storeBad.contains (nodeKey plane node)

/-! ## Matches that wait after their issue (11 R250, R253 and others) -/

/-- The current match again, as it waits: with its record, and late if its block commits meanwhile. -/
def waitMatch (c : Cur) : Match :=
  { plane := c.plane, node := c.node, tag := c.tag, ops := c.ops, scales := c.scales, again := 1, word := c.word,
    late := c.late }

/-- The match of a record that cannot act now waits, holding a row, until what it waits for changes; it has not fired yet. -/
def waitOn (s : State) (c : Cur) (w : WaitOn) : State :=
  let s := if c.site = 240 ∧ !c.late then unFired s c.p c.node else s
  let n := nibAt s c.p c.site
  setNib s c.p c.site { n with waits := n.waits ++ [{ on := w, m := waitMatch c }] }

/-- Waiting matches of one panel are retested. -/
def wakePanel (s : State) (p : Nat) (f : WaitOn → Bool) : State :=
  { s with nibs := s.nibs.map (fun x => if x.1 / 256 = p then (x.1, wakeNib s.cycle (fun y => f y.on) x.2) else x) }

/-- Waiting matches of the part are retested. -/
def wakeAll (s : State) (f : WaitOn → Bool) : State :=
  { s with nibs := s.nibs.map (fun x => (x.1, wakeNib s.cycle (fun y => f y.on) x.2)) }

/-- DELAYED_RESULT_DELIVERY (R212): the `k`-th result of a multi-cycle record reaches the output queue when its
latency has run out, and its flags are set; its entries of the queue have been reserved since its issue. -/
def execDelayedResultDelivery (s : State) : Outcome :=
  let p := s.sel.p
  let site := s.sel.site
  let n := nibAt s p site
  match n.delayed[s.sel.k]? with
  | none => notNow
  | some d =>
    let earlier := (n.delayed.take s.sel.k).any (fun e => e.plane == d.plane && e.node == d.node)
    if s.cycle < d.due ∨ earlier then notNow
    else
      let c : Cur := { p := p, site := site, plane := d.plane, node := d.node, tag := d.tag, late := d.late }
      let s1 := setNib s p site { n with delayed := dropAt n.delayed s.sel.k }
      .next (sends (curFlags s1 c d.flags) c d.sends)

end Sys2Proof.Machine
end

