-- ==== Sys2Proof/Machine/Mem.lean ====
section
/-!
DEFINITION. Far memory, the L2 of each die and what keeps its copies coherent (04 R94 to R99; 05 R104, R105; 18 R368),
page windows towards the L2 (04 R90, R92), release filters (16 R342), and translation (18 R357 to R367).
-/
namespace Sys2Proof.Machine

/-! ## Physical addresses (04 R98, R99) -/

/-- DEV names this part (R98, R416). -/
def ownDev (s : State) (pa : Nat) : Bool := bits pa 55 44 == 0xFFF || bits pa 55 44 == s.owndev.toNat

/-- The home-die form without DEV: home die × 2^42 + local address (R99). -/
def homeForm (pa : Nat) : Nat :=
  let h := bits pa 43 42
  let l := pa % 2 ^ 42
  if h = 3 then l / 4096 % 3 * 2 ^ 42 + l / 4096 / 3 * 4096 + l % 4096 else h * 2 ^ 42 + l

/-- The home die of an address of this part in home-die form. -/
def homeDie (hf : Nat) : Nat := hf / 2 ^ 42

/-- The place that a physical address names: its home-die form, and for another part's memory its device number above it. -/
def gaOf (s : State) (pa : Nat) : Nat := if ownDev s pa then homeForm pa else (bits pa 55 44 + 1) * 2 ^ 44 + homeForm pa

/-- A place in another part's memory, and that part. -/
def remote (ga : Nat) : Bool := decide (2 ^ 44 ≤ ga)
def gaDev (ga : Nat) : Nat := ga / 2 ^ 44 - 1

/-- The physical address of a place in home-die form. -/
def paOf (hf : Nat) : Nat := 0xFFF * 2 ^ 44 + hf

/-- A link that the route table gives for a device (19 R380). -/
def routeOf (s : State) (dev : Nat) : Option Nat := tget? s.routes dev

/-- The die that a domain port stands on (19 R373). -/
def portDie (l : Nat) : Nat := (l - 3) / 8

/-- The queue aperture (14 R302): the top 1 MiB of die 0's home range. -/
def aperture (hf : Nat) : Bool := decide (0x2FFFFF00000 ≤ hf) && decide (hf < 3 * 2 ^ 40)

/-- A physical address that names no byte (R98), has no route (19 R380), or lies in the queue aperture. -/
def paBad (s : State) (pa : Nat) : Bool :=
  let dev := bits pa 55 44
  if bits pa 43 42 ≠ 3 ∧ 3 * 2 ^ 40 ≤ pa % 2 ^ 42 then true
  else if ownDev s pa then aperture (homeForm pa)
  else decide (1152 ≤ dev) || (routeOf s dev).isNone

/-! ## Sectors -/

/-- Byte `i` of a sector. -/
def secByte (d : BitVec 256) (i : Nat) : Byte := d.extractLsb' (8 * i) 8

/-- A sector with some bytes replaced. -/
def patch (d : BitVec 256) (bs : List (Nat × Byte)) : BitVec 256 :=
  bs.foldl (fun d x =>
    BitVec.ofNat 256 (d.toNat - put (secByte d x.1).toNat (8 * x.1) + put x.2.toNat (8 * x.1))) d

/-- Thirty-two bytes as a sector. -/
def secOf (bs : List Byte) : BitVec 256 := BitVec.ofNat 256 (leNat bs)

def secBytes (d : BitVec 256) : List Byte := (List.range 32).map (secByte d)

/-- The bytes of a mask as replacements. -/
def maskBytes (m : BitVec 32) (d : BitVec 256) : List (Nat × Byte) :=
  ((List.range 32).filter (fun i => m.getLsbD i)).map (fun i => (i, secByte d i))

/-- The mask of replaced bytes. -/
def bytesMask (bs : List (Nat × Byte)) : BitVec 32 := bs.foldl (fun m x => m ||| BitVec.ofNat 32 (2 ^ x.1)) 0

def l2Key (die hf : Nat) : Nat := die * 2 ^ 60 + hf / 32
def lineKey (die hf : Nat) : Nat := die * 2 ^ 60 + hf / 256

/-- Bank of a line (R95). -/
def bankOf (hf : Nat) : Nat := Nat.xor (bits hf 13 8) (bits hf 19 14)
def setOf (hf : Nat) : Nat := bits hf 22 14

/-! ## Arbiters by number (06 R130): class × 2^16 + instance -/

/-- Write and read generator of a well (R83). -/
def arbWell (p w : Nat) : Nat := siteKey p w
def arbRead (p w : Nat) : Nat := 8 * 2 ^ 16 + siteKey p w
def arbBank (die hf : Nat) : Nat := 2 ^ 16 + 64 * die + bankOf hf
def arbMiss (die : Nat) : Nat := 2 * 2 ^ 16 + die
/-- Memory link of a line: lines are spread over the 24 links of the die (log 16). -/
def arbMem (hf : Nat) : Nat := 3 * 2 ^ 16 + 32 * homeDie hf + hf / 256 % 24
def arbPort (link : Nat) : Nat := 5 * 2 ^ 16 + link
/-- The stage at which a miss waits for L2_FILL. -/
def arbFill (die : Nat) : Nat := 6 * 2 ^ 16 + die
/-- The stage at which an access at SYSTEM scope waits for the host's copies (05 R105). -/
def arbHost : Nat := 7 * 2 ^ 16
/-- The stage at which the flag of a carry waits until the carry's lanes are performed at another part (12 R266). -/
def arbFlag (p w : Nat) : Nat := 9 * 2 ^ 16 + siteKey p w

/-- From a die to the domain port of a device; `none` without a route. -/
def portPath (s : State) (die dev : Nat) : Option (List Nat) :=
  (routeOf s dev).map (fun l => linkPath die (portDie l) ++ [arbPort l])

def l2At (s : State) (die hf : Nat) : Option L2Sector := tget? s.l2 (l2Key die hf)

/-- A sector of far memory: data and poison mark. -/
def dramSector (s : State) (hf : Nat) : BitVec 256 × Bool :=
  (secOf (mreads s.mem (hf / 32 * 32) 32), tgetD s.memBad (hf / 32) false)

/-- The sector as the home die has it (R104): the value of DEVICE scope. -/
def homeSector (s : State) (hf : Nat) : BitVec 256 × Bool :=
  match l2At s (homeDie hf) hf with
  | some x => (x.data, x.poison)
  | none => dramSector s hf

/-- Read bytes at DEVICE scope. -/
def homeRead (s : State) (hf n : Nat) : List Byte :=
  (List.range n).map (fun i => secByte (homeSector s (hf + i)).1 ((hf + i) % 32))

/-! ## Traffic counters (18 R368): 0 LRD, 1 LWR, 2 CDIN, 3 CDOUT, 4 DIN, 5 DOUT -/

def trafficKey (die ctx k : Nat) : Nat := (die * 512 + ctx) * 8 + k

/-- Stands for the context of a request that comes from outside the part. -/
def noCtx : Nat := 256

/-- One sector crosses a boundary. -/
def count32 (s : State) (die ctx k : Nat) : State :=
  let key := trafficKey die ctx k
  { s with traffic := tsetD s.traffic key (min (tgetD s.traffic key 0 + 32) (2 ^ 64 - 1)) 0 }

/-! ## Lines and victims (R94, R96) -/

/-- The pulse period P of a panel (06 R125). -/
def pulseP (s : State) (p : Nat) : Nat := 2 ^ (panelAt s p).plog

/-- LVALUE and RATE of a counter (key 64 panel + number) that an arbiter or bank on a die uses in this cycle
(06 R129, 21 R403). -/
def pgHeld (s : State) (die key : Nat) : Nat × Nat :=
  let x := tgetD s.pgs key {}
  let lag := if die = dieOf (key / 64) then 1 else pulseP s (key / 64) + 1
  match x.hist.find? (fun h => decide (h.1 + lag ≤ s.cycle)) with
  | some h => (h.2.1, h.2.2)
  | none => match x.hist.getLast? with
    | some h => (h.2.1, h.2.2)
    | none => (x.lvalue, x.rate)

/-- Class, counter, mark and pinning kernel that an access gives a line that it installs (R94, 18 R363). -/
structure LineTag where
  cls : Nat := 0
  pg : Nat := 0
  mark : Nat := 0
  kernel : Nat := 0
deriving DecidableEq, Repr, Inhabited

/-- A class 5 line whose counter has moved past its mark. -/
def pastMark (s : State) (die : Nat) (x : L2Line) : Bool :=
  let d := (pgHeld s die x.pg).1 % 65536 + 65536 - x.mark
  decide (1 ≤ d % 65536) && decide (d % 65536 < 32768)

/-- Tier of a victim: 1 to 3; 4 never. -/
def tier (s : State) (die : Nat) (x : L2Line) : Nat :=
  if x.cls = 5 ∧ pastMark s die x then 1 else if x.cls = 1 then 2 else if x.cls = 3 then 4 else 3

/-- Lines of the set that a line belongs to. -/
def setLines (s : State) (die hf : Nat) : List (Nat × L2Line) :=
  s.l2lines.filter (fun x =>
    x.1 / 2 ^ 60 == die && bankOf (x.1 % 2 ^ 60 * 256) == bankOf hf && setOf (x.1 % 2 ^ 60 * 256) == setOf hf)

/-- A way with an access in progress or a miss register attached (R96): a request for its line has a miss register, or stands at
its bank. -/
def lineBusy (s : State) (die key : Nat) : Bool :=
  s.reqs.any (fun r => lineKey die (gaOf s r.addr) == key &&
    (r.path.contains (arbFill die) || r.path.head? == some (arbBank die (gaOf s r.addr))))

/-- The victim of a set: of the ways that are not busy, lowest tier, then least recently used. -/
def victim (s : State) (die : Nat) (xs : List (Nat × L2Line)) : Option Nat :=
  (xs.foldl (fun (best : Option (Nat × L2Line)) x =>
    if tier s die x.2 = 4 ∨ lineBusy s die x.1 then best
    else match best with
      | none => some x
      | some b =>
        if tier s die x.2 < tier s die b.2 ∨ (tier s die x.2 = tier s die b.2 ∧ x.2.used < b.2.used) then some x else best) none).map (·.1)

/-- A line is held, or its set has a way for it. -/
def lineRoom (s : State) (die hf : Nat) : Bool :=
  (tget? s.l2lines (lineKey die hf)).isSome || decide ((setLines s die hf).length < 16) || (victim s die (setLines s die hf)).isSome

/-- Put a sector into an L2. -/
def putL2 (s : State) (die hf : Nat) (x : L2Sector) : State := { s with l2 := tput s.l2 (l2Key die hf) x }
def delL2 (s : State) (die hf : Nat) : State := { s with l2 := tdel s.l2 (l2Key die hf) }

/-- Write one sector to far memory, as a write-back of context `ctx`. -/
def writeDram (s : State) (hf ctx : Nat) (d : BitVec 256) (poison : Bool) : State :=
  count32 { s with mem := mwrites s.mem (hf / 32 * 32) (secBytes d)
                   memBad := tsetD s.memBad (hf / 32) poison false } (homeDie hf) ctx 1

/-! ## Copies in page windows (R90; 05 R105) -/

/-- Context that owns a well. -/
def ownerOf (s : State) (p w : Nat) : Nat := ((wellAt s p w).owner).getD 0

/-- Mode-5 wells of the part. -/
def windows (s : State) : List Nat := (s.wells.filter (fun x => wellMode x.2 == 5)).map (·.1)

/-- The slot of a window that holds a sector. -/
def windowHolds (s : State) (k ga : Nat) : Option (Nat × PwSlot) :=
  (wellAt s (k / 256) (k % 256)).slots.find? (fun x => gaOf s x.2.base / 4096 == ga / 4096 && bit x.2.have_ (ga % 4096 / 32))

/-- A slot without one sector, or with that sector clean. -/
def slotLose (sl : PwSlot) (sec : Nat) (drop : Bool) : PwSlot :=
  { sl with have_ := if drop && bit sl.have_ sec then sl.have_ - 2 ^ sec else sl.have_
            dirty := if bit sl.dirty sec then sl.dirty - 2 ^ sec else sl.dirty }

/-- The bytes of one sector of a slot, with their mark. -/
def slotSector (s : State) (p w slot sec : Nat) : BitVec 256 × Bool :=
  (secOf (mreads s.wmem (wellAddr p w (4096 * slot + 32 * sec)) 32), tgetD s.wbad (siteKey p w * 16384 + 128 * slot + sec) false)

/-- Page windows on some dies give up what they hold of a sector, but for window `keep`: a dirty copy is written back, and comes as
the sector's bytes; with `drop` no copy stays valid. -/
def gatherWindows (s : State) (keep : Option Nat) (dies : List Nat) (drop : Bool) (ga : Nat) : State × Option (BitVec 256 × Bool) :=
  (windows s).foldl (fun (st : State × Option (BitVec 256 × Bool)) k =>
    if keep = some k ∨ !dies.contains (dieOf (k / 256)) then st
    else match windowHolds st.1 k ga with
      | none => st
      | some (i, sl) =>
        let sec := ga % 4096 / 32
        let x := wellAt st.1 (k / 256) (k % 256)
        (setWell st.1 (k / 256) (k % 256) { x with slots := tput x.slots i (slotLose sl sec drop) },
          if bit sl.dirty sec then some (slotSector st.1 (k / 256) (k % 256) i sec) else st.2)) (s, none)

/-! ## Installing lines, and what a die holds back (R95 to R97; 05 R105) -/

/-- The tag of a line that an L2 holds. -/
def tagOfLine (s : State) (die hf : Nat) : LineTag :=
  match tget? s.l2lines (lineKey die hf) with
  | some x => { cls := x.cls, pg := x.pg, mark := x.mark, kernel := x.kernel }
  | none => {}

/-- What one die holds back of a sector, put over bytes with their mark. -/
def heldOver (s : State) (die hf : Nat) (b : BitVec 256 × Bool) : BitVec 256 × Bool :=
  match l2At s die hf with
  | some x => if x.mask = 0 then b
    else (patch b.1 (maskBytes x.mask x.data), if x.mask = BitVec.allOnes 32 then x.poison else b.2 || x.poison)
  | none => b

/-- Held-back bytes cross from a die to the sector's home: the traffic of the context that stored them. -/
def crossHome (s : State) (die hf : Nat) : State :=
  match l2At s die hf with
  | some x => if x.mask = 0 then s else count32 (count32 s die x.ctx 3) (homeDie hf) x.ctx 2
  | none => s

/-- The bytes that a die holds back of a sector reach the home die's copy, whose line `line` puts in place. Copies in every other die
and its windows, which predate them, go first (R97). -/
def mergeWith (line : State → Nat → Nat → LineTag → State) (s : State) (die hf : Nat) : State :=
  match l2At s die hf with
  | none => s
  | some x =>
    let home := homeDie hf
    if x.mask = 0 ∨ die = home then s
    else
      let third := (List.range 3).filter (fun d => d != die && d != home)
      let (s, g) := gatherWindows s none (home :: third) true hf
      let b := heldOver s die hf (third.foldl (fun b d => heldOver s d hf b) (g.getD (homeSector s hf)))
      let s := third.foldl (fun s d => delL2 (crossHome s d hf) d hf) (crossHome s die hf)
      let s := line s home hf (tagOfLine s die hf)
      let s := putL2 s home hf { data := b.1, dirty := true, poison := b.2, ctx := x.ctx }
      match l2At s die hf with
      | some y => putL2 s die hf { y with mask := 0, dirty := false }
      | none => s

/-- A line leaves an L2: at its home, dirty sectors are written to far memory; elsewhere what is held back is passed on. -/
def evictWith (line : State → Nat → Nat → LineTag → State) (s : State) (key : Nat) : State :=
  let die := key / 2 ^ 60
  let s := iter s 8 (fun s i =>
    let hf := key % 2 ^ 60 * 256 + 32 * i
    match l2At s die hf with
    | none => s
    | some x =>
      delL2 (if die = homeDie hf then (if x.dirty then writeDram s hf x.ctx x.data x.poison else s) else mergeWith line s die hf) die hf)
  { s with l2lines := tdel s.l2lines key }

/-- Enter a line into the table of an L2; a pin beyond 12 in the set gives class 2. -/
def putLine (s : State) (die hf : Nat) (t : LineTag) : State :=
  let cls := if t.cls = 3 ∧ 12 ≤ ((setLines s die hf).filter (fun x => x.2.cls == 3)).length then 2 else t.cls
  { s with l2lines := tput s.l2lines (lineKey die hf) { cls := cls, pg := t.pg, mark := t.mark, used := s.cycle, kernel := t.kernel } }

/-- A line is in place in an L2: touched if held (class 1 or 0 raised to 2 by an access of class 2), else installed after a victim has
left. A victim that passes bytes on to its home needs a line there in turn: each such step takes one line of these sets home, and
three sets hold 48. -/
def lineIn : Nat → State → Nat → Nat → LineTag → State
  | 0, s, die, hf, t => putLine s die hf t
  | n + 1, s, die, hf, t =>
    match tget? s.l2lines (lineKey die hf) with
    | some x =>
      { s with l2lines := tput s.l2lines (lineKey die hf) { x with used := s.cycle, cls := if t.cls = 2 ∧ x.cls ≤ 1 then 2 else x.cls } }
    | none =>
      let xs := setLines s die hf
      putLine (if xs.length < 16 then s else match victim s die xs with
        | some k => evictWith (lineIn n) s k
        | none => s) die hf t

def ensureLine (s : State) (die hf : Nat) (t : LineTag) : State := lineIn 48 s die hf t

/-- Pass on what a die holds back of one sector (05 R105). -/
def passOn (s : State) (die hf : Nat) : State := mergeWith ensureLine s die hf

/-- Pass on everything that a die holds back. -/
def pushDie (s : State) (die : Nat) : State :=
  s.l2.foldl (fun s x => if x.1 / 2 ^ 60 = die ∧ x.2.mask ≠ 0 then passOn s die (x.1 % 2 ^ 60 * 32) else s) s

/-- Bring a sector into a die's L2 for context `ctx`: from far memory into the home L2, and over the die link to
another die (R95; the traffic of 18 R368). A sector that is held is a hit. -/
def fetchL2 (s : State) (die hf ctx : Nat) (t : LineTag) : State :=
  if (l2At s die hf).isSome ∨ remote hf then ensureLine s die hf t
  else
    let home := homeDie hf
    let s :=
      if (l2At s home hf).isSome then ensureLine s home hf t
      else
        let d := dramSector s hf
        let s := ensureLine s home hf t
        count32 (putL2 s home hf { data := d.1, dirty := false, poison := d.2, ctx := ctx }) home ctx 0
    if die = home then s
    else
      let d := homeSector s hf
      let s := ensureLine s die hf t
      count32 (count32 (putL2 s die hf { data := d.1, dirty := false, poison := d.2, ctx := ctx }) home ctx 3) die ctx 2

/-- Every sector of a line, as a transfer fills it (R95). -/
def fetchLine (s : State) (die hf ctx : Nat) (t : LineTag) : State :=
  iter s 8 (fun s i => fetchL2 s die (hf / 256 * 256 + 32 * i) ctx t)

/-- A sector that another part has sent is held as class 1 (19 R381). -/
def installRemote (s : State) (die ga ctx : Nat) (d : BitVec 256) (poison : Bool) : State :=
  putL2 (ensureLine s die ga { cls := 1 }) die ga { data := d, dirty := false, poison := poison, ctx := ctx }

/-- L2_INVALIDATE (R97): copies in dies other than the home die go; what they hold back is passed on first. -/
def invalidate (s : State) (hf : Nat) : State :=
  iter s 3 (fun s d => if d = homeDie hf then s else delL2 (passOn s d hf) d hf)

/-- Store bytes of one sector in a die's L2 (R95; 05 R105): at the home die the copies elsewhere are invalidated; on another die
the bytes are held back. Page-window copies that predate the store are written back first; they stay valid under a store at PANEL
scope (`wide` false), which leaves the sector marked for the next wider push. The sector is in place unless all its bytes are known. -/
def putBytes (s : State) (keep : Option Nat) (die hf ctx : Nat) (t : LineTag) (bs : List (Nat × Byte)) (poison wide : Bool) : State :=
  let home := die == homeDie hf
  let (s, g1) := gatherWindows s keep [die] wide hf
  let (s, g2) := if home then gatherWindows s keep ((List.range 3).filter (fun d => d != die)) true hf else (s, none)
  let g := g1.or g2
  let full := bytesMask bs == BitVec.allOnes 32
  let s := if full || g.isSome then ensureLine s die hf t else fetchL2 s die hf ctx t
  let s := if home then invalidate s hf else s
  let now := (l2At s die hf).getD { data := 0, dirty := false, poison := false, ctx := ctx }
  let b : BitVec 256 × Bool := g.getD (now.data, now.poison)
  putL2 s die hf
    { data := patch b.1 bs, dirty := true, ctx := ctx, narrow := !wide
      mask := if home then 0 else (if g.isSome then BitVec.allOnes 32 else now.mask) ||| bytesMask bs
      poison := poison || (!full && b.2) }

/-- Copies that stores at PANEL scope left valid in page windows of a die go (05 R105). A copy that its window has stored into since
was renewed before that store, and stays. -/
def dropNarrow (s : State) (die : Nat) : State :=
  s.l2.foldl (fun s x =>
    if x.1 / 2 ^ 60 = die ∧ x.2.narrow then
      let hf := x.1 % 2 ^ 60 * 32
      let s := (windows s).foldl (fun s k =>
        match windowHolds s k hf with
        | some (i, sl) =>
          let y := wellAt s (k / 256) (k % 256)
          if dieOf (k / 256) = die ∧ !bit sl.dirty (hf % 4096 / 32) then
            setWell s (k / 256) (k % 256) { y with slots := tput y.slots i (slotLose sl (hf % 4096 / 32) true) }
          else s
        | none => s) s
      match l2At s die hf with
      | some y => putL2 s die hf { y with narrow := false }
      | none => s
    else s) s

/-! ## Page windows towards the L2 (R90, R92) -/

/-- A release filter loses a panel's bit for a sector (16 R342). -/
def leaveFilter (s : State) (p hf : Nat) : State :=
  let die := dieOf p
  let f := (tgetD s.filters die []).map (fun e =>
    if e.sector = hf / 32 then { e with mask := e.mask &&& ~~~(BitVec.ofNat 16 (2 ^ (p % 16))) } else e)
  { s with filters := tsetD s.filters die (f.filter (fun e => e.mask != 0)) [] }

/-- A panel stands in its die's filter for a sector. -/
def inFilter (s : State) (p hf : Nat) : Bool :=
  (tgetD s.filters (dieOf p) []).any (fun e => e.sector == hf / 32 && e.mask.getLsbD (p % 16))

/-- Class that a window gives its refills and write-backs (R85). -/
def windowClass (x : Well) : Nat := bits x.cfg.toNat 3 1

/-- A service at an arbiter for a partition, the last of it and of all (06 R133). -/
def markServed (s : State) (arb part : Nat) : State :=
  let t := if part = 126 then s.served else tput s.served (arb * 128 + part) (s.cycle + 1)
  { s with served := tput t (arb * 128 + 127) (s.cycle + 1) }

/-- Write one dirty sector of a slot back: to the L2 of the panel's die, where it counts as a service of the owner's partition
(log 92), or over its port to another part. -/
def wbSector (s : State) (p w slot sec : Nat) : State :=
  let x := wellAt s p w
  match tget? x.slots slot with
  | none => s
  | some sl =>
    if bit sl.dirty sec then
      let d := slotSector s p w slot sec
      let s := setWell s p w { x with slots := tput x.slots slot (slotLose sl sec false) }
      let ctx := ownerOf s p w
      let ga := gaOf s sl.base + 32 * sec
      if remote ga then
        match portPath s (dieOf p) (gaDev ga) with
        | none => s
        | some path =>
          { s with reqs := s.reqs ++ [{ kind := .flush p w ((List.range 32).map (fun i => (i, secByte d.1 i))) d.2, path := path, born := s.cycle, ctx := ctx, issuer := p,
                                        addr := sl.base + 32 * sec, ctag := 64 }] }
      else
        putBytes (markServed s (arbBank (dieOf p) ga) (partOf s ctx)) (some (siteKey p w)) (dieOf p) ga ctx
          { cls := windowClass x } ((List.range 32).map (fun i => (i, secByte d.1 i))) d.2 true
    else s

/-- Write back every dirty sector of a slot. -/
def wbSlot (s : State) (p w slot : Nat) : State :=
  match tget? (wellAt s p w).slots slot with
  | some sl => if sl.dirty = 0 then s else iter s 128 (fun s i => wbSector s p w slot i)
  | none => s

/-- Write back every dirty sector of a window. -/
def wbWindow (s : State) (p w : Nat) : State := (wellAt s p w).slots.foldl (fun s x => wbSlot s p w x.1) s

/-- Dirty sectors of a window for which its panel stands in the release filter. -/
def filterDirty (s : State) (p w : Nat) : List Nat :=
  (wellAt s p w).slots.flatMap (fun x =>
    if x.2.dirty = 0 then []
    else ((List.range 128).filter (fun i => bit x.2.dirty i)).map (fun i => gaOf s x.2.base + 32 * i) |>.filter (inFilter s p))

/-- A release of a window's context writes every dirty sector of the window back (R92), and the panel leaves the filter entries of
those sectors (16 R342). What its die then holds back is passed on at once, so that a PROMOTE that no longer finds the panel misses
nothing (16 R343; log 93). -/
def releaseWindow (s : State) (p w : Nat) : State :=
  let gs := filterDirty s p w
  let s := gs.foldl (fun s ga => leaveFilter s p ga) (wbWindow s p w)
  if gs.isEmpty then s else pushDie s (dieOf p)

/-! ## Accesses to the L2 at a scope (05 R105, R106) -/

/-- The die whose L2 performs an access of die `die` at a scope: the issuing die up to DIE, else the home die. -/
def atDie (die scope hf : Nat) : Nat := if scope ≤ 2 then die else homeDie hf

/-- Read a sector at a scope: data and poison. From DEVICE on, the issuing die passes on what it holds back, the home die's L2 is read,
the sector crosses to the issuing die, and the copy there is renewed. -/
def readL2 (s : State) (die scope hf ctx : Nat) (t : LineTag) : State × BitVec 256 × Bool :=
  let far := decide (3 ≤ scope) && die != homeDie hf
  let s := if far then passOn s die hf else s
  let s := fetchL2 s (atDie die scope hf) hf ctx t
  let x := (l2At s (atDie die scope hf) hf).getD { data := 0, dirty := false, poison := false, ctx := ctx }
  let s := if !far then s
    else
      let s := count32 (count32 s (homeDie hf) ctx 3) die ctx 2
      match l2At s die hf with
      | some y => putL2 s die hf { y with data := x.data, poison := x.poison }
      | none => s
  (s, x.data, x.poison)

/-- Store bytes of a sector at a scope. -/
def writeL2 (s : State) (keep : Option Nat) (die scope hf ctx : Nat) (t : LineTag) (bs : List (Nat × Byte)) (poison : Bool) :
    State :=
  if bs.isEmpty then s
  else if scope ≤ 2 ∨ die = homeDie hf then putBytes s keep die hf ctx t bs poison (decide (2 ≤ scope))
  else
    let s := passOn s die hf
    let s := (gatherWindows s keep [die] true hf).1
    count32 (count32 (putBytes s keep (homeDie hf) hf ctx t bs poison true) die ctx 3) (homeDie hf) ctx 2

/-- Every store of a panel that is ordered before a release or fence of a scope is performed at that scope (05 R106; R92): from DIE
on, its windows (of one context, or of all) are written back and no older copy stays valid in the windows of the die; from DEVICE on,
its die's L2 passes on. -/
def pushScope (s : State) (p scope : Nat) (ctx : Option Nat) : State :=
  if scope ≤ 1 then s
  else
    let s := (windows s).foldl (fun s k =>
      if k / 256 = p ∧ (ctx = none ∨ ctx = (wellAt s p (k % 256)).owner) then releaseWindow s p (k % 256) else s) s
    let s := dropNarrow s (dieOf p)
    if scope ≤ 2 then s else pushDie s (dieOf p)

/-- Sectors of a panel's windows on their way to another part. -/
def flushing (s : State) (p : Nat) : Bool :=
  let mine := fun (r : Req) => match r.kind with
    | .flush q _ _ _ => q == p
    | _ => false
  s.reqs.any mine || s.remotes.any (fun x => x.req.any mine)

/-! ## Release filters (16 R342) -/

/-- Record a release of panel `p` to a sector; a full filter evicts its oldest entry after that entry's panels have
made their stores performed at DEVICE. -/
def recordRelease (s : State) (p hf : Nat) : State :=
  let die := dieOf p
  let f := tgetD s.filters die []
  let b : BitVec 16 := BitVec.ofNat 16 (2 ^ (p % 16))
  match f.find? (fun e => e.sector == hf / 32) with
  | some e =>
    { s with filters := tput s.filters die (f.filter (fun e => e.sector != hf / 32) ++ [{ e with mask := e.mask ||| b }]) }
  | none =>
    let s := if f.length < 4096 then s
      else match f with
        | e :: _ => iter s 16 (fun s i => if e.mask.getLsbD i then pushScope s (16 * die + i) 3 none else s)
        | [] => s
    let f := tgetD s.filters die []
    let f := if f.length < 4096 then f else f.drop 1
    { s with filters := tput s.filters die (f ++ [{ sector := hf / 32, mask := b }]) }

/-- What PROMOTE does first (16 R343): every panel in the filters for the sector makes its stores performed at a scope,
and its bit is cleared. -/
def promotePush (s : State) (hf scope : Nat) : State :=
  let ms := (List.range 3).flatMap (fun die =>
    ((tgetD s.filters die []).filter (fun e => e.sector == hf / 32)).flatMap (fun e =>
      ((List.range 16).filter (fun i => e.mask.getLsbD i)).map (fun i => 16 * die + i)))
  ms.foldl (fun s g => leaveFilter (pushScope s g scope none) g hf) s

/-! ## Translation (18 R357 to R367) -/

/-- Bytes of a page by size code. -/
def pageSize (size : Nat) : Nat := 4096 * 4 ^ size

/-- Level of a page by size code (R358). -/
def sizeLevel (size : Nat) : Nat := if size < 5 then 4 else if size < 9 then 3 else 2

/-- Index of a level (R357). -/
def vaIndex (level va : Nat) : Nat :=
  match level with
  | 0 => bits va 55 48
  | 1 => bits va 47 39
  | 2 => bits va 38 30
  | 3 => bits va 29 21
  | _ => bits va 20 12

def pteLeaf (w : Word64) : Bool := bit w.toNat 1
def pteSize (w : Word64) : Nat := bits w.toNat 59 56
def pteClass (w : Word64) : Nat := bits w.toNat 63 61
def pteAddr (w : Word64) : Nat := bits w.toNat 55 12 * 4096

/-- An entry that stops a walk with TRANSLATION (R360). -/
def pteBad (s : State) (level : Nat) (w : Word64) : Bool :=
  let v := w.toNat
  !bit v 0 || bits v 11 5 != 0 ||
    (if bit v 1 then
      decide (level < 2) || decide (5 < pteClass w) || decide (9 < pteSize w) || sizeLevel (pteSize w) != level ||
        (bit v 3 && !bit v 2) || pteAddr w % pageSize (pteSize w) != 0
    else
      level == 4 || bits v 63 56 != 0 || bits v 4 2 != 0 || !ownDev s (pteAddr w))

/-- One entry, read as a load at DEVICE scope. -/
def pteRead (s : State) (table level va : Nat) : Word64 :=
  BitVec.ofNat 64 (leNat (homeRead s (homeForm (table + 8 * vaIndex level va)) 8))

/-- The cause that the address of a table gives (R98, R360): another part's number is TRANSLATION, as in a table's entry (log 94). -/
def tableOff (s : State) (table : Nat) : Option Nat :=
  if ownDev s table then (if paBad s table then some cPERMISSION else none)
  else if 1152 ≤ bits table 55 44 then some cPERMISSION
  else some cTRANSLATION

/-- What an entry that a walk has read makes of it: its end, or the table of the next level. -/
def walkEntry (s : State) (level : Nat) (w : Word64) : WalkEnd ⊕ Nat :=
  if pteBad s level w then .inl (.bad cTRANSLATION)
  else if pteLeaf w then .inl (.leaf w)
  else match tableOff s (pteAddr w) with
    | some c => .inl (.bad c)
    | none => .inr (pteAddr w)

/-- A walk from `level` down `n` levels. -/
def walkFrom (s : State) (va : Nat) : Nat → Nat → Nat → WalkEnd
  | 0, _, _ => .bad cTRANSLATION
  | n + 1, level, table =>
    match walkEntry s level (pteRead s table level va) with
    | .inl e => e
    | .inr t => walkFrom s va n (level + 1) t

/-- The walk of a context for an address. -/
def walkNow (s : State) (ctx va : Nat) : WalkEnd :=
  let root := (ctxAt s ctx).ptroot
  match tableOff s root with
  | some c => .bad c
  | none => walkFrom s va 5 0 root

/-- A cache holds a leaf for the address. -/
def tlbHit (e : TlbEntry) (cache key ctx va : Nat) : Bool :=
  e.cache == cache && e.key == key && e.ctx == ctx && va / pageSize e.size == e.page

/-- Add a leaf to one cache, dropping its oldest entry when it is full. -/
def tlbAdd (s : State) (cache key ctx va : Nat) (leaf : Word64) : State :=
  let cap := if cache = 0 then 16 else if cache = 1 then 256 else 8192
  if s.tlb.any (fun e => tlbHit e cache key ctx va) then s
  else
    let mine := s.tlb.filter (fun e => e.cache == cache && e.key == key)
    let tlb := if mine.length < cap then s.tlb
      else match idxOf (fun e => e.cache == cache && e.key == key) s.tlb with
        | some i => dropAt s.tlb i
        | none => s.tlb
    { s with tlb := tlb ++ [{ cache := cache, key := key, ctx := ctx, page := va / pageSize (pteSize leaf),
                              size := pteSize leaf, leaf := leaf }] }

/-- A site with a micro-cache (R365): a mode-5 well or an edge address unit. -/
def hasMicro (s : State) (p site : Nat) : Bool :=
  (241 ≤ site && site ≤ 244) || (isWell site && wellMode (wellAt s p site) == 5)

/-- The leaf that the caches hold for an address, the inner cache first. -/
def tlbFind (s : State) (ctx p site va : Nat) : Option Word64 :=
  let go := fun cache key => (s.tlb.find? (fun e => tlbHit e cache key ctx va)).map (·.leaf)
  match (if hasMicro s p site then go 0 (siteKey p site) else none) with
  | some w => some w
  | none => match go 1 p with
    | some w => some w
    | none => go 2 (dieOf p)

/-- Install a leaf in the caches of a panel's die, the panel and the site. -/
def tlbInstall (s : State) (ctx p site va : Nat) (leaf : Word64) : State :=
  let s := tlbAdd (tlbAdd s 2 (dieOf p) ctx va leaf) 1 p ctx va leaf
  if hasMicro s p site then tlbAdd s 0 (siteKey p site) ctx va leaf else s

/-- The leaf for an address, walking on a miss: for engines and probes, whose walk is part of their own step. -/
def leafNow (s : State) (ctx p site va : Nat) : State × WalkEnd :=
  match tlbFind s ctx p site va with
  | some w => (tlbInstall s ctx p site va w, .leaf w)
  | none => match walkNow s ctx va with
    | .leaf w => (tlbInstall s ctx p site va w, .leaf w)
    | .bad c => (s, .bad c)

/-- Rights that an access needs (R362). -/
inductive Right where
  | read
  | write
  | both
deriving DecidableEq, Repr, Inhabited

/-- The cause that a leaf gives an access: a missing right is PERMISSION, before PSN is tested (R362, R364). -/
def leafCause (s : State) (ctx : Nat) (w : Word64) (k : Right) : Option Nat :=
  let v := w.toNat
  let need := match k with
    | .read => bit v 2
    | .write => bit v 3
    | .both => bit v 2 && bit v 3
  if !need || (bit v 4 && privOf s ctx == 0) then some cPERMISSION
  else if bit v 60 then some cPOISON
  else none

/-- The physical address of a byte under a leaf (R361). -/
def leafPa (w : Word64) (va : Nat) : Nat := pteAddr w + va % pageSize (pteSize w)

/-- An address and its class, or a cause. -/
inductive Xlat where
  | ok (pa cls : Nat)
  | bad (cause : Nat)
deriving DecidableEq, Repr, Inhabited

/-- The check of a physical address (R98). -/
def checkPa (s : State) (pa cls : Nat) : Xlat := if paBad s pa then .bad cPERMISSION else .ok pa cls

/-- An address under a leaf, checked. -/
def underLeaf (s : State) (ctx : Nat) (w : Word64) (va : Nat) (k : Right) : Xlat :=
  match leafCause s ctx w k with
  | some c => .bad c
  | none => checkPa s (leafPa w va) (pteClass w)

/-- Translate an engine's address of SPACE 1 or 2. -/
def xlateNow (s : State) (ctx p site space addr : Nat) (k : Right) : State × Xlat :=
  if 2 ^ 56 ≤ addr then (s, .bad cTRANSLATION)
  else if space = 2 then (s, if privOf s ctx = 0 then .bad cPERMISSION else checkPa s addr 0)
  else
    match leafNow s ctx p site addr with
    | (s', .leaf w) => (s', underLeaf s' ctx w addr k)
    | (s', .bad c) => (s', .bad c)

/-- The pieces of a range of addresses by sector: address of the piece's first byte, and its length. -/
def sectorSpans : Nat → Nat → Nat → List (Nat × Nat)
  | 0, _, _ => []
  | n + 1, va, len =>
    if len = 0 then [] else (va, min len (32 - va % 32)) :: sectorSpans n (va + min len (32 - va % 32)) (len - min len (32 - va % 32))

/-- Bytes at a virtual address for an engine, sector by sector, read at DEVICE scope (a sector of another part is an answer from
outside, log 15); the cause on a fault. -/
def vread (s : State) (ctx p va n : Nat) : State × Except Nat (List Byte × Bool) :=
  (sectorSpans (n / 32 + 2) va n).foldl (fun (st : State × Except Nat (List Byte × Bool)) x =>
    match st.2 with
    | .error c => (st.1, .error c)
    | .ok (bs, bad) =>
      match xlateNow st.1 ctx p 240 1 x.1 .read with
      | (s, .bad c) => (s, .error c)
      | (s, .ok pa cls) =>
        if ownDev s pa then
          let hf := homeForm pa
          let (s, d, b) := readL2 s (dieOf p) 3 (hf / 32 * 32) ctx { cls := cls }
          (s, .ok (bs ++ (List.range x.2).map (fun i => secByte d (hf % 32 + i)), bad || b))
        else ({ s with fresh := s.fresh + x.2 }, .ok (bs ++ (List.range x.2).map (fun i => Config.remoteByte (s.fresh + i) (pa + i)), bad))) (s, .ok ([], false))

end Sys2Proof.Machine
end

