-- ==== Sys2Proof/Machine/Flags.lean ====
section
/-!
DEFINITION. Flags and conditions: the FPFLAGS bits (03 R75), exact values and their rounding with the flags it
raises (03 R58 to R63, R75), stochastic bits (03 R63), and the relations of ICMP and FCMP (08 R175).
-/
namespace Sys2Proof.Machine

def fNV : BitVec 5 := 16
def fDZ : BitVec 5 := 8
def fOF : BitVec 5 := 4
def fUF : BitVec 5 := 2
def fNX : BitVec 5 := 1

/-- A flag raised under a condition. -/
def flagIf (b : Bool) (f : BitVec 5) : BitVec 5 := if b then f else 0

/-! ## Exact values -/

/-- An exact value ± m · 2^e, or the value of that form plus less than 2^e more when `sticky`. -/
structure Ex where
  neg : Bool
  m : Nat
  e : Int
  sticky : Bool := false
deriving DecidableEq, Repr, Inhabited

/-- A float read from its bits (03 R58, R60). -/
inductive FV where
  | nan (signalling : Bool)
  | inf (neg : Bool)
  | fin (x : Ex)
deriving DecidableEq, Repr, Inhabited

/-- Significand bits with the hidden bit, the exponent of the smallest subnormal, the largest exponent, and the
number of pattern bits (03 R58). -/
def fltP (f : BitVec 4) : Nat := if f = 8 then 11 else if f = 9 then 8 else 24
def fltMin (f : BitVec 4) : Int := if f = 8 then -24 else if f = 9 then -133 else -149
def fltMax (f : BitVec 4) : Int := if f = 8 then 15 else 127
def fltBits (f : BitVec 4) : Nat := if f = 10 then 32 else 16

/-- The canonical NaN (03 R60). -/
def cNaN (f : BitVec 4) : Nat := if f = 8 then 0x7E00 else if f = 9 then 0x7FC0 else 0x7FC00000

/-- Read a float (03 R58). -/
def fread (f : BitVec 4) (v : Nat) : FV :=
  let fb := fltP f - 1
  let neg := bit v (fltBits f - 1)
  let ex := bits v (fltBits f - 2) fb
  let fr := v % 2 ^ fb
  if ex = 2 ^ (fltBits f - 1 - fb) - 1 then
    if fr = 0 then .inf neg else .nan (!bit v (fb - 1))
  else if ex = 0 then .fin { neg := neg, m := fr, e := fltMin f }
  else .fin { neg := neg, m := fr + 2 ^ fb, e := fltMin f + (ex - 1 : Nat) }

def isNanV : FV → Bool
  | .nan _ => true
  | _ => false

def isSnan : FV → Bool
  | .nan b => b
  | _ => false

/-- Pattern of an infinity. -/
def infBits (f : BitVec 4) (neg : Bool) : Nat :=
  put (b2n neg) (fltBits f - 1) + put (2 ^ (fltBits f - fltP f) - 1) (fltP f - 1)

/-- Pattern of the largest finite value. -/
def maxBits (f : BitVec 4) (neg : Bool) : Nat := infBits f neg - 1

/-- Pattern of a zero. -/
def zeroBits (f : BitVec 4) (neg : Bool) : Nat := put (b2n neg) (fltBits f - 1)

/-! ## Rounding (03 R61 to R63) -/

/-- Round ± m · 2^e to a multiple of 2^q: the multiple, and whether the value differs. `z` is the upper half of the
stochastic bits. -/
def roundAt (mode : Nat) (z : Nat) (x : Ex) (q : Int) : Nat × Bool :=
  if q ≤ x.e then (x.m * 2 ^ (x.e - q).toNat, x.sticky)
  else
    let k := (q - x.e).toNat
    let base := x.m / 2 ^ k
    let lo := x.m % 2 ^ k
    let inexact := lo != 0 || x.sticky
    let half := 2 * lo
    let up :=
      match mode with
      | 0 => half > 2 ^ k || (half == 2 ^ k && (x.sticky || base % 2 == 1))
      | 1 => false
      | 2 => x.neg && inexact
      | 3 => !x.neg && inexact
      | 4 => half ≥ 2 ^ k
      | _ => inexact && decide (z < lo * 2 ^ 32 / 2 ^ k)
    (if up then base + 1 else base, inexact)

/-- Number of bits of `n`. -/
def bitLen (n : Nat) : Nat := if n = 0 then 0 else Nat.log2 n + 1

/-- Overflow's value by mode (03 R62). -/
def overflowBits (f : BitVec 4) (mode : Nat) (neg : Bool) : Nat :=
  if mode = 1 ∨ (mode = 2 ∧ ¬ neg) ∨ (mode = 3 ∧ neg) then maxBits f neg else infBits f neg

/-- `rnd`: the pattern of the rounded value and the flags OF, UF and NX it raises (03 R62, R63, R75). -/
def rnd (f : BitVec 4) (mode z : Nat) (x : Ex) : Nat × BitVec 5 :=
  if x.m = 0 ∧ ¬ x.sticky then (zeroBits f x.neg, 0)
  else
    let p := fltP f
    let top : Int := x.e + (bitLen x.m : Int) - 1
    let qu : Int := top - ((p : Int) - 1)
    let q : Int := max qu (fltMin f)
    let (n, inexact) := roundAt mode z x q
    let tooBig := decide ((2 : Nat) ^ (fltMax f + 1 - q).toNat ≤ n) && decide (q ≤ fltMax f + 1)
      || decide (fltMax f + 1 < q)
    if tooBig then (overflowBits f mode x.neg, fOF ||| fNX)
    else
      let (nu, _) := roundAt mode z x qu
      let tiny := decide (top < fltMin f + (p : Int) - 1) &&
        !(decide (qu + (p : Int) = fltMin f + (p : Int) - 1) && nu == 2 ^ p)
      (zeroBits f x.neg + (q - fltMin f).toNat * 2 ^ (p - 1) + n,
        flagIf inexact fNX ||| flagIf (tiny && inexact) fUF)

/-- Stochastic bits (03 R63). -/
def srbits (tag seed : Word64) (k : Nat) : Word64 :=
  let z := tag ^^^ seed ^^^ BitVec.ofNat 64 k
  let z := z ^^^ (z >>> 31)
  let z := z * 0x9E6C63D0876A9A47
  let z := z ^^^ (z >>> 29)
  let z := z * 0xD3A2646CAB3E4F15
  z ^^^ (z >>> 32)

/-- The upper half of the stochastic bits. -/
def srTop (tag seed : Word64) (k : Nat) : Nat := (srbits tag seed k).toNat / 2 ^ 32

/-! ## Exact arithmetic -/

/-- Product. -/
def exMul (a b : Ex) : Ex := { neg := a.neg != b.neg, m := a.m * b.m, e := a.e + b.e }

/-- Signed magnitude at exponent `q ≤ e`. -/
def exAt (x : Ex) (q : Int) : Int :=
  let m : Int := (x.m * 2 ^ (x.e - q).toNat : Nat)
  if x.neg then -m else m

/-- Sum; an exact zero of operands of opposite sign is +0 but under dn (03 R62). -/
def exAdd (mode : Nat) (a b : Ex) : Ex :=
  let q := min a.e b.e
  let s := exAt a q + exAt b q
  if s = 0 then { neg := if a.neg = b.neg then a.neg else mode == 2, m := 0, e := q }
  else { neg := decide (s < 0), m := s.natAbs, e := q }

/-- Negation. -/
def fneg : FV → FV
  | .fin x => .fin { x with neg := !x.neg }
  | .inf n => .inf (!n)
  | v => v

/-- The result of an operation: a pattern and flags. -/
abbrev FR := Nat × BitVec 5

/-- A NaN result: NV when some operand is signalling, or when the operation has no numeric result. -/
def nanR (f : BitVec 4) (nv : Bool) : FR := (cNaN f, flagIf nv fNV)

/-- a + b (10 R213, R214). -/
def fadd (f : BitVec 4) (mode z : Nat) (a b : FV) : FR :=
  match a, b with
  | .nan s, b => nanR f (s || isSnan b)
  | _, .nan t => nanR f t
  | .inf s, .inf t => if s = t then (infBits f s, 0) else nanR f true
  | .inf s, .fin _ => (infBits f s, 0)
  | .fin _, .inf t => (infBits f t, 0)
  | .fin x, .fin y => rnd f mode z (exAdd mode x y)

/-- a × b (10 R213, R214). -/
def fmul (f : BitVec 4) (mode z : Nat) (a b : FV) : FR :=
  match a, b with
  | .nan s, b => nanR f (s || isSnan b)
  | _, .nan t => nanR f t
  | .inf s, .inf t => (infBits f (s != t), 0)
  | .inf s, .fin y => if y.m = 0 then nanR f true else (infBits f (s != y.neg), 0)
  | .fin x, .inf t => if x.m = 0 then nanR f true else (infBits f (x.neg != t), 0)
  | .fin x, .fin y => rnd f mode z (exMul x y)

/-- a × b + c with one rounding; 0 × ∞ raises NV even beside a quiet NaN c (10 R214). -/
def ffma (f : BitVec 4) (mode z : Nat) (a b c : FV) : FR :=
  match a, b with
  | .nan s, b => nanR f (s || isSnan b || isSnan c)
  | _, .nan t => nanR f (t || isSnan c)
  | .inf s, .inf t => infPlus f (s != t) c
  | .inf s, .fin y => if y.m = 0 then nanR f true else infPlus f (s != y.neg) c
  | .fin x, .inf t => if x.m = 0 then nanR f true else infPlus f (x.neg != t) c
  | .fin x, .fin y =>
    match c with
    | .nan u => nanR f u
    | .inf u => (infBits f u, 0)
    | .fin w => rnd f mode z (exAdd mode (exMul x y) w)
where
  infPlus (f : BitVec 4) (s : Bool) : FV → FR
    | .nan u => nanR f u
    | .inf u => if s = u then (infBits f s, 0) else nanR f true
    | .fin _ => (infBits f s, 0)

/-! ## Relations (08 R175) -/

/-- Compare numbers: `none` when either is a NaN. Zeros are equal. -/
def fcmp (a b : FV) : Option Ordering :=
  match a, b with
  | .nan _, _ => none
  | _, .nan _ => none
  | .inf s, .inf t => some (compare (b2n t) (b2n s))
  | .inf s, .fin _ => some (if s then .lt else .gt)
  | .fin _, .inf t => some (if t then .gt else .lt)
  | .fin x, .fin y =>
    let q := min x.e y.e
    some (compare (exAt x q) (exAt y q))

/-- FCMP's relation (08 R175, 10 R216). -/
def fRel (rel : Nat) (o : Option Ordering) : Bool :=
  match rel, o with
  | 0, o => o == some .eq
  | 1, o => o != some .eq
  | 2, o => o == some .lt
  | 3, o => o == some .lt || o == some .eq
  | 4, o => o == some .gt
  | 5, o => o == some .gt || o == some .eq
  | 6, o => o.isNone
  | _, o => o.isSome

/-- FCMP's invalid flag: quiet relations only for a signalling NaN (10 R216). -/
def fRelNV (rel : Nat) (a b : FV) : Bool :=
  isSnan a || isSnan b || (2 ≤ rel && rel ≤ 5 && (isNanV a || isNanV b))

/-- ICMP's relation (08 R175). -/
def iRel (rel : Nat) (a b : Int) : Bool :=
  match rel with
  | 0 => a == b
  | 1 => a != b
  | 2 => decide (a < b)
  | 3 => decide (a ≤ b)
  | 4 => decide (a > b)
  | _ => decide (a ≥ b)

end Sys2Proof.Machine
end

