-- ==== Sys2Proof/Machine/Special.lean ====
section
/-!
DEFINITION. The special functions of 03 R74 and 10 R219: division and roots with an exact remainder, and the
transcendental functions by fixed-point series of 512 fraction bits, far finer than an f32 result needs (log 10).
-/
namespace Sys2Proof.Machine

/-! ## Exact quotients and roots -/

/-- Quotient of magnitudes to at least 64 significant bits, sticky when inexact. -/
def exDiv (a b : Ex) : Ex :=
  let sh := 64 + bitLen b.m
  let n := a.m * 2 ^ sh
  { neg := a.neg != b.neg, m := n / b.m, e := a.e - b.e - (sh : Int), sticky := n % b.m != 0 }

/-- Integer square root by binary digits: the root of `n` below 2^k. -/
def isqrt (n : Nat) : Nat → Nat → Nat
  | 0, r => r
  | k + 1, r => if (r + 2 ^ k) * (r + 2 ^ k) ≤ n then isqrt n k (r + 2 ^ k) else isqrt n k r

/-- Square root of a magnitude to at least 60 significant bits. -/
def exSqrt (x : Ex) : Ex :=
  let sh : Nat := 128 + (if (x.e + 128) % 2 = 0 then 0 else 1)
  let n := x.m * 2 ^ sh
  let k := (bitLen n + 1) / 2
  let r := isqrt n k 0
  { neg := false, m := r, e := (x.e - (sh : Int)) / 2, sticky := r * r != n }

/-- 1 as an exact value. -/
def exOne : Ex := { neg := false, m := 1, e := 0 }

/-! ## Fixed-point series; a number x stands for x / 2^512 -/

def fx : Nat := 512
def fxOne : Nat := 2 ^ 512
def fxMul (a b : Nat) : Nat := a * b / fxOne

/-- Σ x^i / i!, from term `t` at index `i`. -/
def expSum (x : Nat) : Nat → Nat → Nat → Nat → Nat
  | 0, _, _, acc => acc
  | k + 1, i, t, acc => let t' := fxMul t x / i; expSum x k (i + 1) t' (acc + t')

/-- e^x for 0 ≤ x < 1. -/
def fxExp (x : Nat) : Nat := expSum x 120 1 fxOne fxOne

/-- Σ z^(2i+1) / (2i+1), from power `t`. -/
def atanhSum (z2 : Nat) : Nat → Nat → Nat → Nat → Nat
  | 0, _, _, acc => acc
  | k + 1, i, t, acc => atanhSum z2 k (i + 2) (fxMul t z2) (acc + t / i)

/-- ln of m / d for 1 ≤ m / d ≤ 2. -/
def fxLn (m d : Nat) : Nat :=
  let z := (m - d) * fxOne / (m + d)
  2 * atanhSum (fxMul z z) 170 1 z 0

def fxLn2 : Nat := fxLn 2 1

/-- Alternating Σ ± t / i with t divided by n² each time: the arctangent of 1 / n. -/
def atanSum (n : Nat) : Nat → Nat → Nat → Bool → Int → Int
  | 0, _, _, _, acc => acc
  | k + 1, i, t, plus, acc =>
    atanSum n k (i + 2) (t / (n * n)) (!plus) (if plus then acc + (t / i : Nat) else acc - (t / i : Nat))

/-- π by Machin's formula. -/
def fxPi : Nat :=
  (16 * atanSum 5 120 1 (fxOne / 5) true 0 - 4 * atanSum 239 50 1 (fxOne / 239) true 0).toNat

/-- Alternating Σ of t, multiplied by x² / (i (i+1)) each time. -/
def trigSum (x2 : Nat) : Nat → Nat → Nat → Bool → Int → Int
  | 0, _, _, _, acc => acc
  | k + 1, i, t, plus, acc =>
    trigSum x2 k (i + 2) (fxMul t x2 / (i * (i + 1))) (!plus) (if plus then acc + (t : Nat) else acc - (t : Nat))

def fxSin (x : Nat) : Nat := (trigSum (fxMul x x) 90 2 x true 0).toNat
def fxCos (x : Nat) : Nat := (trigSum (fxMul x x) 90 1 fxOne true 0).toNat

/-- A magnitude as fixed point, for exponents of at least −512. -/
def fxOf (x : Ex) : Nat := if 0 ≤ x.e + (fx : Int) then x.m * 2 ^ (x.e + (fx : Int)).toNat else 0

/-- A fixed-point number as an inexact value. -/
def exFx (neg : Bool) (v : Nat) (e : Int) : Ex := { neg := neg, m := v, e := e - (fx : Int), sticky := true }

/-! ## The functions on finite operands, f32 (10 R219) -/

/-- 2^x: exact for an integer x; ∞ and 0 by rounding far outside the range. -/
def exp2X (x : Ex) : Ex :=
  if x.m = 0 then exOne
  else if 8 < x.e + (bitLen x.m : Int) then
    (if x.neg then { neg := false, m := 1, e := -400, sticky := true } else { neg := false, m := 1, e := 400, sticky := true })
  else
    let v : Int := if x.neg then -(fxOf x : Nat) else (fxOf x : Nat)
    let n := v / (fxOne : Nat)
    let fr := (v % (fxOne : Nat)).toNat
    if fr = 0 then { neg := false, m := 1, e := n }
    else exFx false (fxExp (fxMul fr fxLn2)) n

/-- log2 of a positive x: exact for a power of two. -/
def log2X (x : Ex) : Ex :=
  let l := bitLen x.m
  let e : Int := x.e + (l : Int) - 1
  if x.m = 2 ^ (l - 1) then { neg := decide (e < 0), m := e.natAbs, e := 0 }
  else
    let fr := fxLn x.m (2 ^ (l - 1)) * fxOne / fxLn2
    let v : Int := e * (fxOne : Nat) + (fr : Nat)
    exFx (decide (v < 0)) v.natAbs 0

/-- The part of |x| modulo 2, in fixed point. -/
def mod2 (x : Ex) : Nat :=
  if 2 ≤ x.e then 0 else fxOf x % (2 * fxOne)

/-- sin(π y) for 0 < y < 2 in fixed point: sign and value; exact at multiples of a half. -/
def sinPiFx (y : Nat) : Bool × Option Nat :=
  let half := fxOne / 2
  let neg := decide (fxOne < y)
  let r := y % fxOne
  if r = 0 then (false, none)
  else
    let u := if half < r then fxOne - r else r
    if u = half then (neg, some fxOne)
    else if 2 * u ≤ half then (neg, some (fxSin (fxMul u fxPi)))
    else (neg, some (fxCos (fxMul (half - u) fxPi)))

/-- sin(π x): 0 with the sign of x at an integer. -/
def sinPiX (x : Ex) : Ex :=
  let y := mod2 x
  match sinPiFx y with
  | (_, none) => { neg := x.neg, m := 0, e := 0 }
  | (n, some v) =>
    if v = fxOne then { neg := x.neg != n, m := 1, e := 0 }
    else exFx (x.neg != n) v 0

/-- cos(π x) = sin(π (|x| + ½)): +0 where x is a half more than an integer. -/
def cosPiX (x : Ex) : Ex :=
  let y := (mod2 x + fxOne / 2) % (2 * fxOne)
  match sinPiFx y with
  | (_, none) => { neg := false, m := 0, e := 0 }
  | (n, some v) => if v = fxOne then { neg := n, m := 1, e := 0 } else exFx n v 0

/-- Square a fixed-point number `k` times. -/
def fxPow2 : Nat → Nat → Nat
  | 0, x => x
  | k + 1, x => fxPow2 k (fxMul x x)

/-- tanh x. -/
def tanhX (x : Ex) : Ex :=
  let top := x.e + (bitLen x.m : Int)
  if x.m = 0 then x
  else if top < -100 then { neg := x.neg, m := x.m * 2 ^ 150 - 1, e := x.e - 150, sticky := true }
  else if 5 < top then { neg := x.neg, m := 2 ^ 100 - 1, e := -100, sticky := true }
  else
    let y := 2 * fxOf x
    let ey := fxPow2 7 (fxExp (y / 128))
    exFx x.neg ((ey - fxOne) * fxOne / (ey + fxOne)) 0

/-! ## With special operands: pattern and flags (10 R219) -/

/-- FDIV. -/
def fdivV (z : Nat) (a b : FV) : FR :=
  match a, b with
  | .nan s, b => nanR 10 (s || isSnan b)
  | _, .nan t => nanR 10 t
  | .inf _, .inf _ => nanR 10 true
  | .inf s, .fin y => (infBits 10 (s != y.neg), 0)
  | .fin x, .inf t => (zeroBits 10 (x.neg != t), 0)
  | .fin x, .fin y =>
    if y.m = 0 then (if x.m = 0 then nanR 10 true else (infBits 10 (x.neg != y.neg), fDZ))
    else if x.m = 0 then (zeroBits 10 (x.neg != y.neg), 0)
    else rnd 10 0 z (exDiv x y)

/-- FSQRT. -/
def fsqrtV (z : Nat) (a : FV) : FR :=
  match a with
  | .nan s => nanR 10 s
  | .inf s => if s then nanR 10 true else (infBits 10 false, 0)
  | .fin x => if x.m = 0 then (zeroBits 10 x.neg, 0) else if x.neg then nanR 10 true else rnd 10 0 z (exSqrt x)

/-- The exact value of FRCP or FRSQ where it is finite and not a special case. -/
inductive RcpV where
  | special (r : FR)
  | exact (x : Ex)

def frcpX (a : FV) : RcpV :=
  match a with
  | .nan s => .special (nanR 10 s)
  | .inf s => .special (zeroBits 10 s, 0)
  | .fin x => if x.m = 0 then .special (infBits 10 x.neg, fDZ) else .exact (exDiv exOne x)

def frsqX (a : FV) : RcpV :=
  match a with
  | .nan s => .special (nanR 10 s)
  | .inf s => if s then .special (nanR 10 true) else .special (zeroBits 10 false, 0)
  | .fin x =>
    if x.m = 0 then .special (infBits 10 x.neg, fDZ)
    else if x.neg then .special (nanR 10 true)
    else
      -- 1/√x = √(1/x); the quotient is taken to 400 bits so that its root is exact or sticky
      let d := exDiv { exOne with m := 2 ^ 400, e := -400 } x
      .exact { exSqrt d with sticky := (exSqrt d).sticky || d.sticky }

def rcpV (z : Nat) : RcpV → FR
  | .special r => r
  | .exact x => rnd 10 0 z x

/-- FRCPA and FRSQA: fraction bits [10:0] cleared (10 R220). -/
def rcpAV (z : Nat) : RcpV → FR
  | .special r => r
  | .exact x =>
    let (y, f) := rnd 10 0 z x
    let y' := y - y % 2048
    let inexact := (f &&& fNX) != 0 || y' != y
    let sub := bits y 30 23 == 0
    (y', (f &&& fOF) ||| flagIf inexact fNX ||| flagIf (sub && inexact) fUF)

def fexp2V (z : Nat) (a : FV) : FR :=
  match a with
  | .nan s => nanR 10 s
  | .inf s => if s then (zeroBits 10 false, 0) else (infBits 10 false, 0)
  | .fin x => rnd 10 0 z (exp2X x)

def flog2V (z : Nat) (a : FV) : FR :=
  match a with
  | .nan s => nanR 10 s
  | .inf s => if s then nanR 10 true else (infBits 10 false, 0)
  | .fin x => if x.m = 0 then (infBits 10 true, fDZ) else if x.neg then nanR 10 true else rnd 10 0 z (log2X x)

def fsinpiV (z : Nat) (a : FV) : FR :=
  match a with
  | .nan s => nanR 10 s
  | .inf _ => nanR 10 true
  | .fin x => rnd 10 0 z (sinPiX x)

def fcospiV (z : Nat) (a : FV) : FR :=
  match a with
  | .nan s => nanR 10 s
  | .inf _ => nanR 10 true
  | .fin x => rnd 10 0 z (cosPiX x)

def ftanhV (z : Nat) (a : FV) : FR :=
  match a with
  | .nan s => nanR 10 s
  | .inf s => (zeroBits 10 s + 0x3F800000, 0)
  | .fin x => rnd 10 0 z (tanhX x)

end Sys2Proof.Machine
end

