-- ==== Sys2Proof/Machine/Float.lean ====
section
/-!
DEFINITION. Class 2: floating point (10 R211 to R221).
-/
namespace Sys2Proof.Machine

/-- SRSEED of the match's context (03 R63). -/
def seedOf (s : State) (c : Cur) : Word64 := (ctxAt s (matchCtx s c.p c.plane c.tag)).srseed

/-- A rounding record's field that is not admitted: MOD[87], RND 6 or 7, FMT, CF (10 R211). -/
def badRnd (r : RecN) : Bool := !isFloatTy r.fmt || decide (5 < r.hi.toNat) || r.cf != 0

/-- A special function admits FMT 10 and RND 0 only (03 R74). -/
def badSpecial (r : RecN) : Bool := r.fmt != 10 || r.hi != 0 || r.cf != 0

/-- A class 2 record with OPX below `k` (10 R215 to R218). -/
def badOpx (k : Nat) (r : RecN) : Bool := !isFloatTy r.fmt || decide (k ≤ r.hi.toNat) || r.cf != 0

/-- Lane-wise patterns with flags; a masked lane keeps a[l] and raises nothing (02 R51). -/
def fltLanes (p : Option (List Lane)) (a : List Lane) (w : Nat) (g : Nat → FR) : List Lane × BitVec 5 :=
  ((List.range w).map (fun l => if predAt p l then BitVec.ofNat 32 (g l).1 else a.getD l 0),
   (List.range w).foldl (fun f l => if predAt p l then f ||| (g l).2 else f) 0)

/-- The float on port `k`, lane `l`. -/
def fltAt (r : RecN) (c : Cur) (k l : Nat) : FV := fread r.fmt (elem r.fmt (lanesP r c k) l)

/-- One value of type `ty` with flags for both destinations. -/
def fltRes (c : Cur) (ty : BitVec 4) (x : List Lane × BitVec 5) : Res :=
  { both { tag := c.tag, ty := ty, lanes := x.1 } with flags := x.2 }

/-- The result of a lane-wise class 2 record: lane `l` computed with the upper stochastic bits for index `l`. -/
def fltOp (r : RecN) (s : State) (ty : BitVec 4) (g : Nat → FV → FV → FV → FR) (c : Cur) : Res :=
  fltRes c ty (fltLanes (lanePred r.ctl c) (lanesP r c 0) (widthA c) (fun l =>
    g (srTop c.tag (seedOf s c) l) (fltAt r c 0 l) (fltAt r c 1 l) (fltAt r c 2 l)))

/-- A rounding record of latency 1 (10 R213). -/
def fltRnd (r : RecN) (base : List Nat) (g : Nat → FV → FV → FV → FR) (s : State) : Outcome :=
  fire s (formN r) r.fmt base (badRnd r) false (fltOp r s r.fmt g)

/-- A special function, delivered after its latency (10 R212, R219). -/
def fltSpecial (r : RecN) (base : List Nat) (lat : Nat) (g : Nat → FV → FV → FR) (s : State) : Outcome :=
  fireLate s (formN r) r.fmt base (badSpecial r) false (fltOp r s r.fmt (fun z a b _ => g z a b)) (fun _ => lat)

/-- A float's order key: −0 below +0, infinities at the ends. -/
def fltKey (f : BitVec 4) (v : Nat) : Int :=
  let mag := v % 2 ^ (fltBits f - 1)
  if bit v (fltBits f - 1) then -((mag : Nat) + 1 : Int) else (mag : Nat)

/-- FMIN and FMAX on patterns (10 R215): OPX 0 ignores one NaN, OPX 1 keeps it. -/
def fminmax (f : BitVec 4) (max opx1 : Bool) (a b : Nat) : FR :=
  let va := fread f a
  let vb := fread f b
  let nv := flagIf (isSnan va || isSnan vb) fNV
  if isNanV va && isNanV vb then (cNaN f, nv)
  else if isNanV va || isNanV vb then
    (if opx1 then cNaN f else if isNanV va then b else a, nv)
  else (if decide (fltKey f a < fltKey f b) != max then a else b, 0)

/-- FCLASS's mask (10 R217). -/
def fclassV (f : BitVec 4) (v : Nat) : Nat :=
  let neg := bit v (fltBits f - 1)
  match fread f v with
  | .nan s => if s then 2 ^ 8 else 2 ^ 9
  | .inf n => if n then 1 else 2 ^ 7
  | .fin x =>
    if x.m = 0 then (if neg then 2 ^ 3 else 2 ^ 4)
    else if x.m < 2 ^ (fltP f - 1) then (if neg then 2 ^ 2 else 2 ^ 5)
    else (if neg then 2 ^ 1 else 2 ^ 6)

/-- FSGN (10 R218). -/
def fsgnV (f : BitVec 4) (opx : Nat) (a b : Nat) : FR :=
  match fread f a with
  | .nan s => nanR f s
  | _ =>
    let sa := bit a (fltBits f - 1)
    let sb := bit b (fltBits f - 1)
    let sg := if opx = 0 then sb else if opx = 1 then !sb else sa != sb
    (a % 2 ^ (fltBits f - 1) + zeroBits f sg, 0)

/-- FSCALE (10 R221). A shift beyond ±1000 gives what ±1000 gives. -/
def fscaleV (f : BitVec 4) (mode z : Nat) (a : FV) (k : Int) : FR :=
  match a with
  | .nan s => nanR f s
  | .inf n => (infBits f n, 0)
  | .fin x => if x.m = 0 then (zeroBits f x.neg, 0) else rnd f mode z { x with e := x.e + max (-1000) (min 1000 k) }

/-- FROUND: an integral value in the format; the sign is kept (10 R221). -/
def froundV (f : BitVec 4) (mode z : Nat) (a : FV) : FR :=
  match a with
  | .nan s => nanR f s
  | .inf n => (infBits f n, 0)
  | .fin x =>
    let (n, inexact) := roundAt mode z x 0
    ((rnd f 0 0 { neg := x.neg, m := n, e := 0 }).1, flagIf inexact fNX)

def execFadd (r : RecN) (s : State) : Outcome :=
  fltRnd r [0, 1] (fun z a b _ => fadd r.fmt r.hi.toNat z a b) s
def execFsub (r : RecN) (s : State) : Outcome :=
  fltRnd r [0, 1] (fun z a b _ => fadd r.fmt r.hi.toNat z a (fneg b)) s
def execFmul (r : RecN) (s : State) : Outcome :=
  fltRnd r [0, 1] (fun z a b _ => fmul r.fmt r.hi.toNat z a b) s
def execFfma (r : RecN) (s : State) : Outcome :=
  fltRnd r [0, 1, 2] (fun z a b c => ffma r.fmt r.hi.toNat z a b c) s

/-- FMIN or FMAX. -/
def fltMinmax (r : RecN) (max : Bool) (s : State) : Outcome :=
  fire s (formN r) r.fmt [0, 1] (badOpx 2 r) false (fun c =>
    fltRes c r.fmt (fltLanes (lanePred r.ctl c) (lanesP r c 0) (widthA c) (fun l =>
      fminmax r.fmt max (r.hi == 1) (elem r.fmt (lanesP r c 0) l) (elem r.fmt (lanesP r c 1) l))))

def execFmin (r : RecN) (s : State) : Outcome := fltMinmax r false s
def execFmax (r : RecN) (s : State) : Outcome := fltMinmax r true s

/-- FCMP (R216): n32 lanes and cond. -/
def execFcmp (r : RecN) (s : State) : Outcome :=
  fire s (formN r) 6 [0, 1] (badOpx 8 r) false (fun c =>
    let rel := r.hi.toNat
    let test := fun l => fRel rel (fcmp (fltAt r c 0 l) (fltAt r c 1 l))
    let p := lanePred r.ctl c
    { fltRes c 6 (fltLanes p (lanesP r c 0) (widthA c) (fun l =>
        (b2n (test l), flagIf (fRelNV rel (fltAt r c 0 l) (fltAt r c 1 l)) fNV))) with
      cond := (List.range (widthA c)).all (fun l => !predAt p l || test l) })

/-- FCLASS (R217). -/
def execFclass (r : RecN) (s : State) : Outcome :=
  fire s (formN r) 6 [0] (badOpx 1 r) false (fun c =>
    fltRes c 6 (fltLanes (lanePred r.ctl c) (lanesP r c 0) (widthA c) (fun l =>
      (fclassV r.fmt (elem r.fmt (lanesP r c 0) l), 0))))

def execFdiv (r : RecN) (s : State) : Outcome := fltSpecial r [0, 1] 14 fdivV s
def execFsqrt (r : RecN) (s : State) : Outcome := fltSpecial r [0] 14 (fun z a _ => fsqrtV z a) s
def execFrcp (r : RecN) (s : State) : Outcome := fltSpecial r [0] 10 (fun z a _ => rcpV z (frcpX a)) s
def execFrsq (r : RecN) (s : State) : Outcome := fltSpecial r [0] 10 (fun z a _ => rcpV z (frsqX a)) s
def execFrcpa (r : RecN) (s : State) : Outcome := fltSpecial r [0] 3 (fun z a _ => rcpAV z (frcpX a)) s
def execFrsqa (r : RecN) (s : State) : Outcome := fltSpecial r [0] 3 (fun z a _ => rcpAV z (frsqX a)) s
def execFexp2 (r : RecN) (s : State) : Outcome := fltSpecial r [0] 8 (fun z a _ => fexp2V z a) s
def execFlog2 (r : RecN) (s : State) : Outcome := fltSpecial r [0] 8 (fun z a _ => flog2V z a) s
def execFsinpi (r : RecN) (s : State) : Outcome := fltSpecial r [0] 12 (fun z a _ => fsinpiV z a) s
def execFcospi (r : RecN) (s : State) : Outcome := fltSpecial r [0] 12 (fun z a _ => fcospiV z a) s
def execFtanh (r : RecN) (s : State) : Outcome := fltSpecial r [0] 12 (fun z a _ => ftanhV z a) s

/-- FSCALE (R221): k is the bit pattern of b[l] as i32, LIT as i32 under LITUSE b. -/
def execFscale (r : RecN) (s : State) : Outcome :=
  fire s (formN r) r.fmt [0, 1] (badRnd r) false (fun c =>
    fltRes c r.fmt (fltLanes (lanePred r.ctl c) (lanesP r c 0) (widthA c) (fun l =>
      fscaleV r.fmt r.hi.toNat (srTop c.tag (seedOf s c) l) (fltAt r c 0 l)
        (sgn 32 (if r.ctl.lituse = 1 then r.lit.toNat else laneN (portTok c 1).lanes l)))))

def execFround (r : RecN) (s : State) : Outcome :=
  fltRnd r [0] (fun z a _ _ => froundV r.fmt r.hi.toNat z a) s

/-- FSGN (R218). -/
def execFsgn (r : RecN) (s : State) : Outcome :=
  fire s (formN r) r.fmt [0, 1] (badOpx 3 r) false (fun c =>
    fltRes c r.fmt (fltLanes (lanePred r.ctl c) (lanesP r c 0) (widthA c) (fun l =>
      fsgnV r.fmt r.hi.toNat (elem r.fmt (lanesP r c 0) l) (elem r.fmt (lanesP r c 1) l))))

end Sys2Proof.Machine
end

