-- ==== Sys2Proof/Machine/Integer.lean ====
section
/-!
DEFINITION. Class 0: integer and bit operations (09 R183 to R192). Each meaning is one call of a shared lane-wise
operation.
-/
namespace Sys2Proof.Machine

/-! ## Shared operations (09 R183) -/

/-- `sat(x)`: clamp to the range of the type (08 R181), as a pattern. -/
def satN (f : BitVec 4) (x : Int) : Nat :=
  let n := elemBits f
  let lo : Int := if isSigned f then -(2 ^ (n - 1) : Nat) else 0
  let hi : Int := if isSigned f then (2 ^ (n - 1) : Nat) - 1 else (2 ^ n : Nat) - 1
  wrapN n (max lo (min hi x))

/-- SAT selects saturation, else wrapping (09 R183). -/
def narrow (f : BitVec 4) (sat : Bool) (x : Int) : Nat := if sat then satN f x else wrapN (elemBits f) x

/-- A class 0 field that is not admitted: FMT above 7, MOD[87:85], SAT where the record has none, CF (09 R183). -/
def badInt (satOk : Bool) (r : RecN) : Bool :=
  !isIntTy r.fmt || decide (1 < r.hi.toNat) || (!satOk && r.hi != 0) || r.cf != 0

/-- The lanes of a lane-wise result, masked (02 R51). -/
def intLanes (r : RecN) (c : Cur) (g : Nat → Nat) : List Lane :=
  maskLanes (lanePred r.ctl c) (lanesP r c 0) (lanesOf r.fmt (widthA c) g)

/-- One value for both destinations, of the record's type. -/
def intRes (r : RecN) (c : Cur) (g : Nat → Nat) : Res :=
  both { tag := c.tag, ty := r.fmt, lanes := intLanes r c g }

/-- A lane-wise operation on patterns of a, b and c. -/
def intPat (r : RecN) (satOk : Bool) (base : List Nat) (g : Nat → Nat → Nat → Nat) (s : State) : Outcome :=
  fire s (formN r) r.fmt base (badInt satOk r) false (fun c =>
    intRes r c (fun i => g (elem r.fmt (lanesP r c 0) i) (elem r.fmt (lanesP r c 1) i) (elem r.fmt (lanesP r c 2) i)))

/-- A lane-wise operation on values of a, b and c, exact before the single wrap or sat (09 R184). -/
def intVal (r : RecN) (satOk : Bool) (base : List Nat) (g : Int → Int → Int → Int) (s : State) : Outcome :=
  fire s (formN r) r.fmt base (badInt satOk r) false (fun c =>
    intRes r c (fun i => narrow r.fmt (r.hi == 1)
      (g (elemInt r.fmt (lanesP r c 0) i) (elemInt r.fmt (lanesP r c 1) i) (elemInt r.fmt (lanesP r c 2) i))))

/-- Lanes of a pattern over the type's bits. -/
def ones (f : BitVec 4) : Nat := 2 ^ elemBits f - 1

/-- IDIV (09 R185): all ones for b = 0; the most negative value by −1 gives a. -/
def idivV (f : BitVec 4) (a b : Int) : Nat :=
  if b = 0 then ones f else wrapN (elemBits f) (a.tdiv b)

/-- IREM (09 R185): a for b = 0, and the dividend's sign. -/
def iremV (f : BitVec 4) (a b : Int) : Nat :=
  if b = 0 then wrapN (elemBits f) a else wrapN (elemBits f) (a.tmod b)

/-- A divide: delivered n / 2 + 2 cycles after issue (09 R185). -/
def intDiv (r : RecN) (g : BitVec 4 → Int → Int → Nat) (s : State) : Outcome :=
  fireLate s (formN r) r.fmt [0, 1] (badInt false r) false
    (fun c => intRes r c (fun i => g r.fmt (elemInt r.fmt (lanesP r c 0) i) (elemInt r.fmt (lanesP r c 1) i)))
    (fun _ => elemBits r.fmt / 2 + 2)

/-! ## Shifts and bit counts (09 R186) -/

/-- a × 2^k, wrapped or saturated by the signedness of the type. -/
def shlV (f : BitVec 4) (sat : Bool) (a : Nat) (k : Nat) : Nat :=
  let v : Int := if isSigned f then sgn (elemBits f) a else (a : Nat)
  if elemBits f ≤ k then (if sat then satN f (v * (2 ^ elemBits f : Nat)) else 0)
  else narrow f sat (v * (2 ^ k : Nat))

/-- Logical shift right. -/
def shrV (n a k : Nat) : Nat := if n ≤ k then 0 else a / 2 ^ k

/-- Arithmetic shift right, whatever the signedness of the type. -/
def sraV (n a k : Nat) : Nat := wrapN n (sgn n a / (2 ^ min k n : Nat))

/-- Rotate left by k mod n. -/
def rotV (n a k : Nat) : Nat :=
  let j := k % n
  a * 2 ^ j % 2 ^ n + a / 2 ^ (n - j)

/-- Zero bits above the highest one; n for 0. -/
def clzV (n a : Nat) : Nat := n - bitLen a

/-- One bits. -/
def popcV (n a : Nat) : Nat := (List.range n).foldl (fun t i => t + a / 2 ^ i % 2) 0

/-- Bit i into bit n − 1 − i. -/
def brevV (n a : Nat) : Nat := (List.range n).foldl (fun t i => t + a / 2 ^ i % 2 * 2 ^ (n - 1 - i)) 0

/-! ## Bit fields (09 R187) -/

/-- Field length λ, CF[6:0]. -/
def fieldLen (r : RecN) : Nat := r.cf.toNat

/-- BFX and BFI admit 1 ≤ λ ≤ n. -/
def badField (r : RecN) : Bool :=
  !isIntTy r.fmt || r.hi != 0 || decide (fieldLen r < 1) || decide (elemBits r.fmt < fieldLen r)

/-- Extract, sign-extended for an i type. -/
def bfxV (f : BitVec 4) (len a p : Nat) : Nat :=
  let x := shrV (elemBits f) a p % 2 ^ len
  if isSigned f then wrapN (elemBits f) (sgn len x) else x

/-- Insert: bits p .. min(p + λ, n) − 1 of a come from b. -/
def bfiV (n len a b p : Nat) : Nat :=
  if n ≤ p then a
  else
    let top := min (p + len) n
    let w := top - p
    a - put (bits a (top - 1) p) p + put (b % 2 ^ w) p

/-! ## The meanings (09 R184) -/

/-- NOP (R192): an empty port set; it never fires, and the step leaves everything as it is. Its FMT and the rest of MOD are
admitted as class 0 admits them (08 R173, R179; 09 R183), which a block meets as it is taken in. -/
def execNop (r : RecN) (s : State) : Outcome :=
  if !isIntTy r.fmt || r.hi != 0 then .next (faultCur s s.cur cILLEGAL 0) else .next s

def execIadd (r : RecN) (s : State) : Outcome := intVal r true [0, 1] (fun a b _ => a + b) s
def execIsub (r : RecN) (s : State) : Outcome := intVal r true [0, 1] (fun a b _ => a - b) s
def execImul (r : RecN) (s : State) : Outcome := intVal r true [0, 1] (fun a b _ => a * b) s
/-- IMULH: floor(a × b / 2^n). -/
def execImulh (r : RecN) (s : State) : Outcome :=
  intVal r false [0, 1] (fun a b _ => (a * b) / (2 ^ elemBits r.fmt : Nat)) s
def execImad (r : RecN) (s : State) : Outcome := intVal r true [0, 1, 2] (fun a b c => a * b + c) s
def execIdiv (r : RecN) (s : State) : Outcome := intDiv r idivV s
def execIrem (r : RecN) (s : State) : Outcome := intDiv r iremV s
def execImin (r : RecN) (s : State) : Outcome := intVal r false [0, 1] (fun a b _ => min a b) s
def execImax (r : RecN) (s : State) : Outcome := intVal r false [0, 1] (fun a b _ => max a b) s
def execIabs (r : RecN) (s : State) : Outcome := intVal r true [0] (fun a _ _ => a.natAbs) s
def execIneg (r : RecN) (s : State) : Outcome := intVal r true [0] (fun a _ _ => -a) s
def execAnd (r : RecN) (s : State) : Outcome := intPat r false [0, 1] (fun a b _ => a &&& b) s
def execOr (r : RecN) (s : State) : Outcome := intPat r false [0, 1] (fun a b _ => a ||| b) s
def execXor (r : RecN) (s : State) : Outcome := intPat r false [0, 1] (fun a b _ => a ^^^ b) s
/-- ANDN: a and not b. -/
def execAndn (r : RecN) (s : State) : Outcome := intPat r false [0, 1] (fun a b _ => a &&& (ones r.fmt - b)) s
def execShl (r : RecN) (s : State) : Outcome :=
  intPat r true [0, 1] (fun a b _ => shlV r.fmt (r.hi == 1) a b) s
def execShr (r : RecN) (s : State) : Outcome := intPat r false [0, 1] (fun a b _ => shrV (elemBits r.fmt) a b) s
def execSra (r : RecN) (s : State) : Outcome := intPat r false [0, 1] (fun a b _ => sraV (elemBits r.fmt) a b) s
def execRot (r : RecN) (s : State) : Outcome := intPat r false [0, 1] (fun a b _ => rotV (elemBits r.fmt) a b) s
def execClz (r : RecN) (s : State) : Outcome := intPat r false [0] (fun a _ _ => clzV (elemBits r.fmt) a) s
def execPopc (r : RecN) (s : State) : Outcome := intPat r false [0] (fun a _ _ => popcV (elemBits r.fmt) a) s
def execBrev (r : RecN) (s : State) : Outcome := intPat r false [0] (fun a _ _ => brevV (elemBits r.fmt) a) s

/-- BFX (R187): the position is b[l]. -/
def execBfx (r : RecN) (s : State) : Outcome :=
  fire s (formN r) r.fmt [0, 1] (badField r) false (fun c =>
    intRes r c (fun i => bfxV r.fmt (fieldLen r) (elem r.fmt (lanesP r c 0) i) (elem r.fmt (lanesP r c 1) i)))

/-- BFI (R187): the position is c[l]. -/
def execBfi (r : RecN) (s : State) : Outcome :=
  fire s (formN r) r.fmt [0, 1, 2] (badField r) false (fun c =>
    intRes r c (fun i => bfiV (elemBits r.fmt) (fieldLen r) (elem r.fmt (lanesP r c 0) i)
      (elem r.fmt (lanesP r c 1) i) (elem r.fmt (lanesP r c 2) i)))

/-- ICMP (R188): 1 in lanes where REL holds; cond over the lanes that a lane predicate lets through. A lane-wise result
of a 64-bit type has one element in two lanes. -/
def execIcmp (r : RecN) (s : State) : Outcome :=
  fire s (formN r) r.fmt [0, 1] (!isIntTy r.fmt || decide (5 < r.hi.toNat) || r.cf != 0) false (fun c =>
    let test := fun i => iRel r.hi.toNat (elemInt r.fmt (lanesP r c 0) i) (elemInt r.fmt (lanesP r c 1) i)
    let p := lanePred r.ctl c
    let e := widthA c / lanesPer r.fmt
    { intRes r c (fun i => b2n (test i)) with
      cond := (List.range e).all (fun i => !predAt p (i * lanesPer r.fmt) || test i) })

/-- SEL (R188): port c is read under its own TYPE; a width-1 c applies to every lane. -/
def execSel (r : RecN) (s : State) : Outcome :=
  fire s (formN r) r.fmt [0, 1, 2] (badInt false r) false (fun c =>
    let cond := fun i =>
      if r.ctl.lituse = 2 then elem r.fmt (lanesP r c 2) i
      else elem (portTok c 2).ty (portTok c 2).lanes (if (portTok c 2).lanes.length = 1 then 0 else i)
    intRes r c (fun i => if cond i ≠ 0 then elem r.fmt (lanesP r c 0) i else elem r.fmt (lanesP r c 1) i))

/-- ICLAMP (R188): min(max(a, b), c). -/
def execIclamp (r : RecN) (s : State) : Outcome := intVal r false [0, 1, 2] (fun a b c => min (max a b) c) s

/-- ADDR (R189): 64-bit bases on a, indices of type FMT on b, shift CF[2:0], displacement LIT; bits [63:56] are 0; TYPE n64. -/
def execAddr (r : RecN) (s : State) : Outcome :=
  fire s (formN r) 7 [0, 1]
    (!isIntTy r.fmt || r.hi != 0 || decide (7 < r.cf.toNat) || r.ctl.lituse != 0) false (fun c =>
    let a := (portTok c 0).lanes
    let b := (portTok c 1).lanes
    let v := fun j => wrapN 56 ((elem 7 a j : Nat) + elemInt r.fmt b j * (2 ^ r.cf.toNat : Nat) + sgn 32 r.lit.toNat)
    both { tag := c.tag, ty := 7, lanes := maskElems (lanePred r.ctl c) 2 a (lanesOf 7 (widthA c) v) })

/-- The type of twice the width and the same signedness (09 R190). -/
def wideTy (f : BitVec 4) : BitVec 4 := f + 1

/-- IADDW (R190): port b is narrow, a and the result wide. -/
def execIaddw (r : RecN) (s : State) : Outcome :=
  fire s (formN r) (wideTy r.fmt) [0, 1] (badInt true r || r.fmt == 3 || r.fmt == 7) false (fun c =>
    let a := (portTok c 0).lanes
    let b := lanesP r c 1
    let w := wideTy r.fmt
    let v := fun j => narrow w (r.hi == 1) (elemInt w a j + elemInt r.fmt b j)
    both { tag := c.tag, ty := w, lanes := maskElems (lanePred r.ctl c) (lanesPer w) a (lanesOf w (widthA c) v) })

/-- ICVT (R191): from the TYPE of port a, an integer type, to FMT. -/
def execIcvt (r : RecN) (s : State) : Outcome :=
  fire s (formN r) r.fmt [0] (badInt true r) false (fun c =>
    let t := portTok c 0
    if !isIntTy t.ty then { fault := some cILLEGAL }
    else
      let k := min (t.lanes.length / lanesPer t.ty) (32 / lanesPer r.fmt)
      let out := lanesOf r.fmt (k * lanesPer r.fmt) (fun i => narrow r.fmt (r.hi == 1) (elemInt t.ty t.lanes i))
      both { tag := c.tag, ty := r.fmt, lanes := maskElems (lanePred r.ctl c) (lanesPer r.fmt) t.lanes out })

end Sys2Proof.Machine
end

