-- ==== Sys2Proof/Machine/Lanes.lean ====
section
/-!
DEFINITION. Class 3 but CMPFWD and RANKADM: conversions, block packing, dot products, lane reductions, and the
movement, generation, joining and splitting of lanes (10 R222 to R234).
-/
namespace Sys2Proof.Machine

/-- OPX, MOD[87]. -/
def opx (r : RecN) : Bool := r.hi.getLsbD 3

/-- RND of a class 3 record, MOD[86:84]. -/
def rnd3 (r : RecN) : Nat := r.hi.toNat % 8

/-- A class 3 field that is not admitted (10 R222). -/
def bad3 (opxOk rndOk : Bool) (fmtOk : Bool) (r : RecN) : Bool :=
  !fmtOk || (!opxOk && opx r) || (if rndOk then decide (5 < rnd3 r) else rnd3 r != 0) || r.cf != 0

/-! ## Conversions (10 R223, R224) -/

/-- Float to float: exact when widening (10 R223). -/
def cvtV (ty : BitVec 4) (mode z : Nat) (a : FV) : FR :=
  match a with
  | .nan s => nanR ty s
  | .inf n => (infBits ty n, 0)
  | .fin x => rnd ty mode z x

/-- Float to integer: NaN gives 0, out of range saturates, both with NV (03 R72). -/
def ftoiV (ty : BitVec 4) (mode z : Nat) (a : FV) : FR :=
  match a with
  | .nan _ => (0, fNV)
  | .inf n => (satN ty (if n then -(2 ^ 64 : Nat) else (2 ^ 64 : Nat)), fNV)
  | .fin x =>
    let (n, inexact) := roundAt mode z x 0
    let v : Int := if x.neg then -(n : Int) else n
    let r := satN ty v
    if (if isSigned ty then sgn (elemBits ty) r else (r : Nat)) = v then (r, flagIf inexact fNX) else (r, fNV)

/-- CVT. -/
def execCvt (r : RecN) (s : State) : Outcome :=
  fire s (formN r) r.fmt [0] (bad3 false true (isFloatTy r.fmt) r) false (fun c =>
    let t := portTok c 0
    if !isFloatTy t.ty then { fault := some cILLEGAL }
    else fltRes c r.fmt (fltLanes (lanePred r.ctl c) t.lanes t.lanes.length (fun l =>
      cvtV r.fmt (rnd3 r) (srTop c.tag (seedOf s c) l) (fread t.ty (elem t.ty t.lanes l)))))

/-- Results that move elements: element `i` masked at its lowest lane; masked elements raise nothing (02 R51). -/
def elemRes (c : Cur) (k : Ctl) (ty : BitVec 4) (n : Nat) (g : Nat → FR) : Res :=
  let p := lanePred k c
  let lp := lanesPer ty
  let a := (portTok c 0).lanes
  { both { tag := c.tag, ty := ty, lanes := maskElems p lp a (lanesOf ty (n * lp) (fun i => (g i).1)) } with
    flags := (List.range n).foldl (fun f i => if predAt p (i * lp) then f ||| (g i).2 else f) 0 }

/-- FTOI (10 R224). -/
def execFtoi (r : RecN) (s : State) : Outcome :=
  fire s (formN r) r.fmt [0] (bad3 false true (isIntTy r.fmt) r) false (fun c =>
    let t := portTok c 0
    if !isFloatTy t.ty then { fault := some cILLEGAL }
    else elemRes c r.ctl r.fmt (min t.lanes.length (32 / lanesPer r.fmt)) (fun i =>
      ftoiV r.fmt (rnd3 r) (srTop c.tag (seedOf s c) i) (fread t.ty (elem t.ty t.lanes i))))

/-- ITOF (10 R224). -/
def execItof (r : RecN) (s : State) : Outcome :=
  fire s (formN r) r.fmt [0] (bad3 false true (isFloatTy r.fmt) r) false (fun c =>
    let t := portTok c 0
    if !isIntTy t.ty then { fault := some cILLEGAL }
    else elemRes c r.ctl r.fmt (t.lanes.length / lanesPer t.ty) (fun i =>
      let v := elemInt t.ty t.lanes i
      rnd r.fmt (rnd3 r) (srTop c.tag (seedOf s c) i) { neg := decide (v < 0), m := v.natAbs, e := 0 }))

/-! ## Block packing (03 R64 to R70, 10 R225, R226) -/

/-- floor(log2 |x|) of a nonzero finite value. -/
def exTop (x : Ex) : Int := x.e + (bitLen x.m : Int) - 1

/-- Greatest binade among the nonzero values of a list. -/
def topOf (xs : List FV) : Option Int :=
  xs.foldl (fun t v => match v with
    | .fin x => if x.m = 0 then t else some (match t with | none => exTop x | some y => max y (exTop x))
    | _ => t) none

/-- A packed block: its element string, scale word and flags. -/
structure Packed where
  str : Nat
  sw : Nat
  flags : BitVec 5
deriving DecidableEq, Repr, Inhabited

/-- `tobx` (03 R69): sixteen values, mantissa width m, mode, and the stochastic bits of element i. -/
def tobx (xs : List FV) (m mode : Nat) (z : Nat → Nat) : Packed :=
  if xs.any (fun v => match v with | .fin _ => false | _ => true) then
    { str := 0, sw := 255,
      flags := flagIf (xs.any (fun v => match v with | .inf _ => true | .nan b => b | _ => false)) fNV }
  else
    let e8 : Int := match topOf xs with
      | none => 0
      | some t => max 0 (min 254 (t + 127))
    let e := e8 - 127
    let tau := fun j => match topOf ((xs.drop (4 * j)).take 4) with
      | none => 3
      | some t => (max 0 (min 3 (e - t))).toNat
    let one := fun i =>
      match xs.getD i (.fin { neg := false, m := 0, e := 0 }) with
      | .fin x =>
        let q := e - (tau (i / 4) : Nat) - ((m : Int) - 1)
        let (n, inexact) := roundAt mode (z i) x q
        let n' := min n (2 ^ m - 1)
        (put (b2n x.neg) m + n', inexact || n' != n)
      | _ => (0, false)
    { str := (List.range 16).foldl (fun t i => t + put (one i).1 (i * (m + 1))) 0
      sw := e8.toNat + put (tau 0) 8 + put (tau 1) 10 + put (tau 2) 12 + put (tau 3) 14
      flags := (List.range 16).foldl (fun f i => f ||| flagIf (one i).2 fNX) 0 }

/-- Element `i` of a block's string under its scale word: `none` for E = 255 (03 R64). -/
def bxElem (m str sw i : Nat) : Option Ex :=
  if sw % 256 = 255 then none
  else
    let fld := str / 2 ^ (i * (m + 1)) % 2 ^ (m + 1)
    some { neg := bit fld m, m := fld % 2 ^ m,
           e := (sw % 256 : Nat) - 127 - (bits sw (9 + 2 * (i / 4)) (8 + 2 * (i / 4)) : Nat) - ((m : Int) - 1) }

/-- The string of block `b` in a token's lanes (03 R66). -/
def blockStr (ty : BitVec 4) (ls : List Lane) (b : Nat) : Nat :=
  let n := blockLanes ty
  (List.range n).foldl (fun t i => t + laneN ls (b * n + i) * 2 ^ (32 * i)) 0 % 2 ^ (16 * (blockM ty + 1))

/-- A string as `n` lanes. -/
def strLanes (n str : Nat) : List Lane := (List.range n).map (fun i => BitVec.ofNat 32 (str / 2 ^ (32 * i)))

/-- The scale word that the match holds for a side and a block (03 R68). -/
def scaleOf (c : Cur) (side b : Nat) : Nat :=
  match c.scales.find? (fun x => bits x.payload.toNat 19 19 == side && bits x.payload.toNat 18 16 == b) with
  | some x => x.payload.toNat % 65536
  | none => 0

/-- BXPACK (R225). A masked block is not converted: its result lanes hold a[l], and the scale word that d1 would
carry for it is a free value (log 27). D1 receives n16. -/
def execBxpack (r : RecN) (s : State) : Outcome :=
  fireNul { s with fresh := s.fresh + 2 } (formN r) r.fmt [0] (bad3 false true (isBlockTy r.fmt) r) false
    (fun c => (nullVal c r.fmt, nullVal c 5)) (fun c =>
    let t := portTok c 0
    if !isFloatTy t.ty then { fault := some cILLEGAL }
    else
      let m := blockM r.fmt
      let n := blockLanes r.fmt
      let nb := (t.lanes.length + 15) / 16
      let p := lanePred r.ctl c
      let blk := fun j => tobx
        ((List.range 16).map (fun i =>
          if 16 * j + i < t.lanes.length then fread t.ty (elem t.ty t.lanes (16 * j + i))
          else .fin { neg := false, m := 0, e := 0 })) m (rnd3 r)
        (fun i => srTop c.tag (seedOf s c) (16 * j + i))
      { v0 := some { tag := c.tag, ty := r.fmt,
                     lanes := maskElems p n t.lanes ((List.range nb).flatMap (fun j => strLanes n (blk j).str)) }
        v1 := some { tag := c.tag, ty := 5, lanes := (List.range nb).map (fun j =>
                       if predAt p (j * n) then BitVec.ofNat 32 (blk j).sw
                       else (Config.freeWord (s.fresh + j)).setWidth 32 &&& 0xFFFF) }
        flags := (List.range nb).foldl (fun f j => if predAt p (j * n) then f ||| (blk j).flags else f) 0 })

/-- BXUNPK (R226). -/
def execBxunpk (r : RecN) (s : State) : Outcome :=
  fire s (formN r) r.fmt [0]
    (!isFloatTy r.fmt || opx r || decide (5 < rnd3 r) || decide (3 < r.cf.toNat)) true (fun c =>
    let t := portTok c 0
    let nb := blockCountW t.ty t.lanes.length
    let p2 := 2 * (r.cf.toNat % 4)
    if !isBlockTy t.ty ∨ nb ≤ p2 then { fault := some cILLEGAL }
    else
      let q := min 2 (nb - p2)
      let p := lanePred r.ctl c
      let g : Nat → FR := fun i =>
        let j := p2 + i / 16
        match bxElem (blockM t.ty) (blockStr t.ty t.lanes j) (scaleOf c 0 j) (i % 16) with
        | none => (cNaN r.fmt, 0)
        | some x => rnd r.fmt (rnd3 r) (srTop c.tag (seedOf s c) (16 * j + i % 16)) x
      { both { tag := c.tag, ty := r.fmt,
               lanes := maskElems p 16 t.lanes ((List.range (16 * q)).map (fun i => BitVec.ofNat 32 (g i).1)) } with
        flags := (List.range (16 * q)).foldl (fun f i => if predAt p (i / 16 * 16) then f ||| (g i).2 else f) 0 })

/-! ## Dot products (03 R77, 10 R227) -/

/-- A value carried through a chain of steps with the flags so far. -/
abbrev Acc := Nat × BitVec 5

/-- acc + x for patterns of f32 under ne. -/
def accAdd (acc : Acc) (x : FV) : Acc :=
  let r := fadd 10 0 0 (fread 10 acc.1) x
  (r.1, acc.2 ||| r.2)

/-- The step of 03 R77: the exact sum of sixteen products, one rounding to f32, one addition; the fixed-point sum has no
sign of zero. -/
def blockStep (m strA swA strB swB : Nat) (acc : Acc) : Acc :=
  if swA % 256 = 255 ∨ swB % 256 = 255 then (cNaN 10, acc.2 ||| fNV)
  else
    let q : Int := -1000
    let sum := (List.range 16).foldl (fun (t : Int) i =>
      match bxElem m strA swA i, bxElem m strB swB i with
      | some x, some y => t + exAt (exMul x y) q
      | _, _ => t) 0
    let r := rnd 10 0 0 { neg := decide (sum < 0), m := sum.natAbs, e := q }
    let z := fadd 10 0 0 (fread 10 acc.1) (fread 10 r.1)
    (z.1, acc.2 ||| r.2 ||| z.2)

/-- acc + a × b with one rounding (10 R227). -/
def macStep (ty : BitVec 4) (a b : Nat) (acc : Acc) : Acc :=
  let r := ffma 10 0 0 (fread ty a) (fread ty b) (fread 10 acc.1)
  (r.1, acc.2 ||| r.2)

/-- Terms that a DOT combines: elements, or blocks. -/
def dotTerms (a b : Token) : Nat :=
  if isBlockTy a.ty then min (blockCountW a.ty a.lanes.length) (blockCountW b.ty b.lanes.length)
  else min a.lanes.length b.lanes.length

/-- DOT (R227), delivered after 1 + ceil(n / 8) cycles. -/
def execDot (r : RecN) (s : State) : Outcome :=
  fireLate s (formN r) r.fmt [0, 1, 2] (bad3 false false (r.fmt == 10) r) true (fun c =>
    let a := portTok c 0
    let b := portTok c 1
    let bTy := if r.ctl.lituse = 1 then r.fmt else b.ty
    if a.ty ≠ bTy ∨ !(isFloatTy a.ty || isBlockTy a.ty) then { fault := some cILLEGAL }
    else
      let acc0 : Acc := (laneN (lanesP r c 2) 0, 0)
      let n := dotTerms a { b with lanes := lanesP r c 1 }
      let acc :=
        if isBlockTy a.ty then
          (List.range n).foldl (fun acc j =>
            blockStep (blockM a.ty) (blockStr a.ty a.lanes j) (scaleOf c 0 j)
              (blockStr a.ty b.lanes j) (scaleOf c 1 j) acc) acc0
        else
          (List.range n).foldl (fun acc i =>
            macStep a.ty (elem a.ty a.lanes i) (elem a.ty (lanesP r c 1) i) acc) acc0
      { both { tag := c.tag, ty := 10, lanes := word1 acc.1 } with flags := acc.2 })
    (fun c => 1 + (dotTerms (portTok c 0) { portTok c 1 with lanes := lanesP r c 1 } + 7) / 8)

/-! ## Reductions and scans (10 R228, R229) -/

/-- Prefix sums of floats with flags, from the canonicalised first element. -/
def fltScan (f : BitVec 4) (ls : List Lane) (n : Nat) : List Nat × BitVec 5 :=
  (List.range n).foldl (fun (st : List Nat × BitVec 5) i =>
    let x := fread f (elem f ls i)
    let r := if i = 0 then cvtV f 0 0 x else fadd f 0 0 (fread f (st.1.getLastD 0)) x
    (st.1 ++ [r.1], st.2 ||| r.2)) ([], 0)

/-- Prefix sums of integers, exact. -/
def intScan (f : BitVec 4) (ls : List Lane) (n : Nat) : List Int :=
  (List.range n).foldl (fun (st : List Int) i => st ++ [st.getLastD 0 + elemInt f ls i]) []

/-- LSUM (R228). -/
def execLsum (r : RecN) (s : State) : Outcome :=
  fire s (formN r) r.fmt [0] (bad3 (isIntTy r.fmt) false (decide (r.fmt.toNat ≤ 10)) r) false (fun c =>
    let a := (portTok c 0).lanes
    let e := a.length / lanesPer r.fmt
    let p := lanePred r.ctl c
    if isFloatTy r.fmt then
      let x := fltScan r.fmt a e
      fltRes c r.fmt (maskLanes p a (word1 (x.1.getLastD 0)), if predAt p 0 then x.2 else 0)
    else
      both { tag := c.tag, ty := r.fmt, lanes := maskLanes p a (lanesOf r.fmt (lanesPer r.fmt) (fun _ =>
        narrow r.fmt (opx r) ((intScan r.fmt a e).getLastD 0))) })

/-- LSCAN (R228): inclusive, or exclusive from the identity. -/
def execLscan (r : RecN) (s : State) : Outcome :=
  fire s (formN r) r.fmt [0] (bad3 true false (decide (r.fmt.toNat ≤ 10)) r) false (fun c =>
    let a := (portTok c 0).lanes
    let e := a.length / lanesPer r.fmt
    let p := lanePred r.ctl c
    let at_ := fun (g : Nat → Nat) i => if opx r then (if i = 0 then 0 else g (i - 1)) else g i
    if isFloatTy r.fmt then
      let x := fltScan r.fmt a e
      fltRes c r.fmt (maskLanes p a (lanesOf r.fmt a.length (at_ (fun i => x.1.getD i 0))), x.2)
    else
      let x := intScan r.fmt a e
      both { tag := c.tag, ty := r.fmt,
             lanes := maskLanes p a (lanesOf r.fmt a.length (at_ (fun i => wrapN (elemBits r.fmt) (x.getD i 0)))) })

/-- Whether element `y` beats the best so far: the order of LMAX and LMIN (R229). -/
def beats (f : BitVec 4) (max : Bool) (y best : Nat) : Bool :=
  if isFloatTy f then
    if isNanV (fread f y) then false
    else if isNanV (fread f best) then true
    else if max then decide (fltKey f best < fltKey f y) else decide (fltKey f y < fltKey f best)
  else
    let sy : Int := if isSigned f then sgn (elemBits f) y else (y : Nat)
    let sb : Int := if isSigned f then sgn (elemBits f) best else (best : Nat)
    if max then decide (sb < sy) else decide (sy < sb)

/-- LMAX and LMIN (R229). -/
def laneExtreme (r : RecN) (max : Bool) (s : State) : Outcome :=
  fire s (formN r) r.fmt [0] (bad3 true false (decide (r.fmt.toNat ≤ 10)) r) false (fun c =>
    let a := (portTok c 0).lanes
    let e := a.length / lanesPer r.fmt
    let p := lanePred r.ctl c
    let best := (List.range e).foldl (fun (st : Nat × Nat) i =>
      if beats r.fmt max (elem r.fmt a i) st.1 then (elem r.fmt a i, i) else st) (elem r.fmt a 0, 0)
    let v := if isFloatTy r.fmt ∧ isNanV (fread r.fmt best.1) then cNaN r.fmt else best.1
    let out := lanesOf r.fmt (lanesPer r.fmt) (fun _ => v) ++ (if opx r then word1 best.2 else [])
    let nv := isFloatTy r.fmt && (List.range e).any (fun i => isSnan (fread r.fmt (elem r.fmt a i)))
    fltRes c r.fmt (maskLanes p a out, flagIf (nv && predAt p 0) fNV))

def execLmax (r : RecN) (s : State) : Outcome := laneExtreme r true s
def execLmin (r : RecN) (s : State) : Outcome := laneExtreme r false s

/-! ## Lane movement and generation (10 R230 to R232) -/

/-- A move's value: the TYPE, EOR and SNAP of port a (10 R222). -/
def moveVal (c : Cur) (lanes : List Lane) : Val :=
  { tag := c.tag, ty := (portTok c 0).ty, lanes := lanes, eor := (portTok c 0).eor, snap := (portTok c 0).snap }

/-- The nulls of a lane move: those of port a (10 R222). -/
def laneNulls (c : Cur) : Val × Val := (moveNull c (portTok c 0), moveNull c (portTok c 0))

/-- SHUF (R230). -/
def execShuf (r : RecN) (s : State) : Outcome :=
  fireNul s (formN r) r.fmt [0, 1] (bad3 true false (r.fmt == 0) r) true laneNulls (fun c =>
    let a := (portTok c 0).lanes
    let idx := fun l => if r.ctl.lituse = 1 then r.lit.toNat else laneN (portTok c 1).lanes l
    let w := if opx r ∨ r.ctl.lituse = 1 then a.length else (portTok c 1).lanes.length
    let out := (List.range w).map (fun l =>
      a.getD (if opx r then Nat.xor l (idx l % 32) else idx l) 0)
    both (moveVal c (maskLanes (lanePred r.ctl c) a out)))

/-- BCAST (R231). -/
def execBcast (r : RecN) (s : State) : Outcome :=
  let l := r.lit.toNat
  fireNul s (formN r) r.fmt [0]
    (bad3 true false (r.fmt == 0) r || bits l 7 5 != 0 || bits l 31 13 != 0 || r.ctl.lituse != 0) true laneNulls (fun c =>
    let a := (portTok c 0).lanes
    let k := l % 32
    let out := (List.range (bits l 12 8 + 1)).map (fun i => a.getD (if opx r then 2 * k + i % 2 else k) 0)
    both (moveVal c (maskLanes (lanePred r.ctl c) a out)))

/-- IOTA (R232). -/
def execIota (r : RecN) (s : State) : Outcome :=
  let l := r.lit.toNat
  fire s (formN r) r.fmt [0]
    (bad3 false false (isIntTy r.fmt && lanesPer r.fmt == 1) r || bits l 31 21 != 0 || r.ctl.lituse != 0) false
    (fun c =>
      let a := (portTok c 0).lanes
      let out := lanesOf r.fmt (bits l 20 16 + 1) (fun i =>
        wrapN (elemBits r.fmt) (elemInt r.fmt a 0 + (i : Nat) * sgn 16 l))
      both { tag := c.tag, ty := r.fmt, lanes := maskLanes (lanePred r.ctl c) a out })

/-- LMASK (R232): port a has TYPE n32 (R222). -/
def execLmask (r : RecN) (s : State) : Outcome :=
  let l := r.lit.toNat
  fire s (formN r) r.fmt [0] (bad3 true false (r.fmt == 6) r || bits l 31 5 != 0 || r.ctl.lituse != 0) false (fun c =>
    let a := (portTok c 0).lanes
    let n := laneN a 0
    let out := (List.range (l % 32 + 1)).map (fun i =>
      BitVec.ofNat 32 (if opx r then b2n (bit n i) else if i < n then 1 else 0))
    if (portTok c 0).ty ≠ 6 then { fault := some cILLEGAL } else
    both { tag := c.tag, ty := 6, lanes := maskLanes (lanePred r.ctl c) a out })

/-! ## Joining and splitting colours (10 R233, R234; 16 R338) -/

/-- The packing write of PACKC: PK, PARTNER and SPLIT, and A's grant raised (16 R338). -/
def packWrite (s : State) (part a b wa wb : Nat) : State :=
  let e := colourAt s part a
  setColour s part a (withGrant s part a { e with pk := true, partner := b, split := wa } (wa + wb))

/-- The packing write at the colour point (16 R331, R338). -/
def packServe (c : Cur) (s : State) : State :=
  packWrite s (partOf s (matchCtx s c.p c.plane c.tag)) (colourOf (portTok c 0).tag) (colourOf (portTok c 1).tag)
    (portTok c 0).lanes.length (portTok c 1).lanes.length

/-- The firing of PACKC (R233): both operands are values. What it writes into the colour table goes to the colour point (16 R331); its
result is as wide as the grant that this gives. -/
def packFire (r : RecN) (s : State) : State :=
  let c := s.cur
  let a := portTok c 0
  let b := portTok c 1
  let ca := colourOf a.tag
  let cb := colourOf b.tag
  let part := partOf s (matchCtx s c.p c.plane c.tag)
  let wa := a.lanes.length
  let wb := b.lanes.length
  let e := colourAt s part ca
  if 32 < wa + wb ∨ a.ty ≠ b.ty then faultCur s c cILLEGAL 0
  else if ca ≠ cb ∧ e.pk ∧ ¬ (e.partner = cb ∧ e.split = wa) then faultCur s c cILLEGAL 0
  else
    let v : Val := { tag := a.tag, ty := a.ty,
                     lanes := maskLanes (lanePred r.ctl c) a.lanes (a.lanes ++ b.lanes),
                     eor := a.eor || b.eor, snap := a.snap || b.snap }
    if ca = cb then emitRes s c (formN r) r.fmt (both v)
    else sends (askPoint s 0 0 (.packc r) c) c (resSends c (formN r) r.fmt (both v))

/-- The null of PACKC: TYPE and width of port a, EOR and SNAP of either operand (R233). -/
def packNull (c : Cur) : Val :=
  { moveNull c (portTok c 0) with eor := (portTok c 0).eor || (portTok c 1).eor, snap := (portTok c 0).snap || (portTok c 1).snap }

/-- PACKC (R233). -/
def execPackc (r : RecN) (s : State) : Outcome :=
  let c := s.cur
  let ps := portSet [0, 1] r.ctl
  if !hasPorts c ps then .refused .noMatch
  else if bad3 false false (r.fmt == 0) r || badCtl [0, 1] r.ctl || r.ctl.lituse != 0 then
    .next (faultCur s c cILLEGAL 0)
  else if anyNull c ps then .next (if r.ctl.nullpass then sendNulls s c (formN r) (packNull c) (packNull c) else s)
  else if predFalse r.ctl c then .next (sendNulls s c (formN r) (packNull c) (packNull c))
  else .next (packFire r s)

/-- UNPACKC (R234). -/
def execUnpackc (r : RecN) (s : State) : Outcome :=
  fireNul s (formN r) r.fmt [0]
    (bad3 true false (r.fmt == 0) r || (opx r && (bits r.lit.toNat 31 5 != 0 || r.lit.toNat % 32 == 0)) || r.ctl.lituse != 0) true
    laneNulls (fun c =>
    let t := portTok c 0
    let w := t.lanes.length
    let part := partOf s (matchCtx s c.p c.plane c.tag)
    let e := colourAt s part (colourOf c.tag)
    let k := if opx r then r.lit.toNat % 32 else e.split
    let tagB : Word64 := BitVec.ofNat 64 (put e.partner 52 + c.tag.toNat % 2 ^ 52)
    let ls := maskLanes (lanePred r.ctl c) t.lanes t.lanes
    if (opx r && decide (w ≤ k)) || (!opx r && (!e.pk || w != e.gwm1 + 1)) then { fault := some cILLEGAL }
    else { v0 := some (moveVal c (ls.take k))
           v1 := some { moveVal c (ls.drop k) with tag := if opx r then c.tag else tagB } })

end Sys2Proof.Machine
end

