-- ==== Sys2Proof/Machine/Tokens.lean ====
section
/-!
DEFINITION. Class 1: moves, tags, windows, runs, and the records of scribe blocks (09 R193 to R210).
-/
namespace Sys2Proof.Machine

/-! ## Shared operations (09 R193) -/

/-- LEVEL, MOD[86:84]. -/
def levelOf (r : RecN) : Nat := r.hi.toNat % 8

/-- A class 1 field that is not admitted: OPX, LEVEL or CF where the record has none (09 R193). -/
def bad1 (opxOk levelOk : Bool) (r : RecN) : Bool :=
  (!opxOk && opx r) || (!levelOk && levelOf r != 0) || r.cf != 0

/-- A move requires FMT 0. -/
def badMove (opxOk levelOk : Bool) (r : RecN) : Bool := bad1 opxOk levelOk r || r.fmt != 0

/-- LEVEL at or beyond the levels of the layout (09 R193). -/
def badLevel (s : State) (r : RecN) : Bool := decide ((layoutOf s s.cur.p s.cur.plane).length ≤ levelOf r)

/-- Both destinations get the null of a move. -/
def moveNulls (s : State) (c : Cur) (f : Form) (t : Token) : State := sendNulls s c f (moveNull c t) (moveNull c t)

/-- A value passed by a move: TYPE, lanes, EOR and SNAP of operand `t`; masked lanes keep port a's (02 R51). -/
def passVal (k : Ctl) (c : Cur) (t : Token) : Val :=
  { tag := c.tag, ty := t.ty, lanes := maskLanes (lanePred k c) (portTok c 0).lanes t.lanes, eor := t.eor,
    snap := t.snap }

/-- Port `k` as a token, the literal as FMT in every lane of port a's width (08 R164). -/
def opTok (r : RecN) (c : Cur) (k : Nat) : Token :=
  if (r.ctl.lituse = 1 ∧ k = 1) ∨ (r.ctl.lituse = 2 ∧ k = 2) then { ty := r.fmt, lanes := lanesP r c k }
  else portTok c k

/-- The firing of a move (02 R51, 09 R193): block types pass (03 R80). -/
def moveFire (s : State) (r : RecN) (base : List Nat) (bad : Bool) (op : Cur → Res) : Outcome :=
  let c := s.cur
  let ps := portSet base r.ctl
  if !hasPorts c ps then .refused .noMatch
  else if bad || badCtl base r.ctl then .next (faultCur s c cILLEGAL 0)
  else if anyNull c ps then .next (if r.ctl.nullpass then moveNulls s c (formN r) (portTok c 0) else s)
  else if predFalse r.ctl c then .next (moveNulls s c (formN r) (portTok c 0))
  else .next (emitRes s c (formN r) (portTok c 0).ty (op c))

/-! ## COPY to VOID (09 R194, R195) -/

def execCopy (r : RecN) (s : State) : Outcome :=
  moveFire s r [0] (badMove false false r) (fun c => both (passVal r.ctl c (portTok c 0)))

/-- CONST: the literal in every lane, at a's width and tag. -/
def execConst (r : RecN) (s : State) : Outcome :=
  fire s (formN r) r.fmt [0] (bad1 false false r || decide (10 < r.fmt.toNat) || r.ctl.lituse != 0) false (fun c =>
    both { tag := c.tag, ty := r.fmt,
           lanes := maskLanes (lanePred r.ctl c) (portTok c 0).lanes
             (lanesOf r.fmt (widthA c) (fun _ => litVal r.fmt r.lit)) })

/-- SINK: consumes a and sends nothing. -/
def execSink (r : RecN) (s : State) : Outcome :=
  let c := s.cur
  if !hasPorts c (portSet [0] r.ctl) then .refused .noMatch
  else if bad1 false false r || r.fmt != 0 || badCtl [0] r.ctl then .next (faultCur s c cILLEGAL 0)
  else .next s

def execGate (r : RecN) (s : State) : Outcome :=
  moveFire s r [0, 1] (badMove false false r) (fun c => both (passVal r.ctl c (portTok c 0)))

/-- JOIN: a to d0 and b to d1, and so with its nulls. -/
def execJoin (r : RecN) (s : State) : Outcome :=
  let c := s.cur
  let ps := portSet [0, 1] r.ctl
  let nuls := sendNulls s c (formN r) (moveNull c (portTok c 0)) (moveNull c (opTok r c 1))
  if !hasPorts c ps then .refused .noMatch
  else if badMove false false r || badCtl [0, 1] r.ctl then .next (faultCur s c cILLEGAL 0)
  else if anyNull c ps then .next (if r.ctl.nullpass then nuls else s)
  else if predFalse r.ctl c then .next nuls
  else .next (emitRes s c (formN r) (portTok c 0).ty
    { v0 := some (passVal r.ctl c (portTok c 0)), v1 := some (passVal r.ctl c (opTok r c 1)) })

/-- VOID: a null with a's tag, TYPE, width, EOR and SNAP (R193). -/
def execVoid (r : RecN) (s : State) : Outcome :=
  moveFire s r [0] (badMove false false r) (fun c => both (moveNull c (portTok c 0)))

/-! ## Steering (09 R196, R197) -/

/-- cond of STEER. -/
def steerCond (r : RecN) (c : Cur) : Bool := laneN (lanesP r c 1) 0 != 0

/-- A null on port a with a value on port b: it follows cond (R196). -/
def steerNull (r : RecN) (c : Cur) : List Send :=
  let go := fun (d : Dest) (code : BitVec 2) =>
    if emits code (steerCond r c) || code == 3 || opx r then [valSend d false (moveNull c (portTok c 0))] else []
  go r.d0 r.ctl.emit0 ++ go r.d1 r.ctl.emit1

/-- STEER. -/
def execSteer (r : RecN) (s : State) : Outcome :=
  let c := s.cur
  let ps := portSet [0, 1] r.ctl
  if !hasPorts c ps then .refused .noMatch
  else if badMove true false r || badCtl [0, 1] r.ctl then .next (faultCur s c cILLEGAL 0)
  else if (portTok c 0).null && !(anyNull c (ps.filter (· != 0))) then
    .next (if r.ctl.nullpass then sendAll s c (steerNull r c) else s)
  else if anyNull c ps then .next (if r.ctl.nullpass then moveNulls s c (formN r) (portTok c 0) else s)
  else if predFalse r.ctl c then .next (moveNulls s c (formN r) (portTok c 0))
  else .next (emitRes s c (formN r) (portTok c 0).ty
    { both (passVal r.ctl c (portTok c 0)) with cond := steerCond r c, voids := opx r })

/-- The Boolean of MERGE: true selects a. -/
def mergeSel (r : RecN) (c : Cur) : Bool := laneN (lanesP r c 2) 0 != 0

/-- The port that MERGE passes. -/
def mergePort (r : RecN) (c : Cur) : Nat := if mergeSel r c then 0 else 1

/-- Ports that MERGE needs: all with OPX 1, else c and the selected one (R197); a null c selects none (log 13). -/
def mergePorts (r : RecN) (c : Cur) : List Nat :=
  portSet [0, 1, 2] r.ctl |>.filter (fun k => opx r || k == 2 || (k == mergePort r c && !(opTok r c 2).null))

/-- MERGE. -/
def execMerge (r : RecN) (s : State) : Outcome :=
  let c := s.cur
  let t := opTok r c (mergePort r c)
  if !hasPorts c (mergePorts r c) then .refused .noMatch
  else if badMove true false r || badCtl [0, 1, 2] r.ctl then .next (faultCur s c cILLEGAL 0)
  else if (opTok r c 2).null then .next (if r.ctl.nullpass then moveNulls s c (formN r) (opTok r c 2) else s)
  else if t.null then .next (if r.ctl.nullpass then moveNulls s c (formN r) t else s)
  else .next (emitRes s c (formN r) t.ty (both { passVal r.ctl c t with lanes := t.lanes }))

/-! ## Levels (02 R36; 09 R198) -/

/-- The value of a passed under a new tag. -/
def retag (r : RecN) (c : Cur) (tag : Word64) : Val := { passVal r.ctl c (portTok c 0) with tag := tag }

/-- ENTER: field j := 0; d1 gets a window token when L ≠ 0. -/
def execEnter (r : RecN) (s : State) : Outcome :=
  let lay := layoutOf s s.cur.p s.cur.plane
  let l := r.lit.toNat % 65536
  moveFire s r [0]
    (badMove false true r || badLevel s r || decide (2 ^ (levelWidth lay (levelOf r) - 1) < l) ||
      r.lit.toNat / 65536 != 0 || r.ctl.lituse != 0) (fun c =>
    let tag := setfld lay c.tag (levelOf r) 0
    { v0 := some (retag r c tag)
      v1 := some (if l = 0 then retag r c tag else { tag := tag, ty := 6, lanes := word1 l }) })

/-- WAVE: field j + 1. -/
def execWave (r : RecN) (s : State) : Outcome :=
  let lay := layoutOf s s.cur.p s.cur.plane
  moveFire s r [0] (badMove false true r || badLevel s r || r.lit != 0) (fun c =>
    both (retag r c (setfld lay c.tag (levelOf r) (fld lay c.tag (levelOf r) + 1))))

/-- LEAVE: field j := 0. -/
def execLeave (r : RecN) (s : State) : Outcome :=
  let lay := layoutOf s s.cur.p s.cur.plane
  moveFire s r [0] (badMove false true r || badLevel s r || r.lit != 0) (fun c =>
    both (retag r c (setfld lay c.tag (levelOf r) 0)))

/-! ## THROTTLE (09 R199 to R201) -/

/-- A window entry after a change: freed when its end of run was seen and C = L. -/
def thrPut (n : Nib) (i : Nat) (e : ThrEntry) : Nib :=
  { n with thr := if e.eorSeen ∧ e.credits = e.window then dropAt n.thr i else setAt n.thr i e }

/-- THROTTLE_CREDIT (R200): a port-b token opens an entry or adds credits; a null adds 0. One that needs an entry and
finds no free row waits on its link. -/
def execThrottleCredit (s : State) : Outcome :=
  match s.transit[s.sel.k]? with
  | none => notNow
  | some f =>
    let site := f.tok.site.toNat
    let plane := planeAt s f.p f.tok
    if f.queued || f.tok.snap || !isCredit s f || behindOwn s s.sel.k f || entryLate s f ||
        entryShut s (matchCtx s f.p plane f.tok.tag) then notNow
    else
      let s1 := noteTook { s with transit := dropAt s.transit s.sel.k } f
      if !admits s f.p f.tok.tag then .next (postTok s1 f.p site cTAG f.tok)
      else if site ≠ 240 ∧ !planeRuns s f.p plane then .next (discardTok s1 f.p site f.tok)
      else
        let node := f.tok.node.toNat
        let w := recAt s f.p site plane node
        if !(portsOf w).contains 1 then .next (discardTok s1 f.p site f.tok)
        else
          let n := nibAt s1 f.p site
          let base := baseTag s f.p plane f.tok.tag (entryLevel w)
          let v := if f.tok.null then 0 else laneN f.tok.lanes 0
          match idxOf (fun e => e.plane == plane && e.node == node && e.base == base) n.thr with
          | some i =>
            match n.thr[i]? with
            | some e =>
              .next (settle (setNib s1 f.p site (thrPut n i { e with credits := min (e.credits + v) 65535 })) f.p site)
            | none => notNow
          | none =>
            if !rowFree s f.p site plane f.tok.tag then notNow
            else
              let e : ThrEntry := { plane := plane, node := node, base := base, credits := min v 65535, window := v,
                                    eorSeen := false }
              .next (settle (setNib s1 f.p site { n with thr := n.thr ++ [e] }) f.p site)

/-- The admission of a port-a token against a credit. -/
def throttleFire (r : RecN) (s : State) (n : Nib) (i : Nat) (e : ThrEntry) : State :=
  let c := s.cur
  let t := portTok c 0
  let s1 := setNib s c.p c.site (thrPut n i { e with credits := e.credits - 1, eorSeen := e.eorSeen || t.eor })
  let s2 := if t.null then (if r.ctl.nullpass then moveNulls s1 c (formN r) t else s1)
    else emitRes s1 c (formN r) t.ty (both (passVal r.ctl c t))
  settle s2 c.p c.site

/-- THROTTLE_ADMIT (R200): with no entry or no credit the token goes back to its row, before those that arrived after it. -/
def execThrottleAdmit (r : RecN) (s : State) : Outcome :=
  let c := s.cur
  let n := nibAt s c.p c.site
  let base := baseTag s c.p c.plane c.tag (levelOf r)
  if !hasPorts c [0] then .refused .noMatch
  else if badMove false true r || badLevel s r || badCtl [0, 1] r.ctl || r.ctl.pred then
    .next (settle (faultCur s c cILLEGAL 0) c.p c.site)
  else
    match idxOf (fun e => e.plane == c.plane && e.node == c.node && e.base == base && decide (0 < e.credits)) n.thr with
    | some i =>
      match n.thr[i]? with
      | some e => .next (throttleFire r s n i e)
      | none => .next s
    | none =>
      let g : Group := { plane := c.plane, node := c.node, tag := keyTag s c.p c.tag, ops := c.ops }
      .next (setNib s c.p c.site { n with groups := g :: n.groups })

/-! ## REPEAT (09 R202) -/

/-- Free the sticky row of a base, for the next invariant and its waiting tokens. -/
def freeSticky (s : State) (p site plane node : Nat) (base : Word64) : State :=
  let n := nibAt s p site
  settle (setNib s p site
    { n with sticky := n.sticky.filter (fun e => !(e.plane == plane && e.node == node && e.base == base)) }) p site

/-- REPEAT: one match per port-b token; tag and EOR come from it. -/
def execRepeat (r : RecN) (s : State) : Outcome :=
  let c := s.cur
  let a := portTok c 0
  let b := opTok r c 1
  let v : Val := { passVal r.ctl c a with eor := b.eor, snap := false }
  if !hasPorts c (portSet [0, 1] r.ctl) then .refused .noMatch
  else if badMove false true r || badLevel s r || badCtl [0, 1] r.ctl then .next (faultCur s c cILLEGAL 0)
  else
    let s1 :=
      if anyNull c (portSet [0, 1] r.ctl) then
        (if r.ctl.nullpass then moveNulls s c (formN r) { a with eor := b.eor } else s)
      else if predFalse r.ctl c then moveNulls s c (formN r) { a with eor := b.eor }
      else emitRes s c (formN r) a.ty (both v)
    .next (if b.eor then freeSticky s1 c.p c.site c.plane c.node (baseTag s c.p c.plane c.tag (levelOf r)) else s1)

/-! ## Tag values, ranges and runs (09 R203 to R205) -/

/-- TAGGET. -/
def execTagget (r : RecN) (s : State) : Outcome :=
  let lay := layoutOf s s.cur.p s.cur.plane
  fire s (formN r) (if opx r then 6 else 7) [0]
    (bad1 true (opx r) r || r.fmt != 0 || (opx r && badLevel s r)) false (fun c =>
    let out := if opx r then word1 (fld lay c.tag (levelOf r)) else wordsLanes [c.tag.toNat]
    both { tag := c.tag, ty := if opx r then 6 else 7,
           lanes := maskLanes (lanePred r.ctl c) (portTok c 0).lanes out })

/-- TAGSET: the colour never changes. -/
def execTagset (r : RecN) (s : State) : Outcome :=
  let lay := layoutOf s s.cur.p s.cur.plane
  moveFire s r [0, 1] (badMove true (opx r) r || (opx r && badLevel s r)) (fun c =>
    let b := lanesP r c 1
    let tag := if opx r then setfld lay c.tag (levelOf r) (laneN b 0)
      else BitVec.ofNat 64 (put (colourOf c.tag) 52 + (laneN b 0 + laneN b 1 * 2 ^ 32) % 2 ^ 52)
    both (retag r c tag))

/-- A generator in progress, first on its plane's ready list with this cycle as completion cycle (09 R204). -/
def startGen (s : State) (c : Cur) (f : Form) (level : Nat) (kind : GenKind) (arg : Token) : State :=
  let n := nibAt s c.p c.site
  let g : Gen := { plane := c.plane, node := c.node, tag := c.tag, level := level, kind := kind, arg := arg, next := 0,
                   d0 := f.d0, d1 := f.d1, ctl := f.ctl, poison := curPoison c, last := s.cycle, late := c.late }
  settle (setNib s c.p c.site { n with gens := n.gens ++ [g] }) c.p c.site

/-- RANGE with a value on port a: N tokens, or one null for N = 0 (R204). -/
def rangeFire (r : RecN) (s : State) (c : Cur) : State :=
  let lay := layoutOf s c.p c.plane
  let nn := laneN (portTok c 0).lanes 0
  if 2 ^ levelWidth lay (levelOf r) < nn then faultCur s c cILLEGAL 0
  else if nn = 0 then
    emitRes s c (formN r) r.fmt
      (both { tag := setfld lay c.tag (levelOf r) 0, ty := r.fmt, lanes := [0], null := true, eor := true })
  else startGen s c (formN r) (levelOf r) (.range r.fmt nn) (portTok c 0)

/-- RANGE. -/
def execRange (r : RecN) (s : State) : Outcome :=
  fireWith s (formN r) r.fmt [0]
    (bad1 false true r || decide (10 < r.fmt.toNat) || badLevel s r) false (fun _ => {})
    (fun s c _ _ _ => rangeFire r s c)

/-- RUNEND: with OPX 0 it sets EOR, with OPX 1 it tests and clears it. -/
def execRunend (r : RecN) (s : State) : Outcome :=
  moveFire s r [0] (badMove true false r) (fun c =>
    { both { passVal r.ctl c (portTok c 0) with eor := !opx r } with
      cond := if opx r then (portTok c 0).eor else true })

/-! ## Scribe records (09 R207 to R210) -/

/-- FMT of READ and WRITE: two lanes, one lane, or not admitted (R207). -/
def qWidth (f : BitVec 4) : Option Nat :=
  if f = 3 ∨ f = 7 then some 2 else if f = 2 ∨ f = 6 then some 1 else none

/-- A field of READ or WRITE that is not admitted. -/
def badQ (r : RecN) : Bool := bad1 false false r || (qWidth r.fmt).isNone || r.lit.toNat / 64 != 0

/-- READ (R207): register q[LIT[5:0]] under the block tag. -/
def execRead (r : RecN) (s : State) : Outcome :=
  fire s (formN r) r.fmt [] (badQ r) false (fun c =>
    let w := (qWidth r.fmt).getD 1
    both { tag := (scribeAt s c.p).btag, ty := r.fmt,
           lanes := (wordsLanes [(qreg s c.p (r.lit.toNat % 64)).toNat]).take w })

/-- Change the block that a scribe holds. -/
def onBlock (s : State) (p : Nat) (f : Block → Block) : State :=
  match (scribeAt s p).cur with
  | some b => setScribe s p { scribeAt s p with cur := some (f b) }
  | none => s

/-- The record stands in a block that the scribe holds. -/
def inBlock (s : State) : Bool := s.cur.site == 240 && (scribeAt s s.cur.p).cur.isSome

/-- WRITE (R208): counted at every firing, applied at commit; a null writes nothing. Poison on port w sets the
exception bit (20 R401). -/
def execWrite (r : RecN) (s : State) : Outcome :=
  let c := s.cur
  let ps := portSet [4] r.ctl
  let t := portTok c 4
  if !hasPorts c ps ∨ !inBlock s then .refused .noMatch
  else if badQ r || badCtl [4] r.ctl || anyBlock c ps then .next (faultCur s c cILLEGAL 0)
  else if t.poison then .next (faultCur s c cPOISON 0)
  else
    let v : Option Word64 :=
      if anyNull c ps || predFalse r.ctl c then none
      else some (BitVec.ofNat 64 (laneN t.lanes 0 + (if qWidth r.fmt = some 2 then laneN t.lanes 1 * 2 ^ 32 else 0)))
    .next (onBlock s c.p (fun b => { b with writes := b.writes ++ [(c.node, r.lit.toNat % 64, v)] }))

/-- An exit (R209): it fires on a value at port x under a true predicate; otherwise it is untaken. -/
def exitFire (op : Nat) (bad : Bool) (r : RecN) (s : State) : Outcome :=
  let c := s.cur
  let ps := portSet [5] r.ctl
  let t := portTok c 5
  if !hasPorts c ps ∨ !inBlock s then .refused .noMatch
  else if bad || bad1 (op == 0x33) false r || r.fmt != 0 || badCtl [5] r.ctl || anyBlock c ps then
    .next (faultCur s c cILLEGAL 0)
  else if t.poison then .next (faultCur s c cPOISON 0)
  else if anyNull c ps || predFalse r.ctl c then .next s
  else .next (onBlock s c.p (fun b => { b with exits := b.exits ++ [(c.node, op, r.lit, opx r, t.lanes.getD 0 0)] }))

def execBranch (r : RecN) (s : State) : Outcome := exitFire 0x33 (r.lit.toNat / 65536 != 0) r s
def execBcall (r : RecN) (s : State) : Outcome := exitFire 0x34 false r s
def execBret (r : RecN) (s : State) : Outcome := exitFire 0x35 (r.lit != 0) r s

end Sys2Proof.Machine
end

