-- ==== Sys2Proof/Machine/Access.lean ====
section
/-!
DEFINITION. Memory accesses: their element layout (11 R236, R241), order buffers and wave chains (05 R107 to R110), the
performing of an access at a well, a page window or the L2 (11 R237 to R244), and its result (11 R235, R239).
-/
namespace Sys2Proof.Machine

/-! ## Elements and bytes of an access (11 R236, R239, R241) -/

/-- Element size e in bytes. -/
def esize (f : BitVec 4) : Nat := if isBlockTy f then 2 * (blockM f + 1) else elemBits f / 8

/-- Lanes of one element. -/
def elemLanes (f : BitVec 4) : Nat := if isBlockTy f then blockLanes f else lanesPer f

/-- Elements in a data token of width `w`. -/
def elemsOf (f : BitVec 4) (w : Nat) : Nat := if isBlockTy f then blockCountW f w else w / lanesPer f

def isScatter (op : Nat) : Bool := op == 0x82 || op == 0x83
def isAtomic (op : Nat) : Bool := 0x87 ≤ op && op ≤ 0x8E
def isLoad (op : Nat) : Bool := op == 0x80 || op == 0x82 || op == 0x93 || op == 0x94
def isStore (op : Nat) : Bool := op == 0x81 || op == 0x83
def isOrdering (op : Nat) : Bool := op == 0x84 || op == 0x85 || op == 0x86

/-- A record whose port a holds an address. -/
def hasAddr (op : Nat) : Bool := isLoad op || isStore op || isAtomic op || op == 0x8F

/-- Store-class records (02 R52). -/
def storeClass (op : Nat) : Bool :=
  isStore op || isAtomic op || op == 0x8F || op == 0x90 || op == 0x91 || op == 0x92 || op == 0x84

def aLanes (a : Access) : List Lane := (a.a.map (·.lanes)).getD []
def bLanes (a : Access) : List Lane := (a.b.map (·.lanes)).getD []

/-- The address of element `j` before OFF: one for the record, or one per element. -/
def rawAddr (a : Access) (j : Nat) : Nat :=
  let i := if isScatter a.op then j else 0
  if a.r.space = 0 then laneN (aLanes a) i
  else laneN (aLanes a) (2 * i) + laneN (aLanes a) (2 * i + 1) * 2 ^ 32

/-- Effective address of element `j`: OFF is signed (08 R168). -/
def elemAddr (a : Access) (j : Nat) : Nat :=
  wrapN 64 (rawAddr a j + a.r.off.toInt * esize a.r.fmt + (if isScatter a.op then 0 else j * esize a.r.fmt : Nat))

/-- Elements that an access moves. -/
def elemCount (a : Access) : Nat :=
  if isScatter a.op then (if a.r.space = 0 then (aLanes a).length else max 1 ((aLanes a).length / 2))
  else if a.op = 0x80 then elemsOf a.r.fmt (aLanes a).length
  else if a.op = 0x93 ∨ a.op = 0x94 then 1
  else elemsOf a.r.fmt (bLanes a).length

/-- The lane predicate of a memory record. -/
def accPred (a : Access) : Option (List Lane) :=
  match a.c with
  | some t => if a.r.ctl.pred ∧ 2 ≤ t.lanes.length then some t.lanes else none
  | none => none

/-- An element is governed by the predicate lane of its lowest lane (R239). -/
def elemOn (a : Access) (j : Nat) : Bool := predAt (accPred a) (j * elemLanes a.r.fmt)

/-- An address operand of SPACE 1 or 2 whose bits [63:56] are not 0 (R236). -/
def rawBad (a : Access) : Option Nat :=
  if a.r.space = 0 then none
  else ((List.range (if isScatter a.op then elemCount a else 1)).filter (fun j => elemOn a j || !isScatter a.op)).map
    (rawAddr a) |>.find? (fun x => decide (2 ^ 56 ≤ x))

/-- Byte positions and addresses of the unmasked elements. -/
def bytePlan (a : Access) : List (Nat × Nat) :=
  let e := esize a.r.fmt
  (List.range (elemCount a)).flatMap (fun j =>
    if elemOn a j then (List.range e).map (fun t => (j * e + t, elemAddr a j + t)) else [])

/-- The sectors that an access touches, each once, in order. -/
def planSectors (a : Access) : List Nat :=
  (bytePlan a).foldl (fun l x => if l.contains (x.2 / 32) then l else l ++ [x.2 / 32]) []

/-- Element `j` of a token as a number of esize bytes. -/
def tokElem (f : BitVec 4) (ls : List Lane) (j : Nat) : Nat := if isBlockTy f then blockStr f ls j else elem f ls j

/-- Bytes of the data operand by position. -/
def dataByte (a : Access) (ls : List Lane) (pos : Nat) : Byte :=
  let e := esize a.r.fmt
  BitVec.ofNat 8 (tokElem a.r.fmt ls (pos / e) / 2 ^ (8 * (pos % e)))

/-- Element `j` of the bytes loaded; a masked element is 0. -/
def gotElem (a : Access) (j : Nat) : Nat :=
  let e := esize a.r.fmt
  leNat ((List.range e).map (fun t => tgetD (a.got.foldl (fun t x => tput t x.1 x.2) []) (j * e + t) 0))

/-- Loaded elements as `w` lanes. -/
def gotLanes (a : Access) (w : Nat) : List Lane :=
  if isBlockTy a.r.fmt then
    let n := blockLanes a.r.fmt
    (List.range w).map (fun l =>
      if l / n < elemCount a then BitVec.ofNat 32 (gotElem a (l / n) / 2 ^ (32 * (l % n))) else 0)
  else lanesOf a.r.fmt w (fun j => if j < elemCount a then gotElem a j else 0)

/-! ## Results (11 R235, R239) -/

/-- The match of an access, for its results. -/
def accCur (a : Access) : Cur :=
  { p := a.p, site := a.site, plane := a.plane, node := a.node, tag := a.tag, late := a.late
    ops := (a.a.map (fun t => (0, t))).toList ++ (a.b.map (fun t => (1, t))).toList ++ (a.c.map (fun t => (2, t))).toList }

/-- Send the value of an access to d0. -/
def accSend (s : State) (a : Access) (v : Val) (cond : Bool) : State :=
  let c := accCur a
  sendAll s c (destSends a.r.d0 a.r.ctl.emit0 (curPoison c || a.poison) cond false v (some v))

/-- The null of a null access (R239): under NULLPASS, or always for a false predicate or a discarded chain. -/
def accNull (s : State) (a : Access) : State :=
  let c := accCur a
  let null := [a.a, a.b, a.c].any (fun t => (t.map (·.null)).getD false)
  if a.discard || !null || a.r.ctl.nullpass then accSend s a (nullVal c a.r.fmt) true else s

/-- The value of a performed access. -/
def accValue (a : Access) : Val :=
  let w := if a.op = 0x80 then max 1 (aLanes a).length
    else if a.op = 0x82 then elemCount a * lanesPer a.r.fmt
    else if a.op = 0x94 then lanesPer a.r.fmt
    else (bLanes a).length
  if isLoad a.op || isAtomic a.op then { tag := a.tag, ty := a.r.fmt, lanes := gotLanes a w }
  else ackVal a.tag 0

/-- The token that MNOP, FENCE and ORDER emit: a. -/
def orderValue (a : Access) : Val :=
  let t := a.a.getD {}
  { tag := a.tag, ty := t.ty, lanes := t.lanes, eor := t.eor, snap := t.snap }

/-! ## Order buffers (05 R107, R108) -/

/-- The open chain of a tag. -/
def openChain (o : OBuf) (tag : Word64) : Option Nat := idxOf (fun c => c.tag == tag && !c.closed) o.chains

/-- The release rule of R108. -/
def mayRelease (c : Option Chain) (r : RecM) : Bool :=
  match c with
  | none => r.seq == 0
  | some c =>
    match c.last with
    | none => r.seq == 0
    | some (seq, next) => (r.seq != 0 && r.prev.toNat == seq) || next == r.seq.toNat

/-- The chain that holds a released access. -/
def chainOf (o : OBuf) (id : Nat) : Option Chain := o.chains.find? (fun c => c.outst.contains id)

/-- Accesses of its chain released before an access and not yet performed. -/
def before (o : OBuf) (id : Nat) : List Access :=
  match chainOf o id with
  | none => []
  | some c =>
    let ids := c.outst.takeWhile (fun x => x != id)
    o.released.filter (fun a => ids.contains a.id)

/-- Every access of its chain released before an access has been performed, but for ORDERs, which hold nothing (R108, R242). -/
def canPerform (o : OBuf) (a : Access) : Bool := (before o a.id).all (fun b => b.op == 0x86)

def isEau (site : Nat) : Bool := 241 ≤ site && site ≤ 244

/-- The ordering site of an access. -/
def ositeOf (a : Access) : Nat := a.r.osite.toNat

/-- An access has been taken by its site under its checks, and is under way. -/
def started (a : Access) : Bool := a.left.isSome || a.combining

/-- A released access of an edge unit may set out: one that is no release goes as soon as those before it on its chain are under way,
none of them an acquire, since nothing orders their arrival at their banks (R106, R122). -/
def mayStart (o : OBuf) (a : Access) : Bool :=
  canPerform o a ||
    (isEau (ositeOf a) && !a.r.ord.getLsbD 1 &&
      (before o a.id).all (fun b => b.op == 0x86 || (started b && !b.heldFault && !isOrdering b.op && !b.r.ord.getLsbD 0)))

/-- One before it on its chain touches a sector that it touches: they go one after the other (R111, Chain). -/
def clashes (o : OBuf) (id : Nat) (pas : List (Nat × Nat × Nat)) : Bool :=
  (before o id).any (fun b => b.pas.any (fun x => pas.any (fun y => y.2.1 / 32 == x.2.1 / 32)))

/-- Change a released access. -/
def putAccess (s : State) (a : Access) : State :=
  let o := obufAt s a.p (ositeOf a)
  setObuf s a.p (ositeOf a) { o with released := o.released.map (fun b => if b.id = a.id then a else b) }

/-- A released access leaves its order buffer; a closed chain with nothing outstanding goes. -/
def dropAccess (s : State) (p site id : Nat) : State :=
  let o := obufAt s p site
  let chains := (o.chains.map (fun c =>
    { c with outst := c.outst.filter (· != id), hold := if c.hold = some id then none else c.hold })).filter
      (fun c => !(c.closed && c.outst.isEmpty))
  setObuf s p site { o with released := o.released.filter (fun b => b.id != id), chains := chains }

/-- Scope at which an access is performed: a release at PANEL or DIE to another part is one at DOMAIN (16 R342). -/
def scopeOf (a : Access) : Nat := a.r.scope.toNat

/-- A context may use a well: it owns it, by the colour's admission (04 R87). -/
def wellAdmits (s : State) (a : Access) : Bool :=
  !tagged s a.p ||
    (match (wellAt s a.p (ositeOf a)).owner with
     | some o => (admission? s a.p (colourOf a.tag)).map (·.ctx) == some o
     | none => (admission? s a.p (colourOf a.tag)).isSome)

/-- A well discards a request with a cause (04 R84, R87). -/
def wellDiscards (s : State) (a : Access) (cause addr : Nat) : State :=
  dropAccess (post s { tag := a.tag, addr := addr, cause := cause, site := a.site, node := a.node, plane := a.plane, panel := a.p,
                       seq := a.r.seq.toNat, ctx := a.ctx, osite := ositeOf a, acc := a.id }) a.p (ositeOf a) a.id

/-- The turn of a record without an access has come: a null access and MNOP at their release (R109, R242), FENCE and ORDER once
every earlier access of their chain is performed, and no sector of the panel is still on its way to another part. -/
def orderTurn (s : State) (o : OBuf) (a : Access) : Bool :=
  a.isNull || a.op == 0x84 || (isOrdering a.op && canPerform o a && (decide (scopeOf a ≤ 1) || !flushing s a.p))

/-- FENCE, ORDER or MNOP completes: earlier stores are performed at its scope, and it emits a. It waits on if that sends sectors to
another part. -/
def orderDone (s : State) (a : Access) : State :=
  let s1 := if a.op = 0x84 then s else pushScope s a.p (scopeOf a) (some a.ctx)
  if a.op ≠ 0x84 ∧ 2 ≤ scopeOf a ∧ flushing s1 a.p then s1
  else accSend (dropAccess s1 a.p (ositeOf a) a.id) a (orderValue a) true

/-- Complete every FENCE, ORDER, MNOP and null access of a site whose turn has come; a well discards those of a colour that it does not
admit (04 R87). -/
def settleOrders (s : State) (p site : Nat) : State :=
  iter s (obufAt s p site).released.length (fun s _ =>
    let o := obufAt s p site
    match o.released.find? (orderTurn s o) with
    | some a =>
      if isWell site ∧ !a.discard ∧ !wellAdmits s a then wellDiscards s a cTAG 0
      else if a.isNull then accNull (dropAccess s p site a.id) a
      else orderDone s a
    | none => s)

/-- An access has been performed: it leaves the buffer, and its result is sent. -/
def finishAccess (s : State) (a : Access) (v : Val) (cond : Bool) : State :=
  let s := accSend (dropAccess s a.p (ositeOf a) a.id) a v cond
  settleOrders s a.p (ositeOf a)

/-! ## Faults of accesses (11 R238, 20 R395) -/

/-- A cause of R238 and R364 holds the chain. -/
def holdsChain (cause : Nat) : Bool :=
  cause == cALIGNMENT || cause == cTRANSLATION || cause == cPERMISSION || cause == cPOISON

/-- A fault at the ordering site. Under R238 the access stays at the head of its chain with CHAIN = 1; other causes
discard it (04 R84, R87). -/
def accFault (s : State) (a : Access) (cause addr : Nat) : State :=
  let hold := holdsChain cause && a.op != 0x90
  let s := post s { tag := a.tag, addr := addr, cause := cause, chain := hold, site := a.site, node := a.node,
                    plane := a.plane, panel := a.p, seq := a.r.seq.toNat, ctx := a.ctx, osite := ositeOf a, acc := a.id }
  if hold then putAccess s { a with heldFault := true, left := none, pas := [] }
  else settleOrders (dropAccess s a.p (ositeOf a) a.id) a.p (ositeOf a)

/-- A request that STALE_TOKEN completes (19 R377): the entry of R238, nothing is emitted, no chain is held. -/
def accStale (s : State) (a : Access) (addr : Nat) : State :=
  let s := post s { tag := a.tag, addr := addr, cause := cSTALE, site := a.site, node := a.node, plane := a.plane,
                    panel := a.p, seq := a.r.seq.toNat, ctx := a.ctx, osite := ositeOf a, acc := a.id }
  settleOrders (dropAccess s a.p (ositeOf a) a.id) a.p (ositeOf a)

/-! ## Atomics (11 R243) -/

/-- The new value of one element. -/
def atomicNew (op : Nat) (f : BitVec 4) (old b c : Nat) : Nat :=
  let n := elemBits f
  let v := fun (x : Nat) => if isSigned f then sgn n x else (x : Int)
  match op with
  | 0x87 => wrapN n (old + b : Nat)
  | 0x88 => if v b < v old then b else old
  | 0x89 => if v old < v b then b else old
  | 0x8A => Nat.land old b
  | 0x8B => Nat.lor old b
  | 0x8C => Nat.xor old b
  | 0x8D => b
  | _ => if old = b then c else old

/-- The bytes that an atomic stores, by position, and cond: every unmasked element was replaced (ACAS). -/
def atomicBytes (a : Access) : List (Nat × Byte) × Bool :=
  let e := esize a.r.fmt
  let cL := (a.c.map (·.lanes)).getD []
  (List.range (elemCount a)).foldl (fun (st : List (Nat × Byte) × Bool) j =>
    if elemOn a j then
      let old := gotElem a j
      let nv := atomicNew a.op a.r.fmt old (elem a.r.fmt (bLanes a) j) (elem a.r.fmt cL j)
      (st.1 ++ (List.range e).map (fun t => (j * e + t, BitVec.ofNat 8 (nv / 2 ^ (8 * t)))),
        st.2 && (a.op != 0x8E || old == elem a.r.fmt (bLanes a) j))
    else st) ([], true)

/-! ## Wells (04 R83 to R90; 11 R237) -/

/-- Key of a poison mark of a well sector. -/
def wbadKey (p w off : Nat) : Nat := siteKey p w * 16384 + off / 32

/-- Store bytes in a well; a poisoned store marks each sector, one that is not and writes all of a sector clears its
mark (11 R238, 20 R400). -/
def wellStore (s : State) (p w : Nat) (bs : List (Nat × Byte)) (poison : Bool) : State :=
  let secs := bs.foldl (fun (l : List Nat) x => if l.contains (x.1 / 32) then l else l ++ [x.1 / 32]) []
  let full := fun sec => (bs.filter (fun x => x.1 / 32 == sec)).length == 32
  { s with
    wmem := bs.foldl (fun m x => mwrite m (wellAddr p w x.1) x.2) s.wmem
    wbad := secs.foldl (fun t sec =>
      if poison then tsetD t (siteKey p w * 16384 + sec) true false
      else if full sec then tsetD t (siteKey p w * 16384 + sec) false false else t) s.wbad }

/-- Bytes of a buffer or line in modes 1 and 3 (R85). -/
def bufBytes (x : Well) : Nat :=
  let v := x.cfg.toNat
  if wellMode x = 1 then (bits v 60 47 + 1) * 32
  else
    let ty : BitVec 4 := BitVec.ofNat 4 (bits v 115 112)
    let n := bits v 63 52 + 1
    (if isBlockTy ty then (n * (esize ty + 2) + 511) / 512 else (n * (elemBits ty / 8) + 31) / 32) * 32

/-- Buffers or lines of a well. -/
def bufCount (x : Well) : Nat := if wellMode x = 1 then bits x.cfg.toNat 63 61 + 1 else bits x.cfg.toNat 51 48 + 1

/-- Sectors a FIFO has free. -/
def fifoFree (x : Well) : Nat :=
  bits x.cfg.toNat 63 50 + 1 - (x.fifo.map (fun e => (e.lanes.length + 7) / 8)).foldl (· + ·) 0

/-- A store, an ACC or an atomic: it writes. -/
def writes (op : Nat) : Bool := isStore op || isAtomic op || op == 0x8F
/-- A load or an atomic: it reads under a full/empty bit. -/
def reads (op : Nat) : Bool := isLoad op || isAtomic op

/-- An alignment breach of element addresses (R238), the first one. -/
def misaligned (a : Access) : Option Nat :=
  let al := if isBlockTy a.r.fmt then 2 else esize a.r.fmt
  let n := if isScatter a.op then elemCount a else 1
  ((List.range n).filter (fun j => elemOn a j || !isScatter a.op)).map (elemAddr a) |>.find? (fun x => x % al != 0)

/-- An atomic that does not lie within one aligned sector. -/
def straddles (a : Access) : Bool := isAtomic a.op && decide (1 < (planSectors a).length)

/-- Loaded bytes of some positions. -/
def readInto (a : Access) (xs : List (Nat × Byte)) (poison : Bool) : Access :=
  { a with got := a.got ++ xs, poison := a.poison || poison }

/-- Perform the bytes of an access in a well's storage, at offsets given by `off`. -/
def performBytes (s : State) (w : Nat) (a : Access) (plan : List (Nat × Nat)) : State × Access :=
  let p := a.p
  let old := plan.map (fun x => (x.1, mread s.wmem (wellAddr p w x.2)))
  let bad := plan.any (fun x => tgetD s.wbad (wbadKey p w x.2) false)
  if isLoad a.op then (s, readInto a old bad)
  else if isStore a.op then
    let poison := (a.b.map (·.poison)).getD false
    (wellStore s p w (plan.map (fun x => (x.2, dataByte a (bLanes a) x.1))) poison, a)
  else
    let a := readInto a old bad
    let nb := atomicBytes a
    let poison := bad || (a.b.map (·.poison)).getD false || (a.c.map (·.poison)).getD false
    let t := nb.1.foldl (fun t x => tput t x.1 x.2) []
    (wellStore s p w (plan.filterMap (fun x => (tget? t x.1).map (fun b => (x.2, b)))) poison, { a with cond := nb.2 })

/-! ## ACC addends (11 R245, R246) -/

/-- The count word of an ACC. -/
def countWord (a : Access) : Nat := laneN (aLanes a) (if a.r.space = 0 then 1 else 2)

/-- Place of the combiner of an L2 location: its home bank. -/
def bankPlace (hf : Nat) : Nat := 2 ^ 20 + 64 * homeDie hf + bankOf hf

/-- Hand an ACC to the combiner of its location. -/
def toCombiner (s : State) (a : Access) (place addr : Nat) : State :=
  let a := { a with combining := true }
  let s := putAccess s a
  { s with addends := s.addends ++ [(place, addr, a)] }

/-! ## Requests of accesses (06 R130) -/

/-- An access of this part's memory at SYSTEM scope waits for the host's copies: a load or atomic before its bank, a store after (05 R105; 11 R244). -/
def hostPath (a : Access) (ga : Nat) (path : List Nat) : List Nat :=
  if scopeOf a ≠ 5 ∨ remote ga then path else if isStore a.op then path ++ [arbHost] else arbHost :: path

/-- The stages of a sector of an access at the L2: data that is stored crosses the die link before the bank, data that is read after
it. A read of another part's memory up to DEVICE scope may find a copy in the L2 of its own die (19 R381). -/
def piecePath (s : State) (a : Access) (ga : Nat) : List Nat :=
  let die := dieOf a.p
  let d := atDie die (scopeOf a) ga
  if remote ga then
    if isLoad a.op && a.op != 0x94 && decide (scopeOf a ≤ 3) then [arbBank die ga] else (portPath s die (gaDev ga)).getD []
  else if a.op = 0x8F then linkPath die (homeDie ga) ++ [arbBank (homeDie ga) ga]
  else (if isLoad a.op then [] else linkPath die d) ++ [arbBank d ga] ++ (if isStore a.op then [] else linkPath d die)

/-- A demand request for one sector of an access, at address `pa`. -/
def pieceReq (s : State) (a : Access) (sec pa cls : Nat) (path : List Nat) : Req :=
  { kind := .piece a.p (ositeOf a) a.id sec pa, path := path, born := s.cycle, ctx := a.ctx, issuer := a.p, addr := pa,
    ctag := 64, cls := cls }

/-! ## Edge address units: translation of a released access -/

/-- Where one address stands: a physical address and class, a cause, or a walk that must come first. -/
inductive Look where
  | ok (pa cls : Nat)
  | bad (cause : Nat)
  | walk
deriving DecidableEq, Repr, Inhabited

/-- Right that a memory record needs (R362). -/
def needs (op : Nat) : Right := if isLoad op then .read else if isStore op then .write else .both

/-- Look an address up for a demand access. -/
def look (s : State) (a : Access) (addr : Nat) : Look :=
  if 2 ^ 56 ≤ addr then .bad cTRANSLATION
  else if a.r.space = 2 then (match checkPa s addr 0 with | .ok pa c => .ok pa c | .bad c => .bad c)
  else
    match tlbFind s a.ctx a.p (ositeOf a) addr with
    | none => .walk
    | some w => match underLeaf s a.ctx w addr (needs a.op) with
      | .ok pa c => .ok pa c
      | .bad c => .bad c

/-- The walk of a die for a page of a context. -/
def walkIs (die ctx va : Nat) (w : Walk) : Bool := w.die == die && w.ctx == ctx && w.va / 4096 == va / 4096

/-- The end of a walk is noted. -/
def walkEnds (s : State) (die ctx va : Nat) (e : WalkEnd) : State :=
  { s with walks := s.walks.map (fun w => if walkIs die ctx va w then { w with fin := some e } else w) }

/-- The read of a walk's entry at a level becomes a request to the home die's L2 (18 R360). -/
def walkRead (s : State) (die ctx va level table : Nat) : State :=
  let hf := homeForm (table + 8 * vaIndex level va)
  { s with reqs := s.reqs ++ [{ kind := .walk die ctx va level table, path := arbBank (homeDie hf) hf :: linkPath (homeDie hf) die,
                                born := s.cycle, ctx := ctx, issuer := 16 * die, addr := paOf hf, ctag := 64 }] }

/-- A walk begins at the root. -/
def walkStart (s : State) (die ctx va : Nat) : State :=
  let root := (ctxAt s ctx).ptroot
  match tableOff s root with
  | some c => walkEnds s die ctx va (.bad c)
  | none => walkRead s die ctx va 0 root

/-- A walk has read an entry. -/
def walkOn (s : State) (die ctx va level : Nat) (w : Word64) : State :=
  match walkEntry s level w with
  | .inl e => walkEnds s die ctx va e
  | .inr t => walkRead s die ctx va (level + 1) t

/-- Walks of a context for a range of addresses begin again (18 R370). -/
def walksRestart (s : State) (ctx lo hi : Nat) : State :=
  let mine := fun (w : Walk) => w.ctx == ctx && decide (lo < w.va / 4096 * 4096 + 4096) && decide (w.va / 4096 * 4096 < hi)
  let ws := s.walks.filter mine
  let gone := fun (r : Req) => match r.kind with
    | .walk die c va _ _ => ws.any (walkIs die c va)
    | _ => false
  ws.foldl (fun s w => walkStart s w.die w.ctx w.va)
    { s with reqs := s.reqs.filter (fun r => !gone r)
             walks := s.walks.map (fun w => if mine w then { w with fin := none } else w) }

/-- Start a walk for an address, unless one for its page runs or 64 are in progress on the die (R365). -/
def startWalk (s : State) (a : Access) (addr : Nat) : State :=
  let die := dieOf a.p
  if s.walks.any (walkIs die a.ctx addr) then s
  else if 64 ≤ (s.walks.filter (fun w => w.die == die)).length then s
  else walkStart { s with walks := s.walks ++ [{ die := die, ctx := a.ctx, va := addr, p := a.p, site := ositeOf a, born := s.cycle }] } die a.ctx addr

/-- A miss of the caches that must be walked, among the addresses of an access. -/
def firstWalk (s : State) (a : Access) (secs : List Nat) : Option Nat :=
  (secs.find? (fun sec => look s a (32 * sec) == .walk)).map (32 * ·)

/-- The first address that faults, with its cause. -/
def firstBad (s : State) (a : Access) (addrs : List Nat) : Option (Nat × Nat) :=
  addrs.foldl (fun (r : Option (Nat × Nat)) x => match r with
    | some _ => r
    | none => match look s a x with
      | .bad c => some (x, c)
      | _ => none) none

/-- What names the kernel of a plane where lines are pinned for it (04 R96). -/
def kernelId (p plane : Nat) : Nat := 4 * p + plane + 1

/-- A release at PANEL or DIE scope is recorded in the filter of its die as it is performed (16 R342). -/
def noteRelease (s : State) (a : Access) (ga : Nat) : State :=
  if a.r.ord.getLsbD 1 ∧ (scopeOf a = 1 ∨ scopeOf a = 2) ∧ !remote ga then recordRelease s a.p ga else s

/-- Perform the bytes of one sector of an access at the L2 (11 R240, R243, R244). -/
def performSector (s : State) (keep : Option Nat) (a : Access) (sec ga cls : Nat) : State × Access :=
  let s := noteRelease s a ga
  let t : LineTag := { cls := cls, kernel := kernelId a.p a.plane }
  let hf := ga / 32 * 32
  let die := dieOf a.p
  let plan := (bytePlan a).filter (fun x => x.2 / 32 == sec)
  let bPoison := (a.b.map (·.poison)).getD false
  if isStore a.op then
    (writeL2 s keep die (scopeOf a) hf a.ctx t (plan.map (fun x => (x.2 % 32, dataByte a (bLanes a) x.1))) bPoison, a)
  else
    let (s, d, bad) := readL2 s die (scopeOf a) hf a.ctx t
    let a := readInto a (plan.map (fun x => (x.1, secByte d (x.2 % 32)))) bad
    if isLoad a.op then (s, a)
    else
      let nb := atomicBytes a
      let nt := nb.1.foldl (fun t x => tput t x.1 x.2) []
      let poison := bad || bPoison || (a.c.map (·.poison)).getD false
      (writeL2 s keep die (scopeOf a) hf a.ctx t
        (plan.filterMap (fun x => (tget? nt x.1).map (fun b => (x.2 % 32, b)))) poison, { a with cond := nb.2 })

/-- What comes before a release (05 R106): earlier stores are performed at its scope; one to another part is a release at DOMAIN
scope (16 R342). -/
def beforeRelease (s : State) (a : Access) (ga : Nat) : State :=
  if a.r.ord.getLsbD 1 then pushScope s a.p (if remote ga then max 4 (scopeOf a) else scopeOf a) (some a.ctx) else s

/-- Elements of a scatter that come before the first that faults are performed (R241). -/
def scatterPart (s : State) (a : Access) (bad : Nat) : State :=
  let n := ((List.range (elemCount a)).takeWhile (fun j => !(elemOn a j && elemAddr a j == bad))).length
  ((List.range n).foldl (fun (st : State × Access) j =>
    if elemOn a j then
      match look st.1 a (elemAddr a j) with
      | .ok pa cls =>
        let one := { st.2 with op := a.op }
        if ownDev st.1 pa then
          let hf := homeForm pa / 32 * 32
          let bs := (List.range (esize a.r.fmt)).map (fun t =>
            ((elemAddr a j + t) % 32, dataByte a (bLanes a) (j * esize a.r.fmt + t)))
          (if isStore a.op then
            writeL2 st.1 none (dieOf a.p) (scopeOf a) hf a.ctx { cls := cls, kernel := kernelId a.p a.plane } bs ((a.b.map (·.poison)).getD false) else st.1, one)
        else st
      | _ => st
    else st) (s, a)).1

/-- The sectors of an access with their places: those that translate. -/
def placesOf (s : State) (a : Access) : List (Nat × Nat × Nat) :=
  (planSectors a).filterMap (fun sec => match look s a (32 * sec) with
    | .ok pa cls => some (sec, gaOf s pa, cls)
    | _ => none)

/-- The place of a byte of an access; a well offset stands for itself. -/
def placeAt (a : Access) (x : Nat) : Nat :=
  match a.pas.find? (fun y => y.1 == x / 32) with
  | some (_, ga, _) => ga + x % 32
  | none => x

/-- The physical address of a place. -/
def paOfGa (ga : Nat) : Nat := if remote ga then gaDev ga * 2 ^ 44 + ga % 2 ^ 44 else paOf ga

/-- Copies on a die of a sector of another part: its L2's goes; with `wide` those of its page windows as well, dirty ones written back
first (19 R381). -/
def dropRemote (s : State) (die ga : Nat) (wide : Bool) : State :=
  let s := if !wide then s
    else (windows s).foldl (fun s k =>
      match windowHolds s k ga with
      | some (i, _) =>
        if dieOf (k / 256) ≠ die then s
        else
          let s := wbSector s (k / 256) (k % 256) i (ga % 4096 / 32)
          let y := wellAt s (k / 256) (k % 256)
          setWell s (k / 256) (k % 256) { y with slots := y.slots.map (fun z => if z.1 = i then (z.1, slotLose z.2 (ga % 4096 / 32) true) else z) }
      | none => s) s
  delL2 s die ga

/-- The requests of an access whose places are known. One that stores into another part's memory, or reads it at DOMAIN scope or wider,
leaves no copy of it behind. -/
def sendPieces (s : State) (a : Access) (pas : List (Nat × Nat × Nat)) (path : Nat → Nat → List Nat) : State :=
  let s := pas.foldl (fun s x =>
    if remote x.2.1 ∧ (writes a.op ∨ 4 ≤ scopeOf a) then dropRemote s (dieOf a.p) x.2.1 (writes a.op && decide (2 ≤ scopeOf a)) else s) s
  { s with reqs := s.reqs ++ pas.map (fun x => pieceReq s a x.1 (paOfGa x.2.1) x.2.2 (path x.1 x.2.1)) }

/-- An access whose places are known sets out: an ACC to the combiner at its first byte, any other sector by sector. -/
def setOut (s : State) (a : Access) (pas : List (Nat × Nat × Nat)) (path : Nat → Nat → List Nat) : State :=
  let s := if a.op = 0x94 then pas.foldl (fun s x => if remote x.2.1 then s else promotePush s x.2.1 (scopeOf a)) s else s
  if pas.isEmpty then finishAccess s a (accValue a) true
  else if a.op = 0x8F then
    let a := { a with combining := true, pas := pas, left := some ((pas.map (·.1)).take 1) }
    sendPieces (noteRelease (putAccess s a) a (placeAt a (elemAddr a 0))) a (pas.take 1) path
  else
    let a := { a with left := some (pas.map (·.1)), pas := pas }
    sendPieces (putAccess s a) a pas path

/-- The addresses that an access tests: each element of a gather or scatter, else the first byte and every sector. -/
def testAddrs (a : Access) : List Nat :=
  if isScatter a.op then ((List.range (elemCount a)).filter (elemOn a)).map (elemAddr a)
  else if (planSectors a).isEmpty then [] else elemAddr a 0 :: (planSectors a).map (32 * ·)

/-- The first breach of R238 among the addresses, in address order, once they can be looked up. -/
def firstBreach (s : State) (a : Access) (addrs : List Nat) : Option (Nat × Nat) :=
  let al := if isBlockTy a.r.fmt then 2 else esize a.r.fmt
  if isScatter a.op then
    addrs.foldl (fun (r : Option (Nat × Nat)) x => match r with
      | some _ => r
      | none => if x % al ≠ 0 then some (x, cALIGNMENT) else firstBad s a [x]) none
  else if addrs.isEmpty then none
  else if elemAddr a 0 % al ≠ 0 then some (elemAddr a 0, cALIGNMENT)
  else firstBad s a addrs

/-- A release waits while sectors of its panel are on their way to another part. -/
def releaseWaits (s : State) (a : Access) : Bool := a.r.ord.getLsbD 1 && decide (2 ≤ scopeOf a) && flushing s a.p

/-- The first look at a released access whose turn has come: alignment, translation and rights in address order, then a
request for each sector, or for its combiner. One that meets a sector of an earlier access of its chain waits. -/
def expand (s : State) (a : Access) : State :=
  let addrs := testAddrs a
  if !isScatter a.op ∧ (rawBad a).isSome then accFault s a cTRANSLATION ((rawBad a).getD 0)
  else if a.op ≠ 0x8F ∧ straddles a then accFault s a cALIGNMENT (elemAddr a 0)
  else
    match firstWalk s a (addrs.map (· / 32)) with
    | some va => if decide (2 ^ 56 ≤ va) then accFault s a cTRANSLATION va else startWalk s a va
    | none =>
      match firstBreach s a addrs with
      | some (x, c) => accFault (if isScatter a.op then scatterPart s a x else s) a c x
      | none =>
        let pas := placesOf s a
        if clashes (obufAt s a.p (ositeOf a)) a.id pas ∨ releaseWaits s a then s
        else
          let s := match pas with
            | [] => s
            | x :: _ => beforeRelease s a x.2.1
          if releaseWaits s a then s else setOut s a pas (fun _ ga => hostPath a ga (piecePath s a ga))

/-- Look at every released access of an edge unit whose turn has come and that has not been looked at. -/
def advance (s : State) (p site : Nat) : State :=
  if !isEau site then s
  else iter s (obufAt s p site).released.length (fun s i =>
    let o := obufAt s p site
    match o.released[i]? with
    | some a =>
      if a.left.isNone && !a.isNull && !isOrdering a.op && !a.heldFault && !a.combining && mayStart o a then expand s a
      else s
    | none => s)

/-- ORDER_BUFFER_RELEASE (R108): the `k`-th waiting record of an ordering site is released. Only the first 64 are in
the buffer, and at most 32 chains are open; a chain whose record has faulted, or that a FENCE holds, releases none. -/
def execOrderBufferRelease (s : State) : Outcome :=
  let p := s.sel.p
  let site := s.sel.site
  let o := obufAt s p site
  match o.waiting[s.sel.k]? with
  | none => notNow
  | some a =>
    let i := openChain o a.tag
    let c := i.bind (fun i => o.chains[i]?)
    let stuck := o.released.any (fun b => b.tag == a.tag && (b.heldFault || (b.op == 0x85 && !b.isNull)))
    if 64 ≤ s.sel.k ∨ !mayRelease c a.r ∨ stuck ∨ (c.isNone ∧ 32 ≤ (o.chains.filter (fun c => !c.closed)).length) ∨
        gatedCtx s p site a.ctx then notNow
    else
      let disc := (c.map (·.discard)).getD false
      let closed := a.r.next == 0xFE
      let chain : Chain :=
      { tag := a.tag, last := some (a.r.seq.toNat, a.r.next.toNat),
        outst := ((c.map (·.outst)).getD []) ++ [a.id], closed := closed, discard := disc,
        hold := if a.op = 0x85 then some a.id else none }
      let a' : Access := { a with isNull := a.isNull || disc, discard := disc }
      let chains := match i with
        | some i => setAt o.chains i chain
        | none => o.chains ++ [chain]
      let o' : OBuf :=
      { chains := chains, waiting := dropAt o.waiting s.sel.k,
        released := o.released ++ [a'] }
      .next (advance (settleOrders (setObuf s p site o') p site) p site)

/-! ## Performing at a well -/

/-- The check of a configuration word (04 R85, R86). -/
def cfgOk (w : BitVec 128) : Bool :=
  let v := w.toNat
  let mode := bits v 127 125
  let ty : BitVec 4 := BitVec.ofNat 4 (bits v 115 112)
  bits v 124 116 == 0 && bits v 111 64 == 0 &&
    (match mode with
     | 0 => v % 2 ^ 64 == 0 && ty == 0
     | 1 => bits v 46 0 == 0 && decide (ty.toNat < 14) && decide ((bits v 63 61 + 1) * (bits v 60 47 + 1) ≤ 16384)
     | 2 => bits v 49 0 == 0 && decide (ty.toNat < 14)
     | 3 => bits v 47 0 == 0 && decide (ty.toNat < 14) &&
         decide (bufBytes { cfg := w } / 32 * (bits v 51 48 + 1) ≤ 16384)
     | 4 => bits v 53 0 == 0 && ty == 0
     | 5 => bit v 0 == false && ty == 0
     | 6 => v % 2 ^ 64 == 0 && ty == 0
     | _ => false)

/-- The configuration word on port a of WCFG (R247). -/
def cfgWord (a : Access) : BitVec 128 :=
  BitVec.ofNat 128 (laneN (aLanes a) 0 + put (laneN (aLanes a) 1) 32 + put (laneN (aLanes a) 2) 64 +
    put (laneN (aLanes a) 3) 96)

/-- WCFG at its well: checked, it waits to take effect (R86, R247). -/
def wcfgAt (s : State) (a : Access) : State :=
  let w := ositeOf a
  let x := wellAt s a.p w
  if x.owner.isSome ∧ x.owner ≠ some a.ctx then accFault s a cPERMISSION 0
  else if !cfgOk (cfgWord a) then accFault s a cILLEGAL 0
  else
    let s := putAccess s { a with combining := true }
    setWell s a.p w { x with pend := x.pend ++ [{ word := cfgWord a, ctx := a.ctx, acc := some a, plane := none }] }

/-- WFULL and WEMPTY (04 R88, 11 R248): the full/empty bits, and the writer's and reader's pointers. -/
def markAt (s : State) (a : Access) : State :=
  let w := ositeOf a
  let x := wellAt s a.p w
  let full := a.op == 0x91
  let m1 := wellMode x == 1
  let i := if m1 then (if full then x.writer else x.reader) else laneN (aLanes a) 0
  if wellMode x ≠ 1 ∧ wellMode x ≠ 3 then accFault s a cILLEGAL 0
  else if !m1 ∧ bufCount x ≤ i then accFault s a cILLEGAL 0
  else
    let changes := x.full.contains i != full
    let step := fun j => if m1 ∧ changes then (j + 1) % bufCount x else j
    let x' := { x with
      full := if full then (if changes then insBy (fun a b => decide (a < b)) i x.full else x.full)
        else x.full.filter (· != i)
      fullWas := if x.fullWas.1 = s.cycle + 1 then x.fullWas else (s.cycle + 1, x.full)
      writer := if full then step x.writer else x.writer
      reader := if full then x.reader else step x.reader }
    finishAccess (setWell s a.p w x') a (ackVal a.tag 0) true

/-- A FIFO access (04 R89): ST appends an entry, LD removes the oldest; `none` when it waits. -/
def fifoAt (s : State) (a : Access) : Option State :=
  let w := ositeOf a
  let x := wellAt s a.p w
  if a.op = 0x81 then
    let b := a.b.getD {}
    let e : FifoEntry := { lanes := maskLanes (accPred a) (List.replicate b.lanes.length 0) b.lanes, ty := b.ty,
                           null := b.null, poison := b.poison, eor := b.eor }
    if (e.lanes.length + 7) / 8 ≤ fifoFree x then
      some (finishAccess (setWell s a.p w { x with fifo := x.fifo ++ [e] }) a (ackVal a.tag 0) true)
    else none
  else if a.op = 0x80 then
    match x.fifo with
    | [] => none
    | e :: rest =>
      some (finishAccess (setWell s a.p w { x with fifo := rest }) { a with poison := a.poison || e.poison }
        { tag := a.tag, ty := e.ty, lanes := e.lanes, null := e.null, eor := e.eor } true)
  else some (accFault s a cILLEGAL 0)

/-- Buffers that an access touches. -/
def bufsOf (x : Well) (a : Access) : List Nat :=
  (bytePlan a).foldl (fun (l : List Nat) y => if l.contains (y.2 / bufBytes x) then l else l ++ [y.2 / bufBytes x]) []

/-- The full/empty bits as this cycle's requests see them (04 R88). -/
def fullSeen (s : State) (x : Well) : List Nat := if x.fullWas.1 = s.cycle + 1 then x.fullWas.2 else x.full

/-- An access to an operand store or a line buffer waits (04 R88, 11 R237). -/
def bufWaits (s : State) (x : Well) (a : Access) : Bool :=
  (reads a.op && (bufsOf x a).any (fun i => !(fullSeen s x).contains i)) || (writes a.op && (bufsOf x a).any (fun i => (fullSeen s x).contains i))

/-- An access of a well sets out, sector by sector: a read by its read generator, any other by its write generator (04 R83). -/
def wellOut (s : State) (a : Access) : State :=
  let w := ositeOf a
  let secs := planSectors a
  if secs.isEmpty then finishAccess s a (accValue a) true
  else
    let a := { a with left := some secs }
    let s := putAccess s a
    { s with reqs := s.reqs ++ secs.map (fun sec => pieceReq s a sec (32 * sec) 0 [if isLoad a.op then arbRead a.p w else arbWell a.p w]) }

/-- An access to an operand store or a line buffer is taken: an offset beyond the buffers first, then the wait, then the tests of R238
(11 R237, R240); `none` when it waits. -/
def storeAt (s : State) (a : Access) : Option State :=
  let w := ositeOf a
  let x := wellAt s a.p w
  let limit := bufCount x * bufBytes x
  match (bytePlan a).find? (fun y => decide (limit ≤ y.2)) with
  | some y => some (accFault s a cILLEGAL y.2)
  | none =>
    if bufWaits s x a then none
    else match misaligned a with
      | some addr => some (accFault s a cALIGNMENT addr)
      | none =>
        if straddles a then some (accFault s a cALIGNMENT (elemAddr a 0))
        else if a.op = 0x8F then some (toCombiner s a (siteKey a.p w) (elemAddr a 0))
        else some (wellOut s a)

/-! ## Page windows (04 R90, R92; 05 R105) -/

/-- Whether a page lies in a window's region. -/
def inWindow (x : Well) (page : Nat) : Bool :=
  decide (bits x.cfg.toNat 63 20 ≤ page) && decide (page ≤ bits x.cfg.toNat 63 20 + bits x.cfg.toNat 19 4)

/-- The slot that holds a page. -/
def slotOf (x : Well) (page : Nat) : Option (Nat × PwSlot) := x.slots.find? (fun y => y.2.page == page)

/-- The slot to take: an invalid one, else the least recently used that is not pinned (R90). -/
def slotTake (x : Well) : Option Nat :=
  match (List.range 128).find? (fun i => (tget? x.slots i).isNone) with
  | some i => some i
  | none => (x.slots.foldl (fun (best : Option (Nat × PwSlot)) y =>
      if y.2.pin then best
      else match best with
        | none => some y
        | some b => if y.2.used < b.2.used then some y else some b) none).map (·.1)

/-- Write a slot's dirty sectors back. -/
def flushSlot (s : State) (p w slot : Nat) : State := wbSlot s p w slot

/-- The slot that holds a page is used now. -/
def slotUsed (s : State) (p w slot : Nat) : State :=
  let x := wellAt s p w
  match tget? x.slots slot with
  | some sl => setWell s p w { x with slots := tput x.slots slot { sl with used := s.cycle } }
  | none => s

/-- Take a slot for a page, a victim's dirty sectors written back first; `none` when every slot is pinned. -/
def takeSlot (s : State) (p w page base : Nat) : Option (State × Nat) :=
  match slotOf (wellAt s p w) page with
  | some (i, _) => some (slotUsed s p w i, i)
  | none =>
    match slotTake (wellAt s p w) with
    | none => none
    | some i =>
      let s := flushSlot s p w i
      let x := wellAt s p w
      let sl : PwSlot := { page := page, base := base, have_ := 0, dirty := 0, pin := false, used := s.cycle }
      some (setWell s p w { x with slots := tput x.slots i sl }, i)

/-- A sector of a page that a window holds, by the sector's number: the slot. -/
def slotHolds (x : Well) (sec : Nat) : Option Nat :=
  match slotOf x (sec / 128) with
  | some (i, sl) => if bit sl.have_ (sec % 128) then some i else none
  | none => none

/-- A sector of an access that the window must hold before it is performed: not one that goes to another part at DIE scope or wider. -/
def mustHold (a : Access) (sec : Nat) : Bool := decide (scopeOf a ≤ 1) || !remote (placeAt a (32 * sec))

/-- A fill of a sector of a window is on its way. -/
def filling (s : State) (p w sec : Nat) : Bool :=
  let is := fun (r : Req) => match r.kind with
    | .fill q v page k => q == p && v == w && 128 * page + k == sec
    | _ => false
  s.reqs.any is || s.remotes.any (fun x => x.req.any is)

/-- Ask for one sector of a page, for a window that has a slot for it (R90). -/
def fillReq (s : State) (p w sec base ctx : Nat) : State :=
  let pa := base + 32 * (sec % 128)
  { s with reqs := s.reqs ++ [{ kind := .fill p w (sec / 128) (sec % 128), path := [arbBank (dieOf p) (gaOf s pa), arbWell p w],
                                born := s.cycle, ctx := ctx, issuer := p, addr := pa, ctag := 64, cls := windowClass (wellAt s p w) }] }

/-- A sector that has come is put into the slot of its page, if the page still has one. -/
def fillPut (s : State) (p w page sec : Nat) (bs : List Byte) (bad : Bool) : State :=
  match slotOf (wellAt s p w) page with
  | none => s
  | some (i, sl) =>
    if bit sl.have_ sec then s
    else
      let s := wellStore s p w ((List.range 32).map (fun j => (4096 * i + 32 * sec + j, bs.getD j 0))) bad
      let x := wellAt s p w
      setWell s p w { x with slots := tput x.slots i { sl with have_ := sl.have_ + 2 ^ sec, used := s.cycle } }

/-- A copy that a store at PANEL scope has left behind the L2's is renewed before its window stores into it (05 R104). -/
def renew (s : State) (p w slot sec ga : Nat) : State :=
  match l2At s (dieOf p) ga, tget? (wellAt s p w).slots slot with
  | some y, some sl =>
    if y.narrow ∧ !bit sl.dirty sec then
      wellStore s p w ((List.range 32).map (fun j => (4096 * slot + 32 * sec + j, secByte y.data j))) y.poison
    else s
  | _, _ => s

/-- A sector of an access at CHAIN or PANEL scope, in its slot. -/
def windowNarrow (s : State) (a : Access) (sec : Nat) : State × Access :=
  let w := ositeOf a
  match slotOf (wellAt s a.p w) (sec / 128) with
  | none => (s, a)
  | some (i, sl) =>
    let s := if writes a.op then renew s a.p w i (sec % 128) (gaOf s sl.base + 32 * (sec % 128)) else s
    let s := noteRelease s a (gaOf s sl.base + 32 * (sec % 128))
    let off := 4096 * i + 32 * (sec % 128)
    let plan := ((bytePlan a).filter (fun x => x.2 / 32 == sec)).map (fun x => (x.1, off + x.2 % 32))
    let (s, a) := performBytes s w a plan
    let x := wellAt s a.p w
    let d := if writes a.op ∧ !bit sl.dirty (sec % 128) then sl.dirty + 2 ^ (sec % 128) else sl.dirty
    (setWell s a.p w { x with slots := tput x.slots i { sl with used := s.cycle, dirty := d } }, a)

/-- A sector of an access at a wider scope: what the window holds dirty is written back, the access is performed at the L2, and the
window's copy takes the L2's bytes. -/
def windowWide (s : State) (a : Access) (sec ga cls : Nat) : State × Access :=
  let w := ositeOf a
  match slotHolds (wellAt s a.p w) sec with
  | none => performSector s none a sec ga cls
  | some i =>
    let s := wbSector s a.p w i (sec % 128)
    let (s, a) := performSector s (some (siteKey a.p w)) a sec ga cls
    match l2At s (atDie (dieOf a.p) (scopeOf a) ga) ga with
    | none => (s, a)
    | some y =>
      (slotUsed (wellStore s a.p w ((List.range 32).map (fun j => (4096 * i + 32 * (sec % 128) + j, secByte y.data j))) y.poison) a.p w i, a)

/-- The stages of a sector of an access to a page window. -/
def windowPath (s : State) (a : Access) (ga : Nat) : List Nat :=
  if 2 ≤ scopeOf a then hostPath a ga (piecePath s a ga) else [if isLoad a.op then arbRead a.p (ositeOf a) else arbWell a.p (ositeOf a)]

/-- What a window holds of the sectors of an access goes back: of an ACC, which is applied at the home die, and of an access to another
part's memory at a wide scope. -/
def windowYields (s : State) (a : Access) (pas : List (Nat × Nat × Nat)) : State :=
  let w := ositeOf a
  pas.foldl (fun s x =>
    if a.op = 0x8F ∨ !mustHold { a with pas := pas } x.1 then
      match slotHolds (wellAt s a.p w) x.1 with
      | some i =>
        let s := wbSector s a.p w i (x.1 % 128)
        let y := wellAt s a.p w
        setWell s a.p w { y with slots := y.slots.map (fun z => if z.1 = i then (z.1, slotLose z.2 (x.1 % 128) true) else z) }
      | none => s
    else s) s

/-- An access to a page window is taken: translation and rights first; `none` when it waits for a walk that runs. -/
def windowAt (s : State) (a : Access) : Option State :=
  let x := wellAt s a.p (ositeOf a)
  let addrs := testAddrs a
  if a.r.space ≠ 1 then some (accFault s a cILLEGAL (elemAddr a 0))
  else if (rawBad a).isSome then some (accFault s a cTRANSLATION ((rawBad a).getD 0))
  else if a.op ≠ 0x8F ∧ straddles a then some (accFault s a cALIGNMENT (elemAddr a 0))
  else
    match addrs.find? (fun y => !inWindow x (y / 4096)) with
    | some y => some (accFault s a cTRANSLATION y)
    | none =>
      match firstWalk s a (addrs.map (· / 32)) with
      | some va =>
        let s' := startWalk s a va
        if s'.walks.length = s.walks.length then none else some s'
      | none =>
        match firstBreach s a addrs with
        | some (y, c) => some (accFault s a c y)
        | none =>
          if releaseWaits s a then none
          else
            let pas := placesOf s a
            let s := match pas with
              | [] => s
              | y :: _ => beforeRelease s a y.2.1
            if releaseWaits s a then some s else some (setOut (windowYields s a pas) a pas (fun _ ga => windowPath s a ga))

/-- PAGE_WINDOW_FILL (R90): the first sector that the `k`-th released access of a window must hold, and that neither is held nor on
its way, is asked for; its page takes a slot if it has none. -/
def execPageWindowFill (s : State) : Outcome :=
  let p := s.sel.p
  let w := s.sel.site
  match (obufAt s p w).released[s.sel.k]? with
  | none => notNow
  | some a =>
    if wellMode (wellAt s p w) ≠ 5 ∨ a.combining then notNow
    else
      match (a.left.getD []).find? (fun sec => mustHold a sec && (slotHolds (wellAt s p w) sec).isNone && !filling s p w sec) with
      | none => notNow
      | some sec =>
        let base := paOfGa (placeAt a (32 * sec) / 4096 * 4096)
        match takeSlot s p w (sec / 128) base with
        | some (s', _) => .next (fillReq s' p w sec base a.ctx)
        | none => notNow

/-! ## Pace stores in a well (12 R272, R276) -/

/-- A 32-bit field of a pace store. -/
def paceWord (s : State) (p w off : Nat) : Nat := leNat (mreads s.wmem (wellAddr p w off) 4)

/-- LDP (R276): the value of a member, held or extrapolated, and its flags. -/
def ldpValue (s : State) (p w m : Nat) : Nat × BitVec 5 :=
  let off := 64 + 32 * m
  let value := paceWord s p w off
  let delta := paceWord s p w (off + 4)
  let span := paceWord s p w (off + 8)
  let slast := paceWord s p w (off + 12)
  let sidx := paceWord s p w 0
  let desc := paceWord s p w 4
  let pend := bit (paceWord s p w (off + 16)) 10
  if !bit desc 18 ∨ slast = sidx ∨ span = 0 ∨ pend then (value, 0)
  else
    let n : Nat := (sidx + 2 ^ 32 - slast) % 2 ^ 32
    let t : Nat × BitVec 5 := match fread 10 delta with
      | .fin x => rnd 10 0 0 { x with m := x.m * n * 2 ^ 64 / span, e := x.e - 64, sticky := x.m * n * 2 ^ 64 % span != 0 }
      | _ => fmul 10 0 0 (fread 10 delta) (fread 10 0x3F800000)
    let r := fadd 10 0 0 (fread 10 value) (fread 10 t.1)
    (r.1, t.2 ||| r.2)

/-- An access to a pace store: a raw LD, or LDP. -/
def paceAt (s : State) (a : Access) : State :=
  let w := ositeOf a
  let x := wellAt s a.p w
  if a.op = 0x93 then
    let m := laneN (aLanes a) 0
    if bits x.cfg.toNat 63 54 < m then accFault s a cILLEGAL 0
    else
      let r := ldpValue s a.p w m
      let bad := tgetD s.wbad (wbadKey a.p w (64 + 32 * m)) false || tgetD s.wbad (wbadKey a.p w 0) false
      let a' := { a with poison := a.poison || bad }
      let s := if curPoison (accCur a) || bad then s else curFlags s (accCur a) r.2
      finishAccess s a' { tag := a.tag, ty := 10, lanes := word1 r.1 } true
  else if a.op = 0x80 ∧ a.r.space = 0 then
    match misaligned a with
    | some y => accFault s a cALIGNMENT y
    | none =>
      if (bytePlan a).any (fun y => decide (524288 ≤ y.2)) then accFault s a cILLEGAL (elemAddr a 0)
      else
        let (s, a') := performBytes s w a (bytePlan a)
        finishAccess s a' (accValue a') true
  else accFault s a cILLEGAL (elemAddr a 0)

/-- The release of an access at a well under SPACE 0 makes earlier stores performed at its scope (05 R106). -/
def wellRelease (s : State) (a : Access) : State :=
  if a.r.ord.getLsbD 1 ∧ a.r.space = 0 then pushScope s a.p (scopeOf a) (some a.ctx) else s

/-- A release at a well goes on once what it pushes is performed. -/
def afterRelease (s : State) (a : Access) (k : State → Option State) : Option State :=
  if releaseWaits s a then none
  else
    let s1 := wellRelease s a
    if releaseWaits s1 a then some s1 else k s1

/-- A well between two cells of one column of an array: a skew well (11 R256). -/
def isSkew (s : State) (p w : Nat) : Bool :=
  s.arrays.any (fun a => a.p == p && decide (a.y0 < w / 16) && decide (w / 16 < a.y0 + 2 * ((a.y1 - a.y0) / 2)) &&
    (w / 16 - a.y0) % 2 == 1 && decide (a.x0 ≤ w % 16) && decide (w % 16 ≤ a.x1) && (w % 16 - a.x0) % 2 == 0)

/-- A released access is taken by its well, or faults; `none` when it waits (11 R237). -/
def accessWell (s : State) (a : Access) : Option State :=
  let x := wellAt s a.p (ositeOf a)
  let mode := wellMode x
  if isSkew s a.p (ositeOf a) then some (accFault s a cILLEGAL 0)
  else if a.op = 0x90 then some (wcfgAt s a)
  else if x.pend.any (fun c => c.plane == some a.plane) then none
  else if !wellAdmits s a then some (accFault s a cTAG 0)
  else if mode = 0 ∨ mode = 7 then some (accFault s a cILLEGAL 0)
  else if a.op = 0x91 ∨ a.op = 0x92 then some (markAt s a)
  else if a.op = 0x93 ∧ mode ≠ 4 then some (accFault s a cILLEGAL 0)
  else if a.r.space = 0 ∧ (List.range (elemCount a)).any (fun j => decide (524288 ≤ rawAddr a j)) ∧ mode ≠ 2 ∧ mode ≠ 4 then
    some (accFault s a cILLEGAL (rawAddr a 0))
  else
    match mode with
    | 1 | 3 => if a.r.space = 0 then afterRelease s a (fun s => storeAt s a) else some (accFault s a cILLEGAL (elemAddr a 0))
    | 2 => if a.r.space = 0 then afterRelease s a (fun s => fifoAt s a) else some (accFault s a cILLEGAL 0)
    | 4 => some (paceAt s a)
    | 5 => windowAt s a
    | _ => some (accFault s a cILLEGAL (elemAddr a 0))

/-- WELL_ACCESS (R237): the well takes its `k`-th released access, which is performed sector by sector or at once, or faults. -/
def execWellAccess (s : State) : Outcome :=
  let p := s.sel.p
  let w := s.sel.site
  let o := obufAt s p w
  match o.released[s.sel.k]? with
  | none => notNow
  | some a =>
    if !isWell w ∨ a.isNull ∨ isOrdering a.op ∨ a.heldFault ∨ started a ∨ !canPerform o a then notNow
    else match accessWell s a with
      | some s' => .next s'
      | none => notNow

/-- An access of a well that is accepted under its word and not yet performed (R86): one under way, one whose turn has come, one that
has faulted and is held, an addend at the combiner. A word does not wait for those that wait for it (15 R324). -/
def wellPending (s : State) (p w : Nat) (c : PendCfg) : Bool :=
  let o := obufAt s p w
  o.released.any (fun a => a.op != 0x90 && !a.isNull && !isOrdering a.op && (started a || a.heldFault || canPerform o a) &&
    !(c.plane.isSome && c.plane == some a.plane && !started a)) ||
    s.addends.any (fun y => y.1 == siteKey p w) || s.accSlots.any (fun y => y.place == siteKey p w && !y.staged.isEmpty)

/-- WCFG_TAKE_EFFECT (R86): the oldest accepted word of a well takes effect once the well holds no pending access, no
frame, no pinned page and no running cavity round. It clears the full/empty bits, the FIFO, the window (written back)
and the cavity instances, on which waiting CAVs and CAVJOINs are tested again; the bytes stay. -/
def execWcfgTakeEffect (s : State) : Outcome :=
  let p := s.sel.p
  let w := s.sel.site
  let x := wellAt s p w
  match x.pend with
  | [] => notNow
  | c :: rest =>
    let round := x.cavs.any (fun v => v.contribs.length == v.hi - v.lo)
    if wellPending s p w c ∨ round ∨ s.pins.any (fun y => y.cur.p == p && y.w == w && y.began) ∨ !x.frames.isEmpty ∨ !x.returns.isEmpty ∨ x.slots.any (fun y => y.2.pin) then notNow
    else
      let s := if wellMode x = 5 then x.slots.foldl (fun s y => flushSlot s p w y.1) s else s
      let y := wellAt s p w
      let s := setWell s p w { y with cfg := c.word, owner := some c.ctx, pend := rest, full := [], writer := 0, reader := 0,
                                      fifo := [], slots := [], cavs := [], left := none, fullWas := (0, []) }
      let s := wakePanel s p (fun y => y == .cavity p w)
      .next (match c.acc with
        | some a => finishAccess s a (ackVal a.tag 0) true
        | none => s)

/-! ## The combiner (11 R246) -/

/-- The bytes of an addend's location, and whether one of its sectors is poisoned. -/
def addendRead (s : State) (place : Nat) (plan : List (Nat × Nat)) : List (Nat × Byte) × Bool :=
  let p := place / 256
  let w := place % 256
  if place < 2 ^ 20 then
    (plan.map (fun x => (x.1, mread s.wmem (wellAddr p w x.2))), plan.any (fun x => tgetD s.wbad (wbadKey p w x.2) false))
  else
    (plan.map (fun x => (x.1, secByte (homeSector s x.2).1 (x.2 % 32))), plan.any (fun x => (homeSector s x.2).2))

/-- Apply one addend to its location: element by element, ascending. An addend without a value changes nothing. The flags
of its roundings, and whether it read a poisoned sector. -/
def applyAddend (s : State) (place : Nat) (a : Access) : State × Access × BitVec 5 :=
  let e := esize a.r.fmt
  if a.isNull ∨ (a.b.map (·.null)).getD true then (s, a, 0)
  else
    let well := decide (place < 2 ^ 20)
    let plan := (bytePlan a).map (fun x => (x.1, placeAt a x.2))
    let secs := (plan.map (fun x => x.2 / 32)).eraseDups
    let t : LineTag := { cls := ((a.pas.head?).map (·.2.2)).getD 0, kernel := kernelId a.p a.plane }
    let s := if well then s else secs.foldl (fun s sec =>
      (readL2 (passOn s (dieOf a.p) (32 * sec)) (homeDie (32 * sec)) 3 (32 * sec) a.ctx t).1) s
    let rd := addendRead s place plan
    let a := readInto { a with got := [] } rd.1 rd.2
    let res := (List.range (elemCount a)).map (fun j =>
      if !elemOn a j then (gotElem a j, (0 : BitVec 5))
      else
        let b := elem a.r.fmt (bLanes a) j
        if isFloatTy a.r.fmt then fadd a.r.fmt 0 0 (fread a.r.fmt (gotElem a j)) (fread a.r.fmt b)
        else (wrapN (elemBits a.r.fmt) (gotElem a j + b : Nat), 0))
    let byteAt := fun (pos : Nat) => BitVec.ofNat 8 ((res.getD (pos / e) (0, 0)).1 / 2 ^ (8 * (pos % e)))
    let poison := rd.2 || (a.b.map (·.poison)).getD false
    let s := if well then wellStore s (place / 256) (place % 256) (plan.map (fun x => (x.2, byteAt x.1))) poison
      else secs.foldl (fun s sec =>
        writeL2 s none (homeDie (32 * sec)) 3 (32 * sec) a.ctx t
          ((plan.filter (fun x => x.2 / 32 == sec)).map (fun x => (x.2 % 32, byteAt x.1))) poison) s
    (s, a, res.foldl (fun f x => f ||| x.2) 0)

/-- Index, level-cleared tag and count of an addend. -/
def addendIdx (s : State) (a : Access) : Nat := fld (layoutOf s a.p a.plane) a.tag (bits (countWord a) 18 16)
def addendBase (s : State) (a : Access) : Word64 := setfld (layoutOf s a.p a.plane) a.tag (bits (countWord a) 18 16) 0

/-- Send the response to a request of another part, from the die where it was performed: it passes the arbiters to its port, with the
slack that is left of what it came with (06 R135). -/
def respond (s : State) (die dev : Nat) (carried : Option Carried) (body : FlitBody) : State :=
  match portPath s die dev with
  | none => s
  | some path =>
    { s with reqs := s.reqs ++ [{ kind := .reply dev body, path := path, born := s.cycle, ctx := noCtx, issuer := 16 * die, addr := 0,
                                  ctag := 64, carried := carried, came := s.cycle }] }

/-- The acknowledgement of an applied addend: value i, EOR on the last (R246). -/
def ackAddend (s : State) (a : Access) (i cnt : Nat) (flags : BitVec 5) : State :=
  match a.reply with
  | some (dev, id) => respond s (dieOf a.p) dev none
      (.response id (leBytes 4 i ++ [BitVec.ofNat 8 (b2n (i + 1 == cnt)), BitVec.ofNat 8 flags.toNat]) a.poison)
  | none =>
    let s := if a.poison then s else curFlags s (accCur a) flags
    advance (finishAccess s a { ackVal a.tag i with eor := i + 1 == cnt } true) a.p (ositeOf a)

/-- Apply the addend whose index is next, and those staged behind it; the slot closes after the last. -/
def applyRun (place : Nat) : Nat → State → AccSlot → State × AccSlot
  | 0, s, sl => (s, sl)
  | n + 1, s, sl =>
    match sl.staged.find? (fun x => x.1 == sl.next) with
    | none => (s, sl)
    | some x =>
      let (s, a, f) := applyAddend s place x.2
      let s := ackAddend s a x.1 sl.cnt f
      applyRun place n s { sl with next := sl.next + 1, staged := sl.staged.filter (fun y => y.1 != x.1) }

/-- Key of a slot: place, address, base tag with its colour. -/
def slotIs (place addr : Nat) (base : Word64) (x : AccSlot) : Bool :=
  x.place == place && x.addr == addr && x.base == base

/-- An addend of N addends with index i at its combiner; `none` while it waits for a slot or for staging room. -/
def addendAt (s : State) (k place addr : Nat) (a : Access) (i cnt : Nat) (base : Word64) : Option State :=
  let s0 := { s with addends := dropAt s.addends k }
  let here := s.accSlots.filter (fun x => x.place == place)
  let j := idxOf (slotIs place addr base) s.accSlots
  let sl : AccSlot := match j with
    | some j => s.accSlots.getD j default
    | none => { place := place, addr := addr, base := base, next := 0, cnt := cnt, staged := [] }
  if j.isNone ∧ 16 ≤ here.length then none
  else if cnt ≠ sl.cnt ∨ cnt ≤ i ∨ i < sl.next ∨ sl.staged.any (fun x => x.1 == i) then
    let s1 := if j.isSome then s0 else { s0 with accSlots := s0.accSlots ++ [sl] }
    some (match a.reply with
      | some (dev, id) => respond s1 (dieOf a.p) dev none (.response id [] false)
      | none => advance (accFault s1 a cILLEGAL (elemAddr a 0)) a.p (ositeOf a))
  else if sl.next < i ∧ 64 ≤ (here.map (fun x => x.staged.length)).foldl (· + ·) 0 then none
  else
    let sl1 := { sl with staged := sl.staged ++ [(i, a)] }
    let (s1, sl2) := applyRun place sl1.staged.length s0 sl1
    let others := s1.accSlots.filter (fun x => !slotIs place addr base x)
    some { s1 with accSlots := if sl2.next = sl2.cnt then others else others ++ [sl2] }

/-- ACC_ADDEND (R246): the combiner takes the `k`-th addend that has reached it. -/
def execAccAddend (s : State) : Outcome :=
  match s.addends[s.sel.k]? with
  | none => notNow
  | some (place, addr, a) =>
    let (cnt, i, base) := a.racc.getD (countWord a % 65536, addendIdx s a, addendBase s a)
    match addendAt s s.sel.k place addr a i cnt base with
    | some s' => .next s'
    | none => notNow

/-- An access that waits for a page's walk. -/
def waitsWalk (s : State) (wk : Walk) (a : Access) : Bool :=
  a.ctx == wk.ctx && a.r.space == 1 && hasAddr a.op && !a.isNull && !a.heldFault && !started a &&
    mayStart (obufAt s a.p (ositeOf a)) a && (testAddrs a).any (fun x => x / 4096 == wk.va / 4096)

/-- PAGE_WALK (R360, R365): walk `k`, which has read its last entry, completes. Its leaf is installed, or its cause falls on the
accesses that wait for it; then those that wait are looked at again. -/
def execPageWalk (s : State) : Outcome :=
  match s.walks[s.sel.k]? with
  | none => notNow
  | some wk =>
    match wk.fin with
    | none => notNow
    | some e =>
      let s0 := { s with walks := dropAt s.walks s.sel.k }
      let s1 := match e with
        | .leaf leaf => tlbInstall s0 wk.ctx wk.p wk.site wk.va leaf
        | .bad c =>
          s0.obufs.foldl (fun s (o : Nat × OBuf) =>
            if dieOf (o.1 / 256) = wk.die then
              o.2.released.foldl (fun s (a : Access) => if waitsWalk s wk a then accFault s a c wk.va else s) s
            else s) s0
      .next (s1.obufs.foldl (fun s (o : Nat × OBuf) => advance s (o.1 / 256) (o.1 % 256)) s1)

end Sys2Proof.Machine
end

