-- ==== Sys2Proof/Machine/Memory.lean ====
section
/-!
DEFINITION. The memory records: what a match of LD to WEMPTY (11 R235 to R248), LDP (12 R276) and PROMOTE (16 R343)
sends to its ordering site, or holds to the commit of its block.
-/
namespace Sys2Proof.Machine

/-- FMT admitted (R235, R276, R343). -/
def memFmtOk (op : Nat) (f : BitVec 4) : Bool :=
  let n := f.toNat
  if op = 0x80 ∨ op = 0x81 then n ≤ 13
  else if isScatter op then n ≤ 10
  else if isOrdering op then n == 0
  else if isAtomic op then n ≤ 7
  else if op = 0x8F then n == 2 || n == 3 || (6 ≤ n && n ≤ 10)
  else if op = 0x93 then n == 10
  else if op = 0x94 then n == 2 || n == 3 || n == 6 || n == 7
  else n == 6

/-- ORD admitted. -/
def memOrdOk (op : Nat) (o : BitVec 2) : Bool :=
  if op = 0x94 then o == 1
  else if isOrdering op || 0x90 ≤ op then o == 0
  else true

/-- SPACE, SCOPE and OFF admitted with an ordering site. -/
def memPlaceOk (op : Nat) (r : RecM) : Bool :=
  let well := isWell r.osite.toNat
  (well || isEau r.osite.toNat) && r.scope.toNat < 6 && r.space != 3 && (!well || r.space != 2) &&
    (if isOrdering op then r.off == 0 && (!well || r.space == 0)
     else if op = 0x90 ∨ op = 0x91 ∨ op = 0x92 then well && r.space == 0 && r.scope == 0 && r.off == 0
     else if op = 0x93 then well && r.space == 0 && r.scope.toNat ≤ 1 && r.off == 0
     else if op = 0x94 then !well && (r.space == 1 || r.space == 2) && 2 ≤ r.scope.toNat
     else well || r.space != 0)

/-- LSID: a store-class record in a block has one; any other record has 0 (08 R168). -/
def memLsidOk (s : State) (op : Nat) (r : RecM) : Bool := (s.cur.site == 240 && storeClass op) || r.lsid == 0

/-- The cause of the take-in checks (08 R179), with the poisoned address of 20 R401 and the count word of R245. -/
def memBad (s : State) (op : Nat) (r : RecM) : Option Nat :=
  let c := s.cur
  let a := portTok c 0
  let cw := laneN a.lanes (if r.space = 0 then 1 else 2)
  if !memFmtOk op r.fmt || !memOrdOk op r.ord || !memPlaceOk op r || !memLsidOk s op r || r.d1lo != 0 ||
      r.ctl.lituse != 0 || badCtl (basePorts op) r.ctl then some cILLEGAL
  else if r.space = 2 ∧ privOf s (matchCtx s c.p c.plane c.tag) = 0 then some cPERMISSION
  else if hasAddr op && a.poison && !a.null then some cPOISON
  else if op = 0x8F ∧ !a.null ∧ (cw / 2 ^ 19 ≠ 0 ∨ cw % 65536 = 0) then some cILLEGAL
  else none

/-- The access that a match makes (R239). An ACC counts toward its slot though its data is null or its predicate false
(R246): it is then applied as no change. -/
def accessOf (s : State) (op : Nat) (r : RecM) : Access :=
  let c := s.cur
  let off := anyNull c (portSet (basePorts op) r.ctl) || predFalse r.ctl c
  let null := if op = 0x8F then (portTok c 0).null else off
  let b := portTok? c 1
  { id := s.fresh, op := op, r := r, p := c.p, site := c.site, plane := c.plane, node := c.node, tag := c.tag,
    ctx := matchCtx s c.p c.plane c.tag, a := portTok? c 0
    b := if op = 0x8F ∧ off then b.map (fun t => { t with null := true }) else b
    c := portTok? c 2, isNull := null, born := s.cycle, late := c.late }

/-- An access joins the records that wait at its ordering site (R107). -/
def toSite (s : State) (a : Access) : State :=
  let o := obufAt s a.p (ositeOf a)
  setObuf s a.p (ositeOf a) { o with waiting := o.waiting ++ [a] }

/-- A memory record's match: in a block a store-class record is counted, and held to commit unless it is an MNOP
(02 R52, R53); every other access is sent to its ordering site. -/
def memFire (op : Nat) (r : RecM) (s : State) : Outcome :=
  let c := s.cur
  if !hasPorts c (portSet (basePorts op) r.ctl) then .refused .noMatch
  else
    match memBad s op r with
    | some k => .next (faultCur s c k 0)
    | none =>
      let a := accessOf s op r
      let s := { s with fresh := s.fresh + 1 }
      if storeClass op ∧ inBlock s ∧ !c.late then
        let s := onBlock s c.p (fun b => { b with lsids := b.lsids ++ [r.lsid.toNat] })
        if op = 0x84 then .next (toSite s a)
        else .next (onBlock s c.p (fun b => { b with stores := b.stores ++ [a] }))
      else .next (toSite s a)

/-- LD (R240). -/
def execLd (r : RecM) (s : State) : Outcome := memFire 0x80 r s

/-- ST (R240). -/
def execSt (r : RecM) (s : State) : Outcome := memFire 0x81 r s

/-- LDX (R241). -/
def execLdx (r : RecM) (s : State) : Outcome := memFire 0x82 r s

/-- STX (R241). -/
def execStx (r : RecM) (s : State) : Outcome := memFire 0x83 r s

/-- MNOP (R242). -/
def execMnop (r : RecM) (s : State) : Outcome := memFire 0x84 r s

/-- FENCE (R242). -/
def execFence (r : RecM) (s : State) : Outcome := memFire 0x85 r s

/-- ORDER (R242). -/
def execOrder (r : RecM) (s : State) : Outcome := memFire 0x86 r s

/-- AADD (R243). -/
def execAadd (r : RecM) (s : State) : Outcome := memFire 0x87 r s

/-- AMIN (R243). -/
def execAmin (r : RecM) (s : State) : Outcome := memFire 0x88 r s

/-- AMAX (R243). -/
def execAmax (r : RecM) (s : State) : Outcome := memFire 0x89 r s

/-- AAND (R243). -/
def execAand (r : RecM) (s : State) : Outcome := memFire 0x8A r s

/-- AOR (R243). -/
def execAor (r : RecM) (s : State) : Outcome := memFire 0x8B r s

/-- AXOR (R243). -/
def execAxor (r : RecM) (s : State) : Outcome := memFire 0x8C r s

/-- AXCHG (R243). -/
def execAxchg (r : RecM) (s : State) : Outcome := memFire 0x8D r s

/-- ACAS (R243). -/
def execAcas (r : RecM) (s : State) : Outcome := memFire 0x8E r s

/-- ACC (R245). -/
def execAcc (r : RecM) (s : State) : Outcome := memFire 0x8F r s

/-- WCFG (R247). -/
def execWcfg (r : RecM) (s : State) : Outcome := memFire 0x90 r s

/-- WFULL (R248). -/
def execWfull (r : RecM) (s : State) : Outcome := memFire 0x91 r s

/-- WEMPTY (R248). -/
def execWempty (r : RecM) (s : State) : Outcome := memFire 0x92 r s

/-- LDP (12 R276). -/
def execLdp (r : RecM) (s : State) : Outcome := memFire 0x93 r s

/-- PROMOTE (16 R343). -/
def execPromote (r : RecM) (s : State) : Outcome := memFire 0x94 r s

end Sys2Proof.Machine
end

