-- ==== Sys2Proof/Machine/Transfer.lean ====
section
/-!
DEFINITION. Need-by service: slack and the arbiters (06 R127 to R134), misses (04 R95, R101), and the bulk transfers XFER,
XFERS and PREF (11 R249 to R251).
-/
namespace Sys2Proof.Machine

/-! ## Descriptors (R249) -/

/-- Lane `i` of a descriptor. -/
def dLane (d : List Lane) (i : Nat) : Nat := laneN d i

def xSrc (d : List Lane) : Nat := dLane d 0 + dLane d 1 * 2 ^ 32
def xDst (d : List Lane) : Nat := dLane d 2 + dLane d 3 * 2 ^ 32
def xDwell (d : List Lane) : Nat := bits (dLane d 4) 31 24
def xSwell (d : List Lane) : Nat := bits (dLane d 4) 23 16
def xDspace (d : List Lane) : Nat := bits (dLane d 4) 15 14
def xSspace (d : List Lane) : Nat := bits (dLane d 4) 13 12
def xScope (d : List Lane) : Nat := bits (dLane d 4) 11 9
def xClass (d : List Lane) : Nat := bits (dLane d 4) 8 6
def xEorl (d : List Lane) : Bool := bit (dLane d 4) 5
def xEntry (d : List Lane) : Nat := bits (dLane d 4) 4 0 + 1
def xSstride (d : List Lane) : Int := sgn 32 (dLane d 5)
def xDstride (d : List Lane) : Int := sgn 32 (dLane d 6)
def xRows (d : List Lane) : Nat := bits (dLane d 7) 15 0 + 1

def opXfer : Nat := 0xA0
def opXfers : Nat := 0xA1
def opPref : Nat := 0xA2
def opColl : Nat := 0xC7

/-- Sectors of one row: LEN lines of eight. -/
def rowSectors (r : RecT) : Nat := 8 * r.len.toNat

/-- Sectors of a transfer. -/
def xTotal (x : Xfer) : Nat := xRows x.desc * rowSectors x.r

/-- Source and destination address of sector `k` of a row. -/
def xSrcAt (d : List Lane) (row k : Nat) : Nat := wrapN 64 (xSrc d + xSstride d * row + (32 * k : Nat))
def xDstAt (d : List Lane) (row k : Nat) : Nat := wrapN 64 (xDst d + xDstride d * row + (32 * k : Nat))

/-- Every row of a well range lies in the well. -/
def rangeOk (base : Nat) (stride : Int) (d : List Lane) (r : RecT) : Bool :=
  (List.range (xRows d)).all (fun i =>
    decide (0 ≤ (base : Int) + stride * i) && decide ((base : Int) + stride * i + 256 * r.len.toNat ≤ 524288))

/-- A breach of R249 or R250 in a descriptor. -/
def descBad (s : State) (p ctx op : Nat) (r : RecT) (d : List Lane) : Bool :=
  let src := wellAt s p (xSwell d)
  let dst := wellAt s p (xDwell d)
  let pg := pgAt s p r.pgn.toNat
  decide (2 ^ 56 ≤ xSrc d) || decide (2 ^ 56 ≤ xDst d) || dLane d 7 / 65536 != 0 || xSrc d % 32 != 0 || xDst d % 32 != 0 ||
    (op != opXfers && (dLane d 5 != 0 || dLane d 6 != 0 || dLane d 7 != 0)) ||
    xSstride d % 32 != 0 || xDstride d % 32 != 0 || xSspace d == 3 || xDspace d == 3 || decide (5 < xScope d) ||
    decide (5 < xClass d) || !([1, 2, 4, 8, 16, 32].contains (xEntry d)) ||
    !pg.alloc || pg.ctx != ctx ||
    (if op = opPref then xSspace d == 0 || xDst d != 0 || xDwell d != 0 || xDspace d != 0
     else
      (xSspace d == 0 && (!isWell (xSwell d) || (wellMode src != 1 && wellMode src != 3) ||
        !rangeOk (xSrc d) (xSstride d) d r)) ||
      (xDspace d == 0 && (!isWell (xDwell d) || (wellMode dst != 1 && wellMode dst != 2 && wellMode dst != 3) ||
        (wellMode dst != 2 && !rangeOk (xDst d) (xDstride d) d r))))

/-- The descriptor with its well sites moved by the record's shift (07 R157), `none` for one that leaves the grid; site 0 is no well. -/
def shiftDesc (s : State) (c : Cur) (d : List Lane) : Option (List Lane) :=
  let move := fun (space w : Nat) => if space = 0 ∧ w ≠ 0 then shiftSite s c w else some w
  match move (xDspace d) (xDwell d), move (xSspace d) (xSwell d) with
  | some dw, some sw => some (setAt d 4 (BitVec.ofNat 32 (put dw 24 + put sw 16 + dLane d 4 % 65536)))
  | _, _ => none

/-! ## Slack (06 R128, R129, R134) -/

def xferOf (s : State) (id : Nat) : Option Xfer := s.xfers.find? (fun x => x.id == id)

/-- A transfer with mark M is late under LVALUE. -/
def lateUnder (lvalue mark : Nat) : Bool := (lvalue % 65536 + 65536 - mark) % 65536 < 32768

/-- Slack of a transfer at an arbiter on a die. -/
def slackAt (s : State) (die : Nat) (x : Xfer) : Nat :=
  let h := pgHeld s die (64 * x.cpanel + x.r.pgn.toNat)
  let mark := x.r.mark.toNat
  if x.freed || (scribeAt s x.p).late.getLsbD x.r.ctag.toNat || lateUnder h.1 mark then 0
  else
    let d := (mark + 65536 - h.1 % 65536) % 65536
    let r := max h.2 1
    min 65535 ((d * pulseP s x.cpanel * 16 + r - 1) / r)

/-- The die that an arbiter stands on (R130). -/
def arbLoc (arb : Nat) : Nat :=
  let i := arb % 65536
  match arb / 65536 with
  | 0 => dieOf (i / 256)
  | 1 => i / 64
  | 2 => i
  | 3 => i / 32
  | 4 => if i % 2 = 0 then (if i / 2 = 1 then 1 else 0) else (if i / 2 = 0 then 1 else 2)
  | 5 => (i - 3) / 8
  | 7 => 0
  | 8 => dieOf (i / 256)
  | 9 => dieOf (i / 256)
  | _ => i

/-- Exponent of a partition's interval at a class of arbiter (R133). -/
def shareExp (s : State) (arb part : Nat) : Nat :=
  let v := (partAt s part).bwshare.toNat
  match arb / 65536 with
  | 0 => bits v 3 0
  | 1 | 2 => bits v 7 4
  | 3 => bits v 11 8
  | 4 => bits v 15 12
  | 5 => bits v 19 16
  | _ => 0

/-- Partition of a request; one from outside the part has none (126). -/
def reqPart (s : State) (r : Req) : Nat := if r.ctx = noCtx then 126 else partOf s r.ctx

/-- The interval of a request's partition has elapsed at an arbiter. -/
def intervalOk (s : State) (arb : Nat) (r : Req) : Bool :=
  let part := reqPart s r
  if part = 126 then true
  else
    let k := shareExp s arb part
    match tgetD s.served (arb * 128 + part) 0 with
    | 0 => true
    | t + 1 => k == 0 || decide (t + 2 ^ k ≤ s.cycle)

/-- NBCTL.HOLD as the arbiters use it in this cycle (R132). -/
def nbHold (s : State) (ctx : Nat) : Nat :=
  let x := ctxAt s ctx
  (if x.nbWas.1 = s.cycle + 1 then x.nbWas.2 else x.nbctl).toNat % 65536

/-- A write of NBCTL (R132). -/
def setNbctl (s : State) (x : Ctx) (v : Word64) : Ctx :=
  { x with nbctl := v, nbWas := if x.nbWas.1 = s.cycle + 1 then x.nbWas else (s.cycle + 1, x.nbctl) }

/-- Slack of a request at an arbiter, and whether it is eligible, or fills (R131). -/
structure Rank where
  slack : Nat
  eligible : Bool
  fill : Bool
deriving DecidableEq, Repr, Inhabited

/-- The carried slack of a request that has come from another part, as it stands in this cycle (R134). -/
def carriedNow (s : State) (r : Req) : Option Carried := r.carried.map (fun c => { c with slack := c.slack - (s.cycle - r.came) })

/-- The rank of a transfer's request. -/
def xferRank (s : State) (arb id : Nat) : Rank :=
  match xferOf s id with
  | some x =>
    let sl := slackAt s (arbLoc arb) x
    { slack := sl, eligible := !x.r.hold || sl == 0 || decide (sl ≤ nbHold s x.ctx), fill := x.r.hold && x.r.fill }
  | none => { slack := 0, eligible := true, fill := false }

def rankOf (s : State) (arb : Nat) (r : Req) : Rank :=
  match r.kind with
  | .xferSector id _ _ => xferRank s arb id
  | .back id =>
    (match (s.remotes.find? (fun m => m.id == id)).bind (·.req) with
     | some q => (match q.kind with
       | .xferSector x _ _ => xferRank s arb x
       | _ => { slack := 0, eligible := true, fill := false })
     | none => { slack := 0, eligible := true, fill := false })
  | _ =>
    match carriedNow s r with
    | some c => { slack := c.slack, eligible := !c.held || c.slack == 0 || decide (c.slack ≤ c.hold), fill := c.held && c.fill }
    | none => { slack := 0, eligible := true, fill := false }

/-- Before in the order of R131. -/
def reqBefore (a b : Rank × Req) : Bool :=
  lexBefore [a.1.slack, a.2.born, a.2.ctag, a.2.issuer, a.2.addr] [b.1.slack, b.2.born, b.2.ctag, b.2.issuer, b.2.addr]

/-! ## Stages of a request -/

/-- The access that a piece belongs to. -/
def pieceAccess (s : State) (p site id : Nat) : Option Access := (obufAt s p site).released.find? (fun a => a.id == id)

/-- Bytes of a sector that an access stores all of. -/
def wholeSector (a : Access) (sec : Nat) : Bool :=
  isStore a.op && ((bytePlan a).filter (fun x => x.2 / 32 == sec)).length == 32

/-- At its bank a request needs the sector in place. -/
def needsSector (s : State) (r : Req) : Bool :=
  match r.kind with
  | .piece p site id sec _ => match pieceAccess s p site id with
    | some a => a.op != 0x8F && !wholeSector a sec
    | none => false
  | .incoming _ _ body => match body with
    | .write _ _ bs _ => bs.length != 32
    | .acc .. => false
    | _ => true
  | .xferSector id _ _ => match xferOf s id with
    | some x => x.op == opPref || (xSspace x.desc != 0 && r.data.isNone)
    | none => false
  | .fill .. => true
  | .walk .. => true
  | .host _ _ bs _ => bs.length != 32
  | _ => false

/-- A request holds a miss register of a die. -/
def holdsMiss (die : Nat) (r : Req) : Bool := r.path.contains (arbFill die) && r.path.head? != some (arbMiss die)

/-- Requests of this part, those that wait for another part among them. -/
def allReqs (s : State) : List Req := s.reqs ++ s.remotes.filterMap (·.req)

/-- The path of a miss in a die's L2 (R95): a miss register, then far memory when the home L2 misses too and the die link, or for
another part's memory the way to its port (19 R381). -/
def missPath (s : State) (die ga : Nat) : List Nat :=
  arbMiss die ::
    (if remote ga then (portPath s die (gaDev ga)).getD []
     else (if (l2At s (homeDie ga) ga).isSome then [] else [arbMem ga]) ++ linkPath (homeDie ga) die) ++ [arbFill die]

/-- A sector of a FIFO's transfer: entries that it completes, and the sectors they take. -/
def fifoNeeds (x : Xfer) : Nat := if xEntry x.desc ≤ 8 then 8 / xEntry x.desc
  else if x.fifo.length + 8 < xEntry x.desc then 0 else xEntry x.desc / 8

/-- A transfer's destination well has room for its next sector (11 R250). -/
def wellRoom (s : State) (x : Xfer) (r : Req) : Bool :=
  let w := wellAt s x.p (xDwell x.desc)
  match wellMode w with
  | 2 => (match r.kind with
    | .xferSector _ row k => row * rowSectors x.r + k == x.doneCount && decide (fifoNeeds x ≤ fifoFree w)
    | _ => false)
  | 1 | 3 => !(fullSeen s w).contains (r.dst / bufBytes w)
  | _ => true

/-- A sector of an access can be performed where it stands: buffers are full or empty as it needs, its window holds it. -/
def pieceRoom (s : State) (p site id sec : Nat) : Bool :=
  match pieceAccess s p site id with
  | none => true
  | some a =>
    let x := wellAt s p site
    if !isWell site then true
    else if wellMode x = 5 then a.op == 0x8F || !mustHold a sec || (slotHolds x sec).isSome
    else !bufWaits s x a

/-- The sector of a well that a request reads or writes there. -/
def wellSector (s : State) (r : Req) : Nat :=
  match r.kind with
  | .piece p site _ sec _ =>
    let x := wellAt s p site
    if wellMode x = 5 then 128 * (slotHolds x sec).getD 0 + sec % 128 else sec
  | .fill p w page sec => 128 * (((slotOf (wellAt s p w) page).map (·.1)).getD 0) + sec
  | .xferSector _ _ _ => (if r.data.isSome then r.dst else r.addr) / 32
  | _ => 0

/-- A generator of a well has worked in this cycle. -/
def servedNow (s : State) (arb : Nat) : Bool := tgetD s.served (arb * 128 + 127) 0 == s.cycle + 1

/-- A request reads the sector that it writes. -/
def readsToo (s : State) (r : Req) : Bool :=
  match r.kind with
  | .piece p site id _ _ => (pieceAccess s p site id).any (fun a => isAtomic a.op)
  | _ => false

/-- A write at a well may go: no read of its bank has gone before it in this cycle, and an atomic finds the read generator free
(R83). -/
def writeFirst (s : State) (arb : Nat) (r : Req) : Bool :=
  let rd := arb + 8 * 2 ^ 16
  !servedNow s rd || (!readsToo s r && (wellAt s (arb / 256) (arb % 256)).rdBank != wellSector s r % 32)

/-- Misses of a die in hand, and of one panel. -/
def missRoom (s : State) (die issuer : Nat) : Bool :=
  let held := (allReqs s).filter (holdsMiss die)
  decide (held.length < 8192) && decide ((held.filter (fun r => r.issuer == issuer)).length < 1024)

/-- A request stores lanes of the carry whose flag `r` is. -/
def carryBefore (r q : Req) : Bool :=
  match r.kind, q.kind with
  | .carry p w base up _, .carry p' w' base' up' (some _) =>
    p == p' && w == w' && base == base' && up == up' && q.dst == r.dst && q.path.head? != some (arbFlag p w)
  | _, _ => false

/-- A request that completes with STALE_TOKEN when it needs a DOWN die link (19 R377); the others wait for the link. -/
def completesDown (r : Req) : Bool :=
  match r.kind with
  | .piece .. | .xferSector .. | .fill .. | .carry .. | .walk .. => true
  | _ => false

/-- What a die link has brought waits in its receive buffer while its rule engine is full (19 R384): the link takes no more. -/
def bufferFull (s : State) (arb : Nat) : Bool :=
  s.arrivals.any (fun a => a.link == some (arb % 65536 / 2) && (List.range 3).any (fun d => d != dieOf a.p && arb == arbDie d (dieOf a.p)) &&
    (decide (64 ≤ (engineAt s a.p).hold.length) || decide (64 ≤ engineStaged s a.p)))

/-- The next stage of a request has room. -/
def stageRoom (s : State) (arb : Nat) (r : Req) : Bool :=
  let fits := match r.kind with
    | .piece p site id sec _ => pieceRoom s p site id sec
    | _ => true
  match arb / 65536 with
  | 0 => writeFirst s arb r && (match r.kind with
    | .xferSector id _ _ => (match xferOf s id with | some x => wellRoom s x r | none => true)
    | _ => fits)
  | 1 =>
    let ga := gaOf s r.addr
    let die := arbLoc arb
    fits && (!needsSector s r || (l2At s die ga).isSome ||
      !((allReqs s).any (fun q => q.path.contains (arbFill die) && gaOf s q.addr / 32 == ga / 32)))
  | 2 => missRoom s (arbLoc arb) r.issuer
  | 4 => ((linkAt s ((arb % 65536) / 2)).state == 2 && !bufferFull s arb) || ((linkAt s ((arb % 65536) / 2)).state == 0 && completesDown r)
  | 5 => (linkAt s (arb % 65536)).state == 2 || (linkAt s (arb % 65536)).state == 0
  | 7 => (linkAt s 27).state == 2 || (linkAt s 27).state == 0
  | 9 => !(allReqs s).any (carryBefore r)
  | 8 => fits
  | _ => true

/-- A sector of a transfer, or a COLL. -/
def isSectorReq (r : Req) : Bool :=
  match r.kind with
  | .xferSector _ _ _ => true
  | _ => false

/-- The request that an arbiter chooses (R131), by its place in the list. -/
def choose (s : State) (arb : Nat) : Option Nat :=
  let cand := (List.range s.reqs.length).filterMap (fun i => match s.reqs[i]? with
    | some r => if r.path.head? = some arb ∧ !(isSectorReq r && ctxHalted s r.ctx) ∧ r.due ≤ s.cycle ∧ intervalOk s arb r ∧ stageRoom s arb r then some (i, rankOf s arb r, r) else none
    | none => none)
  let elig := cand.filter (fun x => x.2.1.eligible)
  let set := if elig.isEmpty then cand.filter (fun x => x.2.1.fill) else elig
  (set.foldl (fun (best : Option (Nat × Rank × Req)) x => match best with
    | none => some x
    | some b => if reqBefore x.2 b.2 then some x else some b) none).map (·.1)

/-! ## Completion of transfers -/

/-- A tag's transfer or COLL is complete: DONE when it succeeded, BUSY clear, and those that wait are retested. -/
def tagDone (s : State) (p tag : Nat) (ok : Bool) : State :=
  let sc := scribeAt s p
  let b : Word64 := BitVec.ofNat 64 (2 ^ tag)
  let sc' := { sc with done := if ok then sc.done ||| b else sc.done, busy := sc.busy &&& ~~~b }
  wakePanel (setScribe s p sc') p (fun w => w == .done)

def putXfer (s : State) (x : Xfer) : State := { s with xfers := s.xfers.map (fun y => if y.id = x.id then x else y) }

/-- Requests of a transfer that are still to be served. -/
def xferReqs (s : State) (id : Nat) : List Req :=
  s.reqs.filter (fun r => match r.kind with | .xferSector i _ _ => i == id | _ => false)

/-- A stopped transfer goes once none of its requests is left. -/
def sweepXfer (s : State) (id : Nat) : State :=
  match xferOf s id with
  | some x => if x.stopped && (xferReqs s id).isEmpty && s.remotes.all (fun y => match y.req with
        | some r => (match r.kind with | .xferSector i _ _ => i != id | _ => true)
        | none => true) then
      { s with xfers := s.xfers.filter (fun y => y.id != id) } else s
  | none => s

/-- A sector of a transfer fails (R251): the entry, no further sector, BUSY cleared and DONE left 0. -/
def xferFail (s : State) (x : Xfer) (cause addr : Nat) : State :=
  if x.stopped then s
  else
    let s := post s { tag := x.tag, addr := addr, cause := cause, site := x.site, node := x.node, plane := x.plane,
                      panel := x.p, ctx := x.ctx, info := 2 ^ 47 + x.r.ctag.toNat }
    sweepXfer (tagDone (putXfer s { x with stopped := true }) x.p x.r.ctag.toNat false) x.id

/-- A transfer whose sectors are all written, with no request left, is complete: DONE is set and BUSY cleared (R250). -/
def xferClose (s : State) (id : Nat) : State :=
  match xferOf s id with
  | none => s
  | some x =>
    if x.stopped then sweepXfer s id
    else if xTotal x ≤ x.doneCount ∧ (xferReqs s id).isEmpty then
      tagDone { s with xfers := s.xfers.filter (fun y => y.id != id) } x.p x.r.ctag.toNat true
    else s

/-- One more sector of a transfer is written. -/
def xferCount (s : State) (id : Nat) : State :=
  match xferOf s id with
  | some x => putXfer s { x with doneCount := x.doneCount + 1 }
  | none => s

/-- One sector of a transfer is complete. -/
def sectorDone (s : State) (id : Nat) : State := xferClose (xferCount s id) id

/-- Tag of the lines that a transfer installs (04 R94). -/
def xferTag (x : Xfer) : LineTag :=
  { cls := xClass x.desc, pg := 64 * x.cpanel + x.r.pgn.toNat, mark := x.r.mark.toNat, kernel := kernelId x.p x.plane }

/-- A transfer's request reads its source sector, with its poison mark; a source well that is no longer in mode 1 or 3 fails it
(04 R84). -/
def xferRead (s : State) (x : Xfer) (r : Req) : State × Req :=
  if xSspace x.desc = 0 then
    let w := xSwell x.desc
    if wellMode (wellAt s x.p w) = 1 ∨ wellMode (wellAt s x.p w) = 3 then
      (s, { r with data := some (mreads s.wmem (wellAddr x.p w r.addr) 32, tgetD s.wbad (wbadKey x.p w r.addr) false) })
    else (xferFail s x cILLEGAL r.addr, r)
  else
    let (s, d, bad) := readL2 s (dieOf x.p) (xScope x.desc) (gaOf s r.addr) x.ctx (xferTag x)
    (s, { r with data := some (secBytes d, bad) })

/-- Lanes of a sector join a FIFO's entries (R251); the last entry of the transfer carries EOR under EORL. -/
def fifoPush (s : State) (x : Xfer) (bs : List Byte) (bad : Bool) : State :=
  let w := wellAt s x.p (xDwell x.desc)
  let lanes := x.fifo ++ (List.range 8).map (fun i => BitVec.ofNat 32 (leNat ((bs.drop (4 * i)).take 4)))
  let n := xEntry x.desc
  let cnt := lanes.length / n
  let last := x.doneCount + 1 == xTotal x
  let es := (List.range cnt).map (fun i =>
    ({ lanes := (lanes.drop (n * i)).take n, ty := BitVec.ofNat 4 (bits w.cfg.toNat 115 112), null := false,
       poison := x.fpoison || bad, eor := xEorl x.desc && last && i + 1 == cnt } : FifoEntry))
  let s := setWell s x.p (xDwell x.desc) { w with fifo := w.fifo ++ es }
  putXfer s { x with fifo := lanes.drop (n * cnt), fpoison := if cnt = 0 then x.fpoison || bad else false }

/-- A transfer's sector is written at its destination (R250, R251), and counted. -/
def xferWrite (s : State) (x : Xfer) (r : Req) (bs : List Byte) (bad : Bool) : State :=
  if x.op = opPref then xferCount s x.id
  else if xDspace x.desc = 0 then
    let w := xDwell x.desc
    match wellMode (wellAt s x.p w) with
    | 1 | 3 =>
      xferCount (wellStore s x.p w ((List.range 32).map (fun i => (r.dst + i, bs.getD i 0))) bad) x.id
    | 2 => xferCount (fifoPush s x bs bad) x.id
    | _ => xferFail s x cILLEGAL r.dst
  else
    xferCount (writeL2 s none (dieOf x.p) (xScope x.desc) (gaOf s r.dst) x.ctx (xferTag x)
      ((List.range 32).map (fun i => (i, bs.getD i 0))) bad) x.id

/-! ## Requests to other parts (19 R374, R377) -/

/-- Elements of a token as numbers, `none` where the lane predicate masks them. -/
def wireElems (a : Access) (ls : List Lane) : List (Option Nat) :=
  (List.range (elemCount a)).map (fun j => if elemOn a j then some (elem a.r.fmt ls j) else none)

/-- What a piece asks of another part. -/
def pieceBody (s : State) (a : Access) (id sec pa : Nat) : FlitBody :=
  let hf := homeForm pa / 32 * 32
  let bPoison := (a.b.map (·.poison)).getD false
  if isStore a.op then
    .write id hf
      (((bytePlan a).filter (fun x => x.2 / 32 == sec)).map (fun x => (x.2 % 32, dataByte a (bLanes a) x.1))) bPoison
  else if a.op = 0x8F then
    let at_ := hf + elemAddr a 0 % 32
    let beyond := match a.pas.find? (fun x => x.1 / 128 != sec / 128) with
      | some x => x.2.1 % 2 ^ 44
      | none => 0
    .acc id at_ beyond (countWord a % 65536) (addendIdx s a) (addendBase s a) a.r.fmt
      (if (a.b.map (·.null)).getD true then [] else wireElems a (bLanes a)) bPoison
  else if isAtomic a.op then
    .atomic id (hf + elemAddr a 0 % 32) a.op a.r.fmt (wireElems a (bLanes a))
      (wireElems a ((a.c.map (·.lanes)).getD [])) (bPoison || (a.c.map (·.poison)).getD false)
  else if a.op = 0x94 then .promote id hf 32 (scopeOf a)
  else .read id hf 32

/-- What a transfer sector asks of another part: its source, or its destination's write. -/
def xferBody (x : Xfer) (id : Nat) (r : Req) : FlitBody × Nat :=
  match x.arr with
  | some (a, dev) => (.coll id a.p a.table a.round a.tag a.ty a.lanes a.poison, dev)
  | none =>
    match r.data with
    | none => (.read id (homeForm r.addr) 32, bits r.addr 55 44)
    | some (bs, bad) => (.write id (homeForm r.dst) ((List.range 32).map (fun i => (i, bs.getD i 0))) bad, bits r.dst 55 44)

/-- Whether a body carries data. -/
def bodyData : FlitBody → Bool
  | .read .. => false
  | .write .. => true
  | .atomic .. => true
  | .acc .. => true
  | .response _ bs _ => !bs.isEmpty
  | .promote .. => false
  | .coll .. => true
  | .accepted .. => false
  | .fence _ => false

/-- Send a request of this part to a device over a link. -/
def sendOut (s : State) (link dev ctx : Nat) (carried : Option Carried) (body : FlitBody) : State :=
  let l := linkAt s link
  let s := setLink s link { l with txq := l.txq ++
    [{ inc := l.inc, crcOk := true, dev := BitVec.ofNat 12 dev, src := s.owndev, carried := carried, body := body }] }
  if bodyData body then count32 s (portDie link) ctx 5 else s

/-! ## Requests that are lost (19 R377) -/

/-- An access is over with STALE_TOKEN, and those behind it go on. -/
def staleAccess (s : State) (p site id : Nat) : State :=
  match pieceAccess s p site id with
  | some a =>
    let s := accStale { s with reqs := s.reqs.filter (fun r => match r.kind with
        | .piece q t i _ _ => !(q == p && t == site && i == id)
        | _ => true) } a (elemAddr a 0)
    advance s p site
  | none => s

/-- An MPIN whose fill is lost ends with the cause. -/
def pinsFail (s : State) (p w page : Nat) : State :=
  let hit := fun (x : PinAsk) => x.cur.p == p && x.w == w && (x.todo.head?).any (fun y => y.1 == page)
  (s.pins.filter hit).foldl (fun s x => faultCur s { x.cur with late := true } cSTALE (4096 * page))
    { s with pins := s.pins.filter (fun x => !hit x) }

/-- A cavity, changed at its place in a well, by its BASE. -/
def onCavity (s : State) (p w base : Nat) (f : Cavity → Cavity) : State :=
  let x := wellAt s p w
  setWell s p w { x with cavs := x.cavs.map (fun v => if bits v.desc.toNat 12 6 = base then f v else v) }

/-- Chains of a panel's ordering sites go on: a sector that they waited for has arrived at another part. -/
def resettle (s : State) (p : Nat) : State :=
  s.obufs.foldl (fun s (o : Nat × OBuf) =>
    if o.1 / 256 = p then advance (settleOrders s p (o.1 % 256)) p (o.1 % 256) else s) s

/-- A request that is lost: an access posts its entry and is over, a transfer or COLL clears BUSY and leaves DONE 0; a window's or
engine's request posts the entry at its panel, a fill ends the accesses that wait for it, a link access stalls its cavity
(12 R266). -/
def staleReq (s : State) (r : Req) : State :=
  match r.kind with
  | .piece p site id _ _ => staleAccess s p site id
  | .xferSector x _ _ =>
    (match xferOf s x with
     | some y => sweepXfer (xferFail s y cSTALE (if r.data.isNone then r.addr else r.dst)) x
     | none => s)
  | .fill p w page sec =>
    let as := (obufAt s p w).released.filter (fun a => (a.left.getD []).contains (128 * page + sec))
    pinsFail (as.foldl (fun s a => staleAccess s p w a.id) s) p w page
  | .flush p w _ _ => resettle (post s { addr := r.addr, cause := cSTALE, site := w, panel := p, ctx := r.ctx }) p
  | .walk die ctx va _ _ => walkEnds s die ctx va (.bad cSTALE)
  | .carry p w base _ _ =>
    let s := { s with reqs := s.reqs.filter (fun q => !carryBefore r q && !(q.dst == r.dst && q.path.head? == some (arbFlag p w))) }
    onCavity (post s { addr := r.addr, cause := cSTALE, site := w, panel := p, ctx := r.ctx, info := base }) p w base
      (fun v => { v with stalled := true })
  | _ => s

/-- A request leaves over a domain port, or completes with STALE_TOKEN on a DOWN link (R377). What waits for an answer keeps the stages
that it has still to pass. -/
def leavePart (s : State) (link : Nat) (r : Req) : State :=
  let id := s.fresh
  let ask := fun (dev : Nat) (carried : Option Carried) (body : FlitBody) =>
    let s := sendOut { s with fresh := id + 1 } link dev r.ctx carried body
    { s with remotes := s.remotes ++
      [{ id := id, dev := dev, link := link, sent := s.cycle, body := body, req := some { r with path := r.path.tail } }] }
  let dev := bits r.addr 55 44
  let hf := homeForm r.addr / 32 * 32
  if (linkAt s link).state = 0 then staleReq s r
  else
    match r.kind with
    | .piece p site aid sec pa =>
      (match pieceAccess s p site aid with
       | none => s
       | some a => ask dev none (if r.path.tail.isEmpty then pieceBody s a id sec pa else .read id hf 32))
    | .xferSector xid _ _ =>
      (match xferOf s xid with
       | none => s
       | some x =>
         if x.stopped then sweepXfer s xid
         else
           let b := xferBody x id r
           ask b.2 (some { slack := x.slack0 - (s.cycle - x.born), hold := nbHold s x.ctx, held := x.r.hold, fill := x.r.fill }) b.1)
    | .fill .. => ask dev none (.read id hf 32)
    | .flush _ _ bs bad => ask dev none (.write id hf bs bad)
    | .carry _ _ _ _ w => ask dev none (match w with
      | none => .read id hf 32
      | some bs => .write id hf bs false)
    | .reply d body => sendOut s link d noCtx (carriedNow s r) body
    | .forward x =>
      let s := if bodyData x.body then count32 s (portDie link) noCtx 5 else s
      setLink s link { linkAt s link with txq := (linkAt s link).txq ++ [{ x with carried := carriedNow s r }] }
    | _ => s

/-! ## Requests from other parts -/

/-- Bytes of a number. -/
def eBytes (f : BitVec 4) (v : Nat) : List Byte := leBytes (esize f) v

/-- An ACC of another part as an addend at its bank (11 R246). -/
def remoteAddend (dev id addr beyond n idx : Nat) (base : Word64) (ty : BitVec 4) (b : List (Option Nat)) (poison : Bool) :
    Access :=
  let lanes := b.flatMap (fun v => (wordsLanes [v.getD 0]).take (elemLanes ty))
  let mask := b.flatMap (fun v => List.replicate (elemLanes ty) (if v.isSome then (1 : Lane) else 0))
  let ctl : Ctl := { lituse := 0, pred := true, emit0 := 0, emit1 := 0, nullpass := false }
  let nd : Dest := { site := 255, node := 0, port := 0 }
  { id := id, op := 0x8F, p := 16 * homeDie addr, site := 241, plane := 0, node := 0, tag := base, ctx := noCtx
    r := { space := 2, ord := 0, fmt := ty, d0 := nd, osite := 241, d1lo := 0, ctl := ctl, scope := 3, lsid := 0, prev := 0,
           seq := 0, next := 0, off := 0 }
    a := some { lanes := wordsLanes [addr] }, b := some { lanes := lanes, null := b.isEmpty, poison := poison }
    c := some { lanes := mask ++ [1, 1] }, isNull := false, reply := some (dev, id), racc := some (n, idx, base)
    pas := if beyond = 0 then []
      else (List.range 9).map (fun i =>
        let sec := addr / 32 + i
        (sec, if sec / 128 = addr / 4096 then 32 * sec else beyond / 4096 * 4096 + 32 * (sec % 128), 0)) }

/-- Elements of an atomic of another part: the old bytes, the bytes stored, and cond. -/
def remoteAtomic (op : Nat) (ty : BitVec 4) (d : BitVec 256) (off : Nat) (b c : List (Option Nat)) :
    List Byte × List (Nat × Byte) × Bool :=
  let e := esize ty
  (List.range b.length).foldl (fun (st : List Byte × List (Nat × Byte) × Bool) j =>
    let old := leNat ((List.range e).map (fun t => secByte d (off + j * e + t)))
    match b.getD j none with
    | none => (st.1 ++ List.replicate e 0, st.2.1, st.2.2)
    | some v =>
      let nv := atomicNew op ty old v ((c.getD j none).getD 0)
      (st.1 ++ eBytes ty old,
        st.2.1 ++ (List.range e).map (fun t => (off + j * e + t, BitVec.ofNat 8 (nv / 2 ^ (8 * t)))),
        st.2.2 && (op != 0x8E || old == v))) ([], [], true)

/-- A request of another part is performed at the home die's L2 and answered. -/
def serveIncoming (s : State) (r : Req) (dev : Nat) (body : FlitBody) : State :=
  let answer := fun (s : State) (addr : Nat) (b : FlitBody) => respond s (homeDie addr) dev (carriedNow s r) b
  match body with
  | .read id addr _ =>
    let (s, d, bad) := readL2 s (homeDie addr) 3 addr noCtx {}
    answer s addr (.response id (secBytes d) bad)
  | .promote id addr _ scope =>
    let (s, d, bad) := readL2 (promotePush s addr scope) (homeDie addr) 3 addr noCtx {}
    answer s addr (.response id (secBytes d) bad)
  | .write id addr bs poison => answer (writeL2 s none (homeDie addr) 3 addr noCtx {} bs poison) addr (.response id [] false)
  | .atomic id addr op ty b c poison =>
    let (s, d, bad) := readL2 s (homeDie addr) 3 addr noCtx {}
    let x := remoteAtomic op ty d (addr % 32) b c
    answer (writeL2 s none (homeDie addr) 3 addr noCtx {} x.2.1 (bad || poison)) addr
      (.response id (x.1 ++ [BitVec.ofNat 8 (b2n x.2.2)]) bad)
  | .acc id addr beyond n idx base ty b poison =>
    { s with addends := s.addends ++ [(bankPlace addr, addr, remoteAddend dev id addr beyond n idx base ty b poison)] }
  | _ => s

/-! ## Answers of other parts (19 R377) -/

/-- The answer to a piece of an access: its bytes, or its acknowledgement. -/
def answerPiece (s : State) (p site id sec : Nat) (bs : List Byte) (poison : Bool) : State :=
  match pieceAccess s p site id with
  | none => s
  | some a =>
    let s := if isLoad a.op then s else delL2 s (dieOf p) (placeAt a (32 * sec))
    if a.op = 0x8F then
      (if bs.isEmpty then advance (accFault s a cILLEGAL (elemAddr a 0)) p site
       else
         let a := { a with poison := a.poison || poison }
         let s := if a.poison then s else curFlags s (accCur a) (BitVec.ofNat 5 (bs.getD 5 0).toNat)
         advance (finishAccess s a { ackVal a.tag (leNat (bs.take 4)) with eor := bs.getD 4 0 != 0 } true) p site)
    else
      let a1 := if isLoad a.op then
          readInto a (((bytePlan a).filter (fun x => x.2 / 32 == sec)).map (fun x => (x.1, bs.getD (x.2 % 32) 0))) poison
        else if isAtomic a.op then
          { readInto a ((List.range (bs.length - 1)).map (fun i => (i, bs.getD i 0))) poison with
            cond := bs.getD (bs.length - 1) 1 != 0 }
        else a
      let left := (a1.left.getD []).filter (· != sec)
      let a2 := { a1 with left := some left }
      if left.isEmpty then advance (finishAccess s a2 (accValue a2) a2.cond) p site else putAccess s a2

/-- A response reaches the request that it answers: one that has stages before it goes on with the sector. -/
def answer (s : State) (m : Remote) (bs : List Byte) (poison : Bool) : State :=
  match m.req with
  | none => s
  | some r =>
    let onward := { s with reqs := s.reqs ++ [{ r with data := some (bs, poison), born := if isSectorReq r then r.born else s.cycle }] }
    match r.kind with
    | .piece p site id sec _ => if r.path.isEmpty then answerPiece s p site id sec bs poison else onward
    | .xferSector x _ _ => (match m.body with
      | .read _ _ _ => onward
      | _ =>
        let s := match xferOf s x with
          | some y => dropRemote s (dieOf y.p) (gaOf s r.dst) (decide (2 ≤ xScope y.desc))
          | none => s
        sectorDone s x)
    | .fill .. => onward
    | .flush p _ _ _ => resettle (delL2 s (dieOf p) (gaOf s r.addr)) p
    | .carry p w base up none => onCavity s p w base (fun v => { v with inbox := v.inbox ++ [(up, r.dst, bs, poison)] })
    | .carry p _ _ _ (some _) => delL2 s (dieOf p) (gaOf s r.addr)
    | _ => s

/-! ## Service (R131) -/

/-- A sector of an access is performed where it stands: at its bank or in its well. An ACC comes to its combiner. -/
def pieceAct (s : State) (arb : Nat) (r : Req) (p site id sec : Nat) : State :=
  match pieceAccess s p site id with
  | none => s
  | some a =>
    let ga := placeAt a (32 * sec)
    if a.op = 0x8F then { s with addends := s.addends ++ [(bankPlace ga, placeAt a (elemAddr a 0), a)] }
    else if arb / 65536 = 1 then
      if remote ga then
        match l2At s (dieOf p) ga with
        | some x =>
          putAccess (ensureLine s (dieOf p) ga {})
            (readInto a (((bytePlan a).filter (fun y => y.2 / 32 == sec)).map (fun y => (y.1, secByte x.data (y.2 % 32)))) x.poison)
        | none => s
      else
        let (s, a) := if isWell site then windowWide s a sec ga r.cls else performSector s none a sec ga r.cls
        putAccess s a
    else
      let (s, a) := if wellMode (wellAt s p site) = 5 then windowNarrow s a sec
        else performBytes s site a ((bytePlan a).filter (fun x => x.2 / 32 == sec))
      putAccess s a

/-- A sector of an access has passed its last stage; after the last sector the access is performed. -/
def pieceEnd (s : State) (p site id sec : Nat) : State :=
  match pieceAccess s p site id with
  | none => s
  | some a =>
    if a.op = 0x8F then s
    else
      let left := ((a.left.getD []).filter (fun x => x != sec))
      let a := { a with left := some left }
      if left.isEmpty then advance (finishAccess s a (accValue a) a.cond) p site else putAccess s a

/-- A sector of a host request at its bank: performed at DEVICE scope (20 R400). -/
def hostAct (s : State) (r : Req) (hf : Nat) (bs : List (Nat × Byte)) (poison : Bool) : State × Req :=
  if bs.isEmpty then
    let (s, d, bad) := readL2 s (homeDie hf) 3 hf noCtx {}
    (s, { r with data := some (secBytes d, bad) })
  else (writeL2 s none (homeDie hf) 3 hf noCtx {} bs poison, r)

/-- A sector of a host request is done; after the last the request is over, and a read is answered. -/
def hostEnd (s : State) (id sec : Nat) (data : Option (List Byte × Bool)) : State :=
  match s.hostOps.find? (fun x => x.id == id) with
  | none => s
  | some x =>
    let d := data.getD ([], false)
    let x := { x with left := x.left.filter (fun y => y != sec), poison := x.poison || d.2
                      got := x.got ++ (List.range d.1.length).map (fun i => (32 * sec + i, d.1.getD i 0)) }
    if !x.left.isEmpty then { s with hostOps := s.hostOps.map (fun y => if y.id = id then x else y) }
    else
      let s := { s with hostOps := s.hostOps.filter (fun y => y.id != id) }
      if x.write then s
      else
        let bs := (List.range x.len).map (fun i => ((x.got.find? (fun y => y.1 == homeForm (x.addr + i))).map (·.2)).getD 0)
        { s with out := s.out ++ [.hostData x.fn x.addr bs x.poison] }

/-- Note a service at an arbiter. -/
def noteServed (s : State) (arb : Nat) (r : Req) : State := markServed s arb (reqPart s r)

/-- Take the `i`-th request away. -/
def dropReq (s : State) (i : Nat) : State := { s with reqs := dropAt s.reqs i }

/-- Read generator of a well: the bank it reads (04 R83). -/
def noteRead (s : State) (arb : Nat) (r : Req) : State :=
  let p := arb % 65536 / 256
  let w := arb % 256
  if arb / 65536 = 8 then setWell s p w { wellAt s p w with rdBank := wellSector s r % 32 }
  else if arb / 65536 = 0 ∧ readsToo s r then
    noteServed (setWell s p w { wellAt s p w with rdBank := wellSector s r % 32 }) (arbRead p w) r
  else s

/-- A sector of data crosses a die link with a request whose effect does not count it itself (18 R368). -/
def linkCounts (s : State) (r : Req) : Bool :=
  match r.kind with
  | .piece p site id _ pa => (pieceAccess s p site id).any (fun a => a.op == 0x8F || (remote (gaOf s pa) && !isLoad a.op))
  | .xferSector id _ _ => (xferOf s id).any (fun x => x.arr.isSome || (r.data.isSome && xDspace x.desc != 0 && remote (gaOf s r.dst)))
  | .incoming _ _ body => bodyData body
  | .flush .. => true
  | .host _ _ bs _ => !bs.isEmpty || r.data.isSome
  | .carry _ _ _ _ w => w.isSome
  | .back _ => r.data.any (fun d => !d.1.isEmpty)
  | .reply _ body => bodyData body
  | .forward x => bodyData x.body
  | _ => false

/-- The dies that a die-link arbiter joins, in its direction (19 R373). -/
def linkFrom (arb : Nat) : Nat := arbLoc arb
def linkTo (arb : Nat) : Nat :=
  let i := arb % 65536
  (if i / 2 = 0 then 1 else if i / 2 = 1 then 3 else 2) - linkFrom arb

/-- What a request does at a stage where it is served. -/
def atStage (s : State) (arb : Nat) (r : Req) : State × Req :=
  let c := arb / 65536
  let ga := gaOf s r.addr
  if c = 4 then (if linkCounts s r then count32 (count32 s (linkFrom arb) r.ctx 3) (linkTo arb) r.ctx 2 else s, r)
  else if c = 0 ∨ c = 1 ∨ c = 8 then
    match r.kind with
    | .piece p site id sec _ => (pieceAct s arb r p site id sec, r)
    | .incoming _ dev body => (serveIncoming s r dev body, r)
    | .xferSector id _ _ => (match xferOf s id with
      | some x => if r.data.isSome ∨ x.op = opPref ∨ c = 0 then (s, r) else xferRead s x r
      | none => (s, r))
    | .fill p _ _ _ =>
      if c = 0 then (s, r)
      else
        let s := fetchL2 s (dieOf p) ga r.ctx { cls := r.cls }
        let x := (l2At s (dieOf p) ga).getD { data := 0, dirty := false, poison := false, ctx := r.ctx }
        (s, { r with data := some (secBytes x.data, x.poison) })
    | .walk _ _ va level table => (s, { r with data := some (leBytes 8 (pteRead s table level va).toNat, false) })
    | .host _ sec bs poison => hostAct s r (32 * sec) bs poison
    | _ => (s, r)
  else (s, r)

/-- A request has passed its last stage. -/
def endReq (s : State) (i : Nat) (r : Req) : State :=
  match r.kind with
  | .piece p site id sec _ => pieceEnd (dropReq s i) p site id sec
  | .xferSector id _ _ =>
    let s := { s with reqs := setAt s.reqs i { r with path := [], due := s.cycle + 1 } }
    (match xferOf s id with
     | none => s
     | some x =>
       if x.stopped ∨ x.arr.isSome then s
       else let d := r.data.getD (List.replicate 32 0, false); xferWrite s x r d.1 d.2)
  | .fill p w page sec => let d := r.data.getD ([], false); fillPut (dropReq s i) p w page sec d.1 d.2
  | .walk die ctx va level _ => walkOn (dropReq s i) die ctx va level (BitVec.ofNat 64 (leNat (r.data.getD ([], false)).1))
  | .host id sec _ _ => hostEnd (dropReq s i) id sec r.data
  | .point x => pointArrive (dropReq s i) x
  | .back id => (match s.remotes.find? (fun m => m.id == id) with
    | some m =>
      let d := m.ans.getD ([], false)
      answer { dropReq s i with remotes := s.remotes.filter (fun x => x.id != id) } m d.1 d.2
    | none => dropReq s i)
  | _ => dropReq s i

/-- The well's write port of the bank's own die takes a sector 6 cycles after the bank's grant (21 R404). -/
def wellDue (s : State) (r : Req) (path : List Nat) : Nat :=
  match r.path, path with
  | a :: _, b :: _ => if isSectorReq r ∧ a / 65536 = 1 ∧ b / 65536 = 0 then s.cycle + 6 else 0
  | _, _ => 0

/-- The stages that lie before a request, and what it brings to the next: a demand request's arrival there (R131). -/
def moveOn (s : State) (i : Nat) (r : Req) (path : List Nat) : State :=
  { s with reqs := setAt s.reqs i { r with path := path, due := wellDue s r path, born := if isSectorReq r then r.born else s.cycle } }

/-- The chosen request moves to its next stage, or has its effect. -/
def serve (s : State) (arb i : Nat) (r : Req) : State :=
  let ga := gaOf s r.addr
  if arb / 65536 = 1 ∧ needsSector s r ∧ (l2At s (arbLoc arb) ga).isNone then moveOn s i r (missPath s (arbLoc arb) ga ++ r.path)
  else if arb / 65536 = 5 then leavePart (dropReq s i) (arb % 65536) r
  else if (arb / 65536 = 7 ∧ (linkAt s 27).state = 0) ∨ (arb / 65536 = 4 ∧ (linkAt s ((arb % 65536) / 2)).state = 0) then
    staleReq (dropReq s i) r
  else
    let x := atStage (noteRead s arb r) arb r
    match r.path.tail with
    | [] => endReq x.1 i x.2
    | path => moveOn x.1 i x.2 path

/-- ARBITER_SERVICE (R131): arbiter `k` serves the request that it chooses. Each serves one unit a cycle, the miss
register pool one for each free register. -/
def execArbiterService (s : State) : Outcome :=
  let arb := s.sel.k
  if arb / 65536 ≠ 2 ∧ tgetD s.served (arb * 128 + 127) 0 = s.cycle + 1 then notNow
  else
    match choose s arb with
    | none => notNow
    | some i =>
      match s.reqs[i]? with
      | none => notNow
      | some r => .next (serve (noteServed s arb r) arb i r)

/-- Class, counter and mark of the line that a request installs. -/
def reqTag (s : State) (r : Req) : LineTag :=
  match r.kind with
  | .xferSector id _ _ => (match xferOf s id with | some x => xferTag x | none => {})
  | .piece p site id _ _ =>
    { cls := r.cls, kernel := (match pieceAccess s p site id with | some a => kernelId a.p a.plane | none => 0) }
  | .fill .. => { cls := r.cls }
  | _ => {}

/-- The miss of a request returns: its sector, or the whole line for a transfer; one that another part has sent is installed. -/
def fillMiss (s : State) (die : Nat) (r : Req) : State × Req :=
  let ga := gaOf s r.addr
  match r.kind, r.data with
  | .xferSector _ _ _, none => (fetchLine s die ga r.ctx (reqTag s r), r)
  | .walk .., none => (fetchL2 s die ga noCtx {}, r)
  | _, some d => if remote ga then (installRemote s die ga r.ctx (secOf d.1) d.2, { r with data := none }) else (fetchL2 s die ga r.ctx (reqTag s r), r)
  | _, none => (fetchL2 s die ga r.ctx (reqTag s r), r)

/-- L2_FILL (R95): the miss of request `k` returns what it asked for, installed after a victim has left; it waits while every way of the
set is in use (R96). -/
def execL2Fill (s : State) : Outcome :=
  match s.reqs[s.sel.k]? with
  | none => notNow
  | some r =>
    match r.path with
    | [] => notNow
    | f :: rest =>
      let ga := gaOf s r.addr
      let die := f % 65536
      if f / 65536 ≠ 6 ∨ !lineRoom s die ga ∨ !(remote ga || lineRoom s (homeDie ga) ga) then notNow
      else
        let x := fillMiss s die r
        .next { x.1 with reqs := setAt x.1.reqs s.sel.k { x.2 with path := rest } }

/-- TRANSFER_SECTOR_DONE (R250): sector `k` of the requests, served everywhere on its path, is known to be written, in a later cycle (21
R404); that of a COLL arrives at its table. A transfer of no lines is complete in the cycle after its issue. -/
def execTransferSectorDone (s : State) : Outcome :=
  match s.reqs[s.sel.k]? with
  | none => notNow
  | some r =>
    match r.kind with
    | .xferSector id _ _ =>
      if !r.path.isEmpty then notNow
      else
        let s1 := dropReq s s.sel.k
        match xferOf s id with
        | none => .next s1
        | some x =>
          if x.stopped then .next (sweepXfer s1 id)
          else match x.arr with
            | some (a, _) => .next { s1 with arrivals := s1.arrivals ++ [a] }
            | none =>
              if x.r.len = 0 then (if s.cycle ≤ r.born then notNow else .next (sectorDone s1 id))
              else if s.cycle < r.due then notNow
              else .next (xferClose s1 id)
    | _ => notNow

/-! ## Issue (R250) -/

/-- Where a transfer's sector address stands: a physical address for SPACE 1 and 2, the offset itself for a well. -/
def xferPlace (s : State) (x : Xfer) (space addr : Nat) (k : Right) : State × Xlat :=
  if space = 0 then (s, .ok addr 0) else xlateNow s x.ctx x.p 240 space addr k

/-- Arbiters that a sector request passes (06 R130). -/
def xferPath (s : State) (x : Xfer) (src dst : Nat) : List Nat :=
  let die := dieOf x.p
  let at_ := fun ga => atDie die (xScope x.desc) ga
  let host := if xScope x.desc = 5 then [arbHost] else []
  let port := fun ga => (portPath s die (gaDev ga)).getD []
  let a := gaOf s src
  let b := gaOf s dst
  if x.op = opPref then [arbBank die a]
  else
    (if xSspace x.desc = 0 then [arbRead x.p (xSwell x.desc)]
     else if remote a then port a
     else host ++ arbBank (at_ a) a :: linkPath (at_ a) die) ++
    (if xDspace x.desc = 0 then [arbWell x.p (xDwell x.desc)]
     else if remote b then port b
     else linkPath die (at_ b) ++ arbBank (at_ b) b :: host)

/-- One sector enters the arbiters, or fails (R251); a PREF line that fails is dropped. -/
def xferSend (s : State) (id row k : Nat) : State :=
  match xferOf s id with
  | none => s
  | some x =>
    if x.stopped then s
    else
      let src := xSrcAt x.desc row k
      let dst := xDstAt x.desc row k
      let drop := { x with doneCount := x.doneCount + 1 }
      match xferPlace s x (xSspace x.desc) src .read with
      | (s, .bad c) => if x.op = opPref then putXfer s drop else xferFail s x c src
      | (s, .ok spa _) =>
        match (if x.op = opPref then (s, .ok 0 0) else xferPlace s x (xDspace x.desc) dst .write) with
        | (s, .bad c) => xferFail s x c dst
        | (s, .ok dpa _) =>
          let r : Req :=
            { kind := .xferSector id row k, path := xferPath s x spa dpa, born := x.born, ctx := x.ctx, issuer := x.p,
              addr := spa, dst := dpa, ctag := x.r.ctag.toNat, cls := xClass x.desc }
          { s with reqs := s.reqs ++ [r] }

/-- A well of another context discards a transfer's requests (04 R87). -/
def foreignWell (s : State) (x : Xfer) : Bool :=
  let bad := fun w => tagged s x.p && ((wellAt s x.p w).owner).isSome && (wellAt s x.p w).owner != some x.ctx
  x.op != opPref && ((xSspace x.desc == 0 && bad (xSwell x.desc)) || (xDspace x.desc == 0 && bad (xDwell x.desc)))

/-- The value that a transfer record emits: its tag number. -/
def ctagVal (c : Cur) (r : RecT) : Res := both (ackVal c.tag r.ctag.toNat)

/-- Issue of a transfer (R250). -/
def issueXfer (s : State) (c : Cur) (op : Nat) (r : RecT) : State :=
  let ctx := matchCtx s c.p c.plane c.tag
  let d? := shiftDesc s c (portTok c 0).lanes
  let d := d?.getD []
  if d?.isNone || descBad s c.p ctx op r d then faultCur s c cILLEGAL 0
  else
    let b : Word64 := BitVec.ofNat 64 (2 ^ r.ctag.toNat)
    let sc := scribeAt s c.p
    let s := setScribe s c.p { setLate sc (sc.late &&& ~~~b) with busy := sc.busy ||| b, done := sc.done &&& ~~~b }
    let x : Xfer :=
      { id := s.fresh, op := op, p := c.p, site := c.site, plane := c.plane, node := c.node, tag := c.tag, ctx := ctx, r := r,
        desc := d, cpanel := c.p, born := s.cycle, doneCount := 0, stopped := false, freed := false, flagged := false,
        fifo := [] }
    let x := { x with slack0 := slackAt s (dieOf c.p) x }
    let s := { s with fresh := s.fresh + 1, xfers := s.xfers ++ [x] }
    let s := emitRes s c (formT r) 6 (ctagVal c r)
    if foreignWell s x then xferFail s x cTAG 0
    else if xTotal x = 0 then
      { s with reqs := s.reqs ++ [{ kind := .xferSector x.id 0 0, path := [], born := s.cycle, ctx := ctx, issuer := c.p,
                                    addr := 0, ctag := r.ctag.toNat }] }
    else
      let s := (List.range (xRows d)).foldl (fun s row => iter s (rowSectors r) (fun s k => xferSend s x.id row k)) s
      match xferOf s x.id with
      | some y =>
        if !y.stopped ∧ xTotal y ≤ y.doneCount then
          tagDone { s with xfers := s.xfers.filter (fun z => z.id != y.id) } c.p r.ctag.toNat true
        else sweepXfer s x.id
      | none => s

/-- A completion tag is free, and the die tracks fewer than 2,048 transfers (04 R101). -/
def tagFree (s : State) (p tag : Nat) : Bool :=
  !(scribeAt s p).busy.getLsbD tag &&
    decide ((s.xfers.filter (fun x => dieOf x.p == dieOf p && !x.stopped && x.arr.isNone)).length < 2048)

/-- A field of a format T record that is not admitted. -/
def badT (r : RecT) : Bool := r.rsv != 0 || r.ctl.lituse != 0 || badCtl [0] r.ctl

/-- A held effect of a block (02 R53). -/
def holdEff (s : State) (i : Instr) : State :=
  onBlock s s.cur.p (fun b => { b with held := b.held ++ [{ i := i, cur := s.cur }] })

/-- A completion tag that a transfer or COLL of the block names already (R250). -/
def ctagTaken (s : State) (p : Nat) (tag : Nat) : Bool :=
  match (scribeAt s p).cur with
  | some b => b.held.any (fun e => match e.i with
    | .xfer r => r.ctag.toNat == tag
    | .xfers r => r.ctag.toNat == tag
    | .pref r => r.ctag.toNat == tag
    | .coll r => r.ctag.toNat == tag
    | _ => false)
  | none => false

/-- A record with a transfer descriptor. -/
def opOfT (i : Instr) : Bool :=
  match i with
  | .xfer _ => true
  | .xfers _ => true
  | .pref _ => true
  | _ => false

/-- The firing of a format T record: at a nib it issues once its tag is free; in a block its effect is held to commit. -/
def tFire (s : State) (r : RecT) (i : Instr) (bad : Bool) (issue : State → Cur → State) : Outcome :=
  let c := s.cur
  let ps := portSet [0] r.ctl
  if !hasPorts c ps then .refused .noMatch
  else if badT r || bad then .next (faultCur s c cILLEGAL 0)
  else if anyNull c ps then .next (if r.ctl.nullpass then emitNulls s c (formT r) 6 else s)
  else if predFalse r.ctl c then .next (emitNulls s c (formT r) 6)
  else if (portTok c 0).poison then .next (faultCur s c cPOISON 0)
  else if inBlock s ∧ !c.late then
    if ctagTaken s c.p r.ctag.toNat || (opOfT i && (shiftDesc s c (portTok c 0).lanes).isNone) then
      .next (faultCur s c cILLEGAL 0)
    else .next (holdEff s i)
  else if !tagFree s c.p r.ctag.toNat then .next (waitOn s c .done)
  else .next (issue s c)

/-- XFER (R250). -/
def execXfer (r : RecT) (s : State) : Outcome := tFire s r (.xfer r) false (fun s c => issueXfer s c opXfer r)

/-- XFERS (R250). -/
def execXfers (r : RecT) (s : State) : Outcome := tFire s r (.xfers r) false (fun s c => issueXfer s c opXfers r)

/-- PREF (R251). -/
def execPref (r : RecT) (s : State) : Outcome := tFire s r (.pref r) false (fun s c => issueXfer s c opPref r)

end Sys2Proof.Machine
end

