-- ==== Sys2Proof/Machine/Progress.lean ====
section
/-!
DEFINITION. Progress counters and pulses (06 R123 to R126, R136; 11 R252), waits on completion tags (11 R253), and scale
tokens (11 R254, R255).
-/
namespace Sys2Proof.Machine

/-! ## Format S firings -/

/-- The firing of a format S record (02 R51, 08 R171): `bad` says that a field is not admitted, `pz` that a poisoned
operand faults (20 R401); `ty` is the type of its nulls. -/
def sFire (s : State) (r : RecS) (base : List Nat) (bad pz : Bool) (ty : BitVec 4) (act : State → Cur → State) : Outcome :=
  let c := s.cur
  let ps := portSet base r.ctl
  if !hasPorts c ps then .refused .noMatch
  else if bad || r.ctl.lituse != 0 || badCtl base r.ctl || anyBlock c ps then .next (faultCur s c cILLEGAL 0)
  else if anyNull c ps then .next (if r.ctl.nullpass then emitNulls s c (formS r) ty else s)
  else if predFalse r.ctl c then .next (emitNulls s c (formS r) ty)
  else if pz && c.ops.any (fun x => x.2.poison) then .next (faultCur s c cPOISON 0)
  else .next (act s c)

/-! ## Progress counters (R252) -/

/-- Words 0 and 1 of a counter (06 R123). -/
def pgWords (x : Pg) : Nat × Nat :=
  (put x.value 32 + x.lvalue, put x.colour 52 + put (b2n x.alloc) 51 + put x.acnt 32 + put x.prior 16 + x.rate)

/-- A counter before a change in this cycle keeps the words that it had at the cycle's start. -/
def pgStamp (s : State) (x : Pg) : Pg :=
  if x.stamp = s.cycle + 1 then x else { x with stamp := s.cycle + 1, was := ((pgWords x).1, (pgWords x).2, x.ctx) }

/-- The words, and the owning context, at the start of this cycle. -/
def pgStart (s : State) (x : Pg) : Nat × Nat × Nat :=
  if x.stamp = s.cycle + 1 then x.was else ((pgWords x).1, (pgWords x).2, x.ctx)

/-- The pulse of this cycle is still to come. -/
def pulseDue (s : State) (p : Nat) : Bool :=
  s.cycle % pulseP s p == 0 && (panelAt s p).started && (panelAt s p).lastPulse != s.cycle + 1

/-- OBJ names a counter; CF is 0. -/
def badPg (r : RecS) : Bool := r.obj.toNat / 64 != 0 || r.cf != 0

/-- Number of the counter. -/
def pgNum (r : RecS) : Nat := r.obj.toNat % 64

/-- PGINIT and PGADV emit a as moves. -/
def pgMove (s : State) (r : RecS) (c : Cur) : State :=
  emitRes s c (formS r) (portTok c 0).ty (both (passVal r.ctl c (portTok c 0)))

/-- Transfers that name a freed counter take S = 0 from then on (06 R128). -/
def freeXfers (s : State) (p k : Nat) : State :=
  { s with xfers := s.xfers.map (fun x => if x.cpanel = p ∧ x.r.pgn.toNat = k then { x with freed := true } else x) }

/-- A PGINIT takes effect on counter `k`; an allocation broadcasts as a pulse does (21 R403). -/
def pgApply (s : State) (p k : Nat) (y : PgSet) : State :=
  let x := pgStamp s (pgAt s p k)
  if y.alloc then
    setPg s p k { x with value := y.value, lvalue := y.value, colour := y.colour, ctx := y.ctx, alloc := true, acnt := 0
                         prior := y.prior, rate := y.prior, hist := (s.cycle, y.value, y.prior) :: x.hist, pend := none }
  else freeXfers (setPg s p k { stamp := x.stamp, was := x.was }) p k

/-- A PGINIT acts at once, and in a pulse cycle after the pulse. -/
def pgSet (s : State) (p k : Nat) (y : PgSet) : State :=
  if pulseDue s p then setPg s p k { pgAt s p k with pend := some y } else pgApply s p k y

/-- The colour that holds a counter, as the PGINITs before this one leave it. -/
def pgHolder (x : Pg) : Option Nat :=
  match x.pend with
  | some y => if y.alloc then some y.colour else none
  | none => if x.alloc then some x.colour else none

/-- PGINIT, SUB 0: allocate, or initialise again for the same colour. -/
def execPginit (r : RecS) (s : State) : Outcome :=
  sFire s r [0] (badPg r || r.sub != 0) false (portTok s.cur 0).ty (fun s c =>
    let col := colourOf c.tag
    if (pgHolder (pgAt s c.p (pgNum r))).any (fun k => k != col) then faultCur s c cILLEGAL 0
    else
      pgMove (pgSet s c.p (pgNum r)
        { alloc := true, value := laneN (portTok c 0).lanes 0, prior := laneN (portTok c 0).lanes 1 % 65536, colour := col
          ctx := matchCtx s c.p c.plane c.tag }) r c)

/-- PGINIT, SUB 1: free a counter that this colour holds. -/
def execPginitFree (r : RecS) (s : State) : Outcome :=
  sFire s r [0] (badPg r || r.sub != 1) false (portTok s.cur 0).ty (fun s c =>
    if pgHolder (pgAt s c.p (pgNum r)) ≠ some (colourOf c.tag) then faultCur s c cILLEGAL 0
    else pgMove (pgSet s c.p (pgNum r) {}) r c)

/-- PGADV: advance by a[0], or by SUB. -/
def execPgadv (r : RecS) (s : State) : Outcome :=
  sFire s r [0] (badPg r) true (portTok s.cur 0).ty (fun s c =>
    let x := pgStamp s (pgAt s c.p (pgNum r))
    let k := if r.sub = 0 then laneN (portTok c 0).lanes 0 else r.sub.toNat
    if !x.alloc then faultCur s c cILLEGAL 0
    else if x.ctx ≠ matchCtx s c.p c.plane c.tag then faultCur s c cPERMISSION 0
    else
      pgMove (setPg s c.p (pgNum r) { x with value := (x.value + k) % 2 ^ 32, acnt := min 4095 (x.acnt + k) }) r c)

/-- PGREAD: the two words as they stood at the start of the issue cycle. -/
def execPgread (r : RecS) (s : State) : Outcome :=
  sFire s r [0] (badPg r || r.sub != 0) false 7 (fun s c =>
    let x := pgAt s c.p (pgNum r)
    let w := pgStart s x
    if !bit w.2.1 51 then faultCur s c cILLEGAL 0
    else if w.2.2 ≠ matchCtx s c.p c.plane c.tag then faultCur s c cPERMISSION 0
    else emitRes s c (formS r) 7 (both { tag := c.tag, ty := 7, lanes := wordsLanes [w.1, w.2.1] }))

/-! ## Pulses (06 R126, R136) -/

/-- A quarter of a signed difference, truncated toward zero. -/
def quarter (x : Int) : Int := Int.tdiv x 4

/-- Broadcasts that some arbiter may still use: those of the last `lag` cycles, and the newest before them. -/
def keepHist (cycle lag : Nat) (h : List (Nat × Nat × Nat)) : List (Nat × Nat × Nat) :=
  h.takeWhile (fun x => decide (cycle < x.1 + lag)) ++ (h.dropWhile (fun x => decide (cycle < x.1 + lag))).take 1

/-- One counter at a pulse. -/
def pulsePg (s : State) (p : Nat) (x : Pg) : Pg :=
  let y := pgStamp s x
  let rate := ((x.rate : Int) + quarter (16 * (x.acnt : Int) - (x.rate : Int))).toNat
  { y with rate := rate, lvalue := x.value, acnt := 0
           hist := (s.cycle, x.value, rate) :: keepHist s.cycle (pulseP s p + 1) x.hist }

/-- A counter that a pulse updates: allocated, of a RESIDENT context whose park has not stopped pulses (13 R287). -/
def pulsed (s : State) (x : Pg) : Bool := x.alloc && (ctxAt s x.ctx).state == 3 && !ctxHalted s x.ctx

/-- A transfer that the pulse flags late (R136): its bit in LATE, its context's LATECNT, and the LATE trap (R137). -/
def flagLate (s : State) (x : Xfer) : State :=
  let t := x.r.ctag.toNat
  let cx := ctxAt s x.ctx
  let s := setCtx s x.ctx { cx with latecnt := min (cx.latecnt + 1) (2 ^ 32 - 1) }
  let sc := scribeAt s x.p
  let s := setScribe s x.p { sc with late := sc.late ||| BitVec.ofNat 64 (2 ^ t)
                                     latePend := sc.latePend || bit cx.nbctl.toNat 16 }
  putXfer s { x with flagged := true }

/-- PULSE (R126) of panel `p`, at the end of a cycle that is a multiple of P. -/
def execPulse (s : State) : Outcome :=
  let p := s.sel.p
  let pn := panelAt s p
  if s.cycle % pulseP s p ≠ 0 ∨ pn.lastPulse = s.cycle + 1 then notNow
  else
    let ks := (List.range 64).filter (fun k => pulsed s (pgAt s p k))
    let s1 := ks.foldl (fun s k => setPg s p k (pulsePg s p (pgAt s p k))) s
    let lates := s.xfers.filter (fun x => x.cpanel == p && ks.contains x.r.pgn.toNat && !x.freed && !x.stopped && !x.flagged &&
      !(scribeAt s x.p).late.getLsbD x.r.ctag.toNat && lateUnder (pgAt s p x.r.pgn.toNat).value x.r.mark.toNat)
    let s2 := lates.foldl flagLate s1
    let s3 := iter s2 64 (fun s k => match (pgAt s p k).pend with
      | some y => pgApply s p k y
      | none => s)
    let pn := panelAt s3 p
    .next (setPanel s3 p { pn with lastPulse := s.cycle + 1, plog := pn.plogPend.getD pn.plog, plogPend := none })

/-! ## Waits on completion (R253) -/

/-- CLR. -/
def clrOf (r : RecN) : Bool := r.hi.getLsbD 0

/-- A field that is not admitted. -/
def badWait (r : RecN) : Bool := r.hi.toNat / 2 != 0 || r.fmt != 0 || r.cf.toNat / 2 != 0

/-- The mask: element 0 of port b as n64, or half of it from LIT. -/
def waitMask (r : RecN) (c : Cur) : Word64 :=
  if r.ctl.lituse = 1 then BitVec.ofNat 64 (if r.cf.getLsbD 0 then put r.lit.toNat 32 else r.lit.toNat)
  else BitVec.ofNat 64 (elem 7 (portTok c 1).lanes 0)

/-- The trigger a as it is sent. -/
def trigVal (c : Cur) : Val := { tag := c.tag, ty := (portTok c 0).ty, lanes := (portTok c 0).lanes, eor := (portTok c 0).eor }

/-- Clear bits of DONE. -/
def clearDone (s : State) (p : Nat) (m : Word64) : State :=
  let sc := scribeAt s p
  setScribe s p { sc with done := sc.done &&& ~~~m }

/-- The step that WAITANY makes at DONE: `none` when it is to wait. -/
def anyStep (r : RecN) (s : State) (c : Cur) : Option State :=
  let done := (scribeAt s c.p).done
  let m := waitMask r c
  if done &&& m = 0 then none
  else
    let s1 := if clrOf r then clearDone s c.p (done &&& m) else s
    some (emitRes s1 c (formN r) 7
      { v0 := some (trigVal c)
        v1 := some { tag := c.tag, ty := 7, lanes := wordsLanes [(done &&& m).toNat] } })

/-- The step that WAITALL makes at DONE. -/
def allStep (r : RecN) (s : State) (c : Cur) : Option State :=
  let m := waitMask r c
  if (scribeAt s c.p).done &&& m ≠ m then none
  else some (emitRes (if clrOf r then clearDone s c.p m else s) c (formN r) 7 (both (trigVal c)))

/-- The step that FFREADY makes at DONE. -/
def ffStep (r : RecN) (s : State) (c : Cur) : Option State :=
  let m := waitMask r c
  let cond := (scribeAt s c.p).done &&& m == m
  some (emitRes (if clrOf r ∧ cond then clearDone s c.p m else s) c (formN r) 7
    { both (trigVal c) with cond := cond })

/-- The firing shared by the three records: a scribe record makes its step at once, one at a nib two cycles after its issue; a step
that cannot be made waits for a change of DONE. -/
def waitFire (r : RecN) (s : State) (bad : Cur → Bool) (act : State → Cur → Option State) : Outcome :=
  fireWith s (formN r) (portTok s.cur 0).ty [0, 1] (badWait r) false (fun _ => {}) (fun s c _ _ _ =>
    if bad c then faultCur s c cILLEGAL 0
    else if c.site = 240 then (act s c).getD (waitOn s c (.test s.cycle))
    else waitOn s c (.test (s.cycle + 2)))

/-- WAITANY. -/
def execWaitany (r : RecN) (s : State) : Outcome := waitFire r s (fun c => waitMask r c == 0) (anyStep r)

/-- WAITALL. -/
def execWaitall (r : RecN) (s : State) : Outcome := waitFire r s (fun _ => false) (allStep r)

/-- FFREADY. -/
def execFfready (r : RecN) (s : State) : Outcome := waitFire r s (fun _ => false) (ffStep r)

/-- The match of a record that waits at its site, as the current one. -/
def waitCur (p site : Nat) (m : Match) : Cur :=
  { p := p, site := site, plane := m.plane, node := m.node, tag := m.tag, ops := m.ops, scales := m.scales, again := m.again
    word := m.word, late := m.late }

/-- The step of a match that waits for DONE. -/
def waitStep (s : State) (p site : Nat) (m : Match) : Option State :=
  let c := waitCur p site m
  match decode m.word with
  | .ok (.waitany r) => anyStep r s c
  | .ok (.waitall r) => allStep r s c
  | .ok (.ffready r) => ffStep r s c
  | _ => none

/-- The tests of DONE at one site in this cycle, oldest first; a step needs room in the output queue. -/
def siteTests (s : State) (p site : Nat) : State :=
  (nibAt s p site).waits.foldl (fun s x => match x.on with
    | .test t =>
      if t ≤ s.cycle ∧ outRoom s p site x.m.word ∧ !gatedCtx s p site (matchCtx s p x.m.plane x.m.tag) then
        match idxOf (fun y => decide (y = x)) (nibAt s p site).waits with
        | some k =>
          let n := nibAt s p site
          (waitStep (setNib s p site { n with waits := dropAt n.waits k }) p site x.m).elim s (fun s' =>
            settle (if site = 240 ∧ !x.m.late then noteFired s' p x.m.node else s') p site)
        | none => s
      else s
    | _ => s) s

/-- The tests of DONE in a panel in this cycle, after the bits that transfers have set in it, in ascending site number (R253). -/
def panelTests (s : State) (p : Nat) : State :=
  (s.nibs.filter (fun x => x.1 / 256 == p && !x.2.waits.isEmpty)).foldl (fun s x => siteTests s p (x.1 % 256)) s

/-! ## Scale tokens (R254, R255) -/

/-- A destination of SCLEMIT: port s of a nib, port s of the scale port, or none. -/
def sclDestOk (c : Cur) (d : Dest) : Bool :=
  d.site == 255 || (d.port == 3 && (d.site == 245 || isNib (if d.site = 254 then c.site else d.site.toNat)))

/-- The scale token of lane `j` towards a destination; it carries the POISON of a. -/
def sclTok (r : RecN) (c : Cur) (d : Dest) (j : Nat) : ScaleTok :=
  let a := portTok c 0
  { payload := BitVec.ofNat 64 (c.tag.toNat / 2 ^ 20 * 2 ^ 20 + put (b2n (r.hi.getLsbD 0)) 19 + put (r.cf.toNat % 8 + j) 16 +
      laneN a.lanes j % 65536)
    site := if d.site = 254 then c.site else d.site.toNat, node := d.node.toNat, plane := c.plane, poison := a.poison }

/-- Put scale tokens on the scale network; a block holds them to commit (02 R52), and after it they carry the
injection plane (15 R319). -/
def sendScales (s : State) (c : Cur) (xs : List ScaleTok) : State :=
  if c.site = 240 then
    if inBlock s ∧ !c.late then onBlock s c.p (fun b => { b with scaleSends := b.scaleSends ++ xs })
    else
      match (panelAt s c.p).inj with
      | some k => { s with scaleNet := s.scaleNet ++ xs.map (fun x => { p := c.p, tok := { x with plane := k } }) }
      | none => if xs.isEmpty then s else faultCur s { c with late := true } cILLEGAL 0
  else { s with scaleNet := s.scaleNet ++ xs.map (fun x => { p := c.p, tok := x }) }

/-- The scale tokens of a match, in ascending lanes, d0 first. -/
def sclToks (r : RecN) (c : Cur) : List ScaleTok :=
  (List.range (portTok c 0).lanes.length).flatMap (fun j =>
    if predAt (lanePred r.ctl c) j then
      ([(r.d0, r.ctl.emit0), (r.d1, r.ctl.emit1)].filter (fun x => x.1.site != 255 && emits x.2 true)).map
        (fun x => sclTok r c x.1 j)
    else [])

/-- SCLEMIT (R254): a null match, and one whose predicate is false, sends nothing. -/
def execSclemit (r : RecN) (s : State) : Outcome :=
  let c := s.cur
  let ps := portSet [0] r.ctl
  let a := portTok c 0
  if !hasPorts c ps then .refused .noMatch
  else if r.hi.toNat / 2 != 0 || r.fmt != 5 || r.cf.toNat / 8 != 0 || r.ctl.lituse != 0 || badCtl [0] r.ctl ||
      anyBlock c ps || !sclDestOk c r.d0 || !sclDestOk c r.d1 ||
      (!a.null && decide (8 < r.cf.toNat % 8 + a.lanes.length)) then .next (faultCur s c cILLEGAL 0)
  else if anyNull c ps ∨ predFalse r.ctl c then .next s
  else .next (sendScales s c (sclToks r c))

/-- Fields of an SPRT entry (R255). -/
def sprtCtx (v : Word64) : Nat := bits v.toNat 27 20
def sprtValid (v : Word64) : Bool := bit v.toNat 16
def sprtDest (v : Word64) : Dest := destOfBits (v.extractLsb' 0 16)

/-- A discarded scale token's entry: the scale port reports it. -/
def portDrop (s : State) (p cause : Nat) (x : ScaleTok) : State :=
  post s { tag := BitVec.ofNat 64 (x.payload.toNat / 2 ^ 20 * 2 ^ 20), cause := cause, site := 245, node := x.node, port := 3,
           plane := x.plane, panel := p,
           ctx := matchCtx s p x.plane (BitVec.ofNat 64 (x.payload.toNat / 2 ^ 20 * 2 ^ 20)) }

/-- SCALE_PORT_CONVERT (R255): the oldest scale token that waits at panel `p`'s scale port becomes a data token. -/
def execScalePortConvert (s : State) : Outcome :=
  let p := s.sel.p
  let pn := panelAt s p
  match pn.portQ with
  | [] => notNow
  | x :: rest =>
    let s1 := setPanel s p { pn with portQ := rest }
    let e := tgetD pn.sprt x.node 0
    let d := sprtDest e
    let col := bits x.payload.toNat 63 52
    let cx := ctxAt s (sprtCtx e)
    if !sprtValid e ∨ !isNib d.site.toNat then .next (portDrop s1 p cILLEGAL x)
    else if col < cx.colbase ∨ cx.collim < col then .next (portDrop s1 p cTAG x)
    else
      match pn.inj with
      | none => .next (portDrop s1 p cILLEGAL x)
      | some k =>
        let tok : Token :=
          { tag := BitVec.ofNat 64 (x.payload.toNat / 2 ^ 20 * 2 ^ 20), site := d.site, node := d.node, port := d.port,
            plane := BitVec.ofNat 2 k, ty := 6, poison := x.poison,
            lanes := [BitVec.ofNat 32 (x.payload.toNat % 65536), BitVec.ofNat 32 (bits x.payload.toNat 19 16)] }
        if queueLen s1 p 245 < 8 then .next (sendTok s1 p 245 tok) else notNow

end Sys2Proof.Machine
end

