-- ==== Sys2Proof/Machine/Array.lean ====
section
/-!
DEFINITION. Systolic arrays: SYSMODE, WLOAD, MMA, ACCIN, ACCOUT and the passes between them (11 R256 to R261).
-/
namespace Sys2Proof.Machine

/-! ## Geometry (R256, R257) -/

def nrowOf (a : SysArray) : Nat := (a.y1 - a.y0) / 2 + 1
def ncolOf (a : SysArray) : Nat := (a.x1 - a.x0) / 2 + 1

/-- Cell row and column of a site in an array. -/
def cellIn (a : SysArray) (p site : Nat) : Option (Nat × Nat) :=
  let y := site / 16
  let x := site % 16
  if a.p = p ∧ site < 240 ∧ a.y0 ≤ y ∧ y ≤ a.y1 ∧ a.x0 ≤ x ∧ x ≤ a.x1 ∧ (y - a.y0) % 2 = 0 ∧ (x - a.x0) % 2 = 0 then
    some ((y - a.y0) / 2, (x - a.x0) / 2)
  else none

/-- The array that a site is a cell of: its place in the list, row and column. -/
def cellOf (s : State) (p site : Nat) : Option (Nat × Nat × Nat) :=
  (List.range s.arrays.length).foldl (fun (r : Option (Nat × Nat × Nat)) i => match r with
    | some _ => r
    | none => (s.arrays[i]?.bind (fun a => cellIn a p site)).map (fun x => (i, x.1, x.2))) none

/-- Sites of the cells, and of the skew wells, of a rectangle. -/
def cellSites (y0 y1 x0 x1 : Nat) : List Nat :=
  (List.range ((y1 - y0) / 2 + 1)).flatMap (fun r =>
    (List.range ((x1 - x0) / 2 + 1)).map (fun q => (y0 + 2 * r) * 16 + x0 + 2 * q))
def skewSites (y0 y1 x0 x1 : Nat) : List Nat :=
  (List.range ((y1 - y0) / 2)).flatMap (fun r =>
    (List.range ((x1 - x0) / 2 + 1)).map (fun q => (y0 + 2 * r + 1) * 16 + x0 + 2 * q))

/-- K of an array type (01 R28, R257). -/
def arrK (ty : BitVec 4) : Nat :=
  match ty.toNat with
  | 11 => 128
  | 12 => 64
  | 13 => 32
  | 0 => 32
  | _ => 16

/-- Lanes of one K-slice (R259). -/
def sliceLanes (ty : BitVec 4) : Nat := if isBlockTy ty then arrK ty / 16 * blockLanes ty else if ty = 0 then 32 else 16

/-- An array type. -/
def arrTyOk (ty : BitVec 4) : Bool := ty == 0 || ty == 8 || ty == 9 || isBlockTy ty

/-- TYPE of the accumulators. -/
def accTy (ty : BitVec 4) : BitVec 4 := if ty = 0 then 2 else 10

/-- Key of weight element `i` of a cell's buffer. -/
def wKey (r q : Nat) (wb : Bool) (i : Nat) : Nat := ((r * 16 + q) * 2 + b2n wb) * 4096 + i

def setArray (s : State) (i : Nat) (a : SysArray) : State := { s with arrays := setAt s.arrays i a }

/-! ## SYSMODE (R256) -/

/-- The rectangle that lane 0 names, moved with its kernel (07 R157); `none` when a field breaks its range. -/
def sysRect (s : State) (c : Cur) : Option (Nat × Nat × Nat × Nat) :=
  let v := laneN (portTok c 0).lanes 0
  let y0 := bits v 31 28
  let y1 := bits v 27 24
  let x0 := bits v 23 20
  let x1 := bits v 19 16
  let pl := planeOf s c.p c.plane
  let ay0 := (y0 : Int) + pl.dy
  let ay1 := (y1 : Int) + pl.dy
  let ax0 := (x0 : Int) + pl.dx
  let ax1 := (x1 : Int) + pl.dx
  if v % 65536 ≠ 0 ∨ 14 < y1 ∨ y1 < y0 ∨ x1 < x0 ∨ (y0 + x0) % 2 ≠ 0 ∨ ay0 < 0 ∨ 14 < ay1 ∨ ax0 < 0 ∨ 15 < ax1 then none
  else some (ay0.toNat, ay1.toNat, ax0.toNat, ax1.toNat)

/-- Entry is illegal: a cell belongs to an array, or a skew well is configured. -/
def enterBad (s : State) (p y0 y1 x0 x1 : Nat) : Bool :=
  (cellSites y0 y1 x0 x1).any (fun x => (cellOf s p x).isSome) ||
    (skewSites y0 y1 x0 x1).any (fun w => wellMode (wellAt s p w) != 0)

/-- The array that a rectangle names exactly. -/
def arrayAt (s : State) (p y0 y1 x0 x1 : Nat) : Option Nat :=
  idxOf (fun (a : SysArray) => a.p == p && a.y0 == y0 && a.y1 == y1 && a.x0 == x0 && a.x1 == x1) s.arrays

/-- A field of SYSMODE that is not admitted; d0 names a grid site or none. -/
def badSys (leave : Bool) (r : RecN) : Bool :=
  r.hi != (if leave then 1 else 0) || !arrTyOk r.fmt || r.cf != 0 || r.ctl.lituse != 0 ||
    !(r.d0.site == 255 || decide (r.d0.site.toNat < 240))

/-- A rectangle that the request cannot take. -/
def sysBad (s : State) (c : Cur) (leave : Bool) : Bool :=
  match sysRect s c with
  | none => true
  | some (y0, y1, x0, x1) =>
    if leave then (arrayAt s c.p y0 y1 x0 x1).isNone else enterBad s c.p y0 y1 x0 x1

/-- A pending MMA at a cell: a match that has not issued, or that waits (11 R260). -/
def mmaPending (s : State) (p site : Nat) : Bool :=
  let n := nibAt s p site
  (n.ready ++ n.waits.map (·.m)).any (fun m => opOf (if m.again = 1 then m.word else recAt s p site m.plane m.node) == 0xAB)

/-- The acknowledgement of SYSMODE, to d0. -/
def sysAck (s : State) (c : Cur) (r : RecN) : State :=
  emitRes s { c with late := true } (formN r) 6 { v0 := some (ackVal c.tag 0) }

/-- A SYSMODE request takes effect, or waits on its panel. -/
def sysTry (s : State) (c : Cur) (leave : Bool) (r : RecN) : State :=
  let pend := fun (s : State) =>
    setPanel s c.p { panelAt s c.p with sysPend := (panelAt s c.p).sysPend ++ [(c, leave, r)] }
  match sysRect s c with
  | none => faultCur s { c with late := true } cILLEGAL 0
  | some (y0, y1, x0, x1) =>
    if leave then
      match arrayAt s c.p y0 y1 x0 x1 with
      | none => faultCur s { c with late := true } cILLEGAL 0
      | some i =>
        if ((s.arrays.getD i default).passes.any (fun q => q.complete)) then pend s
        else sysAck { s with arrays := dropAt s.arrays i } c r
    else if enterBad s c.p y0 y1 x0 x1 then faultCur s { c with late := true } cILLEGAL 0
    else if (cellSites y0 y1 x0 x1).any (mmaPending s c.p) then pend s
    else
      let a : SysArray := { p := c.p, y0 := y0, y1 := y1, x0 := x0, x1 := x1, ty := r.fmt, ctx := matchCtx s c.p c.plane c.tag }
      sysAck { s with arrays := s.arrays ++ [a] } c r

/-- Requests of a panel that wait are tried again. -/
def sysSettle (s : State) (p : Nat) : State :=
  let xs := (panelAt s p).sysPend
  if xs.isEmpty then s
  else xs.foldl (fun s x => sysTry s x.1 x.2.1 x.2.2) (setPanel s p { panelAt s p with sysPend := [] })

/-- SYSMODE: checked when it fires, its effect held to the commit of its block. -/
def sysFire (leave : Bool) (r : RecN) (i : Instr) (s : State) : Outcome :=
  let c := s.cur
  let ps := portSet [0] r.ctl
  if !hasPorts c ps ∨ c.site ≠ 240 then .refused .noMatch
  else if badSys leave r || badCtl [0] r.ctl || anyBlock c ps then .next (faultCur s c cILLEGAL 0)
  else if anyNull c ps then .next (if r.ctl.nullpass then emitNulls s c (formN r) 6 else s)
  else if predFalse r.ctl c then .next (emitNulls s c (formN r) 6)
  else if (portTok c 0).poison then .next (faultCur s c cPOISON 0)
  else if sysBad s c leave then .next (faultCur s c cILLEGAL 0)
  else if inBlock s ∧ !c.late then .next (holdEff s i)
  else .next (sysTry s c leave r)

/-- SYSMODE with OPX[84] = 0. -/
def execSysmodeEnter (r : RecN) (s : State) : Outcome := sysFire false r (.sysmodeEnter r) s

/-- SYSMODE with OPX[84] = 1. -/
def execSysmodeLeave (r : RecN) (s : State) : Outcome := sysFire true r (.sysmodeLeave r) s

/-! ## WLOAD (R258) -/

/-- Elements that a chunk holds. -/
def chunkElems (ty : BitVec 4) : Nat := if isBlockTy ty then 128 else 32

/-- Element `i` of a chunk as raw bits. -/
def chunkElem (ty : BitVec 4) (ls : List Lane) (i : Nat) : Nat :=
  if isBlockTy ty then
    let m := blockM ty + 1
    blockStr ty ls (i / 16) / 2 ^ (i % 16 * m) % 2 ^ m
  else elem ty ls i

/-- A buffer with one chunk written. -/
def loadChunk (a : SysArray) (r q : Nat) (wb : Bool) (c : Nat) (cur : Cur) : SysArray :=
  let e := chunkElems a.ty
  let ls := (portTok cur 0).lanes
  let w := (List.range e).foldl (fun (t : Tab Lane) i =>
    tsetD t (wKey r q wb (c * e + i)) (BitVec.ofNat 32 (chunkElem a.ty ls i)) 0) a.weights
  let sc := if isBlockTy a.ty then (List.range 8).foldl (fun (t : Tab Nat) b =>
      tsetD t (wKey r q wb (c * e + 16 * b)) (scaleOf cur 0 b) 0) a.wscales
    else a.wscales
  let key := wKey r q wb c
  let others := a.wpoison.filter (fun k => k != key)
  { a with weights := w, wscales := sc, wpoison := if curPoison cur then others ++ [key] else others }

/-- A pass in progress still reads a buffer of a cell's column. -/
def reading (a : SysArray) (q : Nat) (wb : Bool) : Bool :=
  a.passes.any (fun x => x.complete && x.accin.isNone && x.wb == wb && !x.cols.contains q)

/-- WLOAD. -/
def execWload (r : RecN) (s : State) : Outcome :=
  fireWith s (formN r) 6 [0, 1] (r.hi.toNat / 2 != 0 || !arrTyOk r.fmt || r.cf != 0 || r.ctl.lituse == 2) true (fun _ => {})
    (fun s c _ _ _ =>
      let wb := r.hi.getLsbD 0
      let ch := if r.ctl.lituse = 1 then r.lit.toNat else laneN (portTok c 1).lanes 0
      let t := portTok c 0
      match cellOf s c.p c.site with
      | none => faultCur s c cILLEGAL 0
      | some (i, row, q) =>
        let a := s.arrays.getD i default
        let full := if isBlockTy a.ty then 8 * blockLanes a.ty else 32
        if r.fmt ≠ a.ty ∨ t.ty ≠ a.ty ∨ t.lanes.length ≠ full ∨ 32 * arrK a.ty / chunkElems a.ty ≤ ch then
          faultCur s c cILLEGAL 0
        else if r.ctl.lituse ≠ 1 ∧ (portTok c 1).poison then faultCur s c cPOISON 0
        else if reading a q wb then waitOn s c (.acc c.p)
        else emitRes (setArray s i (loadChunk a row q wb ch c)) c (formN r) 6 (both (ackVal c.tag ch)))

/-! ## Passes (R259, R260) -/

/-- Accumulator `j` of south-edge column `q`. -/
def accAt (a : SysArray) (q j : Nat) : Accum := tgetD a.accs (64 * q + j) {}
def setAcc (a : SysArray) (q j : Nat) (x : Accum) : SysArray := { a with accs := tsetD a.accs (64 * q + j) x {} }

/-- A pass with index p and base B is next at an accumulator. -/
def accTurn (x : Accum) (p : Nat) (b : Word64) : Bool :=
  (x.run.isNone && p == 0) || (x.run == some b && p == x.next)

/-- Index and base of a pass. -/
def passIdx (s : State) (a : SysArray) (x : Pass) : Nat := fld (layoutOf s a.p x.plane) x.tag x.level
def passBase (s : State) (a : SysArray) (x : Pass) : Word64 := setfld (layoutOf s a.p x.plane) x.tag x.level 0

/-- Columns that a pass has still to reach. -/
def passCols (a : SysArray) (x : Pass) : List Nat :=
  (match x.accin with
   | some (q, _) => [q]
   | none => List.range (ncolOf a)).filter (fun q => !x.cols.contains q)

/-- The block of a buffer that starts at element `i`, as a string. -/
def weightStr (a : SysArray) (r q : Nat) (wb : Bool) (i : Nat) : Nat :=
  let m := blockM a.ty + 1
  (List.range 16).foldl (fun t k => t + put (tgetD a.weights (wKey r q wb (i + k)) 0).toNat (k * m)) 0

/-- One row's products into output `o`, in ascending K (03 R77, R78). -/
def rowStep (a : SysArray) (x : PassRow) (q : Nat) (wb : Bool) (o : Nat) (acc : Acc) : Acc :=
  match x.tok with
  | none => acc
  | some t =>
    let k := arrK a.ty
    if isBlockTy a.ty then
      (List.range (k / 16)).foldl (fun acc b =>
        let i := o * k + 16 * b
        let sw := match x.scales.find? (fun y => bits y.payload.toNat 19 19 == 0 && bits y.payload.toNat 18 16 == b) with
          | some y => y.payload.toNat % 65536
          | none => 0
        blockStep (blockM a.ty) (blockStr a.ty t.lanes b) sw (weightStr a x.row q wb i)
          (tgetD a.wscales (wKey x.row q wb i) 0) acc) acc
    else if a.ty = 0 then
      (wrapN 32 (sgn 32 acc.1 + (List.range k).foldl (fun (v : Int) i =>
        v + elemInt 0 t.lanes i * sgn 8 (tgetD a.weights (wKey x.row q wb (o * k + i)) 0).toNat) 0), acc.2)
    else
      (List.range k).foldl (fun acc i =>
        macStep a.ty (elem a.ty t.lanes i) (tgetD a.weights (wKey x.row q wb (o * k + i)) 0).toNat acc) acc

/-- Rows of a pass in ascending order. -/
def rowsUp (x : Pass) : List PassRow := sortBy (fun (a b : PassRow) => decide (a.row < b.row)) x.rows

/-- Output `o` of column `q` after a pass. -/
def outStep (a : SysArray) (x : Pass) (q o : Nat) (v : Lane) : Acc :=
  match x.accin with
  | some (_, t) =>
    if a.ty = 0 then (wrapN 32 ((v.toNat + laneN t.lanes o : Nat) : Int), 0)
    else accAdd (v.toNat, 0) (fread 10 (laneN t.lanes o))
  | none => (rowsUp x).foldl (fun acc r => rowStep a r q x.wb o acc) (v.toNat, 0)

/-- POISON that a pass brings to a column (R261). -/
def passPoison (a : SysArray) (x : Pass) (q : Nat) : Bool :=
  match x.accin with
  | some (_, t) => t.poison
  | none => x.rows.any (fun r => (r.tok.map (·.poison)).getD false || r.scales.any (fun y => y.poison) ||
      a.wpoison.any (fun k => k / 4096 == wKey r.row q x.wb 0 / 4096))

/-- A pass updates the accumulator of one column. -/
def passColumn (s : State) (i : Nat) (a : SysArray) (n q : Nat) (x : Pass) : State :=
  let acc := accAt a q x.j
  let acc := if acc.run.isNone then { acc with run := some (passBase s a x), next := 0, v := List.replicate 32 0, poison := false }
    else acc
  let out := (List.range 32).map (fun o => outStep a x q o (acc.v.getD o 0))
  let bad := passPoison a x q
  let acc := { acc with v := out.map (fun r => BitVec.ofNat 32 r.1), next := acc.next + 1, poison := acc.poison || bad }
  let x' := { x with cols := x.cols ++ [q] }
  let a1 := setAcc a q x.j acc
  let a2 := { a1 with passes := if (passCols a x').isEmpty then dropAt a1.passes n else setAt a1.passes n x' }
  let s1 := setArray s i a2
  if bad then s1
  else orFlags s1 (partOf s (matchCtx s a.p x.plane x.tag)) x.colour (out.foldl (fun f r => f ||| r.2) 0)

/-- Cycles after the issue of its last MMA in which a pass that waits for none has updated every accumulator (R260). -/
def passTime (a : SysArray) : Nat := 2 * nrowOf a + (if a.ty = 0 then 2 else 1) * ncolOf a + 3

/-- ARRAY_PASS_UPDATE (R260): pass `num` of array `k`, whose turn has come at column `q`, updates its accumulator. -/
def execArrayPassUpdate (s : State) : Outcome :=
  match s.arrays[s.sel.k]? with
  | none => notNow
  | some a =>
    match a.passes[s.sel.num]? with
    | none => notNow
    | some x =>
      if !x.complete ∨ !(passCols a x).contains s.sel.q ∨
          !accTurn (accAt a s.sel.q x.j) (passIdx s a x) (passBase s a x) then notNow
      else
        let s1 := passColumn s s.sel.k a s.sel.num s.sel.q x
        .next (sysSettle (wakePanel s1 a.p (fun w => w == .acc a.p)) a.p)

/-- An MMA away from the west edge withholds the pass of its tag: one that gathers, or the one that is to come (R259). -/
def withholdPass (s : State) (c : Cur) (i : Nat) : State :=
  let a := s.arrays.getD i default
  match idxOf (fun (x : Pass) => x.tag == c.tag && !x.complete && x.accin.isNone) a.passes with
  | some n => setArray s i { a with passes := setAt a.passes n { a.passes.getD n default with withheld := true } }
  | none =>
    if a.passes.any (fun x => x.tag == c.tag && x.accin.isNone) then s
    else
      let x : Pass := { tag := c.tag, j := 0, level := 0, wb := false, plane := c.plane, rows := [], complete := false, accin := none,
                        cols := [], colour := colourOf c.tag, withheld := true }
      setArray s i { a with passes := a.passes ++ [x] }

/-- A row joins the pass of its tag: gathered, complete after the last row; a row that disagrees with row 0 is reported at
its cell and the pass is withheld. -/
def joinPass (s : State) (c : Cur) (i : Nat) (row : PassRow) (bad : Bool) : State :=
  let a := s.arrays.getD i default
  let n := idxOf (fun (x : Pass) => x.tag == c.tag && !x.complete && x.accin.isNone) a.passes
  let x : Pass := match n with
    | some n => a.passes.getD n default
    | none => { tag := c.tag, j := 0, level := 0, wb := false, plane := c.plane, rows := [], complete := false, accin := none,
                cols := [], colour := colourOf c.tag }
  let rows := x.rows ++ [row]
  let differs := match rows.find? (fun y => y.row == 0) with
    | some z => (if row.row = 0 then rows else [row]).filter (fun (y : PassRow) => y.j != z.j || y.level != z.level || y.wb != z.wb)
    | none => []
  let z := (rows.find? (fun y => y.row == 0)).getD row
  let full := rows.length == nrowOf a
  let x' := { x with rows := rows, j := z.j, level := z.level, wb := z.wb, complete := full, born := s.cycle,
                     withheld := x.withheld || bad || !differs.isEmpty }
  let others := match n with
    | some n => dropAt a.passes n
    | none => a.passes
  let s1 := setArray s i { a with passes := if full && x'.withheld then others else others ++ [x'] }
  let entry := fun (s : State) (y : PassRow) =>
    ({ tag := c.tag, cause := cILLEGAL, site := y.site, node := y.node, plane := y.plane, panel := c.p,
       ctx := matchCtx s c.p c.plane c.tag } : MbEntry)
  differs.foldl (fun s (y : PassRow) => post s (entry s y)) s1

/-- A row of the tag has fired in a pass that is gathering. -/
def rowFired (a : SysArray) (tag : Word64) (row : Nat) : Bool :=
  a.passes.any (fun x => x.tag == tag && !x.complete && x.accin.isNone && x.rows.any (fun y => y.row == row))

/-- Passes that wait in the skew wells of a column: in progress, and not next at its accumulator (R260). -/
def skewWaiting (s : State) (a : SysArray) (q : Nat) : Nat :=
  (a.passes.filter (fun x => x.complete && x.accin.isNone && !x.cols.contains q &&
    !accTurn (accAt a q x.j) (passIdx s a x) (passBase s a x))).length

/-- The skew well below a cell row is full in some column, and the pass is not next there: the cells above it take no activation
(R260). -/
def skewFull (s : State) (a : SysArray) (c : Cur) (row j level : Nat) : Bool :=
  let lay := layoutOf s c.p c.plane
  decide (row + 1 < nrowOf a) && (List.range (ncolOf a)).any (fun q => decide (16 ≤ skewWaiting s a q) &&
    !accTurn (accAt a q j) (fld lay c.tag level) (setfld lay c.tag level 0))

/-- MMA (R259). A null or false-predicated row contributes no products, and counts. -/
def execMma (r : RecN) (s : State) : Outcome :=
  let c := s.cur
  let ps := portSet [0] r.ctl
  let t := portTok c 0
  let lev := r.hi.toNat % 8
  if !hasPorts c ps then .refused .noMatch
  else if r.hi.getLsbD 3 || r.lit.toNat / 128 != 0 || r.cf != 0 || r.ctl.lituse != 0 || badCtl [0] r.ctl || !arrTyOk r.fmt ||
      decide ((layoutOf s c.p c.plane).length ≤ lev) then .next (sysSettle (faultCur s c cILLEGAL 0) c.p)
  else
    match cellOf s c.p c.site with
    | none => .next (sysSettle (faultCur s c cILLEGAL 0) c.p)
    | some (i, row, q) =>
      let a := s.arrays.getD i default
      let off := anyNull c ps || predFalse r.ctl c
      let x : PassRow := { row := row, j := r.lit.toNat % 64, level := lev, wb := bit r.lit.toNat 6, site := c.site, node := c.node,
                           plane := c.plane, tok := if off then none else some t, scales := if off then [] else c.scales }
      let wrong := r.fmt != a.ty || (!off && (t.ty != a.ty || t.lanes.length != sliceLanes a.ty))
      if q ≠ 0 then .next (sysSettle (withholdPass (faultCur s c cILLEGAL 0) c i) c.p)
      else if rowFired a c.tag row then .next (sysSettle (faultCur s c cILLEGAL 0) c.p)
      else if wrong then .next (sysSettle (joinPass (faultCur s c cILLEGAL 0) c i { x with tok := none, scales := [] } true) c.p)
      else if skewFull s a c row x.j lev then .next (waitOn s c (.acc c.p))
      else .next (sysSettle (joinPass (noteMma s c.p c.site) c i x false) c.p)

/-! ## ACCIN and ACCOUT (R261) -/

/-- The array and column of a south-edge cell whose accumulators have the type FMT. -/
def southCell (s : State) (c : Cur) (f : BitVec 4) : Option (Nat × Nat) :=
  match cellOf s c.p c.site with
  | some (i, row, q) =>
    let a := s.arrays.getD i default
    if row + 1 = nrowOf a ∧ f = accTy a.ty then some (i, q) else none
  | none => none

/-- The level λ lies in the layout. -/
def accLevelOk (s : State) (r : RecN) : Bool := decide (r.hi.toNat % 8 < (layoutOf s s.cur.p s.cur.plane).length)

/-- FMT is the type of no accumulator. -/
def badAccFmt (r : RecN) : Bool := r.fmt != 2 && r.fmt != 10

/-- ACCIN: 32 lanes of the accumulator's type as a pass of their own. -/
def execAccin (r : RecN) (s : State) : Outcome :=
  fireWith s (formN r) r.fmt [0]
    (r.hi.getLsbD 3 || badAccFmt r || r.cf != 0 || r.lit.toNat / 64 != 0 || r.ctl.lituse != 0 || !accLevelOk s r) false (fun _ => {})
    (fun s c _ _ _ =>
      match southCell s c r.fmt with
      | none => faultCur s c cILLEGAL 0
      | some (i, q) =>
        let a := s.arrays.getD i default
        let t := portTok c 0
        if t.ty ≠ r.fmt ∨ t.lanes.length ≠ 32 then faultCur s c cILLEGAL 0
        else
          let x : Pass :=
            { tag := c.tag, j := r.lit.toNat % 64, level := r.hi.toNat % 8, wb := false, plane := c.plane, rows := [],
              complete := true, accin := some (q, { t with poison := curPoison c }), cols := [], colour := colourOf c.tag,
              born := s.cycle }
          setArray s i { a with passes := a.passes ++ [x] })

/-- ACCOUT: waits for its run to reach N passes, emits the accumulator and closes the run. -/
def execAccout (r : RecN) (s : State) : Outcome :=
  fireWith s (formN r) r.fmt [0]
    (r.hi.getLsbD 3 || badAccFmt r || r.cf != 0 || r.lit.toNat / 2 ^ 24 != 0 || bits r.lit.toNat 23 8 == 0 || r.ctl.lituse != 0 ||
      !accLevelOk s r) false (fun _ => {})
    (fun s c _ _ _ =>
      match southCell s c r.fmt with
      | none => faultCur s c cILLEGAL 0
      | some (i, q) =>
        let a := s.arrays.getD i default
        let j := r.lit.toNat % 64
        let x := accAt a q j
        let b := setfld (layoutOf s c.p c.plane) c.tag (r.hi.toNat % 8) 0
        if x.run ≠ some b ∨ x.next ≠ bits r.lit.toNat 23 8 then waitOn s c (.acc c.p)
        else
          let s1 := setArray s i (setAcc a q j { x with run := none, poison := false })
          let v : Val := { tag := c.tag, ty := r.fmt, lanes := x.v }
          let xs := (destSends r.d0 r.ctl.emit0 (curPoison c || x.poison) true false v (some v)) ++
            destSends r.d1 r.ctl.emit1 (curPoison c || x.poison) true false v (some v)
          if xs.any (tooWide s c) then faultCur s c cILLEGAL 0
          else wakePanel (sends s1 c xs) c.p (fun w => w == .acc c.p))

end Sys2Proof.Machine
end

