-- ==== Sys2Proof/Machine/Cavity.lean ====
section
/-!
DEFINITION. Cavity reductions (12 R262 to R270) and pace sets (12 R271 to R276), and the stores of the engines that
write virtual addresses.
-/
namespace Sys2Proof.Machine

/-! ## Stores of an engine -/

/-- The pieces of a range of bytes by sector: address of the piece's first byte, and its bytes. -/
def sectorPieces : Nat → Nat → List Byte → List (Nat × List Byte)
  | 0, _, _ => []
  | n + 1, va, bs =>
    if bs.isEmpty then []
    else
      let k := 32 - va % 32
      (va, bs.take k) :: sectorPieces n (va + k) (bs.drop k)

/-- One piece of an engine's store, performed at DEVICE scope, or sent to another part. -/
def engineStore (s : State) (ctx p va : Nat) (bs : List Byte) (poison : Bool) : State × Option Nat :=
  match xlateNow s ctx p 240 1 va .write with
  | (s, .bad c) => (s, some c)
  | (s, .ok pa cls) =>
    let at_ := (List.range bs.length).map (fun i => (pa % 32 + i, bs.getD i 0))
    if ownDev s pa then (writeL2 s none (dieOf p) 3 (homeForm pa / 32 * 32) ctx { cls := cls } at_ poison, none)
    else
      ({ s with reqs := s.reqs ++ [{ kind := .flush p 240 at_ poison, path := (portPath s (dieOf p) (bits pa 55 44)).getD [],
                                     born := s.cycle, ctx := ctx, issuer := p, addr := pa, ctag := 64 }] }, none)

/-- Bytes that an engine of panel `p` stores at a virtual address of a context, with the cause of the first fault. -/
def vwrite (s : State) (ctx p va : Nat) (bs : List Byte) (poison : Bool) : State × Option Nat :=
  (sectorPieces (bs.length / 32 + 2) va bs).foldl (fun (st : State × Option Nat) x =>
    match st.2 with
    | some c => (st.1, some c)
    | none => engineStore st.1 ctx p x.1 x.2 poison) (s, none)

/-! ## Objects at wells (R262) -/

/-- A breach of R262: the place that D1 names, the well's MODE, the fields that the format fixes. -/
def objBad (s : State) (c : Cur) (r : RecS) (mode : Nat) : Bool :=
  r.d1.node != 0 || r.d1.port != 0 || !isWell r.d1.site.toNat || wellMode (wellAt s c.p r.d1.site.toNat) != mode || r.cf != 0

/-- A well of another context discards a match's request (04 R87). -/
def objForeign (s : State) (c : Cur) (w : Nat) : Bool :=
  tagged s c.p &&
    (match (wellAt s c.p w).owner with
     | some o => (admission? s c.p (colourOf c.tag)).map (·.ctx) != some o
     | none => false)

/-- A match of these records emits to d0 only. -/
def d0Only (r : RecS) : Form := { d0 := r.d0, d1 := { site := 255, node := 0, port := 0 }, ctl := r.ctl }

/-- The firing of a record that acts on the object of a well (02 R51, R262). -/
def objFire (s : State) (r : RecS) (base : List Nat) (mode : Nat) (bad : Bool) (ty : BitVec 4)
    (act : State → Cur → Nat → State) : Outcome :=
  sFire s { r with d1 := (d0Only r).d1 } base (bad || objBad s s.cur r mode) false ty (fun s c =>
    if objForeign s c r.d1.site.toNat then faultCur s c cTAG 0 else act s c r.d1.site.toNat)

/-- A result of such a record. -/
def objEmit (s : State) (c : Cur) (r : RecS) (ty : BitVec 4) (v : Val) : State := emitRes s c (d0Only r) ty (both v)

/-! ## Cavities: descriptor, segment, region (R263 to R267) -/

def cavN (d : BitVec 32) : Nat := bits d.toNat 31 22 + 1
def cavOp (d : BitVec 32) : Nat := bits d.toNat 21 18
def cavW (d : BitVec 32) : Nat := bits d.toNat 17 13 + 1
def cavBase (d : BitVec 32) : Nat := bits d.toNat 12 6

/-- Reserved fields of the descriptor. -/
def cavBad (d : BitVec 32) : Bool := bits d.toNat 5 0 != 0 || decide (10 ≤ cavOp d)

/-- The segment that a join names: LO, HI, SEG, LAST, LINK; the segment word is port b of SUB 1 (R265). -/
def segOf (d : BitVec 32) (ls : Option (List Lane)) : Nat × Nat × Nat × Bool × Nat :=
  match ls with
  | none => (0, cavN d, 0, true, 0)
  | some ls =>
    let w := laneN ls 0
    (bits w 9 0, bits w 19 10 + 1, bits w 25 20, bit w 26, laneN ls 1 + laneN ls 2 * 2 ^ 32)

/-- A segment word that breaks R265. -/
def segBad (d : BitVec 32) (ls : List Lane) : Bool :=
  let (lo, hi, seg, last, link) := segOf d (some ls)
  ls.length != 3 || bits (laneN ls 0) 31 27 != 0 || decide (2 ^ 56 ≤ link) || link % 512 != 0 || decide (hi - 1 < lo) ||
    decide (cavN d ≤ hi - 1) || (seg == 0 && lo != 0) || (last && hi != cavN d)

/-- Offset of the region, and of entry `k` of the arrays X, P and S (R267). -/
def cavRegion (v : Cavity) : Nat := cavBase v.desc * 4096
def cavX (v : Cavity) (i : Nat) : Nat := cavRegion v + 256 + 128 * (i - v.lo)
def cavP (v : Cavity) (i : Nat) : Nat := cavX v i + 128 * (v.hi - v.lo)
def cavS (v : Cavity) (i : Nat) : Nat := cavX v i + 256 * (v.hi - v.lo)

/-- Bytes of the region of n contributors. -/
def regionBytes (n : Nat) : Nat := 256 + 384 * n

/-- ROUND. -/
def cavRound (s : State) (p w : Nat) (v : Cavity) : Nat := leNat (mreads s.wmem (wellAddr p w (cavRegion v)) 4)

def setRound (s : State) (p w : Nat) (v : Cavity) (n : Nat) : State :=
  wellStore s p w ((List.range 4).map (fun i => (cavRegion v + i, (leBytes 4 n).getD i 0))) false

/-- Place of the cavity with a descriptor's BASE. -/
def cavAt (x : Well) (d : BitVec 32) : Option Nat := idxOf (fun v => cavBase v.desc == cavBase d) x.cavs

/-- Change the cavity at place `k`. -/
def setCav (s : State) (p w k : Nat) (v : Cavity) : State :=
  let x := wellAt s p w
  setWell s p w { x with cavs := setAt x.cavs k v }

/-- The round of a cavity runs: every index has joined and contributed (R270). -/
def cavBusy (v : Cavity) : Bool := v.contribs.length == v.hi - v.lo

def hasContrib (v : Cavity) (i : Nat) : Bool := v.contribs.any (fun c => c.idx == i)

/-! ## Joining and leaving (R268) -/

/-- CAVJOIN, SUB 0 and 1. -/
def cavJoin (s : State) (c : Cur) (r : RecS) (w : Nat) (ls : Option (List Lane)) : State :=
  let x := wellAt s c.p w
  let i := laneN (portTok c 0).lanes 0
  let (lo, hi, seg, last, link) := segOf r.obj ls
  let k := cavAt x r.obj
  let outside : Bool := match ls with
    | some l => segBad r.obj l || decide (i < lo) || decide (hi ≤ i)
    | none => false
  if cavN r.obj ≤ i ∨ outside ∨
      bufCount x * bufBytes x < cavBase r.obj * 4096 + regionBytes (hi - lo) ∨ (k.isNone ∧ 8 ≤ x.cavs.length) then
    faultCur s c cILLEGAL 0
  else
    let ack := fun (s : State) => objEmit s c r 6 (ackVal c.tag i)
    match k with
    | none =>
      let v : Cavity := { desc := r.obj, lo := lo, hi := hi, seg := seg, last := last, link := link,
                          ctx := matchCtx s c.p c.plane c.tag, joined := [i] }
      ack (setRound (setWell s c.p w { x with cavs := x.cavs ++ [v] }) c.p w v 1)
    | some k =>
      let v := x.cavs.getD k default
      if v.desc ≠ r.obj ∨ v.lo ≠ lo ∨ v.hi ≠ hi ∨ v.seg ≠ seg ∨ v.last ≠ last ∨ v.link ≠ link ∨ v.joined.contains i then
        faultCur s c cILLEGAL 0
      else if cavBusy v then waitOn s c (.cavity c.p w)
      else ack (setCav s c.p w k { v with joined := v.joined ++ [i] })

/-- CAVJOIN, SUB 0. -/
def execCavjoinLocal (r : RecS) (s : State) : Outcome :=
  objFire s r [0] 1 (cavBad r.obj || r.sub != 0) 6 (fun s c w => cavJoin s c r w none)

/-- CAVJOIN, SUB 1. -/
def execCavjoinSegment (r : RecS) (s : State) : Outcome :=
  objFire s r [0, 1] 1 (cavBad r.obj || r.sub != 1) 6 (fun s c w => cavJoin s c r w (some (portTok c 1).lanes))

/-- CAVJOIN, SUB 2: an index whose contribution stands in the round that gathers leaves once that round has sent every
result. -/
def execCavjoinLeave (r : RecS) (s : State) : Outcome :=
  objFire s r [0] 1 (cavBad r.obj || r.sub != 2) 6 (fun s c w =>
    let x := wellAt s c.p w
    let i := laneN (portTok c 0).lanes 0
    match cavAt x r.obj with
    | none => faultCur s c cILLEGAL 0
    | some k =>
      let v := x.cavs.getD k default
      if v.desc ≠ r.obj ∨ cavN r.obj ≤ i ∨ !v.joined.contains i then faultCur s c cILLEGAL 0
      else if cavBusy v ∨ hasContrib v i then waitOn s c (.cavity c.p w)
      else
        let v' := { v with joined := v.joined.filter (fun j => j != i) }
        let s1 := if v'.joined.isEmpty then setWell s c.p w { x with cavs := dropAt x.cavs k } else setCav s c.p w k v'
        objEmit s1 c r 6 (ackVal c.tag i))

/-! ## Contributions (R269) -/

/-- Write one entry of an array: 128 bytes, an empty lane as 0. -/
def putEntry (s : State) (p w off : Nat) (x : List (Option Lane)) (poison : Bool) : State :=
  let bs := ((List.range 32).flatMap (fun l => leBytes 4 ((x.getD l none).getD 0).toNat))
  wellStore s p w ((List.range 128).map (fun i => (off + i, bs.getD i 0))) poison

/-- The lanes of a contribution; a null, a false or null predicate and a masked lane are empty. -/
def contribLanes (r : RecS) (c : Cur) (width : Nat) : List (Option Lane) :=
  let a := portTok c 0
  let off := a.null || (r.ctl.pred && (portTok c 2).null) || predFalse r.ctl c
  (List.range width).map (fun l =>
    if off || decide (a.lanes.length ≤ l) || !predAt (lanePred r.ctl c) l then none else some (a.lanes.getD l 0))

/-- CAV. -/
def execCav (r : RecS) (s : State) : Outcome :=
  let c := s.cur
  let w := r.d1.site.toNat
  let x := wellAt s c.p w
  let a := portTok c 0
  let b := portTok c 1
  let i := laneN b.lanes 0
  if !hasPorts c (portSet [0, 1] r.ctl) then .refused .noMatch
  else if objBad s c r 1 || cavBad r.obj || r.sub != 0 || r.ctl.lituse != 0 || badCtl [0, 1] r.ctl ||
      anyBlock c (portSet [0, 1] r.ctl) then .next (faultCur s c cILLEGAL 0)
  else if b.null then .next (if r.ctl.nullpass then emitNulls s c (d0Only r) (if cavOp r.obj < 4 then 10 else if cavOp r.obj < 7 then 2 else 6) else s)
  else if objForeign s c w then .next (faultCur s c cTAG 0)
  else
    match cavAt x r.obj with
    | none => .next (faultCur s c cILLEGAL 0)
    | some k =>
      let v := x.cavs.getD k default
      if v.desc ≠ r.obj ∨ !v.joined.contains i ∨ (!a.null ∧ cavW r.obj < a.lanes.length) then .next (faultCur s c cILLEGAL 0)
      else if cavBusy v ∨ hasContrib v i then .next (waitOn s c (.cavity c.p w))
      else
        let lanes := contribLanes r c (cavW r.obj)
        let poison := curPoison c && lanes.any (·.isSome)
        let y : Contrib :=
          { idx := i, lanes := lanes, poison := poison, tag := c.tag, site := c.site, plane := c.plane, node := c.node,
            dest := r.d0, emit := emits r.ctl.emit0 true, late := c.late }
        .next (putEntry (setCav s c.p w k { v with contribs := v.contribs ++ [y] }) c.p w (cavX v i) lanes poison)

/-! ## The round (R264, R270) -/

/-- One step of an operator on patterns (R264). -/
def copStep (op x y : Nat) : FR :=
  match op with
  | 0 => fadd 10 0 0 (fread 10 x) (fread 10 y)
  | 1 => fmul 10 0 0 (fread 10 x) (fread 10 y)
  | 2 => fminmax 10 true false x y
  | 3 => fminmax 10 false false x y
  | 4 => ((x + y) % 2 ^ 32, 0)
  | 5 => (if sgn 32 x < sgn 32 y then y else x, 0)
  | 6 => (if sgn 32 y < sgn 32 x then y else x, 0)
  | 7 => (Nat.land x y, 0)
  | 8 => (Nat.lor x y, 0)
  | _ => (Nat.xor x y, 0)

/-- The identity of an operator (R264). -/
def copIdentity (op : Nat) : Nat :=
  match op with
  | 1 => 0x3F800000
  | 2 => 0xFF800000
  | 3 => 0x7F800000
  | 5 => 0x80000000
  | 6 => 0x7FFFFFFF
  | 7 => 0xFFFFFFFF
  | _ => 0

/-- The lane type of an operator (R264). -/
def copTy (op : Nat) : BitVec 4 := if op < 4 then 10 else if op < 7 then 2 else 6

/-- One step on lanes that may be empty. -/
def copLane (op : Nat) (x y : Option Lane) : Option Lane × BitVec 5 :=
  match x, y with
  | none, y => (y, 0)
  | x, none => (x, 0)
  | some x, some y =>
    let r := copStep op x.toNat y.toNat
    (some (BitVec.ofNat 32 r.1), r.2)

/-- One step on every lane: the lanes and the flags. -/
def copVec (op w : Nat) (x y : List (Option Lane)) : List (Option Lane) × BitVec 5 :=
  let rs := (List.range w).map (fun l => copLane op (x.getD l none) (y.getD l none))
  (rs.map (·.1), rs.foldl (fun f r => f ||| r.2) 0)

/-- The contribution of an index as its entry of X holds it now, with its poison. -/
def xEntryOf (s : State) (p w : Nat) (v : Cavity) (i : Nat) : List (Option Lane) × Bool :=
  let e := (v.contribs.find? (fun c => c.idx == i)).map (·.lanes) |>.getD []
  let off := cavX v i
  ((List.range (cavW v.desc)).map (fun l => (e.getD l none).map (fun _ =>
      BitVec.ofNat 32 (leNat (mreads s.wmem (wellAddr p w (off + 4 * l)) 4)))),
    (List.range 4).any (fun k => tgetD s.wbad (wbadKey p w (off + 32 * k)) false))

/-- The running combinations of a list, from a carry on: each value with its poison, and all flags. -/
def chain (op w : Nat) (fwd : Bool) (x0 : List (Option Lane) × Bool) (xs : List (List (Option Lane) × Bool)) :
    List (List (Option Lane) × Bool) × BitVec 5 :=
  let st := xs.foldl (fun (st : List (List (Option Lane) × Bool) × (List (Option Lane) × Bool) × BitVec 5) x =>
    let r := if fwd then copVec op w st.2.1.1 x.1 else copVec op w x.1 st.2.1.1
    let y := (r.1, st.2.1.2 || x.2)
    (st.1 ++ [y], y, st.2.2 ||| r.2)) ([x0], x0, 0)
  (st.1, st.2.2)

/-- Indices of a segment, rising. -/
def cavIdx (v : Cavity) : List Nat := (List.range (v.hi - v.lo)).map (fun k => v.lo + k)

/-- A fault of a link access: reported with the cavity's BASE, and the cavity stalls (R266). -/
def cavStall (s : State) (p w k : Nat) (v : Cavity) (cause addr : Nat) : State :=
  setCav (post s { addr := addr, cause := cause, site := w, panel := p, ctx := v.ctx, info := cavBase v.desc }) p w k
    { v with stalled := true }

/-- Words of a carry in its link area: lanes and empty mask. -/
def carryMask (v : Cavity) (x : List (Option Lane)) : Nat :=
  (List.range (cavW v.desc)).foldl (fun m l => m + (if (x.getD l none).isNone then 2 ^ l else 0)) 0
def carryBytes (v : Cavity) (x : List (Option Lane)) : List Byte :=
  (List.range (cavW v.desc)).flatMap (fun l => leBytes 4 ((x.getD l none).getD 0).toNat)

/-- An access to a link area of another part, at its address there. -/
def carryReq (s : State) (p w : Nat) (v : Cavity) (up : Bool) (pa num : Nat) (path : List Nat) (bs : Option (List (Nat × Byte))) : Req :=
  { kind := .carry p w (cavBase v.desc) up bs, path := path ++ (portPath s (dieOf p) (bits pa 55 44)).getD [], born := s.cycle, ctx := v.ctx,
    issuer := p, addr := pa, ctag := 64, dst := num }

/-- Bytes for a sector. -/
def atBytes (off : Nat) (bs : List Byte) : List (Nat × Byte) := (List.range bs.length).map (fun i => (off + i, bs.getD i 0))

/-- The carry's lanes and mask go to another part; its flag follows once they are performed there (R266). -/
def sendCarry (s : State) (p w : Nat) (v : Cavity) (up : Bool) (pa round : Nat) (x : List (Option Lane) × Bool) : State :=
  let lanes := (sectorPieces 6 0 (carryBytes v x.1)).map (fun y => carryReq s p w v up (pa + y.1) round [] (some (atBytes 0 y.2)))
  { s with reqs := s.reqs ++ lanes ++
      [carryReq s p w v up (pa + 128) round [] (some (atBytes 4 (leBytes 4 (carryMask v x.1)))),
       carryReq s p w v up (pa + 128) round [arbFlag p w] (some (atBytes 0 (leBytes 4 round)))] }

/-- Store a carry in a link area, then its flag (R266): the forward carry, or with `up` the other. -/
def putCarry (s : State) (p w : Nat) (v : Cavity) (area : Nat) (up : Bool) (round : Nat) (x : List (Option Lane) × Bool) :
    State × Option Nat :=
  let at_ := v.link + 512 * area + (if up then 256 else 0)
  match xlateNow s v.ctx p 240 1 at_ .write with
  | (s, .bad c) => (s, some c)
  | (s, .ok pa _) =>
    if !ownDev s pa then (sendCarry s p w v up pa round x, none)
    else
      match vwrite s v.ctx p at_ (carryBytes v x.1) x.2 with
      | (s, some c) => (s, some c)
      | (s, none) =>
        match vwrite s v.ctx p (at_ + 132) (leBytes 4 (carryMask v x.1)) false with
        | (s, some c) => (s, some c)
        | (s, none) => vwrite s v.ctx p (at_ + 128) (leBytes 4 round) false

/-- The empty carry of the first or last segment. -/
def noCarry (v : Cavity) : List (Option Lane) × Bool := (List.replicate (cavW v.desc) none, false)

/-- The forward chain of a round: the array P, and the carry into the next segment. -/
def fwdHalf (s : State) (p w k : Nat) (v : Cavity) (pc : List (Option Lane) × Bool) : State :=
  let r := chain (cavOp v.desc) (cavW v.desc) true pc ((cavIdx v).map (xEntryOf s p w v))
  let round := cavRound s p w v
  let s1 := (cavIdx v).foldl (fun s i => let e := r.1.getD (i - v.lo) default; putEntry s p w (cavP v i) e.1 e.2) s
  let v' := { v with half := true, pflags := r.2, pc := some pc }
  if v.last then setCav s1 p w k v'
  else
    match putCarry s1 p w v (v.seg + 1) false round (r.1.getD (v.hi - v.lo) default) with
    | (s, none) => setCav s p w k v'
    | (s, some c) => cavStall s p w k v c (v.link + 512 * (v.seg + 1))

/-- One result leaves for its CAV's destination, with the flags of its colour (R270). -/
def cavResult (s : State) (p : Nat) (v : Cavity) (y : Contrib) (lanes : List Lane) (poison : Bool) (f : BitVec 5) : State :=
  let c : Cur := { p := p, site := y.site, plane := y.plane, node := y.node, tag := y.tag, late := y.late }
  let x : Send := { dest := y.dest, tag := y.tag, ty := copTy (cavOp v.desc), poison := poison, lanes := lanes }
  let s1 := if y.poison then s else orFlags s (partOf s (matchCtx s p y.plane y.tag)) (colourOf y.tag) f
  if !y.emit then s1 else if tooWide s c x then faultCur s c cILLEGAL 0 else send s1 c x

/-- The backward chain of a round: the array S, the carry into the segment below, and the results, highest index first;
then the next round (R270). -/
def bwdHalf (s : State) (p w k : Nat) (v : Cavity) (sc : List (Option Lane) × Bool) : State :=
  let op := cavOp v.desc
  let wd := cavW v.desc
  let n := v.hi - v.lo
  let xs := (cavIdx v).map (xEntryOf s p w v)
  let down := ((List.range (n - 1)).map (fun j => xs.getD (n - 1 - j) default))
  let r := chain op wd false sc down
  let sAt := fun i => r.1.getD (v.hi - 1 - i) default
  let fw := (chain op wd true (v.pc.getD (noCarry v)) xs).1
  let pRead := fun (s : State) (i : Nat) => (List.range wd).map (fun l =>
    ((fw.getD (i - v.lo) default).1.getD l none).map (fun _ =>
      BitVec.ofNat 32 (leNat (mreads s.wmem (wellAddr p w (cavP v i + 4 * l)) 4))))
  let carry := v.seg != 0
  let out := copVec op wd (xs.getD 0 default).1 (sAt v.lo).1
  let flags := v.pflags ||| r.2 ||| (if carry then out.2 else 0)
  let round := cavRound s p w v
  let s1 := (cavIdx v).foldl (fun s i => putEntry s p w (cavS v i) (sAt i).1 (sAt i).2) s
  let sent : State × Option Nat := if carry then putCarry s1 p w v (v.seg - 1) true round (out.1, (sAt v.lo).2 || (xs.getD 0 default).2)
    else (s1, none)
  match sent with
  | (s, some c) => cavStall s p w k v c (v.link + 512 * (v.seg - 1) + 256)
  | (s, none) =>
    let pPoison := (v.pc.getD (noCarry v)).2
    let s2 := (cavIdx v).reverse.foldl (fun s i =>
      match v.contribs.find? (fun c => c.idx == i) with
      | none => s
      | some y =>
        let res := copVec op wd (pRead s i) (sAt i).1
        let lanes := res.1.map (fun l => l.getD (BitVec.ofNat 32 (copIdentity op)))
        let poison := pPoison || sc.2 || (cavIdx v).any (fun j => j != i && (xs.getD (j - v.lo) default).2)
        cavResult s p v y lanes poison (flags ||| res.2)) s
    let v' := { v with contribs := [], pc := none, sc := none, half := false, pflags := 0, poll := 0 }
    wakePanel (setRound (setCav s2 p w k v') p w v ((round + 1) % 2 ^ 32)) p (fun o => o == .cavity p w)

/-- CAVITY_ROUND (R270): cavity `k` of a home well runs the half of its round that can run: the forward chain once its
carry is there, then the backward chain. -/
def execCavityRound (s : State) : Outcome :=
  let p := s.sel.p
  let w := s.sel.site
  let k := s.sel.k
  match (wellAt s p w).cavs[k]? with
  | none => notNow
  | some v =>
    if !cavBusy v ∨ v.stalled then notNow
    else if !v.half then
      (match (if v.seg = 0 then some (noCarry v) else v.pc) with
       | some pc => .next (fwdHalf s p w k v pc)
       | none => notNow)
    else
      match (if v.last then some (noCarry v) else v.sc) with
      | some sc => .next (bwdHalf s p w k v sc)
      | none => notNow

/-- The carry that 136 bytes of a link area hold. -/
def carryOf (v : Cavity) (bs : List Byte) (bad : Bool) : List (Option Lane) × Bool :=
  let mask := leNat ((bs.drop 132).take 4)
  ((List.range (cavW v.desc)).map (fun l => if bit mask l then none else some (BitVec.ofNat 32 (leNat ((bs.drop (4 * l)).take 4)))), bad)

/-- Read a carry of this segment's link area in this part: `none` while its flag differs from ROUND (R266). -/
def readCarry (s : State) (p w : Nat) (v : Cavity) (at_ : Nat) : State × Except Nat (Option (List (Option Lane) × Bool)) :=
  match vread s v.ctx p (at_ + 128) 4 with
  | (s, .error c) => (s, .error c)
  | (s, .ok (fb, _)) =>
    if leNat fb ≠ cavRound s p w v then (s, .ok none)
    else
      match vread s v.ctx p at_ 136 with
      | (s, .error c) => (s, .error c)
      | (s, .ok (bs, bad)) => (s, .ok (some (carryOf v bs bad)))

/-- A read of a link area of another part is on its way. -/
def carryAsked (s : State) (p w : Nat) (v : Cavity) (up : Bool) : Bool :=
  (allReqs s).any (fun r => match r.kind with
    | .carry p' w' base up' none => p' == p && w' == w && base == cavBase v.desc && up' == up
    | _ => false)

/-- Ask another part for sectors of a link area. -/
def askCarry (s : State) (p w : Nat) (v : Cavity) (up : Bool) (pa : Nat) (secs : List Nat) : State :=
  { s with reqs := s.reqs ++ secs.map (fun k => carryReq s p w v up (pa + 32 * k) k [] none) }

/-- A sector of the link area that has come. -/
def cameIn (v : Cavity) (up : Bool) (k : Nat) : Option (List Byte × Bool) :=
  (v.inbox.find? (fun x => x.1 == up && x.2.1 == k)).map (·.2.2)

/-- The carry has come. -/
def takeCarry (v : Cavity) (up : Bool) (x : List (Option Lane) × Bool) : Cavity :=
  let v := { v with poll := 0, inbox := [] }
  if up then { v with sc := some x } else { v with pc := some x }

/-- A poll of a link area of another part (R266): the sector of the flag every 64 cycles, and once it holds ROUND the sectors of the
lanes; `none` while an answer is awaited. -/
def pollRemote (s : State) (p w k : Nat) (v : Cavity) (up : Bool) (pa : Nat) : Option State :=
  let n := (cavW v.desc + 7) / 8
  if carryAsked s p w v up then none
  else match cameIn v up 4 with
    | none =>
      if s.cycle < v.poll then none else some (askCarry (setCav s p w k { v with poll := s.cycle + 64, inbox := [] }) p w v up pa [4])
    | some (fb, bad) =>
      if leNat (fb.take 4) ≠ cavRound s p w v then some (setCav s p w k { v with inbox := [] })
      else match (List.range n).filter (fun i => (cameIn v up i).isNone) with
        | [] =>
          let xs := (List.range n).map (fun i => (cameIn v up i).getD ([], false))
          let bs := xs.flatMap (·.1)
          some (setCav s p w k (takeCarry v up (carryOf v (bs ++ List.replicate (128 - bs.length) 0 ++ fb) (bad || xs.any (·.2)))))
        | secs => some (askCarry s p w v up pa secs)

/-- CAVITY_CARRY_POLL (R266): a home well whose round waits for a carry reads the flag, every 64 cycles. -/
def execCavityCarryPoll (s : State) : Outcome :=
  let p := s.sel.p
  let w := s.sel.site
  let k := s.sel.k
  match (wellAt s p w).cavs[k]? with
  | none => notNow
  | some v =>
    let up := v.half
    let at_ := v.link + 512 * v.seg + (if up then 256 else 0)
    if !cavBusy v ∨ v.stalled ∨ (if up then v.last || v.sc.isSome else v.seg == 0 || v.pc.isSome) then notNow
    else match xlateNow s v.ctx p 240 1 at_ .read with
      | (s1, .bad c) => if s.cycle < v.poll then notNow else .next (cavStall s1 p w k v c at_)
      | (s1, .ok pa _) =>
        if !ownDev s1 pa then
          (match pollRemote s1 p w k v up pa with
           | some s2 => .next s2
           | none => notNow)
        else if s.cycle < v.poll then notNow
        else
          match readCarry s1 p w v at_ with
          | (s2, .error c) => .next (cavStall s2 p w k v c at_)
          | (s2, .ok none) => .next (setCav s2 p w k { v with poll := s.cycle + 64 })
          | (s2, .ok (some x)) => .next (setCav s2 p w k (takeCarry v up x))

/-! ## Pace sets (R271 to R276) -/

def paceNM1 (d : BitVec 32) : Nat := bits d.toNat 31 22
def pacePmax (d : Nat) : Nat := bits d 21 19
def paceLox (d : Nat) : Nat := bits d 17 10
def paceHix (d : Nat) : Nat := bits d 9 2
def paceBad (d : BitVec 32) : Bool := bits d.toNat 1 0 != 0

/-- Offset of a member. -/
def paceOff (m : Nat) : Nat := 64 + 32 * m

/-- A member (R272). -/
structure Member where
  value : Nat := 0
  delta : Nat := 0
  span : Nat := 0
  slast : Nat := 0
  pexp : Nat := 0
  stag : Nat := 0
  pend : Bool := false
deriving DecidableEq, Repr, Inhabited

def memberAt (s : State) (p w m : Nat) : Member :=
  let o := paceOff m
  let x := paceWord s p w (o + 16)
  { value := paceWord s p w o, delta := paceWord s p w (o + 4), span := paceWord s p w (o + 8), slast := paceWord s p w (o + 12),
    pexp := bits x 2 0, stag := bits x 9 3, pend := bit x 10 }

/-- The sector of a member. -/
def memberBytes (x : Member) : List Byte :=
  leBytes 4 x.value ++ leBytes 4 x.delta ++ leBytes 4 x.span ++ leBytes 4 x.slast ++
    leBytes 4 (x.pexp % 8 + put (x.stag % 128) 3 + put (b2n x.pend) 10) ++ List.replicate 12 0

def setMember (s : State) (p w m : Nat) (x : Member) (poison : Bool) : State :=
  let bs := memberBytes x
  wellStore s p w ((List.range 32).map (fun i => (paceOff m + i, bs.getD i 0))) poison

/-- A member's sector, or the header's, is marked. -/
def memberBad (s : State) (p w m : Nat) : Bool := tgetD s.wbad (wbadKey p w (paceOff m)) false

/-- SIDX and DESC. -/
def paceSidx (s : State) (p w : Nat) : Nat := paceWord s p w 0
def paceDesc (s : State) (p w : Nat) : Nat := paceWord s p w 4

/-- The header's first two words. -/
def setHeader (s : State) (p w sidx desc : Nat) : State :=
  let bs := leBytes 4 sidx ++ leBytes 4 desc
  wellStore s p w ((List.range 8).map (fun i => (i, bs.getD i 0))) false

/-- PACESET, SUB 0 (R273). -/
def execPacesetInit (r : RecS) (s : State) : Outcome :=
  objFire s r [0] 4 (paceBad r.obj || r.sub != 0) 6 (fun s c w =>
    if bits (wellAt s c.p w).cfg.toNat 63 54 ≠ paceNM1 r.obj then faultCur s c cILLEGAL 0
    else
      let hd := leBytes 4 0 ++ leBytes 4 r.obj.toNat
      let s1 := wellStore s c.p w ((List.range 64).map (fun i => (i, hd.getD i 0))) false
      let s2 := iter s1 (paceNM1 r.obj + 1) (fun s m => setMember s c.p w m { stag := m % 2 ^ pacePmax r.obj.toNat } false)
      objEmit (wakePanel s2 c.p (fun o => o == .pace c.p w)) c r 6 (ackVal c.tag 0))

/-- DESC differs from OBJ, or the member does not exist (R273). -/
def paceWrong (s : State) (c : Cur) (r : RecS) (w m : Nat) : Bool :=
  paceDesc s c.p w != r.obj.toNat || decide (paceNM1 r.obj < m)

/-- PACESET, SUB 1 (R273): a pending member is loaded once its update is applied. -/
def execPacesetLoad (r : RecS) (s : State) : Outcome :=
  objFire s r [0] 4 (paceBad r.obj || r.sub != 1) 6 (fun s c w =>
    let m := laneN (portTok c 0).lanes 0
    let x := memberAt s c.p w m
    if paceWrong s c r w m then faultCur s c cILLEGAL 0
    else if x.pend then waitOn s c (.pace c.p w)
    else
      objEmit (setMember s c.p w m
        { x with value := laneN (portTok c 0).lanes 1, delta := 0, span := 0, slast := paceSidx s c.p w, pexp := 0, pend := false }
        (portTok c 0).poison) c r 6 (ackVal c.tag 0))

/-- The bound 2^(x − 127) of a descriptor field as an f32 pattern: at 0 it is the subnormal 2^-127 (R271). -/
def paceBound (x : Nat) : Nat := if x = 0 then 0x00400000 else put x 23

/-- The exponent after a change d (R275). -/
def pexpNext (desc d pexp : Nat) : Nat :=
  let mag := fread 10 (d % 2 ^ 31)
  let below := paceLox desc != 0 && fRel 2 (fcmp mag (fread 10 (paceBound (paceLox desc))))
  let above := paceHix desc != 255 && fRel 2 (fcmp (fread 10 (paceBound (paceHix desc))) mag)
  if isNanV mag then pexp
  else if below ∧ pexp < pacePmax desc then pexp + 1
  else if above ∧ 0 < pexp then pexp - 1
  else pexp

/-- PACESET, SUB 2 (R275). -/
def execPacesetUpdate (r : RecS) (s : State) : Outcome :=
  objFire s r [0] 4 (paceBad r.obj || r.sub != 2) 6 (fun s c w =>
    let m := laneN (portTok c 0).lanes 0
    let x := memberAt s c.p w m
    if paceWrong s c r w m ∨ !x.pend then faultCur s c cILLEGAL 0
    else
      let new := laneN (portTok c 0).lanes 1
      let d := fadd 10 0 0 (fread 10 new) (fneg (fread 10 x.value))
      let sidx := paceSidx s c.p w
      let x' : Member := { x with value := new, delta := d.1, span := (sidx + 2 ^ 32 - x.slast) % 2 ^ 32, slast := sidx, pend := false,
                                  pexp := pexpNext (paceDesc s c.p w) d.1 x.pexp }
      let bad := (portTok c 0).poison || memberBad s c.p w m
      let s1 := setMember s c.p w m x' bad
      let s2 := wakePanel (if bad then s1 else curFlags s1 c d.2) c.p (fun o => o == .pace c.p w)
      objEmit s2 c r 6 (ackVal c.tag 0))

/-- A member is due at sweep `t` (R274). -/
def paceDue (x : Member) (t : Nat) : Bool := (t + 2 ^ 32 - x.stag) % 2 ^ x.pexp == 0

/-- SWEEP (R274): its visits are a generator's tokens. -/
def execSweep (r : RecS) (s : State) : Outcome :=
  objFire s r [0] 4 (paceBad r.obj || decide (8 ≤ r.sub.toNat)) 6 (fun s c w =>
    let lay := layoutOf s c.p c.plane
    let j := r.sub.toNat % 8
    let n := paceNM1 r.obj + 1
    let ms := (List.range n).map (fun m => (m, memberAt s c.p w m))
    if lay.length ≤ j then faultCur s c cILLEGAL 0
    else if ms.any (fun x => x.2.pend) then waitOn s c (.pace c.p w)
    else if 2 ^ levelWidth lay j < n then faultCur s c cILLEGAL 0
    else
      let t := (paceSidx s c.p w + 1) % 2 ^ 32
      let s1 := setHeader s c.p w t (paceDesc s c.p w)
      let due := ms.filter (fun x => paceDue x.2 t)
      let visits := due.map (fun x => (x.1, BitVec.ofNat 32 x.2.value, memberBad s c.p w x.1))
      let s2 := due.foldl (fun s (x : Nat × Member) => setMember s c.p w x.1 { x.2 with pend := true } (memberBad s c.p w x.1)) s1
      if due.isEmpty then
        objEmit s2 c r 6 { tag := setfld lay c.tag j 0, ty := 6, lanes := [0, 0], null := true, eor := true }
      else startGen s2 c (d0Only r) j (.sweep visits) (portTok c 0))

/-- The first sweep after `s` at which a member is due. -/
def paceNext (x : Member) (t : Nat) : Nat :=
  ((List.range (2 ^ x.pexp)).map (fun i => (t + 1 + i) % 2 ^ 32)).find? (paceDue x) |>.getD t

/-- PACEQ (R276). -/
def execPaceq (r : RecS) (s : State) : Outcome :=
  objFire s r [0] 4 (paceBad r.obj || r.sub != 0) 6 (fun s c w =>
    let m := laneN (portTok c 0).lanes 0
    let x := memberAt s c.p w m
    if paceNM1 r.obj < m then faultCur s c cILLEGAL 0
    else
      let bad := memberBad s c.p w m || tgetD s.wbad (wbadKey c.p w 0) false
      let c' := { c with ops := c.ops.map (fun y => (y.1, { y.2 with poison := y.2.poison || bad })) }
      objEmit s c' r 6
        { tag := c.tag, ty := 6, lanes := [BitVec.ofNat 32 x.pexp, BitVec.ofNat 32 (paceNext x (paceSidx s c.p w))] })

end Sys2Proof.Machine
end

