-- ==== Sys2Proof/Machine/Rules.lean ====
section
/-!
DEFINITION. Rule tables and collectives (19 R382 to R389): RULESET, RULEARM, COLL, arrivals, emissions, drain fences and
edge-unit credits; and the firing of the format S records that act at the commit of their block.
-/
namespace Sys2Proof.Machine

/-! ## Records that act at commit (13 R299) -/

/-- The firing of a format S record that stands only at the scribe and acts at its block's commit. `chk` gives the
cause of a fault found when it fires, and `pz` says that a poisoned operand faults (20 R401). -/
def sActP (pz : Bool) (s : State) (r : RecS) (i : Instr) (base : List Nat) (bad : Bool) (ty : BitVec 4)
    (chk : State → Cur → Option Nat) (act : State → Cur → State) : Outcome :=
  if s.cur.site ≠ 240 then .refused .noMatch
  else sFire s r base bad pz ty (fun s c =>
    match chk s c with
    | some k => faultCur s c k 0
    | none => if inBlock s ∧ !c.late then holdEff s i else act s { c with late := true })

/-- Such a record of files 13 to 19: a poisoned operand faults. -/
def sAct (s : State) (r : RecS) (i : Instr) (base : List Nat) (bad : Bool) (ty : BitVec 4) (chk : State → Cur → Option Nat)
    (act : State → Cur → State) : Outcome := sActP true s r i base bad ty chk act

/-- The value of a record to d0 only, and to d1 only. -/
def emit0 (s : State) (c : Cur) (r : RecS) (v : Val) : State := emitRes s c (formS r) v.ty { v0 := some v }
def emit1 (s : State) (c : Cur) (r : RecS) (v : Val) : State := emitRes s c (formS r) v.ty { v1 := some v }

/-- No check beyond the fields. -/
def noChk (_ : State) (_ : Cur) : Option Nat := none

/-! ## Entries (R382, R383) -/

def entryEtag (e : BitVec 256) : Word64 := e.extractLsb' 192 64
def entryTmask (e : BitVec 256) : Word64 := e.extractLsb' 128 64
def entryTval (e : BitVec 256) : Word64 := e.extractLsb' 64 64
def entryOpcode (e : BitVec 256) : Nat := bits e.toNat 55 48
def entryCount (e : BitVec 256) : Nat := bits e.toNat 47 32
def entryIdx (e : BitVec 256) : Nat := bits e.toNat 23 16
def entryTable (e : BitVec 256) : Nat := bits e.toNat 15 0

/-- The operator of a rule as one of R264's. -/
def ruleCop (op : Nat) : Option Nat :=
  match op with
  | 0x40 => some 0
  | 0x42 => some 1
  | 0x45 => some 2
  | 0x44 => some 3
  | 0x01 => some 4
  | 0x09 => some 5
  | 0x08 => some 6
  | 0x0C => some 7
  | 0x0D => some 8
  | 0x0E => some 9
  | _ => none

/-- An entry that RULESET rejects. -/
def entryBad (e : BitVec 256) : Bool :=
  (ruleCop (entryOpcode e)).isNone || entryCount e == 0 || bits e.toNat 63 56 != 0 || bits e.toNat 31 24 != 0 ||
    decide (31 < entryIdx e) || decide (7 < entryTable e)

/-- Eight lanes as an entry (00 R2). -/
def entryOf (ls : List Lane) : BitVec 256 :=
  BitVec.ofNat 256 ((List.range 8).foldl (fun n i => n + put (laneN ls i) (32 * i)) 0)

/-- Used entries of a table, lowest IDX first. -/
def usedEntries (t : RuleTable) : List (Nat × BitVec 256) := t.entries.filter (fun x => entryCount x.2 != 0)

/-- The bits of a tag where the mask is 0, packed from bit 0 upward (R384). -/
def freeBits (tag mask : Word64) : Nat :=
  ((List.range 64).foldl (fun (st : Nat × Nat) i =>
    if mask.getLsbD i then st else (st.1 + (if tag.getLsbD i then 2 ^ st.2 else 0), st.2 + 1)) (0, 0)).1

/-! ## Arrivals (R384, R385) -/

/-- The sender of an arrival learns its fate: DONE when it was taken, BUSY clear (R389). -/
def arrivalFate (s : State) (a : Arrival) (taken : Bool) : State :=
  if a.told then s
  else match a.origin with
    | some dev =>
      match routeOf s dev with
      | none => s
      | some l =>
        let x := linkAt s l
        setLink s l { x with txq := x.txq ++
          [{ inc := x.inc, crcOk := true, dev := BitVec.ofNat 12 dev, src := s.owndev, body := .accepted a.coll taken }] }
    | none =>
      match xferOf s a.coll with
      | some x => tagDone { s with xfers := s.xfers.filter (fun y => y.id != x.id) } x.p x.r.ctag.toNat taken
      | none => s

/-- An arrival that breaks R384: discarded with RULE_MISS. -/
def ruleMiss (s : State) (a : Arrival) : State :=
  let plane := (panelAt s a.p).inj.getD 0
  arrivalFate (postAt s a.p { tag := a.tag, cause := cRULEMISS, site := 240, panel := a.p, plane := plane,
                              ctx := matchCtx s a.p plane a.tag, info := put a.table 16 + a.round, outer := true }) a false

/-- An arrival of a retired round: discarded, counted on the link that it came from (R384). -/
def ruleStale (s : State) (a : Arrival) : State :=
  let s := match a.link with
    | some l => let x := linkAt s l; setLink s l { x with stale := min (x.stale + 1) (2 ^ 32 - 1) }
    | none => s
  arrivalFate s a false

/-- Apply one arrival to an entry's combination. -/
def ruleApply (cop : Nat) (a : RuleAcc) (lanes : List Lane) (poison : Bool) : RuleAcc :=
  if a.next = 0 then { a with acc := lanes, next := 1, poison := a.poison || poison }
  else
    let rs := (List.range a.acc.length).map (fun l => copStep cop (laneN a.acc l) (laneN lanes l))
    { a with acc := rs.map (fun r => BitVec.ofNat 32 r.1), next := a.next + 1, poison := a.poison || poison,
             flags := rs.foldl (fun f r => f ||| r.2) a.flags }

/-- Apply every staged arrival that is next. -/
def ruleRun (cop : Nat) : Nat → RuleAcc → RuleAcc
  | 0, a => a
  | n + 1, a =>
    match a.staged.find? (fun x => x.1 == a.next) with
    | some x => ruleRun cop n (ruleApply cop { a with staged := a.staged.filter (fun y => y.1 != x.1) } x.2.1 x.2.2)
    | none => a

/-- An arrival of the armed round at its table; `none` while it waits for a staging place. -/
def ruleTake (s : State) (a : Arrival) : Option State :=
  let t := tableAt s a.p a.table
  match (usedEntries t).find? (fun x => a.tag &&& entryTmask x.2 == entryTval x.2 &&& entryTmask x.2) with
  | none => some (ruleMiss s a)
  | some (idx, e) =>
    let i := freeBits a.tag (entryTmask e)
    let x := tgetD t.accs idx {}
    let cop := (ruleCop (entryOpcode e)).getD 0
    if entryCount e ≤ i ∨ i < x.next ∨ x.staged.any (fun y => y.1 == i) ∨ (x.width ≠ 0 ∧ x.width ≠ a.lanes.length) ∨ a.ty ≠ copTy cop then
      some (ruleMiss s a)
    else if x.next < i ∧ 64 ≤ engineStaged s a.p then none
    else
      let x1 := { x with width := a.lanes.length, staged := x.staged ++ [(i, a.lanes, a.poison)] }
      let x2 := ruleRun cop x1.staged.length x1
      some (arrivalFate (setTable s a.p a.table { t with accs := tput t.accs idx x2 }) a true)

/-- An arrival held in the engine's hold area; `none` when its 64 places are full. -/
def ruleHold (s : State) (a : Arrival) : Option State :=
  let e := engineAt s a.p
  if e.hold.length < 64 then some (arrivalFate (setEngine s a.p { e with hold := e.hold ++ [{ a with told := true }] }) a true)
  else none

/-- What an arrival meets (R384). With no armed round, which the next RULEARM may name freely (R387), it is held. -/
def ruleMeet (s : State) (a : Arrival) : Option State :=
  let t := tableAt s a.p a.table
  match t.armed with
  | none => ruleHold s a
  | some r =>
    if t.inRound ∧ a.round = r then ruleTake s a
    else
      let d := (a.round + 65536 - r) % 65536
      if 1 ≤ d ∧ d ≤ 32767 then ruleHold s a else some (ruleStale s a)

/-- Arrivals enter a table in the order of the link that brought them, and those that were held first. -/
def arrivalBehind (a : Arrival) (earlier : List Arrival) : Bool :=
  earlier.any (fun b => b.p == a.p && b.table == a.table && (b.told || (a.link.isSome && a.link == b.link)))

/-- RULE_ARRIVAL (R384): arrival `k` reaches its table. -/
def execRuleArrival (s : State) : Outcome :=
  match s.arrivals[s.sel.k]? with
  | none => notNow
  | some a =>
    if arrivalBehind a (s.arrivals.take s.sel.k) then notNow
    else match ruleMeet { s with arrivals := dropAt s.arrivals s.sel.k } a with
      | some s' => .next s'
      | none => notNow

/-! ## Arming (R387, R390) -/

/-- A table can be armed for a round now. -/
def armOk (t : RuleTable) (r : Nat) : Bool :=
  match t.armed with
  | none => true
  | some a =>
    let d := (r + 65536 - a) % 65536
    decide (1 ≤ d) && decide (d ≤ 32767) && !t.inRound && !(t.fences.any (fun f => f.round == (r + 32768) % 65536))

/-- Links that are UP and carry a fence flit: the domain ports; the die links deliver requests in order. -/
def fenceLinks (s : State) : List Nat := (List.range 24).map (· + 3) |>.filter (fun l => (linkAt s l).state == 2)

/-- The round of a table is complete: its drain fence starts (R386). -/
def roundDone (s : State) (p t : Nat) : State :=
  let x := tableAt s p t
  let id := s.fresh
  let s := { s with fresh := id + 1 }
  let s := (fenceLinks s).foldl (fun s l =>
    let k := linkAt s l
    setLink s l { k with txq := k.txq ++ [{ inc := k.inc, crcOk := true, dev := 0, src := s.owndev, body := .fence id }] }) s
  let fs := match x.arming with
    | some (c, r) => [({ round := x.armed.getD 0, id := id, since := s.cycle, cur := c, r := r } : Fence)]
    | none => []
  setTable s p t { x with inRound := false, arming := none, accs := [], fences := x.fences ++ fs }

/-- Fields of RULEARM's operand: round, SLOTS, edge unit, destination. -/
def armRound (ls : List Lane) : Nat := bits (laneN ls 0) 15 0
def armSlots (ls : List Lane) : Nat := bits (laneN ls 0) 23 16
def armEdge (ls : List Lane) : Nat := bits (laneN ls 0) 25 24
def armBad (ls : List Lane) : Bool :=
  bits (laneN ls 0) 31 26 != 0 || bits (laneN ls 1) 31 16 != 0 || armSlots ls == 0 || decide (239 < bits (laneN ls 1) 15 8)

/-- Arm a table: the held arrivals of the round enter (R384), credits are SLOTS (R388), and d0 is acknowledged. -/
def armNow (s : State) (c : Cur) (r : RecS) : State :=
  let p := c.p
  let t := r.obj.toNat % 8
  let ls := (portTok c 0).lanes
  let x := tableAt s p t
  let x' := { x with
    armed := some (armRound ls), inRound := true, slots := armSlots ls, credits := armSlots ls, edge := armEdge ls
    dest := BitVec.ofNat 16 ((shiftDest s c (bits (laneN ls 1) 15 0)).getD 0xFF00), plane := (panelAt s p).inj.getD 4, accs := [], arming := some (c, r) }
  let e := engineAt s p
  let mine := fun (a : Arrival) => a.table == t && a.round == armRound ls
  let s := setEngine s p { e with hold := e.hold.filter (fun a => !mine a) }
  let s := setTable { s with arrivals := e.hold.filter mine ++ s.arrivals } p t x'
  let s := emit0 s c r (ackVal c.tag 0)
  if (usedEntries x).isEmpty then roundDone s p t else s

/-- Write an entry (R390): the armed round is cleared (R387). -/
def ruleWrite (s : State) (c : Cur) (r : RecS) : State :=
  let t := r.obj.toNat % 8
  let e := entryOf (portTok c 0).lanes
  let x := tableAt s c.p t
  emit0 (setTable s c.p t { x with entries := tput x.entries (entryIdx e) e, armed := none, accs := [] }) c r
    (ackVal c.tag (entryIdx e))

/-- A RULESET or RULEARM that waits on its table, tried once: `none` when it waits on. -/
def ruleTry (s : State) (x : HeldEff) : Option State :=
  match x.i with
  | .rulesetWrite r => if (tableAt s x.cur.p (r.obj.toNat % 8)).inRound then none else some (ruleWrite s x.cur r)
  | .rulearmArm r =>
    if armOk (tableAt s x.cur.p (r.obj.toNat % 8)) (armRound (portTok x.cur 0).lanes) then some (armNow s x.cur r) else none
  | _ => some s

/-- Those that wait on a table are tried in order, up to the first that waits on. -/
def ruleSettle (p t : Nat) : Nat → State → State
  | 0, s => s
  | n + 1, s =>
    match (tableAt s p t).waiters with
    | [] => s
    | x :: rest =>
      match ruleTry (setTable s p t { tableAt s p t with waiters := rest }) x with
      | some s' => ruleSettle p t n s'
      | none => s

/-- A RULESET or RULEARM that may have to wait joins its table's queue. -/
def ruleQueue (s : State) (c : Cur) (r : RecS) (i : Instr) : State :=
  let t := r.obj.toNat % 8
  let x := tableAt s c.p t
  ruleSettle c.p t (x.waiters.length + 1) (setTable s c.p t { x with waiters := x.waiters ++ [{ i := i, cur := c }] })

/-- OBJ names a table; CF is 0. -/
def badTable (r : RecS) (sub : BitVec 8) : Bool := r.obj.toNat / 8 != 0 || r.cf != 0 || r.sub != sub

/-- Discard what the table holds and has staged. -/
def ruleDiscard (s : State) (p t : Nat) (held : Bool) : State :=
  let e := engineAt s p
  let s := if held then setEngine s p { e with hold := e.hold.filter (fun a => a.table != t) } else s
  setTable s p t { tableAt s p t with accs := [], inRound := false, arming := none }

/-- RULESET, SUB 0 (R390). -/
def execRulesetWrite (r : RecS) (s : State) : Outcome :=
  sAct s r (.rulesetWrite r) [0] (badTable r 0) 6
    (fun _ c =>
      let e := entryOf (portTok c 0).lanes
      if entryBad e ∨ entryTable e ≠ r.obj.toNat % 8 then some cILLEGAL else none)
    (fun s c => ruleQueue s c r (.rulesetWrite r))

/-- RULESET, SUB 1: every entry is 0, what is held and staged is discarded, and the armed round is cleared. -/
def execRulesetClear (r : RecS) (s : State) : Outcome :=
  sAct s r (.rulesetClear r) [0] (badTable r 1) 6 noChk (fun s c =>
    let t := r.obj.toNat % 8
    let s1 := ruleDiscard s c.p t true
    let x := tableAt s1 c.p t
    ruleSettle c.p t x.waiters.length
      (emit0 (setTable s1 c.p t { x with entries := [], armed := none }) c r (ackVal c.tag 0)))

/-- RULEARM, SUB 0 (R387, R390). -/
def execRulearmArm (r : RecS) (s : State) : Outcome :=
  sAct s r (.rulearmArm r) [0] (badTable r 0) 6
    (fun s c => if armBad (portTok c 0).lanes || (shiftDest s c (bits (laneN (portTok c 0).lanes 1) 15 0)).isNone
      then some cILLEGAL else none)
    (fun s c => ruleQueue s c r (.rulearmArm r))

/-- RULEARM, SUB 1: the round ends. -/
def execRulearmDisarm (r : RecS) (s : State) : Outcome :=
  sAct s r (.rulearmDisarm r) [0] (badTable r 1) 6 noChk (fun s c =>
    let t := r.obj.toNat % 8
    let s1 := ruleDiscard s c.p t false
    ruleSettle c.p t (tableAt s1 c.p t).waiters.length (emit0 s1 c r (ackVal c.tag 0)))

/-! ## Emission (R386) -/

/-- The lowest used entry not yet emitted. -/
def nextEntry (t : RuleTable) : Option (Nat × BitVec 256) := (usedEntries t).find? (fun x => !(tgetD t.accs x.1 {}).emitted)

/-- RULE_EMIT (R386): table `num` of panel `p` emits its next ready entry under a credit. -/
def execRuleEmit (s : State) : Outcome :=
  let p := s.sel.p
  let n := s.sel.num
  let t := tableAt s p n
  let edge := 241 + t.edge
  if !t.inRound then notNow
  else
    match nextEntry t with
    | none => notNow
    | some (idx, e) =>
      let a := tgetD t.accs idx {}
      if a.next ≠ entryCount e ∨ t.credits = 0 ∨ 8 ≤ queueLen s p edge ∨ gatedCtx s p edge (planeOf s p t.plane).ctx then notNow
      else
        let etag := entryEtag e
        let d := destOfBits t.dest
        let tok : Token := { tag := etag, site := d.site, node := d.node, port := d.port, plane := BitVec.ofNat 2 t.plane,
                             ty := copTy ((ruleCop (entryOpcode e)).getD 0), poison := a.poison, lanes := a.acc }
        let s1 := setTable s p n { t with credits := t.credits - 1, accs := tput t.accs idx { a with emitted := true } }
        let s2 := if a.poison then s1
          else orFlags s1 (partOf s1 (matchCtx s1 p (t.plane % 4) etag)) (colourOf etag) a.flags
        let s3 := if t.plane < 4 then sendTok s2 p edge tok
          else postTok s2 p edge cILLEGAL tok
        let done := (nextEntry (tableAt s3 p n)).isNone
        .next (if done then ruleSettle p n (tableAt s3 p n).waiters.length (roundDone s3 p n) else s3)

/-- A fence is complete: no link holds what was queued ahead of its flit, and no request that crosses a die link is as old
(R386). -/
def fenceDone (s : State) (f : Fence) : Bool :=
  s.links.all (fun l => !(l.2.txq.any (fun x => match x.body with | .fence id => id == f.id | _ => false))) &&
    s.reqs.all (fun r => !(decide (r.born ≤ f.since) && (match r.path with | a :: _ => a / 65536 == 4 | [] => false)))

/-- DRAIN_FENCE_COMPLETE (R386): the oldest complete fence of table `num` of panel `p` ends; d1 of its RULEARM takes the
round number. -/
def execDrainFenceComplete (s : State) : Outcome :=
  let p := s.sel.p
  let n := s.sel.num
  let t := tableAt s p n
  match idxOf (fenceDone s) t.fences with
  | none => notNow
  | some i =>
    match t.fences[i]? with
    | none => notNow
    | some f =>
      let s1 := setTable s p n { t with fences := dropAt t.fences i }
      let s2 := emit1 s1 f.cur f.r (ackVal f.cur.tag f.round)
      .next (ruleSettle p n t.waiters.length s2)

/-- EAU_CREDIT (R388): a token for port b of an edge unit adds its lane 0 to the credits of the table that its node
names; for a table that is not armed it is discarded. -/
def execEauCredit (s : State) : Outcome :=
  match s.transit[s.sel.k]? with
  | none => notNow
  | some f =>
    if f.queued || f.tok.snap || !isEauCredit f then notNow
    else
      let s1 := { s with transit := dropAt s.transit s.sel.k }
      let n := f.tok.node.toNat
      let t := tableAt s f.p n
      if 8 ≤ n then .next (discardTok s1 f.p f.tok.site.toNat f.tok)
      else if t.armed.isNone then .next s1
      else if 241 + t.edge ≠ f.tok.site.toNat then .next (discardTok s1 f.p f.tok.site.toNat f.tok)
      else
        let v := if f.tok.null then 0 else laneN f.tok.lanes 0
        .next (setTable s1 f.p n { t with credits := min 255 (t.credits + v) })

/-! ## COLL (R389) -/

/-- Fields of the route word: round, panel, table, DEV; reserved bits. -/
def collRound (ls : List Lane) : Nat := bits (laneN ls 0) 15 0
def collPanel (ls : List Lane) : Nat := bits (laneN ls 0) 21 16
def collTable (ls : List Lane) : Nat := bits (laneN ls 0) 24 22
def collDev (ls : List Lane) : Nat := bits (laneN ls 1) 11 0
def collBad (ls : List Lane) : Bool :=
  bits (laneN ls 0) 31 25 != 0 || bits (laneN ls 1) 31 12 != 0 || decide (47 < collPanel ls)

/-- DEV of a route word names this part. -/
def collOwn (s : State) (dev : Nat) : Bool := dev == 0xFFF || dev == s.owndev.toNat

/-- A route word that is not admitted, or a counter that is not allocated (R389). -/
def collWrong (s : State) (c : Cur) (r : RecT) : Bool := collBad (portTok c 1).lanes || !(pgAt s c.p r.pgn.toNat).alloc

/-- A COLL is sent: its tag is busy, both destinations take CTAG, and the arrival sets out under the need-by fields. -/
def issueColl (s : State) (c : Cur) (r : RecT) : State :=
  let a := portTok c 0
  let b := (portTok c 1).lanes
  let dev := collDev b
  let own := collOwn s dev
  let g := collPanel b
  if collWrong s c r then faultCur s c cILLEGAL 0
  else
    let m : Word64 := BitVec.ofNat 64 (2 ^ r.ctag.toNat)
    let sc := scribeAt s c.p
    let s := setScribe s c.p { setLate sc (sc.late &&& ~~~m) with busy := sc.busy ||| m, done := sc.done &&& ~~~m }
    let die := dieOf c.p
    let arr : Arrival := { p := g, table := collTable b, round := collRound b, tag := c.tag, ty := a.ty, lanes := a.lanes,
                           poison := curPoison c
                           link := if die = dieOf g then none else some ((arbDie die (dieOf g) - 4 * 2 ^ 16) / 2)
                           coll := s.fresh, origin := none }
    let x : Xfer :=
      { id := s.fresh, op := opColl, p := c.p, site := c.site, plane := c.plane, node := c.node, tag := c.tag,
        ctx := matchCtx s c.p c.plane c.tag, r := r, desc := [], cpanel := c.p, born := s.cycle, doneCount := 0, stopped := false,
        freed := false, flagged := false, fifo := [], arr := some (arr, dev) }
    let x := { x with slack0 := slackAt s die x }
    let s := { s with fresh := s.fresh + 1, xfers := s.xfers ++ [x] }
    let s := emitRes s c (formT r) 6 (ctagVal c r)
    let req := fun (path : List Nat) =>
      ({ kind := .xferSector x.id 0 0, path := path, born := s.cycle, ctx := x.ctx, issuer := c.p, addr := 0,
         ctag := r.ctag.toNat } : Req)
    if own then { s with reqs := s.reqs ++ [req (linkPath die (dieOf g))] }
    else match portPath s die dev with
      | some path => { s with reqs := s.reqs ++ [req path] }
      | none => xferFail s x cPERMISSION 0

/-- COLL (R389): in a block it is sent at commit. -/
def execColl (r : RecT) (s : State) : Outcome :=
  let c := s.cur
  let ps := portSet [0, 1] r.ctl
  if !hasPorts c ps then .refused .noMatch
  else if r.rsv != 0 || r.ctl.lituse != 0 || badCtl [0, 1] r.ctl || r.len != 0 || anyBlock c ps then
    .next (faultCur s c cILLEGAL 0)
  else if anyNull c ps then .next (if r.ctl.nullpass then emitNulls s c (formT r) 6 else s)
  else if predFalse r.ctl c then .next (emitNulls s c (formT r) 6)
  else if inBlock s ∧ !c.late then
    if ctagTaken s c.p r.ctag.toNat then .next (faultCur s c cILLEGAL 0) else .next (holdEff s (.coll r))
  else if !collWrong s c r ∧ !tagFree s c.p r.ctag.toNat then .next (waitOn s c .done)
  else .next (issueColl s c r)

end Sys2Proof.Machine
end

