-- ==== Sys2Proof/Machine/Object.lean ====
section
/-!
DEFINITION. The Isaben object as KSTAGE and the clicker read it (07 R149 to R160): its head and sections, the kernel
table, node images, blocks, wells, rules, relocations and signature, and the checks of 08 R178.
-/
namespace Sys2Proof.Machine

/-! ## Bytes -/

/-- `n` bytes from offset `off`. -/
def slice (bs : List Byte) (off n : Nat) : List Byte := (bs.drop off).take n

/-- The number that `n` bytes from `off` spell (00 R2). -/
def leAt (bs : List Byte) (off n : Nat) : Nat := leNat (slice bs off n)

/-- Bytes that are all 0. -/
def zeros (bs : List Byte) : Bool := bs.all (fun b => b == 0)

/-- A 96-bit record from 12 bytes (00 R2). -/
def recAtOff (bs : List Byte) (off : Nat) : Rec96 := BitVec.ofNat 96 (leAt bs off 12)

/-! ## FAIL codes (15 R321) -/

def failHead : Nat := 1
def failSign : Nat := 2
def failRecord : Nat := 3
def failPlace : Nat := 4
def failLevel : Nat := 5
def failStore : Nat := 6
def failFlip : Nat := 7
def failBlocks : Nat := 8
def failPlane : Nat := 9

/-! ## Head and sections (R149) -/

/-- A section: type, offset, size. -/
structure Sect where
  ty : Nat
  off : Nat
  size : Nat
deriving DecidableEq, Repr, Inhabited

/-- The file as read: its bytes up to the end of the last section, and its sections. -/
structure Object where
  va : Nat
  bytes : List Byte
  sects : List Sect
deriving DecidableEq, Repr, Inhabited

/-- Entry `k` of the section table. -/
def sectAt (bs : List Byte) (k : Nat) : Sect :=
  { ty := leAt bs (64 + 16 * k) 4, off := leAt bs (64 + 16 * k + 8) 4, size := leAt bs (64 + 16 * k + 12) 4 }

/-- A breach of R149 in the 64 bytes of HEAD. -/
def headBad (h : List Byte) : Bool :=
  leAt h 0 4 != 0x4253494B || leAt h 4 2 != 1 || leAt h 8 4 / 4 != 0 || leAt h 12 4 == 0 || decide (10 < leAt h 12 4) ||
    !zeros (slice h 16 48)

/-- Two ranges share a byte. -/
def rangesMeet (a b : Sect) : Bool := decide (a.off < b.off + b.size) && decide (b.off < a.off + a.size)

/-- Where a file of these sections ends: no other length is given. -/
def fileEnd (xs : List Sect) : Nat := xs.foldl (fun n x => max n (x.off + x.size)) 0

/-- A breach of R149 in the section table: types, repeats, places, overlaps, and where HEAD and SIGN stand. -/
def tableBad (bs : List Byte) (xs : List Sect) (signed : Bool) : Bool :=
  xs.any (fun x => x.ty == 0 || decide (10 < x.ty) || x.off % 16 != 0) ||
    (List.range xs.length).any (fun k => !zeros (slice bs (64 + 16 * k + 4) 4)) ||
    (List.range xs.length).any (fun i => (List.range i).any (fun j =>
      (xs.getD i default).ty == (xs.getD j default).ty || rangesMeet (xs.getD i default) (xs.getD j default))) ||
    !(xs.any (fun x => x.ty == 1 && x.off == 0 && x.size == 64 + 16 * xs.length)) ||
    xs.any (fun x => x.ty == 10) != signed ||
    xs.any (fun x => x.ty == 10 && (x.size != 112 || x.off + x.size != fileEnd xs))

/-- Bytes 104 to 111 of SIGN are 0 (R159). -/
def signBytesBad (bs : List Byte) (xs : List Sect) : Bool := xs.any (fun x => x.ty == 10 && !zeros (slice bs (x.off + 104) 8))

/-- Every byte outside the sections is 0. -/
def gapsBad (bs : List Byte) (xs : List Sect) : Bool :=
  (List.range bs.length).any (fun i => bs.getD i 0 != 0 && !(xs.any (fun x => x.off ≤ i && i < x.off + x.size)))

/-- Read a range of the object once, in a context's translation; a fault or a poisoned byte fails the stage. -/
def readObj (s : State) (ctx p va n : Nat) : State × Option (List Byte) :=
  match vread s ctx p va n with
  | (s, .ok (bs, false)) => (s, some bs)
  | (s, _) => (s, none)

/-- Read and check HEAD and the section table, then the whole object (R149, R160; 00 R10). -/
def readObject (s : State) (ctx p va : Nat) : State × Except Nat Object :=
  match readObj s ctx p va 64 with
  | (s, none) => (s, .error failHead)
  | (s, some h) =>
    if headBad h then (s, .error failHead)
    else if 1 < leAt h 6 2 then (s, .error failLevel)
    else
      match readObj s ctx p (va + 64) (16 * leAt h 12 4) with
      | (s, none) => (s, .error failHead)
      | (s, some tb) =>
        let hd := h ++ tb
        let xs := (List.range (leAt h 12 4)).map (sectAt hd)
        let n := fileEnd xs
        if n < hd.length then (s, .error failHead)
        else
          match readObj s ctx p (va + hd.length) (n - hd.length) with
          | (s, none) => (s, .error failHead)
          | (s, some rest) =>
            let bs := hd ++ rest
            if tableBad bs xs (leAt h 8 4 % 2 == 1) || signBytesBad bs xs || gapsBad bs xs then (s, .error failHead)
            else (s, .ok { va := va, bytes := bs, sects := xs })

/-- Bytes of the section of a type; none when the file has no such section. -/
def sectBytes (o : Object) (ty : Nat) : List Byte :=
  match o.sects.find? (fun x => x.ty == ty) with
  | some x => slice o.bytes x.off x.size
  | none => []

/-! ## Kernels (R150) -/

/-- A KTAB entry: kernel panels, layout, colours, width, flags, and first and count of its images, wells, blocks,
rules and relocations. -/
structure KEntry where
  panels : Nat
  layout : List Nat
  colours : Nat
  width : Nat
  kflags : Nat
  nodes : Nat × Nat
  wells : Nat × Nat
  blocks : Nat × Nat
  rules : Nat × Nat
  relos : Nat × Nat
  bad : Bool
deriving DecidableEq, Repr, Inhabited

/-- The KTAB entry that 64 bytes spell. -/
def kentryOf (e : List Byte) : KEntry :=
  let at_ := fun (o n : Nat) => leAt e o n
  let pair := fun (o : Nat) => (at_ o 4, at_ (o + 4) 4)
  let lv := at_ 5 1
  let ws := (List.range lv).map (fun j => at_ (6 + j) 1)
  { panels := at_ 4 1, layout := ws, colours := at_ 14 2, width := at_ 16 1, kflags := at_ 17 1
    nodes := pair 20, wells := pair 28, blocks := pair 36, rules := pair 44, relos := pair 52
    bad := at_ 4 1 == 0 || decide (48 < at_ 4 1) || lv == 0 || decide (8 < lv) || ws.any (fun w => w == 0 || decide (16 < w)) ||
      decide (52 < ws.foldl (· + ·) 0) || !zeros (slice e (6 + lv) (8 - lv)) || at_ 14 2 == 0 || decide (4095 < at_ 14 2) ||
      at_ 16 1 == 0 || decide (32 < at_ 16 1) || at_ 19 1 != 0 || !zeros (slice e 60 4) || at_ 17 1 / 4 != 0 }

/-- Kernel `k` of KTAB; `none` at or beyond the number of entries. -/
def kernelOf (o : Object) (k : Nat) : Option KEntry :=
  if (k + 1) * 64 ≤ (sectBytes o 2).length then some (kentryOf (slice (sectBytes o 2) (64 * k) 64)) else none

/-! ## Node images, blocks, wells, rules (R151 to R153) -/

/-- A node image: kernel panel, site, records by node. -/
structure Image where
  kidx : Nat
  kpanel : Nat
  site : Nat
  recs : List Rec96
  bad : Bool
deriving DecidableEq, Repr, Inhabited

def imageCount (o : Object) : Nat := (sectBytes o 3).length / 400

/-- NODE image `i`. -/
def imageAt (o : Object) (i : Nat) : Image :=
  let e := slice (sectBytes o 3) (400 * i) 400
  { kidx := leAt e 0 2, kpanel := leAt e 2 1, site := leAt e 3 1
    recs := (List.range 32).map (fun k => recAtOff e (16 + 12 * k))
    bad := leAt e 4 1 == 0 || decide (32 < leAt e 4 1) || !zeros (slice e 5 11) }

/-- The records of a block, its header first, and whether its frame is well formed. -/
structure BlockImg where
  kidx : Nat
  recs : List Rec96
  bad : Bool
deriving DecidableEq, Repr, Inhabited

/-- The blocks that the bytes of BLKS hold, at most `fuel` of them. -/
def blocksFrom : Nat → List Byte → List BlockImg
  | 0, _ => []
  | fuel + 1, bs =>
    if bs.length < 20 then []
    else
      let n := leAt bs 4 1
      let size := (8 + 12 * (n + 1) + 15) / 16 * 16
      { kidx := leAt bs 0 2, recs := (List.range (n + 1)).map (fun k => recAtOff bs (8 + 12 * k))
        bad := n == 0 || decide (32 < n) || !zeros (slice bs 5 3) || decide (bs.length < 8 + 12 * (n + 1)) } ::
        blocksFrom fuel (bs.drop size)

/-- All blocks of the object, by BLKS index. -/
def blocksOf (o : Object) : List BlockImg := blocksFrom ((sectBytes o 5).length / 20 + 1) (sectBytes o 5)

/-- A WELL entry: kernel panel, site, word. -/
structure WellImg where
  kidx : Nat
  kpanel : Nat
  site : Nat
  word : BitVec 128
  bad : Bool
deriving DecidableEq, Repr, Inhabited

def wellCount (o : Object) : Nat := (sectBytes o 4).length / 32

def wellImg (o : Object) (i : Nat) : WellImg :=
  let e := slice (sectBytes o 4) (32 * i) 32
  { kidx := leAt e 0 2, kpanel := leAt e 2 1, site := leAt e 3 1, word := BitVec.ofNat 128 (leAt e 16 16)
    bad := !zeros (slice e 4 12) }

/-- RULE entry `i`. -/
def ruleImg (o : Object) (i : Nat) : BitVec 256 := BitVec.ofNat 256 (leAt (sectBytes o 6) (32 * i) 32)

/-! ## Relocation (R155, R156) -/

/-- A RELO entry. -/
structure Relo where
  kind : Nat
  sel : Nat
  kidx : Nat
  target : Nat
  recno : Nat
  sym : Nat
  bad : Bool
deriving DecidableEq, Repr, Inhabited

def reloAt (o : Object) (i : Nat) : Relo :=
  let e := slice (sectBytes o 8) (16 * i) 16
  let kind := leAt e 0 1
  let sel := leAt e 1 1
  { kind := kind, sel := sel, kidx := leAt e 2 2, target := leAt e 4 4, recno := leAt e 8 1, sym := leAt e 12 4
    bad := e.length != 16 || kind == 0 || decide (5 < kind) || (if kind = 1 then decide (1 < sel) else sel != 0) ||
      !zeros (slice e 9 3) }

/-- What a stage loads into one plane, as relocation changes it. -/
structure Load where
  images : List (Nat × Image)
  blocks : List (Nat × BlockImg)
  wells : List (Nat × WellImg)
deriving DecidableEq, Repr, Inhabited

/-- The record with its low 32 bits replaced. -/
def setLit (w : Rec96) (v : Nat) : Rec96 := BitVec.ofNat 96 (w.toNat / 2 ^ 32 * 2 ^ 32 + v % 2 ^ 32)

/-- The site byte of D0 (bits [79:72]) or D1 (bits [63:56]) replaced. -/
def setSite (w : Rec96) (sel site : Nat) : Rec96 :=
  let lo := if sel = 0 then 72 else 56
  BitVec.ofNat 96 (w.toNat - put (bits w.toNat (lo + 7) lo) lo + put site lo)

/-- DATA entries from an offset of the section, at most `fuel` of them (R154). -/
def dataFrom : Nat → List Byte → Nat
  | 0, _ => 0
  | fuel + 1, bs => if bs.length < 16 then 0 else dataFrom fuel (bs.drop (16 + (leAt bs 4 4 + 15) / 16 * 16)) + 1

/-- Entries of DATA. -/
def dataCount (o : Object) : Nat := dataFrom ((sectBytes o 7).length / 16 + 1) (sectBytes o 7)

/-- An entry that the loader cannot apply: of another kernel, or with a SYM that names no DATA entry. -/
def reloBad (o : Object) (kidx : Nat) (r : Relo) : Bool :=
  r.bad || r.kidx != kidx || (decide (3 ≤ r.kind) && decide (dataCount o ≤ r.sym))

/-- A relocation's new record; `none` when a moved site leaves the grid, or a kernel panel is none of the kernel's. -/
def reloRec (o : Object) (dy dx : Int) (assigned : Nat → Option Nat) (r : Relo) (w : Rec96) : Option Rec96 :=
  match r.kind with
  | 1 =>
    let lo := if r.sel = 0 then 72 else 56
    (shiftBy dy dx (bits w.toNat (lo + 7) lo)).map (fun y => setSite w r.sel y)
  | 2 => (assigned (w.toNat % 256)).map (fun g => setLit w (w.toNat % 2 ^ 32 / 256 * 256 + g))
  | _ =>
    let va := wrapN 64 ((Config.symbolVa o.va r.sym : Nat) + sgn 32 (w.toNat % 2 ^ 32))
    some (setLit w (if r.kind = 3 then va % 2 ^ 32 else bits va 55 32))

/-- The element of the list that `k` names, changed; `none` when the change fails or the record is absent. -/
def reloIn (recs : List Rec96) (n : Nat) (f : Rec96 → Option Rec96) : Option (List Rec96) :=
  match recs[n]? with
  | some w => (f w).map (setAt recs n)
  | none => none

/-- Apply one entry: a TARGET below the number of NODE images names an image, one beyond it a block (log 28). An entry
for an image or a well of another kernel panel changes nothing here. -/
def applyRelo (o : Object) (kidx : Nat) (dy dx : Int) (assigned : Nat → Option Nat) (x : Load) (r : Relo) : Option Load :=
  if reloBad o kidx r then none
  else if r.kind = 5 then
    if wellCount o ≤ r.target then none
    else
      let vpn := bits (Config.symbolVa o.va r.sym) 55 12
      some { x with wells := x.wells.map (fun y =>
        if y.1 = r.target then
          (y.1, { y.2 with word := BitVec.ofNat 128 (y.2.word.toNat - put (bits y.2.word.toNat 63 20) 20 + put vpn 20) })
        else y) }
  else if r.target < imageCount o then
    match idxOf (fun y => y.1 == r.target) x.images with
    | none => if r.recno < 32 then some x else none
    | some i =>
      match x.images[i]? with
      | some (k, im) =>
        (reloIn im.recs r.recno (reloRec o dy dx assigned r)).map (fun rs => { x with images := setAt x.images i (k, { im with recs := rs }) })
      | none => none
  else
    match idxOf (fun y => y.1 == r.target - imageCount o) x.blocks with
    | none => none
    | some i =>
      match x.blocks[i]? with
      | some (k, b) =>
        (reloIn b.recs r.recno (reloRec o dy dx assigned r)).map (fun rs => { x with blocks := setAt x.blocks i (k, { b with recs := rs }) })
      | none => none

/-! ## The check of every record (08 R178; 01 R17; 02 R33; 05 R107) -/

/-- A destination that R17 or R33 rejects. `wellOk` allows a well site (format M, an object's well); `grid` says that
the record stands in a nib. -/
def destBad (d : Dest) (wellOk grid : Bool) : Bool :=
  let site := d.site.toNat
  (decide (246 ≤ site) && decide (site ≤ 253)) || decide (6 ≤ d.port.toNat) ||
    (grid && (d.port == 4 || d.port == 5)) ||
    (d.port == 3 && !(isNib site || site == 245 || (grid && site == 254))) ||
    (isWell site && !wellOk)

/-- A record that names its object's well in D1 (12 R262). -/
def objectOp (op : Nat) : Bool := 0xC0 ≤ op && op ≤ 0xC4

/-- Opcodes that stand only at the scribe, and those that stand only at a nib (08 R177). -/
def scribeOnly (op : Nat) : Bool :=
  (0x31 ≤ op && op ≤ 0x35) || op == 0xAE || op == 0xC5 || op == 0xC6 || (0xE3 ≤ op && op ≤ 0xE7) ||
    (0xE8 ≤ op && op ≤ 0xF2) || (0xF4 ≤ op && op ≤ 0xF7)
def gridOnly (op : Nat) : Bool := 0xAB ≤ op && op ≤ 0xAD

/-- A record that fails the checks at a nib, or in a block. One with a reserved OP has no format, so that nothing of it is checked but OP
0xFF (the model's reading of R33 and R178, log 88). -/
def recordBad (scribe : Bool) (w : Rec96) : Bool :=
  let op := opOf w
  let k := ctlOf w
  if reservedOp w then op == 0xFF
  else
    let m := decide (0x80 ≤ op) && decide (op < 0xA0)
    let t := op == 0xA0 || op == 0xA1 || op == 0xA2 || op == 0xC7
    let sform := (0xA3 ≤ op && op ≤ 0xA5) || (0xC0 ≤ op && op ≤ 0xC6) || (0xCB ≤ op && op != 0xF3)
    let base := listedPorts w
    (if scribe then gridOnly op else scribeOnly op) ||
      (k.pred && (base.contains 2 || k.lituse == 2)) ||
      (k.lituse == 1 && !base.contains 1) || (k.lituse == 2 && !base.contains 2) ||
      (k.lituse != 0 && (m || t || sform)) ||
      destBad (dest0Of w) false (!scribe) ||
      (if m then
        let d1 := dest1Of w
        let o := d1.site.toNat
        !(isWell o || (241 ≤ o && o ≤ 244)) || w.toNat / 2 ^ 48 % 256 != 0 ||
          decide (254 ≤ bits w.toNat 23 16) || bits w.toNat 31 24 == 254 ||
          (scribe && !storeClass op && w.toNat / 2 ^ 32 % 32 != 0)
      else destBad (dest1Of w) (objectOp op) (!scribe)) ||
      (t && bits w.toNat 33 32 != 0)

/-- A record that uses port s (03 R67). -/
def usesPortS (w : Rec96) : Bool :=
  !reservedOp w && (scaleOp (opOf w) || (dest0Of w).port == 3 ||
    (!(decide (0x80 ≤ opOf w) && decide (opOf w < 0xA0)) && (dest1Of w).port == 3))

/-- A block that fails the checks: its header, and each record. -/
def blockBad (b : BlockImg) : Bool :=
  match b.recs with
  | [] => true
  | h :: rs =>
    b.bad || opOf h != 0xFF || modOf h + 1 != rs.length || bits h.toNat 79 48 != 0 || decide (32 < bits h.toNat 47 32) ||
      rs.any (recordBad true)

/-! ## Signature (R159, 26 R413) -/

/-- SIGREQ demands a signature that the object does not carry or that does not hold. -/
def signBad (s : State) (o : Object) (ctx : Nat) : Bool :=
  s.mgmt.sigreq.getLsbD (partOf s ctx) &&
    (match o.sects.find? (fun x => x.ty == 10) with
     | none => true
     | some x =>
       let key := leAt o.bytes x.off 8
       !(s.mgmt.keys.any (fun y => y.2.toNat == key)) ||
         !Config.signatureHolds key (leAt o.bytes (x.off + 8) 48) (leAt o.bytes (x.off + 56) 48) (o.bytes.take x.off))

/-! ## The load of one kernel panel (15 R322) -/

/-- Indices from `first`, `count` of them. -/
def span_ (x : Nat × Nat) : List Nat := (List.range x.2).map (fun i => x.1 + i)

/-- An entry's ranges lie within their sections. -/
def rangesBad (o : Object) (k : KEntry) : Bool :=
  decide (imageCount o < k.nodes.1 + k.nodes.2) || decide (wellCount o < k.wells.1 + k.wells.2) ||
    decide ((blocksOf o).length < k.blocks.1 + k.blocks.2) ||
    decide ((sectBytes o 6).length / 32 < k.rules.1 + k.rules.2) ||
    decide ((sectBytes o 8).length / 16 < k.relos.1 + k.relos.2)

/-- Stage steps 2 to 4 on the bytes read: what goes into the plane, or the FAIL code. -/
def prepare (s : State) (o : Object) (ctx kidx kp : Nat) (dy dx : Int) (assigned : Nat → Nat) : Except Nat (KEntry × Load) :=
  match kernelOf o kidx with
  | none => .error failHead
  | some k =>
    if k.bad || rangesBad o k || k.panels ≤ kp then .error failHead
    else if signBad s o ctx then .error failSign
    else
      let bl := blocksOf o
      let x : Load :=
        { images := ((span_ k.nodes).map (fun i => (i, imageAt o i))).filter (fun y => y.2.kpanel == kp)
          blocks := (span_ k.blocks).map (fun i => (i, bl.getD i default))
          wells := ((span_ k.wells).map (fun i => (i, wellImg o i))).filter (fun y => y.2.kpanel == kp) }
      let every := ((span_ k.nodes).flatMap (fun i => (imageAt o i).recs)) ++ x.blocks.flatMap (fun b => b.2.recs.drop 1)
      if x.images.any (fun y => y.2.bad || y.2.kidx != kidx) || x.wells.any (fun y => y.2.bad || y.2.kidx != kidx) then
        .error failHead
      else if (dy + dx) % 2 ≠ 0 ∨ x.images.any (fun y => (shiftBy dy dx y.2.site).isNone) ∨
          x.wells.any (fun y => (shiftBy dy dx y.2.site).isNone) then .error failPlace
      else
        match (span_ k.relos).foldl (fun (a : Option Load) i => match a with
            | some y => applyRelo o kidx dy dx (fun j => if j < k.panels then some (assigned j) else none) y (reloAt o i)
            | none => none) (some x) with
        | none => .error failPlace
        | some y =>
          if y.images.any (fun z => !isNib z.2.site || z.2.recs.any (recordBad false)) ||
              y.blocks.any (fun z => blockBad z.2) ||
              (decide (32 < k.layout.foldl (· + ·) 0) && every.any usesPortS) then .error failRecord
          else if 256 < k.blocks.2 then .error failBlocks
          else .ok (k, y)

/-- Records of a plane's nibs by key 32 × site + node, and of its blocks by key 64 × block + record. -/
def imageTab (dy dx : Int) (x : Load) : Tab Rec96 :=
  x.images.foldl (fun t y =>
    let site := (shiftBy dy dx y.2.site).getD 0
    (List.range 32).foldl (fun t n => tsetD t (32 * site + n) (y.2.recs.getD n 0) 0) t) []

def blockTab (x : Load) : Tab Rec96 :=
  (List.range x.blocks.length).foldl (fun t b =>
    let recs := (x.blocks.getD b default).2.recs
    (List.range recs.length).foldl (fun t r => tput t (64 * b + r) (recs.getD r 0)) t) []

/-- Start of a stage (15 R321, R322): the plane's identity is replaced and it is STAGING, with what it is to load, or
with the FAIL code it is to end in, 9 for a plane that the context's PLANES does not name. -/
def stageStart (s : State) (p plane ctx va kidx kp : Nat) (dy dx : Int) (assigned : Nat → Nat) : State :=
  let x0 : Plane := { state := 1, obj := va, kidx := kidx, kpanel := kp, dx := dx, dy := dy, ctx := ctx }
  if !bit (ctxAt s ctx).planes plane then setPlane s p plane { x0 with verdict := failPlane }
  else match readObject s ctx p va with
  | (s, .error c) => setPlane s p plane { x0 with verdict := c }
  | (s, .ok o) =>
    match prepare s o ctx kidx kp dy dx assigned with
    | .error c => setPlane s p plane { x0 with verdict := c }
    | .ok (k, x) =>
      setPlane s p plane { x0 with
        layout := k.layout
        blocks := k.blocks.2
        wells := x.wells.map (fun y => ((shiftBy dy dx y.2.site).getD 0, y.2.word))
        rules := (span_ k.rules).map (ruleImg o)
        image := imageTab dy dx x
        blockImage := blockTab x }

/-- The end of a clean load: the stores of the plane's nibs and of the scribe hold it, and nothing else. -/
def loadStores (s : State) (p plane : Nat) : State :=
  let x := planeOf s p plane
  let mine := fun (k : Nat) => k / 32 == plane
  let s := iter s 240 (fun s site =>
    if isNib site then
      let n := nibAt s p site
      let keep := n.store.filter (fun y => !mine y.1)
      let store := (List.range 32).foldl (fun t i =>
        tsetD t (32 * plane + i) (tgetD x.image (32 * site + i) 0) 0) keep
      setNib s p site { n with store := store, storeBad := n.storeBad.filter (fun k => !mine k) }
    else s)
  let sc := scribeAt s p
  let inPlane := fun (k : Nat) => k / 64 / 256 == plane
  let blocks := x.blockImage.foldl (fun t y => tput t (plane * 256 * 64 + y.1) y.2) (sc.blocks.filter (fun y => !inPlane y.1))
  setScribe s p { sc with blocks := blocks, storeBad := sc.storeBad.filter (fun k => !inPlane k) }

end Sys2Proof.Machine
end

