-- ==== Sys2Proof/Machine/Group.lean ====
section
/-!
DEFINITION. Groups of colours (16 R331 to R341): SPAWN, CALLOC and RETURN, the draws and the colour point, draining and
retirement, and the emission of generators (09 R204, 12 R274, 16 R333).
-/
namespace Sys2Proof.Machine

/-! ## Colour entries (R331) -/

/-- The three words of a colour entry. -/
def colourWords (e : Colour) : List Nat :=
  [put e.gstate 61 + put (b2n e.retd) 60 + put e.leader 48 + put e.nm1 42 + put e.idx 36 + put e.gwm1 31 + put (b2n e.pk) 30 +
     put e.split 25 + put e.partner 13 + put e.rlev 10 + e.ctx,
   e.rtag.toNat,
   put (e.pwait % 2 ^ 32) 32 + put e.rplane 22 + put e.rpanel 16 + e.rdest.toNat]

/-- A colour that a draw may take: free, or drained; never colour 0 (R333; 02 R34). -/
def colourFree (s : State) (part c : Nat) : Bool :=
  c != 0 && ((colourAt s part c).gstate == 0 || (colourAt s part c).drained)

/-- The colours of a draw, if all are free: the lowest free ones of the range, or those placed from a slot. -/
def drawColours (s : State) (d : Draw) : Option (List Nat) :=
  let x := ctxAt s d.ctx
  match d.base with
  | none =>
    let fs := ((List.range (x.collim + 1 - x.colbase)).map (· + x.colbase)).filter (colourFree s d.part)
    if d.n ≤ fs.length then some (fs.take d.n) else none
  | some b =>
    let cs := (List.range d.n).map (fun i => x.colbase + b + i)
    if cs.all (colourFree s d.part) then some cs else none

/-- Grant that a draw of a colour's match hands on: that colour's, else the width limit of its partition. -/
def handGrant (s : State) (part c : Nat) : Nat := (grant? s part c).getD (max 1 (min 32 (widthLimit s part)))

/-- Write the entries of a group drawn now, and the group itself (R333); the group is RUNNING. -/
def openGroup (s : State) (part ctx : Nat) (cs : List Nat) (gid grant rlev : Nat) (rtag : Word64) (rpanel rplane : Nat)
    (rdest : BitVec 16) (launch : Option Nat) : State :=
  let s := setGroup s gid { lastIssue := s.cycle, launch := launch, ctx := ctx, left := cs.length, rtag := rtag }
  iter s cs.length (fun s i =>
    let e : Colour :=
      { gstate := 1, leader := cs.getD 0 0, nm1 := cs.length - 1, idx := i, gwm1 := grant - 1, rlev := rlev, ctx := ctx,
        rtag := rtag, pwait := (ctxAt s ctx).parkwait, rplane := rplane, rpanel := rpanel, rdest := rdest, gid := gid
        ghist := [(s.cycle, none)] }
    setColour s part (cs.getD i 0) e)

/-- Clear the packing entry of a colour, and those that name it as partner: the packed colour's grant is SPLIT (R335). -/
def clearPack (s : State) (part c : Nat) : State :=
  { s with colours := s.colours.map (fun x =>
      if x.1 / 4096 == part && x.2.pk && (x.1 % 4096 == c || x.2.partner == c) then
        (x.1, { withGrant s part (x.1 % 4096) x.2 x.2.split with pk := false, split := 0, partner := 0 })
      else x) }

/-! ## SPAWN (R333) -/

/-- A field of SPAWN that is not admitted. -/
def spawnBad (r : RecN) : Bool :=
  r.fmt != 0 || r.lit.toNat / 64 != 0 || r.ctl.lituse != 0 || r.cf != 0 || r.ctl.emit1 != 0 ||
    !(isNib r.d1.site.toNat || r.d1.site == 254)

/-- A count or a place that does not fit the layout or the context's range. -/
def spawnRange (s : State) (r : RecN) : Bool :=
  let c := s.cur
  let lay := layoutOf s c.p c.plane
  let x := ctxAt s (matchCtx s c.p c.plane c.tag)
  let n := r.lit.toNat % 64 + 1
  let lev := r.hi.toNat % 8
  decide (2 ^ levelWidth lay 0 < n) || decide (lay.length ≤ lev) || decide (2 ^ levelWidth lay lev < n) ||
    (if bit r.hi.toNat 3 then decide (x.collim < x.colbase + laneN (portTok c 1).lanes 0 + n - 1)
     else decide (x.collim + 1 - x.colbase < n))

/-- The nulls of a SPAWN that draws nothing. -/
def spawnNulls (s : State) (r : RecN) : State :=
  let c := s.cur
  let lay := layoutOf s c.p c.plane
  let n := r.lit.toNat % 64 + 1
  iter s n (fun s i =>
    let v := { nullVal c (portTok c 0).ty with tag := setfld lay c.tag (r.hi.toNat % 8) i, eor := i + 1 == n }
    send s c (valSend r.d1 false v))

/-- SPAWN (R333): a draw is queued at the colour point. -/
def execSpawn (r : RecN) (s : State) : Outcome :=
  let c := s.cur
  let base := if bit r.hi.toNat 3 then [0, 1] else [0]
  let ps := portSet base r.ctl
  if !hasPorts c ps then .refused .noMatch
  else if spawnBad r || badCtl base r.ctl || anyBlock c ps || spawnRange s r then .next (faultCur s c cILLEGAL 0)
  else if anyNull c ps || predFalse r.ctl c then .next (if r.ctl.nullpass then spawnNulls s r else s)
  else .next (askPoint s 0 0 (.spawn r) c)

/-! ## CALLOC (R337) -/

/-- A field of CALLOC that is not admitted; the literal of port b is read as n32. -/
def callocBad (r : RecN) : Bool := r.fmt != 0 || r.cf != 0

/-- b[0] of CALLOC. -/
def callocB (r : RecN) (c : Cur) : Nat := if r.ctl.lituse = 1 then r.lit.toNat else laneN (portTok c 1).lanes 0

/-- A new grant for every colour of a group (R332, R337). -/
def setGrant (s : State) (part gid v : Nat) : State :=
  (groupColours s part gid).foldl (fun s c => setColour s part c (withGrant s part c (colourAt s part c) v)) s

/-- CALLOC, OPX 0, at the colour point. -/
def grantServe (r : RecN) (c : Cur) (s : State) : State :=
  let part := partOf s (matchCtx s c.p c.plane c.tag)
  let v := callocB r c
  match gidOf s part (colourOf c.tag) with
  | none => faultCur s c cILLEGAL 0
  | some g =>
    if v = 0 ∨ 32 < v ∨ (groupColours s part g).any (fun k => (colourAt s part k).pk) then faultCur s c cILLEGAL 0
    else emitRes (setGrant s part g (min v (widthLimit s part))) c (formN r) 6 (both (ackVal c.tag (min v (widthLimit s part))))

/-- CALLOC, OPX 0: a request to the colour point. -/
def execCallocGrant (r : RecN) (s : State) : Outcome :=
  fireWith s (formN r) 6 [0, 1] (callocBad r) false (fun _ => {}) (fun s c _ _ _ => askPoint s 0 0 (.callocGrant r) c)

/-- CALLOC, OPX 1, at the colour point: the entry of a colour of the context's range. -/
def entryServe (r : RecN) (c : Cur) (s : State) : State :=
  let ctx := matchCtx s c.p c.plane c.tag
  let k := callocB r c % 4096
  if k < (ctxAt s ctx).colbase ∨ (ctxAt s ctx).collim < k then faultCur s c cPERMISSION 0
  else emitRes s c (formN r) 7 (both { tag := c.tag, ty := 7, lanes := wordsLanes (colourWords (colourAt s (partOf s ctx) k)) })

/-- CALLOC, OPX 1: a request to the colour point. -/
def execCallocEntry (r : RecN) (s : State) : Outcome :=
  fireWith s (formN r) 7 [0, 1] (callocBad r) false (fun _ => {}) (fun s c _ _ _ => askPoint s 0 0 (.callocEntry r) c)

/-! ## RETURN (R335) -/

/-- A field of RETURN that is not admitted. -/
def retBad (r : RecN) : Bool := r.hi != 0 || r.fmt != 0 || r.cf != 0 || r.lit != 0 || r.ctl.lituse != 0

/-- The colour cannot return, or the value is wider than its spawner's grant. -/
def retWrong (s : State) (c : Cur) : Bool :=
  let part := partOf s (matchCtx s c.p c.plane c.tag)
  let e := colourAt s part (colourOf c.tag)
  e.gstate == 0 || e.retd ||
    (match grant? s part (colourOf e.rtag) with
     | some g => decide (g < (portTok c 0).lanes.length)
     | none => false)

/-- The return itself: the token sets out, the colour is RETD, its group RETURNING. -/
def retAct (s : State) (c : Cur) (isNull : Bool) : State :=
  let part := partOf s (matchCtx s c.p c.plane c.tag)
  let k := colourOf c.tag
  let e := colourAt s part k
  let a := portTok c 0
  let d := destOfBits e.rdest
  let t : Token :=
    { tag := setfld (layoutOf s e.rpanel e.rplane) e.rtag e.rlev e.idx, site := d.site, node := d.node, port := d.port,
      plane := BitVec.ofNat 2 e.rplane, ty := a.ty, null := isNull, poison := a.poison && !isNull, eor := e.idx == e.nm1,
      lanes := if isNull then List.replicate (max 1 a.lanes.length) 0 else a.lanes }
  let s := if e.rdest = 0xFF00 then s else { s with returns := s.returns ++ [{ p := e.rpanel, tok := t }] }
  let s := setColour s part k { colourAt s part k with retd := true }
  clearPack (setGstate s part e.gid 4) part k

/-- RETURN at the colour point. -/
def retServe (r : RecN) (c : Cur) (s : State) : State :=
  if retWrong s c then faultCur s c cILLEGAL 0 else retAct s c (anyNull c (portSet [0] r.ctl) || predFalse r.ctl c)

/-- RETURN (R335): a request to the colour point; in a block it acts at commit. -/
def execRet (r : RecN) (s : State) : Outcome :=
  let c := s.cur
  let ps := portSet [0] r.ctl
  if !hasPorts c ps then .refused .noMatch
  else if retBad r || badCtl [0] r.ctl || anyBlock c ps then .next (faultCur s c cILLEGAL 0)
  else if inBlock s ∧ !c.late then .next (holdEff s (.ret r))
  else .next (askPoint s 0 0 (.ret r) c)

/-- Two dies are one, or their link is UP (01 R12). -/
def linkUp (s : State) (a b : Nat) : Bool := a == b || (linkAt s ((arbDie a b % 65536) / 2)).state == 2

/-- RETURN_TOKEN_DELIVERY (R335): return token `k`, the first for its panel, enters there at its site; to another die than the colour
point's it crosses the die link, which must be UP. -/
def execReturnTokenDelivery (s : State) : Outcome :=
  match s.returns[s.sel.k]? with
  | none => notNow
  | some x =>
    if (s.returns.take s.sel.k).any (fun y => y.p == x.p) ∨ !linkUp s 0 (dieOf x.p) then notNow
    else
      .next { s with
        returns := dropAt s.returns s.sel.k
        transit := s.transit ++ [{ p := x.p, src := x.tok.site.toNat, queued := false, tok := x.tok }] }

/-! ## The colour point (R331, R333) -/

/-- Order of the colour point's requests: the cycle in which they reached it, the kind, the panel, a launch after every panel (R331). -/
def drawKey (d : Draw) : List Nat := [d.born, 2, (d.spawn.map (fun x => x.1.p)).getD 48]
def pointKey (x : PReq) : List Nat := [x.born, x.kind, x.cur.p]

/-- A draw whose turn has come in its context: that is RESIDENT, no draw of it came before, and its colours are free. -/
def drawReady (s : State) (k : Nat) : Option (Draw × List Nat) :=
  match s.draws[k]? with
  | none => none
  | some d =>
    if (ctxAt s d.ctx).state ≠ 3 ∨ (s.draws.take k).any (fun y => y.ctx == d.ctx) then none
    else (drawColours s d).map (fun cs => (d, cs))

/-- A draw stands before a request in the colour point's order. -/
def drawBefore (s : State) (key : List Nat) : Bool :=
  (List.range s.draws.length).any (fun k => (drawReady s k).any (fun x => lexBefore (drawKey x.1) key))

/-- A draw is served: it is ready, the first of those that wait at the colour point, and the point has served nothing in this cycle. -/
def drawNow (s : State) (k : Nat) : Option (Draw × List Nat) :=
  match drawReady s k with
  | none => none
  | some x =>
    if tgetD s.pointUsed 0 0 = s.cycle + 1 ∨ drawBefore s (drawKey x.1) ∨
        s.points.any (fun y => y.point == 0 && lexBefore (pointKey y) (drawKey x.1)) then none
    else some x

/-- A spawned group is drawn: its entries, and a generator that sends the argument to each member. -/
def drawSpawn (s : State) (d : Draw) (cs : List Nat) (c : Cur) (r : RecN) : State :=
  let gid := s.fresh + 1
  let site := if r.d1.site = 254 then BitVec.ofNat 8 c.site else r.d1.site
  let s := openGroup { s with fresh := s.fresh + 1 } d.part d.ctx cs gid (handGrant s d.part (colourOf c.tag)) (r.hi.toNat % 8)
    c.tag c.p c.plane (site ++ r.d1.node ++ r.d1.port) none
  startGen s c { d0 := r.d0, d1 := { site := 255, node := 0, port := 0 }, ctl := r.ctl } 0 (.spawn cs) (portTok c 0)

/-! ## Generators (09 R204; 12 R274; 16 R333) -/

/-- How many tokens a generator sends. -/
def genCount (g : Gen) : Nat :=
  match g.kind with
  | .range _ n => n
  | .sweep vs => vs.length
  | .spawn cs => cs.length

/-- Token `g.next` of a generator. -/
def genVal (s : State) (p : Nat) (g : Gen) : Val × Bool :=
  let lay := layoutOf s p g.plane
  let i := g.next
  let last := i + 1 == genCount g
  match g.kind with
  | .range f _ =>
    ({ tag := setfld lay g.tag g.level i, ty := f, lanes := (lanesOf f (lanesPer f) (fun _ => i)).take 1, eor := last }, g.poison)
  | .sweep vs =>
    let v := vs.getD i (0, 0, false)
    ({ tag := setfld lay g.tag g.level v.1, ty := 6, lanes := [BitVec.ofNat 32 v.1, v.2.1], eor := last }, g.poison || v.2.2)
  | .spawn cs =>
    let t : Word64 := BitVec.ofNat 64 (put (cs.getD i 0) 52)
    ({ tag := setfld lay t 0 i, ty := g.arg.ty, lanes := g.arg.lanes, eor := last }, g.poison)

/-- The generator has a place on its plane's ready list. -/
def genReady (g : Gen) (m : Match) : Bool := m.again == 2 && m.plane == g.plane && m.node == g.node && m.tag == g.tag

/-- In plain service a RANGE sends a token only to free slots (09 R206). -/
def genSlots (s : State) (p site : Nat) (g : Gen) : Bool :=
  tagged s p || [g.d0, g.d1].all (fun d =>
    let t := tokenOf site g.plane { dest := d, tag := g.tag, ty := 0, lanes := [] }
    let f : Flight := { p := p, src := site, queued := true, tok := t }
    !(isNib t.site.toNat || t.site == 240) || (!slotFull s p t && !s.transit.any (fun e => sameSlot e f)))

/-- GENERATOR_EMIT (R204): generator `k` of a site sends its next token; after the last it is done, else it joins its
ready list again with this cycle. -/
def execGeneratorEmit (s : State) : Outcome :=
  let p := s.sel.p
  let site := s.sel.site
  let n := nibAt s p site
  match n.gens[s.sel.k]? with
  | none => notNow
  | some g =>
    let need := (if g.d0.site = 255 then 0 else 1) + (if g.d1.site = 255 then 0 else 1)
    if s.cycle ≤ g.last ∨ 8 < queueUsed s p site + need ∨ gatedCtx s p site (matchCtx s p g.plane g.tag) ∨ !genSlots s p site g then
      notNow
    else
      let ready := match idxOf (genReady g) n.ready with
        | some i => dropAt n.ready i
        | none => n.ready
      let gens := if g.next + 1 < genCount g then setAt n.gens s.sel.k { g with next := g.next + 1, last := s.cycle }
        else dropAt n.gens s.sel.k
      let s1 := setNib s p site { n with ready := ready, gens := gens }
      let c : Cur := { p := p, site := site, plane := g.plane, node := g.node, tag := g.tag, late := g.late }
      let v := genVal s p g
      let xs := destSends g.d0 g.ctl.emit0 v.2 true false v.1 (some v.1) ++ destSends g.d1 g.ctl.emit1 v.2 true false v.1 (some v.1)
      .next (settle (sendAll s1 c xs) p site)

/-! ## Idleness (R339) -/

/-- GROUP_IDLE (R339): a RUNNING group, by its id, with no issue for 64 cycles becomes WAITING. -/
def execGroupIdle (s : State) : Outcome :=
  let g := s.sel.k
  let part := s.sel.part
  match groupColours s part g with
  | [] => notNow
  | c :: _ =>
    if (colourAt s part c).gstate = 1 ∧ (groupAt s g).lastIssue + 64 ≤ s.cycle then .next (setGstate s part g 2) else notNow

/-! ## Draining and retirement (R336) -/

/-- Work of a colour at a nib that has yet to send something. -/
def nibBusy (n : Nib) (mine : Nat → Word64 → Bool) : Bool :=
  n.ready.any (fun m => mine m.plane m.tag) || n.gens.any (fun g => mine g.plane g.tag) ||
    n.delayed.any (fun d => mine d.plane d.tag) || n.waits.any (fun w => mine w.m.plane w.m.tag) ||
    n.held.any (fun t => mine t.plane.toNat t.tag)

/-- Work of a colour that keeps it from draining: a token in flight or about to leave, a ready match, a frame operand,
a pass. -/
def colourBusy (s : State) (ctx colour : Nat) : Bool :=
  let mine := fun (p plane : Nat) (tag : Word64) => colourOf tag == colour && matchCtx s p plane tag == ctx
  s.transit.any (fun f => mine f.p f.tok.plane.toNat f.tok.tag) ||
    s.scaleNet.any (fun f => mine f.p f.tok.plane f.tok.payload) ||
    s.returns.any (fun r => mine r.p r.tok.plane.toNat r.tok.tag) ||
    s.draws.any (fun d => match d.spawn with
      | some (c, _) => mine c.p c.plane c.tag
      | none => false) ||
    (pointReqs s).any (fun x => mine x.cur.p x.cur.plane x.cur.tag) ||
    s.nibs.any (fun x => nibBusy x.2 (mine (x.1 / 256))) ||
    s.wells.any (fun x =>
      x.2.frames.any (fun f => f.slots.any (fun o => mine (x.1 / 256) o.tok.plane.toNat o.tok.tag)) ||
        x.2.returns.any (fun y => mine (x.1 / 256) y.2.plane y.2.tag)) ||
    s.obufs.any (fun x => (x.2.waiting ++ x.2.released).any (fun a => mine a.p a.plane a.tag && !a.fin)) ||
    s.addends.any (fun x => mine x.2.2.p x.2.2.plane x.2.2.tag) ||
    s.accSlots.any (fun x => x.staged.any (fun y => mine y.2.p y.2.plane y.2.tag)) ||
    s.arrays.any (fun a => a.passes.any (fun y => mine a.p y.plane y.tag))

/-- The rows of THROTTLE, REPEAT and RANKADM of a colour are freed. -/
def freeEntries (s : State) (ctx colour : Nat) : State :=
  { s with nibs := s.nibs.map (fun x =>
      let keep := fun (plane : Nat) (tag : Word64) =>
        !(colourOf tag == colour && matchCtx s (x.1 / 256) plane tag == ctx)
      (x.1, { x.2 with
        thr := x.2.thr.filter (fun e => keep e.plane e.base)
        sticky := x.2.sticky.filter (fun e => keep e.plane e.tok.tag)
        ranks := x.2.ranks.filter (fun e => keep e.plane e.base) })) }

/-- The last colour has drained: the flags go to the spawner's group or into the launch, and the entries are free. -/
def retireGroup (s : State) (part gid : Nat) : State :=
  let g := groupAt s gid
  let cs := groupColours s part gid
  let s := cs.foldl (fun s c => setColour (clearPack s part c) part c {}) s
  let s := { s with groups := tdel s.groups gid }
  match g.launch with
  | some id => { s with launches := s.launches.map (fun x => if x.id = id then { x with flags := g.flags, stage := 3 } else x) }
  | none => orFlags s part (colourOf g.rtag) g.flags

/-- COLOUR_DRAIN (R336): a returned colour with no work left goes back to the pool; the last retires its group. -/
def execColourDrain (s : State) : Outcome :=
  let part := s.sel.part
  let k := s.sel.k
  let e := colourAt s part k
  if !e.retd ∨ e.drained ∨ e.gstate ≠ 4 ∨ colourBusy s e.ctx k then notNow
  else
    let s1 := setColour (freeEntries s e.ctx k) part k { e with drained := true }
    let g := groupAt s1 e.gid
    let s2 := setGroup s1 e.gid { g with left := g.left - 1 }
    .next (if g.left ≤ 1 then retireGroup s2 part e.gid else s2)

end Sys2Proof.Machine
end

