-- ==== Sys2Proof/Machine/Kernel.lean ====
section
/-!
DEFINITION. Planes and kernels (15 R317 to R330): staging, flips, drains and snapshots; and the part of a launch that
stages its kernel and enters block 0 (14 R311, R314).
-/
namespace Sys2Proof.Machine

/-! ## Stores at physical addresses -/

/-- Bytes stored by the part itself at a physical address of its own memory, performed at DEVICE scope. -/
def physStore (s : State) (ctx pa : Nat) (bs : List Byte) : State :=
  (sectorPieces (bs.length / 32 + 2) pa bs).foldl (fun s (x : Nat × List Byte) =>
    writeL2 s none 0 3 (homeForm x.1 / 32 * 32) ctx {} ((List.range x.2.length).map (fun i => (x.1 % 32 + i, x.2.getD i 0))) false) s

/-- Words as bytes (00 R2). -/
def wordBytes (ws : List Word64) : List Byte := ws.flatMap (fun w => leBytes 8 w.toNat)

/-! ## Plane status (R318) -/

/-- The plane status word. -/
def planeWord (s : State) (p k : Nat) : Nat :=
  let x := planeOf s p k
  put x.state 29 + put (b2n ((panelAt s p).inj == some k)) 28 + (if x.state = 0 then 0 else put x.ctx 20) + put x.fail 16 +
    (if x.state = 0 then 0 else x.kidx)

/-- What a record emits: its status and the status word of a plane (R329). -/
def planeEmit (s : State) (c : Cur) (r : RecS) (status p k : Nat) : State :=
  emitRes s { c with late := true } (formS r) 6
    (both { tag := c.tag, ty := 6, lanes := [BitVec.ofNat 32 status, BitVec.ofNat 32 (planeWord s p k)] })

/-- A plane outside the context's PLANES (R329). -/
def planeForbidden (s : State) (c : Cur) (k : Nat) : Bool := !bit (ctxAt s (matchCtx s c.p c.plane c.tag)).planes k

/-- Those that wait on a plane under a purpose (0 a stage, 1 a drain, 2 a purge) emit, and wait no more. -/
def planeAnswer (s : State) (p k : Nat) (what : Nat → Bool) (status : Nat) : State :=
  let x := planeOf s p k
  let s := setPlane s p k { x with waiters := x.waiters.filter (fun w => !what w.1) }
  (x.waiters.filter (fun w => what w.1)).foldl (fun s (w : Nat × Cur × RecS) => planeEmit s w.2.1 w.2.2 status p k) s

/-! ## Staging (R321, R322, R330) -/

/-- The stage descriptor: reserved bits that must be 0, and its fields. -/
def descReserved (ls : List Lane) : Bool :=
  bits (laneN ls 1) 31 24 != 0 || bits (laneN ls 2) 31 26 != 0 || bits (laneN ls 3) 31 10 != 0
def descObj (ls : List Lane) : Nat := laneN ls 0 + laneN ls 1 % 2 ^ 24 * 2 ^ 32
def descPlane (ls : List Lane) : Nat := bits (laneN ls 2) 25 24
def descKpanel (ls : List Lane) : Nat := bits (laneN ls 2) 23 16
def descKidx (ls : List Lane) : Nat := bits (laneN ls 2) 15 0
def descDx (ls : List Lane) : Int := sgn 5 (bits (laneN ls 3) 9 5)
def descDy (ls : List Lane) : Int := sgn 5 (bits (laneN ls 3) 4 0)

/-- A plane that a stage may take: FREE, STAGED, IDLE or INVALID, and not the scribe plane or the injection plane. -/
def stageable (s : State) (p k : Nat) : Bool :=
  let x := planeOf s p k
  (x.state == 0 || x.state == 2 || x.state == 5 || x.state == 6) && (panelAt s p).scribePlane != some k &&
    (panelAt s p).inj != some k

/-- A launch that has been placed and does not run yet holds the plane (14 R311). -/
def launchHolds (s : State) (p k : Nat) : Bool :=
  s.launches.any (fun x => decide (x.stage < 2) && (List.range x.panels.length).any (fun i => x.panels.getD i 0 == p && x.planes.getD i 0 == k))

/-- KSTAGE at its block's commit. -/
def stageAct (s : State) (c : Cur) (r : RecS) : State :=
  let ls := (portTok c 0).lanes
  let k := descPlane ls
  let ctx := matchCtx s c.p c.plane c.tag
  let x := planeOf s c.p k
  if !stageable s c.p k ∨ launchHolds s c.p k ∨ (x.state ≠ 0 ∧ x.ctx ≠ ctx) then planeEmit s c r 1 c.p k
  else
    let own := fun (kp : Nat) => if kp = descKpanel ls then c.p else Config.assignedPanel (descObj ls) (descKidx ls) kp % 48
    let s := stageStart s c.p k ctx (descObj ls) (descKidx ls) (descKpanel ls) (descDy ls) (descDx ls) own
    let y := planeOf s c.p k
    setPlane s c.p k { y with waiters := y.waiters ++ [(0, c, r)] }

/-- KSTAGE (R329, R330). -/
def execKstage (r : RecS) (s : State) : Outcome :=
  sAct s r (.kstage r) [0] (r.sub != 0 || r.cf != 0 || r.obj != 0) 6
    (fun s c =>
      let ls := (portTok c 0).lanes
      if descReserved ls then some cILLEGAL else if planeForbidden s c (descPlane ls) then some cPERMISSION else none)
    (fun s c => stageAct s c r)

/-! ## Flips (R323, R324) -/

/-- A held WELL word that the flip rejects: not a well, a word that WCFG rejects, or a well of another context. -/
def flipWellBad (s : State) (p ctx : Nat) (y : Nat × BitVec 128) : Bool :=
  let w := wellAt s p y.1
  !isWell y.1 || !cfgOk y.2 || (w.owner.isSome && w.owner != some ctx)

/-- A store of the plane fails its re-check (R323). -/
def recheckBad (s : State) (p k : Nat) : Bool :=
  (List.range 240).any (fun site => (nibAt s p site).storeBad.any (fun n => n / 32 == k)) ||
    (scribeAt s p).storeBad.any (fun n => n / 64 / 256 == k)

/-- The effect of a clean flip: words, rule entries, whose tables' rounds end (19 R387), and the planes' states. -/
def flipTake (s : State) (p k : Nat) : State :=
  let x := planeOf s p k
  let s := x.wells.foldl (fun s (y : Nat × BitVec 128) =>
    let w := wellAt s p y.1
    if w.cfg = y.2 then setWell s p y.1 { w with owner := some x.ctx }
    else setWell s p y.1 { w with pend := w.pend ++ [{ word := y.2, ctx := x.ctx, acc := none, plane := some k }] }) s
  let s := x.rules.foldl (fun s (e : BitVec 256) =>
    let t := tableAt s p (entryTable e)
    setTable s p (entryTable e) { t with entries := tput t.entries (entryIdx e) e, armed := none, inRound := false, arming := none, accs := [] }) s
  let s := match (panelAt s p).inj with
    | some j => if j = k then s else setPlane s p j { planeOf s p j with state := 4 }
    | none => s
  let s := setPlane s p k { planeOf s p k with state := 3 }
  setPanel s p { panelAt s p with inj := some k, scribePlane := some k }

/-- The target of a flip that fails becomes INVALID. -/
def flipFail (s : State) (p k code : Nat) : State := setPlane s p k { planeOf s p k with state := 6, fail := code }

/-- The flip of plane `k`: taken, or failed with FAIL 6 or 7; whether it was taken. -/
def flipNow (s : State) (p k : Nat) : State × Bool :=
  let x := planeOf s p k
  if x.state ≠ 2 ∧ x.state ≠ 5 then (s, false)
  else if recheckBad s p k then (flipFail s p k failStore, false)
  else if x.wells.any (flipWellBad s p x.ctx) || x.rules.any entryBad then (flipFail s p k failFlip, false)
  else (flipTake s p k, true)

/-- KFLIP at its block's commit: its re-check starts. A plane that a placed launch holds is not flipped: BUSY (14 R311; log 87). -/
def flipAct (s : State) (c : Cur) (r : RecS) : State :=
  let k := laneN (portTok c 0).lanes 0
  let x := planeOf s c.p k
  if (x.state ≠ 2 ∧ x.state ≠ 5) ∨ (panelAt s c.p).flip.isSome ∨ launchHolds s c.p k then planeEmit s c r 1 c.p k
  else setPanel s c.p { panelAt s c.p with flip := some { target := k, ask := some (c, r), born := s.cycle } }

/-- A plane number on port a: bits [31:2] are 0, and the plane is the context's (R329). -/
def planeArg (s : State) (c : Cur) : Option Nat :=
  let v := laneN (portTok c 0).lanes 0
  if 4 ≤ v then some cILLEGAL else if planeForbidden s c v then some cPERMISSION else none

/-- KFLIP (R329). -/
def execKflip (r : RecS) (s : State) : Outcome :=
  sAct s r (.kflip r) [0] (r.sub != 0 || r.cf != 0 || r.obj != 0) 6 planeArg (fun s c => flipAct s c r)

/-! ## Draining (R325, R326) -/

/-- Work of a plane that will yet send or fire: a token in flight, a ready match, a generator, a result or access that
is outstanding. -/
def planeMoves (s : State) (p k : Nat) : Bool :=
  s.transit.any (fun f => f.p == p && f.tok.plane.toNat == k) ||
    s.scaleNet.any (fun f => f.p == p && f.tok.plane == k) ||
    s.returns.any (fun r => r.p == p && r.tok.plane.toNat == k) ||
    s.draws.any (fun d => match d.spawn with
      | some (c, _) => c.p == p && c.plane == k
      | none => false) ||
    (pointReqs s).any (fun x => x.cur.p == p && x.cur.plane == k) || (panelAt s p).portQ.any (fun t => t.plane == k) ||
    s.nibs.any (fun x => x.1 / 256 == p && (x.2.ready.any (fun m => m.plane == k) || x.2.gens.any (fun g => g.plane == k) ||
      x.2.delayed.any (fun d => d.plane == k))) ||
    s.obufs.any (fun x => x.1 / 256 == p && (x.2.waiting ++ x.2.released).any (fun a => a.plane == k && !a.fin)) ||
    s.wells.any (fun x => x.1 / 256 == p && (x.2.returns.any (fun y => y.2.plane == k) ||
      x.2.frames.any (fun f => f.slots.any (fun o => o.tok.plane.toNat == k)) ||
      x.2.cavs.any (fun v => v.contribs.any (fun c => c.plane == k))))

/-- Rows of a plane: waiting operands, scales among them (02 R49), entries, matches that wait, tokens that a snapshot holds. -/
def planeRows (s : State) (p k : Nat) : Bool :=
  s.nibs.any (fun x => x.1 / 256 == p && (x.2.groups.any (fun g => g.plane == k) || x.2.thr.any (fun e => e.plane == k) ||
    x.2.sticky.any (fun e => e.plane == k) || x.2.scales.any (fun t => t.plane == k) || x.2.ranks.any (fun e => e.plane == k) || x.2.waits.any (fun w => w.m.plane == k) ||
    x.2.held.any (fun t => t.plane.toNat == k)))

/-- A pass of the plane, complete or not. -/
def planePass (s : State) (p k : Nat) (done : Bool) : Bool :=
  s.arrays.any (fun a => a.p == p && a.passes.any (fun y => y.plane == k && (y.complete || !done)))

/-- The plane holds no work (R325); it is quiet (R326). -/
def planeEmpty (s : State) (p k : Nat) : Bool := !planeMoves s p k && !planeRows s p k && !planePass s p k false
def planeQuiet (s : State) (p k : Nat) : Bool := !planeMoves s p k && !planePass s p k true

/-- A DRAINING plane becomes IDLE: class 3 lines of its kernel become class 2 (04 R96), and those that wait emit. -/
def planeIdle (s : State) (p k : Nat) : State :=
  let s := setPlane s p k { planeOf s p k with state := 5 }
  let s := { s with l2lines := s.l2lines.map (fun x =>
    if x.2.cls = 3 ∧ x.2.kernel = kernelId p k then (x.1, { x.2 with cls := 2 }) else x) }
  planeAnswer s p k (fun n => n == 1 || n == 2) 0

/-- A purge frees every row of the plane and discards its gathering passes (R326). -/
def planePurge (s : State) (p k : Nat) : State :=
  { s with
    nibs := s.nibs.map (fun x =>
      if x.1 / 256 = p then
        (x.1, { x.2 with
          groups := x.2.groups.filter (fun g => g.plane != k)
          spill := x.2.spill.filter (fun n => n / 32 != k)
          thr := x.2.thr.filter (fun e => e.plane != k)
          sticky := x.2.sticky.filter (fun e => e.plane != k)
          scales := x.2.scales.filter (fun t => t.plane != k)
          ranks := x.2.ranks.filter (fun e => e.plane != k)
          waits := x.2.waits.filter (fun w => w.m.plane != k)
          held := x.2.held.filter (fun t => t.plane.toNat != k) })
      else x)
    arrays := s.arrays.map (fun a =>
      if a.p = p then { a with passes := a.passes.filter (fun y => y.plane != k || y.complete) } else a) }

/-- A LIVE plane becomes DRAINING; the panel loses its injection plane if it was this one (R319, R321). -/
def planeDrain (s : State) (p k : Nat) : State :=
  let x := planeOf s p k
  if x.state = 3 then
    let s := setPlane s p k { x with state := 4 }
    let pn := panelAt s p
    if pn.inj = some k then setPanel s p { pn with inj := none } else s
  else s

/-- KDRAIN, SUB 0, at commit. -/
def drainAct (s : State) (c : Cur) (r : RecS) : State :=
  let k := laneN (portTok c 0).lanes 0
  let x := planeOf s c.p k
  match x.state with
  | 3 | 4 =>
    let s := planeDrain s c.p k
    let y := planeOf s c.p k
    setPlane s c.p k { y with waiters := y.waiters ++ [(1, c, r)] }
  | 0 | 2 | 5 | 6 => planeEmit s c r 0 c.p k
  | _ => planeEmit s c r 1 c.p k

/-- KDRAIN, SUB 1, at commit. -/
def purgeAct (s : State) (c : Cur) (r : RecS) : State :=
  let k := laneN (portTok c 0).lanes 0
  let x := planeOf s c.p k
  if x.state = 4 then setPlane s c.p k { x with waiters := x.waiters ++ [(2, c, r)] } else planeEmit s c r 1 c.p k

/-- A field of KDRAIN that is not admitted. -/
def drainBad (r : RecS) (sub : BitVec 8) : Bool := r.sub != sub || r.cf != 0 || r.obj != 0

/-- KDRAIN, SUB 0 (R329). -/
def execKdrain (r : RecS) (s : State) : Outcome :=
  sAct s r (.kdrain r) [0] (drainBad r 0) 6 planeArg (fun s c => drainAct s c r)

/-- KDRAIN, SUB 1 (R326). -/
def execKdrainPurge (r : RecS) (s : State) : Outcome :=
  sAct s r (.kdrainPurge r) [0] (drainBad r 1) 6 planeArg (fun s c => purgeAct s c r)

/-- KDRAIN, SUB 2: the plane status word at once. -/
def execKdrainPoll (r : RecS) (s : State) : Outcome :=
  sAct s r (.kdrainPoll r) [0] (drainBad r 2) 6 planeArg (fun s c => planeEmit s c r 0 c.p (laneN (portTok c 0).lanes 0))

/-- PLANE_EMPTY (R325, R326): a DRAINING plane that holds no work, or is quiet under a purge, becomes IDLE. -/
def execPlaneEmpty (s : State) : Outcome :=
  let p := s.sel.p
  let k := s.sel.plane
  let x := planeOf s p k
  if x.state ≠ 4 then notNow
  else if planeEmpty s p k then .next (planeIdle s p k)
  else if x.waiters.any (fun w => w.1 == 2) && planeQuiet s p k then .next (planeIdle (planePurge s p k) p k)
  else notNow

/-! ## Snapshots (R327 to R329) -/

/-- A SNAP operand that is not admitted: more than 16 lanes, upper bits set, a site above 239 or moved off the grid. -/
def snapLanesBad (s : State) (c : Cur) : Bool :=
  let ls := (portTok c 0).lanes
  decide (16 < ls.length) ||
    ls.any (fun x => 65536 ≤ x.toNat || 239 < bits x.toNat 15 8 || (shiftDest s c (x.toNat % 65536)).isNone)

/-- SNAP (R329): with a snapshot open it waits. -/
def execSnap (r : RecS) (s : State) : Outcome :=
  sAct s r (.snap r) [0] (r.sub != 0 || r.cf != 0 || bits r.obj.toNat 31 24 != 0 || r.obj.toNat % 65536 == 0) 6
    (fun s c => if snapLanesBad s c then some cILLEGAL else none)
    (fun s c =>
      let pn := panelAt s c.p
      let q := pn.snapWait ++ [(c, r)]
      if pn.snap.isSome then setPanel s c.p { pn with snapWait := q } else openSnaps c.p q s)

/-- Destinations to which a node forwards a marker: D0 and D1 where EMIT is always, and where the format sends results
there (R327; 08 R168; 12 R262; 16 R333, R335). -/
def markerDests (w : Rec96) : List Dest :=
  let op := opOf w
  let k := ctlOf w
  let noD0 := op == 0xCA
  let noD1 := noD0 || (decide (0x80 ≤ op) && decide (op < 0xA0)) || objectOp op || op == 0xC8
  (if k.emit0 = 0 ∧ !noD0 then [dest0Of w] else []) ++ (if k.emit1 = 0 ∧ !noD1 then [dest1Of w] else [])

/-- A node forwards a marker, once for each snapshot. -/
def forwardMarker (s : State) (p site : Nat) (t : Token) (w : Rec96) : State :=
  let n := nibAt s p site
  let s := setNib s p site { n with forwarded := n.forwarded ++ [(t.plane.toNat, t.node.toNat, laneN t.lanes 0)] }
  (markerDests w).foldl (fun s (d : Dest) =>
    sendTok s p site { t with site := if d.site = 254 then BitVec.ofNat 8 site else d.site, node := d.node, port := d.port }) s

/-- A SINK counts a marker of the open snapshot; with the last the SNAP emits DONE and the next one opens. -/
def countMarker (s : State) (p id : Nat) : State :=
  match (panelAt s p).snap with
  | none => s
  | some sn =>
    if sn.id ≠ id then s
    else if sn.count + 1 < sn.want then setPanel s p { panelAt s p with snap := some { sn with count := sn.count + 1 } }
    else
      let s := snapEmit (setPanel s p { panelAt s p with snap := none }) sn.cur sn.r 0 id
      openSnaps p (panelAt s p).snapWait s

/-- A join marks the port of a marker; with every port marked it forwards, releases what it holds, and clears. -/
def joinMarker (s : State) (p site : Nat) (t : Token) (w : Rec96) : State :=
  let n := nibAt s p site
  let me := fun (q : Nat) => (t.plane.toNat, t.node.toNat, q)
  let n' := { n with marks := if n.marks.contains (me t.port.toNat) then n.marks else n.marks ++ [me t.port.toNat] }
  if (portsOf w).all (fun q => n'.marks.contains (me q)) then
    let s := forwardMarker (setNib s p site { n' with marks := n'.marks.filter (fun m => !(m.1 == t.plane.toNat && m.2.1 == t.node.toNat)) })
      p site t w
    releaseHeld s p site (fun x => x.plane == t.plane && x.node == t.node)
  else setNib s p site n'

/-- MARKER_ARRIVAL (R327): marker `k` in transit reaches its node. A well discards it with ILLEGAL_OP (01 R17). -/
def execMarkerArrival (s : State) : Outcome :=
  match s.transit[s.sel.k]? with
  | none => notNow
  | some f =>
    if f.queued || !f.tok.snap || behindOwn s s.sel.k f || entryLate s f then notNow
    else
      let t := f.tok
      let p := f.p
      let site := t.site.toNat
      let s1 := noteTook { s with transit := dropAt s.transit s.sel.k } f
      let id := laneN t.lanes 0
      let n := nibAt s p site
      let w := recAt s p site t.plane.toNat t.node.toNat
      if isWell site then .next (discardTok s1 p site t)
      else if !isNib site || (panelAt s p).deadSnaps.contains id || n.forwarded.contains (t.plane.toNat, t.node.toNat, id) then .next s1
      else if !admits s p t.tag then .next (postTok s1 p site cTAG t)
      else if !planeRuns s p t.plane.toNat || !(portsOf w).contains t.port.toNat then .next (discardTok s1 p site t)
      else if opOf w = 0x22 then .next (countMarker s1 p id)
      else if (portsOf w).length = 1 then
        (if 8 < queueLen s p site + (markerDests w).length then notNow else .next (forwardMarker s1 p site t w))
      else if 8 < queueLen s p site + (markerDests w).length then notNow
      else .next (joinMarker s1 p site t w)

/-- SNAP_TIMEOUT (R328): an open snapshot whose timeout has run out is aborted, in the scribe's name. -/
def execSnapTimeout (s : State) : Outcome :=
  let p := s.sel.p
  match (panelAt s p).snap with
  | none => notNow
  | some sn =>
    match sn.deadline with
    | none => notNow
    | some d => if s.cycle < d then notNow else .next (snapAbort s p 240)

/-! ## Launches: stage, flip, block 0 (14 R311, R314) -/

/-- The plane holds the launch's kernel panel `i`, staged or idle, at shift (0, 0) (14 R310). -/
def holdsKernel (s : State) (p k : Nat) (obj kidx i ctx : Nat) : Bool :=
  let x := planeOf s p k
  (x.state == 2 || x.state == 5) && x.obj == obj && x.kidx == kidx && x.kpanel == i && x.dx == 0 && x.dy == 0 && x.ctx == ctx

/-- OBJ, KIDX and arguments of a launch record (14 R306). -/
def launchObj (ws : List Word64) : Nat := (ws.getD 0 0).toNat % 2 ^ 56
def launchKidx (ws : List Word64) : Nat := bits (ws.getD 1 0).toNat 63 48

def setLaunch (s : State) (x : Launch) : State :=
  { s with launches := s.launches.map (fun y => if y.id = x.id then x else y) }

/-- A launch fails: its colours go back and it is to complete with a status. -/
def launchFail (s : State) (x : Launch) (status : Nat) : State :=
  let cs := groupColours s x.part x.gid
  let s := if x.gid = 0 then s else { cs.foldl (fun s c => setColour s x.part c {}) s with groups := tdel s.groups x.gid }
  let s := { s with draws := s.draws.filter (fun d => d.launch != some x.id) }
  setLaunch s { x with stage := 3, status := status, flags := 0 }

/-- Stage what is not staged (14 R311). -/
def launchStage (s : State) (x : Launch) : State :=
  iter s x.panels.length (fun s i =>
    let p := x.panels.getD i 0
    let k := x.planes.getD i 0
    if holdsKernel s p k (launchObj x.words) (launchKidx x.words) i x.ctx then s
    else stageStart s p k x.ctx (launchObj x.words) (launchKidx x.words) i 0 0 (fun j => x.panels.getD j 0))

/-- The logging step (14 R314). -/
def launchLog (s : State) (x : Launch) : State :=
  let q := queueAt s x.q
  let past := (x.seq + 2 ^ 32 - q.markseq) % 2 ^ 32
  if q.log = 0 ∨ q.logbreak ∨ past = 0 ∨ 2 ^ 31 ≤ past then s
  else if bit x.kflags 0 ∧ q.logn < 2 ^ q.llsz then
    setQueue (physStore s x.ctx (q.log + 64 * q.logn) (wordBytes x.words)) x.q { q with logn := q.logn + 1 }
  else setQueue s x.q { q with logbreak := true }

/-- The scribe of kernel panel `i` is to enter block 0 under the launch's first colour. -/
def launchEnter (s : State) (x : Launch) (i : Nat) : State :=
  let p := x.panels.getD i 0
  let sc := scribeAt s p
  let q := (List.range 4).foldl (fun (t : Tab Word64) k => tsetD t k (x.words.getD (4 + k) 0) 0) []
  setScribe s p { sc with
    q := tsetD (tsetD q 4 (BitVec.ofNat 64 i) 0) 5 (BitVec.ofNat 64 x.seq) 0
    stack := [], btag := BitVec.ofNat 64 (put x.leader 52), next := 0, resting := false }

/-- A launch that waits to flip or to enter block 0 goes on as far as it can. -/
def launchGo (s : State) (id : Nat) : State :=
  match s.launches.find? (fun x => x.id == id) with
  | none => s
  | some x =>
    if x.stage ≠ 1 then s
    else
      let pl := fun (i : Nat) => planeOf s (x.panels.getD i 0) (x.planes.getD i 0)
      if x.todo.any (fun i => (pl i).state == 6) then launchFail s x 2
      else if x.todo.isEmpty then
        (if x.panels.any (fun p => (scribeAt s p).cur.isSome || !(scribeAt s p).waitFlip.isEmpty || (panelAt s p).flip.isSome) then s
         else iter (launchLog (setLaunch s { x with stage := 2 }) x) x.panels.length (fun s i => launchEnter s x i))
      else
        x.todo.foldl (fun s i =>
          let p := x.panels.getD i 0
          let k := x.planes.getD i 0
          let st := (planeOf s p k).state
          if (st = 2 ∨ st = 5) ∧ (panelAt s p).flip.isNone then
            setPanel s p { panelAt s p with flip := some { target := k, ask := none, born := s.cycle } }
          else s) s

/-- All launches go on. -/
def launchesGo (s : State) : State := s.launches.foldl (fun s x => launchGo s x.id) s

/-- STAGE_COMPLETE (R321, R322): the plane becomes STAGED, or INVALID with its FAIL code. -/
def execStageComplete (s : State) : Outcome :=
  let p := s.sel.p
  let k := s.sel.plane
  let x := planeOf s p k
  if x.state ≠ 1 then notNow
  else if x.verdict = 0 then
    .next (launchesGo (planeAnswer (setPlane (loadStores s p k) p k { x with state := 2, image := [], blockImage := [] }) p k
      (fun n => n == 0) 0))
  else .next (launchesGo (planeAnswer (setPlane s p k { x with state := 6, fail := x.verdict, verdict := 0 }) p k (fun n => n == 0) 2))

/-- After a flip has been taken or has failed: what waits on a rule table is tried again, and sends that waited leave the scribe
(R324). -/
def flushFlip (s : State) (p : Nat) : State :=
  let s := iter s 8 (fun s t => ruleSettle p t (tableAt s p t).waiters.length s)
  let sc := scribeAt s p
  let s := setScribe s p { sc with waitFlip := [], waitScales := [] }
  let s := sc.waitFlip.foldl (fun s t => sendLate s p t) s
  match (panelAt s p).inj with
  | some k => { s with scaleNet := s.scaleNet ++ sc.waitScales.map (fun x => { p := p, tok := { x with plane := k } }) }
  | none => sc.waitScales.foldl (fun s x => portDrop s p cILLEGAL x) s

/-- FLIP_TAKES_EFFECT (R324): the flip of a panel is taken, or fails with FAIL 6 or 7. -/
def execFlipTakesEffect (s : State) : Outcome :=
  let p := s.sel.p
  match (panelAt s p).flip with
  | none => notNow
  | some f =>
    let (s1, ok) := flipNow (setPanel s p { panelAt s p with flip := none }) p f.target
    let s2 := match f.ask with
      | some (c, r) => planeEmit s1 c r (if ok then 0 else 2) p f.target
      | none =>
        if ok then
          { s1 with launches := s1.launches.map (fun x =>
            if x.stage = 1 then
              { x with todo := x.todo.filter (fun i => !(x.panels.getD i 0 == p && x.planes.getD i 0 == f.target)) }
            else x) }
        else s1
    .next (launchesGo (flushFlip s2 p))

/-! ## Draws served (R333; 14 R311) -/

/-- COLOUR_DRAW (R333): draw `k` is served: a SPAWN's group sends its arguments, a launch stages its kernel. -/
def execColourDraw (s : State) : Outcome :=
  match drawNow s s.sel.k with
  | none => notNow
  | some (d, cs) =>
    let s1 := { s with draws := dropAt s.draws s.sel.k, pointUsed := tput s.pointUsed 0 (s.cycle + 1) }
    match d.spawn, d.launch with
    | some (c, r), _ => .next (drawSpawn s1 d cs c r)
    | none, some id =>
      (match s.launches.find? (fun x => x.id == id) with
       | none => .next s1
       | some x =>
         let gid := s.fresh + 1
         let s2 := openGroup { s1 with fresh := gid } d.part d.ctx cs gid (max 1 (min x.width (widthLimit s d.part))) 0 0 0 0 0xFF00
           (some id)
         let x' := { x with stage := 1, gid := gid, leader := cs.getD 0 0, todo := List.range x.panels.length }
         .next (launchGo (launchStage (setLaunch s2 x') x') id))
    | none, none => .next s1

end Sys2Proof.Machine
end

