-- ==== Sys2Proof/Machine/Barrier.lean ====
section
/-!
DEFINITION. Barriers (17 R344 to R356): BINIT, BARRIVE, BWAIT, BDROP, BTEST, the watch and completion notices.
-/
namespace Sys2Proof.Machine

/-! ## Records that act at once at a nib, and at commit in a block (R353) -/

/-- The firing of a format S record that stands at nibs and at the scribe and whose request leaves at commit in a block. -/
def bAct (s : State) (r : RecS) (i : Instr) (base : List Nat) (bad : Bool) (ty : BitVec 4) (chk : State → Cur → Option Nat)
    (act : State → Cur → State) : Outcome :=
  sFire s r base bad true ty (fun s c =>
    match chk s c with
    | some k => faultCur s c k 0
    | none => if inBlock s ∧ !c.late then holdEff s i else act s c)

/-! ## Names and members (R345, R347) -/

/-- Home die of the barrier that OBJ names, and its index. -/
def barDie (r : RecS) (p : Nat) : Nat := if bits r.obj.toNat 13 12 = 3 then dieOf p else bits r.obj.toNat 13 12
def barIdx (r : RecS) : Nat := bits r.obj.toNat 11 0

/-- Reserved bits of OBJ and CF. -/
def barBad (r : RecS) (sub : BitVec 8) : Bool := r.sub != sub || r.cf != 0 || bits r.obj.toNat 31 14 != 0

/-- The scope admits a panel as a member. -/
def barMember (b : Barrier) (die p : Nat) : Bool :=
  match b.scope with
  | 1 => p == b.anchor
  | 2 => dieOf p == die
  | _ => true

/-- A record asks the barrier point of its barrier's die (R344). -/
def askBar (s : State) (r : RecS) (i : Instr) (c : Cur) : State := askPoint s (1 + barDie r c.p) (barDie r c.p) i c

/-- The cause of a request that the point turns away: a FREE barrier, another context's, a panel that is no member. -/
def barCause (s : State) (r : RecS) (c : Cur) (member : Bool) : Option Nat :=
  let die := barDie r c.p
  let b := barrierAt s die (barIdx r)
  if b.state = 0 then some cILLEGAL
  else if b.ctx ≠ matchCtx s c.p c.plane c.tag then some cPERMISSION
  else if member && !barMember b die c.p then some cILLEGAL
  else none

/-- Act on a barrier that admits the request. -/
def withBarrier (s : State) (r : RecS) (c : Cur) (member : Bool) (act : State → Nat → Nat → Barrier → State) : State :=
  match barCause s r c member with
  | some k => faultCur s c k 0
  | none => act s (barDie r c.p) (barIdx r) (barrierAt s (barDie r c.p) (barIdx r))

/-! ## Phases (R346, R348) -/

/-- Phase `t` is complete. -/
def phaseDone (b : Barrier) (t : Nat) : Bool :=
  let d := (b.nph + 2 ^ 32 - t % 2 ^ 32) % 2 ^ 32
  1 ≤ d && d < 2 ^ 31

/-- complete(): EARLY is at most COUNT, so it calls itself at most once. -/
def barComplete : Nat → Barrier → Barrier
  | 0, b => b
  | n + 1, b =>
    let b := { b with nph := (b.nph + 1) % 2 ^ 32 }
    if b.early = 0 then { b with state := 2, running := false }
    else
      let b := { b with phase := !b.phase, arr := b.early, early := 0, state := 1, watch := 0, running := true }
      if b.count ≤ b.arr then barComplete n b else b

/-- Completion notices set out to the sites where a BWAIT waits (R350). -/
def barNotify (s : State) (die idx : Nat) : State :=
  { s with notices := s.notices ++
      ((s.nibs.filter (fun x => x.2.waits.any (fun w => w.on == .barrier die idx))).map (fun x =>
        ({ p := x.1 / 256, site := x.1 % 256, die := die, idx := idx, born := s.cycle } : Notice))) }

/-- Store a barrier, and complete its phase when the count is there. -/
def barSettle (s : State) (die idx : Nat) (b : Barrier) : State :=
  if b.count ≤ b.arr then barNotify (setBarrier s die idx (barComplete 2 b)) die idx else setBarrier s die idx b

/-- arrive(e): the barrier after it and the ticket, or `none` for an overrun. -/
def barArrive (b : Barrier) (e : Bool) : Option (Barrier × Nat) :=
  if b.state = 2 then
    if e == b.phase then none
    else some ({ b with phase := e, arr := 1, state := 1, watch := 0, running := true }, b.nph)
  else if e == b.phase then
    some (if b.running ∨ b.state = 3 then { b with arr := b.arr + 1 } else { b with arr := b.arr + 1, watch := 0, running := true }, b.nph)
  else if b.early = b.count then none
  else some ({ b with early := b.early + 1 }, (b.nph + 1) % 2 ^ 32)

/-- An arrival of parity `e` (R348). -/
def arriveAct (s : State) (r : RecS) (c : Cur) (e : Bool) : State :=
  withBarrier s r c true (fun s die idx b =>
    match barArrive b e with
    | none => faultCur s c cOVERRUN (4096 * die + idx)
    | some (b', ticket) =>
      let s := emitRes s c (formS r) 6 (both (ackVal c.tag ticket))
      if b'.state = 2 then setBarrier s die idx b' else barSettle s die idx b')

/-! ## BINIT -/

/-- A BINIT word that is not admitted: COUNT 0, SCOPE outside 1 to 3, reserved bits, or a home that R347 forbids. -/
def binitBad (r : RecS) (c : Cur) : Bool :=
  let v := laneN (portTok c 0).lanes 0
  let sc := bits v 26 24
  v % 65536 == 0 || sc == 0 || decide (3 < sc) || bits v 31 27 != 0 || (decide (sc < 3) && barDie r c.p != dieOf c.p)

/-- BINIT, SUB 0, at its point (R352). -/
def binitServe (r : RecS) (c : Cur) (s : State) : State :=
  let v := laneN (portTok c 0).lanes 0
  let die := barDie r c.p
  if (barrierAt s die (barIdx r)).state ≠ 0 then faultCur s c cILLEGAL 0
  else
    let b : Barrier :=
      { state := 1, scope := bits v 26 24, ctx := matchCtx s c.p c.plane c.tag, count := v % 65536, bwatch := bits v 23 16,
        anchor := c.p }
    emitRes (setBarrier s die (barIdx r) b) c (formS r) 6 (both (ackVal c.tag 0))

/-- BINIT, SUB 0 (R353). -/
def execBinit (r : RecS) (s : State) : Outcome :=
  bAct s r (.binit r) [0] (barBad r 0) 6 (fun _ c => if binitBad r c then some cILLEGAL else none) (fun s c => askBar s r (.binit r) c)

/-- BWAITs that wait on a freed barrier post ILLEGAL_OP (R352). -/
def freeWaiters (s : State) (die idx : Nat) : State :=
  let on := fun (w : Waiting) => w.on == WaitOn.barrier die idx
  let all := s.nibs.flatMap (fun x => (x.2.waits.filter on).map (fun w => (x.1, w.m)))
  let s := { s with nibs := s.nibs.map (fun x => (x.1, { x.2 with waits := x.2.waits.filter (fun w => !on w) })) }
  all.foldl (fun s (x : Nat × Match) =>
    faultCur s { p := x.1 / 256, site := x.1 % 256, plane := x.2.plane, node := x.2.node, tag := x.2.tag, late := x.2.late } cILLEGAL 0) s

/-- BINIT, SUB 1, at its point: a barrier with no arrival, or COMPLETE, becomes FREE. -/
def bfreeServe (r : RecS) (c : Cur) (s : State) : State :=
  withBarrier s r c false (fun s die idx b =>
    if b.state = 2 ∨ (b.state = 1 ∧ b.arr = 0 ∧ b.early = 0) then
      emitRes (freeWaiters (setBarrier s die idx {}) die idx) c (formS r) 6 (both (ackVal c.tag 0))
    else faultCur s c cILLEGAL 0)

/-- BINIT, SUB 1. -/
def execBinitFree (r : RecS) (s : State) : Outcome :=
  bAct s r (.binitFree r) [0] (barBad r 1) 6 noChk (fun s c => askBar s r (.binitFree r) c)

/-! ## BARRIVE, BWAIT, BDROP, BTEST -/

/-- The parity of an arrival: that on port a, or that of a tag level. -/
def arriveParity (s : State) (r : RecS) (c : Cur) (tag : Bool) : Bool :=
  if tag then fld (layoutOf s c.p c.plane) c.tag (bits r.obj.toNat 18 16) % 2 == 1 else laneN (portTok c 0).lanes 0 == 1

/-- BARRIVE, SUB 0: the parity stands on port a. -/
def execBarrive (r : RecS) (s : State) : Outcome :=
  bAct s r (.barrive r) [0] (barBad r 0) 6 (fun _ c => if 1 < laneN (portTok c 0).lanes 0 then some cILLEGAL else none)
    (fun s c => askBar s r (.barrive r) c)

/-- BARRIVE, SUB 1: the parity is that of a tag level. -/
def execBarriveTag (r : RecS) (s : State) : Outcome :=
  bAct s r (.barriveTag r) [0]
    (r.sub != 1 || r.cf != 0 || bits r.obj.toNat 15 14 != 0 || bits r.obj.toNat 31 19 != 0 ||
      decide ((layoutOf s s.cur.p s.cur.plane).length ≤ bits r.obj.toNat 18 16)) 6 noChk
    (fun s c => askBar s r (.barriveTag r) c)

/-- The token of port a, passed on. -/
def passA (c : Cur) : Val :=
  let a := portTok c 0
  { tag := c.tag, ty := a.ty, lanes := a.lanes, eor := a.eor, snap := a.snap }

/-- BWAIT, read at its point, or retested when a notice reaches it (R350, R354): until the phase of its ticket is complete it waits in a
row. -/
def bwaitServe (r : RecS) (c : Cur) (s : State) : State :=
  withBarrier s r c false (fun s die idx b =>
    if phaseDone b (laneN (portTok c 0).lanes 0) then emitRes s c (formS r) 6 (both (passA c))
    else waitOn s c (.barrier die idx))

/-- BWAIT (R353). -/
def execBwait (r : RecS) (s : State) : Outcome :=
  bAct s r (.bwait r) [0] (barBad r 0) 6 noChk (fun s c =>
    if c.again = 1 then bwaitServe r c s else askBar s r (.bwait r) c)

/-- BDROP at its point (R356). -/
def bdropServe (r : RecS) (c : Cur) (s : State) : State :=
  withBarrier s r c true (fun s die idx b =>
    let k := laneN (portTok c 0).lanes 0
    if k = 0 ∨ b.count ≤ k ∨ b.count - k < b.early then faultCur s c cILLEGAL 0
    else
      let b' := { b with count := b.count - k }
      let s := emitRes s c (formS r) 6 (both (ackVal c.tag b'.count))
      if b'.state = 2 then setBarrier s die idx b' else barSettle s die idx b')

/-- BDROP. -/
def execBdrop (r : RecS) (s : State) : Outcome :=
  bAct s r (.bdrop r) [0] (barBad r 0) 6 noChk (fun s c => askBar s r (.bdrop r) c)

/-- The two words of a barrier (R346). -/
def barWords (b : Barrier) : List Nat :=
  [put b.state 61 + put (b2n b.phase) 60 + put b.scope 57 + put b.ctx 48 + put b.count 32 + put b.arr 16 + b.early,
   put b.bwatch 56 + put b.anchor 50 + b.nph]

/-- BTEST, SUB 0, at its point: the state. -/
def btestServe (r : RecS) (c : Cur) (s : State) : State :=
  withBarrier s r c false (fun s _ _ b => emitRes s c (formS r) 7 (both { tag := c.tag, ty := 7, lanes := wordsLanes (barWords b) }))

/-- BTEST, SUB 0. -/
def execBtest (r : RecS) (s : State) : Outcome :=
  bAct s r (.btest r) [0] (barBad r 0) 7 noChk (fun s c => askBar s r (.btest r) c)

/-- BTEST, SUB 1, at its point: whether a ticket's phase is complete. -/
def ticketServe (r : RecS) (c : Cur) (s : State) : State :=
  withBarrier s r c false (fun s _ _ b =>
    emitRes s c (formS r) 6 { both (passA c) with cond := phaseDone b (laneN (portTok c 0).lanes 0) })

/-- BTEST, SUB 1. -/
def execBtestTicket (r : RecS) (s : State) : Outcome :=
  bAct s r (.btestTicket r) [0] (barBad r 1) 6 noChk (fun s c => askBar s r (.btestTicket r) c)

/-! ## What the points serve (R344; 16 R331) -/

/-- A request is served. -/
def pointAct (i : Instr) (c : Cur) (s : State) : State :=
  match i with
  | .ret r => retServe r c s
  | .callocGrant r => grantServe r c s
  | .callocEntry r => entryServe r c s
  | .packc _ => packServe c s
  | .binit r => binitServe r c s
  | .binitFree r => bfreeServe r c s
  | .bdrop r => bdropServe r c s
  | .barrive r => arriveAct s r c (arriveParity s r c false)
  | .barriveTag r => arriveAct s r c (arriveParity s r c true)
  | .bwait r => bwaitServe r c s
  | .btest r => btestServe r c s
  | .btestTicket r => ticketServe r c s
  | _ => s

/-- The request that comes first at a point, by its place. -/
def pointFirst (s : State) (point : Nat) : Option Nat :=
  ((List.range s.points.length).foldl (fun (best : Option (Nat × PReq)) k =>
    match s.points[k]?, best with
    | some x, none => if x.point = point then some (k, x) else none
    | some x, some b => if x.point = point ∧ lexBefore (pointKey x) (pointKey b.2) then some (k, x) else best
    | none, _ => best) none).map (·.1)

/-- What a point serves in a cycle: one request, and the reads that come before the next. The colour point leaves its turn to a draw that
comes first. -/
def pointGo (point : Nat) : Nat → State → State
  | 0, s => s
  | n + 1, s =>
    match (pointFirst s point).bind (fun k => (s.points[k]?).map (fun x => (k, x))) with
    | none => s
    | some (k, x) =>
      let s1 := { s with points := dropAt s.points k }
      if x.kind = 3 then pointGo point n (pointAct x.i x.cur s1)
      else if tgetD s.pointUsed point 0 = s.cycle + 1 ∨ (point = 0 ∧ drawBefore s (pointKey x)) then s
      else pointGo point n (pointAct x.i x.cur { s1 with pointUsed := tput s.pointUsed point (s.cycle + 1) })

/-- What the colour point and the three barrier points serve in a cycle. -/
def pointsGo (s : State) : State := (List.range 4).foldl (fun s point => pointGo point s.points.length s) s

/-! ## The watch and the notices (R349, R350) -/

/-- A context whose time counts: RESIDENT, and no park of it in progress (13 R288). -/
def ctxRuns (s : State) (ctx : Nat) : Bool := (ctxAt s ctx).state == 3 && !(s.parks.any (fun x => x.ctx == ctx))

/-- One cycle of a watch. -/
def watchTick (s : State) (b : Barrier) : Barrier :=
  if b.running && b.state == 1 && ctxRuns s b.ctx then { b with watch := b.watch + 1 } else b

/-- BARRIER_WATCH_EXPIRY (R349): the barrier becomes STARVED, posted once for the phase to the mailbox of its ANCHOR. -/
def execBarrierWatchExpiry (s : State) : Outcome :=
  let die := s.sel.die
  let idx := s.sel.num
  let b := barrierAt s die idx
  if b.state ≠ 1 ∨ b.bwatch = 0 ∨ b.watch < b.bwatch * 1024 then notNow
  else
    let e : MbEntry := { cause := cSTARVED, addr := 4096 * die + idx, site := 240, panel := b.anchor, ctx := b.ctx, outer := true }
    .next (post (setBarrier s die idx { b with state := 3 }) e)

/-- BARRIER_NOTICE (R350): notice `k` reaches its site, where waiting BWAITs are retested. -/
def execBarrierNotice (s : State) : Outcome :=
  match s.notices[s.sel.k]? with
  | none => notNow
  | some x =>
    let s := { s with notices := dropAt s.notices s.sel.k }
    .next (setNib s x.p x.site (wakeNib s.cycle (fun w => w.on == .barrier x.die x.idx) (nibAt s x.p x.site)))

end Sys2Proof.Machine
end

