-- ==== Sys2Proof/Machine/Expert.lean ====
section
/-!
DEFINITION. Routed experts: CMPFWD and RANKADM (12 R277, R278).
-/
namespace Sys2Proof.Machine

/-- Rank of a score: NaN lowest, −0.0 below +0.0. -/
def scoreKey (f : BitVec 4) (v : Nat) : Option Int := if isNanV (fread f v) then none else some (fltKey f v)

/-- Score `x` of index `i` ranks above score `y` of index `j`: higher score, then lower index (R277, R278). -/
def ranksAbove (f : BitVec 4) (x i y j : Nat) : Bool :=
  match scoreKey f x, scoreKey f y with
  | some a, some b => decide (b < a) || (a == b && decide (i < j))
  | some _, none => true
  | none, some _ => false
  | none, none => decide (i < j)

/-! ## CMPFWD (R277) -/

/-- The exclusion mask of a candidate. -/
def candMask (t : List Lane) : Nat := laneN t 2 + laneN t 3 * 2 ^ 32

def excluded (t : List Lane) : Bool := decide (laneN t 1 < 64) && bit (candMask t) (laneN t 1)

/-- Candidate a wins. -/
def aWins (f : BitVec 4) (a b : List Lane) : Bool :=
  if excluded a != excluded b then excluded b
  else !(ranksAbove f (elem f b 0) (laneN b 1) (elem f a 0) (laneN a 1))

/-- A candidate with the joined mask. -/
def withMask (f : BitVec 4) (t : List Lane) (m : Nat) : List Lane :=
  [BitVec.ofNat 32 (elem f t 0), t.getD 1 0] ++ wordsLanes [m]

/-- CMPFWD: the winner to d0, the winner or the loser to d1. -/
def execCmpfwd (r : RecN) (s : State) : Outcome :=
  fire s (formN r) r.fmt [0, 1]
    (bad3 true false (isFloatTy r.fmt) r || r.lit != 0 || r.ctl.lituse != 0) false (fun c =>
    let a := (portTok c 0).lanes
    let b := (portTok c 1).lanes
    if a.length ≠ 4 ∨ b.length ≠ 4 then { fault := some cILLEGAL }
    else
      let m := Nat.lor (candMask a) (candMask b)
      let w := aWins r.fmt a b
      let mk : List Lane → Val := fun ls =>
        { tag := c.tag, ty := r.fmt, lanes := maskLanes (lanePred r.ctl c) a (withMask r.fmt ls m) }
      { cond := w
        v0 := some (mk (if w then a else b))
        v1 := some (mk (if opx r == w then b else a))
        flags := flagIf (isSnan (fread r.fmt (elem r.fmt a 0)) || isSnan (fread r.fmt (elem r.fmt b 0))) fNV })

/-! ## RANKADM (R278) -/

/-- Capacity C. -/
def rankCap (r : RecN) : Nat := r.lit.toNat % 65536

/-- A field that is not admitted. -/
def badRank (s : State) (r : RecN) : Bool :=
  !isFloatTy r.fmt || r.hi != 0 || r.cf != 0 || r.ctl.lituse != 0 || rankCap r == 0 || decide (32 < rankCap r) ||
    r.lit.toNat / 2 ^ 19 != 0 || decide ((layoutOf s s.cur.p s.cur.plane).length ≤ bits r.lit.toNat 18 16)

/-- Candidate `x` ranks above candidate `y`. -/
def candAbove (f : BitVec 4) (x y : Token) : Bool :=
  ranksAbove f (elem f x.lanes 0) (laneN x.lanes 1) (elem f y.lanes 0) (laneN y.lanes 1)

/-- The sends of an admitted (cond true) or rejected candidate, under its own tag. -/
def candSends (f : Form) (ty : BitVec 4) (admitted : Bool) (t : Token) : List Send :=
  let v : Val := { tag := t.tag, ty := ty, lanes := t.lanes }
  destSends f.d0 f.ctl.emit0 t.poison admitted false v (some v) ++
    destSends f.d1 f.ctl.emit1 t.poison admitted false v (some v)

/-- The rank table of a base, an empty one if there is none. -/
def rankTable (n : Nib) (plane node : Nat) (base : Word64) : RankTable :=
  (n.ranks.find? (fun r => r.plane == plane && r.node == node && r.base == base)).getD
    { plane := plane, node := node, base := base, counted := 0, entries := [] }

/-- The tables with one replaced. -/
def putRank (n : Nib) (x : RankTable) : Nib :=
  { n with ranks := n.ranks.filter (fun r => !(r.plane == x.plane && r.node == x.node && r.base == x.base)) ++ [x] }

/-- A candidate is ranked: the table after it, and the candidate rejected, if any; `none` for a tie. -/
def rankIn (r : RecN) (tb : RankTable) (x : Token) : Option (RankTable × Option Token) :=
  if tb.entries.any (fun e => !(candAbove r.fmt e x) && !(candAbove r.fmt x e)) then none
  else
    let all := insBy (candAbove r.fmt) x tb.entries
    if tb.entries.length < rankCap r then some ({ tb with counted := tb.counted + 1, entries := all }, none)
    else some ({ tb with counted := tb.counted + 1, entries := all.take (rankCap r) }, (all.drop (rankCap r)).head?)

/-- RANKADM_CANDIDATE. A candidate that is null, or whose predicate is null or false, is counted as a null. -/
def execRankadmCandidate (r : RecN) (s : State) : Outcome :=
  let c := s.cur
  let ps := portSet [0] r.ctl
  let x := { portTok c 0 with tag := c.tag }
  if !hasPorts c ps then .refused .noMatch
  else if badRank s r || (r.ctl.pred && r.ctl.lituse == 2) || anyBlock c ps then
    .next (faultCur s c cILLEGAL 0)
  else
    let base := baseTag s c.p c.plane c.tag (bits r.lit.toNat 18 16)
    let n := nibAt s c.p c.site
    let tb := rankTable n c.plane c.node base
    if anyNull c ps || predFalse r.ctl c then
      let s1 := setNib s c.p c.site (putRank n { tb with counted := tb.counted + 1 })
      .next (if r.ctl.nullpass then
        sendAll s1 c (destSends r.d1 r.ctl.emit1 false true false (nullVal c r.fmt) (some (nullVal c r.fmt))) else s1)
    else
      match rankIn r tb x with
      | none => .next (faultCur s c cILLEGAL 0)
      | some (tb', out) =>
        let s1 := setNib s c.p c.site (putRank n tb')
        .next (match out with
          | some y => sendAll s1 c (candSends (formN r) r.fmt false y)
          | none => s1)

/-- RANKADM_BATCH_COMPLETE: the count in sticky row `k` has been reached; the entries leave, highest first, and the
table and the count are freed. A block-typed count is faulty: it frees both, and nothing leaves (03 R80). -/
def execRankadmBatchComplete (s : State) : Outcome :=
  let p := s.sel.p
  let site := s.sel.site
  let n := nibAt s p site
  match n.sticky[s.sel.k]? with
  | none => notNow
  | some e =>
    match decode (recAt s p site e.plane e.node) with
    | .ok (.rankadmCandidate r) =>
      let tb := rankTable n e.plane e.node e.base
      let nn := if e.tok.null then 0 else laneN e.tok.lanes 0
      let bad := isBlockTy e.tok.ty && !e.tok.null
      if !bad && decide (tb.counted < nn) then notNow
      else
        let c : Cur := { p := p, site := site, plane := e.plane, node := e.node, tag := e.tok.tag }
        let n' := { n with
          ranks := n.ranks.filter (fun x => !(x.plane == e.plane && x.node == e.node && x.base == e.base)) }
        let s1 := freeSticky (setNib s p site n') p site e.plane e.node e.base
        .next (if bad then faultCur s1 c cILLEGAL 0 else sendAll s1 c (tb.entries.flatMap (candSends (formN r) r.fmt true)))
    | _ => notNow

end Sys2Proof.Machine
end

