-- ==== Sys2Proof/Machine/Queue.lean ====
section
/-!
DEFINITION. The queue (14 R301 to R316): the queue point, launch windows and control lines, what a clicker checks at a
head, where it places a kernel, completion, and QPUT, QTAKE, QSTAT and QMARK.
-/
namespace Sys2Proof.Machine

/-! ## The queue point (R303) -/

def sat32 (n : Nat) : Nat := min n 0xFFFFFFFF

/-- Free record slots (R304); a FREE queue has none (log 33). -/
def qFree (x : Queue) : Nat := if x.state = 0 then 0 else 2 ^ x.lsz - x.recs.length

/-- A write that is dropped and counted. -/
def countBad (s : State) (q : Nat) : State := setQueue s q { queueAt s q with bad := sat32 ((queueAt s q).bad + 1) }

/-- Address of the record slot and of the completion slot of a sequence number (R301). -/
def recSlot (x : Queue) (seq : Nat) : Nat := x.ring + 64 * (seq % 2 ^ x.lsz)
def cplSlot (x : Queue) (seq : Nat) : Nat := x.cpl + 16 * (seq % 2 ^ x.lsz)

/-- The eight words of the record with a sequence number, as they stand in the ring. -/
def ringWords (s : State) (q seq : Nat) : List Word64 :=
  let bs := homeRead s (homeForm (recSlot (queueAt s q) seq)) 64
  (List.range 8).map (fun k => BitVec.ofNat 64 (leAt bs (8 * k) 8))

/-- A whole-line append: the status of R316 and the sequence number. -/
def queueAppend (s : State) (q : Nat) (ws : List Word64) : State × Nat × Nat :=
  let x := queueAt s q
  if x.state = 0 then (countBad s q, 2, 0)
  else if qFree x = 0 then (setQueue s q { x with drops := sat32 (x.drops + 1), overflow := true }, 1, 0)
  else
    let seq := (x.appseq + 1) % 2 ^ 32
    let s := physStore s noCtx (recSlot x seq) (wordBytes ((List.range 8).map (fun k => ws.getD k 0)))
    let s := setQueue s q { queueAt s q with appseq := seq, recs := x.recs ++ [seq] }
    (wakeAll s (fun w => w == .queue q), 0, seq)

/-- Order of two requests that reach the queue points: by cycle; within one a host write, then QPUTs, then the rest, each in ascending
panel (R303, R316). -/
def qRank (x : QReq) : Nat × Nat :=
  match x.what with
  | .line _ _ => (0, 0)
  | .inst e => (match e.i with
    | .qput _ => 1
    | _ => 2, e.cur.p)

def qBefore (x y : QReq) : Bool :=
  decide (x.born < y.born) || (x.born == y.born && (decide ((qRank x).1 < (qRank y).1) ||
    ((qRank x).1 == (qRank y).1 && decide ((qRank x).2 < (qRank y).2))))

/-- A request reaches a queue point. -/
def toPoint (s : State) (q : Nat) (w : QWhat) : State :=
  { s with qreqs := insBy qBefore { q := q, born := s.cycle, what := w } s.qreqs }

/-! ## Status (R304) -/

/-- Words 0 to 3 of the status line. -/
def statusWords (x : Queue) : List Nat :=
  [put x.state 61 + put (b2n x.overflow) 16 + qFree x, put x.appseq 32 + x.cplseq, put x.drops 32 + x.bad,
   put x.markseq 32 + put (b2n x.logbreak) 29 + x.logn]

/-! ## Completion (R313) -/

/-- CPLSEQ advances over every record whose completion is contiguous. -/
def cplAdvance : Nat → Nat → List Nat → Nat × List Nat
  | 0, c, fin => (c, fin)
  | n + 1, c, fin =>
    if fin.contains ((c + 1) % 2 ^ 32) then cplAdvance n ((c + 1) % 2 ^ 32) (fin.filter (fun x => x != (c + 1) % 2 ^ 32)) else (c, fin)

/-- A record counts toward CPLSEQ. -/
def countSeq (x : Queue) (seq : Nat) : Queue :=
  let r := cplAdvance (x.fin.length + 1) x.cplseq (x.fin ++ [seq])
  { x with cplseq := r.1, fin := r.2 }

/-- A queue with no launched record incomplete: STOPPING becomes STOPPED, or FREE under RESET (R315). -/
def queueRest (x : Queue) : Queue :=
  if x.running.isEmpty then
    if x.resetting then { x with state := 0, resetting := false, recs := [] }
    else if x.state = 3 then { x with state := 1 }
    else x
  else x

/-- The completion record of a sequence number is written, CPLSEQ advances, and MSI-X is raised under IRQ. -/
def completeRec (s : State) (q seq : Nat) (irq : Bool) (status : Nat) (flags : BitVec 5) (cycles : Nat) : State :=
  let x := queueAt s q
  let ws : List Word64 :=
    [BitVec.ofNat 64 (put seq 32 + put (if status = 0 then flags.toNat else 0) 8 + status),
     BitVec.ofNat 64 (min cycles (2 ^ 64 - 1))]
  let s := physStore s noCtx (cplSlot x seq) (wordBytes ws)
  let y := queueAt s q
  let s := setQueue s q (queueRest { countSeq y seq with running := y.running.filter (fun n => n != seq) })
  if irq then { s with out := s.out ++ [.msix x.part x.msiv] } else s

/-- A record completes at the head without launching (R306). -/
def completeHead (s : State) (q seq : Nat) (irq : Bool) (status : Nat) : State :=
  let x := queueAt s q
  completeRec (setQueue s q { x with recs := x.recs.filter (fun n => n != seq) }) q seq irq status 0 0

/-- LAUNCH_COMPLETION (R313): launch `k`, whose colours have all retired or that failed or was aborted. -/
def execLaunchCompletion (s : State) : Outcome :=
  match s.launches[s.sel.k]? with
  | none => notNow
  | some x =>
    if x.stage ≠ 3 then notNow
    else
      let s1 := { s with launches := dropAt s.launches s.sel.k }
      let live := fun (i : Nat) => (planeOf s (x.panels.getD i 0) (x.planes.getD i 0)).ctx == x.ctx && x.status != 3
      let s2 := iter s1 x.panels.length (fun s i => if live i then planeDrain s (x.panels.getD i 0) (x.planes.getD i 0) else s)
      .next (completeRec s2 x.q x.seq (bit (x.words.getD 1 0).toNat 36) x.status x.flags (s.cycle - x.born))

/-! ## Control lines (R302, R305, R315) -/

/-- Successive memory ranges cover an interval. -/
def covered (rs : List (Nat × Nat)) : Nat → Nat → Nat → Bool
  | 0, _, _ => false
  | n + 1, a, e =>
    if e ≤ a then true
    else match rs.find? (fun r => r.1 ≤ a && a < r.1 + r.2) with
      | some r => covered rs n (r.1 + r.2) e
      | none => false

/-- A range of this part's memory: it names bytes (04 R98), and none of the queue aperture. -/
def ownRange (s : State) (pa n : Nat) : Bool :=
  let l := pa % 2 ^ 42
  ownDev s pa && (bits pa 43 42 == 3 && decide (l + n ≤ 2 ^ 42) ||
    bits pa 43 42 != 3 && decide (l + n ≤ if bits pa 43 42 = 0 then 0x2FFFFF00000 else 3 * 2 ^ 40))

/-- A range in the memory ranges of a partition (R305): partition 0's are all device memory. -/
def partRange (s : State) (part pa n : Nat) : Bool :=
  ownRange s pa n &&
    (part == 0 ||
      (let rs := tgetD s.hdm part []
       covered rs (rs.length + 1) (pa % 2 ^ 44) (pa % 2 ^ 44 + n)))

/-- A function reaches the window of a queue: the physical function reaches each; another reaches those in its HDM
range, of queues that no other partition owns (R302, R417). -/
def reachesWindow (s : State) (fn q : Nat) : Bool :=
  fn == 0 ||
    ((tgetD s.hdm fn []).any (fun r => decide (r.1 % 2 ^ 44 ≤ 0x2FFFFF00000 + 4096 * q) &&
        decide (0x2FFFFF00000 + 4096 * q + 4096 ≤ r.1 % 2 ^ 44 + r.2)) &&
      ((queueAt s q).state == 0 || (queueAt s q).part == fn))

/-- Fields of a control line. -/
def lineCmd (ws : List Word64) : Nat := bits (ws.getD 0 0).toNat 63 60
def linePart (fn : Nat) (ws : List Word64) : Nat := if fn = 0 then bits (ws.getD 2 0).toNat 63 56 else fn
def lineAddr (ws : List Word64) (k : Nat) : Nat := (ws.getD k 0).toNat % 2 ^ 56

/-- A CONFIG line that is rejected for what it holds. -/
def configBad (s : State) (fn : Nat) (ws : List Word64) : Bool :=
  let part := linePart fn ws
  let lsz := bits (ws.getD 0 0).toNat 59 56
  let llsz := bits (ws.getD 3 0).toNat 47 40
  let log := lineAddr ws 2
  bits (ws.getD 1 0).toNat 63 56 != 0 || (ws.getD 3 0).toNat % 2 ^ 40 != 0 ||
    (List.range 4).any (fun k => ws.getD (4 + k) 0 != 0) || decide (64 < part) || decide (12 < lsz) || decide (20 < llsz) ||
    lineAddr ws 0 % 4096 != 0 || lineAddr ws 1 % 4096 != 0 || log % 4096 != 0 ||
    !partRange s part (lineAddr ws 0) (64 * 2 ^ lsz) || !partRange s part (lineAddr ws 1) (16 * 2 ^ lsz) ||
    (log != 0 && !partRange s part log (64 * 2 ^ llsz))

/-- CONFIG. -/
def doConfig (s : State) (fn q : Nat) (ws : List Word64) : State :=
  let x := queueAt s q
  if (x.state = 0 ∨ (x.state = 1 ∧ x.recs.isEmpty)) ∧ !configBad s fn ws then
    let y : Queue :=
      { state := 1, lsz := bits (ws.getD 0 0).toNat 59 56, ring := lineAddr ws 0, cpl := lineAddr ws 1, part := linePart fn ws
        log := lineAddr ws 2, llsz := bits (ws.getD 3 0).toNat 47 40, msiv := bits (ws.getD 3 0).toNat 63 48 }
    setQueue s q y
  else countBad s q

/-- START. -/
def doStart (s : State) (q : Nat) : State :=
  let x := queueAt s q
  if (x.state = 1 ∨ x.state = 3) ∧ !x.resetting then setQueue s q { x with state := 2 } else countBad s q

/-- STOP. -/
def doStop (s : State) (q : Nat) : State :=
  let x := queueAt s q
  if x.state = 2 then setQueue s q (queueRest { x with state := 3 }) else countBad s q

/-- RESET: records not launched are discarded. -/
def doReset (s : State) (q : Nat) : State :=
  let x := queueAt s q
  if x.state ≠ 0 then setQueue s q (queueRest { x with state := 3, resetting := true, recs := [] }) else countBad s q

/-- CLRO. -/
def doClro (s : State) (q : Nat) : State := setQueue s q { queueAt s q with overflow := false }

/-- A control line, by its CMD. -/
def controlLine (s : State) (fn q : Nat) (ws : List Word64) : State :=
  match lineCmd ws with
  | 1 => doConfig s fn q ws
  | 2 => doStart s q
  | 3 => doStop s q
  | 4 => doReset s q
  | 5 => doClro s q
  | _ => countBad s q

/-- A control line of a command reaches the window of the queue. -/
def lineEvent (s : State) (ok : Nat → Bool) : Outcome :=
  if !reachesWindow s s.sel.fn s.sel.q ∨ 256 ≤ s.sel.q ∨ s.sel.line.length ≠ 8 ∨ !ok (lineCmd s.sel.line) then notNow
  else .next (controlLine s s.sel.fn s.sel.q s.sel.line)

/-- QUEUE_CONFIG (R305, R315). -/
def execQueueConfig (s : State) : Outcome := lineEvent s (fun c => c == 1)

/-- QUEUE_START (R315). -/
def execQueueStart (s : State) : Outcome := lineEvent s (fun c => c == 2)

/-- QUEUE_STOP (R315). -/
def execQueueStop (s : State) : Outcome := lineEvent s (fun c => c == 3)

/-- QUEUE_RESET (R315). -/
def execQueueReset (s : State) : Outcome := lineEvent s (fun c => c == 4)

/-- QUEUE_CLRO (R315). -/
def execQueueClro (s : State) : Outcome := lineEvent s (fun c => c == 5)

/-- CONTROL_LINE_REJECTED (R305): CMD outside 1 to 5. -/
def execControlLineRejected (s : State) : Outcome := lineEvent s (fun c => c == 0 || decide (5 < c))

/-- HOST_APPEND (R303): a line written to lines 2 to 63 reaches the queue point; a partial one is dropped and counted. -/
def execHostAppend (s : State) : Outcome :=
  if !reachesWindow s s.sel.fn s.sel.q ∨ 256 ≤ s.sel.q then notNow
  else if s.sel.line.length = 8 then .next (toPoint s s.sel.q (.line s.sel.fn s.sel.line))
  else .next (countBad s s.sel.q)

/-! ## Heads (R306 to R308) -/

/-- Fields of a launch record. -/
def recMask (ws : List Word64) : Nat := bits (ws.getD 0 0).toNat 58 56
def recCtx (ws : List Word64) : Nat := bits (ws.getD 1 0).toNat 47 40
def recPrio (ws : List Word64) : Nat := bits (ws.getD 1 0).toNat 39 37
def recIrq (ws : List Word64) : Bool := bit (ws.getD 1 0).toNat 36
def recSer (ws : List Word64) : Bool := bit (ws.getD 1 0).toNat 35
def recNev (ws : List Word64) : Nat := bits (ws.getD 1 0).toNat 34 32
def recEq (ws : List Word64) (k : Nat) : Nat := bits (ws.getD 1 0).toNat (8 * k + 7) (8 * k)
def recEseq (ws : List Word64) (k : Nat) : Nat := bits (ws.getD (2 + k / 2) 0).toNat (32 * (k % 2) + 31) (32 * (k % 2))

/-- The head of a queue: its sequence number and its words. -/
def headOf (s : State) (q : Nat) : Option (Nat × List Word64) :=
  match (queueAt s q).recs with
  | seq :: _ => some (seq, ringWords s q seq)
  | [] => none

/-- A head that completes as REFUSED (R306). A context that is FROZEN or CLEARED can neither be placed nor restored
(13 R286). -/
def headRefused (s : State) (q : Nat) (ws : List Word64) : Bool :=
  let part := (queueAt s q).part
  let x := ctxAt s (recCtx ws)
  bits (ws.getD 0 0).toNat 63 59 != 0 || recMask ws == 0 || decide (4 < recNev ws) || x.part != part || decide (x.state ≤ 1) ||
    decide (5 ≤ x.state) ||
    (List.range (recNev ws)).any (fun k => (queueAt s (recEq ws k)).state != 0 && (queueAt s (recEq ws k)).part != part)

/-- Event k is satisfied (R307). -/
def eventMet (s : State) (ws : List Word64) (k : Nat) : Bool :=
  recEseq ws k == 0 || decide (((queueAt s (recEq ws k)).cplseq + 2 ^ 32 - recEseq ws k) % 2 ^ 32 < 2 ^ 31)

/-- A record has completed. -/
def seqDone (x : Queue) (seq : Nat) : Bool :=
  decide ((x.cplseq + 2 ^ 32 - seq) % 2 ^ 32 < 2 ^ 31) || x.fin.contains seq

/-- A head is eligible (R308). -/
def eligible (s : State) (q seq : Nat) (ws : List Word64) : Bool :=
  (queueAt s q).state == 2 && (List.range (recNev ws)).all (eventMet s ws) &&
    (!recSer ws || seqDone (queueAt s q) ((seq + 2 ^ 32 - 1) % 2 ^ 32))

/-- The KTAB entry of a head's kernel, read with HEAD and the section table through the context's translation; `none`
completes the record as STAGE_FAIL (R306). An entry of no panels or no colours, which could neither be placed nor complete, does so as
well (the model's reading, log 59); any other entry that breaks 07 R150 is placed, and its stage fails. -/
def headKernel (s : State) (die : Nat) (ws : List Word64) : State × Option KEntry :=
  let ctx := recCtx ws
  let va := launchObj ws
  match readObj s ctx (16 * die) va 64 with
  | (s, none) => (s, none)
  | (s, some h) =>
    if headBad h || 1 < leAt h 6 2 then (s, none)
    else
      match readObj s ctx (16 * die) (va + 64) (16 * leAt h 12 4) with
      | (s, none) => (s, none)
      | (s, some tb) =>
        let xs := (List.range (leAt h 12 4)).map (sectAt (h ++ tb))
        if tableBad (h ++ tb) xs (leAt h 8 4 % 2 == 1) then (s, none)
        else
          match xs.find? (fun x => x.ty == 2) with
          | none => (s, none)
          | some x =>
            if x.size < 64 * (launchKidx ws + 1) then (s, none)
            else
              match readObj s ctx (16 * die) (va + x.off + 64 * launchKidx ws) 64 with
              | (s, none) => (s, none)
              | (s, some e) => (s, if (kentryOf e).panels = 0 ∨ (kentryOf e).colours = 0 then none else some (kentryOf e))

/-! ## Placement (R310) -/

/-- Admission of a context at a panel is there, or possible (13 R284; 26 R410, R411). -/
def hostOk (s : State) (p ctx : Nat) : Bool :=
  let pn := panelAt s p
  let x := ctxAt s ctx
  pn.started && pn.tested && !pn.fenced && bit x.pmask p &&
    (pn.admit_.any (fun a => a.ctx == ctx) ||
      (decide (pn.admit_.length < 8) && decide ((pn.admit_.map (·.rows)).foldl (· + ·) 0 + x.rows ≤ 8)))

/-- The saved image of a parked context, by slot: that of the half which its last commit named. -/
def imageOf (s : State) (ctx : Nat) : List SavedPanel := tgetD s.images (2 * ctx + (ctxAt s ctx).half) []

/-- A plane that a saved image of the context will take again (13 R293). -/
def imageHolds (s : State) (ctx p k : Nat) : Bool :=
  (imageOf s ctx).any (fun y => y.g == p && y.planes.any (fun z => z.1 == k && z.2.state != 0))

/-- A flip re-checks the plane. -/
def flipping (s : State) (p k : Nat) : Bool := (panelAt s p).flip.any (fun f => f.target == k)

/-- A plane is free for a context. -/
def planeFree (s : State) (p k ctx : Nat) : Bool :=
  let x := planeOf s p k
  bit (ctxAt s ctx).planes k && (panelAt s p).scribePlane != some k && (panelAt s p).inj != some k &&
    (x.state == 0 || ((x.state == 5 || x.state == 6 || x.state == 2) && x.ctx == ctx)) && !launchHolds s p k &&
    !flipping s p k && !((ctxAt s ctx).state == 4 && imageHolds s ctx p k)

/-- The lowest free plane of a panel. -/
def freePlane (s : State) (p ctx : Nat) : Option Nat := (List.range 4).find? (fun k => planeFree s p k ctx)

/-- Panels of the dies in DIEMASK: die `d` first, then the others, each in ascending number. -/
def panelOrder (d mask : Nat) : List Nat :=
  ((d :: (List.range 3).filter (fun i => i != d)).filter (fun i => bit mask i)).flatMap (fun i => (List.range 16).map (fun j => 16 * i + j))

/-- A place for kernel panel `i` among the panels not yet taken. -/
def placeOne (s : State) (ctx obj kidx i : Nat) (ps : List Nat) : Option (Nat × Nat) :=
  let held := ps.filterMap (fun p =>
    ((List.range 4).find? (fun k => holdsKernel s p k obj kidx i ctx && bit (ctxAt s ctx).planes k && !launchHolds s p k &&
      !flipping s p k)).map (fun k => (p, k)))
  match held with
  | x :: _ => some x
  | [] => (ps.filterMap (fun p => (freePlane s p ctx).map (fun k => (p, k)))).head?

/-- Places for all kernel panels, or none. -/
def placeAll (s : State) (ctx obj kidx : Nat) : List Nat → List Nat → Option (List (Nat × Nat))
  | [], _ => some []
  | i :: rest, ps =>
    match placeOne s ctx obj kidx i ps with
    | none => none
    | some x => (placeAll s ctx obj kidx rest (ps.filter (fun p => p != x.1))).map (fun xs => x :: xs)

/-- Where a head's kernel goes; a context that is parking, or whose partition is pre-empted or frozen, waits. -/
def placement (s : State) (d : Nat) (ws : List Word64) (panels : Nat) : Option (List (Nat × Nat)) :=
  let ctx := recCtx ws
  let ps := (panelOrder d (recMask ws)).filter (fun p => hostOk s p ctx)
  if s.parks.any (fun x => x.ctx == ctx) || (decide (1 ≤ (partAt s (partOf s ctx)).pstate) && decide ((partAt s (partOf s ctx)).pstate ≤ 5)) then none
  else placeAll s ctx (launchObj ws) (launchKidx ws) (List.range panels) ps

/-! ## Work that waits for a context's panels (13 R287, R288; 16 R340) -/

/-- The part without what a context holds. -/
def withoutCtx (s : State) (ctx : Nat) : State :=
  { s with
    panels := s.panels.map (fun x =>
      let mine := fun (k : Nat) => (planeOf s x.1 k).state != 0 && (planeOf s x.1 k).ctx == ctx
      (x.1, { x.2 with
        planes := x.2.planes.filter (fun y => y.2.ctx != ctx)
        admit_ := x.2.admit_.filter (fun a => a.ctx != ctx)
        inj := x.2.inj.filter (fun k => !mine k)
        scribePlane := x.2.scribePlane.filter (fun k => !mine k) }))
    launches := s.launches.filter (fun x => x.ctx != ctx) }

/-- Eligible heads of queues: queue, sequence number, words. -/
def heads (s : State) : List (Nat × Nat × List Word64) :=
  s.queues.filterMap (fun x =>
    match headOf s x.1 with
    | some (seq, ws) => if eligible s x.1 seq ws && !headRefused s x.1 ws then some (x.1, seq, ws) else none
    | none => none)

/-- A head that cannot be placed only because the context holds what it needs. -/
def headWaits (s : State) (ctx : Nat) (ws : List Word64) : Bool :=
  recCtx ws != ctx &&
    (List.range 3).any (fun d => bit (recMask ws) d &&
      (match headKernel s d ws with
       | (_, some k) => (placement s d ws k.panels).isNone && (placement (withoutCtx s ctx) d ws k.panels).isSome
       | (_, none) => false))

/-- Queued work of a priority or a higher one waits for the panels of a context. -/
def workWaits (s : State) (ctx prio : Nat) : Bool :=
  (heads s).any (fun x => decide (prio ≤ recPrio x.2.2) && headWaits s ctx x.2.2)

/-- The priority of a context: the highest PRIO of its launches that have not completed (13 R288). -/
def ctxPrio (s : State) (ctx : Nat) : Nat := (s.launches.filter (fun x => x.ctx == ctx)).foldl (fun n x => max n x.prio) 0

/-! ## Turns (R309) -/

/-- W(P) of a partition. -/
def turnLen (s : State) (part : Nat) : Nat := 16 / 2 ^ min 4 (bits (partAt s part).bwshare.toNat 7 4)

/-- A queue whose head is not eligible loses the turn. -/
def turnTick (s : State) : State :=
  { s with turns := s.turns.map (fun x =>
      if x.2.left ≠ 0 ∧ !((heads s).any (fun h => h.1 == x.2.lastQ && recPrio h.2.2 == x.1)) then (x.1, { x.2 with left := 0 }) else x) }

/-- Heads of a priority in the order of R309. -/
def turnOrder (t : Turn) (hs : List (Nat × Nat × List Word64)) : List (Nat × Nat × List Word64) :=
  let keep := fun (h : Nat × Nat × List Word64) => h.1 == t.lastQ && t.left != 0
  hs.filter keep ++ hs.filter (fun h => decide (t.lastQ < h.1)) ++ hs.filter (fun h => decide (h.1 ≤ t.lastQ) && !keep h)

/-- The turn after a launch of queue `q`. -/
def turnAfter (s : State) (t : Turn) (q : Nat) : Turn :=
  if t.lastQ = q ∧ t.left ≠ 0 then { t with left := t.left - 1 } else { lastQ := q, left := turnLen s (queueAt s q).part - 1 }

/-! ## Instructions (R316) -/

/-- The queue that OBJ names. -/
def objQueue (r : RecS) : Nat := bits r.obj.toNat 7 0

/-- A field that is not admitted. -/
def queueBad (r : RecS) (sub : BitVec 8) : Bool := r.sub != sub || r.cf != 0 || bits r.obj.toNat 31 8 != 0

/-- A queue of another partition. -/
def queueForeign (s : State) (c : Cur) (q : Nat) : Bool :=
  (queueAt s q).state != 0 && (queueAt s q).part != partOf s (matchCtx s c.p c.plane c.tag)

/-- Status and sequence number. -/
def statusVal (c : Cur) (st seq : Nat) : Val := { tag := c.tag, ty := 6, lanes := [BitVec.ofNat 32 st, BitVec.ofNat 32 seq] }

/-- QPUT as the queue point takes it (R312): what is ordered before it is performed at DEVICE scope first. -/
def putAct (r : RecS) (s : State) (c : Cur) : State :=
  let ls := (portTok c 0).lanes
  let ws : List Word64 := (List.range 8).map (fun k => BitVec.ofNat 64 (laneN ls (2 * k) + laneN ls (2 * k + 1) * 2 ^ 32))
  let x := queueAppend (pushScope s c.p 3 (some (matchCtx s c.p c.plane c.tag))) (objQueue r) ws
  emitRes x.1 c (formS r) 6 (both (statusVal c x.2.1 x.2.2))

/-- What a QTAKE that takes nothing emits. -/
def takeNone (s : State) (c : Cur) (r : RecS) (st : Nat) : State :=
  emitRes s c (formS r) 6
    { v0 := some { tag := c.tag, ty := 6, lanes := List.replicate 16 0, null := true }, v1 := some (statusVal c st 0) }

/-- QTAKE: the head of a STOPPED queue, or what happens when there is none. -/
def takeAct (r : RecS) (wait : Bool) (s : State) (c : Cur) : State :=
  let q := objQueue r
  let x := queueAt s q
  if x.state = 0 then takeNone s c r 2
  else if x.state ≠ 1 then takeNone s c r 4
  else
    match headOf s q with
    | none => if wait then waitOn s c (.queue q) else takeNone s c r 3
    | some (seq, ws) =>
      let s := setQueue s q (countSeq { x with recs := x.recs.drop 1 } seq)
      emitRes s c (formS r) 6
        { v0 := some { tag := c.tag, ty := 6, lanes := wordsLanes (ws.map (·.toNat)) }, v1 := some (statusVal c 0 seq) }

/-- QSTAT: words 0 to 3 of the status line. -/
def statAct (r : RecS) (s : State) (c : Cur) : State :=
  emitRes s c (formS r) 7 (both { tag := c.tag, ty := 7, lanes := wordsLanes (statusWords (queueAt s (objQueue r))) })

/-- QMARK. -/
def markAct (r : RecS) (s : State) (c : Cur) : State :=
  let x := queueAt s (objQueue r)
  emitRes (setQueue s (objQueue r) { x with markseq := x.appseq, logn := 0, logbreak := false }) c (formS r) 6
    (both (ackVal c.tag x.appseq))

/-- A record's firing reaches the queue point of its queue, unless that is another partition's. -/
def queueFire (s : State) (r : RecS) (i : Instr) (sub : BitVec 8) (ty : BitVec 4) : Outcome :=
  sFire s r [0] (queueBad r sub) true ty (fun s c =>
    if queueForeign s c (objQueue r) then faultCur s c cPERMISSION 0 else toPoint s (objQueue r) (.inst { i := i, cur := c }))

/-- QPUT (R316). -/
def execQput (r : RecS) (s : State) : Outcome := queueFire s r (.qput r) 0 6

/-- QTAKE, SUB 0 (R316). -/
def execQtake (r : RecS) (s : State) : Outcome := queueFire s r (.qtake r) 0 6

/-- QTAKE, SUB 1: EMPTY at once. -/
def execQtakePoll (r : RecS) (s : State) : Outcome := queueFire s r (.qtakePoll r) 1 6

/-- QSTAT (R316). -/
def execQstat (r : RecS) (s : State) : Outcome := queueFire s r (.qstat r) 0 7

/-- QMARK (R316): at commit, with system privilege. -/
def execQmark (r : RecS) (s : State) : Outcome :=
  sAct s r (.qmark r) [0] (queueBad r 0) 6
    (fun s c =>
      if queueForeign s c (objQueue r) || privOf s (matchCtx s c.p c.plane c.tag) == 0 then some cPERMISSION
      else if (queueAt s (objQueue r)).state = 0 ∨ (queueAt s (objQueue r)).log = 0 then some cILLEGAL
      else none)
    (fun s c => toPoint s (objQueue r) (.inst { i := .qmark r, cur := c }))

/-! ## What the queue points take (R303, R312) -/

/-- An append. -/
def qAppends (x : QReq) : Bool := (qRank x).1 < 2

/-- A host line stands back until the memory writes of its function that came before it are performed at DEVICE scope (R312). -/
def lineHeld (s : State) (x : QReq) : Bool :=
  match x.what with
  | .line fn _ => s.hostOps.any (fun y => y.write && y.fn == fn && decide (y.born ≤ x.born))
  | .inst _ => false

/-- The queue point takes a request. -/
def takeReq (s : State) (x : QReq) : State :=
  match x.what with
  | .line _ ws => (queueAppend s x.q ws).1
  | .inst e => match e.i with
    | .qput r => putAct r s e.cur
    | .qtake r => takeAct r true s e.cur
    | .qtakePoll r => takeAct r false s e.cur
    | .qstat r => statAct r s e.cur
    | .qmark r => markAct r s e.cur
    | _ => s

/-- What the queue points take in a cycle: each its requests in their order, one append of them. -/
def queuePoints (s : State) : State :=
  (s.qreqs.foldl (fun (st : State × List Nat × List Nat) x =>
    let (s, shut, put_) := st
    if shut.contains x.q ∨ lineHeld s x ∨ (qAppends x ∧ put_.contains x.q) then
      ({ s with qreqs := s.qreqs ++ [x] }, x.q :: shut, put_)
    else (takeReq s x, shut, if qAppends x then x.q :: put_ else put_)) ({ s with qreqs := [] }, [], [])).1

end Sys2Proof.Machine
end

