-- ==== Sys2Proof/Machine/Image.lean ====
section
/-!
DEFINITION. The image of a context: what a park takes from its panels, how it is taken out of the fabric, and how a
resume puts it back (13 R284, R287 to R293); what the colour point keeps of its groups (16 R341).
-/
namespace Sys2Proof.Machine

/-! ## Admission (13 R284, R286) -/

/-- A context is admitted at a panel, if it is not yet. -/
def admitCtx (s : State) (ctx p : Nat) : State :=
  let x := ctxAt s ctx
  let pn := panelAt s p
  let s := if pn.admit_.any (fun a => a.ctx == ctx) then s
    else setPanel s p { pn with admit_ := pn.admit_ ++ [{ base := x.colbase, lim := x.collim, ctx := ctx, rows := x.rows }] }
  if x.panels.contains p then s else setCtx s ctx { x with panels := x.panels ++ [p] }

/-- A context becomes RESIDENT; its slice counter starts at 0 (R288). -/
def makeResident (s : State) (ctx : Nat) : State := setCtx s ctx { ctxAt s ctx with state := 3, sliceCnt := 0 }

/-! ## Parts of a nib -/

/-- The part of a nib that belongs to matches that `f` selects (by plane and tag) and to planes that `pl` selects. -/
def nibPart (f : Nat → Word64 → Bool) (pl : Nat → Bool) (n : Nib) : Nib :=
  { n with
    store := n.store.filter (fun x => pl (x.1 / 32))
    storeBad := n.storeBad.filter (fun x => pl (x / 32))
    groups := n.groups.filter (fun g => f g.plane (matchTag g.ops))
    spill := n.spill.filter (fun x => pl (x / 32))
    ready := n.ready.filter (fun m => f m.plane m.tag)
    scales := n.scales.filter (fun x => f x.plane x.payload)
    thr := n.thr.filter (fun e => f e.plane e.base)
    sticky := n.sticky.filter (fun e => f e.plane e.tok.tag)
    ranks := n.ranks.filter (fun e => f e.plane e.base)
    gens := n.gens.filter (fun g => f g.plane g.tag)
    delayed := n.delayed.filter (fun d => f d.plane d.tag)
    waits := n.waits.filter (fun w => f w.m.plane w.m.tag)
    marks := n.marks.filter (fun x => pl x.1)
    held := n.held.filter (fun t => f t.plane.toNat t.tag)
    forwarded := n.forwarded.filter (fun x => pl x.1) }

/-- What a nib's image holds: rows and what goes with them; the records come back by staging. -/
def nibImage (f : Nat → Word64 → Bool) (pl : Nat → Bool) (n : Nib) : Nib :=
  let x := nibPart f pl n
  { spill := x.spill, groups := x.groups, ready := x.ready, scales := x.scales, thr := x.thr, sticky := x.sticky, ranks := x.ranks
    gens := x.gens, delayed := x.delayed, waits := x.waits, marks := x.marks, held := x.held, forwarded := x.forwarded }

/-- An image's rows put back, ready-list order kept (R292), the pending entry of a generator ahead of them (23 R405); matches that waited
are retested. -/
def nibMerge (cycle : Nat) (x n : Nib) : Nib :=
  let n := { n with
    groups := n.groups ++ x.groups, spill := n.spill ++ x.spill, scales := n.scales ++ x.scales, thr := n.thr ++ x.thr
    sticky := n.sticky ++ x.sticky, ranks := n.ranks ++ x.ranks, gens := n.gens ++ x.gens, delayed := n.delayed ++ x.delayed
    marks := n.marks ++ x.marks, held := n.held ++ x.held, forwarded := n.forwarded ++ x.forwarded }
  let n := x.ready.foldl (fun (n : Nib) m =>
    { n with ready := insBy readyBefore
               { m with done := if m.again = 2 then 0 else m.done, entered := tgetD n.planeIssues m.plane 0 } n.ready }) n
  x.waits.foldl (fun (n : Nib) w => toReady cycle n w.m) n

/-! ## Taking a context's state from a panel -/

/-- A chain belongs to a context: one of its accesses does, or the context admits its colour. -/
def chainMine (s : State) (p ctx : Nat) (o : OBuf) (c : Chain) : Bool :=
  (o.waiting ++ o.released).any (fun a => a.tag == c.tag && a.ctx == ctx) ||
    (match admission? s p (colourOf c.tag) with
     | some a => a.ctx == ctx
     | none => false)

def obufPart (s : State) (p ctx : Nat) (mine : Bool) (o : OBuf) : OBuf :=
  { chains := o.chains.filter (fun c => chainMine s p ctx o c == mine)
    waiting := o.waiting.filter (fun a => (a.ctx == ctx) == mine)
    released := o.released.filter (fun a => (a.ctx == ctx) == mine) }

/-- A plane that a context holds. -/
def planeMine (s : State) (p ctx k : Nat) : Bool := (planeOf s p k).state != 0 && (planeOf s p k).ctx == ctx

/-- A rule table that a context uses: one of its planes gave it entries, or its credits name such a plane. -/
def tableMine (s : State) (p ctx t : Nat) : Bool :=
  (List.range 4).any (fun k => planeMine s p ctx k &&
    ((planeOf s p k).rules.any (fun e => entryTable e == t) || ((tableAt s p t).armed.isSome && (tableAt s p t).plane == k)))

/-- Wells of a panel that a context owns. -/
def wellsMine (s : State) (p ctx : Nat) : List Nat :=
  (List.range 240).filter (fun w => isWell w && (wellAt s p w).owner == some ctx)

/-- A table of the state without the entries whose key lies in panel `p`'s block of `n` keys and, within it, in one of the wells of
`ws` (of `m` keys each). -/
def outWells {α : Type} (t : Tab α) (p m : Nat) (ws : List Nat) : Tab α :=
  t.filter (fun x => !(x.1 / (256 * m) == p && ws.contains (x.1 / m % 256)))

/-- A page window as saved: its word and slot tags, its slots unpinned (R289; 04 R91). -/
def wellImage (x : Well) : Well :=
  if wellMode x = 5 then { x with slots := x.slots.map (fun y => (y.1, { y.2 with pin := false })) } else x

/-- An access as saved: one that had set out looks again where it then stands; one at its combiner stays there. -/
def accessImage (a : Access) : Access := if a.combining then a else { a with left := none, got := [], pas := [] }

/-- A request that leaves with a context from a panel: sectors of its accesses there and what its windows ask for. What is to be
written goes on. -/
def leavesWith (s : State) (ctx p : Nat) (r : Req) : Bool :=
  r.ctx == ctx && (match r.kind with
    | .piece q w id _ _ => q == p && (match pieceAccess s q w id with
      | some a => !a.combining
      | none => true)
    | .fill q .. => q == p
    | .carry q _ _ _ none => q == p
    | _ => false)

/-- The image of a context on panel `p`. -/
def takeImage (s : State) (ctx p : Nat) : SavedPanel :=
  let pn := panelAt s p
  let mine := fun (plane : Nat) (tag : Word64) => matchCtx s p plane tag == ctx
  let pl := planeMine s p ctx
  let ownScribe := (pn.scribePlane.map pl).getD false
  let ws := wellsMine s p ctx
  { g := p
    scribe := if ownScribe then scribeAt s p else {}
    scribeNib := if ownScribe then nibAt s p 240 else {}
    planes := pn.planes.filter (fun x => pl x.1)
    plpri := pn.plpri, plog := pn.plog, tagged := pn.tagged
    inj := pn.inj.filter pl, scribePlane := pn.scribePlane.filter pl
    sprt := pn.sprt.filter (fun x => sprtCtx x.2 == ctx)
    portQ := pn.portQ.filter (fun x => mine x.plane x.payload)
    scaleNet := (s.scaleNet.filter (fun x => x.p == p && mine x.tok.plane x.tok.payload)).map (·.tok)
    sysPend := pn.sysPend.filter (fun x => mine x.1.plane x.1.tag)
    snap := pn.snap.filter (fun x => mine x.cur.plane x.cur.tag)
    snapWait := pn.snapWait.filter (fun x => mine x.1.plane x.1.tag)
    pgs := ((List.range 64).filter (fun k => (pgAt s p k).alloc && (pgAt s p k).ctx == ctx)).map (fun k => (k, pgAt s p k))
    nibs := ((List.range 240).filter isNib).map (fun site => (site, nibImage mine pl (nibAt s p site)))
    wells := ws.map (fun w => (w, wellImage (wellAt s p w)))
    obufs := (List.range 246).map (fun site => 
      let o := obufPart s p ctx true (obufAt s p site)
      (site, { o with released := o.released.map accessImage }))
    accSlots := s.accSlots.filter (fun x => x.place / 256 == p && ws.contains (x.place % 256))
    arrays := s.arrays.filter (fun a => a.p == p && a.ctx == ctx)
    tables := ((List.range 8).filter (tableMine s p ctx)).map (fun t => (t, tableAt s p t))
    pending := (s.transit.filter (fun f => f.p == p && mine f.tok.plane.toNat f.tok.tag)).map (·.tok)
    mailbox := (boxAt s p).entries.filter (fun e => e.ctx == ctx) }

/-! ## Taking the context out of the fabric -/

/-- A panel without a context: rows, planes, wells, order buffers and the rest are as if it had never been there; its
planes get state `st`. After a park, state 0, a page window's slots stay, for a context that resumes before they are taken (04 R91). -/
def stripPanel (s : State) (ctx st p : Nat) : State :=
  let im := takeImage s ctx p
  let pn := panelAt s p
  let mine := fun (plane : Nat) (tag : Word64) => matchCtx s p plane tag == ctx
  let pl := planeMine s p ctx
  let ws := wellsMine s p ctx
  let s1 := iter s 246 (fun t site =>
    let n := nibPart (fun a b => !mine a b) (fun k => !pl k) (nibAt s p site)
    let t := setNib t p site { n with gated := n.gated.filter (fun c => c != ctx) }
    setObuf t p site (obufPart s p ctx false (obufAt s p site)))
  let keep := ws.filter (fun w => st == 0 && wellMode (wellAt s p w) == 5)
  let s2 := ws.foldl (fun t w => setWell t p w
    (if keep.contains w then { slots := (wellAt s p w).slots, left := some ctx } else {})) s1
  let s3 := if im.scribePlane.isSome then setScribe (setNib s2 p 240 {}) p { blocks := (scribeAt s p).blocks } else s2
  let sc := scribeAt s3 p
  let s4 := setScribe s3 p { sc with
    blocks := sc.blocks.filter (fun x => !pl (x.1 / 64 / 256)), storeBad := sc.storeBad.filter (fun x => !pl (x / 64 / 256)) }
  let s5 := setPanel s4 p { pn with
    planes := pn.planes.filterMap (fun x => if pl x.1 then (if st = 0 then none else some (x.1, { state := st, ctx := ctx })) else some x)
    inj := pn.inj.filter (fun k => !pl k), scribePlane := pn.scribePlane.filter (fun k => !pl k)
    admit_ := pn.admit_.filter (fun a => a.ctx != ctx)
    sprt := pn.sprt.filter (fun x => sprtCtx x.2 != ctx)
    portQ := pn.portQ.filter (fun x => !mine x.plane x.payload)
    sysPend := pn.sysPend.filter (fun x => !mine x.1.plane x.1.tag)
    snap := pn.snap.filter (fun x => !mine x.cur.plane x.cur.tag)
    snapWait := pn.snapWait.filter (fun x => !mine x.1.plane x.1.tag)
    flip := pn.flip.filter (fun f => !pl f.target) }
  let s6 := im.tables.foldl (fun t x => setTable t p x.1 { credits := x.2.credits }) s5
  let b := boxAt s p
  { s6 with
    wmem := outWells s6.wmem p 524288 (ws.filter (fun w => !keep.contains w))
    wbad := outWells s6.wbad p 16384 (ws.filter (fun w => !keep.contains w))
    accSlots := s6.accSlots.filter (fun x => !(x.place / 256 == p && ws.contains (x.place % 256)))
    reqs := s6.reqs.filter (fun r => !leavesWith s ctx p r)
    arrays := s6.arrays.filter (fun a => !(a.p == p && a.ctx == ctx))
    transit := s6.transit.filter (fun f => !(f.p == p && mine f.tok.plane.toNat f.tok.tag))
    scaleNet := s6.scaleNet.filter (fun x => !(x.p == p && mine x.tok.plane x.tok.payload))
    pgs := s6.pgs.filter (fun x => !(x.1 / 64 == p && x.2.alloc && x.2.ctx == ctx))
    boxes := tsetD s6.boxes p { b with entries := b.entries.filter (fun e => e.ctx != ctx) } {} }

/-- A context leaves all its panels (R289, R296). -/
def stripCtx (s : State) (ctx st : Nat) : State :=
  let ps := (ctxAt s ctx).panels
  let s := ps.foldl (fun s p => stripPanel s ctx st p) s
  setCtx s ctx { ctxAt s ctx with panels := [], sliceCnt := 0 }

/-! ## Groups of a context (16 R341) -/

/-- Groups of a context, by id. -/
def ctxGroups (s : State) (ctx : Nat) : List Nat := (s.groups.filter (fun x => x.2.ctx == ctx)).map (·.1)

/-- The context has parked: every group is PARKED. -/
def parkGroups (s : State) (ctx : Nat) : State := (ctxGroups s ctx).foldl (fun s g => setGstate s (partOf s ctx) g 3) s

/-- The context has resumed: a group is RUNNING, or RETURNING if a member has returned; its idle time is 0. -/
def resumeGroups (s : State) (ctx : Nat) : State :=
  (ctxGroups s ctx).foldl (fun s g =>
    let part := partOf s ctx
    let st := if (groupColours s part g).any (fun c => (colourAt s part c).retd) then 4 else 1
    setGstate (setGroup s g { groupAt s g with lastIssue := s.cycle }) part g st) s

/-! ## Putting an image back (R293) -/

/-- The panel that a saved panel number stands for, given the target of each slot. -/
def panelMap (im : List SavedPanel) (ps : List Nat) (p : Nat) : Nat :=
  match idxOf (fun (x : SavedPanel) => x.g == p) im with
  | some i => ps.getD i p
  | none => p

/-- A plane's saved reference is staged again; `none` when KSTAGE's checks fail (RESTAGE). -/
def restage (s : State) (im : List SavedPanel) (ps : List Nat) (ctx p k : Nat) (y : Plane) : Option State :=
  if y.state = 6 then some (setPlane s p k y)
  else
    let own := fun (kp : Nat) =>
      if kp = y.kpanel then p
      else match s.launches.find? (fun x => x.ctx == ctx && launchObj x.words == y.obj && launchKidx x.words == y.kidx) with
        | some x => panelMap im ps (x.panels.getD kp p)
        | none => Config.assignedPanel y.obj y.kidx kp % 48
    let s := stageStart s p k ctx y.obj y.kidx y.kpanel y.dy y.dx own
    let z := planeOf s p k
    if z.verdict ≠ 0 then none
    else
      let s := if y.state = 1 then s else loadStores s p k
      let z := planeOf s p k
      some (setPlane s p k { z with
        state := y.state, fail := y.fail, waiters := y.waiters
        image := if y.state = 1 then z.image else [], blockImage := if y.state = 1 then z.blockImage else [] })

/-- All planes of an image on one panel. -/
def restagePanel (s : State) (im : List SavedPanel) (ps : List Nat) (ctx p : Nat) (x : SavedPanel) : Option State :=
  x.planes.foldl (fun (s : Option State) y => s.bind (fun s => restage s im ps ctx p y.1 y.2)) (some s)

/-- Accesses name the panel on which they stand. -/
def moveAccess (f : Nat → Nat) (a : Access) : Access := { a with p := f a.p }

/-- A pending token is delivered where it can be taken now; one for a record that keeps entries, whose rows are still to come, one for a
scribe, and one that finds no room stay on their links (R293 step 6). -/
def deliverPending (s : State) (p : Nat) (t : Token) : State :=
  let w := recAt s p t.site.toNat t.plane.toNat t.node.toNat
  let later : Flight := { p := p, src := t.site.toNat, queued := false, tok := t }
  let link := { s with transit := s.transit ++ [later] }
  if t.snap || !isNib t.site.toNat || entryOp (opOf w) || opOf w == opPackc then link
  else (takeToken s p t.site.toNat t).getD link

/-- A saved group of waiting operands is loaded; an operand that meets those delivered before it makes its match (R293 step 6). -/
def loadGroup (s : State) (p site : Nat) (g : Group) : State :=
  let w := recAt s p site g.plane g.node
  let n := nibAt s p site
  if entryOp (opOf w) || opOf w == opPackc then setNib s p site { n with groups := n.groups ++ [g] }
  else g.ops.foldl (fun s x =>
    let n := nibAt s p site
    let wait := setNib s p site { n with groups := joinGroups s p n.groups x.2 }
    match placeMatch s p n x.2 w with
    | none => wait
    | some (m, left) =>
      match takeScales g.plane g.node (matchTag m) (scaleNeeds (opOf w) m) n.scales [] with
      | some (store, got) =>
        if readyRoom n g.plane then
          setNib s p site (toReady s.cycle { n with groups := left, scales := store }
            { plane := g.plane, node := g.node, tag := matchTag m, ops := m, scales := got })
        else wait
      | none => wait) s

/-- A well's saved state; a page window keeps the slots that still stand in the well (04 R91). -/
def putWell (s : State) (ctx p w : Nat) (x : Well) : State :=
  if wellMode x = 5 then setWell s p w { x with slots := if (wellAt s p w).left = some ctx then (wellAt s p w).slots else [] }
  else setWell s p w x

/-- The image of one panel is put back on panel `p`: wells, arrays, panel, pending tokens, rows, scribe. -/
def putImage (s : State) (f : Nat → Nat) (ctx p : Nat) (x : SavedPanel) : State :=
  let s := x.wells.foldl (fun s y => putWell s ctx p y.1 y.2) s
  let s := { s with
    accSlots := s.accSlots ++ x.accSlots.map (fun y =>
      { y with place := 256 * p + y.place % 256, staged := y.staged.map (fun z => (z.1, moveAccess f z.2)) })
    arrays := s.arrays ++ x.arrays.map (fun a => { a with p := p }) }
  let pn := panelAt s p
  let mine := fun (k : Nat) => x.planes.any (fun y => y.1 == k)
  let pri := (List.range 4).foldl (fun v k =>
    if mine k then v - put (bits v (4 * k + 3) (4 * k)) (4 * k) + put (bits x.plpri.toNat (4 * k + 3) (4 * k)) (4 * k)
      - put (bits v (16 + k) (16 + k)) (16 + k) + put (bits x.plpri.toNat (16 + k) (16 + k)) (16 + k)
    else v) pn.plpri.toNat
  let alone := pn.admit_.all (fun a => a.ctx == ctx)
  let late := pn.snap.isSome && x.snap.isSome
  let s := match pn.inj with
    | some j => if x.inj.isSome then setPlane s p j { planeOf s p j with state := 4 } else s
    | none => s
  let pn := panelAt s p
  let s := setPanel s p { pn with
    plpri := BitVec.ofNat 20 pri
    plog := if alone then x.plog else pn.plog
    tagged := if alone then x.tagged else pn.tagged
    inj := if x.inj.isSome then x.inj else pn.inj
    scribePlane := if x.scribePlane.isSome then x.scribePlane else pn.scribePlane
    sprt := x.sprt.foldl (fun t y => tput t y.1 y.2) pn.sprt
    portQ := pn.portQ ++ x.portQ
    sysPend := pn.sysPend ++ x.sysPend.map (fun y => ({ y.1 with p := p }, y.2))
    snap := if pn.snap.isSome then pn.snap else x.snap.map (fun y => { y with cur := { y.cur with p := p } })
    snapWait := pn.snapWait ++ (if late then x.snap.toList.map (fun y => (y.cur, y.r)) else []).map (fun y => ({ y.1 with p := p }, y.2)) ++
      x.snapWait.map (fun y => ({ y.1 with p := p }, y.2)) }
  let s := x.tables.foldl (fun s y => setTable s p y.1 { y.2 with credits := (tableAt s p y.1).credits }) s
  let s := x.pgs.foldl (fun s y => setPg s p y.1 y.2) s
  let s := x.obufs.foldl (fun s y =>
    let o := obufAt s p y.1
    setObuf s p y.1 { chains := o.chains ++ y.2.chains, waiting := o.waiting ++ y.2.waiting.map (moveAccess f)
                      released := o.released ++ y.2.released.map (moveAccess f) }) s
  let held := if late then x.nibs.flatMap (fun y => y.2.held) else []
  let s := x.nibs.foldl (fun s y => setNib s p y.1 { nibAt s p y.1 with scales := (nibAt s p y.1).scales ++ y.2.scales }) s
  let s := x.pending.foldl (fun s t => deliverPending s p t) s
  let s := x.nibs.foldl (fun s y =>
    let im := if late then { y.2 with held := [], marks := [], groups := [], scales := [] } else { y.2 with groups := [], scales := [] }
    settle (y.2.groups.foldl (fun s g => loadGroup s p y.1 g) (setNib s p y.1 (nibMerge s.cycle im (nibAt s p y.1)))) p y.1) s
  let s := if x.scribePlane.isSome then
      let sc := x.scribe
      let s := setScribe s p { sc with blocks := (scribeAt s p).blocks }
      setNib s p 240 (nibMerge s.cycle x.scribeNib { store := [] })
    else s
  let b := boxAt s p
  { s with
    transit := held.map (fun t => ({ p := p, src := t.site.toNat, queued := false, tok := t } : Flight)) ++ s.transit
    scaleNet := x.scaleNet.map (fun t => ({ p := p, tok := t } : ScaleFlight)) ++ s.scaleNet
    boxes := tsetD s.boxes p { b with entries := b.entries ++ (x.mailbox.map (fun e => { e with panel := p })).take (64 - b.entries.length)
                                      lost := b.lost + (x.mailbox.length - (64 - b.entries.length)) } {} }

/-- A sector of a transfer that is not a COLL. -/
def plainSector (s : State) (r : Req) : Bool :=
  match r.kind with
  | .xferSector x _ _ => ((xferOf s x).map (fun y => y.arr.isNone)).getD true
  | _ => false

/-- What stands outside the panels and names one of them follows the context to its new panels; the sectors of its
transfers that were not fed are fed again. -/
def moveCtx (s : State) (f : Nat → Nat) (ctx : Nat) : State :=
  let part := partOf s ctx
  let todo := (s.reqs.filter (fun r => r.ctx == ctx && plainSector s r)).filterMap (fun r => match r.kind with
    | .xferSector x row k => some (x, row, k)
    | _ => none)
  let s := { s with
    accSlots := s.accSlots.map (fun x =>
      if x.place < 2 ^ 20 then x
      else { x with staged := x.staged.map (fun y => if y.2.ctx = ctx then (y.1, moveAccess f y.2) else y) })
    xfers := s.xfers.map (fun x => if x.ctx = ctx then { x with p := f x.p, cpanel := f x.cpanel } else x)
    reqs := s.reqs.filter (fun r => !(r.ctx == ctx && plainSector s r))
    draws := s.draws.map (fun d => if d.ctx = ctx then { d with spawn := d.spawn.map (fun y => ({ y.1 with p := f y.1.p }, y.2)) } else d)
    barriers := s.barriers.map (fun x => if x.2.ctx = ctx then (x.1, { x.2 with anchor := f x.2.anchor }) else x)
    colours := s.colours.map (fun x => if x.1 / 4096 = part ∧ x.2.ctx = ctx ∧ x.2.gstate ≠ 0 then (x.1, { x.2 with rpanel := f x.2.rpanel }) else x)
    launches := s.launches.map (fun x => if x.ctx = ctx ∧ 1 ≤ x.stage then { x with panels := x.panels.map f } else x) }
  todo.foldl (fun s (y : Nat × Nat × Nat) => xferSend s y.1 y.2.1 y.2.2) s

end Sys2Proof.Machine
end

