-- ==== Sys2Proof/Machine/Park.lean ====
section
/-!
DEFINITION. Parking and resuming contexts (13 R286 to R295, R299, R300; 16 R340), and the placement of launches, which
may resume a context (14 R309 to R311).
-/
namespace Sys2Proof.Machine

/-! ## Whose context (R280) -/

/-- The partition that a context number belongs to: its record's, else the one whose range holds it. -/
def ctxOwner (s : State) (n : Nat) : Option Nat :=
  if (ctxAt s n).state ≠ 0 then some (ctxAt s n).part
  else (List.range 65).find? (fun k =>
    let v := (partAt s k).prange
    v != 0 && prangeCtxBase v ≤ n && n ≤ prangeCtxLim v)

/-- The context that OBJ names, 0xFF standing for the block's own (R299). -/
def objCtx (s : State) (c : Cur) (r : RecS) : Nat :=
  if bits r.obj.toNat 7 0 = 0xFF then matchCtx s c.p c.plane c.tag else bits r.obj.toNat 7 0

/-- The cause of a record that names a context of no partition, or of another one. -/
def ctxCause (s : State) (c : Cur) (r : RecS) : Option Nat :=
  match ctxOwner s (objCtx s c r) with
  | none => some cILLEGAL
  | some k => if k = partOf s (matchCtx s c.p c.plane c.tag) then none else some cPERMISSION

/-- The saved image of a parked context, changed. -/
def setImage (s : State) (ctx : Nat) (im : List SavedPanel) : State :=
  { s with images := tput s.images (2 * ctx + (ctxAt s ctx).half) im }

/-! ## Answers (R299, R300) -/

/-- The status of a PARK or RESUME is emitted at the scribe that asked; when that scribe's context has itself parked, into
its image. -/
def askEmit (s : State) (a : ParkAsk) (status : Nat) : State :=
  let c := { a.cur with late := true }
  if (ctxAt s a.ctx).state = 4 then
    let xs := resSends c (formS a.r) 6 (both (ackVal c.tag status))
    let im := (imageOf s a.ctx).map (fun x =>
      if x.g = c.p then
        { x with pending := x.pending ++ (xs.filter (fun y => y.dest.site != 255)).map (fun y => tokenOf 240 (x.inj.getD c.plane) y) }
      else x)
    setImage s a.ctx im
  else emitRes s c (formS a.r) 6 (both (ackVal c.tag status))

/-- The status code of a target, in CSTATUS.LAST. -/
def setLast (s : State) (ctx status : Nat) : State := setCtx s ctx { ctxAt s ctx with last := status }

/-! ## Starting a park (R287) -/

def parkOf (s : State) (ctx : Nat) : Option Park := s.parks.find? (fun x => x.ctx == ctx)

def putPark (s : State) (x : Park) : State := { s with parks := s.parks.map (fun y => if y.ctx = x.ctx then x else y) }

/-- A park of a context starts, or the request joins the one in progress. -/
def parkStart (s : State) (ctx : Nat) (ask : Option ParkAsk) (preempt : Bool) : State :=
  match parkOf s ctx with
  | some x => putPark s { x with asks := x.asks ++ ask.toList }
  | none => { s with parks := s.parks ++ [{ ctx := ctx, round := 1, began := s.cycle, asks := ask.toList, preempt := preempt, faulted := none }] }

/-- Sites of a panel that round 1 gates: nibs, the scribe, the edge units and the scale port. -/
def gateSites : List Nat := (List.range 240).filter isNib ++ [240, 241, 242, 243, 244, 245]

/-- Gates of a context on its panels. -/
def setGates (s : State) (ctx : Nat) (shut : Bool) : State :=
  (ctxAt s ctx).panels.foldl (fun s p => gateSites.foldl (fun s site =>
    let n := nibAt s p site
    let g := n.gated.filter (fun c => c != ctx)
    setNib s p site { n with gated := if shut then g ++ [ctx] else g }) s) s

/-! ## Resuming (R293) -/

/-- A scribe that another context's kernel still uses. -/
def scribeTaken (s : State) (p ctx : Nat) : Bool :=
  match (panelAt s p).scribePlane with
  | some k => (planeOf s p k).ctx != ctx && ((scribeAt s p).cur.isSome || !(scribeAt s p).resting || !(scribeAt s p).waitFlip.isEmpty)
  | none => false

/-- The wells and cells that an image needs on a panel are no other context's. -/
def roomFor (s : State) (p : Nat) (x : SavedPanel) : Bool :=
  x.wells.all (fun y => (wellAt s p y.1).owner.isNone) &&
    x.arrays.all (fun a => !(s.arrays.any (fun b => b.p == p && decide (a.y0 ≤ b.y1) && decide (b.y0 ≤ a.y1) &&
      decide (a.x0 ≤ b.x1) && decide (b.x0 ≤ a.x1) && (a.x0 + b.x0) % 2 == 0 && (a.y0 + b.y0) % 2 == 0)))

/-- The targets can host the image: each is one panel, admits the context, has the saved planes free, and the scribe, the wells and
the cells. -/
def targetsOk (s : State) (ctx : Nat) (im : List SavedPanel) (ps : List Nat) : Bool :=
  decide (ps.length = im.length) && decide ps.Nodup &&
    (List.range im.length).all (fun i =>
      match im[i]? with
      | some x =>
        let p := ps.getD i 48
        hostOk s p ctx && roomFor s p x && x.planes.all (fun y => (planeOf s p y.1).state == 0 && !(s.launches.any (fun l => l.ctx != ctx &&
          decide (l.stage < 2) && (List.range l.panels.length).any (fun j => l.panels.getD j 0 == p && l.planes.getD j 0 == y.1)))) &&
          !(x.scribePlane.isSome && scribeTaken s p ctx)
      | none => false)

/-- A restore is set going. -/
def resumeStart (s : State) (ctx : Nat) (ps : Option (List Nat)) (ask : Option ParkAsk) : State :=
  { s with resumes := s.resumes ++ [{ ctx := ctx, panels := ps, ask := ask }] }

/-- A RESUME gives its status at once. -/
def resumeSays (s : State) (a : ParkAsk) (ctx status : Nat) : State := askEmit (setLast s ctx status) a status

/-- The panels that the lanes of a RESUME name. -/
def laneNums (c : Cur) (n : Nat) : List Nat := (List.range n).map (fun i => laneN (portTok c 0).lanes i % 256)

/-- RESUME acts: on a park in progress it waits; it restores a PARKED context, or places a READY one. -/
def resumeAct (s : State) (a : ParkAsk) : State :=
  let c := a.cur
  let ctx := if bits a.r.obj.toNat 7 0 = 0xFF then a.ctx else bits a.r.obj.toNat 7 0
  let x := ctxAt s ctx
  if (parkOf s ctx).isSome then parkStart s ctx (some a) false
  else if x.state = 4 ∧ !(s.resumes.any (fun y => y.ctx == ctx)) then
    resumeStart s ctx (if a.r.sub = 0 then none else some (laneNums c (portTok c 0).lanes.length)) (some a)
  else if x.state = 2 ∧ a.r.sub = 1 then
    let ps := laneNums c (portTok c 0).lanes.length
    if decide ps.Nodup && decide (ps.length ≤ x.slots + 1) && ps.all (fun p => decide (p < 48) && hostOk s p ctx && (freePlane s p ctx).isSome) then
      resumeSays (ps.foldl (fun s p => admitCtx s ctx p) (makeResident s ctx)) a ctx 0
    else resumeSays s a ctx 2
  else resumeSays s a ctx 2

/-! ## The end of a park (R294, R295) -/

/-- Those that waited for a park: PARK returns its outcome, RESUME acts on the new state. -/
def parkAnswer (s : State) (x : Park) (status : Nat) : State :=
  let s := setLast s x.ctx status
  x.asks.foldl (fun s a => if opOf a.cur.word = 0xEA then resumeAct s a else askEmit s a status) s

/-- A park that is abandoned: the gates reopen and the context stays RESIDENT. -/
def parkAbandon (s : State) (x : Park) : State :=
  let s := setGates { s with parks := s.parks.filter (fun y => y.ctx != x.ctx) } x.ctx false
  parkAnswer s x 1

/-- Pre-emption goes on: once no other park of the partition is in progress it parks every RESIDENT context, and with
none left the partition is pre-empted (R295). -/
def preemptGo (s : State) (part : Nat) : State :=
  let pt := partAt s part
  if pt.pstate ≠ 1 then s
  else
    let mine := (s.ctxs.filter (fun x => x.2.part == part && x.2.state == 3)).map (·.1)
    if s.parks.any (fun x => partOf s x.ctx == part && !x.preempt) then s
    else if mine.isEmpty then setPart s part { pt with pstate := 2, preT0 := none }
    else mine.foldl (fun s c => parkStart s c none true) s

/-! ## Freezing (R296, step 1) -/

/-- A partition starts to freeze: its contexts become FROZEN, its parks and resumes end without outcome, and its launches
complete as ABORTED (14 R313). -/
def freezeStart (s : State) (part : Nat) (clear : Bool) : State :=
  let mine := (s.ctxs.filter (fun x => x.2.part == part && (x.2.state == 3 || x.2.state == 4))).map (·.1)
  let s := mine.foldl (fun s c => setCtx s c { ctxAt s c with state := 5 }) s
  let s := { s with
    parks := s.parks.filter (fun x => partOf s x.ctx != part)
    resumes := s.resumes.filter (fun x => partOf s x.ctx != part)
    draws := s.draws.filter (fun d => !(d.part == part && d.launch.isSome)) }
  let s := s.launches.foldl (fun s (x : Launch) =>
    if x.part = part ∧ (ctxAt s x.ctx).state = 5 ∧ x.stage ≠ 3 then setLaunch s { x with stage := 3, status := 3, flags := 0 } else s) s
  setPart s part { partAt s part with pstate := 3, preT0 := none, frzT0 := some s.cycle, clear_ := clear }

/-! ## Rounds 1 to 3 (R287) -/

/-- The park that an event names, in a round. -/
def parkIn (s : State) (round : Nat) : Option Park :=
  match parkOf s s.sel.ctx with
  | some x => if x.round = round ∧ x.faulted.isNone then some x else none
  | none => none

/-- PARK_GATE: round 1. -/
def execParkGate (s : State) : Outcome :=
  match parkIn s 1 with
  | none => notNow
  | some x => .next (putPark (setGates s x.ctx true) { x with round := 2 })

/-- The head of a queued token's output queue is kept back by a full slot of plain service (02 R54). -/
def headShut (s : State) (f : Flight) : Bool :=
  match s.transit.find? (fun e => e.queued && e.p == f.p && e.src == f.src) with
  | some e => slotShut s s.transit e
  | none => false

/-- A token in transit that can still be taken, or that another event takes. -/
def flightMoves (s : State) (f : Flight) : Bool :=
  f.tok.snap || isEauCredit f || isCredit s f || (f.queued && !headShut s f) || (!f.queued && (takeToken s f.p f.tok.site.toNat f.tok).isSome)

/-- A sector of an access can still be performed where it waits. -/
def pieceMoves (s : State) (p w id sec : Nat) : Bool :=
  pieceRoom s p w id sec ||
    (isWell w && wellMode (wellAt s p w) == 5 && ((slotOf (wellAt s p w) (sec / 128)).isSome || (slotTake (wellAt s p w)).isSome))

/-- A released access that its site can still perform: one with a sector under way that does not wait for a buffer or a slot, or one
whose turn has come. -/
def accessMoves (s : State) (a : Access) (k : Nat) : Bool :=
  if a.fin || a.heldFault || a.isNull || isOrdering a.op then false
  else if started a then
    (allReqs s).any (fun r => match r.kind with
      | .piece p w id sec _ => p == a.p && w == ositeOf a && id == a.id && pieceMoves s p w id sec
      | _ => false)
  else if isEau (ositeOf a) then mayStart (obufAt s a.p (ositeOf a)) a && !clashes (obufAt s a.p (ositeOf a)) a.id (placesOf s a)
  else (match execWellAccess { s with sel := { p := a.p, site := ositeOf a, k := k } } with
    | .next _ => true
    | _ => false)

/-- Nothing of the context is in transit, and what is released is performed, as far as it can be (R287, round 2). -/
def ctxSettled (s : State) (ctx : Nat) : Bool :=
  let mine := fun (p plane : Nat) (tag : Word64) => matchCtx s p plane tag == ctx
  (List.range s.transit.length).all (fun k => match s.transit[k]? with
    | some f => !mine f.p f.tok.plane.toNat f.tok.tag || !flightMoves s f
    | none => true) &&
  (List.range s.scaleNet.length).all (fun k => match s.scaleNet[k]? with
    | some f => !mine f.p f.tok.plane f.tok.payload || (match execScaleTokenArrival { s with sel := { s.sel with k := k } } with
      | .next _ => false
      | _ => true)
    | none => true) &&
  s.returns.all (fun r => !mine r.p r.tok.plane.toNat r.tok.tag) &&
  s.addends.all (fun x => x.2.2.ctx != ctx) && s.walks.all (fun w => w.ctx != ctx) &&
  s.qreqs.all (fun x => match x.what with
    | .inst e => !mine e.cur.p e.cur.plane e.cur.tag
    | .line _ _ => true) &&
  (pointReqs s).all (fun x => !mine x.cur.p x.cur.plane x.cur.tag) &&
  s.minvs.all (fun x => !mine x.1.p x.1.plane x.1.tag) && s.routeAsks.all (fun x => !mine x.cur.p x.cur.plane x.cur.tag) &&
  (ctxAt s ctx).panels.all (fun p =>
    (match (panelAt s p).flip with
     | some f => !planeMine s p ctx f.target
     | none => true) &&
    (List.range 246).all (fun site =>
      (nibAt s p site).delayed.all (fun d => !mine p d.plane d.tag) &&
      (List.range (obufAt s p site).released.length).all (fun k => match (obufAt s p site).released[k]? with
        | some a => a.ctx != ctx || !accessMoves s a k
        | none => true)))

/-- PARK_SETTLE: round 2 ends. -/
def execParkSettle (s : State) : Outcome :=
  match parkIn s 2 with
  | none => notNow
  | some x => if ctxSettled s x.ctx then .next (putPark s { x with round := 3 }) else notNow

/-- Requests of a context that no transfer has made are under way: what windows fill or write back, what its engines store. -/
def ctxBusy (s : State) (ctx : Nat) : Bool :=
  (allReqs s).any (fun r => r.ctx == ctx && (match r.kind with
    | .fill .. => true
    | .flush .. => true
    | .carry .. => true
    | .back _ => true
    | _ => false))

/-- No sector of a transfer of the context is granted, no pass of it is in progress, and its windows have been filled, for MPINs too
(R287, round 3; 18 R371). -/
def ctxQuiet (s : State) (ctx : Nat) : Bool :=
  s.reqs.all (fun r => !(r.ctx == ctx && isSectorReq r && (r.path.isEmpty || r.data.isSome))) &&
    s.remotes.all (fun x => match x.req with
      | some r => !(r.ctx == ctx)
      | none => true) &&
    !ctxBusy s ctx && s.pins.all (fun x => matchCtx s x.cur.p x.cur.plane x.cur.tag != ctx) &&
    s.arrays.all (fun a => a.ctx != ctx || a.passes.all (fun y => !y.complete))

/-- PARK_QUIESCE: round 3 ends. -/
def execParkQuiesce (s : State) : Outcome :=
  match parkIn s 3 with
  | none => notNow
  | some x => if ctxQuiet s x.ctx then .next (putPark s { x with round := 4 }) else notNow

/-! ## Round 4 and the commit (R289 to R294) -/

/-- Slot `i` of half `h` of a save area (R290). -/
def slotBase (x : Ctx) (h i : Nat) : Nat := x.saveBase + 0x1000 + (h * (x.slots + 1) + i) * 0x4000000

/-- The header's word 0, read as an acquire at DEVICE scope. -/
def readHeader (s : State) (ctx p : Nat) : State × Except Nat Nat :=
  match vread s ctx p (ctxAt s ctx).saveBase 8 with
  | (s, .ok (bs, false)) => (s, .ok (leNat bs))
  | (s, .ok (_, true)) => (s, .error cPOISON)
  | (s, .error c) => (s, .error c)

/-- The half that a park writes: the one that is not valid. -/
def shadowHalf (w : Nat) : Nat := if bit w 1 then 0 else 1

/-- Writes that stop at the first fault: the cause, the address and the panel. -/
abbrev Stream := State × Option (Nat × Nat × Nat)

/-- One write of round 4. -/
def streamWrite (ctx p va : Nat) (bs : List Byte) (bad : Bool) (x : Stream) : Stream :=
  match x.2 with
  | some _ => x
  | none => match vwrite x.1 ctx p va bs bad with
    | (s, none) => (s, none)
    | (s, some c) => (s, some (c, va, p))

/-- An area of a slot whose bytes the spec does not lay out: each byte of it is free (log 34). -/
def streamArea (ctx p va size : Nat) (x : Stream) : Stream :=
  let k := x.1.fresh
  (List.range (size / 32)).foldl (fun x i =>
    streamWrite ctx p (va + 32 * i) ((List.range 32).map (fun j => Config.imageByte k (32 * i + j))) false x)
    ({ x.1 with fresh := k + 1 }, x.2)

/-- The areas of a slot below the well bytes (R291): the images of scribe and panel, the plane references, the rows, the well state, and
the array image. -/
def slotAreas : List (Nat × Nat) :=
  [(0, 0x10000), (0x10000, 0x10000), (0x20000, 0x1000), (0x21000, 0x10E000), (0x130000, 0x1E0000), (0x310000, 0xF0000)]

/-- Operands of a nib's rows in the order in which they are saved (R292). -/
def rowOps (n : Nib) : List Token := n.ready.flatMap (fun m => m.ops.map (·.2)) ++ n.groups.flatMap (fun g => g.ops.map (·.2))

/-- The lanes of the rows of a nib: row `i` at 144 bytes each, its lanes after a key of 16 bytes (R291). -/
def streamRows (ctx p va : Nat) (n : Nib) (x : Stream) : Stream :=
  let ts := (rowOps n).take 64
  (List.range ts.length).foldl (fun x i =>
    streamWrite ctx p (va + 144 * i + 16) ((ts.getD i default).lanes.flatMap (fun l => leBytes 4 l.toNat)) false x) x

/-- Where well `w` of a slot keeps its bytes. -/
def wellArea (base w : Nat) : Nat := base + 0x400000 + w / 2 * 524288

/-- The bytes of a well that is saved whole, with their poison (R289). -/
def streamWell (ctx base p w : Nat) (x : Stream) : Stream :=
  (List.range 16384).foldl (fun x sec =>
    streamWrite ctx p (wellArea base w + 32 * sec) (mreads x.1.wmem (wellAddr p w (32 * sec)) 32)
      (tgetD x.1.wbad (siteKey p w * 16384 + sec) false) x) x

/-- One panel's slot: the areas of the image, the lanes of its rows, and the bytes of each well that is saved whole (R289, R291). -/
def streamPanel (ctx h i p : Nat) (x : Stream) : Stream :=
  let base := slotBase (ctxAt x.1 ctx) h i
  let im := takeImage x.1 ctx p
  let x := slotAreas.foldl (fun x a => streamArea ctx p (base + a.1) a.2 x) x
  let x := im.nibs.foldl (fun x y => streamRows ctx p (base + 0x21000 + y.1 / 2 * 9216) y.2 x) x
  im.wells.foldl (fun x y => if wellMode y.2 = 5 then x else streamWell ctx base p y.1 x) x

/-- The page windows of a context on a panel: dirty sectors go back to the L2 and the pins are cleared; the slots stay valid (R289; 04 R91;
log 89). -/
def unpinWindows (s : State) (ctx p : Nat) : State :=
  (wellsMine s p ctx).foldl (fun s w =>
    if wellMode (wellAt s p w) = 5 then
      let s := wbWindow s p w
      let y := wellAt s p w
      setWell s p w { y with slots := y.slots.map (fun z => (z.1, { z.2 with pin := false })) }
    else s) s

/-- PARK_STREAM (R289): round 4 writes the shadow half; page windows are written back and unpinned. -/
def execParkStream (s : State) : Outcome :=
  match parkIn s 4 with
  | none => notNow
  | some x =>
    let ps := (ctxAt s x.ctx).panels
    let p0 := ps.getD 0 0
    match readHeader s x.ctx p0 with
    | (s, .error c) => .next (putPark s { x with faulted := some (c, (ctxAt s x.ctx).saveBase, p0) })
    | (s, .ok w) =>
      let s := ps.foldl (fun s p => unpinWindows s x.ctx p) s
      let r := (List.range ps.length).foldl (fun r i => streamPanel x.ctx (shadowHalf w) i (ps.getD i 0) r) ((s, none) : Stream)
      .next (putPark r.1 { x with round := 5, faulted := r.2 })

/-- The header of the save area: NSM1 and SLOT, then word 0 with the shadow half, V and the next GEN. -/
def commitHeader (s : State) (ctx w : Nat) : Stream :=
  let x := ctxAt s ctx
  let ps := x.panels
  let p0 := ps.getD 0 0
  let r := streamWrite ctx p0 (x.saveBase + 8) (leBytes 8 (ps.length - 1)) false (s, none)
  let r := streamWrite ctx p0 (x.saveBase + 16) ((List.range 48).map (fun i => BitVec.ofNat 8 (ps.getD i 0))) false r
  streamWrite ctx p0 x.saveBase (leBytes 8 (put ((w / 2 ^ 32 + 1) % 2 ^ 32) 32 + put (shadowHalf w) 1 + 1)) false r

/-- A park of another start than pre-emption is out of time 4,096 cycles into a pre-emption (R295). -/
def parkLate (s : State) (x : Park) : Bool :=
  match (partAt s (partOf s x.ctx)).preT0 with
  | some t => !x.preempt && decide (t + 4096 < s.cycle)
  | none => false

/-- PARK_COMMIT (R294): once what round 4 has stored is performed, the header's store is performed, the context leaves its panels and is PARKED. -/
def execParkCommit (s : State) : Outcome :=
  match parkIn s 5 with
  | none => notNow
  | some x =>
    if parkLate s x ∨ ctxBusy s x.ctx then notNow
    else
      let p0 := (ctxAt s x.ctx).panels.getD 0 0
      match readHeader s x.ctx p0 with
      | (s, .error c) => .next (putPark s { x with faulted := some (c, (ctxAt s x.ctx).saveBase, p0) })
      | (s, .ok w) =>
        match commitHeader s x.ctx w with
        | (s, some f) => .next (putPark s { x with faulted := some f })
        | (s, none) =>
          let part := partOf s x.ctx
          let im := (ctxAt s x.ctx).panels.map (takeImage s x.ctx)
          let s := stripCtx { s with images := tput s.images (2 * x.ctx + shadowHalf w) im } x.ctx 0
          let s := setCtx s x.ctx { ctxAt s x.ctx with state := 4, gen := (w / 2 ^ 32 + 1) % 2 ^ 32, half := shadowHalf w }
          let s := parkGroups { s with parks := s.parks.filter (fun y => y.ctx != x.ctx) } x.ctx
          let s := if x.preempt then setPart s part { partAt s part with parked := (partAt s part).parked ++ [x.ctx] } else s
          .next (preemptGo (parkAnswer s x 0) part)

/-- PARK_FAULT_ABANDON (R294): a fault on the save area is posted with KIND 1 and abandons the park; under pre-emption the
part freezes the partition. -/
def execParkFaultAbandon (s : State) : Outcome :=
  match parkOf s s.sel.ctx with
  | none => notNow
  | some x =>
    match x.faulted with
    | none => notNow
    | some (cause, addr, p) =>
      let part := partOf s x.ctx
      let s1 := post (parkAbandon s x) { cause := cause, addr := addr, kind := 1, site := 240, panel := p, ctx := x.ctx }
      .next (if x.preempt then freezeStart s1 part false else preemptGo s1 part)

/-- PARK_ABANDON_TIMEOUT (R295). -/
def execParkAbandonTimeout (s : State) : Outcome :=
  match parkOf s s.sel.ctx with
  | none => notNow
  | some x => if parkLate s x then .next (preemptGo (parkAbandon s x) (partOf s x.ctx)) else notNow

/-! ## Slice and idleness (R288; 16 R340) -/

/-- SLICE_EXPIRY (R288): the slice has run out and work of its priority or a higher one waits for its panels. -/
def execSliceExpiry (s : State) : Outcome :=
  let ctx := s.sel.ctx
  let x := ctxAt s ctx
  if !ctxRuns s ctx ∨ x.slice = 0 ∨ x.sliceCnt < x.slice * 1024 ∨ !workWaits s ctx (ctxPrio s ctx) then notNow
  else .next (parkStart s ctx none false)

/-- PARKWAIT_EXPIRY (16 R340): every group has been idle beyond its PWAIT while work waits. -/
def execParkwaitExpiry (s : State) : Outcome :=
  let ctx := s.sel.ctx
  let part := partOf s ctx
  let idle := fun (g : Nat) => match groupColours s part g with
    | c :: _ =>
      let e := colourAt s part c
      e.gstate == 2 && e.pwait != 0 && decide ((groupAt s g).lastIssue + e.pwait < s.cycle)
    | [] => true
  if !ctxRuns s ctx ∨ (ctxGroups s ctx).isEmpty ∨ !(ctxGroups s ctx).all idle ∨ !workWaits s ctx 0 then notNow
  else .next (parkStart s ctx none false)

/-! ## The end of a resume (R293; 14 R311) -/

/-- Launches that waited for a restore: on DONE they go on, on the panels that their placement has reserved, else they complete as
REFUSED. -/
def resumeLaunches (s : State) (ctx status : Nat) : State :=
  s.launches.foldl (fun s (x : Launch) =>
    if x.ctx = ctx ∧ x.resuming ∧ x.stage = 0 then
      (if status = 0 then setLaunch s { x with resuming := false } else launchFail s x 1)
    else s) s

/-- The admissions that placements have reserved for a parked context are given up. -/
def unreserve (s : State) (ctx : Nat) : State :=
  let s := (ctxAt s ctx).panels.foldl (fun s p =>
    setPanel s p { panelAt s p with admit_ := (panelAt s p).admit_.filter (fun a => a.ctx != ctx) }) s
  setCtx s ctx { ctxAt s ctx with panels := [] }

/-- RESUMEP is over once none of the contexts that the pre-emption parked is PARKED or being restored (R293, R298). -/
def resumepGo (s : State) (part : Nat) : State :=
  let pt := partAt s part
  if pt.pstate = 2 ∧ pt.parked.all (fun c => (ctxAt s c).state != 4) ∧ !(s.resumes.any (fun x => partOf s x.ctx == part)) then setPart s part { pt with pstate := 0, parked := [] }
  else s

/-- A restore ends with a status. -/
def resumeEnd (s : State) (x : Resume) (status : Nat) : State :=
  let s := setLast { s with resumes := s.resumes.filter (fun y => y.ctx != x.ctx) } x.ctx status
  let s := if status = 0 then s else unreserve s x.ctx
  let s := match x.ask with
    | some a => askEmit s a status
    | none => s
  resumepGo (resumeLaunches s x.ctx status) (partOf s x.ctx)

/-- The panel to which a fault of a restore is posted. -/
def resumePanel (s : State) (x : Resume) : Nat :=
  match x.ask with
  | some a => a.cur.p
  | none => ((List.range 48).find? (bit (ctxAt s x.ctx).pmask)).getD 0

/-- The bytes of a well come back from its slot of the valid half, sector by sector. -/
def loadWell (ctx base p w : Nat) (x : Stream) : Stream :=
  (List.range 16384).foldl (fun (x : Stream) sec => match x.2 with
    | some _ => x
    | none => match vread x.1 ctx p (wellArea base w + 32 * sec) 32 with
      | (s, .error c) => (s, some (c, wellArea base w + 32 * sec, p))
      | (s, .ok (bs, bad)) =>
        ({ s with wmem := mwrites s.wmem (wellAddr p w (32 * sec)) bs
                  wbad := tsetD s.wbad (siteKey p w * 16384 + sec) bad false }, none)) x

/-- The bytes of the wells of one panel's image. -/
def loadWells (ctx h i p : Nat) (y : SavedPanel) (x : Stream) : Stream :=
  y.wells.foldl (fun x z => if wellMode z.2 = 5 then x else loadWell ctx (slotBase (ctxAt x.1 ctx) h i) p z.1 x) x

/-- NSM1 and SLOT of the header: the saved panel of each slot. -/
def readSlots (s : State) (ctx p : Nat) : State × Except Nat (List Nat) :=
  match vread s ctx p ((ctxAt s ctx).saveBase + 8) 56 with
  | (s, .error c) => (s, .error c)
  | (s, .ok (_, true)) => (s, .error cPOISON)
  | (s, .ok (bs, false)) => (s, .ok ((List.range (leAt bs 0 1 % 64 + 1)).map (fun i => leAt bs (8 + i) 1)))

/-- A restore that ends as REFUSED with its fault posted (R293 step 1). A fault on well bytes ends it so as well (the model's reading, log
90). -/
def resumeFault (s : State) (x : Resume) (f : Nat × Nat × Nat) : State :=
  post (resumeEnd s x 2) { cause := f.1, addr := f.2.1, kind := 1, site := 240, panel := resumePanel s x, ctx := x.ctx }

/-- Steps 2 to 8 of R293, on the image `im` of half `h` and the targets `ps`. -/
def restoreImage (s : State) (x : Resume) (h : Nat) (im : List SavedPanel) (ps : List Nat) : State :=
  let ctx := x.ctx
  let xs := (List.range im.length).zip im
  let f := panelMap im ps
  let s1 := xs.foldl (fun s y => admitCtx s ctx (ps.getD y.1 0)) s
  match xs.foldl (fun (t : Option State) y => t.bind (fun t => restagePanel t im ps ctx (ps.getD y.1 0) y.2)) (some s1) with
  | none => resumeEnd s x 4
  | some s2 =>
    match xs.foldl (fun r y => loadWells ctx h y.1 (ps.getD y.1 0) y.2 r) ((s2, none) : Stream) with
    | (_, some fault) => resumeFault s x fault
    | (s2, none) =>
      let s3 := xs.foldl (fun s y => putImage s f ctx (ps.getD y.1 0) y.2) s2
      launchesGo (resumeEnd (resumeGroups (makeResident (moveCtx s3 f ctx) ctx) ctx) x 0)

/-- RESUME_COMPLETE (R293): the restore of a context ends: NO-SAVE without a committed half, REFUSED where the targets cannot host it,
RESTAGE, or DONE. A header that names more slots than the part has saved ends it as RESTAGE (log 90). -/
def execResumeComplete (s : State) : Outcome :=
  match s.resumes.find? (fun x => x.ctx == s.sel.ctx) with
  | none => notNow
  | some x =>
    let ctx := x.ctx
    let p0 := resumePanel s x
    match readHeader s ctx p0 with
    | (s, .error c) => .next (resumeFault s x (c, (ctxAt s ctx).saveBase, p0))
    | (s, .ok w) =>
      if !bit w 0 then .next (resumeEnd s x 3)
      else match readSlots s ctx p0 with
        | (s, .error c) => .next (resumeFault s x (c, (ctxAt s ctx).saveBase + 8, p0))
        | (s, .ok slots) =>
          let h := b2n (bit w 1)
          let im := (tgetD s.images (2 * ctx + h) []).take slots.length
          let ps := ((x.panels.getD slots).take slots.length)
          if im.length < slots.length then .next (resumeEnd s x 4)
          else if !targetsOk s ctx im ps then .next (resumeEnd s x 2)
          else .next (restoreImage s x h im ps)

/-! ## PARK, RESUME, YIELD (R299) -/

/-- A field that is not admitted. -/
def ctxRecBad (r : RecS) (subs : List Nat) : Bool := !subs.contains r.sub.toNat || r.cf != 0 || bits r.obj.toNat 31 8 != 0

/-- The request that a record makes. -/
def askOf (s : State) (c : Cur) (r : RecS) : ParkAsk := { cur := c, r := r, ctx := matchCtx s c.p c.plane c.tag }

/-- PARK (R299). -/
def execPark (r : RecS) (s : State) : Outcome :=
  sAct s r (.park r) [0] (ctxRecBad r [0]) 6
    (fun s c => if objCtx s c r = matchCtx s c.p c.plane c.tag then some cILLEGAL else ctxCause s c r)
    (fun s c =>
      let ctx := objCtx s c r
      if (ctxAt s ctx).state = 3 then parkStart s ctx (some (askOf s c r)) false else resumeSays s (askOf s c r) ctx 2)

/-- RESUME (R299). -/
def execResume (r : RecS) (s : State) : Outcome :=
  sAct s r (.resume r) [0] (ctxRecBad r [0, 1]) 6 (fun s c => ctxCause s c r) (fun s c => resumeAct s (askOf s c r))

/-- YIELD (R299): a park of the own context starts if queued work waits for its panels. -/
def execYield (r : RecS) (s : State) : Outcome :=
  sAct s r (.yield r) [0] (ctxRecBad r [0]) 6 noChk
    (fun s c =>
      let ctx := matchCtx s c.p c.plane c.tag
      if (ctxAt s ctx).state = 3 ∧ workWaits s ctx 0 then parkStart s ctx none false else s)

/-! ## Placement (14 R306, R309 to R311) -/

/-- What becomes of a head in the order of R309: it completes as STAGE_FAIL, it is placed, or it waits. -/
inductive HeadFate where
  | fails
  | placed (k : KEntry) (xs : List (Nat × Nat))
  | waits
deriving DecidableEq, Repr

/-- The fate of a head at a die's clicker, and the state after its object is read. -/
def headFate (s : State) (d : Nat) (ws : List Word64) : State × HeadFate :=
  match headKernel s d ws with
  | (s, none) => (s, .fails)
  | (s, some k) => match placement s d ws k.panels with
    | some xs => (s, .placed k xs)
    | none => (s, .waits)

/-- The first head of a list that can be placed or fails. -/
def firstHead (d : Nat) : List (Nat × Nat × List Word64) → State → Option (State × (Nat × Nat × List Word64) × HeadFate)
  | [], _ => none
  | h :: rest, s =>
    match headFate s d h.2.2 with
    | (s', .waits) => firstHead d rest s'
    | (s', f) => some (s', h, f)

/-- A placed record becomes a launch (R311): its slot is free, its context is admitted on its panels, and set to be restored when it is
parked, and its draw is queued. -/
def launchRecord (s : State) (q seq : Nat) (ws : List Word64) (k : KEntry) (xs : List (Nat × Nat)) : State :=
  let x := queueAt s q
  let ctx := recCtx ws
  let id := s.fresh + 1
  let s := { setQueue s q { x with recs := x.recs.filter (fun n => n != seq), running := x.running ++ [seq] } with fresh := id }
  let st := (ctxAt s ctx).state
  let l : Launch :=
    { id := id, q := q, seq := seq, words := ws, ctx := ctx, part := x.part, prio := recPrio ws, panels := xs.map (·.1),
      planes := xs.map (·.2), born := s.cycle, width := k.width, ncol := k.colours, stage := 0, resuming := st == 4, status := 0,
      flags := 0, leader := 0, kflags := k.kflags }
  let s := { s with
    launches := s.launches ++ [l]
    draws := s.draws ++ [{ part := x.part, ctx := ctx, n := k.colours, base := none, spawn := none, launch := some id, born := s.cycle }] }
  let s := xs.foldl (fun s y => admitCtx s ctx y.1) (if st = 2 then makeResident s ctx else s)
  if st = 4 ∧ !(s.resumes.any (fun y => y.ctx == ctx)) then resumeStart s ctx none none else s

/-- LAUNCH_PLACEMENT (R309): in its turn the clicker of a die completes a head that the checks refuse, or places the first
head that can be placed among those of the highest priority. -/
def execLaunchPlacement (s : State) : Outcome :=
  let d := s.sel.die
  if 3 ≤ d ∨ s.cycle % 3 ≠ d ∨ s.lastPlace = s.cycle + 1 then notNow
  else
    let s0 := { s with lastPlace := s.cycle + 1 }
    let refused := s.queues.filterMap (fun x =>
      match headOf s x.1 with
      | some (seq, ws) => if x.2.state == 2 && headRefused s x.1 ws then some (x.1, seq, ws) else none
      | none => none)
    match refused with
    | (q, seq, ws) :: _ => .next (completeHead s0 q seq (recIrq ws) 1)
    | [] =>
      let hs := (heads s).filter (fun h => bit (recMask h.2.2) d)
      let prio := hs.foldl (fun n h => max n (recPrio h.2.2)) 0
      let t := tgetD s.turns prio {}
      match firstHead d (turnOrder t (hs.filter (fun h => recPrio h.2.2 == prio))) s0 with
      | none => notNow
      | some (s1, (q, seq, ws), .placed k xs) =>
        .next (launchRecord { s1 with turns := tput s1.turns prio (turnAfter s1 t q) } q seq ws k xs)
      | some (s1, (q, seq, ws), _) => .next (completeHead s1 q seq (recIrq ws) 2)

end Sys2Proof.Machine
end

