-- ==== Sys2Proof/Machine/Partition.lean ====
section
/-!
DEFINITION. Partitions and context records: who may write what (13 R280, R281), CREC, VALIDATE and RELEASE (R282, R283, R286),
PRANGE, pre-emption and RESUMEP (R293, R295), FREEZE and RESET (R296).
-/
namespace Sys2Proof.Machine

/-! ## Writers (R281) -/

/-- Privilege: the physical function is a hypervisor, a virtual function system; a block has its context's. -/
def agentPriv (s : State) : Agent → Nat
  | .block _ ctx => privOf s ctx
  | .host fn => if fn = 0 then 2 else 1

/-- Partition. -/
def agentPart (s : State) : Agent → Nat
  | .block _ ctx => partOf s ctx
  | .host fn => fn

/-- A hypervisor reaches every partition, others their own. -/
def reachesPart (s : State) (a : Agent) (part : Nat) : Bool := agentPriv s a == 2 || agentPart s a == part

/-- A panel belongs to a partition while one of its contexts is admitted there. -/
def panelOf (s : State) (part p : Nat) : Bool := (panelAt s p).admit_.any (fun a => partOf s a.ctx == part)

/-- The events of a register window are the host's: a block writes by SWRITE. -/
def isHost : Agent → Bool
  | .host fn => decide (fn ≤ 64)
  | .block _ _ => false

/-! ## Context records (R282) -/

/-- Word `k` of record `n`. -/
def crecWord (s : State) (n k : Nat) : Nat :=
  let x := ctxAt s n
  match k with
  | 0 => put x.state 61 + put x.priv 56 + put x.part 48 + put x.collim 36 + put x.colbase 24 + put x.planes 20 + put x.rows 16 + n
  | 1 => x.saveBase + put x.slots 6
  | 2 => x.ptroot
  | 3 => x.srseed.toNat
  | 4 => x.pmask
  | 5 => put x.slice 32 + x.parkwait
  | 6 => x.nbctl.toNat
  | _ => 0

/-- The record with a word written; reserved and read-only fields stay. -/
def crecSet (x : Ctx) (k v : Nat) : Ctx :=
  match k with
  | 0 => { x with priv := bits v 57 56, collim := bits v 47 36, colbase := bits v 35 24, planes := bits v 23 20, rows := bits v 19 16 }
  | 1 => { x with saveBase := bits v 55 12 * 4096, slots := bits v 11 6 }
  | 2 => { x with ptroot := bits v 55 12 * 4096 }
  | 3 => { x with srseed := BitVec.ofNat 64 v }
  | 4 => { x with pmask := v % 2 ^ 48 }
  | 5 => { x with slice := bits v 63 32, parkwait := v % 2 ^ 32 }
  | 6 => { x with nbctl := BitVec.ofNat 64 (v % 2 ^ 17) }
  | _ => x

/-- Words that only an EMPTY or BUILT record takes. -/
def crecFixed (k : Nat) : Bool := k == 0 || k == 1 || k == 2 || k == 4

/-- A write to a CREC word: an EMPTY record becomes BUILT, of the partition whose range holds its number; a number in no
range takes no write (R280, R282). -/
def crecWrite (s : State) (n k v : Nat) : State :=
  let x := ctxAt s n
  if x.state = 0 then
    match ctxOwner s n with
    | none => s
    | some part => setCtx s n (crecSet { x with state := 1, part := part } k v)
  else if crecFixed k ∧ x.state ≠ 1 then s
  else setCtx s n (if k = 6 then setNbctl s x (BitVec.ofNat 64 (v % 2 ^ 17)) else crecSet x k v)

/-- CREC_WRITE (R282): word `num` of record `ctx` written by the host. -/
def execCrecWrite (s : State) : Outcome :=
  if !isHost s.sel.who ∨ 256 ≤ s.sel.ctx ∨ 8 ≤ s.sel.num then notNow
  else if ((ctxOwner s s.sel.ctx).map (reachesPart s s.sel.who)).getD false then
    .next (crecWrite s s.sel.ctx s.sel.num s.sel.v.toNat)
  else .next s

/-! ## VALIDATE and RELEASE (R283, R286) -/

/-- The checks of R283. -/
def ctxValid (s : State) (n : Nat) : Bool :=
  let x := ctxAt s n
  let v := (partAt s x.part).prange
  decide (x.colbase ≤ x.collim) && decide (prangeColBase v ≤ x.colbase) && decide (x.collim ≤ prangeColLim v) &&
    s.ctxs.all (fun y => y.1 == n || y.2.part != x.part || y.2.state == 0 || decide (y.2.collim < x.colbase) || decide (x.collim < y.2.colbase)) &&
    (x.colbase != 0 || (x.part == 0 && decide (1 ≤ x.priv))) && decide (1 ≤ x.rows) && decide (x.rows ≤ 8) &&
    decide (x.rows ≤ prangeRowMax v) && x.planes != 0 && x.pmask != 0 &&
    (BitVec.ofNat 48 x.pmask &&& ~~~s.mgmt.panelsFuse) == 0 && x.saveBase != 0 && decide (x.priv ≤ if x.part = 0 then 2 else 1)

/-- What CCMD reports. -/
def ccmdSays (s : State) (part n res : Nat) : State := setPart s part { partAt s part with ccmdCtx := n, ccmdRes := res }

/-- A context number in a partition. -/
def inPart (s : State) (part n : Nat) : Bool := ctxOwner s n == some part

/-- CCMD.VALIDATE; the traffic counters of the context are cleared (18 R368). -/
def doValidate (s : State) (part n : Nat) : State :=
  let x := ctxAt s n
  if !inPart s part n ∨ x.state ≠ 1 then ccmdSays s part n 1
  else if ctxValid s n then
    ccmdSays { setCtx s n { x with state := 2 } with traffic := s.traffic.filter (fun y => y.1 / 8 % 512 != n) } part n 0
  else ccmdSays s part n 2

/-- What a context leaves outside its panels goes: transfers, requests, draws, groups; its launches complete as ABORTED. -/
def dropWork (s : State) (n : Nat) : State :=
  let part := partOf s n
  let s := s.launches.foldl (fun s (x : Launch) =>
    if x.ctx = n ∧ x.stage ≠ 3 then setLaunch s { x with stage := 3, status := 3, flags := 0 } else s) s
  let s := mapPoints s (fun x => if matchCtx s x.cur.p x.cur.plane x.cur.tag = n then none else some x)
  { s with
    xfers := s.xfers.filter (fun x => x.ctx != n)
    reqs := s.reqs.filter (fun r => r.ctx != n)
    remotes := s.remotes.filter (fun x => match x.req with
      | some r => r.ctx != n
      | none => true)
    draws := s.draws.filter (fun d => d.ctx != n)
    addends := s.addends.filter (fun x => x.2.2.ctx != n)
    accSlots := s.accSlots.map (fun x => { x with staged := x.staged.filter (fun y => y.2.ctx != n) })
    walks := s.walks.filter (fun w => w.ctx != n)
    pins := s.pins.filter (fun x => matchCtx s x.cur.p x.cur.plane x.cur.tag != n)
    groups := s.groups.filter (fun x => x.2.ctx != n)
    colours := s.colours.filter (fun x => !(x.1 / 4096 == part && x.2.ctx == n))
    qreqs := s.qreqs.filter (fun x => match x.what with
      | .inst e => matchCtx s e.cur.p e.cur.plane e.cur.tag != n
      | .line _ _ => true)
    images := tdel (tdel s.images (2 * n)) (2 * n + 1) }

/-- CCMD.RELEASE: the record is zeroed and its save area abandoned; a restore in progress ends as REFUSED. A launch whose context was
PARKED never completes: the spec names no completion for it (14 R313). -/
def doRelease (s : State) (part n : Nat) : State :=
  let x := ctxAt s n
  if inPart s part n ∧ (x.state = 1 ∨ x.state = 2 ∨ x.state = 4 ∨ x.state = 6) then
    let s := match s.resumes.find? (fun y => y.ctx == n) with
      | some y => resumeEnd s y 2
      | none => s
    let s := dropWork { unreserve s n with launches := s.launches.filter (fun l => l.ctx != n || l.stage == 3) } n
    ccmdSays { s with
      ctxs := tput s.ctxs n { nbctl := 0 }
      wells := s.wells.map (fun y => if y.2.left = some n then (y.1, { y.2 with left := none, slots := [] }) else y)
      tlb := s.tlb.filter (fun e => e.ctx != n) } part n 0
  else ccmdSays s part n 1

/-- A CCMD write of the host for a partition that it reaches. -/
def ccmdEvent (s : State) (f : State → Nat → Nat → State) : Outcome :=
  if !isHost s.sel.who ∨ 256 ≤ s.sel.ctx ∨ 65 ≤ s.sel.part then notNow
  else .next (if reachesPart s s.sel.who s.sel.part then f s s.sel.part s.sel.ctx else s)

/-- VALIDATE (R283). -/
def execValidate (s : State) : Outcome := ccmdEvent s doValidate

/-- RELEASE (R286). -/
def execRelease (s : State) : Outcome := ccmdEvent s doRelease

/-! ## Ranges (R280, R298) -/

/-- Fields of PRANGE that can be written. -/
def prangeMask (v : Nat) : Nat := v / 2 ^ 24 * 2 ^ 24 + v % 16

/-- Two context ranges share a number; a zero word is no range. -/
def rangesShare (a b : Word64) : Bool :=
  a != 0 && b != 0 && decide (prangeCtxBase a ≤ prangeCtxLim b) && decide (prangeCtxBase b ≤ prangeCtxLim a) &&
    decide (prangeCtxBase a ≤ prangeCtxLim a) && decide (prangeCtxBase b ≤ prangeCtxLim b)

/-- A PRANGE write that is ignored. -/
def prangeRefused (s : State) (part : Nat) (v : Word64) : Bool :=
  (List.range 65).any (fun k => k != part && rangesShare v (partAt s k).prange) ||
    s.ctxs.any (fun x => x.2.state != 0 && x.2.part == part && !(v != 0 && decide (prangeCtxBase v ≤ x.1) && decide (x.1 ≤ prangeCtxLim v)))

/-- A write of PRANGE. -/
def prangeWrite (s : State) (part v : Nat) : State :=
  let w : Word64 := BitVec.ofNat 64 (prangeMask v)
  if prangeRefused s part w then s else setPart s part { partAt s part with prange := w }

/-- PRANGE_WRITE (R280), at hypervisor privilege. -/
def execPrangeWrite (s : State) : Outcome :=
  if !isHost s.sel.who ∨ 65 ≤ s.sel.part then notNow
  else .next (if agentPriv s s.sel.who = 2 then prangeWrite s s.sel.part s.sel.v.toNat else s)

/-! ## Pre-emption and its end (R293, R295) -/

/-- PCTL.PREEMPT. -/
def doPreempt (s : State) (part : Nat) : State :=
  preemptGo (setPart s part { partAt s part with pstate := 1, preT0 := some s.cycle, parked := [] }) part

/-- PCTL.RESUMEP: every context that the pre-emption parked is restored. -/
def doResumep (s : State) (part : Nat) : State :=
  let s := (partAt s part).parked.foldl (fun s c =>
    if (ctxAt s c).state ≠ 4 ∨ s.resumes.any (fun x => x.ctx == c) then s
    else resumeStart s c none none) s
  resumepGo s part

/-- The command bits of a PCTL value. -/
def pctlBits (v : Nat) : Nat := bits v 4 1

/-- A command that PSTATE admits (R298). -/
def pctlAdmits (pstate cmd : Nat) : Bool :=
  match cmd with
  | 1 => pstate == 0 || pstate == 6
  | 2 => decide (pstate ≤ 2) || pstate == 6
  | 4 => decide (pstate ≤ 4) || pstate == 6
  | 8 => pstate == 2
  | _ => false

/-- A write of PCTL: with one command bit that PSTATE admits it acts; otherwise it is ignored. -/
def pctlWrite (s : State) (part v : Nat) : State :=
  if pctlAdmits (partAt s part).pstate (pctlBits v) then
    match pctlBits v with
    | 1 => doPreempt s part
    | 2 => freezeStart s part false
    | 4 => freezeStart s part true
    | _ => doResumep s part
  else s

/-- A PCTL write of the host with a command. -/
def pctlEvent (s : State) (cmd : Nat) : Outcome :=
  if !isHost s.sel.who ∨ 65 ≤ s.sel.part then notNow
  else .next (if agentPriv s s.sel.who = 2 then pctlWrite s s.sel.part (2 * cmd) else s)

/-- PREEMPT (R295). -/
def execPreempt (s : State) : Outcome := pctlEvent s 1

/-- PCTL_FREEZE (R296). -/
def execPctlFreeze (s : State) : Outcome := pctlEvent s 2

/-- PCTL_RESET (R296). -/
def execPctlReset (s : State) : Outcome := pctlEvent s 4

/-- RESUMEP (R293). -/
def execResumep (s : State) : Outcome := pctlEvent s 8

/-! ## The end of a freeze (R296, steps 1 and 2) -/

/-- FROZEN contexts of a partition. -/
def frozenCtxs (s : State) (part : Nat) : List Nat := (s.ctxs.filter (fun x => x.2.part == part && x.2.state == 5)).map (·.1)

/-- A token in transit of one of these contexts that could still be taken. -/
def stillMoves (s : State) (cs : List Nat) (f : Flight) : Bool :=
  cs.contains (matchCtx s f.p f.tok.plane.toNat f.tok.tag) && flightMoves s f

/-- The header of the dump: the form of R290 with the dropped count in word 2 and the mailbox count in word 3, in the place of the first 16
SLOT bytes; the bytes that R290 does not lay out are free (log 35). -/
def dumpBytes (s : State) (ps : List Nat) (dropped mail : Nat) : List Byte :=
  leBytes 8 1 ++ leBytes 8 (ps.length - 1) ++ leBytes 8 dropped ++ leBytes 8 mail ++
    (List.range 32).map (fun i => BitVec.ofNat 8 (ps.getD (16 + i) 0)) ++ (List.range 4032).map (fun i => Config.imageByte s.fresh i)

/-- The areas of R291 that a dump holds of each hosting panel: the first 0x31_0000 bytes of a slot. -/
def dumpPanel (ctx base p : Nat) (x : Stream) : Stream :=
  let x := (slotAreas.filter (fun a => decide (a.1 < 0x310000))).foldl (fun x a => streamArea ctx p (base + a.1) a.2 x) x
  (takeImage x.1 ctx p).nibs.foldl (fun x y => streamRows ctx p (base + 0x21000 + y.1 / 2 * 9216) y.2 x) x

/-- The dump, written in the translation of the lowest frozen context; a fault ends it (logs 34, 35). -/
def writeDump (s : State) (part : Nat) : State :=
  match frozenCtxs s part with
  | [] => s
  | c :: cs =>
    let ps := ((c :: cs).flatMap (fun n => (ctxAt s n).panels)).eraseDups
    let mail := (ps.map (fun p => ((boxAt s p).entries.filter (fun e => (c :: cs).contains e.ctx)).length)).foldl (· + ·) 0
    let base := (partAt s part).pdump.toNat % 2 ^ 56
    let hd := streamWrite c (ps.getD 0 0) base (dumpBytes s ps (partAt s part).dropped mail) false ({ s with fresh := s.fresh + 1 }, none)
    ((List.range ps.length).foldl (fun x i => dumpPanel c (base + 0x1000 + i * 0x400000) (ps.getD i 0) x) hd).1

/-- PARTITION_FROZEN (R296): rounds 1 and 2 have ended, or 4,096 cycles have passed and what is still in transit is dropped
and counted; the dump is written. -/
def execPartitionFrozen (s : State) : Outcome :=
  let part := s.sel.part
  let pt := partAt s part
  if pt.pstate ≠ 3 then notNow
  else
    let cs := frozenCtxs s part
    let t0 := pt.frzT0.getD 0
    if !(cs.all (ctxSettled s)) ∧ s.cycle < t0 + 4096 then notNow
    else
      let gone := s.transit.filter (stillMoves s cs)
      let s1 := setPart { s with transit := s.transit.filter (fun f => !stillMoves s cs f) } part { pt with dropped := pt.dropped + gone.length }
      let s2 := writeDump s1 part
      .next (setPart s2 part { partAt s2 part with pstate := if pt.clear_ then 5 else 4, frzT0 := none })

/-! ## The clearing of RESET (R296, step 3) -/

/-- Barriers of a context become FREE. -/
def dropBarriers (s : State) (n : Nat) : State :=
  { s with barriers := s.barriers.filter (fun x => x.2.ctx != n) }

/-- One FROZEN context is cleared: panels, caches, transfers, groups. -/
def clearCtx (s : State) (n : Nat) : State :=
  let mine := fun (c : Cur) => matchCtx s c.p c.plane c.tag == n
  let s := { s with
    minvs := s.minvs.filter (fun x => !mine x.1)
    routeAsks := s.routeAsks.filter (fun x => !mine x.cur)
    returns := s.returns.filter (fun r => matchCtx s r.p r.tok.plane.toNat r.tok.tag != n) }
  let s := dropBarriers (dropWork (stripCtx s n 6) n) n
  let s := { s with tlb := s.tlb.filter (fun e => e.ctx != n) }
  setCtx s n { ctxAt s n with state := 6 }

/-- PARTITION_CLEARED (R296). -/
def execPartitionCleared (s : State) : Outcome :=
  let part := s.sel.part
  if (partAt s part).pstate ≠ 5 then notNow
  else
    let s1 := (frozenCtxs s part).foldl clearCtx s
    .next (setPart s1 part { partAt s1 part with pstate := 6, clear_ := false, parked := [], dropped := 0 })

end Sys2Proof.Machine
end

