-- ==== Sys2Proof/Machine/Register.lean ====
section
/-!
DEFINITION. System registers (13 R281, R285, R297 to R299): what each reads, what a write does, who may, and the records and
events that read and write them; the change of a panel's service (02 R54).
-/
namespace Sys2Proof.Machine

/-! ## What a number names (R297; 20 R396) -/

/-- Where a register is held. -/
inductive RegKind where
  | panel
  | scribe
  | context
  | group
  | partition
  | crec
  | absent
deriving DecidableEq, Repr

def regKind (num : Nat) : RegKind :=
  if num = 0 ∨ num = 1 ∨ num = 6 ∨ (0x20 ≤ num ∧ num ≤ 0x3F) ∨ (0x100 ≤ num ∧ num ≤ 0x17F) then .panel
  else if (2 ≤ num ∧ num ≤ 5) ∨ (0x200 ≤ num ∧ num ≤ 0x208) then .scribe
  else if 0x10 ≤ num ∧ num ≤ 0x14 then .context
  else if num = 0x18 then .group
  else if 0x300 ≤ num ∧ num ≤ 0x304 then .partition
  else if 0x400 ≤ num ∧ num ≤ 0xBFF then .crec
  else .absent

/-- Registers that a block writes at user privilege, its own ones (R297; 20 R396). -/
def userWrite (num : Nat) : Bool :=
  num == 3 || num == 5 || num == 0x10 || num == 0x11 || num == 0x18 || (decide (0x20 ≤ num) && decide (num ≤ 0x3F)) ||
    (decide (0x201 ≤ num) && decide (num ≤ 0x208))

/-- Context number of a CREC register. -/
def crecNum (num : Nat) : Nat := (num - 0x400) / 8

/-! ## Reading -/

/-- CSTATUS (R298). -/
def cstatus (x : Ctx) : Nat := put x.gen 32 + put x.state 4 + x.last

/-- MBSTAT (20 R396) as a context reads it; the host has none. -/
def mbstat (s : State) (p : Nat) (ctx : Option Nat) : Nat :=
  put (boxAt s p).lost 32 + (match ctx with
    | some c => ((boxAt s p).entries.filter (fun e => e.ctx == c)).length
    | none => 0)

/-- A register's value: number, target, reading context and colour. -/
def regRead (s : State) (num t : Nat) (ctx colour : Option Nat) : Nat :=
  let sc := scribeAt s t
  let pn := panelAt s t
  let x := ctxAt s t
  let pt := partAt s t
  match num with
  | 0 => b2n pn.tagged
  | 1 => pn.plog
  | 2 => sc.btag.toNat
  | 3 => sc.done.toNat
  | 4 => sc.busy.toNat
  | 5 => sc.late.toNat
  | 6 => pn.plpri.toNat
  | 0x10 => x.srseed.toNat
  | 0x11 => x.nbctl.toNat
  | 0x12 => x.latecnt
  | 0x13 => cstatus x
  | 0x14 => x.parkwait
  | 0x18 => (match ctx, colour with
    | some c, some k => (groupFlags s (partOf s c) k).toNat
    | _, _ => 0)
  | 0x200 => sc.tvec.toNat
  | 0x201 => sc.tstat.toNat
  | 0x202 => sc.tretb.toNat
  | 0x203 => sc.tenable.toNat
  | 0x204 => mbstat s t ctx
  | 0x205 => sc.tscr0.toNat
  | 0x206 => sc.tscr1.toNat
  | 0x207 => sc.tscr2.toNat
  | 0x208 => sc.tscr3.toNat
  | 0x300 => pt.prange.toNat
  | 0x301 => pt.bwshare.toNat
  | 0x302 => pt.pdump.toNat
  | 0x303 => put pt.pstate 5
  | 0x304 => put pt.ccmdRes 16 + put pt.ccmdCtx 8
  | _ =>
    if 0x20 ≤ num ∧ num ≤ 0x3F then (tgetD pn.sprt (num - 0x20) 0).toNat
    else if 0x100 ≤ num ∧ num ≤ 0x17F then
      let w := pgStart s (pgAt s t ((num - 0x100) / 2))
      if num % 2 = 0 then w.1 else w.2.1
    else if 0x400 ≤ num ∧ num ≤ 0xBFF then crecWord s (crecNum num) (num % 8)
    else 0

/-- What a read of an RC register does (R297; 06 R136; 20 R396). -/
def regClear (s : State) (num t : Nat) : State :=
  if num = 0x12 then setCtx s t { ctxAt s t with latecnt := 0 }
  else if num = 0x204 then { s with boxes := tsetD s.boxes t { boxAt s t with lost := 0 } {} }
  else s

/-! ## Writing -/

/-- Planes whose fields of PLPRI a writer changes (R285). -/
def mayPlane (s : State) (a : Agent) (p k : Nat) : Bool :=
  let x := planeOf s p k
  match a with
  | .block _ ctx => x.state != 0 && x.ctx == ctx
  | .host fn => fn == 0 || (x.state != 0 && partOf s x.ctx == fn)

/-- PLPRI with the fields of some planes replaced. -/
def priMerge (old new : Nat) (f : Nat → Bool) : BitVec 20 :=
  BitVec.ofNat 20 ((List.range 4).foldl (fun v k =>
    if f k then v + put (bits new (4 * k + 3) (4 * k)) (4 * k) + put (bits new (16 + k) (16 + k)) (16 + k)
    else v + put (bits old (4 * k + 3) (4 * k)) (4 * k) + put (bits old (16 + k) (16 + k)) (16 + k)) 0)

/-- A write of PLPRI on a panel. -/
def plpriWrite (s : State) (a : Agent) (p v : Nat) : State :=
  let pn := panelAt s p
  setPanel s p { pn with plpri := priMerge pn.plpri.toNat v (mayPlane s a p) }

/-- A write of PULSE (06 R125): PLOG outside 3 to 10 is ignored; another takes effect at the next pulse. -/
def pulseWrite (s : State) (p v : Nat) : State :=
  if 3 ≤ v % 16 ∧ v % 16 ≤ 10 then setPanel s p { panelAt s p with plogPend := some (v % 16) } else s

/-- A write of SVCMODE (02 R54). -/
def svcmodeWrite (s : State) (p v : Nat) : State := setPanel s p { panelAt s p with svcPend := some (bit v 0) }

/-- A write of a return-table entry (11 R255): CTX is the writer's; a host leaves it. -/
def sprtWrite (s : State) (a : Agent) (p k v : Nat) : State :=
  let pn := panelAt s p
  let old := tgetD pn.sprt k 0
  let ctx := match a with
    | .block _ c => c
    | .host _ => sprtCtx old
  setPanel s p { pn with sprt := tsetD pn.sprt k (BitVec.ofNat 64 (put ctx 20 + v % 2 ^ 17)) 0 }

/-- A write of CCMD (R298). -/
def ccmdWrite (s : State) (part v : Nat) : State :=
  match v % 16 with
  | 1 => doValidate s part (bits v 15 8)
  | 2 => doRelease s part (bits v 15 8)
  | _ => setPart s part { partAt s part with ccmdCtx := bits v 15 8 }

/-- The write of a register that its writer may write; read-only fields stay (00 R6, R7). -/
def regWrite (s : State) (a : Agent) (num t v : Nat) (colour : Option Nat) : State :=
  let sc := scribeAt s t
  let x := ctxAt s t
  let w : Word64 := BitVec.ofNat 64 v
  match num with
  | 0 => svcmodeWrite s t v
  | 1 => pulseWrite s t v
  | 3 => setScribe s t { sc with done := sc.done &&& ~~~w }
  | 5 => setScribe s t (setLate sc (sc.late &&& ~~~w))
  | 6 => plpriWrite s a t v
  | 0x10 => setCtx s t { x with srseed := w }
  | 0x11 => setCtx s t (setNbctl s x (BitVec.ofNat 64 (v % 2 ^ 17)))
  | 0x14 => setCtx s t { x with parkwait := v % 2 ^ 32 }
  | 0x18 => (match a, colour with
    | .block _ c, some k =>
      let part := partOf s c
      let f : BitVec 5 := groupFlags s part k &&& ~~~(BitVec.ofNat 5 v)
      (match gidOf s part k with
       | some g => setGroup s g { groupAt s g with flags := f }
       | none => { s with loose := tsetD s.loose (colKey part k) f 0 })
    | _, _ => s)
  | 0x200 => setScribe s t { sc with tvec := BitVec.ofNat 64 (v % 2 ^ 17) }
  | 0x202 => setScribe s t { sc with tretb := BitVec.ofNat 64 (v % 2 ^ 16) }
  | 0x203 => setScribe s t { sc with tenable := BitVec.ofNat 64 (v % 2 ^ 16) }
  | 0x205 => setScribe s t { sc with tscr0 := w }
  | 0x206 => setScribe s t { sc with tscr1 := w }
  | 0x207 => setScribe s t { sc with tscr2 := w }
  | 0x208 => setScribe s t { sc with tscr3 := w }
  | 0x300 => prangeWrite s t v
  | 0x301 => setPart s t { partAt s t with bwshare := BitVec.ofNat 64 (v % 2 ^ 20) }
  | 0x302 => setPart s t { partAt s t with pdump := BitVec.ofNat 64 (v % 2 ^ 56) }
  | 0x303 => pctlWrite s t v
  | 0x304 => ccmdWrite s t v
  | _ =>
    if 0x20 ≤ num ∧ num ≤ 0x3F then sprtWrite s a t (num - 0x20) v
    else if 0x400 ≤ num ∧ num ≤ 0xBFF then crecWrite s (crecNum num) (num % 8) v
    else s

/-! ## SREAD and SWRITE (R299) -/

def objNum (r : RecS) : Nat := r.obj.toNat % 2 ^ 16
def objTgt (r : RecS) : Nat := bits r.obj.toNat 23 16

/-- The target that OBJ names; 0xFF is the block's own. -/
def regTarget (s : State) (c : Cur) (r : RecS) : Nat :=
  let ctx := matchCtx s c.p c.plane c.tag
  if objTgt r ≠ 0xFF then objTgt r
  else match regKind (objNum r) with
    | .panel | .scribe => c.p
    | .context => ctx
    | .partition => partOf s ctx
    | _ => 0

/-- The cause of an access to a register: one that does not exist, a target outside the partition, a privilege too low. -/
def regCause (s : State) (c : Cur) (r : RecS) (write : Bool) : Option Nat :=
  let num := objNum r
  let t := regTarget s c r
  let ctx := matchCtx s c.p c.plane c.tag
  let priv := privOf s ctx
  let part := partOf s ctx
  let low := fun (own reach : Bool) =>
    if !own && !reach then some cPERMISSION
    else if priv = 0 && (!own || (write && !userWrite num)) then some cPERMISSION
    else none
  match regKind num with
  | .absent => some cILLEGAL
  | .panel | .scribe => if 48 ≤ t then some cILLEGAL else low (t == c.p) (panelOf s part t)
  | .context => (match ctxOwner s t with
    | none => some cILLEGAL
    | some k => low (t == ctx) (k == part))
  | .group => if objTgt r ≠ 0xFF then some cILLEGAL else none
  | .partition =>
    if 64 < t then some cILLEGAL
    else if num = 0x304 then (if priv = 2 ∨ (priv = 1 ∧ t = part) then none else some cPERMISSION)
    else if priv = 2 then none else some cPERMISSION
  | .crec =>
    if objTgt r ≠ 0xFF then some cILLEGAL
    else low (crecNum num == ctx) (ctxOwner s (crecNum num) == some part)

/-- SREAD and SWRITE fields that are not admitted. -/
def regBad (r : RecS) : Bool := r.sub != 0 || r.cf != 0 || bits r.obj.toNat 31 24 != 0

/-- Colour of the block (R297). -/
def blockColour (s : State) (p : Nat) : Nat := colourOf (scribeAt s p).btag

/-- SREAD: the register is read at issue (08 R182). -/
def execSread (r : RecS) (s : State) : Outcome :=
  if s.cur.site ≠ 240 then .refused .noMatch
  else sFire s r [0] (regBad r) true 7 (fun s c =>
    match regCause s c r false with
    | some k => faultCur s c k 0
    | none =>
      let t := regTarget s c r
      let v := regRead s (objNum r) t (some (matchCtx s c.p c.plane c.tag)) (some (blockColour s c.p))
      emitRes (regClear s (objNum r) t) c (formS r) 7 (both { tag := c.tag, ty := 7, lanes := wordsLanes [v] }))

/-- A record whose acknowledgement leaves at its firing and whose effect takes place at commit (R299; 21, Listing). -/
def sAck (s : State) (r : RecS) (i : Instr) (bad : Bool) (chk : State → Cur → Option Nat) (act : State → Cur → State) : Outcome :=
  if s.cur.site ≠ 240 then .refused .noMatch
  else sFire s r [0] bad true 6 (fun s c =>
    if c.late then act s c
    else match chk s c with
      | some k => faultCur s c k 0
      | none =>
        let s1 := emitRes s c (formS r) 6 (both (ackVal c.tag 0))
        if inBlock s then holdEff s1 i else act s1 { c with late := true })

/-- The value of an SWRITE; DEST of a return-table entry is moved with its plane (07 R157). -/
def swriteVal (s : State) (c : Cur) (r : RecS) : Nat :=
  let ls := (portTok c 0).lanes
  let v := laneN ls 0 + laneN ls 1 * 2 ^ 32
  if 0x20 ≤ objNum r ∧ objNum r ≤ 0x3F then v / 2 ^ 16 * 2 ^ 16 + (shiftDest s c (v % 2 ^ 16)).getD 0 else v

/-- SWRITE (R299). -/
def execSwrite (r : RecS) (s : State) : Outcome :=
  sAck s r (.swrite r) (regBad r)
    (fun s c =>
      if 0x20 ≤ objNum r ∧ objNum r ≤ 0x3F ∧ (shiftDest s c (laneN (portTok c 0).lanes 0 % 65536)).isNone then some cILLEGAL
      else regCause s c r true)
    (fun s c => regWrite s (.block c.p (matchCtx s c.p c.plane c.tag)) (objNum r) (regTarget s c r) (swriteVal s c r)
      (some (blockColour s c.p)))

/-! ## CTXPRI (R285, R299) -/

/-- A STRICT bit of the target's planes that the image sets. -/
def setsStrict (s : State) (c : Cur) (r : RecS) : Bool :=
  bits (laneN (portTok c 0).lanes 0) 19 16 &&& (ctxAt s (objCtx s c r)).planes != 0

/-- The image written for a context's planes on one panel. -/
def ctxpriPanel (s : State) (ctx v p : Nat) : State :=
  let pn := panelAt s p
  setPanel s p { pn with plpri := priMerge pn.plpri.toNat v (planeMine s p ctx) }

/-- CTXPRI's effect; a PARKED target's saved panel images take it, at bytes that R291 does not lay out (log 34). -/
def ctxpriAct (s : State) (c : Cur) (r : RecS) : State :=
  let ctx := objCtx s c r
  let v := laneN (portTok c 0).lanes 0
  if (ctxAt s ctx).state = 4 then
    let hit := fun (x : SavedPanel) => r.sub == 1 || x.g == c.p
    let im := imageOf s ctx
    let s := setImage s ctx (im.map (fun x =>
      if hit x then { x with plpri := priMerge x.plpri.toNat v (fun k => x.planes.any (fun y => y.1 == k)) } else x))
    ((List.range im.length).foldl (fun x i =>
      if (im[i]?).any hit then streamArea ctx c.p (slotBase (ctxAt s ctx) (ctxAt s ctx).half i + 0x10000) 0x10000 x else x)
      ((s, none) : Stream)).1
  else if r.sub = 1 then (ctxAt s ctx).panels.foldl (fun s p => ctxpriPanel s ctx v p) s
  else ctxpriPanel s ctx v c.p

/-- CTXPRI (R299). -/
def execCtxpri (r : RecS) (s : State) : Outcome :=
  sAck s r (.ctxpri r) (ctxRecBad r [0, 1])
    (fun s c =>
      let own := matchCtx s c.p c.plane c.tag
      match ctxCause s c r with
      | some k => some k
      | none => if privOf s own = 0 ∧ (objCtx s c r ≠ own ∨ setsStrict s c r) then some cPERMISSION else none)
    (fun s c => ctxpriAct s c r)

/-! ## The register window (R281) -/

/-- A target that a function reaches; without one an offset reads 0 and ignores writes. -/
def hostReaches (s : State) (fn num t : Nat) : Bool :=
  match regKind num with
  | .panel | .scribe => decide (t < 48) && (fn == 0 || panelOf s fn t)
  | .context => decide (t < 256) && (fn == 0 || ctxOwner s t == some fn)
  | .partition => decide (t ≤ 64) && (fn == 0 || (t == fn && num == 0x304))
  | .crec => fn == 0 || ctxOwner s (crecNum num) == some fn
  | _ => false

/-- A host write at a register's offset. -/
def windowWrite (s : State) (a : Agent) (num t v : Nat) : State :=
  match a with
  | .host fn => if hostReaches s fn num t then regWrite s a num t v none else s
  | .block _ _ => s

/-- The register and the target that an offset of the window names: S × 0x8000 + number × 8. -/
def windowReg (off : Nat) : Nat × Nat := (off % 0x8000 / 8, off / 0x8000)

/-- The register and the target of a host access: those of its offset in the window, where it brings one, else the number `num` and
the target in `p`. -/
def accessed (s : State) (num : Nat) : Nat × Nat := (s.sel.off.map windowReg).getD (num, s.sel.p)

/-- An offset that is no place of a register in the 8 MiB of the window. -/
def offBad (s : State) : Bool := s.sel.off.any (fun o => o % 8 != 0 || decide (0x800000 ≤ o))

/-- A host write of a register. -/
def windowEvent (s : State) (num : Nat) : Outcome :=
  let x := accessed s num
  if !isHost s.sel.who ∨ offBad s then notNow else .next (windowWrite s s.sel.who x.1 x.2 s.sel.v.toNat)

/-- A host write of a register of a row of its own: its offset, where it brings one, names that register. -/
def rowEvent (s : State) (num : Nat) : Outcome := if (accessed s num).1 = num then windowEvent s num else notNow

/-- PLPRI_WRITE (R285). -/
def execPlpriWrite (s : State) : Outcome := rowEvent s 6

/-- PULSE_WRITE (06 R125). -/
def execPulseWrite (s : State) : Outcome := rowEvent s 1

/-- SVCMODE_WRITE (02 R54). -/
def execSvcmodeWrite (s : State) : Outcome := rowEvent s 0

/-- A register whose writes have a row of their own. -/
def ownRow (num : Nat) : Bool :=
  num == 0 || num == 1 || num == 6 || num == 0x300 || num == 0x303 || num == 0x304 || regKind num == .crec

/-- REGISTER_WRITE (R281): any other register. -/
def execRegisterWrite (s : State) : Outcome := if ownRow (accessed s s.sel.num).1 then notNow else windowEvent s s.sel.num

/-- RC_REGISTER_READ (R281): a host read through the window returns the register; LATECNT and MBSTAT clear what they count, and any other
register is unchanged. -/
def execRcRegisterRead (s : State) : Outcome :=
  let x := accessed s s.sel.num
  if 64 < s.sel.fn ∨ offBad s then notNow
  else if hostReaches s s.sel.fn x.1 x.2 then
    let v := regRead s x.1 x.2 none none
    let s1 := regClear s x.1 x.2
    .next { s1 with out := s1.out ++ [.regData s.sel.fn x.1 (BitVec.ofNat 64 v)] }
  else .next { s with out := s.out ++ [.regData s.sel.fn x.1 0] }

/-! ## The service of a panel (02 R54) -/

/-- The panel holds no token and no ready match. -/
def panelIdle (s : State) (p : Nat) : Bool :=
  !(s.transit.any (fun f => f.p == p)) && !(s.scaleNet.any (fun f => f.p == p)) && !(s.returns.any (fun r => r.p == p)) &&
    (panelAt s p).portQ.isEmpty &&
    !(s.nibs.any (fun x => x.1 / 256 == p && (!x.2.groups.isEmpty || !x.2.ready.isEmpty || !x.2.scales.isEmpty || !x.2.sticky.isEmpty ||
      !x.2.ranks.isEmpty || !x.2.held.isEmpty || !x.2.waits.isEmpty || !x.2.delayed.isEmpty))) &&
    !(s.wells.any (fun x => x.1 / 256 == p && (!x.2.frames.isEmpty || !x.2.returns.isEmpty)))

/-- SERVICE_MODE_CHANGE (02 R54): a written service takes effect. -/
def execServiceModeChange (s : State) : Outcome :=
  let p := s.sel.p
  let pn := panelAt s p
  match pn.svcPend with
  | none => notNow
  | some v => if panelIdle s p then .next (setPanel s p { pn with tagged := v, svcPend := none }) else notNow

end Sys2Proof.Machine
end

