-- ==== Sys2Proof/Machine/Page.lean ====
section
/-!
DEFINITION. The page instructions (18 R370 to R372): MPIN, MUNPIN, MINV, MPROBE, and the traffic counters (R368).
-/
namespace Sys2Proof.Machine

/-! ## Operands (R370) -/

/-- Address and page count on port a. -/
def pageVa (c : Cur) : Nat := laneN (portTok c 0).lanes 0 + laneN (portTok c 0).lanes 1 * 2 ^ 32
def pageN (c : Cur) : Nat := laneN (portTok c 0).lanes 2

/-- A range that is not admitted. -/
def rangeBad (c : Cur) (top : Nat) : Bool := pageVa c % 4096 != 0 || pageN c == 0 || decide (top < pageN c)

/-- The well that OBJ[7:0] names, moved with its plane (07 R157). -/
def pageWell (s : State) (c : Cur) (v : Nat) : Option Nat := shiftSite s c v

/-- The cause of a record that pins: a range, a well of another mode, another context's well. -/
def pinCause (s : State) (c : Cur) (r : RecS) : Option Nat :=
  if rangeBad c 128 then some cILLEGAL
  else match pageWell s c (bits r.obj.toNat 7 0) with
    | none => some cILLEGAL
    | some w =>
      let x := wellAt s c.p w
      if !isWell w ∨ wellMode x ≠ 5 then some cILLEGAL
      else if x.owner ≠ some (matchCtx s c.p c.plane c.tag) then some cPERMISSION
      else none

/-- Pages of the range. -/
def pagesOf (c : Cur) : List Nat := (List.range (pageN c)).map (fun i => pageVa c / 4096 + i)

/-- A field that is not admitted. -/
def pageBad (r : RecS) (sub : BitVec 8) (hi : Nat) : Bool := r.sub != sub || r.cf != 0 || bits r.obj.toNat 31 hi != 0

/-! ## MPIN and MUNPIN (R371) -/

/-- Translation of every page, in ascending order, up to the first fault. -/
def pinXlat (s : State) (c : Cur) (ctx w : Nat) (pages : List Nat) : State × Except (Nat × Nat) (List (Nat × Nat)) :=
  pages.foldl (fun (st : State × Except (Nat × Nat) (List (Nat × Nat))) page =>
    match st.2 with
    | .error e => (st.1, .error e)
    | .ok xs => match xlateNow st.1 ctx c.p w 1 (4096 * page) .read with
      | (s, .ok pa _) => (s, .ok (xs ++ [(page, pa / 4096 * 4096)]))
      | (s, .bad k) => (s, .error (k, 4096 * page))) (s, .ok [])

/-- The first request at a well ends with a cause. -/
def pinFault (s : State) (x : PinAsk) (cause addr : Nat) : State := faultCur s { x.cur with late := true } cause addr

/-- A request emits its count. -/
def pinEmit (s : State) (x : PinAsk) : State :=
  emitRes s { x.cur with late := true } (formS x.r) 6 (both (ackVal x.cur.tag x.count))

/-- A MUNPIN at its well: the pins of the pages of its range are cleared. -/
def unpin (s : State) (x : PinAsk) : State :=
  let y := wellAt s x.cur.p x.w
  let mine := fun (z : PwSlot) => z.pin && (pagesOf x.cur).contains z.page
  let n := (y.slots.filter (fun z => mine z.2)).length
  let slots := y.slots.map (fun z => if mine z.2 then (z.1, { z.2 with pin := false }) else z)
  pinEmit (setWell s x.cur.p x.w { y with slots := slots }) { x with count := n }

/-- An MPIN at its well is tested: the region, the translation of every page, the count of pins. With its pages it goes on. -/
def pinTest (s : State) (x : PinAsk) : State × Option PinAsk :=
  let y := wellAt s x.cur.p x.w
  let pages := pagesOf x.cur
  match pages.find? (fun page => !inWindow y page) with
  | some page => (pinFault s x cTRANSLATION (4096 * page), none)
  | none =>
    match pinXlat s x.cur (matchCtx s x.cur.p x.cur.plane x.cur.tag) x.w pages with
    | (s, .error (k, va)) => (pinFault s x k va, none)
    | (s, .ok xs) =>
      let pinned := (y.slots.filter (fun z => z.2.pin)).map (·.2.page)
      if 128 < pinned.length + (xs.filter (fun z => !pinned.contains z.1)).length then (pinFault s x cILLEGAL 0, none)
      else (s, some { x with began := true, todo := xs })

/-- The next page of an MPIN: it takes a slot, its missing sectors are asked for, and once all are there its pin is set. -/
def pinNext (s : State) (x : PinAsk) (page base : Nat) : State × PinAsk :=
  let p := x.cur.p
  match takeSlot s p x.w page base with
  | none => (s, x)
  | some (s, i) =>
    let y := wellAt s p x.w
    let sl := (tget? y.slots i).getD default
    let missing := (List.range 128).filter (fun k => !bit sl.have_ k)
    if missing.isEmpty then
      (setWell s p x.w { y with slots := tput y.slots i { sl with pin := true } },
        { x with todo := x.todo.tail, count := x.count + b2n (!sl.pin) })
    else
      ((missing.filter (fun k => !filling s p x.w (128 * page + k))).foldl
        (fun s k => fillReq s p x.w (128 * page + k) base (ownerOf s p x.w)) s, x)

/-- The first request at a well goes on as far as it can; with what is left of it. -/
def pinGo : Nat → State → PinAsk → State × Option PinAsk
  | 0, s, x => (s, some x)
  | n + 1, s, x =>
    match x.todo with
    | [] => (pinEmit s x, none)
    | y :: _ =>
      let r := pinNext s x y.1 y.2
      if r.2.todo.length < x.todo.length then pinGo n r.1 r.2 else (r.1, some r.2)

/-- A request at its well. -/
def pinStep (s : State) (x : PinAsk) : State × Option PinAsk :=
  if !x.pins then (unpin s x, none)
  else if x.began then pinGo 129 s x
  else match pinTest s x with
    | (s, some x) => pinGo 129 s x
    | r => r

/-- What the wells do for MPINs and MUNPINs in a cycle: each serves its requests in arrival order, one to its end before the next
(R371). -/
def pinsGo (s : State) : State :=
  s.pins.foldl (fun s x =>
    if s.pins.any (fun y => y.cur.p == x.cur.p && y.w == x.w) then { s with pins := s.pins ++ [x] }
    else
      let r := pinStep s x
      match r.2 with
      | some y => { r.1 with pins := r.1.pins ++ [y] }
      | none => r.1) { s with pins := [] }

/-- MPIN or MUNPIN at commit: the request goes to its well. -/
def pinAct (s : State) (c : Cur) (r : RecS) (pins : Bool) : State :=
  match pageWell s c (bits r.obj.toNat 7 0) with
  | none => faultCur s c cILLEGAL 0
  | some w => pinsGo { s with pins := s.pins ++ [{ cur := c, r := r, w := w, pins := pins }] }

/-- MPIN (R370, R371). -/
def execMpin (r : RecS) (s : State) : Outcome :=
  sAct s r (.mpin r) [0] (pageBad r 0 8) 6 (fun s c => pinCause s c r) (fun s c => pinAct s c r true)

/-- MUNPIN (R370). -/
def execMunpin (r : RecS) (s : State) : Outcome :=
  sAct s r (.munpin r) [0] (pageBad r 0 8) 6 (fun s c => pinCause s c r) (fun s c => pinAct s c r false)

/-! ## MINV -/

/-- A cached leaf overlaps a range of addresses. -/
def tlbMeets (e : TlbEntry) (lo hi : Nat) : Bool := decide (e.page * pageSize e.size < hi) && decide (lo < (e.page + 1) * pageSize e.size)

/-- Slots of a window in the range are written back and invalidated. -/
def dropSlots (s : State) (p w lo hi : Nat) : State :=
  (wellAt s p w).slots.foldl (fun s (y : Nat × PwSlot) =>
    if lo ≤ 4096 * y.2.page ∧ 4096 * y.2.page < hi then
      let s := flushSlot s p w y.1
      let x := wellAt s p w
      setWell s p w { x with slots := tdel x.slots y.1 }
    else s) s

/-- Released accesses of a context that have been translated and are not performed. -/
def usingLeaf (s : State) (ctx : Nat) : List Nat :=
  s.obufs.flatMap (fun o => (o.2.released.filter (fun a => a.ctx == ctx && a.r.space == 1 && !a.fin && !a.isNull && hasAddr a.op &&
    (a.left.isSome || a.combining))).map (·.id))

/-- MINVs whose accesses are all performed emit. -/
def minvGo (s : State) : State :=
  let live := s.obufs.flatMap (fun o => (o.2.released.filter (fun a => !a.fin)).map (·.id))
  let done := fun (x : Cur × RecS × List Nat) => x.2.2.all (fun i => !live.contains i)
  (s.minvs.filter done).foldl (fun s x => emitRes s { x.1 with late := true } (formS x.2.1) 6 (both (ackVal x.1.tag 0)))
    { s with minvs := s.minvs.filter (fun x => !done x) }

/-- MINV over a range. -/
def minvAct (s : State) (c : Cur) (r : RecS) (lo hi : Nat) : State :=
  let ctx := objCtx s c r
  let wait := usingLeaf s ctx
  let s := { s with tlb := s.tlb.filter (fun e => !(e.ctx == ctx && tlbMeets e lo hi)) }
  let s := (windows s).foldl (fun s k => if (wellAt s (k / 256) (k % 256)).owner = some ctx then dropSlots s (k / 256) (k % 256) lo hi else s) s
  minvGo (walksRestart { s with minvs := s.minvs ++ [(c, r, wait)] } ctx lo hi)

/-- The cause of MINV: the context, and system privilege. -/
def minvCause (s : State) (c : Cur) (r : RecS) : Option Nat :=
  match ctxCause s c r with
  | some k => some k
  | none => if privOf s (matchCtx s c.p c.plane c.tag) = 0 then some cPERMISSION else none

/-- MINV, SUB 0 (R370). -/
def execMinv (r : RecS) (s : State) : Outcome :=
  sAct s r (.minv r) [0] (pageBad r 0 8) 6 (fun s c => if rangeBad c (2 ^ 30) then some cILLEGAL else minvCause s c r)
    (fun s c => minvAct s c r (pageVa c) (pageVa c + 4096 * pageN c))

/-- MINV, SUB 1: every page of the context. -/
def execMinvContext (r : RecS) (s : State) : Outcome :=
  sAct s r (.minvContext r) [0] (pageBad r 1 8) 6 (fun s c => minvCause s c r) (fun s c => minvAct s c r 0 (2 ^ 56))

/-! ## MPROBE (R372) -/

/-- The cause of a probe: the context, and system privilege for another one. -/
def probeCause (s : State) (c : Cur) (r : RecS) : Option Nat :=
  match ctxCause s c r with
  | some k => some k
  | none =>
    let own := matchCtx s c.p c.plane c.tag
    if objCtx s c r ≠ own ∧ privOf s own = 0 then some cPERMISSION else none

/-- The right that a kind of access needs. -/
def kindRight (k : Nat) : Right := if k = 0 then .read else if k = 1 then .write else .both

/-- PSTATE of a page, in the well named (R369). -/
def pageState (s : State) (p : Nat) (w : Option Nat) (va : Nat) (leaf : Option Word64) : Nat :=
  match leaf with
  | none => 0
  | some l =>
    if bit l.toNat 60 then 4
    else match w.bind (fun w => slotOf (wellAt s p w) (va / 4096)) with
      | some (_, sl) => if sl.pin then 2 else 3
      | none => 1

/-- The code of a cause in the status word. -/
def faultCode : Xlat → Nat × Nat
  | .ok pa _ => (0, pa)
  | .bad k => (if k = cTRANSLATION then 1 else if k = cPERMISSION then 2 else 3, 0)

/-- A probe: the leaf and the status word. -/
def probeAct (s : State) (c : Cur) (r : RecS) : State :=
  let ctx := objCtx s c r
  let va := pageVa c
  let w := if bits r.obj.toNat 15 8 = 0xFF then none else pageWell s c (bits r.obj.toNat 15 8)
  let x := if 2 ^ 56 ≤ va then (s, WalkEnd.bad cTRANSLATION) else leafNow s ctx c.p 240 va
  let s := x.1
  let leaf := match x.2 with
    | .leaf l => some l
    | .bad _ => none
  let f : Nat × Nat := match x.2 with
    | .leaf l => faultCode (underLeaf s ctx l va (kindRight (pageN c % 4)))
    | .bad k => faultCode (.bad k)
  let level := match leaf with
    | some l => sizeLevel (pteSize l)
    | none => 0
  let word := put (pageState s c.p w va leaf) 61 + put level 58 + put f.1 56 + f.2
  emitRes s c (formS r) 7 (both { tag := c.tag, ty := 7, lanes := wordsLanes [(leaf.getD 0).toNat, word] })

/-- MPROBE, SUB 0. -/
def execMprobe (r : RecS) (s : State) : Outcome :=
  sAct s r (.mprobe r) [0] (pageBad r 0 16) 7
    (fun s c =>
      if pageN c % 4 = 3 ∨ (bits r.obj.toNat 15 8 ≠ 0xFF ∧ (pageWell s c (bits r.obj.toNat 15 8)).isNone) then some cILLEGAL
      else probeCause s c r)
    (fun s c => probeAct s c r)

/-- The die that OBJ[9:8] names. -/
def probeDie (c : Cur) (r : RecS) : Nat := if bits r.obj.toNat 9 8 = 3 then dieOf c.p else bits r.obj.toNat 9 8

/-- The six counters of a context at a die (R368). -/
def trafficWords (s : State) (die ctx : Nat) : List Nat := (List.range 6).map (fun k => tgetD s.traffic (trafficKey die ctx k) 0)

/-- MPROBE, SUB 1: the counters. -/
def execMprobeRead (r : RecS) (s : State) : Outcome :=
  sAct s r (.mprobeRead r) [0] (pageBad r 1 10) 7 (fun s c => probeCause s c r)
    (fun s c => emitRes s c (formS r) 7
      (both { tag := c.tag, ty := 7, lanes := wordsLanes (trafficWords s (probeDie c r) (objCtx s c r)) }))

/-- MPROBE, SUB 2: the counters, which are cleared. -/
def execMprobeReadClear (r : RecS) (s : State) : Outcome :=
  sAct s r (.mprobeReadClear r) [0] (pageBad r 2 10) 7 (fun s c => probeCause s c r)
    (fun s c =>
      let die := probeDie c r
      let ctx := objCtx s c r
      let v : Val := { tag := c.tag, ty := 7, lanes := wordsLanes (trafficWords s die ctx) }
      emitRes { s with traffic := (List.range 6).foldl (fun t k => tdel t (trafficKey die ctx k)) s.traffic } c (formS r) 7 (both v))

end Sys2Proof.Machine
end

