-- ==== Sys2Proof/Machine/Trap.lean ====
section
/-!
DEFINITION. Traps, the fault mailbox and poison (20 R396 to R402): TRAP, TRET, FTAKE, PTEST, taking a trap, the double fault,
and the strike of an uncorrectable error.
-/
namespace Sys2Proof.Machine

/-- CTL, CF and OBJ[31:16] are 0 in TRAP, TRET and FTAKE (R398). -/
def trapRecBad (r : RecS) (sub : BitVec 8) (objHi : Nat) : Bool :=
  r.sub != sub || r.cf != 0 || r.ctl != { lituse := 0, pred := false, emit0 := 0, emit1 := 0, nullpass := false } ||
    r.obj.toNat / 2 ^ objHi != 0

/-! ## TRAP and TRET (R398) -/

/-- TRAP: pends a trap at commit. R401 lets no operand of these records fault: the trigger may be poisoned. -/
def execTrap (r : RecS) (s : State) : Outcome :=
  sActP false s r (.trap r) [0] (trapRecBad r 0 16) 6 noChk (fun s c =>
    setScribe s c.p { scribeAt s c.p with trapPend := some (r.obj.toNat % 2 ^ 16) })

/-- TRET: returns at commit; its block's exit is checked there. -/
def execTret (r : RecS) (s : State) : Outcome :=
  sActP false s r (.tret r) [0] (trapRecBad r 0 0) 6 noChk (fun s c => trapReturn s c.p)

/-! ## FTAKE (R398) -/

/-- The context of the block that scribe `p` holds: its plane's. -/
def blockCtx (s : State) (p : Nat) : Nat :=
  match (scribeAt s p).cur with
  | some b => (planeOf s p b.plane).ctx
  | none => (planeOf s p ((panelAt s p).scribePlane.getD 0)).ctx

/-- The oldest entry of the block's context that no FTAKE of the block has claimed, with its place. -/
def takeEntry (s : State) (p : Nat) : Option (Nat × MbEntry) :=
  let claims := match (scribeAt s p).cur with
    | some b => b.claims
    | none => []
  let es := (boxAt s p).entries
  (List.range es.length).foldl (fun (best : Option (Nat × MbEntry)) i => match best with
    | some x => some x
    | none => match es[i]? with
      | some e => if e.ctx = blockCtx s p ∧ !claims.contains i then some (i, e) else none
      | none => none) none

/-- Remove the oldest entry of the context from the mailbox. -/
def dropEntry (s : State) (p : Nat) : State :=
  let b := boxAt s p
  match idxOf (fun e => e.ctx == blockCtx s p) b.entries with
  | some i => { s with boxes := tsetD s.boxes p { b with entries := dropAt b.entries i } {} }
  | none => s

/-- The held record of an entry is sent again (SUB 1). -/
def retryHeld (s : State) (p : Nat) (e : MbEntry) : State :=
  let o := obufAt s p e.osite
  advance (setObuf s p e.osite
    { o with released := o.released.map (fun a => if a.id = e.acc then { a with heldFault := false, left := none, got := [], poison := false } else a) })
    p e.osite

/-- The held record and every later one of its chain, present or yet to arrive, become null accesses (SUB 2). -/
def discardHeld (s : State) (p : Nat) (e : MbEntry) : State :=
  let o := obufAt s p e.osite
  let ids := match chainOf o e.acc with
    | some c => c.outst.dropWhile (fun x => x != e.acc)
    | none => []
  let o' : OBuf :=
  { o with
    chains := o.chains.map (fun c => if c.outst.contains e.acc then { c with discard := true } else c)
    released := o.released.map (fun a => if ids.contains a.id then { a with heldFault := false, isNull := true, discard := true } else a) }
  advance (settleOrders (setObuf s p e.osite o') p e.osite) p e.osite

/-- The effect of an FTAKE at commit. -/
def takeAtCommit (r : RecS) (s : State) (p : Nat) (e : MbEntry) : State :=
  let s := dropEntry s p
  if r.sub = 1 then retryHeld s p e else if r.sub = 2 then discardHeld s p e else s

/-- The value of an FTAKE: the entry, all zero for an empty mailbox. -/
def entryVal (c : Cur) (e : Option MbEntry) : Val :=
  { tag := c.tag, ty := 7, lanes := wordsLanes (match e with
      | some e => mbWords e
      | none => [0, 0, 0, 0]) }

/-- The firing of FTAKE: it reads, claims and emits at issue, and removes at commit. -/
def takeFire (r : RecS) (sub : BitVec 8) (i : Instr) (s : State) : Outcome :=
  if s.cur.site ≠ 240 then .refused .noMatch
  else sFire s r [0] (trapRecBad r sub 0) false 7 (fun s c =>
    match takeEntry s c.p with
    | none =>
      if c.late then s
      else if sub = 1 ∨ sub = 2 then faultCur s c cILLEGAL 0
      else emitRes s c (formS r) 7 (both (entryVal c none))
    | some (k, e) =>
      if c.late then takeAtCommit r s c.p e
      else if (sub = 1 ∨ sub = 2) ∧ !e.chain then faultCur s c cILLEGAL 0
      else
        let s := emitRes s c (formS r) 7 (both (entryVal c (some e)))
        if sub = 3 then s
        else if inBlock s then onBlock (holdEff s i) c.p (fun b => { b with claims := b.claims ++ [k] })
        else takeAtCommit r s c.p e)

/-- FTAKE, SUB 0. -/
def execFtake (r : RecS) (s : State) : Outcome := takeFire r 0 (.ftake r) s
/-- FTAKE, SUB 1. -/
def execFtakeRetry (r : RecS) (s : State) : Outcome := takeFire r 1 (.ftakeRetry r) s
/-- FTAKE, SUB 2. -/
def execFtakeDiscard (r : RecS) (s : State) : Outcome := takeFire r 2 (.ftakeDiscard r) s
/-- FTAKE, SUB 3. -/
def execFtakePeek (r : RecS) (s : State) : Outcome := takeFire r 3 (.ftakePeek r) s

/-! ## PTEST (R402) -/

/-- The report of a PTEST. -/
def ptestReport (s : State) (c : Cur) (r : RecN) : State :=
  post s { tag := c.tag, cause := cPOISON, kind := 1, site := c.site, node := c.node, plane := c.plane, panel := c.p,
           ctx := matchCtx s c.p c.plane c.tag, info := r.lit.toNat }

/-- PTEST: passes a, tells whether it is poisoned, and reports; in a block the report is posted at commit. -/
def execPtest (r : RecN) (s : State) : Outcome :=
  let c := s.cur
  let ps := portSet [0] r.ctl
  let a := portTok c 0
  if !hasPorts c ps then .refused .noMatch
  else if r.hi.toNat / 4 != 0 || r.fmt != 0 || r.cf != 0 || r.ctl.lituse != 0 || badCtl [0] r.ctl || anyBlock c ps then
    .next (faultCur s c cILLEGAL 0)
  else if anyNull c ps then .next (if r.ctl.nullpass then moveNulls s c (formN r) a else s)
  else if predFalse r.ctl c then .next (moveNulls s c (formN r) a)
  else if c.late then .next (ptestReport s c r)
  else
    let v := passVal r.ctl c a
    let flag : Val := { tag := c.tag, ty := 6, lanes := [BitVec.ofNat 32 (b2n a.poison)] }
    let xs := destSends r.d0 r.ctl.emit0 (curPoison c) a.poison false v (some v) ++
      (if r.hi.getLsbD 1 then destSends r.d1 r.ctl.emit1 false a.poison false v (some flag)
       else destSends r.d1 r.ctl.emit1 (curPoison c) a.poison false v (some v))
    if xs.any (tooWide s c) then .next (faultCur s c cILLEGAL 0)
    else
      let s1 := if r.hi.getLsbD 0 ∧ a.poison then (if inBlock s then holdEff s (.ptest r) else ptestReport s c r) else s
      .next (sends s1 c xs)

/-! ## Taking a trap (R397, R399) -/

/-- A double fault: the scribe enters no further block, an entry of KIND 2 is posted, and the partition freezes. -/
def doubleFault (s : State) (p cause info : Nat) : State :=
  let k := (panelAt s p).scribePlane.getD 0
  let ctx := (planeOf s p k).ctx
  let s := setScribe s p { scribeAt s p with stopped := true, exact := none }
  let s := post s { tag := (scribeAt s p).btag, cause := cause, kind := 2, site := 240, plane := k, panel := p, ctx := ctx, info := info }
  let part := partOf s ctx
  if pctlAdmits (partAt s part).pstate 2 then freezeStart s part false else s

/-- The scribe of a panel stands at a block boundary, or rests, and is not gated. -/
def atBoundary (s : State) (p : Nat) : Bool :=
  let sc := scribeAt s p
  sc.cur.isNone && !sc.stopped && !gatedCtx s p 240 (blockCtx s p)

/-- TRAP_TAKEN (R397): the first trap that is due enters the handler, or is a double fault. -/
def execTrapTaken (s : State) : Outcome :=
  let p := s.sel.p
  if !atBoundary s p ∨ thand (scribeAt s p) then notNow
  else
    match trapDue s p with
    | none => notNow
    | some d => .next (if handlerOk s p then takeTrap s p d else doubleFault s p d.cause d.code)

/-! ## Uncorrectable errors (R400) -/

/-- Keys of the lifetime counters (26 R415): an item, and the unit that it counts for. -/
def lifeKey (item unit : Nat) : Nat := item * 2 ^ 20 + unit

/-- Items: 0 hours, 1 correctable and 2 uncorrectable SRAM errors, 3 DRAM errors and poison reports, 4 replays, 5 resets,
6 failed trainings, 7 self-test failures, 8 and 9 the histograms, 10 die-link failures. -/
def lifeAdd (s : State) (item unit n : Nat) : State :=
  let k := lifeKey item unit
  { s with mgmt := { s.mgmt with counters := tsetD s.mgmt.counters k (min (tgetD s.mgmt.counters k 0 + n) (2 ^ 64 - 1)) 0 } }

/-- The units of item 2: a site, and an L2 bank. -/
def unitSite (p site : Nat) : Nat := siteKey p site
def unitBank (die hf : Nat) : Nat := 2 ^ 17 + 64 * die + bankOf hf

/-- A report of the finding unit to the mailbox of panel `g`. -/
def strikeReport (s : State) (g site addr : Nat) (t : Token) (ctx : Nat) : State :=
  postAt s g { tag := t.tag, addr := addr, cause := cPOISON, kind := 1, site := site, node := t.node.toNat, port := t.port.toNat,
               plane := t.plane.toNat, panel := g, ctx := ctx }

/-- A token with its poison set; a null carries none (R401). -/
def strikeTok (t : Token) : Token := { t with poison := !t.null }

/-- Operand `j` of a match's or group's operands, and those with it struck. -/
def strikeOp (ops : List (Nat × Token)) (j : Nat) : Option (Token × List (Nat × Token)) :=
  (ops[j]?).map (fun x => (x.2, setAt ops j (x.1, strikeTok x.2)))

/-- Operand `j` in row `k` of a nib, and the nib with it struck: the rows are those of waiting operands, then those of ready matches, of
matches that wait, and of REPEAT's invariants. -/
def strikeRow (n : Nib) (k j : Nat) : Option (Token × Nib) :=
  match n.groups[k]? with
  | some g => (strikeOp g.ops j).map (fun x => (x.1, { n with groups := setAt n.groups k { g with ops := x.2 } }))
  | none =>
    let k := k - n.groups.length
    match n.ready[k]? with
    | some m => (strikeOp m.ops j).map (fun x => (x.1, { n with ready := setAt n.ready k { m with ops := x.2 } }))
    | none =>
      let k := k - n.ready.length
      match n.waits[k]? with
      | some w => (strikeOp w.m.ops j).map (fun x => (x.1, { n with waits := setAt n.waits k { w with m := { w.m with ops := x.2 } } }))
      | none =>
        let k := k - n.waits.length
        (n.sticky[k]?).map (fun y => (y.tok, { n with sticky := setAt n.sticky k { y with tok := strikeTok y.tok } }))

/-- The context of a struck token. -/
def strikeCtx (s : State) (p : Nat) (t : Token) : Nat := matchCtx s p t.plane.toNat t.tag

/-- A store of a plane that is STAGING reports an error at its read-back: the stage ends with FAIL 6 (15 R321, R322). -/
def loadError (s : State) (p k : Nat) : State :=
  let x := planeOf s p k
  if x.state = 1 ∧ x.verdict = 0 then setPlane s p k { x with verdict := failStore } else s

/-- UNCORRECTABLE_ERROR (R400): the store that `loc` names is struck. For memory the request that found it brings its site
and context. -/
def execUncorrectableError (s : State) : Outcome :=
  let x := s.sel
  match x.loc with
  | .dram addr g =>
    if 3 * 2 ^ 42 ≤ addr ∨ 3 * 2 ^ 40 ≤ addr % 2 ^ 42 ∨ 48 ≤ g then notNow
    else
    let s1 := { s with memBad := tsetD s.memBad (addr / 32) true false }
    .next (lifeAdd (strikeReport s1 g x.site addr {} x.ctx) 3 (arbMem addr % 2 ^ 16) 1)
  | .l2 die addr g =>
    (match l2At s die addr with
     | none => notNow
     | some e => .next (lifeAdd (strikeReport (putL2 s die addr { e with poison := true }) g x.site addr {} x.ctx) 2 (unitBank die addr) 1))
  | .well p w sector =>
    if !isWell w ∨ 16384 ≤ sector then notNow
    else
      let s1 := { s with wbad := tsetD s.wbad (siteKey p w * 16384 + sector) true false }
      .next (lifeAdd (strikeReport s1 p w (32 * sector) {} x.ctx) 2 (unitSite p w) 1)
  | .row p site k =>
    (match strikeRow (nibAt s p site) k x.num with
     | none => notNow
     | some (t, n) => .next (lifeAdd (strikeReport (setNib s p site n) p site 0 t (strikeCtx s p t)) 2 (unitSite p site) 1))
  | .frame p w k =>
    let y := wellAt s p w
    (match y.frames[k]? with
     | none => notNow
     | some f => match f.slots[x.num]? with
       | none => notNow
       | some o =>
         let f' := { f with slots := setAt f.slots x.num { o with tok := strikeTok o.tok } }
         let s1 := setWell s p w { y with frames := setAt y.frames k f' }
         .next (lifeAdd (strikeReport s1 p w 0 o.tok (strikeCtx s p o.tok)) 2 (unitSite p w) 1))
  | .outQueue k =>
    (match s.transit[k]? with
     | none => notNow
     | some f =>
       let s1 := { s with transit := setAt s.transit k { f with tok := strikeTok f.tok } }
       .next (lifeAdd (strikeReport s1 f.p (f.src % 256) 0 f.tok (strikeCtx s f.p f.tok)) 2 (unitSite f.p (f.src % 256)) 1))
  | .record p site plane node =>
    let t : Token := { node := BitVec.ofNat 5 node, plane := BitVec.ofNat 2 plane }
    let ctx := (planeOf s p plane).ctx
    let s := loadError s p (if site = 240 then node / 64 / 256 else plane)
    if site = 240 then
      let sc := scribeAt s p
      .next (lifeAdd (strikeReport (setScribe s p { sc with storeBad := node :: sc.storeBad.filter (· != node) }) p 240 0
        { t with node := 0 } ctx) 2 (unitSite p 240) 1)
    else if !isNib site ∨ 32 ≤ node ∨ 4 ≤ plane then notNow
    else
      let n := nibAt s p site
      let k := nodeKey plane node
      .next (lifeAdd (strikeReport (setNib s p site { n with storeBad := k :: n.storeBad.filter (· != k) }) p site 0 t ctx) 2
        (unitSite p site) 1)

end Sys2Proof.Machine
end

