-- ==== Sys2Proof/Machine/Link.lean ====
section
/-!
DEFINITION. Links (19 R373 to R381, R390, R416): states and incarnations, LSTAT and LCTL, the route table, flits received, and
requests that complete with STALE_TOKEN.
-/
namespace Sys2Proof.Machine

/-! ## What a link is (R373) -/

def isDieLink (l : Nat) : Bool := decide (l < 3)
def isPort (l : Nat) : Bool := decide (3 ≤ l) && decide (l < 27)
def isHostPort (l : Nat) : Bool := l == 27

/-- A saturating counter of `n` bits. -/
def satBits (n v : Nat) : Nat := min v (2 ^ n - 1)

/-- The two dies of a die link. -/
def dieLinkEnds (l : Nat) : List Nat := if l = 0 then [0, 1] else if l = 1 then [1, 2] else [0, 2]

/-! ## Completion with STALE_TOKEN (R377) -/

/-- Requests whose next hop is a domain port. -/
def nextHop (l : Nat) (r : Req) : Bool := r.path.head? == some (arbPort l)

/-- A domain port has left UP: what it holds for sending is gone, and every request of this part whose next hop it is
completes at once. A response that has come goes on to its die. -/
def portLeaves (s : State) (l : Nat) : State :=
  let rs := s.reqs.filter (nextHop l)
  let lost := fun (x : Remote) => x.link == l && x.ans.isNone
  let ms := s.remotes.filter lost
  let s := setLink s l { linkAt s l with txq := [], bad := 0 }
  let s := { s with reqs := s.reqs.filter (fun r => !nextHop l r), remotes := s.remotes.filter (fun x => !lost x) }
  let s := rs.foldl staleReq s
  ms.foldl (fun s (x : Remote) => match x.req with
    | some r => staleReq s r
    | none => s) s

/-- An access at an edge unit at SYSTEM scope, in progress. -/
def systemNow (a : Access) : Bool :=
  a.r.scope == 5 && !a.isNull && !a.heldFault && (a.left.isSome || a.combining)

/-- The host port has left UP: every access at SYSTEM scope in progress completes with STALE_TOKEN (R379), and what the host reads is
lost. -/
def hostLeaves (s : State) : State :=
  let as := s.obufs.flatMap (fun o => o.2.released.filter systemNow)
  let s := { s with
    addends := s.addends.filter (fun x => !(as.any (fun a => a.id == x.2.2.id)))
    accSlots := s.accSlots.map (fun x => { x with staged := x.staged.filter (fun y => !(as.any (fun a => a.id == y.2.id))) })
    reqs := s.reqs.filter (fun r => match r.kind with
      | .piece _ _ id _ _ => !(as.any (fun a => a.id == id))
      | .host _ _ bs _ => !bs.isEmpty
      | _ => true)
    hostOps := s.hostOps.filter (·.write) }
  let s := as.foldl (fun s (a : Access) => advance (accStale s a (elemAddr a 0)) a.p (ositeOf a)) s
  (s.xfers.filter (fun x => x.arr.isNone && xScope x.desc == 5)).foldl (fun s (x : Xfer) => xferFail s x cSTALE 0) s

/-- What follows when a link leaves UP. -/
def leavesUp (s : State) (l : Nat) : State :=
  if isPort l then portLeaves s l else if isHostPort l then hostLeaves s else s

/-- UP to DOWN, and UP to RESETTING (R376). -/
def linkDown (s : State) (l : Nat) : State := leavesUp (setLink s l { linkAt s l with state := 0 }) l
def linkReset (s : State) (l : Nat) : State := leavesUp (setLink s l { linkAt s l with state := 3, since := s.cycle }) l

/-- A context RESIDENT on a die (R378). -/
def residentOn (s : State) (dies : List Nat) : Bool :=
  s.ctxs.any (fun x => x.2.state == 3 && x.2.panels.any (fun p => dies.contains (dieOf p)))

/-! ## LSTAT and LCTL (R390) -/

/-- The status words of a link. -/
def linkWords (x : Link) : List Nat :=
  [put x.state 62 + put x.inc.toNat 54 + put (x.lanes % 64) 48 + put (x.fails % 65536) 32 + x.stale % 2 ^ 32,
   put x.replays 32 + x.resets % 2 ^ 32]

/-- Fields that are not admitted. -/
def linkRecBad (r : RecS) (sub : BitVec 8) : Bool := r.sub != sub || r.cf != 0 || bits r.obj.toNat 31 8 != 0

/-- The link that OBJ names. -/
def objLink (r : RecS) : Nat := bits r.obj.toNat 7 0

/-- LSTAT: a snapshot, taken at commit. -/
def execLstat (r : RecS) (s : State) : Outcome :=
  sAct s r (.lstat r) [0] (linkRecBad r 0 || decide (27 < objLink r)) 7 noChk (fun s c =>
    emitRes s c (formS r) 7 (both { tag := c.tag, ty := 7, lanes := wordsLanes (linkWords (linkAt s (objLink r))) }))

/-- LCTL needs hypervisor privilege. -/
def lctlCause (s : State) (c : Cur) : Option Nat :=
  if privOf s (matchCtx s c.p c.plane c.tag) = 2 then none else some cPERMISSION

/-- The status of an LCTL. -/
def lctlSays (s : State) (c : Cur) (r : RecS) (status : Nat) : State := emitRes s c (formS r) 6 (both (ackVal c.tag status))

/-- An LCTL that names a link: REFUSED changes nothing. -/
def lctlLink (r : RecS) (sub : BitVec 8) (i : Instr) (s : State) (ok : State → Nat → Bool) (act : State → Nat → State) : Outcome :=
  sAct s r i [0] (linkRecBad r sub || decide (27 < objLink r)) 6 lctlCause (fun s c =>
    let l := objLink r
    if isHostPort l ∨ !ok s l then lctlSays s c r 2 else lctlSays (act s l) c r 0)

/-- DOWN and RESET of a die link are refused while a context is RESIDENT on its dies (R378). -/
def mayLeave (s : State) (l : Nat) : Bool :=
  (linkAt s l).state == 2 && !(isDieLink l && residentOn s (dieLinkEnds l))

/-- A link enters TRAINING: INC increases (R375). -/
def linkTrain (s : State) (l : Nat) : State := setLink s l { linkAt s l with state := 1, inc := (linkAt s l).inc + 1 }

/-- LCTL, SUB 1. -/
def execLctlTrain (r : RecS) (s : State) : Outcome :=
  lctlLink r 1 (.lctlTrain r) s (fun s l => (linkAt s l).state == 0) linkTrain

/-- LCTL, SUB 2. -/
def execLctlDown (r : RecS) (s : State) : Outcome := lctlLink r 2 (.lctlDown r) s mayLeave linkDown

/-- LCTL, SUB 3. -/
def execLctlReset (r : RecS) (s : State) : Outcome := lctlLink r 3 (.lctlReset r) s mayLeave linkReset

/-- LCTL, SUB 5: every counter but INC. -/
def execLctlClearCounters (r : RecS) (s : State) : Outcome :=
  lctlLink r 5 (.lctlClearCounters r) s (fun _ _ => true) (fun s l =>
    setLink s l { linkAt s l with fails := 0, stale := 0, replays := 0, resets := 0 })

/-! ## Routes and the own number (R380, R390, R416) -/

/-- A request of this part to a device number is in flight. -/
def devBusy (s : State) (dev : Nat) : Bool :=
  s.remotes.any (fun x => x.dev == dev) ||
    s.reqs.any (fun r => match r.kind with
      | .piece _ _ _ _ pa => bits pa 55 44 == dev
      | .fill .. => bits r.addr 55 44 == dev
      | .flush .. => bits r.addr 55 44 == dev
      | .carry .. => bits r.addr 55 44 == dev
      | .xferSector x _ _ =>
        (match xferOf s x with
        | some y => (match y.arr with
          | some (_, d) => d == dev
          | none => (xSspace y.desc != 0 && bits r.addr 55 44 == dev) || (xDspace y.desc != 0 && bits r.dst 55 44 == dev))
        | none => false)
      | _ => false)

/-- The numbers that a request waits for. -/
def askDevs (s : State) (a : RouteAsk) : List Nat :=
  (if a.own then [s.owndev.toNat, a.val] else [a.dev]).filter (· != 0xFFF)

/-- A route or the own number is written, and the status sent. -/
def routeWrite (s : State) (a : RouteAsk) : State :=
  let s := if a.own then { s with owndev := BitVec.ofNat 12 a.val }
    else { s with routes := if a.val = 0xFF then tdel s.routes a.dev else tput s.routes a.dev a.val }
  lctlSays s a.cur a.r 0

/-- Requests that wait for a number to come out of use, each written once it has. -/
def routesGo (s : State) : State :=
  s.routeAsks.foldl (fun s (a : RouteAsk) =>
    if (askDevs s a).any (devBusy s) then { s with routeAsks := s.routeAsks ++ [a] } else routeWrite s a)
    { s with routeAsks := [] }

/-- The operands of LCTL SUB 4: DEV and the link. -/
def routeDev (c : Cur) : Nat := laneN (portTok c 0).lanes 0
def routeLink (c : Cur) : Nat := laneN (portTok c 0).lanes 1

/-- The cause of a route that is not admitted. -/
def routeCause (s : State) (c : Cur) : Option Nat :=
  match lctlCause s c with
  | some k => some k
  | none =>
    if 1152 ≤ routeDev c ∨ !(isPort (routeLink c) || routeLink c == 0xFF) ∨
        (routeDev c = s.owndev.toNat ∧ routeLink c ≠ 0xFF) then some cILLEGAL
    else none

/-- The cause of a number that is not admitted. -/
def ownCause (s : State) (c : Cur) : Option Nat :=
  match lctlCause s c with
  | some k => some k
  | none =>
    let v := laneN (portTok c 0).lanes 0
    if (1152 ≤ v ∧ v ≠ 0xFFF) ∨ (routeOf s v).isSome then some cILLEGAL else none

/-- LCTL, SUB 4. -/
def execLctlRoute (r : RecS) (s : State) : Outcome :=
  sAct s r (.lctlRoute r) [0] (linkRecBad r 4 || r.obj != 0) 6 routeCause (fun s c =>
    routesGo { s with routeAsks := s.routeAsks ++ [{ cur := c, r := r, dev := routeDev c, val := routeLink c, own := false }] })

/-- LCTL, SUB 6. -/
def execLctlOwnNumber (r : RecS) (s : State) : Outcome :=
  sAct s r (.lctlOwnNumber r) [0] (linkRecBad r 6 || r.obj != 0) 6 ownCause (fun s c =>
    routesGo { s with routeAsks := s.routeAsks ++
      [{ cur := c, r := r, dev := 0, val := laneN (portTok c 0).lanes 0, own := true }] })

/-! ## Flits (R374, R375, R377, R380) -/

/-- An address in home-die form that names a byte of this part's memory. -/
def homeOk (hf : Nat) : Bool := decide (hf < 3 * 2 ^ 42) && decide (hf % 2 ^ 42 < 3 * 2 ^ 40) && !aperture hf

/-- The request of another part joins the arbiters on its way to the home bank (06 R130). -/
def incomingReq (s : State) (l : Nat) (x : Flit) (addr : Nat) : State :=
  if !homeOk addr then s
  else
    let home := homeDie addr
    { s with reqs := s.reqs ++ [{ kind := .incoming l x.src.toNat x.body, path := linkPath (portDie l) home ++ [arbBank home addr],
                                  born := s.cycle, ctx := noCtx, issuer := 16 * portDie l, addr := paOf addr, ctag := 64,
                                  carried := x.carried, came := s.cycle }] }

/-- The fate of a COLL at another part (R389). -/
def collFate (s : State) (m : Remote) (taken : Bool) : State :=
  match m.req with
  | some r => (match r.kind with
    | .xferSector x _ _ =>
      (match xferOf s x with
       | some y => tagDone { s with xfers := s.xfers.filter (fun z => z.id != x) } y.p y.r.ctag.toNat taken
       | none => s)
    | _ => s)
  | none => s

/-- The request of this part with an id, taken from those that wait for their answer. -/
def takeRemote (s : State) (id : Nat) : Option (Remote × State) :=
  match s.remotes.find? (fun x => x.id == id) with
  | some m => some (m, { s with remotes := s.remotes.filter (fun x => x.id != id) })
  | none => none

/-- The die that a request was sent from. -/
def issuerDie (m : Remote) : Nat :=
  match m.req with
  | some r => dieOf r.issuer
  | none => portDie m.link

/-- The response to a request comes in on a port: it goes on to the request, over the die link when that was sent from another die. -/
def answerAt (s : State) (l id : Nat) (bs : List Byte) (poison : Bool) : State :=
  match takeRemote s id with
  | none => s
  | some (m, s1) =>
    if m.ans.isSome then s
    else if issuerDie m = portDie l then answer s1 m bs poison
    else
      { s with remotes := s.remotes.map (fun x => if x.id = id then { x with ans := some (bs, poison) } else x)
               reqs := s.reqs ++ [{ kind := .back id, path := linkPath (portDie l) (issuerDie m), born := s.cycle,
                                    ctx := (m.req.map (·.ctx)).getD noCtx, issuer := 16 * portDie l, addr := 0, ctag := 64,
                                    data := some (bs, poison) }] }

/-- A flit for this part is performed. -/
def performFlit (s : State) (l : Nat) (x : Flit) : State :=
  match x.body with
  | .read _ addr _ => incomingReq s l x addr
  | .write _ addr _ _ => incomingReq s l x addr
  | .atomic _ addr _ _ _ _ _ => incomingReq s l x addr
  | .acc _ addr _ _ _ _ _ _ _ => incomingReq s l x addr
  | .promote _ addr _ _ => incomingReq s l x addr
  | .response id bs poison => answerAt s l id bs poison
  | .coll id g t round tag ty lanes poison =>
    if 48 ≤ g ∨ 8 ≤ t then s
    else { s with arrivals := s.arrivals ++
      [{ p := g, table := t, round := round, tag := tag, ty := ty, lanes := lanes, poison := poison, link := some l, coll := id,
         origin := some x.src.toNat }] }
  | .accepted id taken => (match takeRemote s id with
    | some (m, s') => collFate s' m taken
    | none => s)
  | .fence _ => s

/-- The context whose request a flit's data answers. -/
def flitCtx (s : State) (x : Flit) : Nat :=
  match x.body with
  | .response id _ _ => (match s.remotes.find? (fun m => m.id == id) with
    | some m => (m.req.map (·.ctx)).getD noCtx
    | none => noCtx)
  | _ => noCtx

/-- A flit for this part, or one to be forwarded by the route table, unread, through the arbiters to its port (06 R134, R135); one
with no route is lost (R380). -/
def deliverFlit (s : State) (l : Nat) (x : Flit) : State :=
  let s := if bodyData x.body then count32 s (portDie l) (flitCtx s x) 4 else s
  if x.dev = 0xFFF ∨ x.dev = s.owndev then performFlit s l x
  else
    match portPath s (portDie l) x.dev.toNat with
    | none => s
    | some path =>
      { s with reqs := s.reqs ++ [{ kind := .forward x, path := path, born := s.cycle, ctx := noCtx, issuer := 16 * portDie l, addr := 0,
                                    ctag := 64, carried := x.carried, came := s.cycle }] }

/-- A flit whose CRC fails is asked for again; the eighth replay that fails in a row sends a domain port to RESETTING, and a
die link to DIE_LINK_FAILURE (R374, R378). -/
def crcFail (s : State) (l : Nat) : State :=
  let x := linkAt s l
  if x.bad < 8 then
    lifeAdd (setLink s l { x with bad := x.bad + 1, replays := satBits 32 (x.replays + 1) }) 4 l 1
  else if isPort l then linkReset s l
  else setLink s l { x with bad := 9 }

/-- An arrival from this link waits in its receive buffer for the hold area (R384). -/
def linkBlocked (s : State) (l : Nat) : Bool := s.arrivals.any (fun a => a.link == some l && (ruleMeet s a).isNone)

/-- FLIT_RECEIVE (R375): CRC, then the incarnation, then the device. What a die link carries has its effect at the arbiters;
only its checks stand here. -/
def execFlitReceive (s : State) : Outcome :=
  let l := s.sel.link
  let x := s.sel.flit
  let k := linkAt s l
  if 27 ≤ l ∨ k.state ≠ 2 ∨ linkBlocked s l then notNow
  else if !x.crcOk then .next (crcFail s l)
  else
    let s1 := setLink s l { k with bad := 0 }
    if x.inc ≠ k.inc then .next (setLink s l { k with bad := 0, stale := satBits 32 (k.stale + 1) })
    else if isDieLink l then .next s1
    else .next (deliverFlit s1 l x)

/-- RESPONSE_TIMEOUT (R377): 2^20 cycles after it was sent, request `k` to another part completes with STALE_TOKEN. -/
def execResponseTimeout (s : State) : Outcome :=
  match s.remotes[s.sel.k]? with
  | none => notNow
  | some m =>
    if s.cycle < m.sent + 2 ^ 20 ∨ m.ans.isSome then notNow
    else
      let s1 := { s with remotes := dropAt s.remotes s.sel.k }
      .next (match m.req with
        | some r => staleReq s1 r
        | none => s1)

/-! ## Link events (R376 to R379) -/

/-- Lanes that a link may have: a domain port 8 (01 R25), the host port 8 or 16 (R379). -/
def lanesOk (l n : Nat) : Bool := if isPort l then n == 8 else if isHostPort l then n == 8 || n == 16 else decide (n < 64)

/-- TRAINING_COMPLETE: every lane is trained; `num` says how many there are. -/
def execTrainingComplete (s : State) : Outcome :=
  let l := s.sel.link
  if 28 ≤ l ∨ (linkAt s l).state ≠ 1 ∨ !lanesOk l s.sel.num then notNow
  else .next (setLink s l { linkAt s l with state := 2, lanes := s.sel.num, bad := 0 })

/-- TRAINING_FAIL: 16 attempts fail. Requests that need the link complete with STALE_TOKEN, since it is DOWN (R377). -/
def execTrainingFail (s : State) : Outcome :=
  let l := s.sel.link
  if 28 ≤ l ∨ (linkAt s l).state ≠ 1 then notNow
  else
    let x := linkAt s l
    .next (lifeAdd (leavesUp (setLink s l { x with state := 0, fails := satBits 16 (x.fails + 1) }) l) 6 l 1)

/-- RESETTING_DRAINED: no flit of the old incarnation remains. -/
def execResettingDrained (s : State) : Outcome :=
  let l := s.sel.link
  let x := linkAt s l
  if 28 ≤ l ∨ x.state ≠ 3 then notNow
  else .next (lifeAdd (linkTrain (setLink s l { x with resets := satBits 32 (x.resets + 1) }) l) 5 l 1)

/-- PEER_RESET_SEEN. -/
def execPeerResetSeen (s : State) : Outcome :=
  let l := s.sel.link
  if 28 ≤ l ∨ (linkAt s l).state ≠ 2 then notNow else .next (linkReset s l)

/-- LINK_LEAVES_UP: a flit that a domain port sends fails 8 replays; the port leaves UP, and what needs it completes (R374,
R377). -/
def execLinkLeavesUp (s : State) : Outcome :=
  let l := s.sel.link
  if !isPort l ∨ (linkAt s l).state ≠ 2 then notNow else .next (linkReset s l)

/-- HOST_PORT_DOWN (R379): the host port leaves UP, to RESETTING when the host resets it (`ok`). -/
def execHostPortDown (s : State) : Outcome :=
  if (linkAt s 27).state ≠ 2 then notNow
  else .next (if s.sel.ok then linkReset s 27 else linkDown s 27)

/-- Partitions that can be frozen now, and those that freeze. -/
def freezable (s : State) : List Nat := (List.range 65).filter (fun k => pctlAdmits (partAt s k).pstate 2)
def freezing (s : State) : Bool := (List.range 65).any (fun k => (partAt s k).pstate == 3)

/-- The controller freezes every partition (R378, 26 R414). -/
def freezeAll (s : State) : State := (freezable s).foldl (fun s k => freezeStart s k false) s

/-- DIE_LINK_FAILURE (R378): the controller first freezes every partition and counts the failure; once each has frozen, the
link enters RESETTING. -/
def execDieLinkFailure (s : State) : Outcome :=
  let l := s.sel.link
  if !isDieLink l ∨ (linkAt s l).state ≠ 2 ∨ (linkAt s l).bad < 9 then notNow
  else if !(freezable s).isEmpty then .next (lifeAdd (freezeAll s) 10 l 1)
  else if freezing s then notNow
  else .next (linkReset s l)

end Sys2Proof.Machine
end

