-- ==== Sys2Proof/Machine/Manage.lean ====
section
/-!
DEFINITION. Bring-up, power, the activity limiter and the management port (26 R408 to R415; 01 R27): supplies, die reset, panel
start, messages and lifetime counters.
-/
namespace Sys2Proof.Machine

/-! ## Die reset (R408) -/

/-- The dies as reset leaves them, with the controller's own state; the links are DOWN. -/
def dieReset (s : State) : State :=
  { State.reset with
    links := [], mgmt := { s.mgmt with released := false, resetting := false, lastCommit := 0, lastSample := 0 }
    sched := s.sched, sel := s.sel, fresh := s.fresh, out := s.out }

/-- Die reset is released: that cycle is die cycle 0, in which panel 0 starts (R410), and the die links and the host port
train (R376). -/
def dieRelease (s : State) : State :=
  [0, 1, 2, 27].foldl linkTrain
    { dieReset s with mgmt := { (dieReset s).mgmt with released := true }, sched := .event .panelStart {} :: s.sched }

/-- STANDBY_POWER_ON: the controller boots, its counters come from non-volatile storage, and it checks the firmware; `ok` says
whether the signature holds. The dies stay in reset. -/
def execStandbyPowerOn (s : State) : Outcome :=
  if s.mgmt.standby then notNow
  else
    let s1 := dieReset s
    .next { s1 with mgmt := { s1.mgmt with standby := true, main := true, fwPass := s.sel.ok, serving := none, counters := s.mgmt.nvCounters } }

/-- DIE_RESET_RELEASE: with verified firmware, on all three dies in one cycle. -/
def execDieResetRelease (s : State) : Outcome :=
  let m := s.mgmt
  if !m.standby ∨ !m.main ∨ !m.fwPass ∨ m.released then notNow else .next (dieRelease s)

/-- What was stored while the main side was off applies (R414). -/
def applyStored (m : Mgmt) : Mgmt :=
  { m with sigreq := m.sigreqStored.getD m.sigreq, sigreqStored := none,
           keys := m.keysStored.foldl (fun t k =>
             if t.any (fun y => y.2 == k) then t
             else match (List.range 8).find? (fun i => (tget? t i).isNone) with
               | some i => tput t i k
               | none => t) m.keys
           keysStored := [] }

/-- MAIN_POWER_ON: the main supply returns; stored values apply. -/
def execMainPowerOn (s : State) : Outcome :=
  if !s.mgmt.standby ∨ s.mgmt.main then notNow else .next { s with mgmt := { applyStored s.mgmt with main := true } }

/-- MAIN_POWER_OFF: the dies stop; the management port goes on (01 R27). -/
def execMainPowerOff (s : State) : Outcome :=
  if !s.mgmt.standby ∨ !s.mgmt.main then notNow
  else
    let s1 := dieReset s
    .next { s1 with mgmt := { s1.mgmt with main := false } }

/-- ORDERLY_POWER_DOWN: the counters are committed before both supplies go. -/
def execOrderlyPowerDown (s : State) : Outcome :=
  if !s.mgmt.standby then notNow
  else
    let s1 := dieReset s
    .next { s1 with mgmt := { s1.mgmt with standby := false, main := false, serving := none, nvCounters := s.mgmt.counters, counters := [] } }

/-- STANDBY_POWER_LOSS: abrupt; increments since the last commit are lost. -/
def execStandbyPowerLoss (s : State) : Outcome :=
  if !s.mgmt.standby then notNow
  else
    let s1 := dieReset s
    .next { s1 with mgmt := { s1.mgmt with standby := false, main := false, serving := none, counters := [] } }

/-! ## Panels (R410, R411) -/

/-- PANEL_START: panel `p` starts at its cycle, in plain service. -/
def execPanelStart (s : State) : Outcome :=
  let p := s.sel.p
  let pn := panelAt s p
  if 48 ≤ p ∨ s.cycle ≠ 17500 * p ∨ !s.mgmt.panelsFuse.getLsbD p ∨ pn.started then notNow
  else .next (setPanel s p { pn with started := true, startCycle := s.cycle, tagged := false })

/-- SELF_TEST_COMPLETE: within 40,000 cycles of the start the test passes (`ok`) and the panel enters tagged service, or the
panel is fenced. -/
def execSelfTestComplete (s : State) : Outcome :=
  let p := s.sel.p
  let pn := panelAt s p
  if 48 ≤ p ∨ !pn.started ∨ pn.tested ∨ pn.fenced ∨ pn.startCycle + 40000 < s.cycle then notNow
  else if s.sel.ok then .next (setPanel s p { pn with tested := true, tagged := true })
  else .next (lifeAdd (setPanel s p { pn with fenced := true }) 7 p 1)

/-! ## Activity limiter (R412) -/

/-- An MMA on a die waits under the duty. -/
def mmaWaits (s : State) (die : Nat) : Bool :=
  s.nibs.any (fun x => dieOf (x.1 / 256) == die && x.2.ready.any (fun m => m.done < s.cycle && mmaHeld s (x.1 / 256) (x.1 % 256) m))

/-- LIMITER_STEP: RAMP cycles after the last step the duty rises while MMAs wait and the current's rise is within SLEW (`ok`),
or falls after RAMP cycles with no pass, not below 2 once it has passed 2. -/
def execLimiterStep (s : State) : Outcome :=
  let die := s.sel.die
  let l := limiterAt s die
  let ramp := s.mgmt.ramp.toNat
  if 3 ≤ die ∨ s.cycle < l.lastStep + ramp then notNow
  else if mmaWaits s die then
    (if s.sel.ok ∧ l.duty < min 16 l.ceiling then
       .next (setLimiter s die { l with duty := l.duty + 1, passed2 := l.passed2 || decide (2 < l.duty + 1), lastStep := s.cycle })
     else notNow)
  else if l.lastPass + ramp ≤ s.cycle ∧ (if l.passed2 then 2 else 0) < l.duty then
    .next (setLimiter s die { l with duty := l.duty - 1, lastStep := s.cycle })
  else notNow

/-- POWER_CEILING_STEP: `num` is the module's power in watts, averaged over 70,000 cycles. -/
def execPowerCeilingStep (s : State) : Outcome :=
  let die := s.sel.die
  let l := limiterAt s die
  if 3 ≤ die ∨ s.sel.num ≤ 3000 ∨ l.ceiling = 0 ∨ s.cycle < l.lastCeil + 1024 then notNow
  else .next (setLimiter s die { l with ceiling := l.ceiling - 1, duty := min l.duty (l.ceiling - 1), lastCeil := s.cycle })

/-! ## Messages (R414) -/

/-- The first word of a response: what became of the request. -/
def rspDone : Word64 := 0
def rspBusy : Word64 := 1
def rspRefused : Word64 := 2
def rspAuth : Word64 := 3

/-- The controller takes a request, and answers when it has served it. -/
def serveMsg (s : State) (code : Nat) (ws : List Word64) : Outcome :=
  if !s.mgmt.standby ∨ s.mgmt.serving.isSome then notNow
  else .next { s with mgmt := { s.mgmt with serving := some (code, ws) } }

/-- The response of the request in service leaves. -/
def mgmtTick (s : State) : State :=
  match s.mgmt.serving with
  | some (code, ws) => { s with mgmt := { s.mgmt with serving := none }, out := s.out ++ [.mgmt code ws] }
  | none => s

/-- The identity block (R409). -/
def identity (s : State) : List Word64 :=
  [BitVec.ofNat 64 (put 1 60 + put s.mgmt.step.toNat 56 + s.mgmt.panelsFuse.toNat),
   BitVec.ofNat 64 (put s.mgmt.slew.toNat 48 + put s.mgmt.ramp.toNat 32), Config.serial, Config.devKey]

/-- GET_IDENTITY. -/
def execGetIdentity (s : State) : Outcome := serveMsg s 1 (rspDone :: identity s)

/-- A mask of panels. -/
def panelMask (s : State) (f : Panel → Bool) : Word64 :=
  BitVec.ofNat 64 ((List.range 48).foldl (fun n p => if f (panelAt s p) then n + 2 ^ p else n) 0)

/-- What GET-STATUS reports: supplies and die reset, the FWAUTH result, panels tested and fenced, each link's state and INC, and the
partitions frozen. -/
def statusOf (s : State) : List Word64 :=
  let m := s.mgmt
  let frozen := (List.range 65).foldl (fun n k => if (partAt s k).pstate = 4 then n + 2 ^ k else n) 0
  [BitVec.ofNat 64 (b2n m.standby + put (b2n m.main) 1 + put (b2n m.released) 2), BitVec.ofNat 64 (b2n m.fwPass),
   panelMask s (·.tested), panelMask s (·.fenced)] ++
  (List.range 28).map (fun l => BitVec.ofNat 64 (put (linkAt s l).inc.toNat 8 + (linkAt s l).state)) ++
  [BitVec.ofNat 64 frozen, BitVec.ofNat 64 (frozen / 2 ^ 64)]

/-- GET_STATUS. -/
def execGetStatus (s : State) : Outcome := serveMsg s 2 (rspDone :: statusOf s)

/-- READ_COUNTERS: every lifetime counter that is not 0, as its key and its value. -/
def execReadCounters (s : State) : Outcome :=
  serveMsg s 3 (rspDone :: (s.mgmt.counters.filter (fun x => !(x.1 / 2 ^ 20 == 8 || x.1 / 2 ^ 20 == 9))).flatMap (fun x =>
    [BitVec.ofNat 64 x.1, BitVec.ofNat 64 x.2]))

/-- The bins of histogram `k`: temperature of die 0 to 2, or power (3). -/
def histBins (s : State) (k : Nat) : List Word64 :=
  (List.range 16).map (fun i => BitVec.ofNat 64 (tgetD s.mgmt.counters (if k = 3 then lifeKey 9 i else lifeKey 8 (16 * k + i)) 0))

/-- READ_HISTOGRAM: one histogram, `num`. -/
def execReadHistogram (s : State) : Outcome :=
  if 4 ≤ s.sel.num then serveMsg s 4 [rspRefused] else serveMsg s 4 (rspDone :: histBins s s.sel.num)

/-- SIGREQ bits of the partitions listed. -/
def sigreqOf (ks : List Nat) : BitVec 65 := ks.foldl (fun b k => b ||| BitVec.ofNat 65 (2 ^ k)) 0

/-- SET_POLICY: the SIGREQ bits, at once or stored while the main side is off. -/
def execSetPolicy (s : State) : Outcome :=
  let b := sigreqOf s.sel.nums
  serveMsg { s with mgmt := if s.mgmt.main then { s.mgmt with sigreq := b } else { s.mgmt with sigreqStored := some b } } 5 [rspDone]

/-- A key is added, or replaces the one of its identifier; `none` when the 8 places are taken. -/
def addKey (m : Mgmt) (k : Word64) : Option Mgmt :=
  if m.keys.any (fun y => y.2 == k) then some m
  else match (List.range 8).find? (fun i => (tget? m.keys i).isNone) with
    | some i => some { m with keys := tput m.keys i k }
    | none => none

/-- KEY_ADD: `v` is the key's identifier, `ok` says that the owner key signed the message. -/
def execKeyAdd (s : State) : Outcome :=
  if !s.sel.ok then serveMsg s 6 [rspAuth]
  else if !s.mgmt.main then serveMsg { s with mgmt := { s.mgmt with keysStored := s.mgmt.keysStored ++ [s.sel.v] } } 6 [rspDone]
  else match addKey s.mgmt s.sel.v with
    | some m => serveMsg { s with mgmt := m } 6 [rspDone]
    | none => serveMsg s 6 [rspRefused]

/-- ATTEST: a report in Krytval's format (log 26). -/
def execAttest (s : State) : Outcome :=
  serveMsg { s with fresh := s.fresh + 1 } 7 (rspDone :: Config.attestation s.fresh)

/-- The dies go back to reset and the firmware is verified again (R408, step 2). -/
def resetMain (s : State) : State :=
  let s1 := dieReset s
  { s1 with mgmt := { s1.mgmt with fwPass := s.sel.ok } }

/-- RESET_MAIN: refused with main power off. Every partition is frozen first; then bring-up starts again from the verification,
whose outcome is `ok`. -/
def execResetMain (s : State) : Outcome :=
  if s.mgmt.resetting then
    (if !(freezable s).isEmpty then .next (freezeAll s) else if freezing s then notNow else .next (resetMain s))
  else if !s.mgmt.main then serveMsg s 8 [rspRefused]
  else if !s.mgmt.released then serveMsg (resetMain s) 8 [rspDone]
  else
    let s1 := freezeAll s
    serveMsg { s1 with mgmt := { s1.mgmt with resetting := true } } 8 [rspDone]

/-- MGMT_BUSY: request `num` arrives while another is served. -/
def execMgmtBusy (s : State) : Outcome :=
  if s.mgmt.serving.isNone ∨ !s.mgmt.standby then notNow else .next { s with out := s.out ++ [.mgmt s.sel.num [rspBusy]] }

/-! ## Lifetime counters (R415) -/

/-- COUNTER_COMMIT: once per 2^32 cycles. -/
def execCounterCommit (s : State) : Outcome :=
  if !s.mgmt.standby ∨ s.cycle % 2 ^ 32 ≠ 0 ∨ s.cycle = s.mgmt.lastCommit then notNow
  else .next { s with mgmt := { s.mgmt with nvCounters := s.mgmt.counters, lastCommit := s.cycle } }

/-- HISTOGRAM_SAMPLE: once per 2^20 cycles. The sensors bring the temperatures of the dies in degrees (`nums`, the first three) and
the module's power in watts (`num`); beside them, the hours with main power that have ended since the last sample (`k`) and
the units in which a correctable error was found (`nums`, the rest). -/
def execHistogramSample (s : State) : Outcome :=
  if !s.mgmt.standby ∨ s.cycle % 2 ^ 20 ≠ 0 ∨ s.cycle = s.mgmt.lastSample then notNow
  else
    let s1 := (List.range 3).foldl (fun s d => lifeAdd s 8 (16 * d + min 15 (s.sel.nums.getD d 0 / 8)) 1) s
    let s2 := lifeAdd (lifeAdd s1 9 (min 15 (s.sel.num / 200)) 1) 0 0 s.sel.k
    let s3 := (s.sel.nums.drop 3).foldl (fun s u => lifeAdd s 1 (u % 2 ^ 20) 1) s2
    .next { s3 with mgmt := { s3.mgmt with lastSample := s.cycle } }

end Sys2Proof.Machine
end

