-- ==== Sys2Proof/Machine/HostMem.lean ====
section
/-!
DEFINITION. The host's memory port (14 R302, R303; 19 R379, R417; 20 R400): CXL.mem requests and HDM decoders.
-/
namespace Sys2Proof.Machine

/-- Base of the queue aperture in home-die form (14 R302). -/
def apertureBase : Nat := 0x2FFFFF00000

/-- The address of a request lies in the HDM ranges of its function and names bytes of this part's memory (R417). -/
def hostServed (s : State) (x : HostReq) : Bool := decide (0 < x.len) && partRange s x.fn x.addr x.len

/-- The queue and the offset in its window of a request that lies in one launch window. -/
def windowOf (s : State) (x : HostReq) : Option (Nat × Nat) :=
  let hf := homeForm x.addr
  if bits x.addr 43 42 ≠ 3 ∧ ownDev s x.addr ∧ aperture hf ∧ 0 < x.len ∧ (hf - apertureBase) % 4096 + x.len ≤ 4096 then
    some ((hf - apertureBase) / 4096, (hf - apertureBase) % 4096)
  else none

/-- Bytes as 64-bit words (00 R2). -/
def bytesWords (bs : List Byte) : List Word64 :=
  (List.range (bs.length / 8)).map (fun i => BitVec.ofNat 64 (leNat ((bs.drop (8 * i)).take 8)))

/-- The bytes of a launch window: the status line, then zeros (14 R302). -/
def windowBytes (s : State) (q off n : Nat) : List Byte :=
  let st := (statusWords (queueAt s q)).flatMap (leBytes 8)
  (List.range n).map (fun i => st.getD (off + i) 0)

/-- A write to a launch window: line 0 and partial lines are counted in BAD, line 1 is the control line, the rest append
(14 R302, R303). -/
def windowStore (s : State) (fn q off : Nat) (bs : List Byte) : State :=
  if bs.length ≠ 64 ∨ off % 64 ≠ 0 ∨ off = 0 then countBad s q
  else if off = 64 then controlLine s fn q (bytesWords bs)
  else toPoint s q (.line fn (bytesWords bs))

/-- The sectors of a request: the places of its bytes, and the bytes of each sector. -/
def hostCells (addr : Nat) (bs : List Byte) : List (Nat × Byte) := (List.range bs.length).map (fun i => (homeForm (addr + i), bs.getD i 0))
def hostSectors (addr len : Nat) : List Nat := ((List.range len).map (fun i => homeForm (addr + i) / 32)).eraseDups

/-- The request for one sector: from die 0 to its home and, for a read, back over the die link (01 R26). -/
def hostReq (s : State) (id sec : Nat) (bs : List (Nat × Byte)) (poison : Bool) : Req :=
  let home := homeDie (32 * sec)
  { kind := .host id sec bs poison
    path := if bs.isEmpty then arbBank home (32 * sec) :: linkPath home 0 else linkPath 0 home ++ [arbBank home (32 * sec)]
    born := s.cycle, ctx := noCtx, issuer := 0, addr := paOf (32 * sec), ctag := 64 }

/-- A host write, performed sector by sector at DEVICE scope: a whole sector without the poison indication clears its mark, one with it
marks each sector (20 R400). -/
def hostStore (s : State) (x : HostReq) (bs : List Byte) : State :=
  let cells := hostCells x.addr bs
  let secs := hostSectors x.addr x.len
  { s with
    fresh := s.fresh + 1
    hostOps := s.hostOps ++ [{ id := s.fresh, fn := x.fn, addr := x.addr, len := x.len, write := true, born := s.cycle, left := secs }]
    reqs := s.reqs ++ secs.map (fun sec =>
      hostReq s s.fresh sec ((cells.filter (fun c => c.1 / 32 == sec)).map (fun c => (c.1 % 32, c.2))) x.poison) }

/-- A host read at DEVICE scope, sector by sector; its answer follows the last. -/
def hostLoad (s : State) (x : HostReq) : State :=
  let secs := hostSectors x.addr x.len
  { s with
    fresh := s.fresh + 1
    hostOps := s.hostOps ++ [{ id := s.fresh, fn := x.fn, addr := x.addr, len := x.len, write := false, born := s.cycle, left := secs }]
    reqs := s.reqs ++ secs.map (fun sec => hostReq s s.fresh sec [] false) }

/-- The answer to a host read. -/
def hostAnswer (s : State) (x : HostReq) (bs : List Byte) (poison : Bool) : State :=
  { s with out := s.out ++ [.hostData x.fn x.addr bs poison] }

/-- HOST_MEM_REQUEST (R417): a request that fails a test changes nothing; a read then brings zeros with the poison indication. -/
def execHostMemRequest (s : State) : Outcome :=
  let x := s.sel.req
  if 65 ≤ x.fn ∨ (match x.bytes with
    | some bs => bs.length != x.len
    | none => false) = true then notNow
  else
    match windowOf s x, x.bytes with
    | some (q, off), some bs => .next (if reachesWindow s x.fn q then windowStore s x.fn q off bs else s)
    | some (q, off), none =>
      .next (if reachesWindow s x.fn q then hostAnswer s x (windowBytes s q off x.len) false
        else hostAnswer s x (List.replicate x.len 0) true)
    | none, some bs => .next (if hostServed s x then hostStore s x bs else s)
    | none, none =>
      if hostServed s x then .next (hostLoad s x) else .next (hostAnswer s x (List.replicate x.len 0) true)

/-- HDM_DECODER_WRITE (R379): the memory ranges of a function. -/
def execHdmDecoderWrite (s : State) : Outcome :=
  if 65 ≤ s.sel.fn then notNow
  else .next { s with hdm := tsetD s.hdm s.sel.fn s.sel.ranges [] }

end Sys2Proof.Machine
end

