-- ==== Sys2Proof/Machine/Records.lean ====
section
/-!
DEFINITION. The meaning of a record as a scribe calls it: to check a block's fields when it enters the block (08 R179) and to
perform the held effects at commit (02 R53).
-/
namespace Sys2Proof.Machine

/-- The firing of a record; an event of the table is none. -/
def fireRecord (i : Instr) (s : State) : Outcome :=
  match i with
  | .nop r => execNop r s
  | .iadd r => execIadd r s
  | .isub r => execIsub r s
  | .imul r => execImul r s
  | .imulh r => execImulh r s
  | .imad r => execImad r s
  | .idiv r => execIdiv r s
  | .irem r => execIrem r s
  | .imin r => execImin r s
  | .imax r => execImax r s
  | .iabs r => execIabs r s
  | .ineg r => execIneg r s
  | .and r => execAnd r s
  | .or r => execOr r s
  | .xor r => execXor r s
  | .andn r => execAndn r s
  | .shl r => execShl r s
  | .shr r => execShr r s
  | .sra r => execSra r s
  | .rot r => execRot r s
  | .clz r => execClz r s
  | .popc r => execPopc r s
  | .brev r => execBrev r s
  | .bfx r => execBfx r s
  | .bfi r => execBfi r s
  | .icmp r => execIcmp r s
  | .sel r => execSel r s
  | .iclamp r => execIclamp r s
  | .addr r => execAddr r s
  | .iaddw r => execIaddw r s
  | .icvt r => execIcvt r s
  | .copy r => execCopy r s
  | .const r => execConst r s
  | .sink r => execSink r s
  | .gate r => execGate r s
  | .join r => execJoin r s
  | .steer r => execSteer r s
  | .merge r => execMerge r s
  | .enter r => execEnter r s
  | .wave r => execWave r s
  | .leave r => execLeave r s
  | .throttleAdmit r => execThrottleAdmit r s
  | .repeat r => execRepeat r s
  | .tagget r => execTagget r s
  | .tagset r => execTagset r s
  | .void r => execVoid r s
  | .range r => execRange r s
  | .runend r => execRunend r s
  | .read r => execRead r s
  | .write r => execWrite r s
  | .branch r => execBranch r s
  | .bcall r => execBcall r s
  | .bret r => execBret r s
  | .fadd r => execFadd r s
  | .fsub r => execFsub r s
  | .fmul r => execFmul r s
  | .ffma r => execFfma r s
  | .fmin r => execFmin r s
  | .fmax r => execFmax r s
  | .fcmp r => execFcmp r s
  | .fclass r => execFclass r s
  | .fdiv r => execFdiv r s
  | .fsqrt r => execFsqrt r s
  | .frcp r => execFrcp r s
  | .frsq r => execFrsq r s
  | .frcpa r => execFrcpa r s
  | .frsqa r => execFrsqa r s
  | .fexp2 r => execFexp2 r s
  | .flog2 r => execFlog2 r s
  | .fsinpi r => execFsinpi r s
  | .fcospi r => execFcospi r s
  | .ftanh r => execFtanh r s
  | .fscale r => execFscale r s
  | .fround r => execFround r s
  | .fsgn r => execFsgn r s
  | .cvt r => execCvt r s
  | .ftoi r => execFtoi r s
  | .itof r => execItof r s
  | .bxpack r => execBxpack r s
  | .bxunpk r => execBxunpk r s
  | .dot r => execDot r s
  | .lsum r => execLsum r s
  | .lscan r => execLscan r s
  | .lmax r => execLmax r s
  | .lmin r => execLmin r s
  | .shuf r => execShuf r s
  | .bcast r => execBcast r s
  | .iota r => execIota r s
  | .lmask r => execLmask r s
  | .packc r => execPackc r s
  | .unpackc r => execUnpackc r s
  | .cmpfwd r => execCmpfwd r s
  | .rankadmCandidate r => execRankadmCandidate r s
  | .ld r => execLd r s
  | .st r => execSt r s
  | .ldx r => execLdx r s
  | .stx r => execStx r s
  | .mnop r => execMnop r s
  | .fence r => execFence r s
  | .order r => execOrder r s
  | .aadd r => execAadd r s
  | .amin r => execAmin r s
  | .amax r => execAmax r s
  | .aand r => execAand r s
  | .aor r => execAor r s
  | .axor r => execAxor r s
  | .axchg r => execAxchg r s
  | .acas r => execAcas r s
  | .acc r => execAcc r s
  | .wcfg r => execWcfg r s
  | .wfull r => execWfull r s
  | .wempty r => execWempty r s
  | .ldp r => execLdp r s
  | .promote r => execPromote r s
  | .xfer r => execXfer r s
  | .xfers r => execXfers r s
  | .pref r => execPref r s
  | .pginit r => execPginit r s
  | .pginitFree r => execPginitFree r s
  | .pgadv r => execPgadv r s
  | .pgread r => execPgread r s
  | .waitany r => execWaitany r s
  | .waitall r => execWaitall r s
  | .ffready r => execFfready r s
  | .sclemit r => execSclemit r s
  | .wload r => execWload r s
  | .mma r => execMma r s
  | .accin r => execAccin r s
  | .accout r => execAccout r s
  | .sysmodeEnter r => execSysmodeEnter r s
  | .sysmodeLeave r => execSysmodeLeave r s
  | .cavjoinLocal r => execCavjoinLocal r s
  | .cavjoinSegment r => execCavjoinSegment r s
  | .cavjoinLeave r => execCavjoinLeave r s
  | .cav r => execCav r s
  | .pacesetInit r => execPacesetInit r s
  | .pacesetLoad r => execPacesetLoad r s
  | .pacesetUpdate r => execPacesetUpdate r s
  | .sweep r => execSweep r s
  | .paceq r => execPaceq r s
  | .rulesetWrite r => execRulesetWrite r s
  | .rulesetClear r => execRulesetClear r s
  | .rulearmArm r => execRulearmArm r s
  | .rulearmDisarm r => execRulearmDisarm r s
  | .coll r => execColl r s
  | .spawn r => execSpawn r s
  | .callocGrant r => execCallocGrant r s
  | .callocEntry r => execCallocEntry r s
  | .ret r => execRet r s
  | .binit r => execBinit r s
  | .binitFree r => execBinitFree r s
  | .barrive r => execBarrive r s
  | .barriveTag r => execBarriveTag r s
  | .bwait r => execBwait r s
  | .bdrop r => execBdrop r s
  | .btest r => execBtest r s
  | .btestTicket r => execBtestTicket r s
  | .qput r => execQput r s
  | .qtake r => execQtake r s
  | .qtakePoll r => execQtakePoll r s
  | .qstat r => execQstat r s
  | .qmark r => execQmark r s
  | .kstage r => execKstage r s
  | .kflip r => execKflip r s
  | .kdrain r => execKdrain r s
  | .kdrainPurge r => execKdrainPurge r s
  | .kdrainPoll r => execKdrainPoll r s
  | .snap r => execSnap r s
  | .ctxpri r => execCtxpri r s
  | .park r => execPark r s
  | .resume r => execResume r s
  | .yield r => execYield r s
  | .sread r => execSread r s
  | .swrite r => execSwrite r s
  | .mpin r => execMpin r s
  | .munpin r => execMunpin r s
  | .minv r => execMinv r s
  | .minvContext r => execMinvContext r s
  | .mprobe r => execMprobe r s
  | .mprobeRead r => execMprobeRead r s
  | .mprobeReadClear r => execMprobeReadClear r s
  | .trap r => execTrap r s
  | .tret r => execTret r s
  | .ftake r => execFtake r s
  | .ftakeRetry r => execFtakeRetry r s
  | .ftakeDiscard r => execFtakeDiscard r s
  | .ftakePeek r => execFtakePeek r s
  | .ptest r => execPtest r s
  | .lstat r => execLstat r s
  | .lctlTrain r => execLctlTrain r s
  | .lctlDown r => execLctlDown r s
  | .lctlReset r => execLctlReset r s
  | .lctlRoute r => execLctlRoute r s
  | .lctlClearCounters r => execLctlClearCounters r s
  | .lctlOwnNumber r => execLctlOwnNumber r s
  | _ => notNow

end Sys2Proof.Machine
end

