-- ==== Sys2Proof/Machine/Scribe.lean ====
section
/-!
DEFINITION. Blocks (02 R52, R53; 09 R207 to R210; 15 R319, R324; 24 R406): a scribe enters a block, and commits it or traps
exactly.
-/
namespace Sys2Proof.Machine

/-! ## The records of a block (R52) -/

/-- Record `r` of a block; record 0 is the header. -/
def blockRec (s : State) (p : Nat) (b : Block) (r : Nat) : Rec96 := tgetD (scribeAt s p).blocks (blockKey b.plane b.index r) 0

/-- Node records of a block. -/
def blockLen (b : Block) : Nat := modOf b.header + 1

/-- Register writes that the header counts, and its store mask. -/
def headerWrites (b : Block) : Nat := (b.header.extractLsb' 32 16).toNat
def headerMask (b : Block) : Nat := litOf b.header

def isExitOp (op : Nat) : Bool := op == 0x33 || op == 0x34 || op == 0x35

/-- A block with no exit record. -/
def isFinal (s : State) (p : Nat) (b : Block) : Bool :=
  !((List.range (blockLen b)).any (fun n => isExitOp (opOf (blockRec s p b (n + 1)))))

/-! ## Entry -/

/-- The match of a record whose operands are all null. -/
def nullMatch (s : State) (p : Nat) (b : Block) (n : Nat) : Cur :=
  let w := blockRec s p b (n + 1)
  { p := p, site := 240, plane := b.plane, node := n, tag := (scribeAt s p).btag, word := w
    ops := (portsOf w).map (fun k => (k, { tag := (scribeAt s p).btag, null := true, lanes := [0] })) }

/-- The cause that the field values of a record raise when the scribe takes its block in (08 R179), found by a firing on null
operands that is otherwise forgotten; RETURN, which tests its colour on a null too, is checked by its fields alone. -/
def recCause (s : State) (p : Nat) (b : Block) (n : Nat) : Option (Nat × Nat) :=
  match decode (blockRec s p b (n + 1)) with
  | .error _ => some (cILLEGAL, n + 1)
  | .ok (.ret r) => if retBad r || badCtl [0] r.ctl then some (cILLEGAL, n + 1) else none
  | .ok i =>
    match fireRecord i { s with cur := nullMatch s p b n } with
    | .next s' => match (scribeAt s' p).cur with
      | some b' => b'.exc.map (fun k => (k, b'.excInfo))
      | none => none
    | _ => none

/-- The first cause among the records of a block. -/
def takeIn (s : State) (p : Nat) (b : Block) : Option (Nat × Nat) :=
  if (scribeAt s p).storeBad.contains (blockKey b.plane b.index 0) then some (cPOISON, 0)
  else (List.range (blockLen b)).foldl (fun (r : Option (Nat × Nat)) n => match r with
    | some x => some x
    | none => recCause s p b n) none

/-- A READ with no port fires as the block is entered (R207). -/
def fireRead (s : State) (p : Nat) (b : Block) (n : Nat) : State :=
  let w := blockRec s p b (n + 1)
  match decode w with
  | .ok (.read r) =>
    if (portsOf w).isEmpty then
      let m : Match := { plane := b.plane, node := n, tag := (scribeAt s p).btag, ops := [] }
      let s1 := beginIssue s p 240 m
      if recStruck s p 240 b.plane n then faultCur s1 s1.cur cPOISON 0
      else match execRead r s1 with
        | .next s2 => s2
        | _ => s1
    else s
  | _ => s

/-- The scribe may enter a block. -/
def mayEnter (s : State) (p k : Nat) : Bool :=
  let sc := scribeAt s p
  let ctx := (planeOf s p k).ctx
  atBoundary s p && !sc.resting && sc.waitFlip.isEmpty && sc.waitScales.isEmpty && (panelAt s p).flip.isNone &&
    sc.exact.isNone && (thand sc || (trapDue s p).isNone) && !gatedCtx s p 240 ctx && (parkOf s ctx).isNone

/-- BLOCK_ENTRY (R52): the next block of the scribe plane's kernel is taken in, its fields are checked and its READs fire. A
block that the kernel does not hold is an exact trap. -/
def execBlockEntry (s : State) : Outcome :=
  let p := s.sel.p
  match (panelAt s p).scribePlane with
  | none => notNow
  | some k =>
    let sc := scribeAt s p
    if !mayEnter s p k then notNow
    else if blockCount s p ≤ sc.next then
      .next (if thand sc then doubleFault s p cILLEGAL 0 else setScribe s p { sc with exact := some (cILLEGAL, 0, sc.next) })
    else
      let b : Block := { plane := k, index := sc.next, header := tgetD sc.blocks (blockKey k sc.next 0) 0 }
      let s1 := noteIssue (setScribe s p { sc with cur := some b }) p k sc.btag
      .next (match takeIn s1 p b with
        | some (cause, info) => onBlock s1 p (fun b => { b with exc := some cause, excInfo := info })
        | none => (List.range (blockLen b)).foldl (fun s n => fireRead s p b n) s1)

/-! ## What a block leaves behind -/

/-- Change the accesses that scribe `p` has sent. -/
def mapAccesses (s : State) (p : Nat) (f : Access → Access) : State :=
  let g := fun (a : Access) => if a.site = 240 ∧ !a.late then f a else a
  { s with obufs := s.obufs.map (fun o =>
      if o.1 / 256 = p then (o.1, { o.2 with waiting := o.2.waiting.map g, released := o.2.released.map g }) else o) }

/-- Change the contributions of its CAVs. -/
def mapContribs (s : State) (p : Nat) (f : Contrib → Contrib) : State :=
  let g := fun (c : Contrib) => if c.site = 240 ∧ !c.late then f c else c
  { s with wells := s.wells.map (fun w =>
      if w.1 / 256 = p then (w.1, { w.2 with cavs := w.2.cavs.map (fun v => { v with contribs := v.contribs.map g }) }) else w) }

/-- A draw that the block's SPAWN waits for. -/
def blockDraw (p : Nat) (d : Draw) : Bool :=
  match d.spawn with
  | some (c, _) => c.p == p && c.site == 240 && !c.late
  | none => false

/-- A request of the block that a queue point has not taken. -/
def blockReq (p : Nat) (x : QReq) : Bool :=
  match x.what with
  | .inst e => e.cur.p == p && e.cur.site == 240 && !e.cur.late
  | .line _ _ => false

/-- A request of the block that no point has served. -/
def blockPoint (p : Nat) (x : PReq) : Bool := x.cur.p == p && x.cur.site == 240 && !x.cur.late

/-- The requests of the block answer as records do whose block has committed. -/
def lateReqs (s : State) (p : Nat) : State :=
  let s := mapPoints s (fun x => some (if blockPoint p x then { x with cur := { x.cur with late := true } } else x))
  { s with qreqs := s.qreqs.map (fun x => match x.what with
      | .inst e => if blockReq p x then { x with what := .inst { e with cur := { e.cur with late := true } } } else x
      | .line _ _ => x) }

/-- A token of the block on its way to the scribe itself. -/
def selfFlight (p : Nat) (f : Flight) : Bool := f.p == p && f.src == 240 && f.tok.site == 240

/-- After a commit, what still runs for records of the block goes on: it sends as records do whose block has committed (R406).
Operands that no record took are gone with the block. -/
def settleBlock (s : State) (p : Nat) : State :=
  let n := nibAt s p 240
  let keep : Nib := { n with
    groups := [], scales := [], sticky := [], thr := [], ranks := []
    ready := n.ready.map (fun m => { m with late := true })
    waits := n.waits.map (fun w => { w with m := { w.m with late := true } })
    gens := n.gens.map (fun g => { g with late := true })
    delayed := n.delayed.map (fun d => { d with late := true }) }
  let s := setNib s p 240 keep
  let s := mapContribs (mapAccesses (lateReqs s p) p (fun a => { a with late := true })) p (fun c => { c with late := true })
  { s with
    draws := s.draws.map (fun d => if blockDraw p d then { d with spawn := d.spawn.map (fun x => ({ x.1 with late := true }, x.2)) } else d)
    transit := s.transit.map (fun f => if selfFlight p f then { f with src := lateSrc } else f) }

/-- After a block has failed exactly, nothing of it is seen: its tokens are gone, and what it has asked for answers to no
one. -/
def dropBlock (s : State) (p : Nat) : State :=
  let n := nibAt s p 240
  let none_ : Dest := { site := 255, node := 0, port := 0 }
  let keep : Nib := { n with
    groups := [], scales := [], sticky := [], thr := [], ranks := []
    ready := n.ready.filter (·.late), waits := n.waits.filter (·.m.late), gens := n.gens.filter (·.late)
    delayed := n.delayed.filter (·.late) }
  let s := setNib s p 240 keep
  let s := mapContribs (mapAccesses s p (fun a => { a with late := true, r := { a.r with d0 := none_ } })) p
    (fun c => { c with late := true, dest := none_ })
  let s := mapPoints s (fun x => if blockPoint p x then none else some x)
  { s with draws := s.draws.filter (fun d => !blockDraw p d), qreqs := s.qreqs.filter (fun x => !blockReq p x), transit := s.transit.filter (fun f => !selfFlight p f) }

/-! ## Failure (R53) -/

/-- The block commits nothing; the scribe traps exactly at its start, which in a handler is a double fault (20 R399). -/
def failBlock (s : State) (p : Nat) (b : Block) (cause info : Nat) : State :=
  let s := dropBlock (setScribe s p { scribeAt s p with cur := none }) p
  let sc := scribeAt s p
  let s := if thand sc then doubleFault s p cause info else setScribe s p { sc with exact := some (cause, info, b.index) }
  launchesGo s

/-! ## Commit (R53) -/

/-- Every LSID of the store mask has been counted. -/
def storesCounted (b : Block) : Bool := (List.range 32).all (fun i => !bit (headerMask b) i || b.lsids.contains i)

/-- A record of a final block that has still to fire; a NOP never fires, and none waits for it (the model's reading, log 86). -/
def mustFire (s : State) (p : Nat) (b : Block) (n : Nat) : Bool :=
  opOf (blockRec s p b (n + 1)) != 0 && !b.fired.contains n

/-- The conditions of R53 but for the exit. -/
def blockDone (s : State) (p : Nat) (b : Block) : Bool :=
  storesCounted b && b.writes.length == headerWrites b &&
    (if isFinal s p b then !(List.range (blockLen b)).any (mustFire s p b) else b.exits.length == 1)

/-- Matches of the block that have not issued yet, and completion tags that its transfers wait for (11 R250). -/
def blockWaits (s : State) (p : Nat) (b : Block) : Bool :=
  (nibAt s p 240).ready.any (fun m => !m.late && m.again == 0) ||
    b.held.any (fun e => match e.i with
      | .xfer r => !tagFree s p r.ctag.toNat
      | .xfers r => !tagFree s p r.ctag.toNat
      | .pref r => !tagFree s p r.ctag.toNat
      | .coll r => !tagFree s p r.ctag.toNat
      | _ => false)

/-- The block holds a TRET. -/
def holdsTret (b : Block) : Bool := b.held.any (fun e => match e.i with | .tret _ => true | _ => false)

/-- Number of the record that breaks the rule of exits: the last exit that fired, or the TRET (20 R391). -/
def exitInfo (b : Block) : Nat := (b.exits.getLast?.map (fun e => e.1 + 1)).getD 0
def tretInfo (b : Block) : Nat := ((b.held.find? (fun e => match e.i with | .tret _ => true | _ => false)).map (fun e => e.cur.node + 1)).getD 0

/-- What follows the block: the target, and the call stack; `none` for a breach of R210. -/
def exitGo (s : State) (p : Nat) (b : Block) : Option (Nat × List Nat) :=
  let sc := scribeAt s p
  let inKernel := fun (x : Nat × List Nat) => if x.1 < blockCount s p then some x else none
  match b.exits with
  | (_, 0x33, lit, opx, x) :: _ => inKernel (if opx then x.toNat % 2 ^ 16 else lit.toNat % 2 ^ 16, sc.stack)
  | (_, 0x34, lit, _, _) :: _ =>
    if 16 ≤ sc.stack.length then none else inKernel (lit.toNat % 2 ^ 16, (lit.toNat / 2 ^ 16) :: sc.stack)
  | _ :: _ => match sc.stack with
    | [] => none
    | t :: rest => inKernel (t, rest)
  | [] => none

/-- TRETB.BLK as the TRET of the block finds it: SWRITEs that fired before it in the block have acted (R299; 20 R398). -/
def tretTarget (s : State) (p : Nat) (b : Block) : Nat :=
  (b.held.takeWhile (fun e => match e.i with | .tret _ => false | _ => true)).foldl (fun v (e : HeldEff) => match e.i with
    | .swrite r => if objNum r = 0x202 ∧ regTarget s e.cur r = p then swriteVal s e.cur r % 2 ^ 16 else v
    | _ => v) (bits (scribeAt s p).tretb.toNat 15 0)

/-- A TRET that its block cannot make: the exit is no BRANCH, no handler runs, or the block to return to does not exist (20
R398). -/
def tretBad (s : State) (p : Nat) (b : Block) : Bool :=
  let sc := scribeAt s p
  let blk := tretTarget s p b
  !(b.exits.any (fun e => e.2.1 == 0x33)) || !thand sc || (blk != 0xFFFF && decide (blockCount s p ≤ blk))

/-- The q registers, the higher record number last (R208). -/
def writeQs (s : State) (p : Nat) (b : Block) : State :=
  (sortBy (fun (x y : Nat × Nat × Option Word64) => decide (x.1 < y.1)) b.writes).foldl (fun s x => match x.2.2 with
    | some v => setScribe s p { scribeAt s p with q := tsetD (scribeAt s p).q x.2.1 v 0 }
    | none => s) s

/-- The held store-class records, in ascending LSID order. -/
def releaseStores (s : State) (b : Block) : State :=
  (sortBy (fun (x y : Access) => decide (x.r.lsid.toNat < y.r.lsid.toNat)) b.stores).foldl (fun s a => toSite s { a with late := true }) s

/-- The held effects of the other records, in firing order. -/
def heldEffects (s : State) (b : Block) : State :=
  b.held.foldl (fun s (e : HeldEff) => match fireRecord e.i { s with cur := { e.cur with late := true } } with
    | .next s' => s'
    | _ => s) s

/-- The tokens to grid sites; after a KFLIP they wait until the flip has taken effect or failed (15 R324). -/
def blockSends (s : State) (p : Nat) (b : Block) : State :=
  if ((panelAt s p).flip.bind (·.ask)).isSome then
    setScribe s p { scribeAt s p with waitFlip := b.sends, waitScales := b.scaleSends }
  else
    let s := b.sends.foldl (fun s t => sendLate s p t) s
    match (panelAt s p).inj with
    | some k => { s with scaleNet := s.scaleNet ++ b.scaleSends.map (fun x => { p := p, tok := { x with plane := k } }) }
    | none => b.scaleSends.foldl (fun s x => portDrop s p cILLEGAL x) s

/-- The block commits: registers, stores, held effects, tokens; then the scribe goes to its exit's target, or rests. -/
def commitBlock (s : State) (p : Nat) (b : Block) (next : Option (Nat × List Nat)) : State :=
  let s := settleBlock (writeQs s p b) p
  let sc := { scribeAt s p with cur := none }
  let s := setScribe s p (match next with
    | some (t, st) => { sc with next := t, stack := st }
    | none => { sc with resting := true })
  launchesGo (blockSends (heldEffects (releaseStores s b) b) p b)

/-- BLOCK_COMMIT (R53): a block that has raised an exception or fired a second exit fails; otherwise it commits when its
conditions hold. -/
def execBlockCommit (s : State) : Outcome :=
  let p := s.sel.p
  match (scribeAt s p).cur with
  | none => notNow
  | some b =>
    if gatedCtx s p 240 (planeOf s p b.plane).ctx then notNow
    else match b.exc with
      | some cause => .next (failBlock s p b cause b.excInfo)
      | none =>
        if 2 ≤ b.exits.length then .next (failBlock s p b cILLEGAL (exitInfo b))
        else if !blockDone s p b ∨ blockWaits s p b then notNow
        else if holdsTret b then
          (if tretBad s p b then .next (failBlock s p b cILLEGAL (tretInfo b))
           else .next (commitBlock s p b (some ((scribeAt s p).next, (scribeAt s p).stack))))
        else if isFinal s p b then .next (commitBlock s p b none)
        else match exitGo s p b with
          | some x => .next (commitBlock s p b (some x))
          | none => .next (failBlock s p b cILLEGAL (exitInfo b))

end Sys2Proof.Machine
end

