-- ==== Sys2Proof/Machine/Dispatch.lean ====
section
/-!
DEFINITION. One arm for each step of the part (spec/opcode_table.json): a direct call of its meaning.
-/
namespace Sys2Proof.Machine

def exec (i : Instr) (s : State) : Host.Outcome State Fault Refusal :=
  match i with
  | .nop r => Sys2Proof.Machine.execNop r s
  | .iadd r => Sys2Proof.Machine.execIadd r s
  | .isub r => Sys2Proof.Machine.execIsub r s
  | .imul r => Sys2Proof.Machine.execImul r s
  | .imulh r => Sys2Proof.Machine.execImulh r s
  | .imad r => Sys2Proof.Machine.execImad r s
  | .idiv r => Sys2Proof.Machine.execIdiv r s
  | .irem r => Sys2Proof.Machine.execIrem r s
  | .imin r => Sys2Proof.Machine.execImin r s
  | .imax r => Sys2Proof.Machine.execImax r s
  | .iabs r => Sys2Proof.Machine.execIabs r s
  | .ineg r => Sys2Proof.Machine.execIneg r s
  | .and r => Sys2Proof.Machine.execAnd r s
  | .or r => Sys2Proof.Machine.execOr r s
  | .xor r => Sys2Proof.Machine.execXor r s
  | .andn r => Sys2Proof.Machine.execAndn r s
  | .shl r => Sys2Proof.Machine.execShl r s
  | .shr r => Sys2Proof.Machine.execShr r s
  | .sra r => Sys2Proof.Machine.execSra r s
  | .rot r => Sys2Proof.Machine.execRot r s
  | .clz r => Sys2Proof.Machine.execClz r s
  | .popc r => Sys2Proof.Machine.execPopc r s
  | .brev r => Sys2Proof.Machine.execBrev r s
  | .bfx r => Sys2Proof.Machine.execBfx r s
  | .bfi r => Sys2Proof.Machine.execBfi r s
  | .icmp r => Sys2Proof.Machine.execIcmp r s
  | .sel r => Sys2Proof.Machine.execSel r s
  | .iclamp r => Sys2Proof.Machine.execIclamp r s
  | .addr r => Sys2Proof.Machine.execAddr r s
  | .iaddw r => Sys2Proof.Machine.execIaddw r s
  | .icvt r => Sys2Proof.Machine.execIcvt r s
  | .copy r => Sys2Proof.Machine.execCopy r s
  | .const r => Sys2Proof.Machine.execConst r s
  | .sink r => Sys2Proof.Machine.execSink r s
  | .gate r => Sys2Proof.Machine.execGate r s
  | .join r => Sys2Proof.Machine.execJoin r s
  | .steer r => Sys2Proof.Machine.execSteer r s
  | .merge r => Sys2Proof.Machine.execMerge r s
  | .enter r => Sys2Proof.Machine.execEnter r s
  | .wave r => Sys2Proof.Machine.execWave r s
  | .leave r => Sys2Proof.Machine.execLeave r s
  | .throttleAdmit r => Sys2Proof.Machine.execThrottleAdmit r s
  | .repeat r => Sys2Proof.Machine.execRepeat r s
  | .tagget r => Sys2Proof.Machine.execTagget r s
  | .tagset r => Sys2Proof.Machine.execTagset r s
  | .void r => Sys2Proof.Machine.execVoid r s
  | .range r => Sys2Proof.Machine.execRange r s
  | .runend r => Sys2Proof.Machine.execRunend r s
  | .read r => Sys2Proof.Machine.execRead r s
  | .write r => Sys2Proof.Machine.execWrite r s
  | .branch r => Sys2Proof.Machine.execBranch r s
  | .bcall r => Sys2Proof.Machine.execBcall r s
  | .bret r => Sys2Proof.Machine.execBret r s
  | .fadd r => Sys2Proof.Machine.execFadd r s
  | .fsub r => Sys2Proof.Machine.execFsub r s
  | .fmul r => Sys2Proof.Machine.execFmul r s
  | .ffma r => Sys2Proof.Machine.execFfma r s
  | .fmin r => Sys2Proof.Machine.execFmin r s
  | .fmax r => Sys2Proof.Machine.execFmax r s
  | .fcmp r => Sys2Proof.Machine.execFcmp r s
  | .fclass r => Sys2Proof.Machine.execFclass r s
  | .fdiv r => Sys2Proof.Machine.execFdiv r s
  | .fsqrt r => Sys2Proof.Machine.execFsqrt r s
  | .frcp r => Sys2Proof.Machine.execFrcp r s
  | .frsq r => Sys2Proof.Machine.execFrsq r s
  | .frcpa r => Sys2Proof.Machine.execFrcpa r s
  | .frsqa r => Sys2Proof.Machine.execFrsqa r s
  | .fexp2 r => Sys2Proof.Machine.execFexp2 r s
  | .flog2 r => Sys2Proof.Machine.execFlog2 r s
  | .fsinpi r => Sys2Proof.Machine.execFsinpi r s
  | .fcospi r => Sys2Proof.Machine.execFcospi r s
  | .ftanh r => Sys2Proof.Machine.execFtanh r s
  | .fscale r => Sys2Proof.Machine.execFscale r s
  | .fround r => Sys2Proof.Machine.execFround r s
  | .fsgn r => Sys2Proof.Machine.execFsgn r s
  | .cvt r => Sys2Proof.Machine.execCvt r s
  | .ftoi r => Sys2Proof.Machine.execFtoi r s
  | .itof r => Sys2Proof.Machine.execItof r s
  | .bxpack r => Sys2Proof.Machine.execBxpack r s
  | .bxunpk r => Sys2Proof.Machine.execBxunpk r s
  | .dot r => Sys2Proof.Machine.execDot r s
  | .lsum r => Sys2Proof.Machine.execLsum r s
  | .lscan r => Sys2Proof.Machine.execLscan r s
  | .lmax r => Sys2Proof.Machine.execLmax r s
  | .lmin r => Sys2Proof.Machine.execLmin r s
  | .shuf r => Sys2Proof.Machine.execShuf r s
  | .bcast r => Sys2Proof.Machine.execBcast r s
  | .iota r => Sys2Proof.Machine.execIota r s
  | .lmask r => Sys2Proof.Machine.execLmask r s
  | .packc r => Sys2Proof.Machine.execPackc r s
  | .unpackc r => Sys2Proof.Machine.execUnpackc r s
  | .cmpfwd r => Sys2Proof.Machine.execCmpfwd r s
  | .rankadmCandidate r => Sys2Proof.Machine.execRankadmCandidate r s
  | .ld r => Sys2Proof.Machine.execLd r s
  | .st r => Sys2Proof.Machine.execSt r s
  | .ldx r => Sys2Proof.Machine.execLdx r s
  | .stx r => Sys2Proof.Machine.execStx r s
  | .mnop r => Sys2Proof.Machine.execMnop r s
  | .fence r => Sys2Proof.Machine.execFence r s
  | .order r => Sys2Proof.Machine.execOrder r s
  | .aadd r => Sys2Proof.Machine.execAadd r s
  | .amin r => Sys2Proof.Machine.execAmin r s
  | .amax r => Sys2Proof.Machine.execAmax r s
  | .aand r => Sys2Proof.Machine.execAand r s
  | .aor r => Sys2Proof.Machine.execAor r s
  | .axor r => Sys2Proof.Machine.execAxor r s
  | .axchg r => Sys2Proof.Machine.execAxchg r s
  | .acas r => Sys2Proof.Machine.execAcas r s
  | .acc r => Sys2Proof.Machine.execAcc r s
  | .wcfg r => Sys2Proof.Machine.execWcfg r s
  | .wfull r => Sys2Proof.Machine.execWfull r s
  | .wempty r => Sys2Proof.Machine.execWempty r s
  | .ldp r => Sys2Proof.Machine.execLdp r s
  | .promote r => Sys2Proof.Machine.execPromote r s
  | .xfer r => Sys2Proof.Machine.execXfer r s
  | .xfers r => Sys2Proof.Machine.execXfers r s
  | .pref r => Sys2Proof.Machine.execPref r s
  | .pginit r => Sys2Proof.Machine.execPginit r s
  | .pginitFree r => Sys2Proof.Machine.execPginitFree r s
  | .pgadv r => Sys2Proof.Machine.execPgadv r s
  | .pgread r => Sys2Proof.Machine.execPgread r s
  | .waitany r => Sys2Proof.Machine.execWaitany r s
  | .waitall r => Sys2Proof.Machine.execWaitall r s
  | .ffready r => Sys2Proof.Machine.execFfready r s
  | .sclemit r => Sys2Proof.Machine.execSclemit r s
  | .wload r => Sys2Proof.Machine.execWload r s
  | .mma r => Sys2Proof.Machine.execMma r s
  | .accin r => Sys2Proof.Machine.execAccin r s
  | .accout r => Sys2Proof.Machine.execAccout r s
  | .sysmodeEnter r => Sys2Proof.Machine.execSysmodeEnter r s
  | .sysmodeLeave r => Sys2Proof.Machine.execSysmodeLeave r s
  | .cavjoinLocal r => Sys2Proof.Machine.execCavjoinLocal r s
  | .cavjoinSegment r => Sys2Proof.Machine.execCavjoinSegment r s
  | .cavjoinLeave r => Sys2Proof.Machine.execCavjoinLeave r s
  | .cav r => Sys2Proof.Machine.execCav r s
  | .pacesetInit r => Sys2Proof.Machine.execPacesetInit r s
  | .pacesetLoad r => Sys2Proof.Machine.execPacesetLoad r s
  | .pacesetUpdate r => Sys2Proof.Machine.execPacesetUpdate r s
  | .sweep r => Sys2Proof.Machine.execSweep r s
  | .paceq r => Sys2Proof.Machine.execPaceq r s
  | .rulesetWrite r => Sys2Proof.Machine.execRulesetWrite r s
  | .rulesetClear r => Sys2Proof.Machine.execRulesetClear r s
  | .rulearmArm r => Sys2Proof.Machine.execRulearmArm r s
  | .rulearmDisarm r => Sys2Proof.Machine.execRulearmDisarm r s
  | .coll r => Sys2Proof.Machine.execColl r s
  | .spawn r => Sys2Proof.Machine.execSpawn r s
  | .callocGrant r => Sys2Proof.Machine.execCallocGrant r s
  | .callocEntry r => Sys2Proof.Machine.execCallocEntry r s
  | .ret r => Sys2Proof.Machine.execRet r s
  | .binit r => Sys2Proof.Machine.execBinit r s
  | .binitFree r => Sys2Proof.Machine.execBinitFree r s
  | .barrive r => Sys2Proof.Machine.execBarrive r s
  | .barriveTag r => Sys2Proof.Machine.execBarriveTag r s
  | .bwait r => Sys2Proof.Machine.execBwait r s
  | .bdrop r => Sys2Proof.Machine.execBdrop r s
  | .btest r => Sys2Proof.Machine.execBtest r s
  | .btestTicket r => Sys2Proof.Machine.execBtestTicket r s
  | .qput r => Sys2Proof.Machine.execQput r s
  | .qtake r => Sys2Proof.Machine.execQtake r s
  | .qtakePoll r => Sys2Proof.Machine.execQtakePoll r s
  | .qstat r => Sys2Proof.Machine.execQstat r s
  | .qmark r => Sys2Proof.Machine.execQmark r s
  | .kstage r => Sys2Proof.Machine.execKstage r s
  | .kflip r => Sys2Proof.Machine.execKflip r s
  | .kdrain r => Sys2Proof.Machine.execKdrain r s
  | .kdrainPurge r => Sys2Proof.Machine.execKdrainPurge r s
  | .kdrainPoll r => Sys2Proof.Machine.execKdrainPoll r s
  | .snap r => Sys2Proof.Machine.execSnap r s
  | .ctxpri r => Sys2Proof.Machine.execCtxpri r s
  | .park r => Sys2Proof.Machine.execPark r s
  | .resume r => Sys2Proof.Machine.execResume r s
  | .yield r => Sys2Proof.Machine.execYield r s
  | .sread r => Sys2Proof.Machine.execSread r s
  | .swrite r => Sys2Proof.Machine.execSwrite r s
  | .mpin r => Sys2Proof.Machine.execMpin r s
  | .munpin r => Sys2Proof.Machine.execMunpin r s
  | .minv r => Sys2Proof.Machine.execMinv r s
  | .minvContext r => Sys2Proof.Machine.execMinvContext r s
  | .mprobe r => Sys2Proof.Machine.execMprobe r s
  | .mprobeRead r => Sys2Proof.Machine.execMprobeRead r s
  | .mprobeReadClear r => Sys2Proof.Machine.execMprobeReadClear r s
  | .trap r => Sys2Proof.Machine.execTrap r s
  | .tret r => Sys2Proof.Machine.execTret r s
  | .ftake r => Sys2Proof.Machine.execFtake r s
  | .ftakeRetry r => Sys2Proof.Machine.execFtakeRetry r s
  | .ftakeDiscard r => Sys2Proof.Machine.execFtakeDiscard r s
  | .ftakePeek r => Sys2Proof.Machine.execFtakePeek r s
  | .ptest r => Sys2Proof.Machine.execPtest r s
  | .lstat r => Sys2Proof.Machine.execLstat r s
  | .lctlTrain r => Sys2Proof.Machine.execLctlTrain r s
  | .lctlDown r => Sys2Proof.Machine.execLctlDown r s
  | .lctlReset r => Sys2Proof.Machine.execLctlReset r s
  | .lctlRoute r => Sys2Proof.Machine.execLctlRoute r s
  | .lctlClearCounters r => Sys2Proof.Machine.execLctlClearCounters r s
  | .lctlOwnNumber r => Sys2Proof.Machine.execLctlOwnNumber r s
  | .tokenArrival => Sys2Proof.Machine.execTokenArrival s
  | .frameMatchReturn => Sys2Proof.Machine.execFrameMatchReturn s
  | .scaleTokenArrival => Sys2Proof.Machine.execScaleTokenArrival s
  | .shareWindowStart => Sys2Proof.Machine.execShareWindowStart s
  | .delayedResultDelivery => Sys2Proof.Machine.execDelayedResultDelivery s
  | .throttleCredit => Sys2Proof.Machine.execThrottleCredit s
  | .generatorEmit => Sys2Proof.Machine.execGeneratorEmit s
  | .rankadmBatchComplete => Sys2Proof.Machine.execRankadmBatchComplete s
  | .accAddend => Sys2Proof.Machine.execAccAddend s
  | .wcfgTakeEffect => Sys2Proof.Machine.execWcfgTakeEffect s
  | .orderBufferRelease => Sys2Proof.Machine.execOrderBufferRelease s
  | .wellAccess => Sys2Proof.Machine.execWellAccess s
  | .pageWindowFill => Sys2Proof.Machine.execPageWindowFill s
  | .l2Fill => Sys2Proof.Machine.execL2Fill s
  | .arbiterService => Sys2Proof.Machine.execArbiterService s
  | .transferSectorDone => Sys2Proof.Machine.execTransferSectorDone s
  | .pulse => Sys2Proof.Machine.execPulse s
  | .scalePortConvert => Sys2Proof.Machine.execScalePortConvert s
  | .arrayPassUpdate => Sys2Proof.Machine.execArrayPassUpdate s
  | .cavityRound => Sys2Proof.Machine.execCavityRound s
  | .cavityCarryPoll => Sys2Proof.Machine.execCavityCarryPoll s
  | .ruleArrival => Sys2Proof.Machine.execRuleArrival s
  | .ruleEmit => Sys2Proof.Machine.execRuleEmit s
  | .drainFenceComplete => Sys2Proof.Machine.execDrainFenceComplete s
  | .eauCredit => Sys2Proof.Machine.execEauCredit s
  | .colourDraw => Sys2Proof.Machine.execColourDraw s
  | .returnTokenDelivery => Sys2Proof.Machine.execReturnTokenDelivery s
  | .colourDrain => Sys2Proof.Machine.execColourDrain s
  | .groupIdle => Sys2Proof.Machine.execGroupIdle s
  | .parkwaitExpiry => Sys2Proof.Machine.execParkwaitExpiry s
  | .sliceExpiry => Sys2Proof.Machine.execSliceExpiry s
  | .barrierWatchExpiry => Sys2Proof.Machine.execBarrierWatchExpiry s
  | .barrierNotice => Sys2Proof.Machine.execBarrierNotice s
  | .hostAppend => Sys2Proof.Machine.execHostAppend s
  | .queueConfig => Sys2Proof.Machine.execQueueConfig s
  | .queueStart => Sys2Proof.Machine.execQueueStart s
  | .queueStop => Sys2Proof.Machine.execQueueStop s
  | .queueReset => Sys2Proof.Machine.execQueueReset s
  | .queueClro => Sys2Proof.Machine.execQueueClro s
  | .launchPlacement => Sys2Proof.Machine.execLaunchPlacement s
  | .launchCompletion => Sys2Proof.Machine.execLaunchCompletion s
  | .stageComplete => Sys2Proof.Machine.execStageComplete s
  | .planeEmpty => Sys2Proof.Machine.execPlaneEmpty s
  | .markerArrival => Sys2Proof.Machine.execMarkerArrival s
  | .snapTimeout => Sys2Proof.Machine.execSnapTimeout s
  | .parkGate => Sys2Proof.Machine.execParkGate s
  | .parkSettle => Sys2Proof.Machine.execParkSettle s
  | .parkQuiesce => Sys2Proof.Machine.execParkQuiesce s
  | .parkStream => Sys2Proof.Machine.execParkStream s
  | .parkCommit => Sys2Proof.Machine.execParkCommit s
  | .parkFaultAbandon => Sys2Proof.Machine.execParkFaultAbandon s
  | .parkAbandonTimeout => Sys2Proof.Machine.execParkAbandonTimeout s
  | .crecWrite => Sys2Proof.Machine.execCrecWrite s
  | .validate => Sys2Proof.Machine.execValidate s
  | .release => Sys2Proof.Machine.execRelease s
  | .prangeWrite => Sys2Proof.Machine.execPrangeWrite s
  | .plpriWrite => Sys2Proof.Machine.execPlpriWrite s
  | .pulseWrite => Sys2Proof.Machine.execPulseWrite s
  | .svcmodeWrite => Sys2Proof.Machine.execSvcmodeWrite s
  | .serviceModeChange => Sys2Proof.Machine.execServiceModeChange s
  | .preempt => Sys2Proof.Machine.execPreempt s
  | .pctlFreeze => Sys2Proof.Machine.execPctlFreeze s
  | .pctlReset => Sys2Proof.Machine.execPctlReset s
  | .resumep => Sys2Proof.Machine.execResumep s
  | .registerWrite => Sys2Proof.Machine.execRegisterWrite s
  | .pageWalk => Sys2Proof.Machine.execPageWalk s
  | .blockEntry => Sys2Proof.Machine.execBlockEntry s
  | .blockCommit => Sys2Proof.Machine.execBlockCommit s
  | .trapTaken => Sys2Proof.Machine.execTrapTaken s
  | .uncorrectableError => Sys2Proof.Machine.execUncorrectableError s
  | .flitReceive => Sys2Proof.Machine.execFlitReceive s
  | .trainingComplete => Sys2Proof.Machine.execTrainingComplete s
  | .trainingFail => Sys2Proof.Machine.execTrainingFail s
  | .resettingDrained => Sys2Proof.Machine.execResettingDrained s
  | .peerResetSeen => Sys2Proof.Machine.execPeerResetSeen s
  | .linkLeavesUp => Sys2Proof.Machine.execLinkLeavesUp s
  | .responseTimeout => Sys2Proof.Machine.execResponseTimeout s
  | .dieLinkFailure => Sys2Proof.Machine.execDieLinkFailure s
  | .hostMemRequest => Sys2Proof.Machine.execHostMemRequest s
  | .hostPortDown => Sys2Proof.Machine.execHostPortDown s
  | .standbyPowerOn => Sys2Proof.Machine.execStandbyPowerOn s
  | .dieResetRelease => Sys2Proof.Machine.execDieResetRelease s
  | .panelStart => Sys2Proof.Machine.execPanelStart s
  | .selfTestComplete => Sys2Proof.Machine.execSelfTestComplete s
  | .limiterStep => Sys2Proof.Machine.execLimiterStep s
  | .powerCeilingStep => Sys2Proof.Machine.execPowerCeilingStep s
  | .getIdentity => Sys2Proof.Machine.execGetIdentity s
  | .getStatus => Sys2Proof.Machine.execGetStatus s
  | .readCounters => Sys2Proof.Machine.execReadCounters s
  | .readHistogram => Sys2Proof.Machine.execReadHistogram s
  | .setPolicy => Sys2Proof.Machine.execSetPolicy s
  | .keyAdd => Sys2Proof.Machine.execKeyAdd s
  | .attest => Sys2Proof.Machine.execAttest s
  | .resetMain => Sys2Proof.Machine.execResetMain s
  | .mgmtBusy => Sys2Proof.Machine.execMgmtBusy s
  | .counterCommit => Sys2Proof.Machine.execCounterCommit s
  | .histogramSample => Sys2Proof.Machine.execHistogramSample s
  | .flipTakesEffect => Sys2Proof.Machine.execFlipTakesEffect s
  | .resumeComplete => Sys2Proof.Machine.execResumeComplete s
  | .partitionFrozen => Sys2Proof.Machine.execPartitionFrozen s
  | .partitionCleared => Sys2Proof.Machine.execPartitionCleared s
  | .rcRegisterRead => Sys2Proof.Machine.execRcRegisterRead s
  | .controlLineRejected => Sys2Proof.Machine.execControlLineRejected s
  | .hdmDecoderWrite => Sys2Proof.Machine.execHdmDecoderWrite s
  | .mainPowerOn => Sys2Proof.Machine.execMainPowerOn s
  | .mainPowerOff => Sys2Proof.Machine.execMainPowerOff s
  | .orderlyPowerDown => Sys2Proof.Machine.execOrderlyPowerDown s
  | .standbyPowerLoss => Sys2Proof.Machine.execStandbyPowerLoss s

end Sys2Proof.Machine
end

