-- ==== Sys2Proof/Machine/Sched.lean ====
section
/-!
DEFINITION. Which step comes next (02 R45, R47; 26 R418): the moves of a cycle, what the outside world brings, the passing of a
cycle, and the issue of a match. Times that the spec leaves open come from `Config.choice` and inputs from `Config.inputs`
(log 8).
-/
namespace Sys2Proof.Machine

/-! ## Who may act -/

/-- Events of the management controller and its supplies, which go on while the dies stand in reset (01 R27, 26 R414). -/
def mgmtEvent (i : Instr) : Bool :=
  match i with
  | .standbyPowerOn => true
  | .dieResetRelease => true
  | .mainPowerOn => true
  | .mainPowerOff => true
  | .orderlyPowerDown => true
  | .standbyPowerLoss => true
  | .getIdentity => true
  | .getStatus => true
  | .readCounters => true
  | .readHistogram => true
  | .setPolicy => true
  | .keyAdd => true
  | .attest => true
  | .resetMain => true
  | .mgmtBusy => true
  | _ => false

/-- Events that the host brings over its port (19 R379). -/
def hostEvent (i : Instr) : Bool :=
  match i with
  | .hostAppend => true
  | .queueConfig => true
  | .queueStart => true
  | .queueStop => true
  | .queueReset => true
  | .queueClro => true
  | .controlLineRejected => true
  | .crecWrite => true
  | .validate => true
  | .release => true
  | .prangeWrite => true
  | .plpriWrite => true
  | .pulseWrite => true
  | .svcmodeWrite => true
  | .preempt => true
  | .pctlFreeze => true
  | .pctlReset => true
  | .resumep => true
  | .registerWrite => true
  | .rcRegisterRead => true
  | .hostMemRequest => true
  | .hdmDecoderWrite => true
  | _ => false

/-- Events that other parts, links, self-tests and errors bring, or whose outcome they decide. -/
def outerEvent (i : Instr) : Bool :=
  match i with
  | .uncorrectableError => true
  | .flitReceive => true
  | .trainingComplete => true
  | .trainingFail => true
  | .peerResetSeen => true
  | .linkLeavesUp => true
  | .hostPortDown => true
  | .selfTestComplete => true
  | _ => false

/-- An event of the table can take place while the dies and the host port stand as they do. -/
def eventAllowed (s : State) (i : Instr) : Bool :=
  mgmtEvent i || (s.mgmt.released && (!hostEvent i || (linkAt s 27).state == 2))

/-! ## The moves of a cycle -/

/-- A move for each place of a list. -/
def offerEach {α : Type} (i : Instr) (l : List α) (f : Nat → Sel) : List Move := (List.range l.length).map (fun k => .event i (f k))

/-- A move of an event. -/
def offer (i : Instr) (f : Sel) : Move := .event i f

/-- What can happen at the nibs and scribes. -/
def offersNib (s : State) : List Move :=
  s.nibs.flatMap (fun x =>
    offerEach .rankadmBatchComplete x.2.sticky (fun k => { p := x.1 / 256, site := x.1 % 256, k := k }))

/-- What can happen at the wells and the order buffers. -/
def offersWell (s : State) : List Move :=
  s.wells.flatMap (fun x =>
    let p := x.1 / 256
    let w := x.1 % 256
    offerEach .frameMatchReturn x.2.returns (fun k => { p := p, site := w, k := k }) ++
    (if x.2.pend.isEmpty then [] else [offer .wcfgTakeEffect { p := p, site := w }]) ++
    offerEach .cavityRound x.2.cavs (fun k => { p := p, site := w, k := k }) ++
    offerEach .cavityCarryPoll x.2.cavs (fun k => { p := p, site := w, k := k })) ++
  s.obufs.flatMap (fun x =>
    let p := x.1 / 256
    let w := x.1 % 256
    offerEach .orderBufferRelease x.2.waiting (fun k => { p := p, site := w, k := k }) ++
    offerEach .wellAccess x.2.released (fun k => { p := p, site := w, k := k }) ++
    offerEach .pageWindowFill x.2.released (fun k => { p := p, site := w, k := k }))

/-- What can happen in the lists of the part. -/
def offersList (s : State) : List Move :=
  offerEach .tokenArrival s.transit (fun k => { k := k }) ++ offerEach .throttleCredit s.transit (fun k => { k := k }) ++
  offerEach .markerArrival s.transit (fun k => { k := k }) ++ offerEach .eauCredit s.transit (fun k => { k := k }) ++
  offerEach .scaleTokenArrival s.scaleNet (fun k => { k := k }) ++ offerEach .accAddend s.addends (fun k => { k := k }) ++
  offerEach .l2Fill s.reqs (fun k => { k := k }) ++ offerEach .transferSectorDone s.reqs (fun k => { k := k }) ++
  (s.reqs.filterMap (fun r => r.path.head?)).eraseDups.map (fun a => offer .arbiterService { k := a }) ++
  offerEach .ruleArrival s.arrivals (fun k => { k := k }) ++
  offerEach .returnTokenDelivery s.returns (fun k => { k := k }) ++ offerEach .barrierNotice s.notices (fun k => { k := k }) ++
  offerEach .launchCompletion s.launches (fun k => { k := k }) ++ offerEach .pageWalk s.walks (fun k => { k := k }) ++
  (List.range s.arrays.length).flatMap (fun k =>
    let a := s.arrays.getD k default
    (List.range a.passes.length).flatMap (fun n => (List.range 16).map (fun q => offer .arrayPassUpdate { k := k, num := n, q := q }))) ++
  (s.l2.filter (fun x => x.2.mask != 0)).map (fun x => .pass (x.1 / 2 ^ 60) (x.1 % 2 ^ 60 * 32)) ++ (if s.pins.isEmpty then [] else [.pins])

/-- What can happen at the panels. -/
def offersPanel (s : State) : List Move :=
  s.panels.flatMap (fun x =>
    [offer .blockEntry { p := x.1 }, offer .blockCommit { p := x.1 }, offer .trapTaken { p := x.1 },
     offer .scalePortConvert { p := x.1 }, offer .flipTakesEffect { p := x.1 }, offer .serviceModeChange { p := x.1 }] ++
    (List.range 4).flatMap (fun k => [offer .stageComplete { p := x.1, plane := k }, offer .planeEmpty { p := x.1, plane := k }])) ++
  s.rules.flatMap (fun x => x.2.tables.flatMap (fun t =>
    [offer .ruleEmit { p := x.1, num := t.1 }, offer .drainFenceComplete { p := x.1, num := t.1 }]))

/-- What can happen to contexts, partitions, groups, barriers, queues and links. -/
def offersPart (s : State) : List Move :=
  s.ctxs.flatMap (fun x =>
    [.parkGate, .parkSettle, .parkQuiesce, .parkStream, .parkCommit, .parkFaultAbandon, .resumeComplete].map
      (fun i => offer i { ctx := x.1 })) ++
  s.parts.flatMap (fun x => [offer .partitionFrozen { part := x.1 }, offer .partitionCleared { part := x.1 }]) ++
  s.colours.map (fun x => offer .colourDrain { part := x.1 / 4096, k := x.1 % 4096 }) ++
  (List.range 3).map (fun d => offer .launchPlacement { die := d }) ++
  s.links.map (fun x => offer .resettingDrained { link := x.1 }) ++
  (List.range 3).map (fun l => offer .dieLinkFailure { link := l })

/-- What the part can do by itself in this cycle, at a time that is open. -/
def offers (s : State) : List Move := offersNib s ++ offersWell s ++ offersList s ++ offersPanel s ++ offersPart s

/-- What comes from outside, and what has a row but needs a sensor, a link partner or the host. -/
def brought (s : State) : List Move :=
  ((Config.inputs s.fresh).filter (fun x => hostEvent x.1 || outerEvent x.1 || mgmtEvent x.1)).map (fun x => .event x.1 x.2)

/-- Some of the moves, in some order: each choice takes one of those left, or ends the cycle's moves. -/
def chooseMoves : Nat → Nat → List Move → List Move
  | 0, _, _ => []
  | n + 1, f, ms =>
    let k := Config.choice f % (ms.length + 1)
    match ms[k]? with
    | some m => m :: chooseMoves n (f + 1) (dropAt ms k)
    | none => []

/-- What a cycle begins with: windows (02 R46), panels that start (26 R410), the commit of the counters and their
samples (26 R415). -/
def firsts (s : State) : List Move :=
  (s.nibs.filter (fun x => decide ((panelAt s (x.1 / 256)).startCycle < s.cycle) &&
      (s.cycle - (panelAt s (x.1 / 256)).startCycle) % 256 == 0)).map
    (fun x => offer .shareWindowStart { p := x.1 / 256, site := x.1 % 256 }) ++
  (if s.cycle % 17500 = 0 ∧ s.cycle / 17500 < 48 then [offer .panelStart { p := s.cycle / 17500 }] else []) ++
  (if s.cycle % 2 ^ 32 = 0 then [offer .counterCommit {}] else []) ++
  (if s.cycle % 2 ^ 20 = 0 then [offer .histogramSample (Config.sensors s.cycle 60)] else [])

/-- Results of a nib that are due, in order of issue, those of one record after one another (10 R212): the places that they have when
those before them have left. -/
def duePlaces (cycle : Nat) (ds : List Delayed) : List Nat :=
  ((List.range ds.length).foldl (fun (st : List Nat × List (Nat × Nat)) i =>
    match ds[i]? with
    | some d =>
      if d.due ≤ cycle ∧ !st.2.contains (d.plane, d.node) then (st.1 ++ [i - st.1.length], st.2)
      else (st.1, (d.plane, d.node) :: st.2)
    | none => st) ([], [])).1

/-- Updates of passes whose time has run out, last pass first; each is passed over while its turn has not come (11 R260). -/
def duePasses (s : State) : List Move :=
  (List.range s.arrays.length).flatMap (fun k =>
    let a := s.arrays.getD k default
    ((List.range a.passes.length).reverse.filter (fun n => let x := a.passes.getD n default
        x.complete && decide (x.born + passTime a ≤ s.cycle))).flatMap (fun n =>
      (List.range (ncolOf a)).map (fun q => offer .arrayPassUpdate { k := k, num := n, q := q })))

/-- A sector of a transfer at PANEL scope that has been written: the transfer is complete in the cycle after its last one (21 R404). -/
def panelSector (s : State) (r : Req) : Bool :=
  match r.kind with
  | .xferSector id _ _ => r.path.isEmpty && decide (r.due ≤ s.cycle) && (xferOf s id).any (fun x => x.arr.isNone && xScope x.desc == 1)
  | _ => false

/-- What the controller does at its times: a self-test ends after 40,000 cycles at the latest, the limiter and its ceiling step, and a
RESET-MAIN goes on (26 R408, R411, R412, R414). -/
def duesManage (s : State) : List Move :=
  (s.panels.filter (fun x => x.2.started && !x.2.tested && !x.2.fenced && decide (x.2.startCycle + 40000 ≤ s.cycle))).map
    (fun x => offer .selfTestComplete { Config.sensors s.cycle (4 + x.1) with p := x.1 }) ++
  ((List.range 3).filter (fun d => decide ((limiterAt s d).lastStep + s.mgmt.ramp.toNat ≤ s.cycle))).map
    (fun d => offer .limiterStep { Config.sensors s.cycle d with die := d }) ++
  ((List.range 3).filter (fun d => decide ((limiterAt s d).lastCeil + 1024 ≤ s.cycle))).map
    (fun d => offer .powerCeilingStep { Config.sensors s.cycle 3 with die := d }) ++
  (if s.mgmt.resetting then [offer .resetMain (Config.sensors s.cycle 61)] else [])

/-- What is due in the cycle, whatever else happens in it: results (10 R212), slices, idle groups and the times of parks, snapshots,
barriers, partitions and requests to other parts, each passed over until its time has come (13 R287, R288, R295, R296; 15 R328;
16 R339, R340; 17 R349; 19 R376, R377; 21 R404; 26 R411, R412, R418). -/
def dues (s : State) : List Move :=
  s.nibs.flatMap (fun x => (duePlaces s.cycle x.2.delayed).map (fun k =>
    offer .delayedResultDelivery { p := x.1 / 256, site := x.1 % 256, k := k })) ++
  duePasses s ++ duesManage s ++ s.panels.map (fun x => offer .snapTimeout { p := x.1 }) ++
  s.barriers.map (fun x => offer .barrierWatchExpiry { die := x.1 / 4096, num := x.1 % 4096 }) ++
  ((List.range s.notices.length).reverse.filter (fun k => (s.notices[k]?).any (fun x =>
    decide (x.born + (if dieOf x.p = x.die then 32 else 64) ≤ s.cycle)))).map (fun k => offer .barrierNotice { k := k }) ++
  (s.panels.filter (fun x => x.2.flip.any (fun f => decide (f.born + 40 ≤ s.cycle)))).map (fun x => offer .flipTakesEffect { p := x.1 }) ++
  s.groups.map (fun x => offer .groupIdle { part := partOf s x.2.ctx, k := x.1 }) ++
  (s.parks.filter (fun x => decide (x.began + 16 ≤ s.cycle))).map (fun x => offer .parkGate { ctx := x.ctx }) ++
  s.parks.map (fun x => offer .parkAbandonTimeout { ctx := x.ctx }) ++
  s.ctxs.flatMap (fun x => [offer .sliceExpiry { ctx := x.1 }, offer .parkwaitExpiry { ctx := x.1 }]) ++
  (s.parts.filter (fun x => x.2.frzT0.any (fun t => decide (t + 4096 ≤ s.cycle)))).map (fun x => offer .partitionFrozen { part := x.1 }) ++
  (offerEach .responseTimeout s.remotes (fun k => { k := k })).reverse ++
  (s.links.filter (fun x => x.2.state == 3 && decide (x.2.since + 4096 ≤ s.cycle))).map (fun x => offer .resettingDrained { link := x.1 }) ++
  (((List.range s.reqs.length).reverse.filter (fun k => (s.reqs[k]?).any (panelSector s))).map (fun k => offer .transferSectorDone { k := k }))

/-- The tests of DONE in each panel (11 R253); then each site whose ready lists hold a match issues one, panels and sites in ascending
order (02 R45). -/
def issues (s : State) : List Move := s.panels.map (fun x => .tests x.1) ++ (s.nibs.filter (fun x => !x.2.ready.isEmpty)).map (fun x => .issue (x.1 / 256) (x.1 % 256))

/-- What a cycle ends with: what the queue points take (14 R303), what the colour point and the barrier points serve (16 R331, 17 R344),
and the pulses of started panels (06 R126). -/
def lasts (s : State) : List Move := .queues :: .points :: offerEach .colourDraw s.draws (fun k => { k := k }) ++ (s.panels.filter (fun x => x.2.started)).map (fun x => offer .pulse { p := x.1 })

/-- The moves of a cycle: what it begins with and what is due, what the outside brings and then what the part chooses to do of what
it can, the issue of every site that has a match, and what it ends with. -/
def planCycle (s : State) : State :=
  let ms := if s.mgmt.released then offers s else [offer .dieResetRelease {}]
  let fin := brought s ++ chooseMoves ms.length s.fresh ms
  { s with fresh := s.fresh + ms.length + 1
           sched := if s.mgmt.released then firsts s ++ dues s ++ fin ++ issues s ++ lasts s else fin }

/-! ## The passing of a cycle -/

/-- The head of each output queue leaves for the mesh (02 R45), unless it is for a full slot of plain service (02 R54). -/
def leaveQueues (s : State) : List Flight :=
  (s.transit.foldl (fun (st : List Flight × List (Nat × Nat)) f =>
    if f.queued ∧ !st.2.contains (f.p, f.src) then
      (st.1 ++ [{ f with queued := slotShut s (s.transit ++ st.1) f }], (f.p, f.src) :: st.2)
    else (st.1 ++ [f], st.2)) ([], [])).1

/-- Each domain port that is UP sends its oldest flit, stamped with the incarnation of the link (19 R375). -/
def sendFlits (s : State) : State :=
  s.links.foldl (fun s (x : Nat × Link) =>
    if isPort x.1 ∧ x.2.state = 2 then
      match x.2.txq with
      | f :: rest => { setLink s x.1 { x.2 with txq := rest } with out := s.out ++ [.flit x.1 { f with inc := x.2.inc }] }
      | [] => s
    else s) s

/-- The slice counters of running contexts (13 R288). -/
def countSlices (s : State) : State :=
  { s with ctxs := s.ctxs.map (fun x => if ctxRuns s x.1 then (x.1, { x.2 with sliceCnt := x.2.sliceCnt + 1 }) else x) }

/-- One die cycle passes: the counters that count cycles, what leaves queues, and what has waited for others to finish. -/
def passCycle (s : State) : State :=
  let s := { s with
    cycle := s.cycle + 1
    transit := leaveQueues s
    nibs := s.nibs.map (fun x => (x.1, countRows s (x.1 / 256) (x.1 % 256) x.2))
    barriers := s.barriers.map (fun x => (x.1, watchTick s x.2)) }
  routesGo (minvGo (turnTick (sendFlits (countSlices s))))

/-- Between two cycles: the response of the controller leaves, a cycle passes unless the dies stand in reset, and the moves
of the new cycle are chosen. -/
def tick (s : State) : State :=
  let s := mgmtTick s
  planCycle (if s.mgmt.released then passCycle s else s)

/-! ## Moves -/

/-- The generator of a retested match, by its place. -/
def genIndex (n : Nib) (m : Match) : Option Nat := idxOf (fun g => genReady g m) n.gens

/-- The match that has been picked is issued: a generator's next token, a record that an error has struck, a record that does
not decode, or the firing of the record (08 R179, 20 R400). -/
def fireMatch (s : State) (p site : Nat) (m : Match) : Outcome :=
  if m.again = 2 then
    match genIndex (nibAt s p site) m with
    | some k => exec .generatorEmit { s with sel := { p := p, site := site, k := k } }
    | none => .next s
  else
    let s1 := beginIssue s p site m
    if m.again = 0 ∧ recStruck s p site m.plane m.node then .next (settle (faultCur s1 s1.cur cPOISON 0) p site)
    else
      match decode s1.cur.word with
      | .ok i => exec i s1
      | .error _ => .next (faultCur s1 s1.cur cILLEGAL 0)

/-- A site issues the match that 02 R45 chooses, if it has one and room for its results. -/
def issueSite (s : State) (p site : Nat) : Outcome :=
  match pickIssue s p site with
  | none => .next s
  | some (s1, m) => fireMatch s1 p site m

/-- An event of the table, passed over when it cannot happen. A record is no event. -/
def runEvent (i : Instr) (sel : Sel) (s : State) : Outcome :=
  if (encode i).isSome ∨ !eventAllowed s i then .next s
  else
    match exec i { s with sel := sel } with
    | .refused .notEnabled => .next s
    | o => o

/-- One move. -/
def runMove (m : Move) (s : State) : Outcome :=
  match m with
  | .event i sel => runEvent i sel s
  | .issue p site => issueSite s p site
  | .tests p => .next (panelTests s p)
  | .queues => .next (queuePoints s)
  | .points => .next (pointsGo s)
  | .pass die hf => .next (passOn s die hf)
  | .pins => .next (pinsGo s)

/-! ## A record placed to be issued next (for `State.withFetchWord`) -/

/-- An operand that arrived in an earlier cycle. -/
def waitingTok (k : Nat) : Token := { tag := 0, port := BitVec.ofNat 3 k, ty := 6, lanes := [0, 0] }

/-- The state in which the next step issues the record: at the first nib of panel 0, or in a block of panel 0's scribe when
the record stands only there. -/
def placeRecord (s : State) (w : Rec96) : State :=
  let site := if scribeOnly (opOf w) then 240 else 0
  let m : Match := { plane := 0, node := 0, tag := 0, ops := (portsOf w).map (fun k => (k, waitingTok k)), done := 0, entered := 0 }
  let s := { s with
    cycle := s.cycle + 1
    sched := [.issue 0 site]
    limiters := tput s.limiters 0 { limiterAt s 0 with duty := 16 } }
  if site = 240 then
    let sc := scribeAt s 0
    let b : Block := { plane := 0, index := 0, header := tgetD sc.blocks (blockKey 0 0 0) 0 }
    setNib (setScribe s 0 { sc with blocks := tsetD sc.blocks (blockKey 0 0 1) w 0, cur := some b }) 0 240 { ready := [m] }
  else setNib s 0 0 { store := tsetD [] 0 w 0, ready := [m] }

end Sys2Proof.Machine
end

