-- ==== Sys2Proof/Machine/Step.lean ====
section
/-!
DEFINITION. One step of the part: the next move of the cycle, or the passing of a cycle when none is left (02 R47; 26 R418).
-/
namespace Sys2Proof.Machine

/-- The step function. -/
def step (s : State) : Host.Outcome State Fault Refusal :=
  match s.sched with
  | [] => .next (tick s)
  | m :: rest => runMove m { s with sched := rest }

/-- The state with the record whose bits are `w` placed so that the next step issues it (log 36). -/
def State.withFetchWord (s : State) (nbits w : Nat) : State := placeRecord s (BitVec.ofNat 96 (w % 2 ^ nbits))

end Sys2Proof.Machine
end

