-- ==== Sys2Proof/Safety.lean ====
section
/-!
DEFINITION. The terms in which claims are stated: when a match fires (02 R39, R51; 08 R178, R179), which fields a record
admits (08 R162 to R179), what a firing may change, and the canonical form of the memories.
-/
namespace Sys2Proof.Safety
open Sys2Proof.Machine

/-! ## A match that fires on values -/

/-- The match being issued supplies every port of the record's port set with a value, and its whole-token predicate is not
false (02 R51); CTL is admitted (08 R178, R179); a block value stands only where the record takes one (03 R80). -/
abbrev Takes (s : State) (f : Form) (ty : BitVec 4) (base : List Nat) (blk : Bool) : Prop :=
  hasPorts s.cur (portSet base f.ctl) = true ∧ badCtl base f.ctl = false ∧
  (f.ctl.lituse = 0 ∨ isBlockTy ty = false) ∧ anyNull s.cur (portSet base f.ctl) = false ∧
  (blk = true ∨ anyBlock s.cur (portSet base f.ctl) = false) ∧ predFalse f.ctl s.cur = false

/-- The same for a move: block values pass, and the literal may stand beside them (03 R80, 09 R193). -/
abbrev Moves (s : State) (f : Form) (base : List Nat) : Prop :=
  hasPorts s.cur (portSet base f.ctl) = true ∧ badCtl base f.ctl = false ∧
  anyNull s.cur (portSet base f.ctl) = false ∧ predFalse f.ctl s.cur = false

/-- The match supplies the ports of a record of format T or S with plain values and a true predicate; LITUSE is 0 (08 R170,
R171). -/
abbrev Supplied (s : State) (k : Ctl) (base : List Nat) : Prop :=
  hasPorts s.cur (portSet base k) = true ∧ badCtl base k = false ∧ k.lituse = 0 ∧
  anyBlock s.cur (portSet base k) = false ∧ anyNull s.cur (portSet base k) = false ∧ predFalse k s.cur = false

/-- No operand of the match is poisoned (20 R401). -/
abbrev Clean (s : State) : Prop := s.cur.ops.any (fun x => x.2.poison) = false

/-- The match is of a record of the block `b` that its scribe holds: effects on the part wait for the commit (02 R53). -/
abbrev InBlock (s : State) (b : Block) : Prop :=
  s.cur.site = 240 ∧ s.cur.late = false ∧ (scribeAt s s.cur.p).cur = some b

/-- The effect takes place now: the record stands at a nib, or its block has committed (02 R53). -/
abbrev ActsNow (s : State) : Prop := s.cur.site ≠ 240 ∨ s.cur.late = true

/-- The state in which the block holds the effect of instruction `i` (02 R53). -/
def held (s : State) (b : Block) (i : Instr) : State :=
  setScribe s s.cur.p { scribeAt s s.cur.p with cur := some { b with held := b.held ++ [{ i := i, cur := s.cur }] } }

/-- A record that acts on the object of a well meets a match that supplies it, at a well of that mode that the match's context
owns (12 R262, 04 R87). -/
abbrev AtWell (s : State) (r : RecS) (base : List Nat) (mode : Nat) : Prop :=
  Supplied s r.ctl base ∧ objBad s s.cur r mode = false ∧ objForeign s s.cur r.d1.site.toNat = false

/-- A record of format S that stands only at the scribe meets a clean match that supplies its trigger on port a (13 R299). -/
abbrev AtScribe (s : State) (r : RecS) : Prop := s.cur.site = 240 ∧ Supplied s r.ctl [0] ∧ Clean s

/-! ## Admitted fields -/

/-- Class 0 (09 R183): an integer FMT, MOD[87:85] 0, SAT only where the record has it, CF 0. -/
abbrev IntFields (sat : Bool) (r : RecN) : Prop :=
  r.fmt.toNat < 8 ∧ r.hi.toNat ≤ (if sat then 1 else 0) ∧ r.cf = 0

/-- Class 2 (10 R211): a float FMT, MOD[87:84] below `k`, CF 0. -/
abbrev FltFields (k : Nat) (r : RecN) : Prop :=
  8 ≤ r.fmt.toNat ∧ r.fmt.toNat ≤ 10 ∧ r.hi.toNat < k ∧ r.cf = 0

/-- Class 1 (09 R193): CF 0; OPX and LEVEL 0 unless the record has them. -/
abbrev MoveFields (opxOk levelOk : Bool) (r : RecN) : Prop :=
  r.cf = 0 ∧ (opxOk = true ∨ opx r = false) ∧ (levelOk = true ∨ levelOf r = 0)

/-- LEVEL is a level of the layout of the match's plane (09 R193). -/
abbrev LevelOk (s : State) (r : RecN) : Prop := levelOf r < (layoutOf s s.cur.p s.cur.plane).length

/-- Class 3 (10 R222): CF 0; OPX and RND 0 unless the record has them, RND at most 5. -/
abbrev LaneFields (opxOk rndOk : Bool) (r : RecN) : Prop :=
  r.cf = 0 ∧ (opxOk = true ∨ opx r = false) ∧ rnd3 r ≤ (if rndOk then 5 else 0)

/-! ## Values that a move sends -/

/-- The value that a move makes of operand `t` under tag `tag`: TYPE, EOR and SNAP of the operand, and its lanes; a lane that a lane
predicate masks holds port a's lane (02 R51, 09 R193). -/
def moved (k : Ctl) (c : Cur) (tag : Word64) (t : Token) : Val :=
  { tag := tag, ty := t.ty, lanes := maskLanes (lanePred k c) (portTok c 0).lanes t.lanes, eor := t.eor, snap := t.snap }

/-! ## Elements as bit vectors -/

/-- Element `i` of port `k` of the match as a bit vector of the type's width. -/
def el (r : RecN) (c : Cur) (k i : Nat) : BitVec (elemBits r.fmt) := BitVec.ofNat _ (elem r.fmt (lanesP r c k) i)

/-- The value of a bit vector under the signedness of FMT. -/
def valOf (f : BitVec 4) (x : BitVec n) : Int := if isSigned f then x.toInt else (x.toNat : Int)

/-- An integer clamped to the range of FMT, as a bit vector (08 R181 sat). -/
def clamp (f : BitVec 4) (x : Int) : BitVec (elemBits f) :=
  let n := elemBits f
  let lo : Int := if isSigned f then -(2 ^ (n - 1)) else 0
  let hi : Int := if isSigned f then 2 ^ (n - 1) - 1 else 2 ^ n - 1
  BitVec.ofInt n (if x < lo then lo else if hi < x then hi else x)

end Sys2Proof.Safety
end

