-- ==== Sys2Proof/Certificates/Slice0/Obligations.lean ====
section
/-!
DEFINITION. What this model claims of the part. Each claim of `Sys2Proof.Claims` formalises rules of the spec, cited by file and number
in its docstring; an obligation is one claim or the conjunction of related ones.
-/
namespace Sys2Proof.Claims
open Sys2Proof.Machine Sys2Proof.Safety

/-! ## Records as words -/

/-- 08 R161 to R176: the word of a well-formed record decodes to that record, whatever its fields hold; a word that decodes is the word of
what it decodes to, which is well formed. -/
def DecodingInvertsEncoding : Prop :=
  (∀ (i : Instr) (w : Rec96), i.wf = true → encode i = some w → decode w = .ok i) ∧
  (∀ (i : Instr) (w : Rec96), decode w = .ok i → encode i = some w ∧ i.wf = true)

/-- 00 R2; 08 R161: a record is twelve bytes, bits [7:0] in the byte at the lowest address: the twelve bytes of a record's word give the
record back. -/
def RecordsAreTwelveBytes : Prop :=
  ∀ (i : Instr) (w : Rec96), i.wf = true → encode i = some w →
    decode (recOfBytes (leBytes 12 w.toNat)) = .ok i ∧ decodeTableWord 96 w.toNat = some i

/-- 08 R176, R179: a reserved opcode is no instruction, its port set is empty (R165), and a block header is no record that fires (R172). -/
def ReservedOpcodesAreRefused : Prop :=
  (∀ w : Rec96, Machine.opOf w = 0xFF → decode w = .error .blockHeader) ∧
  (∀ w : Rec96,
    let op := Machine.opOf w
    op = 0x1F ∨ (0x36 ≤ op ∧ op ≤ 0x3F) ∨ (0x56 ≤ op ∧ op ≤ 0x5F) ∨ (0x72 ≤ op ∧ op ≤ 0x7F) ∨ (0x95 ≤ op ∧ op ≤ 0x9F) ∨
      (0xAF ≤ op ∧ op ≤ 0xBF) ∨ (0xD0 ≤ op ∧ op ≤ 0xDF) ∨ (0xF8 ≤ op ∧ op ≤ 0xFE) →
    decode w = .error (.reservedOp op) ∧ portsOf w = [])

/-- 08 R168; 09 R188, R189; 11; 12: worked records of the spec's examples decode to what the examples say of them. -/
def WorkedWordsDecode : Prop :=
  decode 0x0102_2400_FF00_4000_0000_0007 = .ok (.iadd
    { hi := 0, fmt := 2, d0 := { site := 0x24, node := 0, port := 0 }, d1 := { site := 255, node := 0, port := 0 }
      ctl := { lituse := 1, pred := false, emit0 := 0, emit1 := 0, nullpass := false }, cf := 0, lit := 7 }) ∧
  decode 0x1921_2409_FF00_4000_0000_0000 = .ok (.icmp
    { hi := 2, fmt := 1, d0 := { site := 0x24, node := 1, port := 1 }, d1 := { site := 255, node := 0, port := 0 }
      ctl := { lituse := 1, pred := false, emit0 := 0, emit1 := 0, nullpass := false }, cf := 0, lit := 0 }) ∧
  decode 0x400A_2410_3301_6100_3FC0_0000 = .ok (.fadd
    { hi := 0, fmt := 10, d0 := { site := 0x24, node := 2, port := 0 }, d1 := { site := 0x33, node := 0, port := 1 }
      ctl := { lituse := 1, pred := true, emit0 := 0, emit1 := 0, nullpass := true }, cf := 0, lit := 0x3FC00000 }) ∧
  decode 0x8058_2420_F100_0040_0000_FE03 = .ok (.ld
    { space := 1, ord := 1, fmt := 8, d0 := { site := 0x24, node := 4, port := 0 }, osite := 0xF1, d1lo := 0
      ctl := { lituse := 0, pred := false, emit0 := 0, emit1 := 0, nullpass := false }, scope := 2, lsid := 0
      prev := 0, seq := 0, next := 0xFE, off := 3 }) ∧
  decode 0xA00A_FE18_FF00_0004_002C_0001 = .ok (.xfer
    { ctag := 2, hold := true, fill := false, d0 := { site := 254, node := 3, port := 0 }
      d1 := { site := 255, node := 0, port := 0 }
      ctl := { lituse := 0, pred := false, emit0 := 0, emit1 := 0, nullpass := false }, pgn := 1, rsv := 0, mark := 44, len := 1 }) ∧
  decode 0xC301_FE10_2500_0000_00D5_F5FC = .ok (.sweep
    { sub := 1, d0 := { site := 254, node := 2, port := 0 }, d1 := { site := 0x25, node := 0, port := 0 }
      ctl := { lituse := 0, pred := false, emit0 := 0, emit1 := 0, nullpass := false }, cf := 0, obj := 0x00D5F5FC })

/-- 08 R165: the three steps that fix a record's port set: the listed ports, less the port that the literal supplies, with port c under PRED;
the set is a function of the record alone, and that of a reserved OP is empty. -/
def PortSetsHaveThreeSteps : Prop :=
  (∀ (base : List Nat) (k : Ctl) (port : Nat), port ∈ portSet base k ↔
    (port ∈ base ∧ ¬ (k.lituse = 1 ∧ port = 1) ∧ ¬ (k.lituse = 2 ∧ port = 2)) ∨ (k.pred = true ∧ port = 2)) ∧
  (∀ (w : Rec96), reservedOp w = false → ∃ base, portsOf w = portSet base (Ctl.ofBits w)) ∧
  (∀ (w : Rec96), reservedOp w = true → portsOf w = [])

/-! ## Steps -/

/-- 02 R45; 08 R179; logs 8 and 36: a step takes the next move of the cycle, and lets the cycle pass when none is left. A site that issues runs
the instruction that its record decodes to, on the match that is issued; a record that does not decode faults. An event
of the table runs with what it selects, and is passed over when it cannot take place. The other moves of a cycle are the tests of a panel
(11 R253), the serving of the queue points (14 R303), of the colour and barrier points (16 R331, 17 R344) and of pins (18 R371), and the passing of
a sector to the home die's L2 (05 R105). -/
def StepsRunTheNextMove : Prop :=
  ∀ (s : State),
    (s.sched = [] → step s = .next (tick s)) ∧
    (∀ i sel rest, s.sched = .event i sel :: rest → encode i = none → eventAllowed s i = true →
      (exec i { s with sched := rest, sel := sel } = .refused .notEnabled → step s = .next { s with sched := rest }) ∧
      (exec i { s with sched := rest, sel := sel } ≠ .refused .notEnabled →
        step s = exec i { s with sched := rest, sel := sel })) ∧
    (∀ p site rest, s.sched = .issue p site :: rest →
      (pickIssue { s with sched := rest } p site = none → step s = .next { s with sched := rest }) ∧
      (∀ s1 m, pickIssue { s with sched := rest } p site = some (s1, m) → m.again ≠ 2 →
        (m.again = 0 → recStruck s1 p site m.plane m.node = false) →
        let w := if m.again = 1 then m.word else recAt s1 p site m.plane m.node
        let s2 := beginIssue s1 p site m
        (∀ i, decode w = .ok i → step s = exec i s2 ∧
          s2.cur = { p := p, site := site, plane := m.plane, node := m.node, tag := m.tag, ops := m.ops, scales := m.scales
                     again := m.again, late := m.late, word := w }) ∧
        (∀ e, decode w = .error e → step s = .next (faultCur s2 s2.cur cILLEGAL 0)))) ∧
    (∀ rest, let s0 := { s with sched := rest }
      (∀ p, s.sched = .tests p :: rest → step s = .next (panelTests s0 p)) ∧
      (s.sched = .queues :: rest → step s = .next (queuePoints s0)) ∧
      (s.sched = .points :: rest → step s = .next (pointsGo s0)) ∧
      (s.sched = .pins :: rest → step s = .next (pinsGo s0)) ∧
      (∀ die hf, s.sched = .pass die hf :: rest → step s = .next (passOn s0 die hf)))

/-- Log 36: a record that is placed to run from reset is the first that the next step runs. -/
def PlacedRecordsRunFirst : Prop :=
  ∀ (w : Rec96) (i : Instr), decode w = .ok i →
    ∃ t : State, step (State.reset.withFetchWord 96 w.toNat) = exec i t ∧ t.cur.word = w

/-- 26 R408, R410; 19 R376, R416; 13 R283; 14 R302; 15 R318; 17 R345: right after reset no panel has started, every panel is in plain
service with every plane FREE and every well at MODE 0, the die links and the host port train with INC 1 and the other links are
DOWN, OWNDEV is 0xFFF, and every context, barrier, queue and colour is free. -/
def ResetIsAsTheSpecSays : Prop :=
  let s := State.reset
  s.cycle = 0 ∧ s.owndev = 0xFFF ∧ s.mgmt.released = true ∧ s.mgmt.fwPass = true ∧
  (∀ p, (panelAt s p).started = false ∧ (panelAt s p).tagged = false ∧ (panelAt s p).inj = none ∧
    (boxAt s p).entries = [] ∧ ∀ k, (planeOf s p k).state = 0 ∧ wellMode (wellAt s p k) = 0) ∧
  (∀ l, (linkAt s l).state = (if l ∈ [0, 1, 2, 27] then 1 else 0) ∧ (linkAt s l).inc = (if l ∈ [0, 1, 2, 27] then 1 else 0)) ∧
  (∀ c, (ctxAt s c).state = 0) ∧ (∀ d i, (barrierAt s d i).state = 0) ∧ (∀ q, (queueAt s q).state = 0) ∧
  (∀ part c, (colourAt s part c).gstate = 0)

/-- Log 3: the byte memories of the reset state are in the canonical form. -/
def ResetMemoryIsCanonical : Prop :=
  memWf State.reset.mem = true ∧ memWf State.reset.wmem = true

/-- Log 3: every step keeps both byte memories in the canonical form: addresses strictly rising, no byte listed that equals what an unlisted
byte reads as. -/
def MemoriesStayCanonical : Prop :=
  ∀ (s t : State), memWf s.mem = true → memWf s.wmem = true → step s = .next t →
    memWf t.mem = true ∧ memWf t.wmem = true

/-! ## Firing -/

/-- 02 R50, R51; 08 R166, R179: with a null among the operands a class 0 record sends a null to each destination whose code takes one when NULLPASS is 1
and nothing when it is 0; under a false whole-token predicate it sends the nulls; a field that is not admitted consumes the match
with ILLEGAL_OP; without its operands the record does not fire. Stated for IADD, ICMP, FADD and LSUM. -/
def NullsAndIllegalFields : Prop :=
  ∀ (r : RecN) (s : State),
    let c := s.cur
    let out := fun (i : Instr) (base : List Nat) (ok : Prop) =>
      (hasPorts c (portSet base r.ctl) = false → exec i s = .refused .noMatch) ∧
      (hasPorts c (portSet base r.ctl) = true → ¬ ok → exec i s = .next (faultCur s c cILLEGAL 0)) ∧
      (hasPorts c (portSet base r.ctl) = true → ok → badCtl base r.ctl = false → anyBlock c (portSet base r.ctl) = false →
        (anyNull c (portSet base r.ctl) = true → r.ctl.nullpass = false → exec i s = .next s) ∧
        (anyNull c (portSet base r.ctl) = true → r.ctl.nullpass = true → exec i s = .next (emitNulls s c (formN r) r.fmt)) ∧
        (anyNull c (portSet base r.ctl) = false → predFalse r.ctl c = true → exec i s = .next (emitNulls s c (formN r) r.fmt)))
    out (.iadd r) [0, 1] (IntFields true r) ∧
    out (.icmp r) [0, 1] (r.fmt.toNat < 8 ∧ r.hi.toNat < 6 ∧ r.cf = 0) ∧
    out (.fadd r) [0, 1] (FltFields 6 r) ∧
    out (.lsum r) [0] (r.fmt.toNat ≤ 10 ∧ LaneFields (decide (r.fmt.toNat < 8)) false r)

/-- 02 R31, R50; 08 R166, R167: what a result sends, D0 before D1. A value goes to a destination whose code is 0, whose code is 1 when cond is true, or whose
code is 2 when cond is false; a null to one whose code is 0 or 3. The token carries the tag, TYPE and lanes of the value, the plane of the
record, the POISON of its operands, and nothing of site 255 is sent. -/
def ResultsAreSentUnderEmit : Prop :=
  ∀ (s : State) (f : Form) (ty : BitVec 4) (v : Val) (cond : Bool),
    let c := s.cur
    let ok := fun (d : Dest) => d.site.toNat < 246 ∨ d.site = 254
    let goes := fun (code : BitVec 2) => if v.null then code = 0 ∨ code = 3 else code = 0 ∨ (code = 1 ∧ cond = true) ∨ (code = 2 ∧ cond = false)
    let flight := fun (d : Dest) (code : BitVec 2) =>
      if goes code ∧ d.site ≠ 255 then
        [({ p := c.p, src := c.site, queued := true
            tok := { tag := v.tag, site := if d.site = 254 then BitVec.ofNat 8 c.site else d.site, node := d.node, port := d.port
                     plane := BitVec.ofNat 2 c.plane, ty := v.ty, null := v.null, poison := curPoison c && !v.null, eor := v.eor
                     snap := v.snap, lanes := v.lanes } } : Flight)]
      else []
    c.site < 240 → (ok f.d0 ∨ f.d0.site = 255) → (ok f.d1 ∨ f.d1.site = 255) →
    (∀ g, grantCopy s c.p c.site (partOf s (matchCtx s c.p c.plane c.tag)) (colourOf v.tag) = some g → v.lanes.length ≤ g) →
    emitRes s c f ty { v0 := some v, v1 := some v, cond := cond } =
      { s with transit := s.transit ++ flight f.d0 f.ctl.emit0 ++ flight f.d1 f.ctl.emit1 }

/-- 16 R332: a result or null wider than the grant of its colour, as the copy at its site shows it, is withheld with ILLEGAL_OP; a copy shows
the grant itself once 64 cycles have passed since every change of it. -/
def GrantsBoundResults : Prop :=
  (∀ (s : State) (f : Form) (ty : BitVec 4) (v : Val) (g : Nat),
    let c := s.cur
    f.ctl.emit0 = 0 →
    grantCopy s c.p c.site (partOf s (matchCtx s c.p c.plane c.tag)) (colourOf v.tag) = some g → g < v.lanes.length →
    emitRes s c f ty { v0 := some v, v1 := some v } = faultCur s c cILLEGAL 0) ∧
  (∀ (s : State) (p site part c : Nat), (∀ x ∈ (colourAt s part c).ghist, x.1 + 64 ≤ s.cycle) →
    grantCopy s p site part c = grant? s part c)

/-- 02 R33; 08 R167: a token for site 255 is discarded; one for a reserved site is discarded with ILLEGAL_OP; any other enters the output queue of
its source. -/
def TokensAreQueuedOrDiscarded : Prop :=
  ∀ (s : State) (p src : Nat) (t : Token),
    (t.site = 255 → sendTok s p src t = s) ∧
    (246 ≤ t.site.toNat → t.site.toNat ≤ 253 → ∃ e : MbEntry, sendTok s p src t = post s e ∧
      e.cause = cILLEGAL ∧ e.tag = t.tag ∧ e.panel = p ∧ e.site = t.site.toNat ∧ e.node = t.node.toNat ∧ e.port = t.port.toNat) ∧
    (t.site.toNat < 246 ∨ t.site = 254 → sendTok s p src t =
      { s with transit := s.transit ++ [{ p := p, src := src, queued := true, tok := t }] })

/-- 20 R393: a mailbox holds 64 entries. An entry is placed after those of earlier cycles; those of one cycle stand in ascending order of site, the
panel's own before those from outside. One that finds 64 there is dropped and counted in LOST, which stays at its largest value; posting
changes nothing else. -/
def MailboxesHoldSixtyFour : Prop :=
  ∀ (s : State) (p : Nat) (e : MbEntry),
    let es := (boxAt s p).entries
    let e' := { e with born := s.cycle, outer := e.outer || e.panel != p }
    let i := mbPlace s p es e'
    (∃ b, postAt s p e = { s with boxes := b }) ∧
    (es.length < 64 → (boxAt (postAt s p e) p).entries = es.take i ++ e' :: es.drop i ∧
      (boxAt (postAt s p e) p).lost = (boxAt s p).lost) ∧
    (es.length = 64 → (boxAt (postAt s p e) p).entries = (es.take i ++ e' :: es.drop i).take 64 ∧
      (boxAt (postAt s p e) p).lost = min ((boxAt s p).lost + 1) 0xFFFFFFFF) ∧
    ((∀ x ∈ es, x.born < s.cycle) → i = es.length) ∧
    ((∀ x ∈ es, x.born < s.cycle) → es.length = 64 → (boxAt (postAt s p e) p).entries = es) ∧
    (i < es.length → ∀ k, i ≤ k → ∀ x, es[k]? = some x → s.cycle ≤ x.born ∧ mbBefore e' x = true) ∧
    (∀ q, q ≠ p → boxAt (postAt s p e) q = boxAt s q)

/-- 02 R53; 20 R391: a record's fault at a grid nib is a mailbox entry of its panel with the cause, the place, the tag and the context; in a
block the first fault becomes the exception of the block, and later ones change nothing. -/
def FaultsAreReported : Prop :=
  ∀ (s : State) (cause addr : Nat),
    let c := s.cur
    (c.site ≠ 240 → faultCur s c cause addr = post s
      { tag := c.tag, addr := addr, cause := cause, site := c.site, node := c.node, plane := c.plane, panel := c.p
        ctx := matchCtx s c.p c.plane c.tag, info := 0 }) ∧
    (∀ b, InBlock s b →
      (b.exc = none → faultCur s c cause addr = setScribe s c.p { scribeAt s c.p with
        cur := some { b with exc := some cause, excInfo := if cause = cILLEGAL then c.node + 1 else 0 } }) ∧
      (∀ k, b.exc = some k → faultCur s c cause addr = s))

/-! ## Frames -/

/-- The frame of classes 0 to 3: such a record changes tokens on their way, its own nib, the FPFLAGS of groups and colours, its panel's mailbox, the block
of its scribe, the counter of free values, and with PACKC what it asks of the colour point, there or on its way; every other part of the state stays, and within these
the other nibs, the other mailboxes, and of the scribe all but its block. -/
def FiringFrame : Prop :=
  ∀ (i : Instr) (w : Rec96) (s t : State), encode i = some w → Machine.opOf w < 0x80 → exec i s = .next t →
    t = { s with transit := t.transit, nibs := t.nibs, groups := t.groups, loose := t.loose, boxes := t.boxes, scribes := t.scribes
                 fresh := t.fresh, points := t.points, reqs := t.reqs } ∧
    (Machine.opOf w ≠ 0x6E → t.points = s.points ∧ t.reqs = s.reqs) ∧
    (∀ p site, siteKey p site ≠ siteKey s.cur.p s.cur.site → nibAt t p site = nibAt s p site) ∧
    (∀ p, p ≠ s.cur.p → boxAt t p = boxAt s p) ∧
    (t.scribes = s.scribes ∨ ∃ b, t.scribes = tput s.scribes s.cur.p { scribeAt s s.cur.p with cur := some b }) ∧
    (∃ l, t.transit = s.transit ++ l)

/-- The frame of the memory records: a match of one changes the order buffer of its ordering site, its panel's mailbox, the block of its scribe and the
counter of identifiers; no byte of any memory changes before the access is performed. -/
def MemoryRecordFrame : Prop :=
  ∀ (i : Instr) (w : Rec96) (s t : State), encode i = some w → 0x80 ≤ Machine.opOf w → Machine.opOf w < 0xA0 → exec i s = .next t →
    t = { s with obufs := t.obufs, boxes := t.boxes, scribes := t.scribes, fresh := t.fresh } ∧
    (∀ p site, site < 256 → ¬ (p = s.cur.p ∧ site = (RecM.ofBits w).osite.toNat) → obufAt t p site = obufAt s p site) ∧
    (∀ p, p ≠ s.cur.p → boxAt t p = boxAt s p) ∧
    (t.scribes = s.scribes ∨ ∃ b, t.scribes = tput s.scribes s.cur.p { scribeAt s s.cur.p with cur := some b })

/-! ## Whole rules -/

/-- 14 R307: event k of a record is satisfied when CPLSEQ of its queue less its ESEQ, modulo 2^32, is below 2^31, and when its ESEQ is 0; any queue
may be named, the record's own too, and a head whose events are not all satisfied is not eligible. -/
def EventsAreSatisfied : Prop :=
  ∀ (s : State) (ws : List Word64) (k : Nat),
    (eventMet s ws k = true ↔
      recEseq ws k = 0 ∨ (BitVec.ofNat 32 (queueAt s (recEq ws k)).cplseq - BitVec.ofNat 32 (recEseq ws k)).toNat < 2 ^ 31) ∧
    (∀ q seq, k < recNev ws → eventMet s ws k = false → eligible s q seq ws = false)

/-- The value of ± m · 2^e. -/
def exVal (x : Ex) : ℚ := (if x.neg then -1 else 1) * x.m * (2 : ℚ) ^ x.e

/-- 03 R61, R63: integer `k` is what rounding code `mode` gives for `v`; `z` is the upper half of the stochastic bits. -/
def RoundsTo (mode z : Nat) (v : ℚ) (k : Int) : Prop :=
  match mode with
  | 0 => |(k : ℚ) - v| < 1 / 2 ∨ (|(k : ℚ) - v| = 1 / 2 ∧ k % 2 = 0)
  | 1 => k = if v < 0 then ⌈v⌉ else ⌊v⌋
  | 2 => k = ⌊v⌋
  | 3 => k = ⌈v⌉
  | 4 => |(k : ℚ) - v| < 1 / 2 ∨ (|(k : ℚ) - v| = 1 / 2 ∧ |v| < |(k : ℚ)|)
  | _ =>
    let a : Int := if v < 0 then ⌈v⌉ else ⌊v⌋
    k = if (z : Int) < ⌊(|v| - |(a : ℚ)|) * 2 ^ 32⌋ then (if v < 0 then a - 1 else a + 1) else a

/-- 03 R72: a float converts to an integer type by the record's mode; a result outside the range saturates and sets NV; a NaN gives 0 and sets NV; a
result inside sets NX exactly when it differs from the input. -/
def FloatsConvertToIntegers : Prop :=
  ∀ (ty : BitVec 4) (mode z : Nat), ty.toNat < 8 → mode < 6 →
    let n := elemBits ty
    let lo : Int := if isSigned ty then -(2 ^ (n - 1)) else 0
    let hi : Int := if isSigned ty then 2 ^ (n - 1) - 1 else 2 ^ n - 1
    (∀ b, ftoiV ty mode z (.nan b) = (0, fNV)) ∧
    ftoiV ty mode z (.inf true) = ((BitVec.ofInt n lo).toNat, fNV) ∧
    ftoiV ty mode z (.inf false) = ((BitVec.ofInt n hi).toNat, fNV) ∧
    (∀ (x : Ex), x.sticky = false → ∃ k : Int, RoundsTo mode z (exVal x) k ∧
      (lo ≤ k → k ≤ hi → ftoiV ty mode z (.fin x) = ((BitVec.ofInt n k).toNat, if (k : ℚ) = exVal x then 0 else fNX)) ∧
      (hi < k → ftoiV ty mode z (.fin x) = ((BitVec.ofInt n hi).toNat, fNV)) ∧
      (k < lo → ftoiV ty mode z (.fin x) = ((BitVec.ofInt n lo).toNat, fNV)))

/-- 09 R205: RUNEND with OPX 0 sends a with EOR 1; with OPX 1 it computes cond := a.EOR and sends a with EOR 0 under EMIT0 and EMIT1. -/
def RunendMarksOrTests : Prop :=
  ∀ (r : RecN) (s : State), r.fmt = 0 → MoveFields true false r → Moves s (formN r) [0] →
    let c := s.cur
    let a := portTok c 0
    let v := moved r.ctl c c.tag a
    (opx r = false → exec (.runend r) s = .next (emitRes s c (formN r) a.ty
      { v0 := some { v with eor := true }, v1 := some { v with eor := true } })) ∧
    (opx r = true → exec (.runend r) s = .next (emitRes s c (formN r) a.ty
      { v0 := some { v with eor := false }, v1 := some { v with eor := false }, cond := a.eor }))

/-! ## Class 0: integer and bit operations -/

/-- 09 R183, R184, R190: with SAT 0 the add, subtract, multiply, multiply-add, absolute value and negation
wrap: lane by lane they are the arithmetic of bit vectors of the type's width. -/
def IntegerArithmeticWraps : Prop :=
  ∀ (r : RecN) (s : State), IntFields true r → r.hi = 0 →
    (Takes s (formN r) r.fmt [0, 1] false →
      exec (.iadd r) s = .next (emitRes s s.cur (formN r) r.fmt
        (intRes r s.cur (fun i => (el r s.cur 0 i + el r s.cur 1 i).toNat))) ∧
      exec (.isub r) s = .next (emitRes s s.cur (formN r) r.fmt
        (intRes r s.cur (fun i => (el r s.cur 0 i - el r s.cur 1 i).toNat))) ∧
      exec (.imul r) s = .next (emitRes s s.cur (formN r) r.fmt
        (intRes r s.cur (fun i => (el r s.cur 0 i * el r s.cur 1 i).toNat)))) ∧
    (Takes s (formN r) r.fmt [0, 1, 2] false →
      exec (.imad r) s = .next (emitRes s s.cur (formN r) r.fmt
        (intRes r s.cur (fun i => (el r s.cur 0 i * el r s.cur 1 i + el r s.cur 2 i).toNat)))) ∧
    (Takes s (formN r) r.fmt [0] false →
      exec (.ineg r) s = .next (emitRes s s.cur (formN r) r.fmt
        (intRes r s.cur (fun i => (-(el r s.cur 0 i)).toNat))) ∧
      exec (.iabs r) s = .next (emitRes s s.cur (formN r) r.fmt
        (intRes r s.cur (fun i => (if isSigned r.fmt then (el r s.cur 0 i).abs else el r s.cur 0 i).toNat))))

/-- 09 R183, R184: with SAT 1 the same six clamp the exact integer result to the range of FMT. -/
def IntegerArithmeticSaturates : Prop :=
  ∀ (r : RecN) (s : State), IntFields true r → r.hi = 1 →
    let v := fun k i => valOf r.fmt (el r s.cur k i)
    (Takes s (formN r) r.fmt [0, 1] false →
      exec (.iadd r) s = .next (emitRes s s.cur (formN r) r.fmt
        (intRes r s.cur (fun i => (clamp r.fmt (v 0 i + v 1 i)).toNat))) ∧
      exec (.isub r) s = .next (emitRes s s.cur (formN r) r.fmt
        (intRes r s.cur (fun i => (clamp r.fmt (v 0 i - v 1 i)).toNat))) ∧
      exec (.imul r) s = .next (emitRes s s.cur (formN r) r.fmt
        (intRes r s.cur (fun i => (clamp r.fmt (v 0 i * v 1 i)).toNat)))) ∧
    (Takes s (formN r) r.fmt [0, 1, 2] false →
      exec (.imad r) s = .next (emitRes s s.cur (formN r) r.fmt
        (intRes r s.cur (fun i => (clamp r.fmt (v 0 i * v 1 i + v 2 i)).toNat)))) ∧
    (Takes s (formN r) r.fmt [0] false →
      exec (.ineg r) s = .next (emitRes s s.cur (formN r) r.fmt
        (intRes r s.cur (fun i => (clamp r.fmt (-(v 0 i))).toNat))) ∧
      exec (.iabs r) s = .next (emitRes s s.cur (formN r) r.fmt
        (intRes r s.cur (fun i => (clamp r.fmt (if v 0 i < 0 then -(v 0 i) else v 0 i)).toNat))))

/-- 09 R184, R188: the high half of a product, and the choice of the smaller, the larger or the middle value by
the signedness of FMT. -/
def IntegerHighAndOrder : Prop :=
  ∀ (r : RecN) (s : State), IntFields false r →
    let v := fun k i => valOf r.fmt (el r s.cur k i)
    (Takes s (formN r) r.fmt [0, 1] false →
      exec (.imulh r) s = .next (emitRes s s.cur (formN r) r.fmt
        (intRes r s.cur (fun i => (BitVec.ofInt (elemBits r.fmt) ((v 0 i * v 1 i) >>> elemBits r.fmt)).toNat))) ∧
      exec (.imin r) s = .next (emitRes s s.cur (formN r) r.fmt
        (intRes r s.cur (fun i => (if v 0 i ≤ v 1 i then el r s.cur 0 i else el r s.cur 1 i).toNat))) ∧
      exec (.imax r) s = .next (emitRes s s.cur (formN r) r.fmt
        (intRes r s.cur (fun i => (if v 0 i ≤ v 1 i then el r s.cur 1 i else el r s.cur 0 i).toNat)))) ∧
    (Takes s (formN r) r.fmt [0, 1, 2] false →
      exec (.iclamp r) s = .next (emitRes s s.cur (formN r) r.fmt
        (intRes r s.cur (fun i =>
          let m := if v 0 i ≤ v 1 i then el r s.cur 1 i else el r s.cur 0 i
          (if valOf r.fmt m ≤ v 2 i then m else el r s.cur 2 i).toNat))))

/-- 09 R186: the bitwise operations, the shifts and the rotate are those of bit vectors; a shift by the width
or more gives 0, an arithmetic one copies of the sign. SHL is stated with SAT 0. -/
def IntegerBitwiseAndShifts : Prop :=
  ∀ (r : RecN) (s : State), IntFields false r → Takes s (formN r) r.fmt [0, 1] false →
    let a := el r s.cur 0
    let b := el r s.cur 1
    exec (.and r) s = .next (emitRes s s.cur (formN r) r.fmt (intRes r s.cur (fun i => (a i &&& b i).toNat))) ∧
    exec (.or r) s = .next (emitRes s s.cur (formN r) r.fmt (intRes r s.cur (fun i => (a i ||| b i).toNat))) ∧
    exec (.xor r) s = .next (emitRes s s.cur (formN r) r.fmt (intRes r s.cur (fun i => (a i ^^^ b i).toNat))) ∧
    exec (.andn r) s = .next (emitRes s s.cur (formN r) r.fmt (intRes r s.cur (fun i => (a i &&& ~~~(b i)).toNat))) ∧
    exec (.shl r) s = .next (emitRes s s.cur (formN r) r.fmt
      (intRes r s.cur (fun i => (a i <<< (b i).toNat).toNat))) ∧
    exec (.shr r) s = .next (emitRes s s.cur (formN r) r.fmt
      (intRes r s.cur (fun i => (a i >>> (b i).toNat).toNat))) ∧
    exec (.sra r) s = .next (emitRes s s.cur (formN r) r.fmt
      (intRes r s.cur (fun i => ((a i).sshiftRight (b i).toNat).toNat))) ∧
    exec (.rot r) s = .next (emitRes s s.cur (formN r) r.fmt
      (intRes r s.cur (fun i => ((a i).rotateLeft (b i).toNat).toNat)))

/-- 09 R186: SHL with SAT 1 clamps a × 2^k, k above the width counting as the width. -/
def ShiftLeftSaturates : Prop :=
  ∀ (r : RecN) (s : State), IntFields true r → r.hi = 1 → Takes s (formN r) r.fmt [0, 1] false →
    exec (.shl r) s = .next (emitRes s s.cur (formN r) r.fmt (intRes r s.cur (fun i =>
      (clamp r.fmt (valOf r.fmt (el r s.cur 0 i) * 2 ^ min (elemBits r.fmt) (el r s.cur 1 i).toNat)).toNat)))

/-- 09 R186: leading zeros, one bits and the reversal of the bits of each element. -/
def IntegerBitCounts : Prop :=
  ∀ (r : RecN) (s : State), IntFields false r → Takes s (formN r) r.fmt [0] false →
    let a := el r s.cur 0
    exec (.clz r) s = .next (emitRes s s.cur (formN r) r.fmt (intRes r s.cur (fun i => (a i).clz.toNat))) ∧
    exec (.popc r) s = .next (emitRes s s.cur (formN r) r.fmt (intRes r s.cur (fun i => (a i).cpop.toNat))) ∧
    exec (.brev r) s = .next (emitRes s s.cur (formN r) r.fmt (intRes r s.cur (fun i => (a i).reverse.toNat)))

/-- 09 R185: quotient and remainder towards zero, a divisor of 0 giving all ones and the dividend, delivered
n / 2 + 2 cycles after issue. -/
def IntegerDivides : Prop :=
  ∀ (r : RecN) (s : State), IntFields false r → Takes s (formN r) r.fmt [0, 1] false →
    let a := el r s.cur 0
    let b := el r s.cur 1
    exec (.idiv r) s = .next (delayRes (fun _ => elemBits r.fmt / 2 + 2) s s.cur (formN r) r.fmt
      (intRes r s.cur (fun i =>
        (if b i = 0 then BitVec.allOnes _ else if isSigned r.fmt then (a i).sdiv (b i) else a i / b i).toNat))) ∧
    exec (.irem r) s = .next (delayRes (fun _ => elemBits r.fmt / 2 + 2) s s.cur (formN r) r.fmt
      (intRes r s.cur (fun i =>
        (if b i = 0 then a i else if isSigned r.fmt then (a i).srem (b i) else a i % b i).toNat)))

/-- 09 R187: a bit field of length CF, extracted at the position that port b holds (sign-extended for a signed
FMT) or inserted from b at the position that port c holds; positions at or beyond the width read 0 and are not written. -/
def BitFields : Prop :=
  ∀ (r : RecN) (s : State), r.fmt.toNat < 8 → r.hi = 0 → 1 ≤ r.cf.toNat → r.cf.toNat ≤ elemBits r.fmt →
    (Takes s (formN r) r.fmt [0, 1] false →
      exec (.bfx r) s = .next (emitRes s s.cur (formN r) r.fmt (intRes r s.cur (fun i =>
        let x := (el r s.cur 0 i >>> (el r s.cur 1 i).toNat).setWidth r.cf.toNat
        (if isSigned r.fmt then x.signExtend (elemBits r.fmt) else x.setWidth (elemBits r.fmt)).toNat)))) ∧
    (Takes s (formN r) r.fmt [0, 1, 2] false →
      exec (.bfi r) s = .next (emitRes s s.cur (formN r) r.fmt (intRes r s.cur (fun i =>
        let m := (BitVec.allOnes r.cf.toNat).setWidth (elemBits r.fmt) <<< (el r s.cur 2 i).toNat
        ((el r s.cur 0 i &&& ~~~m) ||| ((el r s.cur 1 i <<< (el r s.cur 2 i).toNat) &&& m)).toNat))))

/-- 08 R175, 09 R188: ICMP gives 1 where REL holds between the values of a and b and 0 elsewhere; cond is true when REL
holds in every lane that a lane predicate lets through. SEL takes a where c is nonzero, else b; a c of width 1 applies to every
lane. -/
def CompareAndSelect : Prop :=
  ∀ (r : RecN) (s : State),
    let v := fun k i => valOf r.fmt (el r s.cur k i)
    let holds : Nat → Prop := fun i =>
      (r.hi = 0 → v 0 i = v 1 i) ∧ (r.hi = 1 → v 0 i ≠ v 1 i) ∧ (r.hi = 2 → v 0 i < v 1 i) ∧
      (r.hi = 3 → v 0 i ≤ v 1 i) ∧ (r.hi = 4 → v 1 i < v 0 i) ∧ (r.hi = 5 → v 1 i ≤ v 0 i)
    (r.fmt.toNat < 8 → r.hi.toNat ≤ 5 → r.cf = 0 → Takes s (formN r) r.fmt [0, 1] false →
      ∃ one : Nat → Nat, (∀ i, (holds i → one i = 1) ∧ (¬ holds i → one i = 0)) ∧
        exec (.icmp r) s = .next (emitRes s s.cur (formN r) r.fmt
          { intRes r s.cur one with
            cond := (List.range (widthA s.cur / lanesPer r.fmt)).all (fun i =>
              !predAt (lanePred r.ctl s.cur) (i * lanesPer r.fmt) || one i == 1) })) ∧
    (IntFields false r → Takes s (formN r) r.fmt [0, 1, 2] false →
      exec (.sel r) s = .next (emitRes s s.cur (formN r) r.fmt (intRes r s.cur (fun i =>
        let c := portTok s.cur 2
        let test := if r.ctl.lituse = 2 then elem r.fmt (lanesP r s.cur 2) i
          else elem c.ty c.lanes (if c.lanes.length = 1 then 0 else i)
        if test = 0 then (el r s.cur 1 i).toNat else (el r s.cur 0 i).toNat))))

/-- 09 R189, R190, R191: ADDR adds a scaled index and a byte displacement to 64-bit bases and clears bits [63:56];
IADDW adds narrow elements into wide ones; ICVT converts whole elements between integer types and faults on another source. -/
def WideIntegers : Prop :=
  ∀ (r : RecN) (s : State),
    (r.fmt.toNat < 8 → r.hi = 0 → r.cf.toNat < 8 → r.ctl.lituse = 0 → Takes s (formN r) r.fmt [0, 1] false →
      exec (.addr r) s = .next (emitRes s s.cur (formN r) 7 (both
        { tag := s.cur.tag, ty := 7
          lanes := maskElems (lanePred r.ctl s.cur) 2 (portTok s.cur 0).lanes (lanesOf 7 (widthA s.cur) (fun j =>
            let base := BitVec.ofNat 64 (elem 7 (portTok s.cur 0).lanes j)
            let idx := BitVec.ofInt 64 (valOf r.fmt (el r s.cur 1 j))
            ((base + (idx <<< r.cf.toNat) + r.lit.signExtend 64).setWidth 56).toNat)) }))) ∧
    (IntFields true r → r.fmt ≠ 3 → r.fmt ≠ 7 → Takes s (formN r) r.fmt [0, 1] false →
      exec (.iaddw r) s = .next (emitRes s s.cur (formN r) (r.fmt + 1) (both
        { tag := s.cur.tag, ty := r.fmt + 1
          lanes := maskElems (lanePred r.ctl s.cur) (lanesPer (r.fmt + 1)) (portTok s.cur 0).lanes
            (lanesOf (r.fmt + 1) (widthA s.cur) (fun j =>
              let a := BitVec.ofNat (elemBits (r.fmt + 1)) (elem (r.fmt + 1) (portTok s.cur 0).lanes j)
              let x := valOf (r.fmt + 1) a + valOf r.fmt (el r s.cur 1 j)
              if r.hi = 1 then (clamp (r.fmt + 1) x).toNat else (BitVec.ofInt (elemBits (r.fmt + 1)) x).toNat)) }))) ∧
    (IntFields true r → Takes s (formN r) r.fmt [0] false →
      let t := portTok s.cur 0
      (8 ≤ t.ty.toNat → exec (.icvt r) s = .next (faultCur s s.cur cILLEGAL 0)) ∧
      (t.ty.toNat < 8 → exec (.icvt r) s = .next (emitRes s s.cur (formN r) r.fmt (both
        { tag := s.cur.tag, ty := r.fmt
          lanes :=
            let k := min (t.lanes.length / lanesPer t.ty) (32 / lanesPer r.fmt)
            maskElems (lanePred r.ctl s.cur) (lanesPer r.fmt) t.lanes (lanesOf r.fmt (k * lanesPer r.fmt) (fun i =>
              let x := valOf t.ty (BitVec.ofNat (elemBits t.ty) (elem t.ty t.lanes i))
              if r.hi = 1 then (clamp r.fmt x).toNat else (BitVec.ofInt (elemBits r.fmt) x).toNat)) }))))

/-! ## Class 1: moves, tags, windows and runs -/

/-- 09 R192; 08 R173, R183: a NOP whose FMT and MOD class 0 admits changes nothing; any other faults when it is taken in. -/
def NopChangesNothing : Prop :=
  ∀ (r : RecN) (s : State),
    (r.fmt.toNat < 8 → r.hi = 0 → exec (.nop r) s = .next s) ∧
    (8 ≤ r.fmt.toNat ∨ r.hi ≠ 0 → exec (.nop r) s = .next (faultCur s s.cur cILLEGAL 0))

/-- 09 R193 to R195, R205: COPY and GATE send a; JOIN sends a and b; VOID a null of a's TYPE, width, EOR and SNAP; RUNEND a with
EOR set (OPX 0), or a with EOR cleared under cond := a.EOR (OPX 1). -/
def MovesPassTheirOperand : Prop :=
  ∀ (r : RecN) (s : State), r.fmt = 0 →
    let c := s.cur
    let a := portTok c 0
    let v := moved r.ctl c c.tag a
    (MoveFields false false r → Moves s (formN r) [0] →
      exec (.copy r) s = .next (emitRes s c (formN r) a.ty { v0 := some v, v1 := some v }) ∧
      (let n : Val := { tag := c.tag, ty := a.ty, lanes := List.replicate (max 1 a.lanes.length) 0, null := true, eor := a.eor, snap := a.snap }
       exec (.void r) s = .next (emitRes s c (formN r) a.ty { v0 := some n, v1 := some n }))) ∧
    (MoveFields true false r → Moves s (formN r) [0] →
      (opx r = false →
        exec (.runend r) s = .next (emitRes s c (formN r) a.ty
          { v0 := some { v with eor := true }, v1 := some { v with eor := true } })) ∧
      (opx r = true →
        exec (.runend r) s = .next (emitRes s c (formN r) a.ty
          { v0 := some { v with eor := false }, v1 := some { v with eor := false }, cond := a.eor }))) ∧
    (MoveFields false false r → Moves s (formN r) [0, 1] →
      exec (.gate r) s = .next (emitRes s c (formN r) a.ty { v0 := some v, v1 := some v }) ∧
      exec (.join r) s = .next (emitRes s c (formN r) a.ty
        { v0 := some v, v1 := some (moved r.ctl c c.tag (opTok r c 1)) }))

/-- 09 R194, R195: SINK consumes its match and leaves everything else as it is; CONST sends LIT as FMT in every lane at
a's width. -/
def SinkAndConst : Prop :=
  ∀ (r : RecN) (s : State), MoveFields false false r →
    (r.fmt = 0 → badCtl [0] r.ctl = false → hasPorts s.cur (portSet [0] r.ctl) = true → exec (.sink r) s = .next s) ∧
    (r.fmt.toNat ≤ 10 → r.ctl.lituse = 0 → Takes s (formN r) r.fmt [0] false →
      exec (.const r) s = .next (emitRes s s.cur (formN r) r.fmt (both
        { tag := s.cur.tag, ty := r.fmt
          lanes := maskLanes (lanePred r.ctl s.cur) (portTok s.cur 0).lanes
            (lanesOf r.fmt (widthA s.cur) (fun _ => litVal r.fmt r.lit)) })))

/-- 09 R196: STEER sends a under cond := (b[0] ≠ 0); with OPX 1 a destination whose code fails receives a null. A null on a
beside a value on b goes, under NULLPASS, where a value would go, to code 3, and with OPX 1 to every destination. -/
def SteerFollowsItsBoolean : Prop :=
  ∀ (r : RecN) (s : State), r.fmt = 0 → MoveFields true false r → badCtl [0, 1] r.ctl = false →
    hasPorts s.cur (portSet [0, 1] r.ctl) = true →
    let c := s.cur
    let a := portTok c 0
    let yes := laneN (lanesP r c 1) 0 != 0
    (anyNull c (portSet [0, 1] r.ctl) = false → predFalse r.ctl c = false →
      exec (.steer r) s = .next (emitRes s c (formN r) a.ty
        { v0 := some (moved r.ctl c c.tag a), v1 := some (moved r.ctl c c.tag a), cond := yes, voids := opx r })) ∧
    (a.null = true → anyNull c ((portSet [0, 1] r.ctl).filter (· != 0)) = false →
      (r.ctl.nullpass = false → exec (.steer r) s = .next s) ∧
      (r.ctl.nullpass = true →
        let go := fun (d : Dest) (code : BitVec 2) =>
          if code = 0 ∨ (code = 1 ∧ yes) ∨ (code = 2 ∧ ¬ yes) ∨ code = 3 ∨ opx r then
            [valSend d false { tag := c.tag, ty := a.ty, lanes := List.replicate (max 1 a.lanes.length) 0
                               null := true, eor := a.eor, snap := a.snap }]
          else []
        exec (.steer r) s = .next (sendAll s c (go r.d0 r.ctl.emit0 ++ go r.d1 r.ctl.emit1))))

/-- 09 R197: MERGE sends the token that c selects, a when c[0] ≠ 0 and b otherwise. With OPX 0 it waits for c and that port only,
and does not fire without them; with OPX 1 it waits for all three. -/
def MergeSelectsOnePort : Prop :=
  ∀ (r : RecN) (s : State), r.fmt = 0 → MoveFields true false r → badCtl [0, 1, 2] r.ctl = false →
    let c := s.cur
    let k := if laneN (lanesP r c 2) 0 ≠ 0 then 0 else 1
    let t := opTok r c k
    (∀ q ∈ portSet [0, 1, 2] r.ctl, opx r = true ∨ q = 2 ∨ q = k → (portTok? c q).isSome = true) →
    (opTok r c 2).null = false → t.null = false →
      exec (.merge r) s = .next (emitRes s c (formN r) t.ty
        (both { tag := c.tag, ty := t.ty, lanes := t.lanes, eor := t.eor, snap := t.snap }))

/-- 09 R198: ENTER zeroes field j and sends a window token of value L to d1 when L ≠ 0; WAVE adds 1 to field j; LEAVE zeroes
it. -/
def LevelsEnterWaveLeave : Prop :=
  ∀ (r : RecN) (s : State), r.fmt = 0 → MoveFields false true r → LevelOk s r → Moves s (formN r) [0] →
    let c := s.cur
    let a := portTok c 0
    let lay := layoutOf s c.p c.plane
    let j := levelOf r
    let zero := setfld lay c.tag j 0
    (r.ctl.lituse = 0 → r.lit.toNat ≤ 2 ^ (levelWidth lay j - 1) → r.lit.toNat < 65536 →
      exec (.enter r) s = .next (emitRes s c (formN r) a.ty
        { v0 := some (moved r.ctl c zero a)
          v1 := some (if r.lit = 0 then moved r.ctl c zero a else { tag := zero, ty := 6, lanes := [r.lit] }) })) ∧
    (r.lit = 0 →
      exec (.wave r) s = .next (emitRes s c (formN r) a.ty
        (both (moved r.ctl c (setfld lay c.tag j (fld lay c.tag j + 1)) a))) ∧
      exec (.leave r) s = .next (emitRes s c (formN r) a.ty (both (moved r.ctl c zero a))))

/-- 02 R35, 08 R181: setfld writes its level modulo the level's width, leaves every other level and the colour, and
fld reads it back. -/
def TagFieldsAreIndependent : Prop :=
  ∀ (lay : List Nat) (t : Word64) (j v : Nat), lay.sum ≤ 52 → j < lay.length →
    fld lay (setfld lay t j v) j = v % 2 ^ levelWidth lay j ∧
    colourOf (setfld lay t j v) = colourOf t ∧
    (∀ k, k < lay.length → k ≠ j → fld lay (setfld lay t j v) k = fld lay t k) ∧
    setfld lay t j (fld lay t j) = t

/-- 09 R203: TAGGET sends the tag as n64, or one field as n32; TAGSET replaces the stack bits by b's element 0, or one
field by b[0], and never the colour. -/
def TagGetAndSet : Prop :=
  ∀ (r : RecN) (s : State), r.fmt = 0 → MoveFields true (opx r) r → (opx r = true → LevelOk s r) →
    let c := s.cur
    let a := portTok c 0
    let lay := layoutOf s c.p c.plane
    let m := maskLanes (lanePred r.ctl c) a.lanes
    (Takes s (formN r) (if opx r then 6 else 7) [0] false →
      (opx r = false → exec (.tagget r) s = .next (emitRes s c (formN r) 7
        (both { tag := c.tag, ty := 7, lanes := m [c.tag.setWidth 32, (c.tag >>> 32).setWidth 32] }))) ∧
      (opx r = true → exec (.tagget r) s = .next (emitRes s c (formN r) 6
        (both { tag := c.tag, ty := 6, lanes := m [BitVec.ofNat 32 (fld lay c.tag (levelOf r))] })))) ∧
    (Moves s (formN r) [0, 1] →
      (opx r = false → exec (.tagset r) s = .next (emitRes s c (formN r) a.ty (both (moved r.ctl c
        (c.tag.extractLsb' 52 12 ++ ((BitVec.ofNat 64 (laneN (lanesP r c 1) 0 + laneN (lanesP r c 1) 1 * 2 ^ 32)).setWidth 52))
        a)))) ∧
      (opx r = true → exec (.tagset r) s = .next (emitRes s c (formN r) a.ty (both (moved r.ctl c
        (setfld lay c.tag (levelOf r) (laneN (lanesP r c 1) 0)) a)))))

/-- 09 R199, R200: a THROTTLE match takes a credit of the oldest entry of its base that has one, marks EOR, frees the
entry when its end was seen and C = L, and sends a as it is (a null as a null, under NULLPASS); without such a credit its token
waits in its row, before those that arrived after it, and nothing is sent. -/
def ThrottleSpendsACredit : Prop :=
  ∀ (r : RecN) (s : State), r.fmt = 0 → MoveFields false true r → LevelOk s r → badCtl [0, 1] r.ctl = false →
    r.ctl.pred = false → hasPorts s.cur [0] = true →
    let c := s.cur
    let a := portTok c 0
    let n := nibAt s c.p c.site
    let base := baseTag s c.p c.plane c.tag (levelOf r)
    let mine : ThrEntry → Bool := fun e =>
      e.plane == c.plane && e.node == c.node && e.base == base && decide (0 < e.credits)
    (n.thr.find? mine = none →
      exec (.throttleAdmit r) s = .next (setNib s c.p c.site
        { n with groups := { plane := c.plane, node := c.node, tag := keyTag s c.p c.tag, ops := c.ops } :: n.groups })) ∧
    (∀ i e, idxOf mine n.thr = some i → n.thr[i]? = some e →
      let e' : ThrEntry := { e with credits := e.credits - 1, eorSeen := e.eorSeen || a.eor }
      let s1 := setNib s c.p c.site
        { n with thr := if e'.eorSeen ∧ e'.credits = e'.window then dropAt n.thr i else setAt n.thr i e' }
      (a.null = false →
        exec (.throttleAdmit r) s = .next (settle (emitRes s1 c (formN r) a.ty
          (both (moved r.ctl c c.tag a))) c.p c.site)) ∧
      (a.null = true → r.ctl.nullpass = false → exec (.throttleAdmit r) s = .next (settle s1 c.p c.site)) ∧
      (a.null = true → r.ctl.nullpass = true →
        let z : Val := { tag := c.tag, ty := a.ty, lanes := List.replicate (max 1 a.lanes.length) 0, null := true, eor := a.eor, snap := a.snap }
        exec (.throttleAdmit r) s = .next (settle (sendNulls s1 c (formN r) z z) c.p c.site)))

/-- 09 R199, R200: a credit token on port b opens an entry with C = L = v when its base has none and a row is free,
and else adds its value to C, saturating at 65,535; a null adds 0. The nib notes the token that came in on this link in this cycle (02 R44). -/
def ThrottleCreditOpensOrAdds : Prop :=
  ∀ (s : State) (f : Flight), s.transit[s.sel.k]? = some f → f.queued = false → f.tok.snap = false →
    isCredit s f = true → behindOwn s s.sel.k f = false → entryLate s f = false →
    isNib f.tok.site.toNat = true → f.tok.site.toNat < 240 →
    entryShut s (matchCtx s f.p f.tok.plane.toNat f.tok.tag) = false →
    admits s f.p f.tok.tag = true → planeRuns s f.p f.tok.plane.toNat = true →
    let site := f.tok.site.toNat
    let k := f.tok.plane.toNat
    let w := recAt s f.p site k f.tok.node.toNat
    (portsOf w).contains 1 = true →
    let s1 := noteTook { s with transit := dropAt s.transit s.sel.k } f
    let n := nibAt s1 f.p site
    let base := baseTag s f.p k f.tok.tag (entryLevel w)
    let mine : ThrEntry → Bool := fun e => e.plane == k && e.node == f.tok.node.toNat && e.base == base
    let v := if f.tok.null then 0 else laneN f.tok.lanes 0
    (idxOf mine n.thr = none → rowFree s f.p site k f.tok.tag = true →
      exec .throttleCredit s = .next (settle (setNib s1 f.p site { n with thr := n.thr ++
        [{ plane := k, node := f.tok.node.toNat, base := base, credits := min v 65535, window := v, eorSeen := false }] })
        f.p site)) ∧
    (∀ i e, idxOf mine n.thr = some i → n.thr[i]? = some e →
      let e' : ThrEntry := { e with credits := min (e.credits + v) 65535 }
      exec .throttleCredit s = .next (settle (setNib s1 f.p site
        { n with thr := if e'.eorSeen ∧ e'.credits = e'.window then dropAt n.thr i else setAt n.thr i e' }) f.p site))

/-- 09 R202: a match of REPEAT sends the invariant of port a with the tag of the match and the EOR of port b; the sticky
row of its base is freed after a port-b token with EOR. -/
def RepeatSendsItsInvariant : Prop :=
  ∀ (r : RecN) (s : State), r.fmt = 0 → MoveFields false true r → LevelOk s r → Moves s (formN r) [0, 1] →
    let c := s.cur
    let a := portTok c 0
    let b := opTok r c 1
    let t := emitRes s c (formN r) a.ty (both
      { tag := c.tag, ty := a.ty, lanes := maskLanes (lanePred r.ctl c) a.lanes a.lanes, eor := b.eor, snap := false })
    exec (.repeat r) s = .next (if b.eor then
      freeSticky t c.p c.site c.plane c.node (baseTag s c.p c.plane c.tag (levelOf r)) else t)

/-- 09 R204: RANGE of N > 0 starts a generator whose first token has index 0 and sends nothing itself; N = 0
sends one null with field j = 0 and EOR; N above the field's range is faulty. -/
def RangeStartsAGenerator : Prop :=
  ∀ (r : RecN) (s : State), r.fmt.toNat ≤ 10 → MoveFields false true r → LevelOk s r →
    Takes s (formN r) r.fmt [0] false →
    let c := s.cur
    let lay := layoutOf s c.p c.plane
    let j := levelOf r
    let count := laneN (portTok c 0).lanes 0
    (2 ^ levelWidth lay j < count → exec (.range r) s = .next (faultCur s c cILLEGAL 0)) ∧
    (count = 0 → exec (.range r) s = .next (emitRes s c (formN r) r.fmt
      (both { tag := setfld lay c.tag j 0, ty := r.fmt, lanes := [0], null := true, eor := true }))) ∧
    (0 < count → count ≤ 2 ^ levelWidth lay j →
      let n := nibAt s c.p c.site
      exec (.range r) s = .next (settle (setNib s c.p c.site { n with gens := n.gens ++
        [{ plane := c.plane, node := c.node, tag := c.tag, level := j, kind := .range r.fmt count, arg := portTok c 0, next := 0
           d0 := r.d0, d1 := r.d1, ctl := r.ctl, poison := curPoison c, last := s.cycle, late := c.late }] }) c.p c.site))

/-- 09 R204: a RANGE generator sends, one a cycle, token i under setfld(T, j, i) with the value i in FMT, width 1, and EOR
on the last; after the last the generator is gone. It waits for room in the output queue, and in plain service for free slots (R206). -/
def GeneratorSendsTokenByToken : Prop :=
  ∀ (s : State) (g : Gen) (fmt : BitVec 4) (count : Nat),
    let p := s.sel.p
    let site := s.sel.site
    let n := nibAt s p site
    n.gens[s.sel.k]? = some g → g.kind = .range fmt count → g.last < s.cycle →
    queueUsed s p site + ((if g.d0.site = 255 then 0 else 1) + (if g.d1.site = 255 then 0 else 1)) ≤ 8 → genSlots s p site g = true →
    gatedCtx s p site (matchCtx s p g.plane g.tag) = false →
    let c : Cur := { p := p, site := site, plane := g.plane, node := g.node, tag := g.tag, late := g.late }
    let i := g.next
    let v : Val := { tag := setfld (layoutOf s p g.plane) g.tag g.level i, ty := fmt, eor := i + 1 == count
                     lanes := [BitVec.ofNat 32 (i % 2 ^ elemBits fmt)] }
    let xs := destSends g.d0 g.ctl.emit0 g.poison true false v (some v) ++
      destSends g.d1 g.ctl.emit1 g.poison true false v (some v)
    ∃ ready, (∀ m ∈ ready, m ∈ n.ready) ∧
      let s1 := setNib s p site { n with
        ready := ready
        gens := if i + 1 < count then setAt n.gens s.sel.k { g with next := i + 1, last := s.cycle } else dropAt n.gens s.sel.k }
      exec .generatorEmit s = .next (settle (sendAll s1 c xs) p site)

/-! ## The fabric: arrival, frames, scales, windows, delayed results -/

/-- 02 R38, R41, 15 R320, R327: what becomes of a token that reaches a nib. A colour that the site does not admit posts TAG_RANGE; a
plane that is neither LIVE nor DRAINING, or a port that the record does not take, discards it with ILLEGAL_OP; the
operand of a record with the one port a makes a match on the ready list. The nib takes one token a cycle from each neighbour (R44). -/
def TokenArrivalAtANib : Prop :=
  ∀ (s : State) (f : Flight), s.transit[s.sel.k]? = some f → f.queued = false → f.tok.snap = false →
    isEauCredit f = false → isCredit s f = false → behindOwn s s.sel.k f = false → entryLate s f = false →
    entryShut s (matchCtx s f.p f.tok.plane.toNat f.tok.tag) = false → isNib f.tok.site.toNat = true →
    let site := f.tok.site.toNat
    let k := f.tok.plane.toNat
    let w := recAt s f.p site k f.tok.node.toNat
    let s1 := noteTook { s with transit := dropAt s.transit s.sel.k } f
    let n := nibAt s1 f.p site
    (admits s f.p f.tok.tag = false → exec .tokenArrival s = .next (postTok s1 f.p site cTAG f.tok)) ∧
    (admits s f.p f.tok.tag = true → planeRuns s f.p k = false →
      exec .tokenArrival s = .next (postTok s1 f.p site cILLEGAL f.tok)) ∧
    (admits s f.p f.tok.tag = true → planeRuns s f.p k = true → marked n f.tok = false →
      ((portsOf w).contains f.tok.port.toNat = false →
        exec .tokenArrival s = .next (postTok s1 f.p site cILLEGAL f.tok)) ∧
      (portsOf w = [0] → f.tok.port = 0 → entryOp (Machine.opOf w) = false → Machine.opOf w ≠ opMerge →
        scaleOp (Machine.opOf w) = false → tagged s f.p = true → n.groups.any (keyed s f.p f.tok) = false →
        readyRoom n k = true →
        exec .tokenArrival s = .next (setNib s1 f.p site (toReady s.cycle n
          { plane := k, node := f.tok.node.toNat, tag := f.tok.tag, ops := [(0, f.tok)] }))))

/-- 02 R42, R44: a match that a frame store has completed joins the ready list of its nib when that has room, with the
scale tokens it needs; the spill bit of its node clears when no operand of the node is left in the store. -/
def FrameMatchJoinsReadyList : Prop :=
  ∀ (s : State) (site : Nat) (m : Match) (store got : List ScaleTok),
    let p := s.sel.p
    let x := wellAt s p s.sel.site
    let n := nibAt s p site
    x.returns[s.sel.k]? = some (site, m) →
    takeScales m.plane m.node m.tag (scaleNeeds (Machine.opOf (recAt s p site m.plane m.node)) m.ops) n.scales [] =
      some (store, got) →
    readyRoom n m.plane = true →
    let x' := { x with returns := dropAt x.returns s.sel.k }
    let gone := frameNode x' site m.plane m.node = false
    exec .frameMatchReturn s = .next (setNib (setWell s p s.sel.site x') p site (toReady s.cycle
      { n with scales := store, spill := if gone then n.spill.filter (· != 32 * m.plane + m.node) else n.spill }
      { m with scales := got }))

/-- 03 R68: a scale token enters the queue of the scale port or the scale store of its nib, at most 16 entries each. -/
def ScaleTokensAreStored : Prop :=
  ∀ (s : State) (f : ScaleFlight), s.scaleNet[s.sel.k]? = some f →
    let s1 := { s with scaleNet := dropAt s.scaleNet s.sel.k }
    let x := f.tok
    (x.site = 245 → (panelAt s f.p).portQ.length < 16 →
      exec .scaleTokenArrival s = .next (setPanel s1 f.p { panelAt s f.p with portQ := (panelAt s f.p).portQ ++ [x] })) ∧
    (isNib x.site = true → admits s f.p (x.payload &&& 0xFFFFFFFFFFF00000) = true → planeRuns s f.p x.plane = true →
      scaleOp (Machine.opOf (recAt s f.p x.site x.plane x.node)) = true → (nibAt s f.p x.site).scales.length < 16 →
      exec .scaleTokenArrival s = .next (settle (setNib s1 f.p x.site
        { nibAt s f.p x.site with scales := (nibAt s f.p x.site).scales ++ [x] }) f.p x.site))

/-- 02 R46: at the start of a window, each 256th cycle from the panel's start, a nib's issue and row counts start
again at nothing, and a node's share is its part of 16 in the row-cycles of its plane. -/
def ShareWindowStarts : Prop :=
  ∀ (s : State), isNib s.sel.site = true → (panelAt s s.sel.p).startCycle < s.cycle →
    (s.cycle - (panelAt s s.sel.p).startCycle) % 256 = 0 →
    let n := nibAt s s.sel.p s.sel.site
    ∃ n' : Nib, exec .shareWindowStart s = .next (setNib s s.sel.p s.sel.site n') ∧
      n' = { n with issued := [], occ := [], share := n'.share } ∧
      ∀ k node, node < 32 → k < 4 → shareOf n' (32 * k + node) =
        if occPlane n k = 0 then 16 else 16 * tgetD n.occ (32 * k + node) 0 / occPlane n k

/-- 10 R212: a delayed result is sent, and its flags are set, in a cycle at or after its due cycle, once no earlier result
of its record is left; its place in the output queue has been reserved since its issue. -/
def DelayedResultsAreDelivered : Prop :=
  ∀ (s : State) (d : Delayed),
    let p := s.sel.p
    let site := s.sel.site
    let n := nibAt s p site
    n.delayed[s.sel.k]? = some d → d.due ≤ s.cycle →
    (n.delayed.take s.sel.k).any (fun e => e.plane == d.plane && e.node == d.node) = false →
    let c : Cur := { p := p, site := site, plane := d.plane, node := d.node, tag := d.tag, late := d.late }
    exec .delayedResultDelivery s =
      .next (sends (curFlags (setNib s p site { n with delayed := dropAt n.delayed s.sel.k }) c d.flags) c d.sends)

/-! ## Scribe blocks: registers and exits -/

/-- 09 R207: READ sends q[LIT[5:0]] under BTAG, two lanes for FMT 3 or 7 and one for FMT 2 or 6. -/
def ReadSendsARegister : Prop :=
  ∀ (r : RecN) (s : State), MoveFields false false r → r.lit.toNat < 64 → Takes s (formN r) r.fmt [] false →
    let v := qreg s s.cur.p r.lit.toNat
    (r.fmt = 3 ∨ r.fmt = 7 → exec (.read r) s = .next (emitRes s s.cur (formN r) r.fmt (both
      { tag := (scribeAt s s.cur.p).btag, ty := r.fmt, lanes := [v.setWidth 32, (v >>> 32).setWidth 32] }))) ∧
    (r.fmt = 2 ∨ r.fmt = 6 → exec (.read r) s = .next (emitRes s s.cur (formN r) r.fmt (both
      { tag := (scribeAt s s.cur.p).btag, ty := r.fmt, lanes := [v.setWidth 32] })))

/-- 09 R208, R209; 20 R401: in a block, WRITE records a value (two lanes, or lane 0 zero-extended) or nothing (a null, a false
predicate) for its register, and an exit with a value and a true predicate records itself; q and the call stack stand until
commit. -/
def BlockRecordsAreCounted : Prop :=
  ∀ (r : RecN) (s : State) (b : Block), s.cur.site = 240 → (scribeAt s s.cur.p).cur = some b →
    let c := s.cur
    let sc := scribeAt s c.p
    let with_ := fun (b' : Block) => setScribe s c.p { sc with cur := some b' }
    (MoveFields false false r → (qWidth r.fmt).isSome = true → r.lit.toNat < 64 → badCtl [4] r.ctl = false →
      hasPorts c (portSet [4] r.ctl) = true → (portTok c 4).poison = false → anyBlock c (portSet [4] r.ctl) = false →
      let x := (portTok c 4).lanes
      let v : Word64 := if r.fmt = 3 ∨ r.fmt = 7 then x.getD 1 0 ++ x.getD 0 0 else (x.getD 0 0).setWidth 64
      exec (.write r) s = .next (with_ { b with writes := b.writes ++ [(c.node, r.lit.toNat,
        if anyNull c (portSet [4] r.ctl) || predFalse r.ctl c then none else some v)] })) ∧
    (r.cf = 0 → levelOf r = 0 → r.fmt = 0 → badCtl [5] r.ctl = false → hasPorts c (portSet [5] r.ctl) = true →
      (portTok c 5).poison = false → anyBlock c (portSet [5] r.ctl) = false →
      let taken := fun (op : Nat) => if anyNull c (portSet [5] r.ctl) || predFalse r.ctl c then s
        else with_ { b with exits := b.exits ++ [(c.node, op, r.lit, opx r, (portTok c 5).lanes.getD 0 0)] }
      (r.lit.toNat < 65536 → exec (.branch r) s = .next (taken 0x33)) ∧
      (opx r = false → exec (.bcall r) s = .next (taken 0x34)) ∧
      (opx r = false → r.lit = 0 → exec (.bret r) s = .next (taken 0x35)))

/-! ## Class 2: floating point -/

/-- 10 R211, R213 to R218, R221; 03 R61 to R63: lane by lane, the records of latency 1 give what their operation gives on the
floats of their operands under the record's rounding mode and the lane's stochastic bits; a masked lane keeps a's lane and raises
no flag. -/
def FloatRecordsComplete : Prop :=
  ∀ (r : RecN) (s : State),
    let c := s.cur
    let f := r.fmt
    let z := srTop c.tag (ctxAt s (matchCtx s c.p c.plane c.tag)).srseed
    let out := fun (ty : BitVec 4) (g : Nat → FR) => fltRes c ty (fltLanes (lanePred r.ctl c) (lanesP r c 0) (widthA c) g)
    let v := fun k l => fread f (elem f (lanesP r c k) l)
    let bits_ := fun k l => elem f (lanesP r c k) l
    (FltFields 6 r → Takes s (formN r) f [0, 1] false →
      exec (.fadd r) s = .next (emitRes s c (formN r) f (out f (fun l => fadd f r.hi.toNat (z l) (v 0 l) (v 1 l)))) ∧
      exec (.fsub r) s = .next (emitRes s c (formN r) f (out f (fun l => fadd f r.hi.toNat (z l) (v 0 l) (fneg (v 1 l))))) ∧
      exec (.fmul r) s = .next (emitRes s c (formN r) f (out f (fun l => fmul f r.hi.toNat (z l) (v 0 l) (v 1 l)))) ∧
      exec (.fscale r) s = .next (emitRes s c (formN r) f (out f (fun l => fscaleV f r.hi.toNat (z l) (v 0 l)
        (if r.ctl.lituse = 1 then r.lit.toInt else ((portTok c 1).lanes.getD l 0).toInt))))) ∧
    (FltFields 6 r → Takes s (formN r) f [0, 1, 2] false →
      exec (.ffma r) s = .next (emitRes s c (formN r) f
        (out f (fun l => ffma f r.hi.toNat (z l) (v 0 l) (v 1 l) (v 2 l))))) ∧
    (FltFields 6 r → Takes s (formN r) f [0] false →
      exec (.fround r) s = .next (emitRes s c (formN r) f (out f (fun l => froundV f r.hi.toNat (z l) (v 0 l))))) ∧
    (FltFields 2 r → Takes s (formN r) f [0, 1] false →
      exec (.fmin r) s = .next (emitRes s c (formN r) f
        (out f (fun l => fminmax f false (r.hi == 1) (bits_ 0 l) (bits_ 1 l)))) ∧
      exec (.fmax r) s = .next (emitRes s c (formN r) f
        (out f (fun l => fminmax f true (r.hi == 1) (bits_ 0 l) (bits_ 1 l))))) ∧
    (FltFields 8 r → Takes s (formN r) f [0, 1] false →
      exec (.fcmp r) s = .next (emitRes s c (formN r) 6
        { out 6 (fun l => (if fRel r.hi.toNat (fcmp (v 0 l) (v 1 l)) then 1 else 0,
            if fRelNV r.hi.toNat (v 0 l) (v 1 l) then fNV else 0)) with
          cond := (List.range (widthA c)).all (fun l =>
            !predAt (lanePred r.ctl c) l || fRel r.hi.toNat (fcmp (v 0 l) (v 1 l))) })) ∧
    (FltFields 1 r → Takes s (formN r) f [0] false →
      exec (.fclass r) s = .next (emitRes s c (formN r) 6 (out 6 (fun l => (fclassV f (bits_ 0 l), 0))))) ∧
    (FltFields 3 r → Takes s (formN r) f [0, 1] false →
      exec (.fsgn r) s = .next (emitRes s c (formN r) f (out f (fun l => fsgnV f r.hi.toNat (bits_ 0 l) (bits_ 1 l)))))

/-- 03 R74; 10 R212, R219, R220: the special functions admit FMT f32 and RND 0 only, and deliver their result 14, 10, 3, 8 or
12 cycles after issue. -/
def SpecialFunctionsComplete : Prop :=
  ∀ (r : RecN) (s : State), r.fmt = 10 → r.hi = 0 → r.cf = 0 →
    let c := s.cur
    let z := srTop c.tag (ctxAt s (matchCtx s c.p c.plane c.tag)).srseed
    let v := fun k l => fread 10 (elem 10 (lanesP r c k) l)
    let after := fun (n : Nat) (g : Nat → FR) => Host.Outcome.next (φ := Fault) (ρ := Refusal)
      (delayRes (fun _ => n) s c (formN r) 10
        (fltRes c 10 (fltLanes (lanePred r.ctl c) (lanesP r c 0) (widthA c) g)))
    (Takes s (formN r) r.fmt [0, 1] false →
      exec (.fdiv r) s = after 14 (fun l => fdivV (z l) (v 0 l) (v 1 l))) ∧
    (Takes s (formN r) r.fmt [0] false →
      exec (.fsqrt r) s = after 14 (fun l => fsqrtV (z l) (v 0 l)) ∧
      exec (.frcp r) s = after 10 (fun l => rcpV (z l) (frcpX (v 0 l))) ∧
      exec (.frsq r) s = after 10 (fun l => rcpV (z l) (frsqX (v 0 l))) ∧
      exec (.frcpa r) s = after 3 (fun l => rcpAV (z l) (frcpX (v 0 l))) ∧
      exec (.frsqa r) s = after 3 (fun l => rcpAV (z l) (frsqX (v 0 l))) ∧
      exec (.fexp2 r) s = after 8 (fun l => fexp2V (z l) (v 0 l)) ∧
      exec (.flog2 r) s = after 8 (fun l => flog2V (z l) (v 0 l)) ∧
      exec (.fsinpi r) s = after 12 (fun l => fsinpiV (z l) (v 0 l)) ∧
      exec (.fcospi r) s = after 12 (fun l => fcospiV (z l) (v 0 l)) ∧
      exec (.ftanh r) s = after 12 (fun l => ftanhV (z l) (v 0 l)))

/-- 03 R58, R61, R62, R75: rounding a value that the type represents gives its own pattern and raises no flag, in every
mode; the pattern reads back as the value. -/
def RoundingKeepsRepresentableValues : Prop :=
  ∀ (f : BitVec 4) (v mode z : Nat) (x : Ex), isFloatTy f = true → v < 2 ^ fltBits f → fread f v = .fin x →
    rnd f mode z x = (v, 0)

/-- 03 R62, R75: a rounded result is a zero, a subnormal, a normal or an infinity of its type, never a NaN; one that raises no
NX reads back as a value equal to the exact one. (An exact value is m · 2^e, and with sticky set it lies above that by less than
2^e; a value whose m is 0 carries no sticky part.) -/
def RoundedResultsAreExactWithoutNX : Prop :=
  ∀ (f : BitVec 4) (mode z : Nat) (x : Ex), isFloatTy f = true → mode ≤ 5 → (x.m = 0 → x.sticky = false) →
    let y := rnd f mode z x
    y.1 < 2 ^ fltBits f ∧ isNanV (fread f y.1) = false ∧
    (y.2 &&& fNX = 0 → ∃ u, fread f y.1 = .fin u ∧ u.neg = x.neg ∧
      (u.m : Int) * 2 ^ (u.e - min u.e x.e).toNat = (x.m : Int) * 2 ^ (x.e - min u.e x.e).toNat)

/-! ## Class 3: conversions, blocks, dot products and lanes -/

/-- 10 R222 to R224: CVT, FTOI and ITOF convert element by element, and fault on an operand of another kind of type. -/
def ConversionsComplete : Prop :=
  ∀ (r : RecN) (s : State), LaneFields false true r → Takes s (formN r) r.fmt [0] false →
    let c := s.cur
    let a := portTok c 0
    let z := srTop c.tag (ctxAt s (matchCtx s c.p c.plane c.tag)).srseed
    (isFloatTy r.fmt = true →
      (isFloatTy a.ty = true → exec (.cvt r) s = .next (emitRes s c (formN r) r.fmt
        (fltRes c r.fmt (fltLanes (lanePred r.ctl c) a.lanes a.lanes.length (fun l =>
          cvtV r.fmt (rnd3 r) (z l) (fread a.ty (elem a.ty a.lanes l))))))) ∧
      (isFloatTy a.ty = false → exec (.cvt r) s = .next (faultCur s c cILLEGAL 0)) ∧
      (a.ty.toNat < 8 → exec (.itof r) s = .next (emitRes s c (formN r) r.fmt
        (elemRes c r.ctl r.fmt (a.lanes.length / lanesPer a.ty) (fun i =>
          let x := elemInt a.ty a.lanes i
          rnd r.fmt (rnd3 r) (z i) { neg := decide (x < 0), m := x.natAbs, e := 0 })))) ∧
      (8 ≤ a.ty.toNat → exec (.itof r) s = .next (faultCur s c cILLEGAL 0))) ∧
    (r.fmt.toNat < 8 →
      (isFloatTy a.ty = true → exec (.ftoi r) s = .next (emitRes s c (formN r) r.fmt
        (elemRes c r.ctl r.fmt (min a.lanes.length (32 / lanesPer r.fmt)) (fun i =>
          ftoiV r.fmt (rnd3 r) (z i) (fread a.ty (elem a.ty a.lanes i)))))) ∧
      (isFloatTy a.ty = false → exec (.ftoi r) s = .next (faultCur s c cILLEGAL 0)))


/-- 03 R64 to R69; 10 R225, R226: BXPACK packs sixteen elements of a float operand into each block, elements beyond the operand
being +0, and sends the blocks to d0 and their scale words to d1; BXUNPK unpacks the two blocks that CF selects under the
scales of the match. -/
def BlocksPackAndUnpack : Prop :=
  ∀ (r : RecN) (s : State),
    let c := s.cur
    let a := portTok c 0
    let z := srTop c.tag (ctxAt s (matchCtx s c.p c.plane c.tag)).srseed
    (LaneFields false true r → isBlockTy r.fmt = true → Takes s (formN r) r.fmt [0] false → isFloatTy a.ty = true →
      lanePred r.ctl c = none →
      let nb := (a.lanes.length + 15) / 16
      let blk := fun j => tobx ((List.range 16).map (fun i =>
        if 16 * j + i < a.lanes.length then fread a.ty (elem a.ty a.lanes (16 * j + i))
        else .fin { neg := false, m := 0, e := 0 })) (blockM r.fmt) (rnd3 r) (fun i => z (16 * j + i))
      exec (.bxpack r) s = .next (emitRes { s with fresh := s.fresh + 2 } c (formN r) r.fmt
        { v0 := some { tag := c.tag, ty := r.fmt
                       lanes := (List.range nb).flatMap (fun j => strLanes (blockLanes r.fmt) (blk j).str) }
          v1 := some { tag := c.tag, ty := 5, lanes := (List.range nb).map (fun j => BitVec.ofNat 32 (blk j).sw) }
          flags := (List.range nb).foldl (fun f j => f ||| (blk j).flags) 0 })) ∧
    (r.cf.toNat ≤ 3 → rnd3 r ≤ 5 → opx r = false → isFloatTy r.fmt = true → Takes s (formN r) r.fmt [0] true →
      let nb := blockCountW a.ty a.lanes.length
      let p2 := 2 * r.cf.toNat
      ((isBlockTy a.ty = false ∨ nb ≤ p2) → exec (.bxunpk r) s = .next (faultCur s c cILLEGAL 0)) ∧
      (isBlockTy a.ty = true → p2 < nb → lanePred r.ctl c = none →
        let g : Nat → FR := fun i =>
          let j := p2 + i / 16
          match bxElem (blockM a.ty) (blockStr a.ty a.lanes j) (scaleOf c 0 j) (i % 16) with
          | none => (cNaN r.fmt, 0)
          | some x => rnd r.fmt (rnd3 r) (z (16 * j + i % 16)) x
        let w := 16 * min 2 (nb - p2)
        exec (.bxunpk r) s = .next (emitRes s c (formN r) r.fmt
          { both { tag := c.tag, ty := r.fmt, lanes := (List.range w).map (fun i => BitVec.ofNat 32 (g i).1) } with
            flags := (List.range w).foldl (fun f i => f ||| (g i).2) 0 })))

/-- 03 R77; 10 R227: DOT of two float operands adds their products one by one in lane order to port c's lane 0, each step
rounded once to f32, and is delivered after 1 + ceil(n / 8) cycles; unlike operand types fault. -/
def DotAccumulatesInOrder : Prop :=
  ∀ (r : RecN) (s : State), LaneFields false false r → r.fmt = 10 → r.ctl.lituse = 0 →
    Takes s (formN r) r.fmt [0, 1, 2] true →
    let c := s.cur
    let a := portTok c 0
    let b := portTok c 1
    let n := min a.lanes.length b.lanes.length
    ((a.ty ≠ b.ty ∨ (isFloatTy a.ty = false ∧ isBlockTy a.ty = false)) →
      exec (.dot r) s = .next (faultCur s c cILLEGAL 0)) ∧
    (a.ty = b.ty → isFloatTy a.ty = true →
      let step := fun (acc : Nat × BitVec 5) i =>
        let y := ffma 10 0 0 (fread a.ty (elem a.ty a.lanes i)) (fread a.ty (elem a.ty b.lanes i)) (fread 10 acc.1)
        (y.1, acc.2 ||| y.2)
      let acc := (List.range n).foldl step (laneN (portTok c 2).lanes 0, 0)
      exec (.dot r) s = .next (delayRes (fun _ => 1 + (n + 7) / 8) s c (formN r) r.fmt
        { both { tag := c.tag, ty := 10, lanes := [BitVec.ofNat 32 acc.1] } with flags := acc.2 }))

/-- 10 R228: LSUM adds all elements, LSCAN gives the prefix sums (exclusive with OPX 1, from 0); integers exactly, wrapped (LSUM
saturated with OPX 1) once at the end, floats by one rounding at each step in lane order. -/
def SumsAndScans : Prop :=
  ∀ (r : RecN) (s : State), LaneFields true false r → r.fmt.toNat ≤ 10 → Takes s (formN r) r.fmt [0] false →
    let c := s.cur
    let a := (portTok c 0).lanes
    let m := maskLanes (lanePred r.ctl c) a
    let e := a.length / lanesPer r.fmt
    let upTo : Nat → Int := fun i => ((List.range i).map (fun k => elemInt r.fmt a k)).sum
    (r.fmt.toNat < 8 →
      exec (.lsum r) s = .next (emitRes s c (formN r) r.fmt (both
        { tag := c.tag, ty := r.fmt, lanes := m (lanesOf r.fmt (lanesPer r.fmt) (fun _ =>
          if opx r then (clamp r.fmt (upTo e)).toNat else (BitVec.ofInt (elemBits r.fmt) (upTo e)).toNat)) })) ∧
      exec (.lscan r) s = .next (emitRes s c (formN r) r.fmt (both
        { tag := c.tag, ty := r.fmt, lanes := m (lanesOf r.fmt a.length (fun i =>
          let at_ := fun i => if i < e then (BitVec.ofInt (elemBits r.fmt) (upTo (i + 1))).toNat else 0
          if opx r then (if i = 0 then 0 else at_ (i - 1)) else at_ i)) }))) ∧
    (isFloatTy r.fmt = true →
      let sums := fltScan r.fmt a a.length
      (opx r = false → exec (.lsum r) s = .next (emitRes s c (formN r) r.fmt (fltRes c r.fmt
        (m [BitVec.ofNat 32 (sums.1.getLastD 0)], if predAt (lanePred r.ctl c) 0 then sums.2 else 0)))) ∧
      exec (.lscan r) s = .next (emitRes s c (formN r) r.fmt (fltRes c r.fmt
        (m (lanesOf r.fmt a.length (fun i =>
          if opx r then (if i = 0 then 0 else sums.1.getD (i - 1) 0) else sums.1.getD i 0)), sums.2))))

/-- 10 R229: LMAX and LMIN send the greatest or least element, and with OPX 1 its index in a lane after it; for
integers the result is an element that no element beats, and the index is the lowest of those. -/
def LaneExtremes : Prop :=
  ∀ (r : RecN) (s : State), LaneFields true false r → r.fmt.toNat < 8 → Takes s (formN r) r.fmt [0] false →
    let c := s.cur
    let a := (portTok c 0).lanes
    let e := a.length / lanesPer r.fmt
    let v := fun i => elemInt r.fmt a i
    let send := fun (k : Nat) => emitRes s c (formN r) r.fmt (both
      { tag := c.tag, ty := r.fmt, lanes := maskLanes (lanePred r.ctl c) a
          (lanesOf r.fmt (lanesPer r.fmt) (fun _ => elem r.fmt a k) ++ if opx r then [BitVec.ofNat 32 k] else []) })
    0 < e →
      (∃ k < e, (∀ i < e, v i ≤ v k) ∧ (∀ i < k, v i < v k) ∧ exec (.lmax r) s = .next (send k)) ∧
      (∃ k < e, (∀ i < e, v k ≤ v i) ∧ (∀ i < k, v k < v i) ∧ exec (.lmin r) s = .next (send k))

/-- 10 R229: for floats LMAX and LMIN keep the first of the best, a NaN never beating a number, give the canonical NaN
when all are NaNs, and raise NV for a signalling NaN. -/
def FloatLaneExtremes : Prop :=
  ∀ (r : RecN) (s : State), LaneFields true false r → isFloatTy r.fmt = true → Takes s (formN r) r.fmt [0] false →
    let c := s.cur
    let a := (portTok c 0).lanes
    let x := fun i => elem r.fmt a i
    let isNum := fun i => !isNanV (fread r.fmt (x i))
    let send := fun (k : Nat) => emitRes s c (formN r) r.fmt (fltRes c r.fmt
      (maskLanes (lanePred r.ctl c) a ([BitVec.ofNat 32 (if isNum k then x k else cNaN r.fmt)] ++
        if opx r then [BitVec.ofNat 32 k] else []),
       if (List.range a.length).any (fun i => isSnan (fread r.fmt (x i))) && predAt (lanePred r.ctl c) 0 then fNV else 0))
    0 < a.length →
      (∃ k < a.length, (∀ i < a.length, isNum i = true → isNum k = true ∧ fltKey r.fmt (x i) ≤ fltKey r.fmt (x k)) ∧
        exec (.lmax r) s = .next (send k)) ∧
      (∃ k < a.length, (∀ i < a.length, isNum i = true → isNum k = true ∧ fltKey r.fmt (x k) ≤ fltKey r.fmt (x i)) ∧
        exec (.lmin r) s = .next (send k))

/-- 10 R230 to R232: SHUF picks lanes by index (absolute, or xor with OPX 1), BCAST repeats one lane (or a pair) of
a, IOTA counts from a's element by a step, LMASK makes a mask of the first n lanes (or of the bits of n). A lane beyond a
reads 0. -/
def LaneMovesComplete : Prop :=
  ∀ (r : RecN) (s : State),
    let c := s.cur
    let t := portTok c 0
    let a := t.lanes
    let m := maskLanes (lanePred r.ctl c) a
    let move := fun (ls : List Lane) => Host.Outcome.next (φ := Fault) (ρ := Refusal) (emitRes s c (formN r) r.fmt
      (both { tag := c.tag, ty := t.ty, lanes := m ls, eor := t.eor, snap := t.snap }))
    let lit := r.lit.toNat
    (LaneFields true false r → r.fmt = 0 → Takes s (formN r) r.fmt [0, 1] true →
      let idx := fun l => if r.ctl.lituse = 1 then lit else laneN (portTok c 1).lanes l
      (opx r = true → exec (.shuf r) s = move ((List.range a.length).map (fun l => a.getD (l ^^^ (idx l % 32)) 0))) ∧
      (opx r = false → exec (.shuf r) s = move
        ((List.range (if r.ctl.lituse = 1 then a.length else (portTok c 1).lanes.length)).map (fun l => a.getD (idx l) 0)))) ∧
    (LaneFields true false r → r.fmt = 0 → r.ctl.lituse = 0 → bits lit 7 5 = 0 → bits lit 31 13 = 0 →
      Takes s (formN r) r.fmt [0] true →
      exec (.bcast r) s = move ((List.range (bits lit 12 8 + 1)).map (fun i =>
        a.getD (if opx r then 2 * (lit % 32) + i % 2 else lit % 32) 0))) ∧
    (LaneFields false false r → r.fmt.toNat < 8 → lanesPer r.fmt = 1 → r.ctl.lituse = 0 → bits lit 31 21 = 0 →
      Takes s (formN r) r.fmt [0] false →
      exec (.iota r) s = .next (emitRes s c (formN r) r.fmt (both
        { tag := c.tag, ty := r.fmt, lanes := m (lanesOf r.fmt (bits lit 20 16 + 1) (fun i =>
          (BitVec.ofInt (elemBits r.fmt) (elemInt r.fmt a 0 + i * (r.lit.setWidth 16).toInt)).toNat)) }))) ∧
    (LaneFields true false r → r.fmt = 6 → r.ctl.lituse = 0 → bits lit 31 5 = 0 → Takes s (formN r) r.fmt [0] false → t.ty = 6 →
      exec (.lmask r) s = .next (emitRes s c (formN r) r.fmt (both
        { tag := c.tag, ty := 6, lanes := m ((List.range (lit % 32 + 1)).map (fun i =>
          if opx r then ((a.getD 0 0) >>> i) &&& 1 else if i < (a.getD 0 0).toNat then 1 else 0)) })))

/-- 10 R233, R234, 16 R338: PACKC sends a and b end to end; packing two colours asks the colour point to mark a's entry with the partner, the
split and the joint grant. UNPACKC splits after the lanes of LIT (OPX 1), or at the entry's split under the two colours (OPX 0). -/
def PackAndUnpackColours : Prop :=
  ∀ (r : RecN) (s : State),
    let c := s.cur
    let a := portTok c 0
    let b := portTok c 1
    let part := partOf s (matchCtx s c.p c.plane c.tag)
    (LaneFields false false r → r.fmt = 0 → r.ctl.lituse = 0 → badCtl [0, 1] r.ctl = false →
      hasPorts c (portSet [0, 1] r.ctl) = true → anyNull c (portSet [0, 1] r.ctl) = false → predFalse r.ctl c = false →
      a.lanes.length + b.lanes.length ≤ 32 → a.ty = b.ty →
      let e := colourAt s part (colourOf a.tag)
      (colourOf a.tag = colourOf b.tag ∨ e.pk = false ∨ (e.partner = colourOf b.tag ∧ e.split = a.lanes.length)) →
      let v : Val := { tag := a.tag, ty := a.ty, eor := a.eor || b.eor, snap := a.snap || b.snap
                       lanes := maskLanes (lanePred r.ctl c) a.lanes (a.lanes ++ b.lanes) }
      (colourOf a.tag = colourOf b.tag → exec (.packc r) s = .next (emitRes s c (formN r) r.fmt (both v))) ∧
      (colourOf a.tag ≠ colourOf b.tag →
        exec (.packc r) s = .next (sends (askPoint s 0 0 (.packc r) c) c (resSends c (formN r) r.fmt (both v))) ∧
        packServe c s = setColour s part (colourOf a.tag)
          { withGrant s part (colourOf a.tag) { e with pk := true, partner := colourOf b.tag, split := a.lanes.length }
              (a.lanes.length + b.lanes.length) with gwm1 := a.lanes.length + b.lanes.length - 1 })) ∧
    (LaneFields true false r → r.fmt = 0 → r.ctl.lituse = 0 → Takes s (formN r) r.fmt [0] true →
      lanePred r.ctl c = none →
      let v := fun (tag : Word64) (ls : List Lane) =>
        ({ tag := tag, ty := a.ty, lanes := ls, eor := a.eor, snap := a.snap } : Val)
      let k := r.lit.toNat
      let e := colourAt s part (colourOf c.tag)
      (opx r = true → 0 < k → k < a.lanes.length → k < 32 →
        exec (.unpackc r) s = .next (emitRes s c (formN r) r.fmt
          { v0 := some (v c.tag (a.lanes.take k)), v1 := some (v c.tag (a.lanes.drop k)) })) ∧
      (opx r = false → e.pk = true → a.lanes.length = e.gwm1 + 1 → e.partner < 4096 →
        exec (.unpackc r) s = .next (emitRes s c (formN r) r.fmt
          { v0 := some (v c.tag (a.lanes.take e.split))
            v1 := some (v (BitVec.ofNat 12 e.partner ++ c.tag.setWidth 52) (a.lanes.drop e.split)) })))

/-- 12 R277: CMPFWD of two candidates of four lanes sends the winner to d0, and the winner (OPX 0) or the loser (OPX 1) to
d1, each with the joint exclusion mask; an excluded candidate loses to one that is not, else the higher score wins, then the
lower index, and a when both agree. -/
def CompareForwardSendsTheWinner : Prop :=
  ∀ (r : RecN) (s : State), LaneFields true false r → isFloatTy r.fmt = true → r.lit = 0 → r.ctl.lituse = 0 →
    Takes s (formN r) r.fmt [0, 1] false → lanePred r.ctl s.cur = none →
    let c := s.cur
    let a := (portTok c 0).lanes
    let b := (portTok c 1).lanes
    let mask := fun (t : List Lane) => (t.getD 3 0) ++ (t.getD 2 0)
    let out := fun (t : List Lane) => (t.getD 1 0).toNat < 64 ∧ (mask t).getLsbD (t.getD 1 0).toNat = true
    let m := mask a ||| mask b
    let v := fun (t : List Lane) => ({ tag := c.tag, ty := r.fmt
                                       lanes := [BitVec.ofNat 32 (elem r.fmt t 0), t.getD 1 0, m.setWidth 32, (m >>> 32).setWidth 32] } : Val)
    let fl := if isSnan (fread r.fmt (elem r.fmt a 0)) || isSnan (fread r.fmt (elem r.fmt b 0)) then fNV else 0
    a.length = 4 → b.length = 4 →
      ((out b ∧ ¬ out a) ∨ ((out a ↔ out b) ∧
          ranksAbove r.fmt (elem r.fmt b 0) (laneN b 1) (elem r.fmt a 0) (laneN a 1) = false) →
        exec (.cmpfwd r) s = .next (emitRes s c (formN r) r.fmt
          { cond := true, v0 := some (v a), v1 := some (if opx r then v b else v a), flags := fl })) ∧
      ((out a ∧ ¬ out b) ∨ ((out a ↔ out b) ∧
          ranksAbove r.fmt (elem r.fmt b 0) (laneN b 1) (elem r.fmt a 0) (laneN a 1) = true) →
        exec (.cmpfwd r) s = .next (emitRes s c (formN r) r.fmt
          { cond := false, v0 := some (v b), v1 := some (if opx r then v a else v b), flags := fl }))

/-- 12 R278: RANKADM counts a candidate and keeps the best C of its base in rank order, sending a candidate that falls out as
rejected; when the count of its base is reached the entries leave as admitted, highest first, and the table and the count
are freed. -/
def RankAdmission : Prop :=
  ∀ (r : RecN) (s : State),
    (badRank s r = false → hasPorts s.cur (portSet [0] r.ctl) = true →
      anyNull s.cur (portSet [0] r.ctl) = false → predFalse r.ctl s.cur = false →
      anyBlock s.cur (portSet [0] r.ctl) = false → (r.ctl.pred = false ∨ r.ctl.lituse ≠ 2) →
      let c := s.cur
      let x := { portTok c 0 with tag := c.tag }
      let n := nibAt s c.p c.site
      let tb := rankTable n c.plane c.node (baseTag s c.p c.plane c.tag (bits r.lit.toNat 18 16))
      let cap := r.lit.toNat % 65536
      (∀ e ∈ tb.entries, candAbove r.fmt e x = true ∨ candAbove r.fmt x e = true) →
      let all := insBy (candAbove r.fmt) x tb.entries
      let tb' := { tb with counted := tb.counted + 1, entries := all.take cap }
      (tb.entries.length < cap →
        exec (.rankadmCandidate r) s = .next (setNib s c.p c.site (putRank n tb'))) ∧
      (tb.entries.length = cap → ∃ y, all.drop cap = [y] ∧
        exec (.rankadmCandidate r) s =
          .next (sendAll (setNib s c.p c.site (putRank n tb')) c (candSends (formN r) r.fmt false y)))) ∧
    (∀ e : Sticky, (nibAt s s.sel.p s.sel.site).sticky[s.sel.k]? = some e →
      decode (recAt s s.sel.p s.sel.site e.plane e.node) = .ok (.rankadmCandidate r) →
      let p := s.sel.p
      let site := s.sel.site
      let n := nibAt s p site
      let tb := rankTable n e.plane e.node e.base
      (isBlockTy e.tok.ty = false ∨ e.tok.null = true) → (if e.tok.null then 0 else laneN e.tok.lanes 0) ≤ tb.counted →
      let c : Cur := { p := p, site := site, plane := e.plane, node := e.node, tag := e.tok.tag }
      let n' := { n with ranks := n.ranks.filter (fun x => !(x.plane == e.plane && x.node == e.node && x.base == e.base)) }
      exec .rankadmBatchComplete s = .next (sendAll (freeSticky (setNib s p site n') p site e.plane e.node e.base) c
        (tb.entries.flatMap (candSends (formN r) r.fmt true))))

/-! ## Blocks -/

/-- 02 R52; 08 R179: a scribe that may enter a block takes the next one of its plane's kernel, and checks the fields of all its records: with
none at fault its port-less READs fire, and a record at fault raises the block's exception. An index that the kernel does not
hold is an exact trap, or a double fault in a handler. -/
def BlocksAreEntered : Prop :=
  ∀ (s : State) (k : Nat),
    let p := s.sel.p
    let sc := scribeAt s p
    (panelAt s p).scribePlane = some k →
    (mayEnter s p k = false → exec .blockEntry s = .refused .notEnabled) ∧
    (mayEnter s p k = true → blockCount s p ≤ sc.next →
      (thand sc = false → exec .blockEntry s = .next (setScribe s p { sc with exact := some (cILLEGAL, 0, sc.next) })) ∧
      (thand sc = true → exec .blockEntry s = .next (doubleFault s p cILLEGAL 0))) ∧
    (mayEnter s p k = true → sc.next < blockCount s p →
      let b : Block := { plane := k, index := sc.next, header := tgetD sc.blocks (blockKey k sc.next 0) 0 }
      let s1 := noteIssue (setScribe s p { sc with cur := some b }) p k sc.btag
      (takeIn s1 p b = none →
        exec .blockEntry s = .next ((List.range (blockLen b)).foldl (fun s n => fireRead s p b n) s1)) ∧
      (∀ cause info, takeIn s1 p b = some (cause, info) →
        exec .blockEntry s = .next (onBlock s1 p (fun b => { b with exc := some cause, excInfo := info }))))

/-- 02 R53; 09 R209, R210; 20 R398: a block commits exactly when its store mask, its register writes and its exit are complete and nothing of it
waits: it goes on at the target of BRANCH, at a called block with the return pushed, at the top of the stack, at the block of
TRETB, or rests after a final block. An exception, a second exit, and an exit that R210 forbids make it fail exactly. -/
def BlocksCommitOrFail : Prop :=
  ∀ (s : State) (b : Block),
    let p := s.sel.p
    let sc := scribeAt s p
    let n := blockCount s p
    let goes := fun (blk : Nat) (stack : List Nat) =>
      Host.Outcome.next (φ := Fault) (ρ := Refusal) (commitBlock s p b (some (blk, stack)))
    let fails := Host.Outcome.next (φ := Fault) (ρ := Refusal) (failBlock s p b cILLEGAL (exitInfo b))
    sc.cur = some b → gatedCtx s p 240 (planeOf s p b.plane).ctx = false →
    (∀ cause, b.exc = some cause → exec .blockCommit s = .next (failBlock s p b cause b.excInfo)) ∧
    (b.exc = none → 2 ≤ b.exits.length → exec .blockCommit s = fails) ∧
    (b.exc = none → b.exits.length ≤ 1 → (blockDone s p b = false ∨ blockWaits s p b = true) →
      exec .blockCommit s = .refused .notEnabled) ∧
    (b.exc = none → b.exits.length ≤ 1 → blockDone s p b = true → blockWaits s p b = false → holdsTret b = false →
      (isFinal s p b = true → exec .blockCommit s = .next (commitBlock s p b none)) ∧
      (isFinal s p b = false →
        (∀ k lit x, b.exits = [(k, 0x33, lit, false, x)] → lit.toNat % 2 ^ 16 < n →
          exec .blockCommit s = goes (lit.toNat % 2 ^ 16) sc.stack) ∧
        (∀ k lit x, b.exits = [(k, 0x33, lit, true, x)] → x.toNat % 2 ^ 16 < n → exec .blockCommit s = goes (x.toNat % 2 ^ 16) sc.stack) ∧
        (∀ k lit o x, b.exits = [(k, 0x34, lit, o, x)] → lit.toNat % 2 ^ 16 < n → sc.stack.length < 16 →
          exec .blockCommit s = goes (lit.toNat % 2 ^ 16) (lit.toNat / 2 ^ 16 :: sc.stack)) ∧
        (∀ k lit o x, b.exits = [(k, 0x34, lit, o, x)] → 16 ≤ sc.stack.length → exec .blockCommit s = fails) ∧
        (∀ k lit o x t rest, b.exits = [(k, 0x35, lit, o, x)] → sc.stack = t :: rest → t < n → exec .blockCommit s = goes t rest) ∧
        (∀ k lit o x, b.exits = [(k, 0x35, lit, o, x)] → sc.stack = [] → exec .blockCommit s = fails))) ∧
    (b.exc = none → b.exits.length ≤ 1 → blockDone s p b = true → blockWaits s p b = false → holdsTret b = true →
      (tretBad s p b = true → exec .blockCommit s = .next (failBlock s p b cILLEGAL (tretInfo b))) ∧
      (tretBad s p b = false → exec .blockCommit s = goes sc.next sc.stack))

/-- 02 R53; log 86: the two counting conditions of a commit, and that of a final block, for which the model counts no NOP, a record that
never fires (09 R192). -/
def CommitConditions : Prop :=
  ∀ (s : State) (p : Nat) (b : Block),
    (blockDone s p b = true ↔
      (∀ i < 32, bit (headerMask b) i = true → i ∈ b.lsids) ∧ b.writes.length = headerWrites b ∧
      (isFinal s p b = false → b.exits.length = 1) ∧ (isFinal s p b = true → ∀ n < blockLen b, n ∈ b.fired ∨ Machine.opOf (blockRec s p b (n + 1)) = 0))

/-- 20 R396 to R398: taking a trap saves the block to return to in TRETB (the block that failed; after a final block 0xFFFF; else the next
block), writes the cause, the kind and the code to TSTAT with THAND, and goes to the handler's block; the q registers, the call stack
and BTAG stay. TRET clears THAND and goes to the block of TRETB, or rests at 0xFFFF. -/
def TrapEntryAndReturn : Prop :=
  ∀ (s : State) (p : Nat) (d : Due), d.cause < 256 → d.kind < 4 → d.code < 2 ^ 16 →
    let sc := scribeAt s p
    (∃ t : Scribe, takeTrap s p d = setScribe s p t ∧
      t.tstat.toNat = put d.cause 56 + put d.kind 54 + put 1 53 + d.code ∧ thand t = true ∧
      t.next = sc.tvec.toNat % 2 ^ 16 ∧ t.resting = false ∧
      (∀ c i blk, sc.exact = some (c, i, blk) → blk < 2 ^ 16 → t.tretb.toNat = blk) ∧
      (sc.exact = none → sc.resting = true → t.tretb = 0xFFFF) ∧
      (sc.exact = none → sc.resting = false → sc.next < 2 ^ 16 → t.tretb.toNat = sc.next) ∧
      t.q = sc.q ∧ t.stack = sc.stack ∧ t.btag = sc.btag ∧ t.tvec = sc.tvec ∧ t.tenable = sc.tenable) ∧
    (∃ u : Scribe, trapReturn s p = setScribe s p u ∧
      thand u = false ∧ u.q = sc.q ∧ u.stack = sc.stack ∧ u.tretb = sc.tretb ∧
      (sc.tretb.toNat % 2 ^ 16 = 0xFFFF → u.resting = true) ∧
      (sc.tretb.toNat % 2 ^ 16 ≠ 0xFFFF → u.resting = false ∧ u.next = sc.tretb.toNat % 2 ^ 16))

/-- 20 R397: the order in which pending traps are taken: an exact one, then TRAP, then LATE, then the mailbox's first entry of the
context whose cause TENABLE admits. -/
def TrapsAreOrdered : Prop :=
  ∀ (s : State) (p : Nat),
    let sc := scribeAt s p
    let ctx := (planeOf s p ((panelAt s p).scribePlane.getD 0)).ctx
    (∀ cause info blk, sc.exact = some (cause, info, blk) →
      trapDue s p = some { cause := cause, kind := 0, code := info % 2 ^ 16 }) ∧
    (∀ code, sc.exact = none → sc.trapPend = some code → trapDue s p = some { cause := 15, kind := 1, code := code % 2 ^ 16 }) ∧
    (sc.exact = none → sc.trapPend = none → sc.latePend = true → sc.late ≠ 0 → trapDue s p = some { cause := 11, kind := 2, code := 0 }) ∧
    (sc.exact = none → sc.trapPend = none → sc.latePend = false →
      (∀ e, (boxAt s p).entries.find? (fun e => e.ctx == ctx && bit sc.tenable.toNat e.cause) = some e →
        trapDue s p = some { cause := e.cause, kind := 3, code := e.info % 2 ^ 16 }) ∧
      ((∀ e ∈ (boxAt s p).entries, ¬ (e.ctx = ctx ∧ bit sc.tenable.toNat e.cause = true)) → trapDue s p = none))

/-! ## Memory records and the memory system -/

/-- 05 R107; 11 R235, R239; 02 R52, R53: a match of a memory record whose take-in checks pass makes one access and sends it to its
ordering site; in a block a store-class record is counted by its LSID and, but for MNOP, held to commit. -/
def MemoryRecordsIssueAnAccess : Prop :=
  ∀ (r : RecM) (s : State),
    let c := s.cur
    let s1 := { s with fresh := s.fresh + 1 }
    let acc := fun (op : Nat) =>
      let ps := portSet (basePorts op) r.ctl
      ({ id := s.fresh, op := op, r := r, p := c.p, site := c.site, plane := c.plane, node := c.node, tag := c.tag
         ctx := matchCtx s c.p c.plane c.tag, a := portTok? c 0, b := portTok? c 1, c := portTok? c 2
         isNull := anyNull c ps || predFalse r.ctl c, born := s.cycle, late := c.late } : Access)
    let wait := fun (t : State) (a : Access) =>
      setObuf t c.p r.osite.toNat { obufAt t c.p r.osite.toNat with waiting := (obufAt t c.p r.osite.toNat).waiting ++ [a] }
    let counted := fun (b : Block) => { b with lsids := b.lsids ++ [r.lsid.toNat] }
    let load := fun (op : Nat) (i : Instr) => hasPorts c (portSet (basePorts op) r.ctl) = true → memBad s op r = none →
      exec i s = .next (wait s1 (acc op))
    let store := fun (op : Nat) (i : Instr) => hasPorts c (portSet (basePorts op) r.ctl) = true → memBad s op r = none →
      ((c.site ≠ 240 ∨ c.late = true) → exec i s = .next (wait s1 (acc op))) ∧
      (∀ b, c.site = 240 → c.late = false → (scribeAt s c.p).cur = some b →
        exec i s = .next (setScribe s1 c.p { scribeAt s c.p with
          cur := some { counted b with stores := b.stores ++ [acc op] } }))
    load 0x80 (.ld r) ∧ load 0x82 (.ldx r) ∧ load 0x93 (.ldp r) ∧ load 0x85 (.fence r) ∧ load 0x86 (.order r) ∧
    store 0x81 (.st r) ∧ store 0x83 (.stx r) ∧ store 0x87 (.aadd r) ∧ store 0x88 (.amin r) ∧ store 0x89 (.amax r) ∧
    store 0x8A (.aand r) ∧ store 0x8B (.aor r) ∧ store 0x8C (.axor r) ∧ store 0x8D (.axchg r) ∧ store 0x8E (.acas r) ∧
    store 0x90 (.wcfg r) ∧ store 0x91 (.wfull r) ∧ store 0x92 (.wempty r) ∧ load 0x94 (.promote r) ∧
    (hasPorts c (portSet [0] r.ctl) = true → memBad s 0x84 r = none →
      ((c.site ≠ 240 ∨ c.late = true) → exec (.mnop r) s = .next (wait s1 (acc 0x84))) ∧
      (∀ b, c.site = 240 → c.late = false → (scribeAt s c.p).cur = some b → exec (.mnop r) s =
        .next (wait (setScribe s1 c.p { scribeAt s c.p with cur := some (counted b) }) (acc 0x84)))) ∧
    (hasPorts c (portSet [0, 1] r.ctl) = true → memBad s 0x8F r = none → (c.site ≠ 240 ∨ c.late = true) →
      anyNull c (portSet [0, 1] r.ctl) = false → predFalse r.ctl c = false →
      exec (.acc r) s = .next (wait s1 (acc 0x8F)))

/-- 08 R168, R179, 11 R235, R236, 20 R401: what a memory record may not hold. A format or field that is not admitted posts
ILLEGAL_OP, a physical address of a user context PERMISSION, a poisoned address POISON; nothing is sent to an ordering site. -/
def MemoryRecordsAreChecked : Prop :=
  ∀ (r : RecM) (s : State) (op : Nat) (i : Instr),
    (op, i) ∈ [(0x80, Instr.ld r), (0x81, .st r), (0x82, .ldx r), (0x83, .stx r), (0x87, .aadd r), (0x8E, .acas r)] →
    let c := s.cur
    hasPorts c (portSet (basePorts op) r.ctl) = true →
    ((r.d1lo ≠ 0 ∨ r.ctl.lituse ≠ 0 ∨ r.space = 3 ∨ 6 ≤ r.scope.toNat ∨
        (isWell r.osite.toNat = false ∧ isEau r.osite.toNat = false) ∨
        (isWell r.osite.toNat = false ∧ r.space = 0) ∨ 14 ≤ r.fmt.toNat ∨
        (c.site ≠ 240 ∧ r.lsid ≠ 0)) → exec i s = .next (faultCur s c cILLEGAL 0)) ∧
    (∀ k, memBad s op r = some k → exec i s = .next (faultCur s c k 0)) ∧
    (memBad s op r ≠ some cILLEGAL → r.space = 2 → privOf s (matchCtx s c.p c.plane c.tag) = 0 →
      exec i s = .next (faultCur s c cPERMISSION 0)) ∧
    (memBad s op r ≠ some cILLEGAL → (r.space ≠ 2 ∨ privOf s (matchCtx s c.p c.plane c.tag) ≠ 0) →
      (portTok c 0).poison = true → (portTok c 0).null = false → exec i s = .next (faultCur s c cPOISON 0))

/-- 05 R108: the release rule. A record of a tag with no open chain is released only with SEQ 0; one of an open chain
when its PREV names the record released last (SEQ not 0) or that record's NEXT names its SEQ. -/
def OrderBufferReleasesInChainOrder : Prop :=
  ∀ (s : State) (a : Access),
    let p := s.sel.p
    let site := s.sel.site
    let o := obufAt s p site
    o.waiting[s.sel.k]? = some a → s.sel.k < 64 → gatedCtx s p site a.ctx = false →
    o.released.any (fun b => b.tag == a.tag && (b.heldFault || (b.op == 0x85 && !b.isNull))) = false →
    let rest := dropAt o.waiting s.sel.k
    let chain := fun (old : List Nat) (disc : Bool) =>
      ({ tag := a.tag, last := some (a.r.seq.toNat, a.r.next.toNat)
         outst := old ++ [a.id], closed := a.r.next == 0xFE, discard := disc
         hold := if a.op = 0x85 then some a.id else none } : Chain)
    let go := fun (cs : List Chain) (a' : Access) => Host.Outcome.next (φ := Fault) (ρ := Refusal)
      (advance (settleOrders (setObuf s p site { chains := cs, waiting := rest, released := o.released ++ [a'] }) p site) p site)
    (openChain o a.tag = none →
      (a.r.seq = 0 → (o.chains.filter (fun c => !c.closed)).length < 32 →
        exec .orderBufferRelease s = go (o.chains ++ [chain [] false]) { a with discard := false }) ∧
      (a.r.seq ≠ 0 → exec .orderBufferRelease s = .refused .notEnabled)) ∧
    (∀ j c seq next, openChain o a.tag = some j → o.chains[j]? = some c → c.last = some (seq, next) →
      ((a.r.seq ≠ 0 ∧ a.r.prev.toNat = seq) ∨ a.r.seq.toNat = next →
        exec .orderBufferRelease s = go (setAt o.chains j (chain c.outst c.discard))
          { a with isNull := a.isNull || c.discard, discard := c.discard }) ∧
      (¬ ((a.r.seq ≠ 0 ∧ a.r.prev.toNat = seq) ∨ a.r.seq.toNat = next) →
        exec .orderBufferRelease s = .refused .notEnabled))

/-- 04 R83, R88, R89; 11 R237, R247, R248: what a released access does at a well that its context may use. An ST to an operand store or
line buffer whose buffers are empty sends its sectors to the well's write generator, an LD from full ones to its read generator (the
bits are those that stood when the cycle began); an ST to a FIFO with room appends an entry, an LD removes the oldest; WFULL and WEMPTY
move their bit. -/
def WellAccessPerforms : Prop :=
  ∀ (s : State) (a : Access),
    let w := s.sel.site
    let o := obufAt s s.sel.p w
    let x := wellAt s a.p w
    o.released[s.sel.k]? = some a → a.p = s.sel.p → a.r.osite.toNat = w → isWell w = true → isSkew s a.p w = false →
    a.isNull = false → a.heldFault = false → started a = false → canPerform o a = true → wellAdmits s a = true →
    x.pend.any (fun c => c.plane == some a.plane) = false → a.r.ord.getLsbD 1 = false →
    (a.r.space = 0 → (wellMode x = 1 ∨ wellMode x = 3) →
      (List.range (elemCount a)).any (fun j => decide (524288 ≤ rawAddr a j)) = false → misaligned a = none →
      (bytePlan a).find? (fun y => decide (bufCount x * bufBytes x ≤ y.2)) = none → planSectors a ≠ [] →
      let a' : Access := { a with left := some (planSectors a) }
      let out := fun (arb : Nat) => Host.Outcome.next (φ := Fault) (ρ := Refusal) { putAccess s a' with
        reqs := s.reqs ++ (planSectors a).map (fun sec => pieceReq s a' sec (32 * sec) 0 [arb]) }
      (a.op = 0x81 → (bufsOf x a).any (fun i => (fullSeen s x).contains i) = false → exec .wellAccess s = out (arbWell a.p w)) ∧
      (a.op = 0x80 → (bufsOf x a).any (fun i => !(fullSeen s x).contains i) = false → exec .wellAccess s = out (arbRead a.p w))) ∧
    (a.r.space = 0 → wellMode x = 2 →
      (∀ b, a.op = 0x81 → a.b = some b → (b.lanes.length + 7) / 8 ≤ fifoFree x → accPred a = none →
        exec .wellAccess s = .next (finishAccess (setWell s a.p w { x with fifo := x.fifo ++
          [{ lanes := b.lanes, ty := b.ty, null := b.null, poison := b.poison, eor := b.eor }] }) a (ackVal a.tag 0) true)) ∧
      (∀ e rest, a.op = 0x80 → x.fifo = e :: rest →
        exec .wellAccess s = .next (finishAccess (setWell s a.p w { x with fifo := rest })
          { a with poison := a.poison || e.poison }
          { tag := a.tag, ty := e.ty, lanes := e.lanes, null := e.null, eor := e.eor } true))) ∧
    (wellMode x = 3 → laneN (aLanes a) 0 < bufCount x →
      let i := laneN (aLanes a) 0
      let was := if x.fullWas.1 = s.cycle + 1 then x.fullWas else (s.cycle + 1, x.full)
      (a.op = 0x92 → exec .wellAccess s =
        .next (finishAccess (setWell s a.p w { x with full := x.full.filter (· != i), fullWas := was }) a (ackVal a.tag 0) true)) ∧
      (a.op = 0x91 → x.full.contains i = false → exec .wellAccess s =
        .next (finishAccess (setWell s a.p w { x with full := insBy (fun a b => decide (a < b)) i x.full, fullWas := was }) a (ackVal a.tag 0) true)))

/-- 04 R83; 05 R103; 11 R237, R238: a generator of a well that serves a sector of an access performs that sector: it stores the
sector's bytes, or reads them, and no other byte of any well changes; with its last sector the access is performed. -/
def WellSectorsArePerformed : Prop :=
  ∀ (s : State) (q : Req) (i sec pa : Nat) (a : Access),
    let p := a.p
    let w := ositeOf a
    let arb := s.sel.k
    (arb = arbWell p w ∨ arb = arbRead p w) → p < 256 → w < 256 → isWell w = true →
    tgetD s.served (arb * 128 + 127) 0 ≠ s.cycle + 1 → choose s arb = some i → s.reqs[i]? = some q →
    q.kind = .piece p w a.id sec pa → q.path = [arb] → pieceAccess s p w a.id = some a →
    (wellMode (wellAt s p w) = 1 ∨ wellMode (wellAt s p w) = 3) →
    let plan := (bytePlan a).filter (fun y => y.2 / 32 == sec)
    let t := noteRead (noteServed s arb q) arb q
    (a.op = 0x81 → exec .arbiterService s = .next (pieceEnd (dropReq (putAccess (wellStore t p w
      (plan.map (fun y => (y.2, dataByte a (bLanes a) y.1))) ((a.b.map (·.poison)).getD false)) a) i) p w a.id sec)) ∧
    (a.op = 0x80 → exec .arbiterService s = .next (pieceEnd (dropReq (putAccess t (readInto a
      (plan.map (fun y => (y.1, mread s.wmem (wellAddr p w y.2)))) (plan.any (fun y => tgetD s.wbad (wbadKey p w y.2) false)))) i)
      p w a.id sec)) ∧
    (∀ (u : State) (a' : Access), pieceAccess u p w a.id = some a' → a'.op ≠ 0x8F → a'.left = some [sec] →
      let a'' : Access := { a' with left := some [] }
      pieceEnd u p w a.id sec = advance (finishAccess u a'' (accValue a'') a'.cond) p w)

/-- 04 R87, R88; 02 R38: an access of a context that does not own the well's owner posts TAG_RANGE, one to a well of MODE 0 or 7
ILLEGAL_OP, whatever it is. -/
def WellAccessFaults : Prop :=
  ∀ (s : State) (a : Access),
    let w := s.sel.site
    let o := obufAt s s.sel.p w
    o.released[s.sel.k]? = some a → a.p = s.sel.p → a.r.osite.toNat = w → isWell w = true → isSkew s a.p w = false →
    a.isNull = false → isOrdering a.op = false → a.op ≠ 0x90 → a.heldFault = false → started a = false →
    canPerform o a = true → (wellAt s a.p w).pend.any (fun c => c.plane == some a.plane) = false →
    (wellAdmits s a = false → exec .wellAccess s = .next (accFault s a cTAG 0)) ∧
    (wellAdmits s a = true → (wellMode (wellAt s a.p w) = 0 ∨ wellMode (wellAt s a.p w) = 7) →
      exec .wellAccess s = .next (accFault s a cILLEGAL 0))

/-- 11 R238, R240: bytes stored in a well read back, little-endian positions as planned, and no other byte of any well changes; of
several bytes for one address the last stays. -/
def WellStoreChangesItsBytesOnly : Prop :=
  ∀ (s : State) (p w : Nat) (bs : List (Nat × Byte)) (poison : Bool), memWf s.wmem = true →
    let t := wellStore s p w bs poison
    memWf t.wmem = true ∧ t = { s with wmem := t.wmem, wbad := t.wbad } ∧
    (∀ addr, (∀ y ∈ bs, wellAddr p w y.1 ≠ addr) → mread t.wmem addr = mread s.wmem addr) ∧
    (∀ y ∈ bs, (bs.filter (fun z => z.1 == y.1)).length = 1 → mread t.wmem (wellAddr p w y.1) = y.2)

/-- 00 R2: reading after writing one byte of memory; the canonical form is kept, and equal contents are equal lists. -/
def MemoryReadsWhatWasWritten : Prop :=
  ∀ (m : List Host.Cell), memWf m = true →
    (∀ a b, memWf (mwrite m a b) = true ∧ ∀ x, mread (mwrite m a b) x = if x = a then b else mread m x) ∧
    (∀ a bs, memWf (mwrites m a bs) = true ∧ mreads (mwrites m a bs) a bs.length = bs ∧
      ∀ x, (x < a ∨ a + bs.length ≤ x) → mread (mwrites m a bs) x = mread m x) ∧
    (∀ m', memWf m' = true → (∀ a, mread m a = mread m' a) → m = m')

/-- 04 R86, R247: an accepted configuration word takes effect once nothing of the well is pending: the word and its owner stand,
the full/empty bits, pointers, FIFO, slots and cavities are cleared, and the bytes stay; what waits for a cavity there is tested again,
and the WCFG is acknowledged then. -/
def ConfigurationTakesEffect : Prop :=
  ∀ (s : State) (pc : PendCfg) (rest : List PendCfg),
    let p := s.sel.p
    let w := s.sel.site
    let x := wellAt s p w
    x.pend = pc :: rest → wellMode x ≠ 5 → x.frames = [] → x.returns = [] → x.slots.any (fun y => y.2.pin) = false →
    x.cavs.any (fun v => v.contribs.length == v.hi - v.lo) = false →
    wellPending s p w pc = false → s.pins.any (fun y => y.cur.p == p && y.w == w && y.began) = false →
    let s1 := wakePanel (setWell s p w { x with cfg := pc.word, owner := some pc.ctx, pend := rest, full := [], writer := 0, reader := 0
                                                fifo := [], slots := [], cavs := [], left := none, fullWas := (0, []) })
      p (fun y => y == .cavity p w)
    (pc.acc = none → exec .wcfgTakeEffect s = .next s1) ∧
    (∀ a, pc.acc = some a → exec .wcfgTakeEffect s = .next (finishAccess s1 a (ackVal a.tag 0) true))

/-- 11 R245, R246: the combiner applies an addend whose index is next in its slot, opens a slot for the first of a base, and
closes it after the last; an addend ahead of its turn is staged without changing the location, and one whose index is not below its
count opens its slot and posts ILLEGAL_OP. -/
def AddendsApplyInIndexOrder : Prop :=
  ∀ (s : State) (place addr : Nat) (a : Access), s.addends[s.sel.k]? = some (place, addr, a) → a.racc = none → a.reply = none →
    let cnt := countWord a % 65536
    let i := addendIdx s a
    let base := addendBase s a
    let s0 := { s with addends := dropAt s.addends s.sel.k }
    let here := s.accSlots.filter (fun x => x.place == place)
    idxOf (slotIs place addr base) s.accSlots = none → here.length < 16 →
    (cnt ≤ i → exec .accAddend s = .next (advance (accFault { s0 with accSlots := s.accSlots ++
        [{ place := place, addr := addr, base := base, next := 0, cnt := cnt, staged := [] }] } a cILLEGAL (elemAddr a 0))
      a.p (ositeOf a))) ∧
    (0 < i → i < cnt → (here.map (fun x => x.staged.length)).foldl (· + ·) 0 < 64 →
      exec .accAddend s = .next { s0 with accSlots := s.accSlots.filter (fun x => !slotIs place addr base x) ++
        [{ place := place, addr := addr, base := base, next := 0, cnt := cnt, staged := [(i, a)] }] }) ∧
    (i = 0 → 0 < cnt →
      let y := applyAddend s0 place a
      let t := ackAddend y.1 y.2.1 0 cnt y.2.2
      let others := t.accSlots.filter (fun x => !slotIs place addr base x)
      exec .accAddend s = .next { t with accSlots := if cnt = 1 then others else others ++
        [{ place := place, addr := addr, base := base, next := 1, cnt := cnt, staged := [] }] })

/-- 04 R90, R95; 06 R130, R131; 18 R360, R365: a fill asks for a sector that an access must hold and its window has not, a slot taken for
its page; a missed sector is fetched and its request goes on; an arbiter serves the request it chooses once a cycle; a walk installs
its leaf. -/
def FillsServiceAndWalks : Prop :=
  ∀ (s : State),
    (∀ (a : Access) (sec : Nat) (t : State) (slot : Nat),
      let p := s.sel.p
      let w := s.sel.site
      let base := paOfGa (placeAt a (32 * sec) / 4096 * 4096)
      (obufAt s p w).released[s.sel.k]? = some a → wellMode (wellAt s p w) = 5 → a.combining = false →
      (a.left.getD []).find? (fun k => mustHold a k && (slotHolds (wellAt s p w) k).isNone && !filling s p w k) = some sec →
      takeSlot s p w (sec / 128) base = some (t, slot) →
      exec .pageWindowFill s = .next { t with reqs := t.reqs ++ [{
        kind := .fill p w (sec / 128) (sec % 128), path := [arbBank (dieOf p) (gaOf t (base + 32 * (sec % 128))), arbWell p w]
        born := t.cycle, ctx := a.ctx, issuer := p, addr := base + 32 * (sec % 128), ctag := 64, cls := windowClass (wellAt t p w) }] }) ∧
    (∀ (q : Req) (f : Nat) (rest : List Nat) (p site id sec pa : Nat), s.reqs[s.sel.k]? = some q → q.path = f :: rest → f / 65536 = 6 →
      q.kind = .piece p site id sec pa → q.data = none →
      let ga := gaOf s q.addr
      lineRoom s (f % 65536) ga = true → (remote ga || lineRoom s (homeDie ga) ga) = true →
      let s1 := fetchL2 s (f % 65536) ga q.ctx (reqTag s q)
      exec .l2Fill s = .next { s1 with reqs := setAt s1.reqs s.sel.k { q with path := rest } }) ∧
    (∀ (i : Nat) (q : Req), choose s s.sel.k = some i → s.reqs[i]? = some q →
      (s.sel.k / 65536 = 2 ∨ tgetD s.served (s.sel.k * 128 + 127) 0 ≠ s.cycle + 1) →
      exec .arbiterService s = .next (serve (noteServed s s.sel.k q) s.sel.k i q)) ∧
    (tgetD s.served (s.sel.k * 128 + 127) 0 = s.cycle + 1 → s.sel.k / 65536 ≠ 2 →
      exec .arbiterService s = .refused .notEnabled) ∧
    (∀ (wk : Walk) (leaf : Word64), s.walks[s.sel.k]? = some wk → wk.fin = some (.leaf leaf) →
      let s0 := { s with walks := dropAt s.walks s.sel.k }
      let s1 := tlbInstall s0 wk.ctx wk.p wk.site wk.va leaf
      exec .pageWalk s = .next (s1.obufs.foldl (fun s (o : Nat × OBuf) => advance s (o.1 / 256) (o.1 % 256)) s1))

/-! ## Transfers, progress counters, completion tags and scale tokens -/

/-- 11 R249 to R251; 02 R53; 20 R401: a transfer record in a block is held to commit; outside one it waits for its completion tag to be
free, and then sets the tag's BUSY bit, clears DONE and LATE, and emits the tag number; a transfer of no lines needs one empty
request. A poisoned or faulty descriptor faults. -/
def TransfersIssue : Prop :=
  ∀ (r : RecT) (s : State) (op : Nat) (i : Instr),
    (op, i) ∈ [(opXfer, Instr.xfer r), (opXfers, .xfers r), (opPref, .pref r)] →
    r.rsv = 0 → Supplied s r.ctl [0] →
    let c := s.cur
    let ctx := matchCtx s c.p c.plane c.tag
    let sc := scribeAt s c.p
    ((portTok c 0).poison = true → exec i s = .next (faultCur s c cPOISON 0)) ∧
    ((portTok c 0).poison = false →
      (∀ b, InBlock s b → ctagTaken s c.p r.ctag.toNat = false → (shiftDesc s c (portTok c 0).lanes).isSome = true →
        exec i s = .next (held s b i)) ∧
      (ActsNow s → tagFree s c.p r.ctag.toNat = false → exec i s = .next (waitOn s c .done)) ∧
      (∀ d, ActsNow s → tagFree s c.p r.ctag.toNat = true → shiftDesc s c (portTok c 0).lanes = some d →
        (descBad s c.p ctx op r d = true → exec i s = .next (faultCur s c cILLEGAL 0)) ∧
        (descBad s c.p ctx op r d = false →
          exec i s = .next (issueXfer s c op r) ∧
          (r.len = 0 → ∃ x : Xfer, x.id = s.fresh ∧ x.op = op ∧ x.r = r ∧ x.desc = d ∧ x.ctx = ctx ∧ x.doneCount = 0 ∧
            x.p = c.p ∧ (foreignWell s x = false →
              let bit_ : Word64 := 1 <<< r.ctag.toNat
              let s1 := setScribe s c.p { setLate sc (sc.late &&& ~~~bit_) with busy := sc.busy ||| bit_, done := sc.done &&& ~~~bit_ }
              let s2 := emitRes { s1 with fresh := s.fresh + 1, xfers := s.xfers ++ [x] } c (formT r) 6
                (both { tag := c.tag, ty := 6, lanes := [r.ctag.setWidth 32] })
              exec i s = .next { s2 with reqs := s2.reqs ++
                [{ kind := .xferSector s.fresh 0 0, path := [], born := s.cycle, ctx := ctx, issuer := c.p, addr := 0
                   ctag := r.ctag.toNat }] })))))

/-- 11 R250; 21 R404: a transfer's sector is written where the last stage of its path serves it; that it is written is known in a later
cycle, and with the last of its sectors the completion of its tag comes; one of a stopped transfer is dropped; the empty request of a
transfer of no lines completes in a later cycle. -/
def TransferSectorsComplete : Prop :=
  ∀ (s : State) (q : Req) (x : Xfer) (id row k : Nat), q.kind = .xferSector id row k → xferOf s id = some x →
    (s.reqs[s.sel.k]? = some q → q.path = [] →
      let s1 := dropReq s s.sel.k
      (x.stopped = true → exec .transferSectorDone s = .next (sweepXfer s1 id)) ∧
      (∀ a dev, x.stopped = false → x.arr = some (a, dev) →
        exec .transferSectorDone s = .next { s1 with arrivals := s1.arrivals ++ [a] }) ∧
      (x.stopped = false → x.arr = none → x.r.len = 0 → q.born < s.cycle →
        exec .transferSectorDone s = .next (sectorDone s1 id)) ∧
      (x.stopped = false → x.arr = none → x.r.len ≠ 0 → s.cycle < q.due → exec .transferSectorDone s = .refused .notEnabled) ∧
      (x.stopped = false → x.arr = none → x.r.len ≠ 0 → q.due ≤ s.cycle →
        let last := decide (xTotal x ≤ x.doneCount) && (xferReqs s1 id).isEmpty
        exec .transferSectorDone s = .next (if last then
          tagDone { s1 with xfers := s.xfers.filter (fun y => y.id != id) } x.p x.r.ctag.toNat true else s1))) ∧
    (∀ i bs bad, choose s s.sel.k = some i → s.reqs[i]? = some q → q.path = [s.sel.k] → s.sel.k / 65536 = 0 →
      tgetD s.served (s.sel.k * 128 + 127) 0 ≠ s.cycle + 1 → q.data = some (bs, bad) → x.stopped = false → x.arr = none →
      let t := noteRead (noteServed s s.sel.k q) s.sel.k q
      exec .arbiterService s = .next (xferWrite { t with reqs := setAt t.reqs i { q with path := [], due := s.cycle + 1 } }
        x q bs bad))

/-- 06 R123; 11 R252; 21 R403: PGINIT allocates a counter with value a[0] and RATE and PRIOR a[1], or frees one that its colour
holds, in a cycle whose pulse is still to come after the pulse; PGADV adds to the value and saturates ACNT at 4095; PGREAD sends the words of the cycle's start. A counter of another
colour is illegal to PGINIT, one of another context forbidden to PGADV and PGREAD. -/
def ProgressCounters : Prop :=
  ∀ (r : RecS) (s : State), r.obj.toNat < 64 → r.cf = 0 → Supplied s r.ctl [0] →
    let c := s.cur
    let a := portTok c 0
    let k := r.obj.toNat
    let x := pgAt s c.p k
    let y := pgStamp s x
    let ctx := matchCtx s c.p c.plane c.tag
    let pass := fun (t : State) => Host.Outcome.next (φ := Fault) (ρ := Refusal)
      (emitRes t c (formS r) a.ty (both (moved r.ctl c c.tag a)))
    let v := laneN a.lanes 0
    let pr := laneN a.lanes 1 % 65536
    (r.sub = 0 → (pgHolder x = none ∨ pgHolder x = some (colourOf c.tag)) →
      (pulseDue s c.p = false → exec (.pginit r) s = pass (setPg s c.p k
        { y with value := v, lvalue := v, colour := colourOf c.tag, ctx := ctx, alloc := true, acnt := 0, prior := pr
                 rate := pr, hist := (s.cycle, v, pr) :: y.hist, pend := none })) ∧
      (pulseDue s c.p = true → exec (.pginit r) s = pass (setPg s c.p k
        { x with pend := some { alloc := true, value := v, prior := pr, colour := colourOf c.tag, ctx := ctx } }))) ∧
    (∀ col, r.sub = 0 → pgHolder x = some col → col ≠ colourOf c.tag → exec (.pginit r) s = .next (faultCur s c cILLEGAL 0)) ∧
    (r.sub = 1 → pgHolder x = some (colourOf c.tag) →
      (pulseDue s c.p = false →
        exec (.pginitFree r) s = pass (freeXfers (setPg s c.p k { stamp := y.stamp, was := y.was }) c.p k)) ∧
      (pulseDue s c.p = true → exec (.pginitFree r) s = pass (setPg s c.p k { x with pend := some {} }))) ∧
    (Clean s → x.alloc = true → x.ctx = ctx →
      let n := if r.sub = 0 then laneN a.lanes 0 else r.sub.toNat
      exec (.pgadv r) s = pass (setPg s c.p k
        { y with value := (x.value + n) % 2 ^ 32, acnt := min 4095 (x.acnt + n) })) ∧
    (Clean s → x.alloc = true → x.ctx ≠ ctx → exec (.pgadv r) s = .next (faultCur s c cPERMISSION 0)) ∧
    (let w := if x.stamp = s.cycle + 1 then x.was else ((pgWords x).1, (pgWords x).2, x.ctx)
     r.sub = 0 → bit w.2.1 51 = true → w.2.2 = ctx →
      exec (.pgread r) s = .next (emitRes s c (formS r) 7
        (both { tag := c.tag, ty := 7, lanes := wordsLanes [w.1, w.2.1] })))

/-- 06 R126, R136: a pulse, once in each cycle that P divides, moves RATE a quarter of the way to 16 × ACNT (truncated toward zero),
takes over the value as LVALUE, clears ACNT, and broadcasts, for each counter that it updates; a PGINIT of the same cycle takes effect
after it; no other counter changes, and nothing else but what a late transfer marks and a freed counter releases. -/
def PulsesUpdateCounters : Prop :=
  ∀ (s : State), s.cycle % pulseP s s.sel.p = 0 → (panelAt s s.sel.p).lastPulse ≠ s.cycle + 1 →
    ∃ t, exec .pulse s = .next t ∧ (panelAt t s.sel.p).lastPulse = s.cycle + 1 ∧
      (∀ k < 64, pulsed s (pgAt s s.sel.p k) = false → (pgAt s s.sel.p k).pend = none → pgAt t s.sel.p k = pgAt s s.sel.p k) ∧
      (∀ k < 64, ∀ y, (pgAt s s.sel.p k).pend = some y → (pgAt t s.sel.p k).pend = none ∧ (pgAt t s.sel.p k).alloc = y.alloc ∧
        (y.alloc = true → (pgAt t s.sel.p k).value = y.value ∧ (pgAt t s.sel.p k).lvalue = y.value ∧
          (pgAt t s.sel.p k).rate = y.prior ∧ (pgAt t s.sel.p k).acnt = 0)) ∧
      (∀ k < 64, pulsed s (pgAt s s.sel.p k) = true → (pgAt s s.sel.p k).pend = none →
        let x := pgAt s s.sel.p k
        let y := pgAt t s.sel.p k
        y.value = x.value ∧ y.lvalue = x.value ∧ y.acnt = 0 ∧ y.prior = x.prior ∧
        y.rate = ((x.rate : Int) + Int.tdiv (16 * (x.acnt : Int) - x.rate) 4).toNat) ∧
      t = { s with pgs := t.pgs, panels := t.panels, xfers := t.xfers, ctxs := t.ctxs, scribes := t.scribes }

/-- 11 R253: WAITANY sends a and the bits of its mask that are done once one is, WAITALL sends a once all are; FFREADY answers at its
test; CLR clears the bits that it sends. A record of a block tests at once and waits before that; one at a nib tests two cycles after it
issues, and its test does the same. -/
def CompletionWaits : Prop :=
  ∀ (r : RecN) (s : State),
    let step := fun (s : State) (c : Cur) (any go : Bool) (sent : Word64) (cond : Bool) =>
      let a := portTok c 0
      let v : Val := { tag := c.tag, ty := a.ty, lanes := a.lanes, eor := a.eor }
      let sc := scribeAt s c.p
      let s1 := if r.hi.getLsbD 0 = true ∧ go = true then setScribe s c.p { sc with done := sc.done &&& ~~~sent } else s
      emitRes s1 c (formN r) 7 (if any then { v0 := some v, v1 := some { tag := c.tag, ty := 7, lanes := wordsLanes [sent.toNat] } }
        else { v0 := some v, v1 := some v, cond := cond })
    let done := fun (c : Cur) => (scribeAt s c.p).done
    let m := fun (c : Cur) => waitMask r c
    (r.hi.toNat ≤ 1 → r.fmt = 0 → r.cf.toNat ≤ 1 → Takes s (formN r) (portTok s.cur 0).ty [0, 1] false →
      let c := s.cur
      (m c = 0 → exec (.waitany r) s = .next (faultCur s c cILLEGAL 0)) ∧
      (c.site ≠ 240 →
        (m c ≠ 0 → exec (.waitany r) s = .next (waitOn s c (.test (s.cycle + 2)))) ∧
        exec (.waitall r) s = .next (waitOn s c (.test (s.cycle + 2))) ∧
        exec (.ffready r) s = .next (waitOn s c (.test (s.cycle + 2)))) ∧
      (c.site = 240 →
        (m c ≠ 0 → done c &&& m c ≠ 0 → exec (.waitany r) s = .next (step s c true true (done c &&& m c) true)) ∧
        (m c ≠ 0 → done c &&& m c = 0 → exec (.waitany r) s = .next (waitOn s c (.test s.cycle))) ∧
        (done c &&& m c = m c → exec (.waitall r) s = .next (step s c false true (m c) true)) ∧
        (done c &&& m c ≠ m c → exec (.waitall r) s = .next (waitOn s c (.test s.cycle))) ∧
        exec (.ffready r) s = .next (step s c false (done c &&& m c == m c) (m c) (done c &&& m c == m c)))) ∧
    (∀ (p site : Nat) (x : Match),
      let c := waitCur p site x
      (decode x.word = .ok (.waitany r) → done c &&& m c ≠ 0 →
        waitStep s p site x = some (step s c true true (done c &&& m c) true)) ∧
      (decode x.word = .ok (.waitany r) → done c &&& m c = 0 → waitStep s p site x = none) ∧
      (decode x.word = .ok (.waitall r) → done c &&& m c = m c → waitStep s p site x = some (step s c false true (m c) true)) ∧
      (decode x.word = .ok (.waitall r) → done c &&& m c ≠ m c → waitStep s p site x = none) ∧
      (decode x.word = .ok (.ffready r) →
        waitStep s p site x = some (step s c false (done c &&& m c == m c) (m c) (done c &&& m c == m c))))

/-- 11 R254, R255; 03 R67: SCLEMIT of a nib puts one scale token for each lane onto the scale network, side and block in its
payload; the scale port turns the oldest waiting scale token into a data token of two lanes under the panel's injection
plane. -/
def ScaleTokensAreSent : Prop :=
  ∀ (s : State),
    (∀ (r : RecN), r.hi.toNat ≤ 1 → r.fmt = 5 → r.cf.toNat < 8 → r.ctl.lituse = 0 → badCtl [0] r.ctl = false →
      hasPorts s.cur (portSet [0] r.ctl) = true → anyBlock s.cur (portSet [0] r.ctl) = false →
      anyNull s.cur (portSet [0] r.ctl) = false → predFalse r.ctl s.cur = false →
      sclDestOk s.cur r.d0 = true → r.d1.site = 255 → emits r.ctl.emit0 true = true → r.d0.site ≠ 255 →
      s.cur.site < 240 → lanePred r.ctl s.cur = none → r.cf.toNat + (portTok s.cur 0).lanes.length ≤ 8 →
      exec (.sclemit r) s = .next { s with scaleNet := s.scaleNet ++
        (List.range (portTok s.cur 0).lanes.length).map (fun j =>
          { p := s.cur.p, tok := sclTok r s.cur r.d0 j }) }) ∧
    (∀ (x : ScaleTok) (rest : List ScaleTok) (k : Nat), (panelAt s s.sel.p).portQ = x :: rest →
      let pn := panelAt s s.sel.p
      let e := tgetD pn.sprt x.node 0
      let d := destOfBits (e.extractLsb' 0 16)
      let col := x.payload.toNat / 2 ^ 52
      let cx := ctxAt s (bits e.toNat 27 20)
      e.getLsbD 16 = true → isNib d.site.toNat = true → cx.colbase ≤ col → col ≤ cx.collim → pn.inj = some k →
      queueLen s s.sel.p 245 < 8 →
      exec .scalePortConvert s = .next (sendTok (setPanel s s.sel.p { pn with portQ := rest }) s.sel.p 245
        { tag := x.payload &&& 0xFFFFFFFFFFF00000, site := d.site, node := d.node, port := d.port, plane := BitVec.ofNat 2 k
          ty := 6, poison := x.poison
          lanes := [(x.payload &&& 0xFFFF).setWidth 32, ((x.payload >>> 16) &&& 0xF).setWidth 32] }))

/-! ## Systolic arrays -/

/-- 11 R256: SYSMODE in a block is held to commit; entering gives a new array over the rectangle, leaving removes it once no
complete pass is in progress, and each is acknowledged; a rectangle that cannot be taken, or names no array, faults. -/
def ArraysAreFormedAndLeft : Prop :=
  ∀ (r : RecN) (s : State), arrTyOk r.fmt = true → r.cf = 0 → (r.d0.site = 255 ∨ r.d0.site.toNat < 240) → s.cur.site = 240 →
    Supplied s r.ctl [0] → (portTok s.cur 0).poison = false →
    let c := s.cur
    (r.hi = 0 → sysBad s c false = true → exec (.sysmodeEnter r) s = .next (faultCur s c cILLEGAL 0)) ∧
    (r.hi = 1 → sysBad s c true = true → exec (.sysmodeLeave r) s = .next (faultCur s c cILLEGAL 0)) ∧
    (∀ b, InBlock s b →
      (r.hi = 0 → sysBad s c false = false → exec (.sysmodeEnter r) s = .next (held s b (.sysmodeEnter r))) ∧
      (r.hi = 1 → sysBad s c true = false → exec (.sysmodeLeave r) s = .next (held s b (.sysmodeLeave r)))) ∧
    (∀ y0 y1 x0 x1, c.late = true → sysRect s c = some (y0, y1, x0, x1) →
      (r.hi = 0 → enterBad s c.p y0 y1 x0 x1 = false → (cellSites y0 y1 x0 x1).any (mmaPending s c.p) = false →
        exec (.sysmodeEnter r) s = .next (sysAck { s with arrays := s.arrays ++
          [{ p := c.p, y0 := y0, y1 := y1, x0 := x0, x1 := x1, ty := r.fmt, ctx := matchCtx s c.p c.plane c.tag }] } c r)) ∧
      (∀ k, r.hi = 1 → arrayAt s c.p y0 y1 x0 x1 = some k → (s.arrays.getD k default).passes.any (fun q => q.complete) = false →
        exec (.sysmodeLeave r) s = .next (sysAck { s with arrays := dropAt s.arrays k } c r)))

/-- 11 R257, R258: WLOAD of a full chunk of the array's type writes the chunk that its second operand names into the buffer of its
cell and emits the chunk number; it waits while a pass still reads the buffer. -/
def WeightChunksLoad : Prop :=
  ∀ (r : RecN) (s : State) (k row q : Nat), r.hi.toNat ≤ 1 → arrTyOk r.fmt = true → r.cf = 0 → r.ctl.lituse ≠ 2 →
    Takes s (formN r) 6 [0, 1] true → cellOf s s.cur.p s.cur.site = some (k, row, q) →
    let c := s.cur
    let a := s.arrays.getD k default
    let t := portTok c 0
    let wb := r.hi.getLsbD 0
    let ch := if r.ctl.lituse = 1 then r.lit.toNat else laneN (portTok c 1).lanes 0
    r.fmt = a.ty → t.ty = a.ty → t.lanes.length = (if isBlockTy a.ty then 8 * blockLanes a.ty else 32) →
    ch < 32 * arrK a.ty / chunkElems a.ty → (r.ctl.lituse = 1 ∨ (portTok c 1).poison = false) →
      (reading a q wb = true → exec (.wload r) s = .next (waitOn s c (.acc c.p))) ∧
      (reading a q wb = false → exec (.wload r) s = .next (emitRes
        { s with arrays := setAt s.arrays k (loadChunk a row q wb ch c) } c (formN r) 6
        (both { tag := c.tag, ty := 6, lanes := [BitVec.ofNat 32 ch] })))

/-- 11 R259, R261; 26 R412: an MMA of a west-edge cell joins the pass of its tag as its row, a null or false-predicated one with no
products; it waits while the skew buffers are full; a second one of its row and tag faults, as does one of a cell off the west edge, whose tag's
pass is withheld. ACCIN appends a complete pass of its
column; ACCOUT waits for its run to reach its count and then emits the accumulator and ends the run. -/
def ArrayRecordsComplete : Prop :=
  ∀ (r : RecN) (s : State) (k row q : Nat), r.hi.getLsbD 3 = false → r.cf = 0 → r.ctl.lituse = 0 → badCtl [0] r.ctl = false →
    hasPorts s.cur (portSet [0] r.ctl) = true → r.hi.toNat % 8 < (layoutOf s s.cur.p s.cur.plane).length →
    cellOf s s.cur.p s.cur.site = some (k, row, q) →
    let c := s.cur
    let a := s.arrays.getD k default
    let t := portTok c 0
    let j := r.lit.toNat % 64
    let lev := r.hi.toNat % 8
    (r.lit.toNat < 128 → arrTyOk r.fmt = true → r.fmt = a.ty → q = 0 →
      let off := anyNull c (portSet [0] r.ctl) || predFalse r.ctl c
      let x : PassRow := { row := row, j := j, level := lev, wb := r.lit.getLsbD 6, site := c.site, node := c.node, plane := c.plane
                           tok := if off then none else some t, scales := if off then [] else c.scales }
      (rowFired a c.tag row = true → exec (.mma r) s = .next (sysSettle (faultCur s c cILLEGAL 0) c.p)) ∧
      (rowFired a c.tag row = false → (off = true ∨ (t.ty = a.ty ∧ t.lanes.length = sliceLanes a.ty)) →
        (skewFull s a c row j lev = true → exec (.mma r) s = .next (waitOn s c (.acc c.p))) ∧
        (skewFull s a c row j lev = false →
          exec (.mma r) s = .next (sysSettle (joinPass (noteMma s c.p c.site) c k x false) c.p)))) ∧
    (r.lit.toNat < 128 → arrTyOk r.fmt = true → q ≠ 0 →
      exec (.mma r) s = .next (sysSettle (withholdPass (faultCur s c cILLEGAL 0) c k) c.p)) ∧
    (row + 1 = nrowOf a → r.fmt = accTy a.ty → Takes s (formN r) r.fmt [0] false →
      (r.lit.toNat < 64 → t.ty = r.fmt → t.lanes.length = 32 →
        exec (.accin r) s = .next { s with arrays := setAt s.arrays k { a with passes := a.passes ++
          [{ tag := c.tag, j := j, level := lev, wb := false, plane := c.plane, rows := [], complete := true
             accin := some (q, { t with poison := curPoison c }), cols := [], colour := colourOf c.tag, born := s.cycle }] } }) ∧
      (r.lit.toNat < 2 ^ 24 → 0 < bits r.lit.toNat 23 8 →
        let acc := accAt a q j
        let base := setfld (layoutOf s c.p c.plane) c.tag lev 0
        ((acc.run ≠ some base ∨ acc.next ≠ bits r.lit.toNat 23 8) → exec (.accout r) s = .next (waitOn s c (.acc c.p))) ∧
        (acc.run = some base → acc.next = bits r.lit.toNat 23 8 →
          let v : Val := { tag := c.tag, ty := r.fmt, lanes := acc.v }
          let xs := destSends r.d0 r.ctl.emit0 (curPoison c || acc.poison) true false v (some v) ++
            destSends r.d1 r.ctl.emit1 (curPoison c || acc.poison) true false v (some v)
          xs.any (tooWide s c) = false →
          exec (.accout r) s = .next (wakePanel (sends
            { s with arrays := setAt s.arrays k (setAcc a q j { acc with run := none, poison := false }) } c xs) c.p
            (fun w => w == .acc c.p)))))

/-- 11 R260, 03 R77, R78: a complete pass whose turn it is at a column adds its rows' products in ascending row order to the 32
outputs of its accumulator, which starts a run from zeros at index 0; a pass whose turn it is not leaves everything. -/
def PassesUpdateInOrder : Prop :=
  ∀ (s : State) (a : SysArray) (x : Pass), s.arrays[s.sel.k]? = some a → a.passes[s.sel.num]? = some x →
    let q := s.sel.q
    let acc := accAt a q x.j
    let idx := passIdx s a x
    let base := passBase s a x
    (x.complete = true → (passCols a x).contains q = true → ((acc.run = none ∧ idx = 0) ∨ (acc.run = some base ∧ idx = acc.next)) →
      exec .arrayPassUpdate s =
        .next (sysSettle (wakePanel (passColumn s s.sel.k a s.sel.num q x) a.p (fun w => w == .acc a.p)) a.p) ∧
      (let b := (passColumn s s.sel.k a s.sel.num q x).arrays.getD s.sel.k default
       let acc' := accAt b q x.j
       let v0 : List Lane := if acc.run = none then List.replicate 32 0 else acc.v
       acc'.run = some base ∧ acc'.next = idx + 1 ∧
       acc'.v = (List.range 32).map (fun o => BitVec.ofNat 32 (outStep a x q o (v0.getD o 0)).1))) ∧
    (¬ ((acc.run = none ∧ idx = 0) ∨ (acc.run = some base ∧ idx = acc.next)) →
      exec .arrayPassUpdate s = .refused .notEnabled)

/-! ## Cavities and pace sets -/

/-- 12 R265, R267, R268: the first join of an index below n, at a well with room for the region and fewer than 8 cavities, records
the cavity with ROUND 1; a later index joins it while no round runs; each is acknowledged with its index. An index outside n or
outside its segment, a malformed segment word, a different descriptor or segment, and an index that has joined, fault. -/
def CavitiesAreJoined : Prop :=
  ∀ (r : RecS) (s : State) (seg1 : Bool), cavBad r.obj = false → r.sub = (if seg1 then 1 else 0) →
    AtWell s r (if seg1 then [0, 1] else [0]) 1 →
    let c := s.cur
    let w := r.d1.site.toNat
    let x := wellAt s c.p w
    let i := laneN (portTok c 0).lanes 0
    let b := (portTok c 1).lanes
    let run := exec (if seg1 then .cavjoinSegment r else .cavjoinLocal r) s
    let sg := segOf r.obj (if seg1 then some b else none)
    let lo := sg.1
    let hi := sg.2.1
    let fits : Prop := i < cavN r.obj ∧ (seg1 = true → segBad r.obj b = false ∧ lo ≤ i ∧ i < hi) ∧
      cavBase r.obj * 4096 + regionBytes (hi - lo) ≤ bufCount x * bufBytes x
    (cavAt x r.obj = none → fits → x.cavs.length < 8 →
      let v : Cavity := { desc := r.obj, lo := lo, hi := hi, seg := sg.2.2.1, last := sg.2.2.2.1, link := sg.2.2.2.2
                          ctx := matchCtx s c.p c.plane c.tag, joined := [i] }
      run = .next (objEmit (setRound (setWell s c.p w { x with cavs := x.cavs ++ [v] }) c.p w v 1) c r 6 (ackVal c.tag i))) ∧
    (∀ k, cavAt x r.obj = some k → fits →
      let v := x.cavs.getD k default
      v.desc = r.obj → (v.lo, v.hi, v.seg, v.last, v.link) = sg → v.joined.contains i = false →
        (cavBusy v = true → run = .next (waitOn s c (.cavity c.p w))) ∧
        (cavBusy v = false →
          run = .next (objEmit (setCav s c.p w k { v with joined := v.joined ++ [i] }) c r 6 (ackVal c.tag i)))) ∧
    ((cavN r.obj ≤ i ∨ (seg1 = true ∧ (segBad r.obj b = true ∨ i < lo ∨ hi ≤ i)) ∨ (cavAt x r.obj = none ∧ 8 ≤ x.cavs.length) ∨
        (∃ k, cavAt x r.obj = some k ∧ ((x.cavs.getD k default).desc ≠ r.obj ∨ (x.cavs.getD k default).joined.contains i = true))) →
      run = .next (faultCur s c cILLEGAL 0))

/-- 12 R268: a joined index leaves a cavity when no round runs and it has not contributed; the last index removes the
cavity; otherwise it waits. An index that has not joined faults. -/
def CavitiesAreLeft : Prop :=
  ∀ (r : RecS) (s : State), cavBad r.obj = false → r.sub = 2 → AtWell s r [0] 1 →
    let c := s.cur
    let w := r.d1.site.toNat
    let x := wellAt s c.p w
    let i := laneN (portTok c 0).lanes 0
    (cavAt x r.obj = none → exec (.cavjoinLeave r) s = .next (faultCur s c cILLEGAL 0)) ∧
    (∀ k, cavAt x r.obj = some k →
      let v := x.cavs.getD k default
      (v.joined.contains i = false → exec (.cavjoinLeave r) s = .next (faultCur s c cILLEGAL 0)) ∧
      (v.desc = r.obj → i < cavN r.obj → v.joined.contains i = true →
        let rest := v.joined.filter (fun j => j != i)
        ((cavBusy v = true ∨ hasContrib v i = true) → exec (.cavjoinLeave r) s = .next (waitOn s c (.cavity c.p w))) ∧
        (cavBusy v = false → hasContrib v i = false →
          exec (.cavjoinLeave r) s = .next (objEmit
            (if rest = [] then setWell s c.p w { x with cavs := dropAt x.cavs k } else setCav s c.p w k { v with joined := rest })
            c r 6 (ackVal c.tag i)))))

/-- 12 R269: a CAV of a joined index that has not contributed to this round stores its lanes in the entry of X of its
index and is held for the round; a second contribution of an index waits. A null contribution is empty in every lane. -/
def ContributionsAreGathered : Prop :=
  ∀ (r : RecS) (s : State) (k : Nat), cavBad r.obj = false → r.sub = 0 → objBad s s.cur r 1 = false → r.ctl.lituse = 0 →
    badCtl [0, 1] r.ctl = false → hasPorts s.cur (portSet [0, 1] r.ctl) = true → anyBlock s.cur (portSet [0, 1] r.ctl) = false →
    let c := s.cur
    let w := r.d1.site.toNat
    let x := wellAt s c.p w
    let v := x.cavs.getD k default
    let a := portTok c 0
    let b := portTok c 1
    let i := laneN b.lanes 0
    objForeign s c w = false → b.null = false → cavAt x r.obj = some k → v.desc = r.obj → v.joined.contains i = true →
    (a.null = true ∨ a.lanes.length ≤ cavW r.obj) →
      ((cavBusy v = true ∨ hasContrib v i = true) → exec (.cav r) s = .next (waitOn s c (.cavity c.p w))) ∧
      (cavBusy v = false → hasContrib v i = false →
        ∃ y : Contrib, y.idx = i ∧ y.tag = c.tag ∧ y.dest = r.d0 ∧ y.lanes.length = cavW r.obj ∧
          (a.null = true → ∀ l < cavW r.obj, y.lanes[l]? = some none) ∧
          (a.null = false → r.ctl.pred = false → ∀ l < cavW r.obj, y.lanes[l]? = some a.lanes[l]?) ∧
          exec (.cav r) s = .next (putEntry (setCav s c.p w k { v with contribs := v.contribs ++ [y] }) c.p w (cavX v i) y.lanes y.poison))

/-- 12 R264, R269, R270: a round whose every index has contributed runs its forward half once its carry is there (the first segment
needs none), writing the array P, and then its backward half, after which the next round gathers from nothing. In a cavity of
one segment nothing is stored outside the well. -/
def CavityRoundsRun : Prop :=
  ∀ (s : State) (v : Cavity),
    let p := s.sel.p
    let w := s.sel.site
    let k := s.sel.k
    (wellAt s p w).cavs[k]? = some v → v.stalled = false →
    (cavBusy v = false → exec .cavityRound s = .refused .notEnabled) ∧
    (cavBusy v = true → v.half = false → v.seg = 0 → exec .cavityRound s = .next (fwdHalf s p w k v (noCarry v)) ∧
      (v.last = true → (fwdHalf s p w k v (noCarry v)).mem = s.mem)) ∧
    (∀ pc, cavBusy v = true → v.half = false → v.seg ≠ 0 → v.pc = some pc → exec .cavityRound s = .next (fwdHalf s p w k v pc)) ∧
    (cavBusy v = true → v.half = true → v.last = true → exec .cavityRound s = .next (bwdHalf s p w k v (noCarry v)))

/-- 12 R266: a home well whose round waits for a carry and whose time to look has come reads the flag of its link area: while the
flag differs from ROUND it looks again 64 cycles later; a carry that is there is taken; a faulting access stalls the cavity. A link
area of another part is asked for its flag, once until the answer comes. -/
def CarriesArePolled : Prop :=
  ∀ (s : State) (v : Cavity) (up : Bool),
    let p := s.sel.p
    let w := s.sel.site
    let k := s.sel.k
    (wellAt s p w).cavs[k]? = some v → cavBusy v = true → v.stalled = false → v.poll ≤ s.cycle →
    ((up = false ∧ v.half = false ∧ v.seg ≠ 0 ∧ v.pc = none) ∨ (up = true ∧ v.half = true ∧ v.last = false ∧ v.sc = none)) →
    let at_ := v.link + 512 * v.seg + (if up then 256 else 0)
    let x := xlateNow s v.ctx p 240 1 at_ .read
    (∀ e, x.2 = .bad e → exec .cavityCarryPoll s = .next (cavStall x.1 p w k v e at_)) ∧
    (∀ pa cls, x.2 = .ok pa cls → ownDev x.1 pa = true →
      let got := readCarry x.1 p w v at_
      (got.2 = .ok none → exec .cavityCarryPoll s = .next (setCav got.1 p w k { v with poll := s.cycle + 64 })) ∧
      (∀ y, got.2 = .ok (some y) → exec .cavityCarryPoll s = .next (setCav got.1 p w k
        (if up then { v with sc := some y, poll := 0, inbox := [] } else { v with pc := some y, poll := 0, inbox := [] }))) ∧
      (∀ e, got.2 = .error e → exec .cavityCarryPoll s = .next (cavStall got.1 p w k v e at_))) ∧
    (∀ pa cls, x.2 = .ok pa cls → ownDev x.1 pa = false →
      (carryAsked x.1 p w v up = true → exec .cavityCarryPoll s = .refused .notEnabled) ∧
      (carryAsked x.1 p w v up = false → cameIn v up 4 = none → exec .cavityCarryPoll s =
        .next (askCarry (setCav x.1 p w k { v with poll := x.1.cycle + 64, inbox := [] }) p w v up pa [4])))

/-- 12 R264: a lane that one side leaves empty takes the other side; the integer operators of a cavity are wrapping addition,
signed maximum and minimum, and the bitwise ones. -/
def CavityOperatorsCombine : Prop :=
  ∀ (x y : Lane),
    (∀ op z, copLane op none z = (z, 0) ∧ copLane op z none = (z, 0)) ∧
    copLane 4 (some x) (some y) = (some (x + y), 0) ∧
    copLane 5 (some x) (some y) = (some (if x.toInt < y.toInt then y else x), 0) ∧
    copLane 6 (some x) (some y) = (some (if y.toInt < x.toInt then y else x), 0) ∧
    copLane 7 (some x) (some y) = (some (x &&& y), 0) ∧
    copLane 8 (some x) (some y) = (some (x ||| y), 0) ∧
    copLane 9 (some x) (some y) = (some (x ^^^ y), 0)

/-- 12 R271 to R276: PACESET lays out a set with SIDX 0 and its members' phases; it loads a member that is not pending and waits for
one that is; it updates a pending member, taking SPAN as the sweeps since SLAST, and faults on one that is not pending; a member
beyond n or another descriptor faults. PACEQ sends PEXP and the next sweep of a member. -/
def PaceSetsAreKept : Prop :=
  ∀ (r : RecS) (s : State), paceBad r.obj = false → AtWell s r [0] 4 →
    let c := s.cur
    let w := r.d1.site.toNat
    let n := paceNM1 r.obj
    let m := laneN (portTok c 0).lanes 0
    let x := memberAt s c.p w m
    (r.sub = 0 → bits (wellAt s c.p w).cfg.toNat 63 54 = n →
      let hd := leBytes 4 0 ++ leBytes 4 r.obj.toNat
      let s1 := wellStore s c.p w ((List.range 64).map (fun i => (i, hd.getD i 0))) false
      let s2 := iter s1 (n + 1) (fun s m => setMember s c.p w m { stag := m % 2 ^ pacePmax r.obj.toNat } false)
      exec (.pacesetInit r) s =
        .next (objEmit (wakePanel s2 c.p (fun o => o == .pace c.p w)) c r 6 (ackVal c.tag 0))) ∧
    (r.sub = 0 → bits (wellAt s c.p w).cfg.toNat 63 54 ≠ n → exec (.pacesetInit r) s = .next (faultCur s c cILLEGAL 0)) ∧
    (r.sub = 1 → paceDesc s c.p w = r.obj.toNat → m ≤ n →
      (x.pend = true → exec (.pacesetLoad r) s = .next (waitOn s c (.pace c.p w))) ∧
      (x.pend = false → exec (.pacesetLoad r) s = .next (objEmit (setMember s c.p w m
        { value := laneN (portTok c 0).lanes 1, slast := paceSidx s c.p w, stag := x.stag } (portTok c 0).poison)
        c r 6 (ackVal c.tag 0)))) ∧
    (r.sub = 2 → paceDesc s c.p w = r.obj.toNat → m ≤ n →
      (x.pend = false → exec (.pacesetUpdate r) s = .next (faultCur s c cILLEGAL 0)) ∧
      (x.pend = true → ∃ (x' : Member) (bad : Bool) (f : BitVec 5),
        x'.value = laneN (portTok c 0).lanes 1 ∧ x'.slast = paceSidx s c.p w ∧ x'.pend = false ∧ x'.stag = x.stag ∧
        x'.span = (paceSidx s c.p w + 2 ^ 32 - x.slast) % 2 ^ 32 ∧ x'.pexp ≤ x.pexp + 1 ∧ x.pexp ≤ x'.pexp + 1 ∧
        bad = ((portTok c 0).poison || memberBad s c.p w m) ∧
        exec (.pacesetUpdate r) s = .next (objEmit (wakePanel
          (if bad then setMember s c.p w m x' bad else curFlags (setMember s c.p w m x' bad) c f) c.p
          (fun o => o == .pace c.p w)) c r 6 (ackVal c.tag 0)))) ∧
    ((paceDesc s c.p w ≠ r.obj.toNat ∨ n < m) →
      (r.sub = 1 → exec (.pacesetLoad r) s = .next (faultCur s c cILLEGAL 0)) ∧
      (r.sub = 2 → exec (.pacesetUpdate r) s = .next (faultCur s c cILLEGAL 0))) ∧
    (r.sub = 0 → n < m → exec (.paceq r) s = .next (faultCur s c cILLEGAL 0)) ∧
    (r.sub = 0 → m ≤ n → memberBad s c.p w m = false → tgetD s.wbad (wbadKey c.p w 0) false = false →
      let q : Val := { tag := c.tag, ty := 6, lanes := [BitVec.ofNat 32 x.pexp, BitVec.ofNat 32 (paceNext x (paceSidx s c.p w))] }
      exec (.paceq r) s = .next (objEmit s c r 6 q))

/-- 12 R274: SWEEP waits while a member is pending; otherwise it advances SIDX, marks every due member pending, and sends the due
members' visits as a generator's tokens, or one null with EOR when none is due. -/
def SweepVisitsDueMembers : Prop :=
  ∀ (r : RecS) (s : State), paceBad r.obj = false → r.sub.toNat < 8 → AtWell s r [0] 4 →
    let c := s.cur
    let w := r.d1.site.toNat
    let lay := layoutOf s c.p c.plane
    let j := r.sub.toNat
    let n := paceNM1 r.obj + 1
    let t := (paceSidx s c.p w + 1) % 2 ^ 32
    j < lay.length →
    ((∃ m < n, (memberAt s c.p w m).pend = true) → exec (.sweep r) s = .next (waitOn s c (.pace c.p w))) ∧
    ((∀ m < n, (memberAt s c.p w m).pend = false) →
      (2 ^ levelWidth lay j < n → exec (.sweep r) s = .next (faultCur s c cILLEGAL 0)) ∧
      (n ≤ 2 ^ levelWidth lay j →
        let due := (List.range n).filter (fun m => paceDue (memberAt s c.p w m) t)
        let s2 := due.foldl (fun u m => setMember u c.p w m { memberAt s c.p w m with pend := true } (memberBad s c.p w m))
          (setHeader s c.p w t (paceDesc s c.p w))
        (due = [] → exec (.sweep r) s = .next (objEmit s2 c r 6
          { tag := setfld lay c.tag j 0, ty := 6, lanes := [0, 0], null := true, eor := true })) ∧
        (due ≠ [] → exec (.sweep r) s = .next (startGen s2 c (d0Only r) j
          (.sweep (due.map (fun m => (m, BitVec.ofNat 32 (memberAt s c.p w m).value, memberBad s c.p w m)))) (portTok c 0)))))

/-! ## Rule tables and collectives -/

/-- 13 R299; 19 R382, R390: RULESET and RULEARM stand at the scribe; in a block they are held to commit; an entry or an operand that
breaks its format, or names another table, faults. -/
def RuleRecordsAreHeld : Prop :=
  ∀ (r : RecS) (s : State), r.obj.toNat < 8 → r.cf = 0 → s.cur.site = 240 → Supplied s r.ctl [0] → Clean s →
    let c := s.cur
    let ls := (portTok c 0).lanes
    let e := entryOf ls
    let armOperand : Prop := armBad ls = false ∧ (shiftDest s c (bits (laneN ls 1) 15 0)).isSome = true
    (r.sub = 0 → (entryBad e = true ∨ entryTable e ≠ r.obj.toNat) → exec (.rulesetWrite r) s = .next (faultCur s c cILLEGAL 0)) ∧
    (r.sub = 0 → ¬ armOperand → exec (.rulearmArm r) s = .next (faultCur s c cILLEGAL 0)) ∧
    (∀ b, InBlock s b →
      (r.sub = 0 → entryBad e = false → entryTable e = r.obj.toNat →
        exec (.rulesetWrite r) s = .next (held s b (.rulesetWrite r))) ∧
      (r.sub = 0 → armOperand → exec (.rulearmArm r) s = .next (held s b (.rulearmArm r))) ∧
      (r.sub = 1 → exec (.rulesetClear r) s = .next (held s b (.rulesetClear r)) ∧
        exec (.rulearmDisarm r) s = .next (held s b (.rulearmDisarm r))))

/-- 19 R387, R388, R390: at commit, with nothing waiting on the table: RULESET outside a round writes its entry and clears the armed
round; with an armed round in progress it waits; RULEARM of a table that has entries and has armed no round arms the round named, with
SLOTS credits, and takes in the held arrivals of that round; SUB 1 of RULESET also removes the entries and what is held; SUB 1 of
RULEARM ends the round. Each is acknowledged. -/
def RuleRecordsTakeEffect : Prop :=
  ∀ (r : RecS) (s : State), r.obj.toNat < 8 → r.cf = 0 → s.cur.site = 240 → s.cur.late = true → Supplied s r.ctl [0] → Clean s →
    let c := s.cur
    let p := c.p
    let ls := (portTok c 0).lanes
    let t := r.obj.toNat
    let x := tableAt s p t
    let e := entryOf ls
    let eng := engineAt s p
    x.waiters = [] →
    (r.sub = 0 → entryBad e = false → entryTable e = t →
      (x.inRound = true → exec (.rulesetWrite r) s =
        .next (setTable s p t { x with waiters := [{ i := .rulesetWrite r, cur := c }] })) ∧
      (x.inRound = false → exec (.rulesetWrite r) s = .next (emit0
        (setTable s p t { x with entries := tput x.entries (entryIdx e) e, armed := none, accs := [] }) c r
        (ackVal c.tag (entryIdx e))))) ∧
    (∀ d, r.sub = 0 → armBad ls = false → shiftDest s c (bits (laneN ls 1) 15 0) = some d → x.armed = none → usedEntries x ≠ [] →
      let mine := fun (a : Arrival) => a.table == t && a.round == armRound ls
      let s1 := setEngine s p { eng with hold := eng.hold.filter (fun a => !mine a) }
      let s2 := setTable { s1 with arrivals := eng.hold.filter mine ++ s.arrivals } p t
        { x with armed := some (armRound ls), inRound := true, slots := armSlots ls, credits := armSlots ls, edge := armEdge ls
                 dest := BitVec.ofNat 16 d, plane := (panelAt s p).inj.getD 4, accs := [], arming := some (c, r) }
      exec (.rulearmArm r) s = .next (emit0 s2 c r (ackVal c.tag 0))) ∧
    (r.sub = 1 →
      let s1 := setEngine s p { eng with hold := eng.hold.filter (fun a => a.table != t) }
      exec (.rulesetClear r) s = .next (emit0 (setTable s1 p t
        { x with entries := [], armed := none, accs := [], inRound := false, arming := none }) c r (ackVal c.tag 0))) ∧
    (r.sub = 1 → exec (.rulearmDisarm r) s =
      .next (emit0 (setTable s p t { x with accs := [], inRound := false, arming := none }) c r (ackVal c.tag 0)))

/-- 19 R384, R385: an arrival of the armed round that matches a used entry is combined when its index is the next one, and staged when
it is later; the arrival of a later round, and one at a table that has armed no round, is held; that of a retired round is
discarded; that of the armed round which matches no entry posts RULE_MISS. A full hold or staging area keeps the arrival waiting. -/
def RuleArrivalsMeetTheirTable : Prop :=
  ∀ (s : State) (a : Arrival), s.arrivals[s.sel.k]? = some a → arrivalBehind a (s.arrivals.take s.sel.k) = false →
    let s1 := { s with arrivals := dropAt s.arrivals s.sel.k }
    let t := tableAt s a.p a.table
    let e := engineAt s a.p
    let later := fun (r : Nat) => 1 ≤ (a.round + 65536 - r) % 65536 ∧ (a.round + 65536 - r) % 65536 ≤ 32767
    let heldNow := Host.Outcome.next (φ := Fault) (ρ := Refusal)
      (arrivalFate (setEngine s1 a.p { e with hold := e.hold ++ [{ a with told := true }] }) a true)
    (t.armed = none → e.hold.length < 64 → exec .ruleArrival s = heldNow) ∧
    (∀ r, t.armed = some r → (t.inRound = false ∨ a.round ≠ r) →
      (later r → e.hold.length < 64 → exec .ruleArrival s = heldNow) ∧
      (later r → 64 ≤ e.hold.length → exec .ruleArrival s = .refused .notEnabled) ∧
      (¬ later r → exec .ruleArrival s = .next (ruleStale s1 a))) ∧
    (t.armed = some a.round → t.inRound = true →
      let hit := (usedEntries t).find? (fun x => a.tag &&& entryTmask x.2 == entryTval x.2 &&& entryTmask x.2)
      (hit = none → exec .ruleArrival s = .next (ruleMiss s1 a)) ∧
      (∀ idx en, hit = some (idx, en) →
        let i := freeBits a.tag (entryTmask en)
        let x := tgetD t.accs idx {}
        let cop := (ruleCop (entryOpcode en)).getD 0
        let put := fun (y : RuleAcc) => Host.Outcome.next (φ := Fault) (ρ := Refusal)
          (arrivalFate (setTable s1 a.p a.table { t with accs := tput t.accs idx y }) a true)
        (x.width = 0 ∨ x.width = a.lanes.length) → a.ty = copTy cop → i < entryCount en → x.staged = [] →
          (i = x.next → exec .ruleArrival s = put (ruleApply cop { x with width := a.lanes.length } a.lanes a.poison)) ∧
          (x.next < i → engineStaged s a.p < 64 →
            exec .ruleArrival s = put { x with width := a.lanes.length, staged := [(i, a.lanes, a.poison)] }) ∧
          (x.next < i → 64 ≤ engineStaged s a.p → exec .ruleArrival s = .refused .notEnabled) ∧
          (i < x.next → exec .ruleArrival s = .next (ruleMiss s1 a))))

/-- 19 R386, R388: a table in its round emits the lowest entry not yet emitted once that has COUNT arrivals, spending a credit,
under ETAG and with the destination of its RULEARM, with its flags and none where it is poisoned; the last one ends the round. With no credit nothing is emitted. -/
def RuleTablesEmit : Prop :=
  ∀ (s : State) (idx : Nat) (e : BitVec 256),
    let p := s.sel.p
    let n := s.sel.num
    let t := tableAt s p n
    let edge := 241 + t.edge
    let a := tgetD t.accs idx {}
    t.inRound = true → nextEntry t = some (idx, e) →
    ((t.credits = 0 ∨ a.next ≠ entryCount e) → exec .ruleEmit s = .refused .notEnabled) ∧
    (0 < t.credits → a.next = entryCount e → queueLen s p edge < 8 → gatedCtx s p edge (planeOf s p t.plane).ctx = false →
      t.plane < 4 →
      let d := destOfBits t.dest
      let tok : Token :=
        { tag := entryEtag e, site := d.site, node := d.node, port := d.port, plane := BitVec.ofNat 2 t.plane
          ty := copTy ((ruleCop (entryOpcode e)).getD 0), poison := a.poison, lanes := a.acc }
      let s0 := setTable s p n { t with credits := t.credits - 1, accs := tput t.accs idx { a with emitted := true } }
      let s1 := sendTok (if a.poison then s0 else orFlags s0 (partOf s0 (matchCtx s0 p t.plane (entryEtag e))) (colourOf (entryEtag e)) a.flags)
        p edge tok
      (nextEntry (tableAt s1 p n) ≠ none → exec .ruleEmit s = .next s1) ∧
      (nextEntry (tableAt s1 p n) = none →
        exec .ruleEmit s = .next (ruleSettle p n (tableAt s1 p n).waiters.length (roundDone s1 p n)))) ∧
    (0 < t.credits → a.next = entryCount e → queueLen s p edge < 8 → gatedCtx s p edge (planeOf s p t.plane).ctx = false →
      ∃ u, exec .ruleEmit s = .next u)

/-- 19 R386: the oldest complete drain fence of a table ends, and d1 of its RULEARM takes the round number. -/
def DrainFencesComplete : Prop :=
  ∀ (s : State) (i : Nat) (f : Fence),
    let p := s.sel.p
    let n := s.sel.num
    let t := tableAt s p n
    idxOf (fenceDone s) t.fences = some i → t.fences[i]? = some f → t.waiters = [] →
      exec .drainFenceComplete s =
        .next (emit1 (setTable s p n { t with fences := dropAt t.fences i }) f.cur f.r (ackVal f.cur.tag f.round))

/-- 19 R388: a token for port b of the edge unit of an armed table adds its lane 0 to the credits, at most 255; that for a table not
armed is discarded. -/
def CreditsReturnToTables : Prop :=
  ∀ (s : State) (f : Flight), s.transit[s.sel.k]? = some f → f.queued = false → f.tok.snap = false → isEauCredit f = true →
    let s1 := { s with transit := dropAt s.transit s.sel.k }
    let n := f.tok.node.toNat
    let t := tableAt s f.p n
    (n < 8 → t.armed = none → exec .eauCredit s = .next s1) ∧
    (n < 8 → t.armed ≠ none → 241 + t.edge = f.tok.site.toNat → f.tok.null = false →
      exec .eauCredit s = .next (setTable s1 f.p n { t with credits := min 255 (t.credits + laneN f.tok.lanes 0) }))

/-- 19 R389; 11 R251: COLL in a block is held to commit; outside one a malformed route word, or a counter that is not allocated,
faults; else COLL waits for its completion tag to be free, and then makes the tag busy, emits its number, and sends operand a, under
the match's tag, towards the table, panel and part of its route word; with no route to the part it fails. -/
def CollectivesAreSent : Prop :=
  ∀ (r : RecT) (s : State), r.rsv = 0 → r.len = 0 → Supplied s r.ctl [0, 1] →
    let c := s.cur
    let b := (portTok c 1).lanes
    let dev := collDev b
    let die := dieOf c.p
    let sc := scribeAt s c.p
    (∀ k, InBlock s k → ctagTaken s c.p r.ctag.toNat = false → exec (.coll r) s = .next (held s k (.coll r))) ∧
    (ActsNow s → (collBad b = true ∨ (pgAt s c.p r.pgn.toNat).alloc = false) →
      exec (.coll r) s = .next (faultCur s c cILLEGAL 0)) ∧
    (ActsNow s → collBad b = false → (pgAt s c.p r.pgn.toNat).alloc = true →
      (tagFree s c.p r.ctag.toNat = false → exec (.coll r) s = .next (waitOn s c .done)) ∧
      (tagFree s c.p r.ctag.toNat = true →
        ∃ (x : Xfer) (a : Arrival), x.id = s.fresh ∧ x.op = opColl ∧ x.r = r ∧ x.arr = some (a, dev) ∧ a.coll = s.fresh ∧
          a.p = collPanel b ∧ a.table = collTable b ∧ a.round = collRound b ∧ a.tag = c.tag ∧ a.ty = (portTok c 0).ty ∧
          a.lanes = (portTok c 0).lanes ∧ a.poison = curPoison c ∧
          (let m : Word64 := BitVec.ofNat 64 (2 ^ r.ctag.toNat)
           let s1 := setScribe s c.p { setLate sc (sc.late &&& ~~~m) with busy := sc.busy ||| m, done := sc.done &&& ~~~m }
           let s2 := emitRes { s1 with fresh := s.fresh + 1, xfers := s.xfers ++ [x] } c (formT r) 6
             (both (ackVal c.tag r.ctag.toNat))
           let req := fun (path : List Nat) =>
             ({ kind := .xferSector s.fresh 0 0, path := path, born := s.cycle, ctx := matchCtx s c.p c.plane c.tag, issuer := c.p
                addr := 0, ctag := r.ctag.toNat } : Req)
           (collOwn s dev = true → exec (.coll r) s = .next { s2 with reqs := s2.reqs ++
             [req (if die = dieOf (collPanel b) then [] else [arbDie die (dieOf (collPanel b))])] }) ∧
           (∀ path, collOwn s dev = false → portPath s2 die dev = some path →
             exec (.coll r) s = .next { s2 with reqs := s2.reqs ++ [req path] }) ∧
           (collOwn s dev = false → portPath s2 die dev = none → exec (.coll r) s = .next (xferFail s2 x cPERMISSION 0)))))

/-! ## Groups of colours -/

/-- 16 R333: SPAWN of n colours that fit the layout and the context's range queues a draw at the colour point, with the first slot
that its second operand names or none; from another die than the point's the request crosses the die link; a null or false-predicated one draws nothing and, under NULLPASS, sends n nulls to d1. -/
def SpawnQueuesADraw : Prop :=
  ∀ (r : RecN) (s : State),
    let c := s.cur
    let base := if bit r.hi.toNat 3 then [0, 1] else [0]
    let ctx := matchCtx s c.p c.plane c.tag
    let n := r.lit.toNat % 64 + 1
    let lay := layoutOf s c.p c.plane
    hasPorts c (portSet base r.ctl) = true →
    ((spawnBad r = true ∨ spawnRange s r = true) → exec (.spawn r) s = .next (faultCur s c cILLEGAL 0)) ∧
    (spawnBad r = false → spawnRange s r = false → badCtl base r.ctl = false → anyBlock c (portSet base r.ctl) = false →
      (anyNull c (portSet base r.ctl) = false → predFalse r.ctl c = false →
        let d : Draw := { part := partOf s ctx, ctx := ctx, n := n, spawn := some (c, r), launch := none, born := s.cycle
                          base := if bit r.hi.toNat 3 then some (laneN (portTok c 1).lanes 0) else none }
        (dieOf c.p = 0 → exec (.spawn r) s = .next { s with draws := s.draws ++ [d] }) ∧
        (dieOf c.p ≠ 0 → exec (.spawn r) s = .next (askPoint s 0 0 (.spawn r) c))) ∧
      ((anyNull c (portSet base r.ctl) = true ∨ predFalse r.ctl c = true) →
        (r.ctl.nullpass = false → exec (.spawn r) s = .next s) ∧
        (r.ctl.nullpass = true → exec (.spawn r) s = .next (iter s n (fun s i =>
          let v := { nullVal c (portTok c 0).ty with
            tag := setfld lay c.tag (r.hi.toNat % 8) i, eor := i + 1 == n }
          send s c (valSend r.d1 false v))))))

/-- 16 R331, R332, R337: CALLOC asks the colour point, which gives every colour of the match's group a new grant, at most the width limit
of the partition, and emits it; 0, more than 32, or a packed group faults. OPX 1 sends the entry of a colour of the context's range, and
is PERMISSION outside it. -/
def CallocGrantsAndReads : Prop :=
  ∀ (r : RecN) (s : State),
    (r.fmt = 0 → r.cf = 0 →
      (Takes s (formN r) 6 [0, 1] false → exec (.callocGrant r) s = .next (askPoint s 0 0 (.callocGrant r) s.cur)) ∧
      (Takes s (formN r) 7 [0, 1] false → exec (.callocEntry r) s = .next (askPoint s 0 0 (.callocEntry r) s.cur))) ∧
    (∀ (c : Cur),
      let ctx := matchCtx s c.p c.plane c.tag
      let part := partOf s ctx
      let v := if r.ctl.lituse = 1 then r.lit.toNat else laneN (portTok c 1).lanes 0
      let k := v % 4096
      (gidOf s part (colourOf c.tag) = none → pointAct (.callocGrant r) c s = faultCur s c cILLEGAL 0) ∧
      (∀ g, gidOf s part (colourOf c.tag) = some g →
        let packed := (groupColours s part g).any (fun k => (colourAt s part k).pk)
        ((v = 0 ∨ 32 < v ∨ packed = true) → pointAct (.callocGrant r) c s = faultCur s c cILLEGAL 0) ∧
        (0 < v → v ≤ 32 → packed = false →
          let w := min v (widthLimit s part)
          pointAct (.callocGrant r) c s = emitRes ((groupColours s part g).foldl (fun s k =>
            setColour s part k { colourAt s part k with
              gwm1 := w - 1
              ghist := (s.cycle, grant? s part k) :: (colourAt s part k).ghist.filter (fun x => decide (s.cycle < x.1 + 65)) }) s)
            c (formN r) 6 (both (ackVal c.tag w)))) ∧
      ((ctxAt s ctx).colbase ≤ k → k ≤ (ctxAt s ctx).collim → pointAct (.callocEntry r) c s = emitRes s c (formN r) 7
        (both { tag := c.tag, ty := 7, lanes := wordsLanes (colourWords (colourAt s part k)) })) ∧
      ((k < (ctxAt s ctx).colbase ∨ (ctxAt s ctx).collim < k) → pointAct (.callocEntry r) c s = faultCur s c cPERMISSION 0))

/-- 16 R331, R335: RETURN asks the colour point, in a block at commit. There an unreturned colour in use is marked returned and its group
RETURNING, its packing is dropped, and operand a goes to the destination of its entry under RTAG with its index; destination 0xFF00
receives nothing; a free or returned colour, or a value wider than the spawner's grant, faults. -/
def ReturnSendsTheValue : Prop :=
  ∀ (r : RecN) (s : State),
    (retBad r = false → badCtl [0] r.ctl = false → hasPorts s.cur (portSet [0] r.ctl) = true →
      anyBlock s.cur (portSet [0] r.ctl) = false →
      (∀ b, InBlock s b → exec (.ret r) s = .next (held s b (.ret r))) ∧
      (ActsNow s → exec (.ret r) s = .next (askPoint s 0 0 (.ret r) s.cur))) ∧
    (∀ (c : Cur),
      let part := partOf s (matchCtx s c.p c.plane c.tag)
      let k := colourOf c.tag
      let e := colourAt s part k
      let a := portTok c 0
      ((e.gstate = 0 ∨ e.retd = true) → pointAct (.ret r) c s = faultCur s c cILLEGAL 0) ∧
      (retWrong s c = false →
        let done := fun (t : State) => clearPack (setGstate (setColour t part k { e with retd := true }) part e.gid 4) part k
        (e.rdest = 0xFF00 → pointAct (.ret r) c s = done s) ∧
        (e.rdest ≠ 0xFF00 →
          let isNull := anyNull c (portSet [0] r.ctl) || predFalse r.ctl c
          let d := destOfBits e.rdest
          let t : Token :=
            { tag := setfld (layoutOf s e.rpanel e.rplane) e.rtag e.rlev e.idx, site := d.site, node := d.node, port := d.port
              plane := BitVec.ofNat 2 e.rplane, ty := a.ty, null := isNull, poison := a.poison && !isNull
              eor := e.idx == e.nm1, lanes := if isNull then List.replicate (max 1 a.lanes.length) 0 else a.lanes }
          pointAct (.ret r) c s = done { s with returns := s.returns ++ [{ p := e.rpanel, tok := t }] })))

/-- 16 R331, R333: the colour point serves the first ready draw that no request precedes, one in a cycle: a spawned group's colours
are opened in order, RUNNING, with the spawner's grant, and a generator sends the argument to each member. A draw waits for its context
to be RESIDENT and its colours to be free, and behind an earlier draw of its context. -/
def DrawsOpenGroups : Prop :=
  ∀ (s : State) (d : Draw) (c : Cur) (r : RecN) (cs : List Nat), s.draws[s.sel.k]? = some d → d.spawn = some (c, r) →
    ((ctxAt s d.ctx).state ≠ 3 → exec .colourDraw s = .refused .notEnabled) ∧
    (drawColours s d = none → exec .colourDraw s = .refused .notEnabled) ∧
    (tgetD s.pointUsed 0 0 = s.cycle + 1 → exec .colourDraw s = .refused .notEnabled) ∧
    ((ctxAt s d.ctx).state = 3 → (s.draws.take s.sel.k).any (fun y => y.ctx == d.ctx) = false → drawColours s d = some cs →
      tgetD s.pointUsed 0 0 ≠ s.cycle + 1 → drawBefore s [d.born, 2, c.p] = false →
      s.points.any (fun y => y.point == 0 && lexBefore (pointKey y) [d.born, 2, c.p]) = false →
      exec .colourDraw s = .next (drawSpawn
        { s with draws := dropAt s.draws s.sel.k, pointUsed := tput s.pointUsed 0 (s.cycle + 1) } d cs c r))

/-- 16 R331; 17 R344; 01 R12: a record's request stands at its point at once on the point's die and crosses the die link from another.
A point serves the request that reached it first, by kind and panel within a cycle, one in a cycle, but for the reads, which take no
turn. -/
def PointsServeInOrder : Prop :=
  ∀ (s : State) (point : Nat),
    (∀ (die : Nat) (i : Instr) (c : Cur), (∀ r, i ≠ .spawn r) →
      let x : PReq := { point := point, born := s.cycle, kind := pointKind i, i := i, cur := c }
      (dieOf c.p = die → askPoint s point die i c = { s with points := s.points ++ [x] }) ∧
      (dieOf c.p ≠ die → askPoint s point die i c = { s with reqs := s.reqs ++ [{
        kind := .point x, path := [arbDie (dieOf c.p) die], born := s.cycle, ctx := matchCtx s c.p c.plane c.tag, issuer := c.p
        addr := 0, ctag := 64 }] })) ∧
    (∀ (n : Nat) (k : Nat) (x : PReq), pointFirst s point = some k → s.points[k]? = some x →
      let rest := { s with points := dropAt s.points k }
      (x.kind = 3 → pointGo point (n + 1) s = pointGo point n (pointAct x.i x.cur rest)) ∧
      (x.kind ≠ 3 → tgetD s.pointUsed point 0 = s.cycle + 1 → pointGo point (n + 1) s = s) ∧
      (x.kind ≠ 3 → tgetD s.pointUsed point 0 ≠ s.cycle + 1 → (point = 0 → drawBefore s (pointKey x) = false) →
        pointGo point (n + 1) s =
          pointGo point n (pointAct x.i x.cur { rest with pointUsed := tput s.pointUsed point (s.cycle + 1) }))) ∧
    (∀ (k : Nat) (x : PReq), pointFirst s point = some k → s.points[k]? = some x →
      x.point = point ∧ ∀ y ∈ s.points, y.point = point → lexBefore (pointKey y) (pointKey x) = false)

/-- 16 R331, R333: the colours that a draw without a slot takes are the lowest free ones of the context's range. -/
def DrawsTakeTheLowestColours : Prop :=
  ∀ (s : State) (d : Draw) (cs : List Nat), drawColours s d = some cs →
    let x := ctxAt s d.ctx
    cs.length = d.n ∧ (∀ k ∈ cs, colourFree s d.part k = true) ∧
    (d.base = none →
      (∀ k ∈ cs, x.colbase ≤ k ∧ k ≤ x.collim) ∧ cs.Pairwise (· < ·) ∧
      ∀ j, x.colbase ≤ j → j ≤ x.collim → colourFree s d.part j = true → (∃ k ∈ cs, j < k) → j ∈ cs) ∧
    (∀ b, d.base = some b → cs = (List.range d.n).map (fun i => x.colbase + b + i))

/-- 16 R335: the first return token for a panel enters there at its site, while the die link to the panel's die is UP. -/
def ReturnTokensAreDelivered : Prop :=
  ∀ (s : State) (x : RetTok), s.returns[s.sel.k]? = some x → (s.returns.take s.sel.k).any (fun y => y.p == x.p) = false →
    linkUp s 0 (dieOf x.p) = true →
    exec .returnTokenDelivery s = .next { s with
      returns := dropAt s.returns s.sel.k
      transit := s.transit ++ [{ p := x.p, src := x.tok.site.toNat, queued := false, tok := x.tok }] }

/-- 16 R336, R339: a RUNNING group without an issue for 64 cycles becomes WAITING, and not before; a returned colour with no work left
is drained, and with the last of its group the flags pass to the spawner's group or into the launch. -/
def GroupsIdleAndDrain : Prop :=
  ∀ (s : State),
    let part := s.sel.part
    let k := s.sel.k
    let e := colourAt s part k
    (∀ c rest, groupColours s part k = c :: rest →
      ((colourAt s part c).gstate = 1 → (groupAt s k).lastIssue + 64 ≤ s.cycle → exec .groupIdle s = .next (setGstate s part k 2)) ∧
      (s.cycle < (groupAt s k).lastIssue + 64 → exec .groupIdle s = .refused .notEnabled)) ∧
    (colourBusy s e.ctx k = true → exec .colourDrain s = .refused .notEnabled) ∧
    (e.retd = true → e.drained = false → e.gstate = 4 → colourBusy s e.ctx k = false →
      let s1 := setColour (freeEntries s e.ctx k) part k { e with drained := true }
      let g := groupAt s1 e.gid
      let s2 := setGroup s1 e.gid { g with left := g.left - 1 }
      (2 ≤ g.left → exec .colourDrain s = .next s2) ∧
      (g.left ≤ 1 → exec .colourDrain s = .next (retireGroup s2 part e.gid) ∧
        (g.launch = none → ∃ t, retireGroup s2 part e.gid = orFlags t part (colourOf g.rtag) g.flags)))

/-! ## Barriers -/

/-- 17 R353; 02 R53: a barrier record with admitted fields that stands in a block is held to commit. -/
def BarrierRecordsAreHeld : Prop :=
  ∀ (r : RecS) (s : State) (b : Block), r.cf = 0 → Supplied s r.ctl [0] → Clean s → InBlock s b →
    (bits r.obj.toNat 31 14 = 0 →
      (r.sub = 0 → binitBad r s.cur = false → exec (.binit r) s = .next (held s b (.binit r))) ∧
      (r.sub = 1 → exec (.binitFree r) s = .next (held s b (.binitFree r))) ∧
      (r.sub = 0 → laneN (portTok s.cur 0).lanes 0 ≤ 1 → exec (.barrive r) s = .next (held s b (.barrive r))) ∧
      (r.sub = 0 → exec (.bwait r) s = .next (held s b (.bwait r)) ∧ exec (.bdrop r) s = .next (held s b (.bdrop r)) ∧
        exec (.btest r) s = .next (held s b (.btest r))) ∧
      (r.sub = 1 → exec (.btestTicket r) s = .next (held s b (.btestTicket r)))) ∧
    (r.sub = 1 → bits r.obj.toNat 15 14 = 0 → bits r.obj.toNat 31 19 = 0 →
      bits r.obj.toNat 18 16 < (layoutOf s s.cur.p s.cur.plane).length →
      exec (.barriveTag r) s = .next (held s b (.barriveTag r)))

/-- 17 R344, R345, R352: BINIT asks the barrier point of its die, unless its word is not admitted, which faults. There it makes a FREE
barrier ARMED with the count, scope and watch of its word, and acknowledges; a barrier in use faults. SUB 1 frees a barrier that is
COMPLETE or has no arrival; the BWAITs on it fault. -/
def BarriersAreMadeAndFreed : Prop :=
  ∀ (r : RecS) (s : State),
    (r.cf = 0 → bits r.obj.toNat 31 14 = 0 → Supplied s r.ctl [0] → Clean s → ActsNow s →
      let c := s.cur
      let die := barDie r c.p
      (r.sub = 0 → binitBad r c = false → exec (.binit r) s = .next (askPoint s (1 + die) die (.binit r) c)) ∧
      (r.sub = 0 → binitBad r c = true → exec (.binit r) s = .next (faultCur s c cILLEGAL 0)) ∧
      (r.sub = 1 → exec (.binitFree r) s = .next (askPoint s (1 + die) die (.binitFree r) c))) ∧
    (∀ (c : Cur),
      let v := laneN (portTok c 0).lanes 0
      let die := barDie r c.p
      let b := barrierAt s die (barIdx r)
      let ctx := matchCtx s c.p c.plane c.tag
      let ack := fun (t : State) => emitRes t c (formS r) 6 (both (ackVal c.tag 0))
      (b.state = 0 → pointAct (.binit r) c s = ack (setBarrier s die (barIdx r)
        { state := 1, scope := bits v 26 24, ctx := ctx, count := v % 65536, bwatch := bits v 23 16, anchor := c.p })) ∧
      (b.state ≠ 0 → pointAct (.binit r) c s = faultCur s c cILLEGAL 0) ∧
      (b.state = 0 → pointAct (.binitFree r) c s = faultCur s c cILLEGAL 0) ∧
      (b.state ≠ 0 → b.ctx ≠ ctx → pointAct (.binitFree r) c s = faultCur s c cPERMISSION 0) ∧
      (b.state ≠ 0 → b.ctx = ctx →
        ((b.state = 2 ∨ (b.state = 1 ∧ b.arr = 0 ∧ b.early = 0)) →
          pointAct (.binitFree r) c s = ack (freeWaiters (setBarrier s die (barIdx r) {}) die (barIdx r))) ∧
        ((b.state = 3 ∨ (b.state = 1 ∧ 0 < b.arr)) → pointAct (.binitFree r) c s = faultCur s c cILLEGAL 0)))

/-- 17 R344, R346 to R348: BARRIVE asks the barrier point. An arrival there of the current parity is counted under the ticket NPH, one of the other parity is early under NPH + 1;
when the count is there the phase is complete: the phase number advances, and the early arrivals open the next phase. Every
further early arrival than COUNT, and one of the old parity at a COMPLETE barrier, is an overrun. SUB 1 takes the parity from a
tag level. A FREE barrier, another context's, and a panel outside its scope are turned away. -/
def ArrivalsCompletePhases : Prop :=
  ∀ (r : RecS) (s : State),
   (r.cf = 0 → Supplied s r.ctl [0] → Clean s → ActsNow s →
    let die := barDie r s.cur.p
    (r.sub = 0 → bits r.obj.toNat 31 14 = 0 → laneN (portTok s.cur 0).lanes 0 ≤ 1 →
      exec (.barrive r) s = .next (askPoint s (1 + die) die (.barrive r) s.cur)) ∧
    (r.sub = 1 → bits r.obj.toNat 15 14 = 0 → bits r.obj.toNat 31 19 = 0 →
      bits r.obj.toNat 18 16 < (layoutOf s s.cur.p s.cur.plane).length →
      exec (.barriveTag r) s = .next (askPoint s (1 + die) die (.barriveTag r) s.cur))) ∧
   (∀ (c : Cur) (e : Bool) (i : Instr),
    ((i = .barrive r ∧ laneN (portTok c 0).lanes 0 = b2n e) ∨
     (i = .barriveTag r ∧ fld (layoutOf s c.p c.plane) c.tag (bits r.obj.toNat 18 16) % 2 = b2n e)) →
    let die := barDie r c.p
    let idx := barIdx r
    let b := barrierAt s die idx
    let ticket := fun (n : Nat) => emitRes s c (formS r) 6 (both (ackVal c.tag n))
    (b.state = 0 → pointAct i c s = (faultCur s c cILLEGAL 0)) ∧
    (b.state ≠ 0 → b.ctx ≠ matchCtx s c.p c.plane c.tag → pointAct i c s = (faultCur s c cPERMISSION 0)) ∧
    (b.state ≠ 0 → b.ctx = matchCtx s c.p c.plane c.tag →
      (barMember b die c.p = false → pointAct i c s = (faultCur s c cILLEGAL 0)) ∧
      (barMember b die c.p = true →
        (b.state = 2 → b.phase = e → pointAct i c s = (faultCur s c cOVERRUN (4096 * die + idx))) ∧
        (b.state ≠ 2 → b.phase ≠ e → b.early = b.count → pointAct i c s = (faultCur s c cOVERRUN (4096 * die + idx))) ∧
        (b.state = 2 → b.phase ≠ e → 1 < b.count → pointAct i c s = (setBarrier (ticket b.nph) die idx
          { b with phase := e, arr := 1, state := 1, watch := 0, running := true })) ∧
        (b.state = 1 → b.phase = e → b.running = true → b.arr + 1 < b.count →
          pointAct i c s = (setBarrier (ticket b.nph) die idx { b with arr := b.arr + 1 })) ∧
        (b.state = 1 → b.phase = e → b.running = true → b.arr + 1 = b.count → b.early = 0 →
          pointAct i c s = (barNotify (setBarrier (ticket b.nph) die idx
            { b with arr := b.count, nph := (b.nph + 1) % 2 ^ 32, state := 2, running := false }) die idx)) ∧
        (b.state = 1 → b.phase = e → b.running = true → b.arr + 1 = b.count → 0 < b.early → b.early < b.count →
          pointAct i c s = (barNotify (setBarrier (ticket b.nph) die idx
            { b with nph := (b.nph + 1) % 2 ^ 32, phase := !b.phase, arr := b.early, early := 0, watch := 0 }) die idx)) ∧
        (b.state = 1 → b.phase ≠ e → b.early < b.count → b.arr < b.count →
          pointAct i c s = (setBarrier (ticket ((b.nph + 1) % 2 ^ 32)) die idx { b with early := b.early + 1 })))))

/-- 17 R344, R353 to R356: BWAIT, BDROP and BTEST ask the barrier point; a BWAIT that a notice has reached is tested where it waits. There
BWAIT passes its operand once the phase of its ticket is complete and waits before that; BDROP takes k members
off COUNT and completes the phase when that suffices; BTEST sends the two words of a barrier, or passes its operand to d0 or d1
by whether the phase of a ticket is complete. -/
def BarriersAreWaitedFor : Prop :=
  ∀ (r : RecS) (s : State),
   (r.cf = 0 → bits r.obj.toNat 31 14 = 0 → Supplied s r.ctl [0] → Clean s → ActsNow s →
    let die := barDie r s.cur.p
    let asks := fun (i : Instr) => Host.Outcome.next (φ := Fault) (ρ := Refusal) (askPoint s (1 + die) die i s.cur)
    (r.sub = 0 → (s.cur.again ≠ 1 → exec (.bwait r) s = asks (.bwait r)) ∧
      (s.cur.again = 1 → exec (.bwait r) s = .next (pointAct (.bwait r) s.cur s)) ∧
      exec (.bdrop r) s = asks (.bdrop r) ∧ exec (.btest r) s = asks (.btest r)) ∧
    (r.sub = 1 → exec (.btestTicket r) s = asks (.btestTicket r))) ∧
   (∀ (c : Cur),
    let die := barDie r c.p
    let idx := barIdx r
    let b := barrierAt s die idx
    let v := laneN (portTok c 0).lanes 0
    let complete : Prop := 1 ≤ (b.nph + 2 ^ 32 - v % 2 ^ 32) % 2 ^ 32 ∧ (b.nph + 2 ^ 32 - v % 2 ^ 32) % 2 ^ 32 < 2 ^ 31
    b.state ≠ 0 → b.ctx = matchCtx s c.p c.plane c.tag →
    (complete → pointAct (.bwait r) c s = (emitRes s c (formS r) 6 (both (passA c)))) ∧
    (¬ complete → pointAct (.bwait r) c s = (waitOn s c (.barrier die idx))) ∧
    (barMember b die c.p = true →
      ((v = 0 ∨ b.count ≤ v ∨ b.count - v < b.early) → pointAct (.bdrop r) c s = (faultCur s c cILLEGAL 0)) ∧
      (0 < v → v < b.count → b.early ≤ b.count - v →
        let s1 := emitRes s c (formS r) 6 (both (ackVal c.tag (b.count - v)))
        ((b.state = 2 ∨ b.arr < b.count - v) →
          pointAct (.bdrop r) c s = (setBarrier s1 die idx { b with count := b.count - v })) ∧
        (b.state ≠ 2 → b.count - v ≤ b.arr →
          pointAct (.bdrop r) c s = (barNotify (setBarrier s1 die idx (barComplete 2 { b with count := b.count - v })) die idx)))) ∧
    (let ws := [put b.state 61 + put (b2n b.phase) 60 + put b.scope 57 + put b.ctx 48 + put b.count 32 + put b.arr 16 + b.early,
        put b.bwatch 56 + put b.anchor 50 + b.nph]
     pointAct (.btest r) c s = (emitRes s c (formS r) 7 (both { tag := c.tag, ty := 7, lanes := wordsLanes ws }))) ∧
    (complete → pointAct (.btestTicket r) c s = (emitRes s c (formS r) 6 { both (passA c) with cond := true })) ∧
    (¬ complete → pointAct (.btestTicket r) c s = (emitRes s c (formS r) 6 { both (passA c) with cond := false })))

/-- 17 R349, R350: an ARMED barrier whose watch has run BWATCH × 1024 cycles becomes STARVED and is posted to its anchor, and not
before, and never with BWATCH 0; a notice makes the BWAITs of its site that wait on the barrier ready again. -/
def BarriersStarveAndNotify : Prop :=
  ∀ (s : State),
    let die := s.sel.die
    let idx := s.sel.num
    let b := barrierAt s die idx
    ((b.bwatch = 0 ∨ b.watch < b.bwatch * 1024) → exec .barrierWatchExpiry s = .refused .notEnabled) ∧
    (b.state = 1 → b.bwatch ≠ 0 → b.bwatch * 1024 ≤ b.watch → exec .barrierWatchExpiry s = .next (post
      (setBarrier s die idx { b with state := 3 })
      { cause := cSTARVED, addr := 4096 * die + idx, site := 240, panel := b.anchor, ctx := b.ctx, outer := true })) ∧
    (∀ x, s.notices[s.sel.k]? = some x → exec .barrierNotice s = .next (setNib { s with notices := dropAt s.notices s.sel.k } x.p x.site
      (wakeNib s.cycle (fun w => w.on == .barrier x.die x.idx) (nibAt s x.p x.site))))

/-! ## Queues -/

/-- 14 R302, R303, R305, R315: what a function that reaches a queue's window does to it. A control line moves the queue as R315 says, and
is dropped and counted where the state does not admit it; a whole line reaches the queue point, where it appends a record; one that
finds no room is dropped and sets OVERFLOW, and one to a FREE queue, or a partial one, is counted. A function that does not reach it does nothing. -/
def HostLinesMoveQueues : Prop :=
  ∀ (s : State), s.sel.q < 256 →
    let q := s.sel.q
    let ws := s.sel.line
    let fn := s.sel.fn
    let x := queueAt s q
    let cmd := lineCmd ws
    let counted := Host.Outcome.next (φ := Fault) (ρ := Refusal) (setQueue s q { x with bad := min (x.bad + 1) 0xFFFFFFFF })
    (reachesWindow s fn q = false → exec .queueConfig s = .refused .notEnabled ∧ exec .hostAppend s = .refused .notEnabled) ∧
    (reachesWindow s fn q = true → ws.length = 8 →
      (cmd = 1 → ((x.state ≠ 0 ∧ ¬ (x.state = 1 ∧ x.recs = [])) ∨ configBad s fn ws = true) → exec .queueConfig s = counted) ∧
      (cmd = 1 → (x.state = 0 ∨ (x.state = 1 ∧ x.recs = [])) → configBad s fn ws = false →
        exec .queueConfig s = .next (setQueue s q
          { state := 1, lsz := bits (ws.getD 0 0).toNat 59 56, ring := lineAddr ws 0, cpl := lineAddr ws 1, part := linePart fn ws
            log := lineAddr ws 2, llsz := bits (ws.getD 3 0).toNat 47 40, msiv := bits (ws.getD 3 0).toNat 63 48 })) ∧
      (cmd = 2 → (x.state = 1 ∨ x.state = 3) → x.resetting = false → exec .queueStart s = .next (setQueue s q { x with state := 2 })) ∧
      (cmd = 2 → (x.state = 0 ∨ x.state = 2) → exec .queueStart s = counted) ∧
      (cmd = 3 → x.state = 2 → x.resetting = false → exec .queueStop s =
        .next (setQueue s q { x with state := if x.running = [] then 1 else 3 })) ∧
      (cmd = 3 → x.state ≠ 2 → exec .queueStop s = counted) ∧
      (cmd = 4 → x.state ≠ 0 → exec .queueReset s = .next (setQueue s q
        (if x.running = [] then { x with state := 0, resetting := false, recs := [] }
         else { x with state := 3, resetting := true, recs := [] }))) ∧
      (cmd = 4 → x.state = 0 → exec .queueReset s = counted) ∧
      (cmd = 5 → exec .queueClro s = .next (setQueue s q { x with overflow := false })) ∧
      ((cmd = 0 ∨ 5 < cmd) → exec .controlLineRejected s = counted)) ∧
    (reachesWindow s fn q = true → ws.length ≠ 8 → exec .hostAppend s = counted) ∧
    (reachesWindow s fn q = true → ws.length = 8 → exec .hostAppend s =
      .next { s with qreqs := insBy qBefore { q := q, born := s.cycle, what := .line fn ws } s.qreqs }) ∧
    (∀ (born : Nat),
      let taken := takeReq s { q := q, born := born, what := .line fn ws }
      (x.state = 0 → taken = setQueue s q { x with bad := min (x.bad + 1) 0xFFFFFFFF }) ∧
      (x.state ≠ 0 → 2 ^ x.lsz ≤ x.recs.length →
        taken = setQueue s q { x with drops := min (x.drops + 1) 0xFFFFFFFF, overflow := true }) ∧
      (x.state ≠ 0 → x.recs.length < 2 ^ x.lsz →
        let seq := (x.appseq + 1) % 2 ^ 32
        let s1 := physStore s noCtx (x.ring + 64 * (seq % 2 ^ x.lsz)) (wordBytes ((List.range 8).map (fun k => ws.getD k 0)))
        taken = wakeAll (setQueue s1 q { queueAt s1 q with appseq := seq, recs := x.recs ++ [seq] }) (fun w => w == .queue q)))

/-- 14 R312, R316: QPUT, QTAKE and QSTAT reach the queue point in their order, QMARK at commit; another partition's queue is PERMISSION. As
the point takes them QPUT performs what is ordered before it, appends its 16 lanes and sends status and sequence number; QTAKE takes
the head of a STOPPED queue, and otherwise sends a null with the status, or waits on an empty ring; QSTAT sends status words 0 to 3;
QMARK moves the mark and clears the log count. -/
def QueueRecordsAct : Prop :=
  ∀ (r : RecS) (s : State),
    let q := bits r.obj.toNat 7 0
    let x := queueAt s q
    (r.cf = 0 → bits r.obj.toNat 31 8 = 0 → Supplied s r.ctl [0] → Clean s →
      let c := s.cur
      let ctx := matchCtx s c.p c.plane c.tag
      let foreign : Prop := x.state ≠ 0 ∧ x.part ≠ partOf s ctx
      let deny := Host.Outcome.next (φ := Fault) (ρ := Refusal) (faultCur s c cPERMISSION 0)
      let there := fun (i : Instr) => Host.Outcome.next (φ := Fault) (ρ := Refusal)
        { s with qreqs := insBy qBefore { q := q, born := s.cycle, what := .inst { i := i, cur := c } } s.qreqs }
      (foreign → (r.sub = 0 → exec (.qput r) s = deny ∧ exec (.qtake r) s = deny ∧ exec (.qstat r) s = deny) ∧
        (r.sub = 1 → exec (.qtakePoll r) s = deny)) ∧
      (¬ foreign →
        (r.sub = 0 → exec (.qput r) s = there (.qput r) ∧ exec (.qtake r) s = there (.qtake r) ∧ exec (.qstat r) s = there (.qstat r)) ∧
        (r.sub = 1 → exec (.qtakePoll r) s = there (.qtakePoll r)) ∧
        (r.sub = 0 → c.site = 240 →
          (privOf s ctx = 0 → exec (.qmark r) s = deny) ∧
          (privOf s ctx ≠ 0 → (x.state = 0 ∨ x.log = 0) → exec (.qmark r) s = .next (faultCur s c cILLEGAL 0)) ∧
          (privOf s ctx ≠ 0 → x.state ≠ 0 → x.log ≠ 0 →
            (∀ b, InBlock s b → exec (.qmark r) s = .next (held s b (.qmark r))) ∧
            (c.late = true → exec (.qmark r) s = there (.qmark r)))))) ∧
    (∀ (c : Cur) (born : Nat),
      let status := fun (st seq : Nat) => ({ tag := c.tag, ty := 6, lanes := [BitVec.ofNat 32 st, BitVec.ofNat 32 seq] } : Val)
      let nothing := fun (st : Nat) => emitRes s c (formS r) 6
        { v0 := some { tag := c.tag, ty := 6, lanes := List.replicate 16 0, null := true }, v1 := some (status st 0) }
      let taken := fun (i : Instr) => takeReq s { q := q, born := born, what := .inst { i := i, cur := c } }
      (let ls := (portTok c 0).lanes
       let ws : List Word64 := (List.range 8).map (fun k => BitVec.ofNat 64 (laneN ls (2 * k) + laneN ls (2 * k + 1) * 2 ^ 32))
       let y := queueAppend (pushScope s c.p 3 (some (matchCtx s c.p c.plane c.tag))) q ws
       taken (.qput r) = emitRes y.1 c (formS r) 6 (both (status y.2.1 y.2.2))) ∧
      (∀ (wait : Bool),
        let i := if wait then Instr.qtake r else .qtakePoll r
        (x.state = 0 → taken i = nothing 2) ∧ (2 ≤ x.state → taken i = nothing 4) ∧
        (x.state = 1 → x.recs = [] → taken i = if wait then waitOn s c (.queue q) else nothing 3) ∧
        (∀ seq rest, x.state = 1 → x.recs = seq :: rest →
          taken i = emitRes (setQueue s q (countSeq { x with recs := rest } seq)) c (formS r) 6
            { v0 := some { tag := c.tag, ty := 6, lanes := wordsLanes ((ringWords s q seq).map (·.toNat)) }, v1 := some (status 0 seq) })) ∧
      (let ws := [put x.state 61 + put (b2n x.overflow) 16 + qFree x, put x.appseq 32 + x.cplseq, put x.drops 32 + x.bad,
          put x.markseq 32 + put (b2n x.logbreak) 29 + x.logn]
       taken (.qstat r) = emitRes s c (formS r) 7 (both { tag := c.tag, ty := 7, lanes := wordsLanes ws })) ∧
      taken (.qmark r) = emitRes (setQueue s q { x with markseq := x.appseq, logn := 0, logbreak := false }) c (formS r) 6
        (both (ackVal c.tag x.appseq)))

/-! ## Launches, planes and snapshots -/

/-- 15 R329; 13 R299: KSTAGE, KFLIP, KDRAIN and SNAP stand at the scribe; in a block they are held to commit; a plane number above 3 or a
reserved bit faults, and a plane outside the context's PLANES is PERMISSION. -/
def PlaneRecordsAreHeld : Prop :=
  ∀ (r : RecS) (s : State), r.cf = 0 → AtScribe s r →
    let c := s.cur
    let ls := (portTok c 0).lanes
    let k := laneN ls 0
    let mine := fun (k : Nat) => bit (ctxAt s (matchCtx s c.p c.plane c.tag)).planes k
    let illegal := Host.Outcome.next (φ := Fault) (ρ := Refusal) (faultCur s c cILLEGAL 0)
    let deny := Host.Outcome.next (φ := Fault) (ρ := Refusal) (faultCur s c cPERMISSION 0)
    (r.obj = 0 →
      (r.sub = 0 → descReserved ls = true → exec (.kstage r) s = illegal) ∧
      (r.sub = 0 → descReserved ls = false → mine (descPlane ls) = false → exec (.kstage r) s = deny) ∧
      (4 ≤ k → (r.sub = 0 → exec (.kflip r) s = illegal ∧ exec (.kdrain r) s = illegal) ∧
        (r.sub = 1 → exec (.kdrainPurge r) s = illegal) ∧ (r.sub = 2 → exec (.kdrainPoll r) s = illegal)) ∧
      (k < 4 → mine k = false → (r.sub = 0 → exec (.kflip r) s = deny ∧ exec (.kdrain r) s = deny) ∧
        (r.sub = 1 → exec (.kdrainPurge r) s = deny) ∧ (r.sub = 2 → exec (.kdrainPoll r) s = deny))) ∧
    (∀ b, InBlock s b →
      (r.obj = 0 → r.sub = 0 → descReserved ls = false → mine (descPlane ls) = true →
        exec (.kstage r) s = .next (held s b (.kstage r))) ∧
      (r.obj = 0 → k < 4 → mine k = true →
        (r.sub = 0 → exec (.kflip r) s = .next (held s b (.kflip r)) ∧ exec (.kdrain r) s = .next (held s b (.kdrain r))) ∧
        (r.sub = 1 → exec (.kdrainPurge r) s = .next (held s b (.kdrainPurge r))) ∧
        (r.sub = 2 → exec (.kdrainPoll r) s = .next (held s b (.kdrainPoll r)))) ∧
      (r.sub = 0 → bits r.obj.toNat 31 24 = 0 → r.obj.toNat % 65536 ≠ 0 → snapLanesBad s c = false →
        exec (.snap r) s = .next (held s b (.snap r))))

/-- 15 R318 to R326: at commit KSTAGE starts to stage a plane that is FREE, STAGED, IDLE or INVALID, of its own context, and neither the
scribe plane nor the injection plane, and is BUSY otherwise; KFLIP starts the flip to a STAGED or IDLE plane and is BUSY
otherwise, as it is for a plane that a placed launch holds (the model's choice, log 87); KDRAIN moves a LIVE plane to DRAINING and waits for it to empty; SUB 1 waits for a purge of a DRAINING plane; SUB 2
reads the status word. -/
def PlaneRecordsTakeEffect : Prop :=
  ∀ (r : RecS) (s : State), r.cf = 0 → r.obj = 0 → AtScribe s r → s.cur.late = true →
    let c := s.cur
    let ls := (portTok c 0).lanes
    let ctx := matchCtx s c.p c.plane c.tag
    let mine := fun (k : Nat) => bit (ctxAt s ctx).planes k
    let answers := fun (status k : Nat) => Host.Outcome.next (φ := Fault) (ρ := Refusal) (emitRes s c (formS r) 6
      (both { tag := c.tag, ty := 6, lanes := [BitVec.ofNat 32 status, BitVec.ofNat 32 (planeWord s c.p k)] }))
    (r.sub = 0 → descReserved ls = false → mine (descPlane ls) = true →
      let k := descPlane ls
      let x := planeOf s c.p k
      let free : Prop := (x.state = 0 ∨ ((x.state = 2 ∨ x.state = 5 ∨ x.state = 6) ∧ x.ctx = ctx)) ∧
        (panelAt s c.p).scribePlane ≠ some k ∧ (panelAt s c.p).inj ≠ some k ∧ launchHolds s c.p k = false
      (¬ free → exec (.kstage r) s = answers 1 k) ∧
      (free → ∃ own, own (descKpanel ls) = c.p ∧
        (let s1 := stageStart s c.p k ctx (descObj ls) (descKidx ls) (descKpanel ls) (descDy ls) (descDx ls) own
         let y := planeOf s1 c.p k
         exec (.kstage r) s = .next (setPlane s1 c.p k { y with waiters := y.waiters ++ [(0, c, r)] })))) ∧
    (laneN ls 0 < 4 → mine (laneN ls 0) = true →
      let k := laneN ls 0
      let x := planeOf s c.p k
      (r.sub = 0 →
        (((x.state ≠ 2 ∧ x.state ≠ 5) ∨ (panelAt s c.p).flip ≠ none ∨ launchHolds s c.p k = true) →
          exec (.kflip r) s = answers 1 k) ∧
        ((x.state = 2 ∨ x.state = 5) → (panelAt s c.p).flip = none → launchHolds s c.p k = false → exec (.kflip r) s =
          .next (setPanel s c.p { panelAt s c.p with flip := some { target := k, ask := some (c, r), born := s.cycle } })) ∧
        ((x.state = 3 ∨ x.state = 4) →
          let s1 := planeDrain s c.p k
          let y := planeOf s1 c.p k
          exec (.kdrain r) s = .next (setPlane s1 c.p k { y with waiters := y.waiters ++ [(1, c, r)] })) ∧
        ((x.state = 0 ∨ x.state = 2 ∨ x.state = 5 ∨ x.state = 6) → exec (.kdrain r) s = answers 0 k) ∧
        (x.state = 1 → exec (.kdrain r) s = answers 1 k)) ∧
      (r.sub = 1 →
        (x.state = 4 → exec (.kdrainPurge r) s = .next (setPlane s c.p k { x with waiters := x.waiters ++ [(2, c, r)] })) ∧
        (x.state ≠ 4 → exec (.kdrainPurge r) s = answers 1 k)) ∧
      (r.sub = 2 → exec (.kdrainPoll r) s = answers 0 k))

/-- 15 R321, R322, R325, R326: a STAGING plane becomes STAGED, or INVALID with the FAIL code found, and its KSTAGE is answered; a DRAINING
plane that holds no work becomes IDLE, or is purged and becomes IDLE when a purge waits and it is quiet. -/
def PlanesChangeState : Prop :=
  ∀ (s : State),
    let p := s.sel.p
    let k := s.sel.plane
    let x := planeOf s p k
    (x.state = 1 → x.verdict = 0 → exec .stageComplete s = .next (launchesGo (planeAnswer
      (setPlane (loadStores s p k) p k { x with state := 2, image := [], blockImage := [] }) p k (fun n => n == 0) 0))) ∧
    (x.state = 1 → x.verdict ≠ 0 → exec .stageComplete s = .next (launchesGo (planeAnswer
      (setPlane s p k { x with state := 6, fail := x.verdict, verdict := 0 }) p k (fun n => n == 0) 2))) ∧
    (x.state ≠ 1 → exec .stageComplete s = .refused .notEnabled) ∧
    (x.state ≠ 4 → exec .planeEmpty s = .refused .notEnabled) ∧
    (x.state = 4 → planeEmpty s p k = true → exec .planeEmpty s = .next (planeIdle s p k)) ∧
    (x.state = 4 → planeEmpty s p k = false → x.waiters.any (fun w => w.1 == 2) = true → planeQuiet s p k = true →
      exec .planeEmpty s = .next (planeIdle (planePurge s p k) p k))

/-- 15 R323, R324: a flip takes effect when its plane passes the re-check: its rule entries and WELL words are loaded, the injection plane
before it becomes DRAINING, and it is LIVE and the scribe and injection plane; a plane that fails becomes INVALID with FAIL 6 or
7. KFLIP is answered, and what waited for the flip leaves. -/
def FlipsTakeEffect : Prop :=
  ∀ (s : State) (k born : Nat) (c : Cur) (r : RecS),
    let p := s.sel.p
    (panelAt s p).flip = some { target := k, ask := some (c, r), born := born } →
    let s0 := setPanel s p { panelAt s p with flip := none }
    let x := planeOf s0 p k
    let wrong := x.wells.any (flipWellBad s0 p x.ctx) || x.rules.any entryBad
    let fin := fun (t : State) (status : Nat) => Host.Outcome.next (φ := Fault) (ρ := Refusal)
      (launchesGo (flushFlip (planeEmit t c r status p k) p))
    ((x.state = 2 ∨ x.state = 5) → recheckBad s0 p k = true →
      exec .flipTakesEffect s = fin (setPlane s0 p k { x with state := 6, fail := failStore }) 2) ∧
    ((x.state = 2 ∨ x.state = 5) → recheckBad s0 p k = false → wrong = true →
      exec .flipTakesEffect s = fin (setPlane s0 p k { x with state := 6, fail := failFlip }) 2) ∧
    ((x.state = 2 ∨ x.state = 5) → recheckBad s0 p k = false → wrong = false →
      exec .flipTakesEffect s = fin (flipTake s0 p k) 0 ∧
      (panelAt (flipTake s0 p k) p).inj = some k ∧ (panelAt (flipTake s0 p k) p).scribePlane = some k)

/-- 15 R327 to R329: SNAP with none open takes the next number and sends a marker to each destination; with one open it waits; in a
context of 1 row it aborts. The last marker at a SINK makes the SNAP done, and a join forwards one marker when each port is
marked; a timeout aborts. -/
def SnapshotsRun : Prop :=
  ∀ (s : State),
    (∀ r : RecS, r.cf = 0 → r.sub = 0 → bits r.obj.toNat 31 24 = 0 → r.obj.toNat % 65536 ≠ 0 → AtScribe s r → s.cur.late = true →
      let c := s.cur
      let pn := panelAt s c.p
      snapLanesBad s c = false →
      (pn.snap ≠ none → exec (.snap r) s = .next (setPanel s c.p { pn with snapWait := pn.snapWait ++ [(c, r)] })) ∧
      (∀ k, pn.snap = none → pn.snapWait = [] → pn.inj = some k → (ctxAt s (matchCtx s c.p c.plane c.tag)).rows ≠ 1 →
        let id := (pn.lastSnap + 1) % 2 ^ 32
        let t := bits r.obj.toNat 23 16
        let sn : Snap :=
          { id := id, want := r.obj.toNat % 65536, count := 0
            deadline := if t = 0 then none else some (s.cycle + 1024 * t), cur := c, r := r }
        let s1 := setPanel s c.p { pn with lastSnap := id }
        exec (.snap r) s = .next (sendMarkers (setPanel s1 c.p { panelAt s1 c.p with snap := some sn, snapWait := [] }) c k id))) ∧
    (∀ sn d, (panelAt s s.sel.p).snap = some sn → sn.deadline = some d →
      (s.cycle < d → exec .snapTimeout s = .refused .notEnabled) ∧
      (d ≤ s.cycle → exec .snapTimeout s = .next (snapAbort s s.sel.p 240))) ∧
    (∀ f : Flight, s.transit[s.sel.k]? = some f → f.queued = false → f.tok.snap = true → behindOwn s s.sel.k f = false →
      entryLate s f = false →
      let t := f.tok
      let p := f.p
      let site := t.site.toNat
      let k := t.plane.toNat
      let s1 := noteTook { s with transit := dropAt s.transit s.sel.k } f
      let id := laneN t.lanes 0
      let w := recAt s p site k t.node.toNat
      isNib site = true → (panelAt s p).deadSnaps.contains id = false →
      (nibAt s p site).forwarded.contains (k, t.node.toNat, id) = false → admits s p t.tag = true → planeRuns s p k = true →
      (portsOf w).contains t.port.toNat = true →
      (Machine.opOf w = 0x22 → exec .markerArrival s = .next (countMarker s1 p id)) ∧
      (Machine.opOf w ≠ 0x22 → queueLen s p site + (markerDests w).length ≤ 8 →
        ((portsOf w).length = 1 → exec .markerArrival s = .next (forwardMarker s1 p site t w)) ∧
        ((portsOf w).length ≠ 1 → exec .markerArrival s = .next (joinMarker s1 p site t w))))

/-- 14 R306 to R310: in its turn the clicker of a die completes the first head that the checks refuse as REFUSED; with none, the first
head that can be placed, among those of the highest priority, becomes a launch, and one whose kernel cannot be staged completes as
STAGE_FAIL; with no such head nothing happens. -/
def HeadsAreRefusedOrPlaced : Prop :=
  ∀ (s : State),
    let d := s.sel.die
    let s0 := { s with lastPlace := s.cycle + 1 }
    let refusedHead := fun (x : Nat × Queue) => match headOf s x.1 with
      | some (seq, ws) => if x.2.state == 2 && headRefused s x.1 ws then some (x.1, seq, ws) else none
      | none => none
    let hs := (heads s).filter (fun h => bit (recMask h.2.2) d)
    let prio := hs.foldl (fun n h => max n (recPrio h.2.2)) 0
    let t := tgetD s.turns prio {}
    let found := firstHead d (turnOrder t (hs.filter (fun h => recPrio h.2.2 == prio))) s0
    d < 3 → s.cycle % 3 = d → s.lastPlace ≠ s.cycle + 1 →
    (∀ q seq ws rest, s.queues.filterMap refusedHead = (q, seq, ws) :: rest →
      exec .launchPlacement s = .next (completeHead s0 q seq (recIrq ws) 1)) ∧
    (s.queues.filterMap refusedHead = [] →
      (found = none → exec .launchPlacement s = .refused .notEnabled) ∧
      (∀ s1 q seq ws k xs, found = some (s1, (q, seq, ws), .placed k xs) → exec .launchPlacement s =
        .next (launchRecord { s1 with turns := tput s1.turns prio (turnAfter s1 t q) } q seq ws k xs)) ∧
      (∀ s1 q seq ws, found = some (s1, (q, seq, ws), .fails) →
        exec .launchPlacement s = .next (completeHead s1 q seq (recIrq ws) 2)))

/-- 14 R311, R313: a launch whose colours have retired leaves, drains its planes, and completes: its record goes to the completion slot of
its sequence number with its status, flags and cycles, CPLSEQ advances over what is contiguous, and IRQ raises MSI-X. -/
def LaunchesComplete : Prop :=
  ∀ (s : State) (x : Launch), s.launches[s.sel.k]? = some x →
    (x.stage ≠ 3 → exec .launchCompletion s = .refused .notEnabled) ∧
    (x.stage = 3 →
      let mine := fun (i : Nat) => (planeOf s (x.panels.getD i 0) (x.planes.getD i 0)).ctx == x.ctx && x.status != 3
      let s1 := iter { s with launches := dropAt s.launches s.sel.k } x.panels.length
        (fun t i => if mine i then planeDrain t (x.panels.getD i 0) (x.planes.getD i 0) else t)
      let irq := bit (x.words.getD 1 0).toNat 36
      let n := s.cycle - x.born
      let q := queueAt s1 x.q
      let ws : List Word64 :=
        [BitVec.ofNat 64 (put x.seq 32 + put (if x.status = 0 then x.flags.toNat else 0) 8 + x.status), BitVec.ofNat 64 (min n (2 ^ 64 - 1))]
      let s2 := physStore s1 noCtx (cplSlot q x.seq) (wordBytes ws)
      let y := queueAt s2 x.q
      let s3 := setQueue s2 x.q (queueRest { countSeq y x.seq with running := y.running.filter (fun n => n != x.seq) })
      exec .launchCompletion s = .next (if irq then { s3 with out := s3.out ++ [.msix q.part q.msiv] } else s3))

/-! ## Contexts and partitions -/

/-- 13 R299: PARK, RESUME and YIELD stand at the scribe; in a block they are held to commit. A context of no partition faults, one of
another partition is PERMISSION, and a block does not park its own context. -/
def ContextRecordsAreHeld : Prop :=
  ∀ (r : RecS) (s : State), r.cf = 0 → bits r.obj.toNat 31 8 = 0 → AtScribe s r →
    let c := s.cur
    let own := matchCtx s c.p c.plane c.tag
    let t := if bits r.obj.toNat 7 0 = 0xFF then own else bits r.obj.toNat 7 0
    let owner := ctxOwner s t
    let illegal := Host.Outcome.next (φ := Fault) (ρ := Refusal) (faultCur s c cILLEGAL 0)
    let deny := Host.Outcome.next (φ := Fault) (ρ := Refusal) (faultCur s c cPERMISSION 0)
    (r.sub = 0 → t = own → exec (.park r) s = illegal) ∧
    (owner = none → (r.sub = 0 → t ≠ own → exec (.park r) s = illegal) ∧
      (r.sub.toNat ≤ 1 → exec (.resume r) s = illegal)) ∧
    (∀ k, owner = some k → k ≠ partOf s own → (r.sub = 0 → t ≠ own → exec (.park r) s = deny) ∧
      (r.sub.toNat ≤ 1 → exec (.resume r) s = deny)) ∧
    (∀ b, InBlock s b →
      (owner = some (partOf s own) → (r.sub = 0 → t ≠ own → exec (.park r) s = .next (held s b (.park r))) ∧
        (r.sub.toNat ≤ 1 → exec (.resume r) s = .next (held s b (.resume r)))) ∧
      (r.sub = 0 → exec (.yield r) s = .next (held s b (.yield r))))

/-- 13 R286 to R288, R293, R299, R300: at commit PARK starts a park of a RESIDENT context, or joins the one in progress, and is REFUSED
otherwise; RESUME waits for a park in progress, sets a restore of a PARKED context going on the panels it names, and is REFUSED in
other states than READY;
YIELD starts a park of its own context exactly when queued work waits for its panels. -/
def ContextRecordsTakeEffect : Prop :=
  ∀ (r : RecS) (s : State), r.cf = 0 → bits r.obj.toNat 31 8 = 0 → AtScribe s r → s.cur.late = true →
    let c := s.cur
    let own := matchCtx s c.p c.plane c.tag
    let t := if bits r.obj.toNat 7 0 = 0xFF then own else bits r.obj.toNat 7 0
    let a : ParkAsk := { cur := c, r := r, ctx := own }
    let x := ctxAt s t
    ctxOwner s t = some (partOf s own) →
    (r.sub = 0 → t ≠ own →
      (x.state = 3 → parkOf s t = none → exec (.park r) s = .next { s with parks := s.parks ++
        [{ ctx := t, round := 1, began := s.cycle, asks := [a], preempt := false, faulted := none }] }) ∧
      (∀ y, x.state = 3 → parkOf s t = some y → exec (.park r) s = .next (putPark s { y with asks := y.asks ++ [a] })) ∧
      (x.state ≠ 3 → exec (.park r) s = .next (askEmit (setLast s t 2) a 2))) ∧
    (r.sub.toNat ≤ 1 →
      (∀ y, parkOf s t = some y → exec (.resume r) s = .next (putPark s { y with asks := y.asks ++ [a] })) ∧
      (parkOf s t = none → x.state = 4 → s.resumes.any (fun y => y.ctx == t) = false →
        let ps := if r.sub = 0 then none else some (laneNums c (portTok c 0).lanes.length)
        exec (.resume r) s = .next { s with resumes := s.resumes ++ [{ ctx := t, panels := ps, ask := some a }] }) ∧
      (parkOf s t = none → x.state ≠ 4 → x.state ≠ 2 → exec (.resume r) s = .next (askEmit (setLast s t 2) a 2))) ∧
    (r.sub = 0 →
      ((ctxAt s own).state = 3 → workWaits s own 0 = true → exec (.yield r) s = .next (parkStart s own none false)) ∧
      (((ctxAt s own).state ≠ 3 ∨ workWaits s own 0 = false) → exec (.yield r) s = .next s))

/-- 13 R285, R299: CTXPRI is acknowledged at its firing, and held in a block; at commit it changes the priorities of the target's planes
only, on its own panel or on every panel of the target. A block of user privilege changes its own context alone, and no STRICT bit. -/
def PrioritiesAreSet : Prop :=
  ∀ (r : RecS) (s : State), r.cf = 0 → bits r.obj.toNat 31 8 = 0 → r.sub.toNat ≤ 1 → AtScribe s r →
    let c := s.cur
    let own := matchCtx s c.p c.plane c.tag
    let t := objCtx s c r
    let v := laneN (portTok c 0).lanes 0
    let ack := emitRes s c (formS r) 6 (both (ackVal c.tag 0))
    (c.late = false → ctxOwner s t = some (partOf s own) →
      (privOf s own = 0 → (t ≠ own ∨ setsStrict s c r = true) → exec (.ctxpri r) s = .next (faultCur s c cPERMISSION 0)) ∧
      ((privOf s own ≠ 0 ∨ (t = own ∧ setsStrict s c r = false)) → ∀ b, InBlock s b →
        exec (.ctxpri r) s = .next (holdEff ack (.ctxpri r)))) ∧
    (c.late = true → (ctxAt s t).state ≠ 4 →
      (r.sub = 0 → exec (.ctxpri r) s = .next (setPanel s c.p { panelAt s c.p with
        plpri := priMerge (panelAt s c.p).plpri.toNat v (planeMine s c.p t) })) ∧
      (r.sub = 1 → exec (.ctxpri r) s = .next ((ctxAt s t).panels.foldl (fun s p => setPanel s p { panelAt s p with
        plpri := priMerge (panelAt s p).plpri.toNat v (planeMine s p t) }) s)))

/-- 13 R285: the fields of a plane that the writer may not change stay as they are. -/
def PrioritiesOfOthersStay : Prop :=
  ∀ (old new : Nat) (f : Nat → Bool) (k : Nat), k < 4 →
    let v := (priMerge old new f).toNat
    bits v (4 * k + 3) (4 * k) = bits (if f k then new else old) (4 * k + 3) (4 * k) ∧
    bit v (16 + k) = bit (if f k then new else old) (16 + k)

/-- 13 R287, R289, R294, R295: the rounds of a park. Round 1 shuts the gates of the context's panels; round 2 ends when nothing of it moves;
round 3 when no sector and no pass is under way; a park of another start than a pre-emption is abandoned when 4,096 cycles of the
pre-emption have passed; a fault of the save area abandons the park and is posted with KIND 1. -/
def ParksGoByRounds : Prop :=
  ∀ (s : State) (x : Park), parkOf s s.sel.ctx = some x →
    let part := partOf s x.ctx
    (x.faulted = none →
      (x.round = 1 → exec .parkGate s = .next (putPark (setGates s x.ctx true) { x with round := 2 })) ∧
      (x.round = 2 → ctxSettled s x.ctx = true → exec .parkSettle s = .next (putPark s { x with round := 3 })) ∧
      (x.round = 2 → ctxSettled s x.ctx = false → exec .parkSettle s = .refused .notEnabled) ∧
      (x.round = 3 → ctxQuiet s x.ctx = true → exec .parkQuiesce s = .next (putPark s { x with round := 4 })) ∧
      (x.round = 3 → ctxQuiet s x.ctx = false → exec .parkQuiesce s = .refused .notEnabled) ∧
      (x.round ≠ 1 → exec .parkGate s = .refused .notEnabled) ∧ (x.round ≠ 4 → exec .parkStream s = .refused .notEnabled) ∧
      (x.round ≠ 5 → exec .parkCommit s = .refused .notEnabled)) ∧
    (parkLate s x = true → exec .parkAbandonTimeout s = .next (preemptGo (parkAbandon s x) part)) ∧
    (parkLate s x = false → exec .parkAbandonTimeout s = .refused .notEnabled) ∧
    (x.preempt = true → parkLate s x = false) ∧
    (∀ cause addr p, x.faulted = some (cause, addr, p) →
      let s1 := post (parkAbandon s x) { cause := cause, addr := addr, kind := 1, site := 240, panel := p, ctx := x.ctx }
      (x.preempt = false → exec .parkFaultAbandon s = .next (preemptGo s1 part)) ∧
      (x.preempt = true → exec .parkFaultAbandon s = .next (freezeStart s1 part false)))

/-- 13 R289 to R294: round 4 reads the header and writes the half that is not valid; round 5 writes the header, which makes that half valid
under the next generation, once what round 4 stored is performed; then the context is PARKED with its panels' images kept under that
half, and the park is over. A fault is kept for the
abandonment. -/
def ParksStreamAndCommit : Prop :=
  ∀ (s : State) (x : Park), parkOf s s.sel.ctx = some x → x.faulted = none →
    let ctx := x.ctx
    let p0 := (ctxAt s ctx).panels.getD 0 0
    let hd := readHeader s ctx p0
    (x.round = 4 → ∀ e, hd.2 = .error e →
      exec .parkStream s = .next (putPark hd.1 { x with faulted := some (e, (ctxAt hd.1 ctx).saveBase, p0) })) ∧
    (x.round = 4 → ∀ w, hd.2 = .ok w → ∃ (t : State) (f : Option (Nat × Nat × Nat)),
      exec .parkStream s = .next (putPark t { x with round := 5, faulted := f })) ∧
    (x.round = 5 → ctxBusy s ctx = true → exec .parkCommit s = .refused .notEnabled) ∧
    (x.round = 5 → parkLate s x = false → ctxBusy s ctx = false → ∀ w, hd.2 = .ok w →
      let r := commitHeader hd.1 ctx w
      (∀ f, r.2 = some f → exec .parkCommit s = .next (putPark r.1 { x with faulted := some f })) ∧
      (r.2 = none → x.preempt = false →
        let s1 := { r.1 with
          images := tput r.1.images (2 * ctx + shadowHalf w) ((ctxAt r.1 ctx).panels.map (takeImage r.1 ctx)) }
        let s2 := stripCtx s1 ctx 0
        let s3 := setCtx s2 ctx { ctxAt s2 ctx with state := 4, gen := (w / 2 ^ 32 + 1) % 2 ^ 32, half := shadowHalf w }
        exec .parkCommit s = .next (preemptGo (parkAnswer
          (parkGroups { s3 with parks := s3.parks.filter (fun y => y.ctx != ctx) } ctx) x 0) (partOf r.1 ctx))))

/-- 13 R288; 16 R340: a slice that has run out starts a park when work of its priority or a higher one waits for the panels, and not before
its 1,024-cycle units have passed; a context whose every group has been idle beyond its PWAIT parks when work waits. -/
def IdleContextsPark : Prop :=
  ∀ (s : State),
    let ctx := s.sel.ctx
    let x := ctxAt s ctx
    let part := partOf s ctx
    let idle := fun (g : Nat) => match groupColours s part g with
      | c :: _ => (colourAt s part c).gstate == 2 && (colourAt s part c).pwait != 0 &&
          decide ((groupAt s g).lastIssue + (colourAt s part c).pwait < s.cycle)
      | [] => true
    ((x.slice = 0 ∨ x.sliceCnt < x.slice * 1024) → exec .sliceExpiry s = .refused .notEnabled) ∧
    (ctxRuns s ctx = true → x.slice ≠ 0 → x.slice * 1024 ≤ x.sliceCnt → workWaits s ctx (ctxPrio s ctx) = true →
      exec .sliceExpiry s = .next (parkStart s ctx none false)) ∧
    (ctxRuns s ctx = true → ctxGroups s ctx ≠ [] → (ctxGroups s ctx).all idle = true → workWaits s ctx 0 = true →
      exec .parkwaitExpiry s = .next (parkStart s ctx none false)) ∧
    ((ctxGroups s ctx).all idle = false → exec .parkwaitExpiry s = .refused .notEnabled)

/-- 13 R293, R300: a restore ends REFUSED (2), with a post of KIND 1, on a header that cannot be read, with 3 on one that is not valid, with
RESTAGE (4) on one that names more slots than were saved (the model's choice, log 90), and with REFUSED (2) on targets that cannot host
the image of the half that the header names. Else the planes are re-staged, which fails with 4, the wells' bytes read back, and the
images put back, and the context is RESIDENT. -/
def RestoresComplete : Prop :=
  ∀ (s : State) (x : Resume),
    (s.resumes.find? (fun x => x.ctx == s.sel.ctx) = some x →
      let ctx := x.ctx
      let p0 := resumePanel s x
      let hd := readHeader s ctx p0
      let fault := fun (t : State) (e off : Nat) => Host.Outcome.next (φ := Fault) (ρ := Refusal) (post (resumeEnd t x 2)
        { cause := e, addr := (ctxAt t ctx).saveBase + off, kind := 1, site := 240, panel := resumePanel t x, ctx := ctx })
      (∀ e, hd.2 = .error e → exec .resumeComplete s = fault hd.1 e 0) ∧
      (∀ w, hd.2 = .ok w →
        (bit w 0 = false → exec .resumeComplete s = .next (resumeEnd hd.1 x 3)) ∧
        (bit w 0 = true →
          let sl := readSlots hd.1 ctx p0
          (∀ e, sl.2 = .error e → exec .resumeComplete s = fault sl.1 e 8) ∧
          (∀ slots, sl.2 = .ok slots →
            let im := (tgetD sl.1.images (2 * ctx + b2n (bit w 1)) []).take slots.length
            let ps := (x.panels.getD slots).take slots.length
            (im.length < slots.length → exec .resumeComplete s = .next (resumeEnd sl.1 x 4)) ∧
            (slots.length ≤ im.length → targetsOk sl.1 ctx im ps = false →
              exec .resumeComplete s = .next (resumeEnd sl.1 x 2)) ∧
            (slots.length ≤ im.length → targetsOk sl.1 ctx im ps = true →
              exec .resumeComplete s = .next (restoreImage sl.1 x (b2n (bit w 1)) im ps)))))) ∧
    (∀ (h : Nat) (im : List SavedPanel) (ps : List Nat),
      let ctx := x.ctx
      let xs := (List.range im.length).zip im
      let s1 := xs.foldl (fun s y => admitCtx s ctx (ps.getD y.1 0)) s
      let staged := xs.foldl (fun (t : Option State) y => t.bind (fun t => restagePanel t im ps ctx (ps.getD y.1 0) y.2)) (some s1)
      (staged = none → restoreImage s x h im ps = resumeEnd s x 4) ∧
      (∀ s2 s3, staged = some s2 →
        xs.foldl (fun r y => loadWells ctx h y.1 (ps.getD y.1 0) y.2 r) ((s2, none) : Stream) = (s3, none) →
        let s4 := xs.foldl (fun s y => putImage s (panelMap im ps) ctx (ps.getD y.1 0) y.2) s3
        restoreImage s x h im ps =
          launchesGo (resumeEnd (resumeGroups (makeResident (moveCtx s4 (panelMap im ps) ctx) ctx) ctx) x 0)))

/-- 13 R280 to R283, R286: a word of a context record, written by a function that reaches its partition, changes that record; VALIDATE makes a
BUILT record that passes R283's checks READY, and leaves another as it is; RELEASE zeroes a record that is BUILT, READY, PARKED or
CLEARED, which is then EMPTY, a restore in progress ending first; a function that does not reach the partition changes nothing. -/
def ContextRecordsAreBuilt : Prop :=
  ∀ (s : State) (fn : Nat), s.sel.who = .host fn → fn ≤ 64 → s.sel.ctx < 256 →
    let n := s.sel.ctx
    let part := s.sel.part
    let x := ctxAt s n
    let v := s.sel.v.toNat
    let reach := fun (k : Nat) => fn = 0 ∨ fn = k
    let tell := fun (t : State) (res : Nat) => Host.Outcome.next (φ := Fault) (ρ := Refusal)
      (setPart t part { partAt t part with ccmdCtx := n, ccmdRes := res })
    (s.sel.num < 8 →
      (ctxOwner s n = none → exec .crecWrite s = .next s) ∧
      (∀ k, ctxOwner s n = some k → ¬ reach k → exec .crecWrite s = .next s) ∧
      (∀ k, ctxOwner s n = some k → reach k → x.state = 0 →
        exec .crecWrite s = .next (setCtx s n (crecSet { x with state := 1, part := k } s.sel.num v))) ∧
      (∀ k, ctxOwner s n = some k → reach k → (x.state = 1 ∨ (2 ≤ x.state ∧ s.sel.num ∈ [3, 5, 6])) → exec .crecWrite s =
        .next (setCtx s n (if s.sel.num = 6 then { x with
          nbctl := BitVec.ofNat 64 (v % 2 ^ 17), nbWas := if x.nbWas.1 = s.cycle + 1 then x.nbWas else (s.cycle + 1, x.nbctl) }
        else crecSet x s.sel.num v))) ∧
      (∀ k, ctxOwner s n = some k → reach k → 2 ≤ x.state → s.sel.num ∈ [0, 1, 2, 4] → exec .crecWrite s = .next s)) ∧
    (part ≤ 64 → ¬ reach part → exec .validate s = .next s ∧ exec .release s = .next s) ∧
    (part ≤ 64 → reach part →
      ((ctxOwner s n ≠ some part ∨ x.state ≠ 1) → exec .validate s = tell s 1) ∧
      (ctxOwner s n = some part → x.state = 1 → ctxValid s n = false → exec .validate s = tell s 2) ∧
      (ctxOwner s n = some part → x.state = 1 → ctxValid s n = true → exec .validate s =
        tell { setCtx s n { x with state := 2 } with traffic := s.traffic.filter (fun y => y.1 / 8 % 512 != n) } 0) ∧
      ((ctxOwner s n ≠ some part ∨ x.state = 0 ∨ x.state = 3 ∨ x.state = 5) → exec .release s = tell s 1) ∧
      (ctxOwner s n = some part → (x.state = 1 ∨ x.state = 2 ∨ x.state = 4 ∨ x.state = 6) →
        (∀ y, s.resumes.find? (fun y => y.ctx == n) = some y → ∃ t, exec .release s = tell t 0 ∧
          (ctxAt t n).state = 0) ∧
        (s.resumes.find? (fun y => y.ctx == n) = none →
          let s0 := unreserve s n
          let s1 := dropWork { s0 with launches := s.launches.filter (fun l => l.ctx != n || l.stage == 3) } n
          exec .release s = tell { s1 with
            ctxs := tput s1.ctxs n { nbctl := 0 }
            wells := s1.wells.map (fun y => if y.2.left = some n then (y.1, { y.2 with left := none, slots := [] }) else y)
            tlb := s1.tlb.filter (fun e => e.ctx != n) } 0)))

/-- 13 R280, R293, R295, R296, R298: PRANGE and the commands of PCTL are the physical function's: it writes a range that shares no number with
another and leaves out no record in use; PREEMPT, FREEZE, RESET and RESUMEP act when PSTATE admits them and are ignored otherwise, and
from any other function. -/
def PartitionsAreCommanded : Prop :=
  ∀ (s : State) (fn : Nat), s.sel.who = .host fn → fn ≤ 64 → s.sel.part ≤ 64 →
    let k := s.sel.part
    let v := s.sel.v.toNat
    let pt := partAt s k
    let w : Word64 := BitVec.ofNat 64 (v / 2 ^ 24 * 2 ^ 24 + v % 16)
    (fn ≠ 0 → exec .prangeWrite s = .next s ∧ exec .preempt s = .next s ∧ exec .pctlFreeze s = .next s ∧
      exec .pctlReset s = .next s ∧ exec .resumep s = .next s) ∧
    (fn = 0 →
      (prangeRefused s k w = true → exec .prangeWrite s = .next s) ∧
      (prangeRefused s k w = false → exec .prangeWrite s = .next (setPart s k { pt with prange := w })) ∧
      ((pt.pstate = 0 ∨ pt.pstate = 6) → exec .preempt s =
        .next (preemptGo (setPart s k { pt with pstate := 1, preT0 := some s.cycle, parked := [] }) k)) ∧
      (pt.pstate ≠ 0 → pt.pstate ≠ 6 → exec .preempt s = .next s) ∧
      ((pt.pstate ≤ 2 ∨ pt.pstate = 6) → exec .pctlFreeze s = .next (freezeStart s k false)) ∧
      (3 ≤ pt.pstate → pt.pstate ≠ 6 → exec .pctlFreeze s = .next s) ∧
      ((pt.pstate ≤ 4 ∨ pt.pstate = 6) → exec .pctlReset s = .next (freezeStart s k true)) ∧
      (pt.pstate = 5 → exec .pctlReset s = .next s) ∧
      (pt.pstate ≠ 2 → exec .resumep s = .next s) ∧
      (pt.pstate = 2 → pt.parked = [] → s.resumes = [] → exec .resumep s = .next (setPart s k { pt with pstate := 0, parked := [] })))

/-- 13 R296: a freezing partition is frozen once its contexts have settled, or after 4,096 cycles, when what still moves is dropped and
counted; PSTATE becomes FROZEN, or CLEARING under RESET. Clearing makes every FROZEN context CLEARED and the partition CLEARED. -/
def PartitionsFreezeAndClear : Prop :=
  ∀ (s : State),
    let k := s.sel.part
    let pt := partAt s k
    let cs := frozenCtxs s k
    (pt.pstate ≠ 3 → exec .partitionFrozen s = .refused .notEnabled) ∧
    (pt.pstate = 3 → cs.all (ctxSettled s) = false → s.cycle < pt.frzT0.getD 0 + 4096 →
      exec .partitionFrozen s = .refused .notEnabled) ∧
    (pt.pstate = 3 → (cs.all (ctxSettled s) = true ∨ pt.frzT0.getD 0 + 4096 ≤ s.cycle) →
      let gone := s.transit.filter (stillMoves s cs)
      let s1 := writeDump (setPart { s with transit := s.transit.filter (fun f => !stillMoves s cs f) } k
        { pt with dropped := pt.dropped + gone.length }) k
      exec .partitionFrozen s = .next (setPart s1 k { partAt s1 k with pstate := if pt.clear_ then 5 else 4, frzT0 := none })) ∧
    (pt.pstate ≠ 5 → exec .partitionCleared s = .refused .notEnabled) ∧
    (pt.pstate = 5 →
      let s1 := cs.foldl clearCtx s
      exec .partitionCleared s = .next (setPart s1 k { partAt s1 k with pstate := 6, clear_ := false, parked := [], dropped := 0 }))

/-! ## Registers and pages -/

/-- 13 R297 to R299: SREAD at the scribe sends the register at issue, and clears what a read clears; a register that does not exist, or a
target outside the block's reach, faults. SWRITE is acknowledged at its firing and held in a block; at commit it writes. -/
def RegistersAreReadAndWritten : Prop :=
  ∀ (r : RecS) (s : State), r.sub = 0 → r.cf = 0 → bits r.obj.toNat 31 24 = 0 → AtScribe s r →
    let c := s.cur
    let ctx := matchCtx s c.p c.plane c.tag
    let num := objNum r
    let t := regTarget s c r
    let colour := blockColour s c.p
    let ls := (portTok c 0).lanes
    let ack := emitRes s c (formS r) 6 (both (ackVal c.tag 0))
    (∀ k, regCause s c r false = some k → exec (.sread r) s = .next (faultCur s c k 0)) ∧
    (regCause s c r false = none → exec (.sread r) s = .next (emitRes (regClear s num t) c (formS r) 7
      (both { tag := c.tag, ty := 7, lanes := wordsLanes [regRead s num t (some ctx) (some colour)] }))) ∧
    ((num < 0x20 ∨ 0x3F < num) →
      (∀ k, c.late = false → regCause s c r true = some k → exec (.swrite r) s = .next (faultCur s c k 0)) ∧
      (∀ b, regCause s c r true = none → InBlock s b → exec (.swrite r) s = .next (holdEff ack (.swrite r))) ∧
      (c.late = true → exec (.swrite r) s =
        .next (regWrite s (.block c.p ctx) num t (laneN ls 0 + laneN ls 1 * 2 ^ 32) (some colour)))) ∧
    (0x20 ≤ num → num ≤ 0x3F →
      (∀ d, shiftDest s c (laneN ls 0 % 65536) = some d → c.late = false → regCause s c r true = none →
        ∀ b, InBlock s b → exec (.swrite r) s = .next (holdEff ack (.swrite r))) ∧
      (shiftDest s c (laneN ls 0 % 65536) = none → c.late = false → exec (.swrite r) s = .next (faultCur s c cILLEGAL 0)))

/-- 13 R297, R281: who reaches a register. A number of no register is illegal; another panel's register takes system privilege and a
context of the block's partition admitted there; user privilege reaches its own registers only, and writes those that the spec lists;
partition registers, but for CCMD, take hypervisor privilege. -/
def RegistersAreProtected : Prop :=
  ∀ (r : RecS) (s : State) (c : Cur) (write : Bool),
    let num := objNum r
    let t := regTarget s c r
    let ctx := matchCtx s c.p c.plane c.tag
    let priv := privOf s ctx
    let part := partOf s ctx
    let cause := regCause s c r write
    let local_ : Prop := regKind num = .panel ∨ regKind num = .scribe
    (regKind num = .absent → cause = some cILLEGAL) ∧
    (local_ → 48 ≤ t → cause = some cILLEGAL) ∧
    (local_ → t < 48 → t ≠ c.p → panelOf s part t = false → cause = some cPERMISSION) ∧
    (local_ → t < 48 → t ≠ c.p → priv ≠ 0 → panelOf s part t = true → cause = none) ∧
    (local_ → t < 48 → t ≠ c.p → priv = 0 → cause = some cPERMISSION) ∧
    (local_ → t < 48 → t = c.p → (priv ≠ 0 ∨ write = false ∨ userWrite num = true) → cause = none) ∧
    (local_ → t < 48 → t = c.p → priv = 0 → write = true → userWrite num = false → cause = some cPERMISSION) ∧
    (regKind num = .context → ctxOwner s t = none → cause = some cILLEGAL) ∧
    (∀ k, regKind num = .context → ctxOwner s t = some k → t ≠ ctx → k ≠ part → cause = some cPERMISSION) ∧
    (regKind num = .group → (cause = none ↔ objTgt r = 0xFF)) ∧
    (regKind num = .partition → 64 < t → cause = some cILLEGAL) ∧
    (regKind num = .partition → t ≤ 64 → num ≠ 0x304 → (cause = none ↔ priv = 2)) ∧
    (num = 0x304 → t ≤ 64 → (cause = none ↔ priv = 2 ∨ (priv = 1 ∧ t = part)))

/-- 13 R281, R285, R297; 02 R54; 06 R125: a host's access to a register that its function reaches, by number and target or at the place
S × 0x8000 + number × 8 of the window. PLPRI changes the fields of the planes it may
change; PLOG from 3 to 10 takes effect at the next pulse, another is ignored; SVCMODE waits for the panel to be idle; another
register takes the value; a target that is not reached changes nothing and reads 0, and a read of LATECNT or MBSTAT clears what it
counts. -/
def HostsWriteRegisters : Prop :=
  ∀ (s : State) (fn : Nat), s.sel.who = .host fn → fn ≤ 64 → offBad s = false →
    let num := (accessed s s.sel.num).1
    let p := (accessed s s.sel.num).2
    let v := s.sel.v.toNat
    let pn := panelAt s p
    (∀ o, s.sel.off = some o → num = o % 0x8000 / 8 ∧ p = o / 0x8000) ∧ (s.sel.off = none → num = s.sel.num ∧ p = s.sel.p) ∧
    (s.sel.off = none → p < 48 → (fn = 0 ∨ panelOf s fn p = true) →
      exec .plpriWrite s = .next (setPanel s p { pn with plpri := priMerge pn.plpri.toNat v (mayPlane s (.host fn) p) }) ∧
      (3 ≤ v % 16 → v % 16 ≤ 10 → exec .pulseWrite s = .next (setPanel s p { pn with plogPend := some (v % 16) })) ∧
      ((v % 16 < 3 ∨ 10 < v % 16) → exec .pulseWrite s = .next s) ∧
      exec .svcmodeWrite s = .next (setPanel s p { pn with svcPend := some (bit v 0) })) ∧
    (s.sel.off = none → (48 ≤ p ∨ (fn ≠ 0 ∧ panelOf s fn p = false)) →
      exec .plpriWrite s = .next s ∧ exec .pulseWrite s = .next s ∧ exec .svcmodeWrite s = .next s) ∧
    (ownRow num = false →
      (hostReaches s fn num p = true → exec .registerWrite s = .next (regWrite s (.host fn) num p v none)) ∧
      (hostReaches s fn num p = false → exec .registerWrite s = .next s)) ∧
    (s.sel.fn ≤ 64 →
      (hostReaches s s.sel.fn num p = true → exec .rcRegisterRead s = .next { regClear s num p with
        out := (regClear s num p).out ++ [.regData s.sel.fn num (BitVec.ofNat 64 (regRead s num p none none))] }) ∧
      (hostReaches s s.sel.fn num p = false →
        exec .rcRegisterRead s = .next { s with out := s.out ++ [.regData s.sel.fn num 0] }))

/-- 13 R297; 20 R396: what the writes of registers change. DONE and LATE clear the bits written as 1; SRSEED, NBCTL, PARKWAIT, the
trap registers and the scratch registers take their fields; a read-only register keeps its value. -/
def RegisterWritesTakeTheirFields : Prop :=
  ∀ (s : State) (a : Agent) (t v : Nat) (k : Option Nat),
    let sc := scribeAt s t
    let x := ctxAt s t
    let w : Word64 := BitVec.ofNat 64 v
    regWrite s a 3 t v k = setScribe s t { sc with done := sc.done &&& ~~~w } ∧
    regWrite s a 5 t v k = setScribe s t { sc with late := sc.late &&& ~~~w, latePend := sc.latePend && sc.late &&& ~~~w != 0 } ∧
    regWrite s a 0x10 t v k = setCtx s t { x with srseed := w } ∧
    regWrite s a 0x11 t v k = setCtx s t { x with
      nbctl := BitVec.ofNat 64 (v % 2 ^ 17), nbWas := if x.nbWas.1 = s.cycle + 1 then x.nbWas else (s.cycle + 1, x.nbctl) } ∧
    regWrite s a 0x14 t v k = setCtx s t { x with parkwait := v % 2 ^ 32 } ∧
    regWrite s a 0x200 t v k = setScribe s t { sc with tvec := BitVec.ofNat 64 (v % 2 ^ 17) } ∧
    regWrite s a 0x202 t v k = setScribe s t { sc with tretb := BitVec.ofNat 64 (v % 2 ^ 16) } ∧
    regWrite s a 0x203 t v k = setScribe s t { sc with tenable := BitVec.ofNat 64 (v % 2 ^ 16) } ∧
    regWrite s a 0x205 t v k = setScribe s t { sc with tscr0 := w } ∧
    (∀ n ∈ [2, 4, 0x12, 0x13, 0x201, 0x204], regWrite s a n t v k = s) ∧
    (∀ n, 0x100 ≤ n → n ≤ 0x17F → regWrite s a n t v k = s)

/-- 02 R54: a written service takes effect once the panel holds no token and no ready match, and not before. -/
def ServiceChangesWhenIdle : Prop :=
  ∀ (s : State) (v : Bool), (panelAt s s.sel.p).svcPend = some v →
    (panelIdle s s.sel.p = true →
      exec .serviceModeChange s = .next (setPanel s s.sel.p { panelAt s s.sel.p with tagged := v, svcPend := none })) ∧
    (panelIdle s s.sel.p = false → exec .serviceModeChange s = .refused .notEnabled)

/-- 18 R370 to R372; 13 R299: the page records stand at the scribe and are held to commit in a block; MPIN and MUNPIN take up to 128 pages and a
window of the context; MINV takes system privilege; a probe of another context does too. -/
def PageRecordsAreHeld : Prop :=
  ∀ (r : RecS) (s : State) (b : Block), r.cf = 0 → AtScribe s r → InBlock s b →
    let c := s.cur
    let own := matchCtx s c.p c.plane c.tag
    let priv := privOf s own
    let t := if bits r.obj.toNat 7 0 = 0xFF then own else bits r.obj.toNat 7 0
    let n := pageN c
    let aligned : Prop := pageVa c % 4096 = 0 ∧ n ≠ 0
    (bits r.obj.toNat 31 8 = 0 → r.sub = 0 →
      (¬ (aligned ∧ n ≤ 128) → exec (.mpin r) s = .next (faultCur s c cILLEGAL 0) ∧ exec (.munpin r) s = .next (faultCur s c cILLEGAL 0)) ∧
      (∀ w, aligned → n ≤ 128 → shiftSite s c (bits r.obj.toNat 7 0) = some w → isWell w = true → wellMode (wellAt s c.p w) = 5 →
        ((wellAt s c.p w).owner = some own →
          exec (.mpin r) s = .next (held s b (.mpin r)) ∧ exec (.munpin r) s = .next (held s b (.munpin r))) ∧
        ((wellAt s c.p w).owner ≠ some own → exec (.mpin r) s = .next (faultCur s c cPERMISSION 0) ∧
          exec (.munpin r) s = .next (faultCur s c cPERMISSION 0)))) ∧
    (ctxOwner s t = some (partOf s own) →
      (bits r.obj.toNat 31 8 = 0 → r.sub = 0 → aligned → n ≤ 2 ^ 30 →
        (priv ≠ 0 → exec (.minv r) s = .next (held s b (.minv r))) ∧
        (priv = 0 → exec (.minv r) s = .next (faultCur s c cPERMISSION 0))) ∧
      (bits r.obj.toNat 31 8 = 0 → r.sub = 1 → priv ≠ 0 → exec (.minvContext r) s = .next (held s b (.minvContext r))) ∧
      ((t = own ∨ priv ≠ 0) →
        (bits r.obj.toNat 31 16 = 0 → r.sub = 0 → n % 4 ≠ 3 → bits r.obj.toNat 15 8 = 0xFF →
          exec (.mprobe r) s = .next (held s b (.mprobe r))) ∧
        (bits r.obj.toNat 31 10 = 0 → (r.sub = 1 → exec (.mprobeRead r) s = .next (held s b (.mprobeRead r))) ∧
          (r.sub = 2 → exec (.mprobeReadClear r) s = .next (held s b (.mprobeReadClear r))))))

/-- 18 R368 to R372: at commit. MPIN and MUNPIN go to their window, which serves its requests in order; MINV drops the cached leaves and the
slots of the range, and emits once the accesses that used them are done; MPROBE reads the leaf; its other forms read the six traffic
counters of a die, and clear them. -/
def PageRecordsTakeEffect : Prop :=
  ∀ (r : RecS) (s : State), r.cf = 0 → AtScribe s r → s.cur.late = true →
    let c := s.cur
    let own := matchCtx s c.p c.plane c.tag
    let priv := privOf s own
    let t := objCtx s c r
    let n := pageN c
    let aligned : Prop := pageVa c % 4096 = 0 ∧ n ≠ 0
    (∀ w, bits r.obj.toNat 31 8 = 0 → r.sub = 0 → aligned → n ≤ 128 → shiftSite s c (bits r.obj.toNat 7 0) = some w →
      isWell w = true → wellMode (wellAt s c.p w) = 5 → (wellAt s c.p w).owner = some own →
      let asks := fun (pins : Bool) => Host.Outcome.next (φ := Fault) (ρ := Refusal)
        (pinsGo { s with pins := s.pins ++ [{ cur := c, r := r, w := w, pins := pins }] })
      exec (.mpin r) s = asks true ∧ exec (.munpin r) s = asks false) ∧
    (ctxOwner s t = some (partOf s own) → priv ≠ 0 →
      (bits r.obj.toNat 31 8 = 0 → r.sub = 0 → aligned → n ≤ 2 ^ 30 →
        exec (.minv r) s = .next (minvAct s c r (pageVa c) (pageVa c + 4096 * n))) ∧
      (bits r.obj.toNat 31 8 = 0 → r.sub = 1 → exec (.minvContext r) s = .next (minvAct s c r 0 (2 ^ 56))) ∧
      (bits r.obj.toNat 31 16 = 0 → r.sub = 0 → n % 4 ≠ 3 → bits r.obj.toNat 15 8 = 0xFF → pageVa c < 2 ^ 56 →
        let x := leafNow s t c.p 240 (pageVa c)
        let sends := fun (leaf word : Nat) => Host.Outcome.next (φ := Fault) (ρ := Refusal)
          (emitRes x.1 c (formS r) 7 (both { tag := c.tag, ty := 7, lanes := wordsLanes [leaf, word] }))
        (∀ l, x.2 = .leaf l → exec (.mprobe r) s = sends l.toNat (put (if bit l.toNat 60 then 4 else 1) 61 +
          put (sizeLevel (pteSize l)) 58 + (match underLeaf x.1 t l (pageVa c) (kindRight (n % 4)) with
            | .ok pa _ => pa
            | .bad k => put (if k = cTRANSLATION then 1 else if k = cPERMISSION then 2 else 3) 56))) ∧
        (x.2 = .bad cTRANSLATION → exec (.mprobe r) s = sends 0 (put 1 56)) ∧
        (x.2 = .bad cPERMISSION → exec (.mprobe r) s = sends 0 (put 2 56))) ∧
      (bits r.obj.toNat 31 10 = 0 →
        let die := if bits r.obj.toNat 9 8 = 3 then dieOf c.p else bits r.obj.toNat 9 8
        let send := fun (u : State) => Host.Outcome.next (φ := Fault) (ρ := Refusal) (emitRes u c (formS r) 7
          (both { tag := c.tag, ty := 7, lanes := wordsLanes (trafficWords s die t) }))
        (r.sub = 1 → exec (.mprobeRead r) s = send s) ∧
        (r.sub = 2 → exec (.mprobeReadClear r) s =
          send { s with traffic := (List.range 6).foldl (fun u k => tdel u (trafficKey die t k)) s.traffic })))

/-- 18 R370, R371: what a window does with a request. MPIN faults at the first page outside the window and at the first that does not
translate, and with more than 128 pins; else it takes its pages in order: each takes a slot, its missing sectors are asked for, and once
all are there it is pinned, and counted if it was not; after the last page the count is emitted. MUNPIN unpins and counts. -/
def WindowsPinPages : Prop :=
  ∀ (s : State) (x : PinAsk),
    let c := { x.cur with late := true }
    let ctx := matchCtx s x.cur.p x.cur.plane x.cur.tag
    let y := wellAt s c.p x.w
    let pages := pagesOf x.cur
    (x.pins = false →
      let mine := fun (y : PwSlot) => y.pin && pages.contains y.page
      pinStep s x = (emitRes (setWell s c.p x.w { y with slots := y.slots.map (fun y =>
        if mine y.2 then (y.1, { y.2 with pin := false }) else y) }) c (formS x.r) 6
        (both (ackVal c.tag (y.slots.filter (fun y => mine y.2)).length)), none)) ∧
    (x.pins = true → x.began = false →
      (∀ page, pages.find? (fun page => !inWindow y page) = some page →
        pinStep s x = (faultCur s c cTRANSLATION (4096 * page), none)) ∧
      (pages.find? (fun page => !inWindow y page) = none →
        let z := pinXlat s x.cur ctx x.w pages
        (∀ k va, z.2 = .error (k, va) → pinStep s x = (faultCur z.1 c k va, none)) ∧
        (∀ xs, z.2 = .ok xs →
          let pinned := (y.slots.filter (fun y => y.2.pin)).map (·.2.page)
          let more := xs.filter (fun z => !pinned.contains z.1)
          (128 < pinned.length + more.length → pinStep s x = (faultCur z.1 c cILLEGAL 0, none)) ∧
          (pinned.length + more.length ≤ 128 → pinStep s x = pinGo 129 z.1 { x with began := true, todo := xs })))) ∧
    (x.pins = true → x.began = true → pinStep s x = pinGo 129 s x) ∧
    (∀ n, x.todo = [] → pinGo (n + 1) s x = (emitRes s c (formS x.r) 6 (both (ackVal c.tag x.count)), none)) ∧
    (∀ n page base rest (t : State) (slot : Nat) (sl : PwSlot), x.todo = (page, base) :: rest →
      takeSlot s c.p x.w page base = some (t, slot) → tget? (wellAt t c.p x.w).slots slot = some sl →
      ((∀ k < 128, bit sl.have_ k = true) →
        let w := wellAt t c.p x.w
        pinGo (n + 1) s x = pinGo n (setWell t c.p x.w { w with slots := tput w.slots slot { sl with pin := true } })
          { x with todo := rest, count := x.count + (if sl.pin then 0 else 1) }) ∧
      ((∃ k < 128, bit sl.have_ k = false) →
        let asked := ((List.range 128).filter (fun k => !bit sl.have_ k)).filter (fun k => !filling t c.p x.w (128 * page + k))
        pinGo (n + 1) s x = (asked.foldl (fun u k => fillReq u c.p x.w (128 * page + k) base (ownerOf u c.p x.w)) t, some x))) ∧
    (∀ n page base rest, x.todo = (page, base) :: rest → takeSlot s c.p x.w page base = none → pinGo (n + 1) s x = (s, some x))

/-! ## Traps -/

/-- 20 R398, R401; 02 R53: TRAP and TRET in a block are held to commit, be their trigger poisoned or not; at commit TRAP pends its code and
TRET returns. -/
def TrapAndReturn : Prop :=
  ∀ (r : RecS) (s : State), r.sub = 0 → r.cf = 0 →
    r.ctl = { lituse := 0, pred := false, emit0 := 0, emit1 := 0, nullpass := false } → s.cur.site = 240 → Supplied s r.ctl [0] →
    let c := s.cur
    (r.obj.toNat < 2 ^ 16 →
      (∀ b, InBlock s b → exec (.trap r) s = .next (held s b (.trap r))) ∧
      (c.late = true → exec (.trap r) s = .next (setScribe s c.p { scribeAt s c.p with trapPend := some r.obj.toNat }))) ∧
    (2 ^ 16 ≤ r.obj.toNat → exec (.trap r) s = .next (faultCur s c cILLEGAL 0)) ∧
    (r.obj = 0 → (∀ b, InBlock s b → exec (.tret r) s = .next (held s b (.tret r))) ∧
      (c.late = true → exec (.tret r) s = .next (trapReturn s c.p)))

/-- 20 R396 to R398: FTAKE emits the oldest entry of the block's context that the block has not claimed, all zero for none; SUB 0 to 2 claim
it in a block and remove it at commit; SUB 3 leaves it. SUB 1 and 2 take an entry of a chain only. -/
def MailboxesAreTaken : Prop :=
  ∀ (r : RecS) (s : State) (i : Instr), r.cf = 0 → r.obj = 0 →
    r.ctl = { lituse := 0, pred := false, emit0 := 0, emit1 := 0, nullpass := false } → s.cur.site = 240 → Supplied s r.ctl [0] →
    ((i = .ftake r ∧ r.sub = 0) ∨ (i = .ftakeRetry r ∧ r.sub = 1) ∨ (i = .ftakeDiscard r ∧ r.sub = 2) ∨ (i = .ftakePeek r ∧ r.sub = 3)) →
    let c := s.cur
    let emit := fun (e : Option MbEntry) => emitRes s c (formS r) 7 (both (entryVal c e))
    let chained : Prop := r.sub = 1 ∨ r.sub = 2
    (takeEntry s c.p = none → c.late = false → chained → exec i s = .next (faultCur s c cILLEGAL 0)) ∧
    (takeEntry s c.p = none → c.late = false → ¬ chained → exec i s = .next (emit none)) ∧
    (∀ k e, takeEntry s c.p = some (k, e) →
      (c.late = false → chained → e.chain = false → exec i s = .next (faultCur s c cILLEGAL 0)) ∧
      (r.sub = 3 → c.late = false → exec i s = .next (emit (some e))) ∧
      (∀ b, r.sub ≠ 3 → (chained → e.chain = true) → InBlock s b →
        exec i s = .next (onBlock (holdEff (emit (some e)) i) c.p (fun b => { b with claims := b.claims ++ [k] }))) ∧
      (c.late = true →
        let s1 := dropEntry s c.p
        (r.sub = 0 → exec i s = .next s1) ∧ (r.sub = 1 → exec i s = .next (retryHeld s1 c.p e)) ∧
        (r.sub = 2 → exec i s = .next (discardHeld s1 c.p e))))

/-- 20 R401, R402: PTEST passes its operand and tells whether it is poisoned; with its report bit a poisoned operand is reported with
KIND 1, in a block at commit. -/
def PoisonIsTested : Prop :=
  ∀ (r : RecN) (s : State), r.hi.toNat < 4 → r.fmt = 0 → r.cf = 0 → r.ctl.lituse = 0 → badCtl [0] r.ctl = false →
    hasPorts s.cur (portSet [0] r.ctl) = true → anyBlock s.cur (portSet [0] r.ctl) = false →
    anyNull s.cur (portSet [0] r.ctl) = false → predFalse r.ctl s.cur = false →
    let c := s.cur
    let a := portTok c 0
    let v := passVal r.ctl c a
    let flag : Val := { tag := c.tag, ty := 6, lanes := [if a.poison then 1 else 0] }
    let xs := destSends r.d0 r.ctl.emit0 (curPoison c) a.poison false v (some v) ++
      destSends r.d1 r.ctl.emit1 (if r.hi.getLsbD 1 then false else curPoison c) a.poison false v
        (some (if r.hi.getLsbD 1 then flag else v))
    let report : MbEntry :=
      { tag := c.tag, cause := cPOISON, kind := 1, site := c.site, node := c.node, plane := c.plane, panel := c.p
        ctx := matchCtx s c.p c.plane c.tag, info := r.lit.toNat }
    (c.late = true → exec (.ptest r) s = .next (post s report)) ∧
    (c.late = false → xs.any (tooWide s c) = false →
      ((a.poison = false ∨ r.hi.getLsbD 0 = false) → exec (.ptest r) s = .next (sends s c xs)) ∧
      (a.poison = true → r.hi.getLsbD 0 = true →
        (∀ b, InBlock s b → exec (.ptest r) s = .next (sends (held s b (.ptest r)) c xs)) ∧
        (c.site ≠ 240 → exec (.ptest r) s = .next (sends (post s report) c xs))))

/-- 20 R397, R399: at a block boundary, outside a handler and with the gate open, the first trap that is due enters the handler of TVEC;
with no handler it is a double fault. With none due, in a handler, or within a block nothing happens. -/
def TrapsAreTaken : Prop :=
  ∀ (s : State),
    let p := s.sel.p
    let sc := scribeAt s p
    ((sc.cur ≠ none ∨ thand sc = true ∨ trapDue s p = none) → exec .trapTaken s = .refused .notEnabled) ∧
    (∀ d, sc.cur = none → sc.stopped = false → gatedCtx s p 240 (blockCtx s p) = false → thand sc = false → trapDue s p = some d →
      (handlerOk s p = true → exec .trapTaken s = .next (takeTrap s p d)) ∧
      (handlerOk s p = false → exec .trapTaken s = .next (doubleFault s p d.cause d.code)))

/-- 20 R400: an uncorrectable error poisons the sector of device memory, the L2 line, the sector of a well, the operand or the token that it
strikes, reports it with KIND 1 for the finding site, and counts it; a struck record is marked in its store. -/
def ErrorsStrikeTheirStore : Prop :=
  ∀ (s : State),
    let x := s.sel
    (∀ addr g, x.loc = .dram addr g → addr < 3 * 2 ^ 42 → addr % 2 ^ 42 < 3 * 2 ^ 40 → g < 48 →
      let s1 := { s with memBad := tsetD s.memBad (addr / 32) true false }
      exec .uncorrectableError s = .next (lifeAdd (postAt s1 g
        { addr := addr, cause := cPOISON, kind := 1, site := x.site, panel := g, ctx := x.ctx }) 3 (arbMem addr % 2 ^ 16) 1)) ∧
    (∀ die addr g e, x.loc = .l2 die addr g → l2At s die addr = some e →
      exec .uncorrectableError s = .next (lifeAdd (strikeReport (putL2 s die addr { e with poison := true }) g x.site addr {} x.ctx)
        2 (unitBank die addr) 1)) ∧
    (∀ p w sector, x.loc = .well p w sector → isWell w = true → sector < 16384 →
      exec .uncorrectableError s = .next (lifeAdd (strikeReport
        { s with wbad := tsetD s.wbad (siteKey p w * 16384 + sector) true false } p w (32 * sector) {} x.ctx) 2 (unitSite p w) 1)) ∧
    (∀ p site k g port t, x.loc = .row p site k → (nibAt s p site).groups[k]? = some g → g.ops[x.num]? = some (port, t) →
      let t' := { t with poison := !t.null }
      let n := nibAt s p site
      exec .uncorrectableError s = .next (lifeAdd (strikeReport (setNib s p site
        { n with groups := setAt n.groups k { g with ops := setAt g.ops x.num (port, t') } }) p site 0 t (strikeCtx s p t))
        2 (unitSite p site) 1)) ∧
    (∀ k f, x.loc = .outQueue k → s.transit[k]? = some f →
      let f' : Flight := { f with tok := { f.tok with poison := !f.tok.null } }
      exec .uncorrectableError s = .next (lifeAdd (strikeReport { s with transit := setAt s.transit k f' } f.p (f.src % 256) 0 f.tok
        (strikeCtx s f.p f.tok))
        2 (unitSite f.p (f.src % 256)) 1)) ∧
    (∀ p plane node, x.loc = .record p 240 plane node → ∃ t, exec .uncorrectableError s = .next t ∧
      node ∈ (scribeAt t p).storeBad)

/-! ## Links -/

/-- 19 R390; 13 R299: LSTAT and LCTL stand at the scribe and are held to commit in a block; LCTL takes hypervisor privilege; a link number
above 27, a route to nothing, and a number that no part can have fault. -/
def LinkRecordsAreHeld : Prop :=
  ∀ (r : RecS) (s : State), r.cf = 0 → AtScribe s r →
    let c := s.cur
    let hyper : Prop := privOf s (matchCtx s c.p c.plane c.tag) = 2
    let l := bits r.obj.toNat 7 0
    let numbered := [((1 : BitVec 8), Instr.lctlTrain r), (2, .lctlDown r), (3, .lctlReset r), (5, .lctlClearCounters r)]
    let v := laneN (portTok c 0).lanes 0
    let port := laneN (portTok c 0).lanes 1
    (∀ x ∈ numbered, r.sub = x.1 → bits r.obj.toNat 31 8 = 0 →
      (27 < l → exec x.2 s = .next (faultCur s c cILLEGAL 0)) ∧
      (l ≤ 27 → ¬ hyper → exec x.2 s = .next (faultCur s c cPERMISSION 0)) ∧
      (∀ b, l ≤ 27 → hyper → InBlock s b → exec x.2 s = .next (held s b x.2))) ∧
    (r.sub = 0 → bits r.obj.toNat 31 8 = 0 → l ≤ 27 → ∀ b, InBlock s b → exec (.lstat r) s = .next (held s b (.lstat r))) ∧
    (r.sub = 4 → r.obj = 0 →
      let wrong : Prop := 1152 ≤ v ∨ ¬ (isPort port = true ∨ port = 0xFF) ∨ (v = s.owndev.toNat ∧ port ≠ 0xFF)
      (¬ hyper → exec (.lctlRoute r) s = .next (faultCur s c cPERMISSION 0)) ∧
      (hyper → wrong → exec (.lctlRoute r) s = .next (faultCur s c cILLEGAL 0)) ∧
      (∀ b, hyper → ¬ wrong → InBlock s b → exec (.lctlRoute r) s = .next (held s b (.lctlRoute r)))) ∧
    (r.sub = 6 → r.obj = 0 →
      let wrong : Prop := (1152 ≤ v ∧ v ≠ 0xFFF) ∨ (routeOf s v).isSome = true
      (¬ hyper → exec (.lctlOwnNumber r) s = .next (faultCur s c cPERMISSION 0)) ∧
      (hyper → wrong → exec (.lctlOwnNumber r) s = .next (faultCur s c cILLEGAL 0)) ∧
      (∀ b, hyper → ¬ wrong → InBlock s b → exec (.lctlOwnNumber r) s = .next (held s b (.lctlOwnNumber r))))

/-- 19 R376, R378, R390: at commit LSTAT sends the status words of a link. TRAIN moves a DOWN link to TRAINING with the next incarnation; DOWN
and RESET move an UP link, unless a context is RESIDENT on the dies of a die link; SUB 5 clears every counter but INC; the host port
and a link in another state are REFUSED, and nothing changes. A route, or the own number, is written once no request uses the
number. -/
def LinkRecordsTakeEffect : Prop :=
  ∀ (r : RecS) (s : State), r.cf = 0 → AtScribe s r → s.cur.late = true →
    let c := s.cur
    let hyper : Prop := privOf s (matchCtx s c.p c.plane c.tag) = 2
    let l := bits r.obj.toNat 7 0
    let x := linkAt s l
    let v := laneN (portTok c 0).lanes 0
    let port := laneN (portTok c 0).lanes 1
    let answer := fun (t : State) (st : Nat) => Host.Outcome.next (φ := Fault) (ρ := Refusal)
      (emitRes t c (formS r) 6 (both (ackVal c.tag st)))
    let stays : Prop := isDieLink l = true ∧ residentOn s (dieLinkEnds l) = true
    (bits r.obj.toNat 31 8 = 0 → l ≤ 27 →
      (r.sub = 0 →
        let ws := [put x.state 62 + put x.inc.toNat 54 + put (x.lanes % 64) 48 + put (x.fails % 65536) 32 + x.stale % 2 ^ 32,
          put x.replays 32 + x.resets % 2 ^ 32]
        exec (.lstat r) s = .next (emitRes s c (formS r) 7 (both { tag := c.tag, ty := 7, lanes := wordsLanes ws }))) ∧
      (hyper →
        (r.sub = 1 → (l = 27 ∨ x.state ≠ 0) → exec (.lctlTrain r) s = answer s 2) ∧
        (r.sub = 1 → l ≠ 27 → x.state = 0 → exec (.lctlTrain r) s = answer (setLink s l { x with state := 1, inc := x.inc + 1 }) 0) ∧
        (r.sub = 2 → (l = 27 ∨ x.state ≠ 2 ∨ stays) → exec (.lctlDown r) s = answer s 2) ∧
        (r.sub = 2 → l ≠ 27 → x.state = 2 → ¬ stays →
          exec (.lctlDown r) s = answer (leavesUp (setLink s l { x with state := 0 }) l) 0) ∧
        (r.sub = 3 → (l = 27 ∨ x.state ≠ 2 ∨ stays) → exec (.lctlReset r) s = answer s 2) ∧
        (r.sub = 3 → l ≠ 27 → x.state = 2 → ¬ stays →
          exec (.lctlReset r) s = answer (leavesUp (setLink s l { x with state := 3, since := s.cycle }) l) 0) ∧
        (r.sub = 5 → l = 27 → exec (.lctlClearCounters r) s = answer s 2) ∧
        (r.sub = 5 → l ≠ 27 → exec (.lctlClearCounters r) s =
          answer (setLink s l { x with fails := 0, stale := 0, replays := 0, resets := 0 }) 0))) ∧
    (hyper → r.obj = 0 → s.routeAsks = [] →
      (r.sub = 4 → v < 1152 → (isPort port = true ∨ port = 0xFF) → (v ≠ s.owndev.toNat ∨ port = 0xFF) →
        (devBusy s v = true → exec (.lctlRoute r) s = .next { s with routeAsks :=
          [{ cur := c, r := r, dev := v, val := port, own := false }] }) ∧
        (devBusy s v = false → exec (.lctlRoute r) s =
          answer { s with routes := if port = 0xFF then tdel s.routes v else tput s.routes v port } 0)) ∧
      (r.sub = 6 → (v < 1152 ∨ v = 0xFFF) → routeOf s v = none → devBusy s s.owndev.toNat = false → devBusy s v = false →
        exec (.lctlOwnNumber r) s = answer { s with owndev := BitVec.ofNat 12 v } 0))

/-- 19 R374, R375, R377, R380: a flit at an UP link with its CRC and of the link's incarnation is taken, one of another incarnation is
dropped and counted, and one that fails its CRC is asked for again, until the eighth replay that fails in a row resets a domain port;
a die link's flit is only checked; 2^20 cycles after it was sent a request to another part completes with STALE_TOKEN. -/
def FlitsAreReceived : Prop :=
  ∀ (s : State),
    let l := s.sel.link
    let x := s.sel.flit
    let k := linkAt s l
    (l < 27 → k.state = 2 → linkBlocked s l = false →
      (x.crcOk = false → k.bad < 8 → exec .flitReceive s =
        .next (lifeAdd (setLink s l { k with bad := k.bad + 1, replays := satBits 32 (k.replays + 1) }) 4 l 1)) ∧
      (x.crcOk = false → 8 ≤ k.bad → isPort l = true → exec .flitReceive s = .next (linkReset s l)) ∧
      (x.crcOk = false → 8 ≤ k.bad → isPort l = false → exec .flitReceive s = .next (setLink s l { k with bad := 9 })) ∧
      (x.crcOk = true → x.inc ≠ k.inc →
        exec .flitReceive s = .next (setLink s l { k with bad := 0, stale := satBits 32 (k.stale + 1) })) ∧
      (x.crcOk = true → x.inc = k.inc → isDieLink l = true → exec .flitReceive s = .next (setLink s l { k with bad := 0 })) ∧
      (x.crcOk = true → x.inc = k.inc → isDieLink l = false →
        exec .flitReceive s = .next (deliverFlit (setLink s l { k with bad := 0 }) l x))) ∧
    (k.state ≠ 2 → exec .flitReceive s = .refused .notEnabled) ∧
    (∀ m, s.remotes[s.sel.k]? = some m →
      ((s.cycle < m.sent + 2 ^ 20 ∨ m.ans.isSome = true) → exec .responseTimeout s = .refused .notEnabled) ∧
      (∀ q, m.sent + 2 ^ 20 ≤ s.cycle → m.ans = none → m.req = some q →
        exec .responseTimeout s = .next (staleReq { s with remotes := dropAt s.remotes s.sel.k } q)))

/-- 19 R374, R376 to R379: the events of a link. TRAINING ends UP or, after failed attempts, DOWN; a drained RESETTING link trains again under
the next incarnation; a peer's reset, a failed sender and the host's reset send an UP link to RESETTING; a die link that fails waits
for every partition to freeze. -/
def LinksChangeState : Prop :=
  ∀ (s : State),
    let l := s.sel.link
    let x := linkAt s l
    (l < 28 → x.state = 1 → s.sel.num < 64 → (isPort l = true → s.sel.num = 8) → (l = 27 → s.sel.num = 8 ∨ s.sel.num = 16) →
      exec .trainingComplete s = .next (setLink s l { x with state := 2, lanes := s.sel.num, bad := 0 })) ∧
    (l < 28 → x.state = 1 → exec .trainingFail s =
      .next (lifeAdd (leavesUp (setLink s l { x with state := 0, fails := satBits 16 (x.fails + 1) }) l) 6 l 1)) ∧
    (l < 28 → x.state = 3 → exec .resettingDrained s =
      .next (lifeAdd (linkTrain (setLink s l { x with resets := satBits 32 (x.resets + 1) }) l) 5 l 1)) ∧
    (l < 28 → x.state = 2 → exec .peerResetSeen s = .next (leavesUp (setLink s l { x with state := 3, since := s.cycle }) l)) ∧
    (isPort l = true → x.state = 2 → exec .linkLeavesUp s = .next (leavesUp (setLink s l { x with state := 3, since := s.cycle }) l)) ∧
    ((linkAt s 27).state = 2 → exec .hostPortDown s =
      .next (hostLeaves (setLink s 27 (if s.sel.ok then { linkAt s 27 with state := 3, since := s.cycle }
        else { linkAt s 27 with state := 0 })))) ∧
    (isDieLink l = true → x.state = 2 → 9 ≤ x.bad →
      (freezable s ≠ [] → exec .dieLinkFailure s = .next (lifeAdd (freezeAll s) 10 l 1)) ∧
      (freezable s = [] → freezing s = true → exec .dieLinkFailure s = .refused .notEnabled) ∧
      (freezable s = [] → freezing s = false → exec .dieLinkFailure s = .next (setLink s l { x with state := 3, since := s.cycle }))) ∧
    (isDieLink l = true → x.bad < 9 → exec .dieLinkFailure s = .refused .notEnabled)

/-- 19 R379, R417; 14 R302; 20 R400: a host request in its function's ranges reads or writes this part's memory at DEVICE scope, one sector at a
time, through the die link to a home on another die; one in a launch window that its function reaches acts on the queue; one that is not served changes nothing, and its read brings zeros under the poison
indication. HDM ranges are written as the host says. -/
def HostRequestsAreServed : Prop :=
  ∀ (s : State), s.sel.req.fn < 65 →
    let x := s.sel.req
    let refused := Host.Outcome.next (φ := Fault) (ρ := Refusal)
      { s with out := s.out ++ [.hostData x.fn x.addr (List.replicate x.len 0) true] }
    (∀ bs, x.bytes = some bs → bs.length = x.len →
      (∀ q off, windowOf s x = some (q, off) →
        (reachesWindow s x.fn q = true → exec .hostMemRequest s = .next (windowStore s x.fn q off bs)) ∧
        (reachesWindow s x.fn q = false → exec .hostMemRequest s = .next s)) ∧
      (windowOf s x = none →
        (hostServed s x = true → exec .hostMemRequest s = .next (hostStore s x bs)) ∧
        (hostServed s x = false → exec .hostMemRequest s = .next s))) ∧
    (x.bytes = none →
      (∀ q off, windowOf s x = some (q, off) →
        (reachesWindow s x.fn q = true → exec .hostMemRequest s =
          .next { s with out := s.out ++ [.hostData x.fn x.addr (windowBytes s q off x.len) false] }) ∧
        (reachesWindow s x.fn q = false → exec .hostMemRequest s = refused)) ∧
      (windowOf s x = none →
        (hostServed s x = true →
          let secs := hostSectors x.addr x.len
          exec .hostMemRequest s = .next { s with
            fresh := s.fresh + 1
            hostOps := s.hostOps ++ [{ id := s.fresh, fn := x.fn, addr := x.addr, len := x.len, write := false, born := s.cycle,
                                       left := secs }]
            reqs := s.reqs ++ secs.map (fun sec => hostReq s s.fresh sec [] false) }) ∧
        (hostServed s x = false → exec .hostMemRequest s = refused))) ∧
    (s.sel.fn < 65 → exec .hdmDecoderWrite s = .next { s with hdm := tsetD s.hdm s.sel.fn s.sel.ranges [] })

/-! ## Bring-up, power, the limiter and the management port -/

/-- 26 R408 to R411; 01 R27: the supplies. Standby power boots the controller with the dies in reset; verified firmware releases die reset,
and that cycle is die cycle 0; main power off puts the dies back into reset while the management port goes on; an orderly power-down
commits the counters, and an abrupt loss does not. -/
def SuppliesBringTheDiesUp : Prop :=
  ∀ (s : State),
    let m := s.mgmt
    (m.standby = false → ∃ t, exec .standbyPowerOn s = .next t ∧ t.mgmt.standby = true ∧ t.mgmt.released = false ∧
      t.mgmt.fwPass = s.sel.ok ∧ t.mgmt.counters = m.nvCounters ∧ t.cycle = 0 ∧ t.mem = [] ∧ t.panels = State.reset.panels) ∧
    (m.standby = true → m.main = true → m.fwPass = true → m.released = false → ∃ t, exec .dieResetRelease s = .next t ∧
      t.mgmt.released = true ∧ t.cycle = 0 ∧ (∀ l ∈ [0, 1, 2, 27], (linkAt t l).state = 1)) ∧
    ((m.standby = false ∨ m.main = false ∨ m.fwPass = false ∨ m.released = true) → exec .dieResetRelease s = .refused .notEnabled) ∧
    (m.standby = true → m.main = false → exec .mainPowerOn s = .next { s with mgmt := { applyStored m with main := true } }) ∧
    (m.standby = true → m.main = true → ∃ t, exec .mainPowerOff s = .next t ∧
      t.mgmt = { m with released := false, resetting := false, lastCommit := 0, lastSample := 0, main := false } ∧ t.mem = []) ∧
    (m.standby = true → ∃ t, exec .orderlyPowerDown s = .next t ∧ t.mgmt.nvCounters = m.counters ∧ t.mgmt.standby = false) ∧
    (m.standby = true → ∃ t, exec .standbyPowerLoss s = .next t ∧ t.mgmt.nvCounters = m.nvCounters ∧ t.mgmt.standby = false)

/-- 26 R410, R411: panel p starts in cycle 17500 p, when its fuse is there, in plain service, and in no other cycle; its self-test ends within
40,000 cycles, in tagged service or with the panel fenced and the failure counted. -/
def PanelsStartAndTest : Prop :=
  ∀ (s : State), s.sel.p < 48 →
    let p := s.sel.p
    let pn := panelAt s p
    (s.cycle = 17500 * p → s.mgmt.panelsFuse.getLsbD p = true → pn.started = false →
      exec .panelStart s = .next (setPanel s p { pn with started := true, startCycle := s.cycle, tagged := false })) ∧
    ((s.cycle ≠ 17500 * p ∨ s.mgmt.panelsFuse.getLsbD p = false) → exec .panelStart s = .refused .notEnabled) ∧
    (pn.started = true → pn.tested = false → pn.fenced = false → s.cycle ≤ pn.startCycle + 40000 →
      (s.sel.ok = true → exec .selfTestComplete s = .next (setPanel s p { pn with tested := true, tagged := true })) ∧
      (s.sel.ok = false → exec .selfTestComplete s = .next (lifeAdd (setPanel s p { pn with fenced := true }) 7 p 1)))

/-- 26 R412, R413: a step of the limiter comes RAMP cycles after the last; the duty rises by one while MMAs wait and the rise is within SLEW, to
16 or the ceiling at most, and falls by one after RAMP cycles without a pass, to 2 at least once it has passed 2; above 3,000 W
the ceiling falls by one, and the duty with it. -/
def TheLimiterSteps : Prop :=
  ∀ (s : State), s.sel.die < 3 →
    let die := s.sel.die
    let l := limiterAt s die
    let ramp := s.mgmt.ramp.toNat
    (s.cycle < l.lastStep + ramp → exec .limiterStep s = .refused .notEnabled) ∧
    (l.lastStep + ramp ≤ s.cycle → mmaWaits s die = true →
      (s.sel.ok = true → l.duty < min 16 l.ceiling → exec .limiterStep s = .next (setLimiter s die
        { l with duty := l.duty + 1, passed2 := l.passed2 || decide (2 < l.duty + 1), lastStep := s.cycle })) ∧
      ((s.sel.ok = false ∨ min 16 l.ceiling ≤ l.duty) → exec .limiterStep s = .refused .notEnabled)) ∧
    (l.lastStep + ramp ≤ s.cycle → mmaWaits s die = false →
      (l.lastPass + ramp ≤ s.cycle → (if l.passed2 then 2 else 0) < l.duty →
        exec .limiterStep s = .next (setLimiter s die { l with duty := l.duty - 1, lastStep := s.cycle })) ∧
      ((s.cycle < l.lastPass + ramp ∨ l.duty ≤ (if l.passed2 then 2 else 0)) → exec .limiterStep s = .refused .notEnabled)) ∧
    (3000 < s.sel.num → l.ceiling ≠ 0 → l.lastCeil + 1024 ≤ s.cycle → exec .powerCeilingStep s = .next (setLimiter s die
      { l with ceiling := l.ceiling - 1, duty := min l.duty (l.ceiling - 1), lastCeil := s.cycle })) ∧
    (s.sel.num ≤ 3000 → exec .powerCeilingStep s = .refused .notEnabled)

/-- 26 R409, R414: with standby power and no request in service the controller takes a request, which it answers later: identity, status,
counters, a histogram, the SIGREQ bits, a key that the owner key signed, an attestation, and the reset of the main side, which is
refused with main power off. A request that comes while one is served is answered BUSY. -/
def RequestsAreServed : Prop :=
  ∀ (s : State), s.mgmt.standby = true →
    let m := s.mgmt
    let serve := fun (t : State) (code : Nat) (ws : List Word64) => Host.Outcome.next (φ := Fault) (ρ := Refusal)
      { t with mgmt := { t.mgmt with serving := some (code, ws) } }
    (m.serving = none →
      exec .getIdentity s = serve s 1 (0 :: identity s) ∧ exec .getStatus s = serve s 2 (0 :: statusOf s) ∧
      exec .readCounters s = serve s 3 (0 :: (m.counters.filter (fun x => !(x.1 / 2 ^ 20 == 8 || x.1 / 2 ^ 20 == 9))).flatMap
        (fun x => [BitVec.ofNat 64 x.1, BitVec.ofNat 64 x.2])) ∧
      (s.sel.num < 4 → exec .readHistogram s = serve s 4 (0 :: histBins s s.sel.num)) ∧
      (4 ≤ s.sel.num → exec .readHistogram s = serve s 4 [2]) ∧
      (m.main = true → exec .setPolicy s = serve { s with mgmt := { m with sigreq := sigreqOf s.sel.nums } } 5 [0]) ∧
      (m.main = false → exec .setPolicy s = serve { s with mgmt := { m with sigreqStored := some (sigreqOf s.sel.nums) } } 5 [0]) ∧
      (s.sel.ok = false → exec .keyAdd s = serve s 6 [3]) ∧
      (s.sel.ok = true → m.main = false →
        exec .keyAdd s = serve { s with mgmt := { m with keysStored := m.keysStored ++ [s.sel.v] } } 6 [0]) ∧
      (s.sel.ok = true → m.main = true →
        (∀ m', addKey m s.sel.v = some m' → exec .keyAdd s = serve { s with mgmt := m' } 6 [0]) ∧
        (addKey m s.sel.v = none → exec .keyAdd s = serve s 6 [2])) ∧
      exec .attest s = serve { s with fresh := s.fresh + 1 } 7 (0 :: Config.attestation s.fresh) ∧
      (m.resetting = false → m.main = false → exec .resetMain s = serve s 8 [2]) ∧
      (m.resetting = false → m.main = true → m.released = true → ∃ t, exec .resetMain s = .next t ∧ t.mgmt.resetting = true ∧
        t.mgmt.serving = some (8, [0]))) ∧
    (∀ x, m.serving = some x → exec .mgmtBusy s = .next { s with out := s.out ++ [.mgmt s.sel.num [1]] } ∧
      exec .getIdentity s = .refused .notEnabled ∧ exec .setPolicy s = .refused .notEnabled)

/-- 26 R415: the counters are committed once per 2^32 cycles and sampled once per 2^20: each die's temperature goes into the bin of 8 degrees,
the module's power into the bin of 200 watts. -/
def CountersAreKept : Prop :=
  ∀ (s : State), s.mgmt.standby = true →
    (s.cycle % 2 ^ 32 = 0 → s.cycle ≠ s.mgmt.lastCommit → exec .counterCommit s =
      .next { s with mgmt := { s.mgmt with nvCounters := s.mgmt.counters, lastCommit := s.cycle } }) ∧
    (s.cycle % 2 ^ 32 ≠ 0 → exec .counterCommit s = .refused .notEnabled) ∧
    (s.cycle % 2 ^ 20 ≠ 0 → exec .histogramSample s = .refused .notEnabled) ∧
    (∀ t0 t1 t2, s.cycle % 2 ^ 20 = 0 → s.cycle ≠ s.mgmt.lastSample → s.sel.nums = [t0, t1, t2] → s.sel.k = 0 →
      ∃ t, exec .histogramSample s = .next t ∧
        t.mgmt = { (lifeAdd (lifeAdd (lifeAdd (lifeAdd (lifeAdd s 8 (min 15 (t0 / 8)) 1) 8 (16 + min 15 (t1 / 8)) 1) 8
          (32 + min 15 (t2 / 8)) 1) 9 (min 15 (s.sel.num / 200)) 1) 0 0 0).mgmt with lastSample := s.cycle })

/-! ## Every record completes

What each record does when the spec lets it execute, form by form: for every state and operands that meet the conditions named, `exec`
answers the next state of the record's own effect. The values sent are those of the claims above. -/

/-- The record sends its result under its EMIT codes (08 R166). -/
def Sends (s : State) (i : Instr) (f : Form) (ty : BitVec 4) : Prop :=
  ∃ v : Res, v.fault = none ∧ exec i s = .next (emitRes s s.cur f ty v)

/-- The record's result is delivered `n` cycles after its issue (10 R212). -/
def SendsAfter (n : Nat) (s : State) (i : Instr) (f : Form) (ty : BitVec 4) : Prop :=
  ∃ v : Res, v.fault = none ∧ exec i s = .next (delayRes (fun _ => n) s s.cur f ty v)

/-- 09 R183 to R191: IADD ISUB IMUL IMAD INEG IABS SHL IMULH IMIN IMAX AND OR XOR ANDN SHR SRA ROT ICLAMP SEL CLZ POPC BREV IDIV IREM BFX BFI ICMP
ADDR IADDW ICVT complete with values on their ports, a true predicate and admitted fields. -/
def IntegerRecordsComplete : Prop :=
  ∀ (r : RecN) (s : State),
    let f := formN r
    let t := portTok s.cur 0
    (IntFields true r → Takes s f r.fmt [0, 1] false →
      ∀ i ∈ [Instr.iadd r, .isub r, .imul r, .shl r], Sends s i f r.fmt) ∧
    (IntFields true r → Takes s f r.fmt [0, 1, 2] false → Sends s (.imad r) f r.fmt) ∧
    (IntFields true r → Takes s f r.fmt [0] false → ∀ i ∈ [Instr.ineg r, .iabs r], Sends s i f r.fmt) ∧
    (IntFields false r → Takes s f r.fmt [0, 1] false →
      ∀ i ∈ [Instr.imulh r, .imin r, .imax r, .and r, .or r, .xor r, .andn r, .shr r, .sra r, .rot r], Sends s i f r.fmt) ∧
    (IntFields false r → Takes s f r.fmt [0, 1, 2] false → ∀ i ∈ [Instr.iclamp r, .sel r], Sends s i f r.fmt) ∧
    (IntFields false r → Takes s f r.fmt [0] false → ∀ i ∈ [Instr.clz r, .popc r, .brev r], Sends s i f r.fmt) ∧
    (IntFields false r → Takes s f r.fmt [0, 1] false →
      ∀ i ∈ [Instr.idiv r, .irem r], SendsAfter (elemBits r.fmt / 2 + 2) s i f r.fmt) ∧
    (r.fmt.toNat < 8 → r.hi = 0 → 1 ≤ r.cf.toNat → r.cf.toNat ≤ elemBits r.fmt →
      (Takes s f r.fmt [0, 1] false → Sends s (.bfx r) f r.fmt) ∧ (Takes s f r.fmt [0, 1, 2] false → Sends s (.bfi r) f r.fmt)) ∧
    (r.fmt.toNat < 8 → r.hi.toNat ≤ 5 → r.cf = 0 → Takes s f r.fmt [0, 1] false → Sends s (.icmp r) f r.fmt) ∧
    (r.fmt.toNat < 8 → r.hi = 0 → r.cf.toNat < 8 → r.ctl.lituse = 0 → Takes s f r.fmt [0, 1] false → Sends s (.addr r) f 7) ∧
    (IntFields true r → r.fmt ≠ 3 → r.fmt ≠ 7 → Takes s f r.fmt [0, 1] false → Sends s (.iaddw r) f (r.fmt + 1)) ∧
    (IntFields true r → Takes s f r.fmt [0] false → t.ty.toNat < 8 → Sends s (.icvt r) f r.fmt)

/-- 09 R192 to R205; 02 R51: NOP COPY CONST SINK GATE JOIN STEER MERGE VOID ENTER WAVE LEAVE THROTTLE REPEAT RANGE RUNEND TAGGET TAGSET complete: NOP and
SINK change nothing, THROTTLE with a credit of its base sends port a, RANGE sends its null or starts its generator, and each other
record sends what its operands make. -/
def MoveRecordsComplete : Prop :=
  ∀ (r : RecN) (s : State),
    let c := s.cur
    let f := formN r
    let t := portTok c 0
    (r.fmt.toNat < 8 → r.hi = 0 → exec (.nop r) s = .next s) ∧
    (r.fmt = 0 → MoveFields false false r → badCtl [0] r.ctl = false → hasPorts c (portSet [0] r.ctl) = true → exec (.sink r) s = .next s) ∧
    (r.fmt.toNat ≤ 10 → MoveFields false false r → r.ctl.lituse = 0 → Takes s f r.fmt [0] false → Sends s (.const r) f r.fmt) ∧
    (r.fmt = 0 → MoveFields false false r → Moves s f [0] → ∀ i ∈ [Instr.copy r, .void r], Sends s i f t.ty) ∧
    (r.fmt = 0 → MoveFields false false r → Moves s f [0, 1] → ∀ i ∈ [Instr.gate r, .join r], Sends s i f t.ty) ∧
    (r.fmt = 0 → MoveFields true false r → Moves s f [0] → Sends s (.runend r) f t.ty) ∧
    (r.fmt = 0 → MoveFields true false r → Moves s f [0, 1] → Sends s (.steer r) f t.ty) ∧
    (r.fmt = 0 → MoveFields true false r → badCtl [0, 1, 2] r.ctl = false → hasPorts c (portSet [0, 1, 2] r.ctl) = true →
      anyNull c (portSet [0, 1, 2] r.ctl) = false → (opTok r c 1).null = false → (opTok r c 2).null = false →
      Sends s (.merge r) f (opTok r c (if laneN (lanesP r c 2) 0 ≠ 0 then 0 else 1)).ty) ∧
    (r.fmt = 0 → MoveFields false true r → LevelOk s r → Moves s f [0] →
      (r.ctl.lituse = 0 → r.lit.toNat ≤ 2 ^ (levelWidth (layoutOf s c.p c.plane) (levelOf r) - 1) → r.lit.toNat < 65536 →
        Sends s (.enter r) f t.ty) ∧
      (r.lit = 0 → ∀ i ∈ [Instr.wave r, .leave r], Sends s i f t.ty)) ∧
    (∀ k e, r.fmt = 0 → MoveFields false true r → LevelOk s r → badCtl [0, 1] r.ctl = false → r.ctl.pred = false → hasPorts c [0] = true →
      t.null = false →
      let n := nibAt s c.p c.site
      let mine : ThrEntry → Bool := fun e => e.plane == c.plane && e.node == c.node &&
        e.base == baseTag s c.p c.plane c.tag (levelOf r) && decide (0 < e.credits)
      idxOf mine n.thr = some k → n.thr[k]? = some e →
      ∃ ths v, v.fault = none ∧ exec (.throttleAdmit r) s =
        .next (settle (emitRes (setNib s c.p c.site { n with thr := ths }) c f t.ty v) c.p c.site)) ∧
    (r.fmt = 0 → MoveFields false true r → LevelOk s r → Moves s f [0, 1] →
      ((opTok r c 1).eor = false → Sends s (.repeat r) f t.ty) ∧
      ((opTok r c 1).eor = true → ∃ v, v.fault = none ∧ exec (.repeat r) s = .next (freeSticky (emitRes s c f t.ty v) c.p c.site
        c.plane c.node (baseTag s c.p c.plane c.tag (levelOf r))))) ∧
    (r.fmt.toNat ≤ 10 → MoveFields false true r → LevelOk s r → Takes s f r.fmt [0] false →
      let count := laneN t.lanes 0
      (count = 0 → Sends s (.range r) f r.fmt) ∧
      (0 < count → count ≤ 2 ^ levelWidth (layoutOf s c.p c.plane) (levelOf r) →
        exec (.range r) s = .next (startGen s c f (levelOf r) (.range r.fmt count) t))) ∧
    (r.fmt = 0 → MoveFields true (opx r) r → (opx r = true → LevelOk s r) →
      (Takes s f (if opx r then 6 else 7) [0] false → Sends s (.tagget r) f (if opx r then 6 else 7)) ∧
      (Moves s f [0, 1] → Sends s (.tagset r) f t.ty))

/-- 09 R207 to R210; 02 R53: READ sends its register; in a block WRITE records its value and BRANCH, BCALL and BRET their exit. -/
def BlockRecordsComplete : Prop :=
  ∀ (r : RecN) (s : State),
    let c := s.cur
    let sc := scribeAt s c.p
    (MoveFields false false r → r.lit.toNat < 64 → Takes s (formN r) r.fmt [] false → (r.fmt = 2 ∨ r.fmt = 3 ∨ r.fmt = 6 ∨ r.fmt = 7) →
      Sends s (.read r) (formN r) r.fmt) ∧
    (∀ b, c.site = 240 → sc.cur = some b → MoveFields false false r → r.lit.toNat < 64 → (r.fmt = 2 ∨ r.fmt = 3 ∨ r.fmt = 6 ∨ r.fmt = 7) →
      badCtl [4] r.ctl = false → hasPorts c (portSet [4] r.ctl) = true → (portTok c 4).poison = false →
      anyBlock c (portSet [4] r.ctl) = false →
      ∃ v, exec (.write r) s =
        .next (setScribe s c.p { sc with cur := some { b with writes := b.writes ++ [(c.node, r.lit.toNat, v)] } })) ∧
    (∀ b, c.site = 240 → sc.cur = some b → r.cf = 0 → levelOf r = 0 → r.fmt = 0 → badCtl [5] r.ctl = false →
      hasPorts c (portSet [5] r.ctl) = true → (portTok c 5).poison = false → anyBlock c (portSet [5] r.ctl) = false →
      anyNull c (portSet [5] r.ctl) = false → predFalse r.ctl c = false →
      let exits := fun (i : Instr) (op : Nat) => exec i s = .next (setScribe s c.p { sc with
        cur := some { b with exits := b.exits ++ [(c.node, op, r.lit, opx r, (portTok c 5).lanes.getD 0 0)] } })
      (r.lit.toNat < 65536 → exits (.branch r) 0x33) ∧ (opx r = false → exits (.bcall r) 0x34) ∧
      (opx r = false → r.lit = 0 → exits (.bret r) 0x35))

/-- 10 R211 to R221; 03 R74: FADD FSUB FMUL FSCALE FFMA FROUND FMIN FMAX FCMP FCLASS FSGN complete at once, FDIV FSQRT FRCP FRSQ FRCPA FRSQA FEXP2 FLOG2
FSINPI FCOSPI FTANH after their latency. -/
def FloatingRecordsComplete : Prop :=
  ∀ (r : RecN) (s : State),
    let f := formN r
    (FltFields 6 r → Takes s f r.fmt [0, 1] false → ∀ i ∈ [Instr.fadd r, .fsub r, .fmul r, .fscale r], Sends s i f r.fmt) ∧
    (FltFields 6 r → Takes s f r.fmt [0, 1, 2] false → Sends s (.ffma r) f r.fmt) ∧
    (FltFields 6 r → Takes s f r.fmt [0] false → Sends s (.fround r) f r.fmt) ∧
    (FltFields 2 r → Takes s f r.fmt [0, 1] false → ∀ i ∈ [Instr.fmin r, .fmax r], Sends s i f r.fmt) ∧
    (FltFields 8 r → Takes s f r.fmt [0, 1] false → Sends s (.fcmp r) f 6) ∧
    (FltFields 1 r → Takes s f r.fmt [0] false → Sends s (.fclass r) f 6) ∧
    (FltFields 3 r → Takes s f r.fmt [0, 1] false → Sends s (.fsgn r) f r.fmt) ∧
    (r.fmt = 10 → r.hi = 0 → r.cf = 0 →
      (Takes s f r.fmt [0, 1] false → SendsAfter 14 s (.fdiv r) f 10) ∧
      (Takes s f r.fmt [0] false → SendsAfter 14 s (.fsqrt r) f 10 ∧
        (∀ i ∈ [Instr.frcp r, .frsq r], SendsAfter 10 s i f 10) ∧ (∀ i ∈ [Instr.frcpa r, .frsqa r], SendsAfter 3 s i f 10) ∧
        (∀ i ∈ [Instr.fexp2 r, .flog2 r], SendsAfter 8 s i f 10) ∧
        (∀ i ∈ [Instr.fsinpi r, .fcospi r, .ftanh r], SendsAfter 12 s i f 10)))

/-- 10 R222 to R234; 12 R277, R278; 11 R253, R254; 20 R402: CVT ITOF FTOI BXPACK BXUNPK DOT LSUM LSCAN LMAX LMIN SHUF BCAST IOTA LMASK PACKC UNPACKC CMPFWD
RANKADM SCLEMIT WAITANY WAITALL FFREADY PTEST complete. -/
def LaneRecordsComplete : Prop :=
  ∀ (r : RecN) (s : State),
    let c := s.cur
    let f := formN r
    let a := portTok c 0
    let b := portTok c 1
    let lit := r.lit.toNat
    (LaneFields false true r → Takes s f r.fmt [0] false →
      (isFloatTy r.fmt = true → isFloatTy a.ty = true → Sends s (.cvt r) f r.fmt) ∧
      (isFloatTy r.fmt = true → a.ty.toNat < 8 → Sends s (.itof r) f r.fmt) ∧
      (r.fmt.toNat < 8 → isFloatTy a.ty = true → Sends s (.ftoi r) f r.fmt)) ∧
    (LaneFields false true r → isBlockTy r.fmt = true → Takes s f r.fmt [0] false → isFloatTy a.ty = true →
      ∃ v, v.fault = none ∧ exec (.bxpack r) s = .next (emitRes { s with fresh := s.fresh + 2 } c f r.fmt v)) ∧
    (r.cf.toNat ≤ 3 → rnd3 r ≤ 5 → opx r = false → isFloatTy r.fmt = true → Takes s f r.fmt [0] true → isBlockTy a.ty = true →
      2 * r.cf.toNat < blockCountW a.ty a.lanes.length → Sends s (.bxunpk r) f r.fmt) ∧
    (LaneFields false false r → r.fmt = 10 → r.ctl.lituse = 0 → Takes s f r.fmt [0, 1, 2] true → a.ty = b.ty → isFloatTy a.ty = true →
      SendsAfter (1 + (min a.lanes.length b.lanes.length + 7) / 8) s (.dot r) f r.fmt) ∧
    (LaneFields true false r → r.fmt.toNat < 8 → Takes s f r.fmt [0] false →
      (∀ i ∈ [Instr.lsum r, .lscan r], Sends s i f r.fmt) ∧
      (lanesPer r.fmt ≤ a.lanes.length → ∀ i ∈ [Instr.lmax r, .lmin r], Sends s i f r.fmt)) ∧
    (LaneFields true false r → r.fmt = 0 → Takes s f r.fmt [0, 1] true → Sends s (.shuf r) f r.fmt) ∧
    (LaneFields true false r → r.fmt = 0 → r.ctl.lituse = 0 → bits lit 7 5 = 0 → bits lit 31 13 = 0 → Takes s f r.fmt [0] true →
      Sends s (.bcast r) f r.fmt) ∧
    (LaneFields false false r → r.fmt.toNat < 8 → lanesPer r.fmt = 1 → r.ctl.lituse = 0 → bits lit 31 21 = 0 → Takes s f r.fmt [0] false →
      Sends s (.iota r) f r.fmt) ∧
    (LaneFields true false r → r.fmt = 6 → r.ctl.lituse = 0 → bits lit 31 5 = 0 → Takes s f r.fmt [0] false → a.ty = 6 →
      Sends s (.lmask r) f r.fmt) ∧
    (LaneFields false false r → r.fmt = 0 → r.ctl.lituse = 0 → badCtl [0, 1] r.ctl = false → hasPorts c (portSet [0, 1] r.ctl) = true →
      anyNull c (portSet [0, 1] r.ctl) = false → predFalse r.ctl c = false → a.lanes.length + b.lanes.length ≤ 32 → a.ty = b.ty →
      colourOf a.tag = colourOf b.tag → Sends s (.packc r) f r.fmt) ∧
    (LaneFields true false r → r.fmt = 0 → r.ctl.lituse = 0 → Takes s f r.fmt [0] true → opx r = true → 0 < lit →
      lit < a.lanes.length → lit < 32 → Sends s (.unpackc r) f r.fmt) ∧
    (LaneFields true false r → isFloatTy r.fmt = true → r.lit = 0 → r.ctl.lituse = 0 → Takes s f r.fmt [0, 1] false →
      a.lanes.length = 4 → b.lanes.length = 4 → Sends s (.cmpfwd r) f r.fmt) ∧
    (badRank s r = false → hasPorts c (portSet [0] r.ctl) = true → anyNull c (portSet [0] r.ctl) = false → predFalse r.ctl c = false →
      anyBlock c (portSet [0] r.ctl) = false → (r.ctl.pred = false ∨ r.ctl.lituse ≠ 2) →
      let n := nibAt s c.p c.site
      let tb := rankTable n c.plane c.node (baseTag s c.p c.plane c.tag (bits lit 18 16))
      tb.entries = [] → 0 < lit % 65536 → exec (.rankadmCandidate r) s = .next (setNib s c.p c.site (putRank n
        { tb with counted := tb.counted + 1, entries := [{ a with tag := c.tag }] }))) ∧
    (r.hi.toNat ≤ 1 → r.fmt = 5 → r.cf.toNat < 8 → r.ctl.lituse = 0 → badCtl [0] r.ctl = false → hasPorts c (portSet [0] r.ctl) = true →
      anyBlock c (portSet [0] r.ctl) = false → anyNull c (portSet [0] r.ctl) = false → predFalse r.ctl c = false →
      sclDestOk c r.d0 = true → sclDestOk c r.d1 = true → r.cf.toNat + a.lanes.length ≤ 8 →
      exec (.sclemit r) s = .next (sendScales s c (sclToks r c))) ∧
    (r.hi.toNat ≤ 1 → r.fmt = 0 → r.cf.toNat ≤ 1 → Takes s f a.ty [0, 1] false →
      let m := waitMask r c
      let done := (scribeAt s c.p).done
      (c.site = 240 → (∃ v t, v.fault = none ∧ exec (.ffready r) s = .next (emitRes t c f 7 v)) ∧
        (done &&& m = m → ∃ v t, v.fault = none ∧ exec (.waitall r) s = .next (emitRes t c f 7 v)) ∧
        (done &&& m ≠ 0 → ∃ v t, v.fault = none ∧ exec (.waitany r) s = .next (emitRes t c f 7 v))) ∧
      (c.site ≠ 240 → (∀ i ∈ [Instr.ffready r, .waitall r], exec i s = .next (waitOn s c (.test (s.cycle + 2)))) ∧
        (m ≠ 0 → exec (.waitany r) s = .next (waitOn s c (.test (s.cycle + 2)))))) ∧
    (r.hi.toNat < 4 → r.fmt = 0 → r.cf = 0 → r.ctl.lituse = 0 → badCtl [0] r.ctl = false → hasPorts c (portSet [0] r.ctl) = true →
      anyBlock c (portSet [0] r.ctl) = false → anyNull c (portSet [0] r.ctl) = false → predFalse r.ctl c = false → c.late = false →
      a.poison = false →
      let v := passVal r.ctl c a
      let flag : Val := { tag := c.tag, ty := 6, lanes := [0] }
      let xs := destSends r.d0 r.ctl.emit0 (curPoison c) false false v (some v) ++ (if r.hi.getLsbD 1 then
        destSends r.d1 r.ctl.emit1 false false false v (some flag) else destSends r.d1 r.ctl.emit1 (curPoison c) false false v (some v))
      xs.any (tooWide s c) = false → exec (.ptest r) s = .next (sends s c xs))

/-- 11 R235, R239; 05 R107: LD ST LDX STX MNOP FENCE ORDER AADD AMIN AMAX AAND AOR AXOR AXCHG ACAS ACC WCFG WFULL WEMPTY LDP PROMOTE, with
their operands and admitted fields, make one access and send it to its ordering site. -/
def MemoryRecordsComplete : Prop :=
  ∀ (r : RecM) (s : State),
    let c := s.cur
    let sent := fun (op : Nat) (i : Instr) => ∃ a : Access, a.id = s.fresh ∧ a.op = op ∧ a.r = r ∧ a.p = c.p ∧ a.tag = c.tag ∧
      a.a = portTok? c 0 ∧ a.b = portTok? c 1 ∧ a.c = portTok? c 2 ∧
      exec i s = .next (setObuf { s with fresh := s.fresh + 1 } c.p r.osite.toNat
        { obufAt s c.p r.osite.toNat with waiting := (obufAt s c.p r.osite.toNat).waiting ++ [a] })
    ActsNow s → ∀ x ∈ [(0x80, Instr.ld r), (0x81, .st r), (0x82, .ldx r), (0x83, .stx r), (0x84, .mnop r), (0x85, .fence r), (0x86, .order r),
        (0x87, .aadd r), (0x88, .amin r), (0x89, .amax r), (0x8A, .aand r), (0x8B, .aor r), (0x8C, .axor r), (0x8D, .axchg r), (0x8E, .acas r),
        (0x8F, .acc r), (0x90, .wcfg r), (0x91, .wfull r), (0x92, .wempty r), (0x93, .ldp r), (0x94, .promote r)],
      hasPorts c (portSet (basePorts x.1) r.ctl) = true → memBad s x.1 r = none →
      (x.1 = 0x8F → anyNull c (portSet [0, 1] r.ctl) = false ∧ predFalse r.ctl c = false) → sent x.1 x.2

/-- 11 R249 to R251; 06 R123; 19 R389: XFER XFERS PREF and COLL with a free completion tag and an admitted descriptor issue their transfer; PGINIT (SUB
0 and 1), PGADV and PGREAD act on their counter. -/
def TransferRecordsComplete : Prop :=
  (∀ (r : RecT) (s : State), r.rsv = 0 → ActsNow s → tagFree s s.cur.p r.ctag.toNat = true →
    let c := s.cur
    (∀ d, Supplied s r.ctl [0] → (portTok c 0).poison = false → shiftDesc s c (portTok c 0).lanes = some d →
      ∀ x ∈ [(opXfer, Instr.xfer r), (opXfers, .xfers r), (opPref, .pref r)],
        descBad s c.p (matchCtx s c.p c.plane c.tag) x.1 r d = false → exec x.2 s = .next (issueXfer s c x.1 r)) ∧
    (∀ path, Supplied s r.ctl [0, 1] → r.len = 0 →
      let b := (portTok c 1).lanes
      collBad b = false → (pgAt s c.p r.pgn.toNat).alloc = true → collOwn s (collDev b) = false →
      portPath s (dieOf c.p) (collDev b) = some path → ∃ t, exec (.coll r) s = .next t ∧ t.fresh = s.fresh + 1 ∧
        (xferOf t s.fresh).isSome = true ∧ (scribeAt t c.p).busy.getLsbD r.ctag.toNat = true)) ∧
  (∀ (r : RecS) (s : State), r.obj.toNat < 64 → r.cf = 0 → Supplied s r.ctl [0] →
    let c := s.cur
    let k := r.obj.toNat
    let x := pgAt s c.p k
    let ctx := matchCtx s c.p c.plane c.tag
    let passes := fun (i : Instr) => ∃ t v, v.fault = none ∧ exec i s = .next (emitRes t c (formS r) (portTok c 0).ty v)
    (r.sub = 0 → (pgHolder x = none ∨ pgHolder x = some (colourOf c.tag)) → passes (.pginit r)) ∧
    (r.sub = 1 → pgHolder x = some (colourOf c.tag) → passes (.pginitFree r)) ∧
    (Clean s → x.alloc = true → x.ctx = ctx → passes (.pgadv r)) ∧
    (r.sub = 0 → x.stamp ≠ s.cycle + 1 → bit (pgWords x).2 51 = true → x.ctx = ctx →
      ∃ v, v.fault = none ∧ exec (.pgread r) s = .next (emitRes s c (formS r) 7 v)))

/-- 11 R256 to R261; 12 R265 to R276: SYSMODE (both forms), WLOAD, MMA, ACCIN, ACCOUT; CAVJOIN (three forms), CAV; PACESET (three forms), SWEEP, PACEQ. -/
def ArrayAndCavityRecordsComplete : Prop :=
  (∀ (r : RecN) (s : State),
    let c := s.cur
    (∀ y0 y1 x0 x1, arrTyOk r.fmt = true → r.cf = 0 → (r.d0.site = 255 ∨ r.d0.site.toNat < 240) → c.site = 240 → c.late = true →
      Supplied s r.ctl [0] → Clean s → sysRect s c = some (y0, y1, x0, x1) →
      (r.hi = 0 → enterBad s c.p y0 y1 x0 x1 = false → (cellSites y0 y1 x0 x1).any (mmaPending s c.p) = false →
        exec (.sysmodeEnter r) s = .next (sysAck { s with arrays := s.arrays ++
          [{ p := c.p, y0 := y0, y1 := y1, x0 := x0, x1 := x1, ty := r.fmt, ctx := matchCtx s c.p c.plane c.tag }] } c r)) ∧
      (∀ k, r.hi = 1 → arrayAt s c.p y0 y1 x0 x1 = some k → (s.arrays.getD k default).passes.any (fun q => q.complete) = false →
        exec (.sysmodeLeave r) s = .next (sysAck { s with arrays := dropAt s.arrays k } c r))) ∧
    (∀ k row q, cellOf s c.p c.site = some (k, row, q) → r.cf = 0 → r.ctl.lituse = 0 →
      let a := s.arrays.getD k default
      let t := portTok c 0
      (r.hi.toNat ≤ 1 → arrTyOk r.fmt = true → Takes s (formN r) 6 [0, 1] true → r.fmt = a.ty → t.ty = a.ty → (portTok c 1).poison = false →
        t.lanes.length = (if isBlockTy a.ty then 8 * blockLanes a.ty else 32) →
        laneN (portTok c 1).lanes 0 < 32 * arrK a.ty / chunkElems a.ty → reading a q (r.hi.getLsbD 0) = false →
        exec (.wload r) s = .next (emitRes
          { s with arrays := setAt s.arrays k (loadChunk a row q (r.hi.getLsbD 0) (laneN (portTok c 1).lanes 0) c) } c (formN r) 6
          (both { tag := c.tag, ty := 6, lanes := [BitVec.ofNat 32 (laneN (portTok c 1).lanes 0)] }))) ∧
      (r.hi.toNat < 8 → r.hi.toNat % 8 < (layoutOf s c.p c.plane).length →
        (r.lit.toNat < 128 → arrTyOk r.fmt = true → r.fmt = a.ty → q = 0 → Takes s (formN r) r.fmt [0] true → t.ty = a.ty →
          t.lanes.length = sliceLanes a.ty → rowFired a c.tag row = false →
          skewFull s a c row (r.lit.toNat % 64) (r.hi.toNat % 8) = false →
          exec (.mma r) s = .next (sysSettle (joinPass (noteMma s c.p c.site) c k
            { row := row, j := r.lit.toNat % 64, level := r.hi.toNat % 8, wb := r.lit.getLsbD 6, site := c.site, node := c.node
              plane := c.plane, tok := some t, scales := c.scales } false) c.p)) ∧
        (row + 1 = nrowOf a → r.fmt = accTy a.ty → Takes s (formN r) r.fmt [0] false →
          (r.lit.toNat < 64 → t.ty = r.fmt → t.lanes.length = 32 → ∃ x : Pass, x.complete = true ∧ x.tag = c.tag ∧
            exec (.accin r) s = .next { s with arrays := setAt s.arrays k { a with passes := a.passes ++ [x] } }) ∧
          (r.lit.toNat < 2 ^ 24 → 0 < bits r.lit.toNat 23 8 →
            let acc := accAt a q (r.lit.toNat % 64)
            acc.run = some (setfld (layoutOf s c.p c.plane) c.tag (r.hi.toNat % 8) 0) → acc.next = bits r.lit.toNat 23 8 →
            let v : Val := { tag := c.tag, ty := r.fmt, lanes := acc.v }
            let xs := destSends r.d0 r.ctl.emit0 (curPoison c || acc.poison) true false v (some v) ++
              destSends r.d1 r.ctl.emit1 (curPoison c || acc.poison) true false v (some v)
            xs.any (tooWide s c) = false →
            let acc' : Accum := { acc with run := none, poison := false }
            exec (.accout r) s = .next (wakePanel (sends
              { s with arrays := setAt s.arrays k (setAcc a q (r.lit.toNat % 64) acc') } c xs) c.p (fun w => w == .acc c.p))))))) ∧
  (∀ (r : RecS) (s : State),
    let c := s.cur
    let w := r.d1.site.toNat
    let x := wellAt s c.p w
    let i := laneN (portTok c 0).lanes 0
    let sent := fun (i : Instr) => ∃ t c' v, c'.tag = c.tag ∧ exec i s = .next (objEmit t c' r 6 v)
    (cavBad r.obj = false → cavAt x r.obj = none → x.cavs.length < 8 → i < cavN r.obj →
      (r.sub = 0 → AtWell s r [0] 1 → cavBase r.obj * 4096 + regionBytes (cavN r.obj) ≤ bufCount x * bufBytes x → sent (.cavjoinLocal r)) ∧
      (r.sub = 1 → AtWell s r [0, 1] 1 →
        let b := (portTok c 1).lanes
        let sg := segOf r.obj (some b)
        segBad r.obj b = false → sg.1 ≤ i → i < sg.2.1 →
        cavBase r.obj * 4096 + regionBytes (sg.2.1 - sg.1) ≤ bufCount x * bufBytes x → sent (.cavjoinSegment r))) ∧
    (∀ k, cavBad r.obj = false → cavAt x r.obj = some k →
      let v := x.cavs.getD k default
      v.desc = r.obj → cavBusy v = false →
      (r.sub = 2 → AtWell s r [0] 1 → i < cavN r.obj → v.joined.contains i = true → hasContrib v i = false → sent (.cavjoinLeave r)) ∧
      (r.sub = 0 → AtWell s r [0, 1] 1 →
        let j := laneN (portTok c 1).lanes 0
        v.joined.contains j = true → hasContrib v j = false → (portTok c 0).lanes.length ≤ cavW r.obj →
        ∃ y : Contrib, y.idx = j ∧ y.tag = c.tag ∧
          exec (.cav r) s = .next (putEntry (setCav s c.p w k { v with contribs := v.contribs ++ [y] }) c.p w (cavX v j) y.lanes y.poison))) ∧
    (paceBad r.obj = false → AtWell s r [0] 4 →
      let m := memberAt s c.p w i
      (r.sub = 0 → bits x.cfg.toNat 63 54 = paceNM1 r.obj → sent (.pacesetInit r)) ∧
      (r.sub = 1 → paceDesc s c.p w = r.obj.toNat → i ≤ paceNM1 r.obj → m.pend = false → sent (.pacesetLoad r)) ∧
      (r.sub = 2 → paceDesc s c.p w = r.obj.toNat → i ≤ paceNM1 r.obj → m.pend = true → sent (.pacesetUpdate r)) ∧
      (r.sub = 0 → i ≤ paceNM1 r.obj → sent (.paceq r)) ∧
      (r.sub.toNat < (layoutOf s c.p c.plane).length → r.sub.toNat < 8 → (∀ k < paceNM1 r.obj + 1, (memberAt s c.p w k).pend = false) →
        paceNM1 r.obj + 1 ≤ 2 ^ levelWidth (layoutOf s c.p c.plane) r.sub.toNat →
        sent (.sweep r) ∨ ∃ t xs, exec (.sweep r) s = .next (startGen t c (d0Only r) r.sub.toNat (.sweep xs) (portTok c 0)))))

/-- 16 R333, R335, R337; 17 R353 to R356; 14 R316: SPAWN, CALLOC (both forms) and RETURN reach the colour point; BINIT (both forms), BARRIVE (both
forms), BWAIT, BDROP and BTEST (both forms) the barrier point of their die; QPUT, QTAKE (both forms), QSTAT and QMARK the queue point.
What each does there is above. -/
def PointRecordsComplete : Prop :=
  (∀ (r : RecN) (s : State),
    let c := s.cur
    let base := if bit r.hi.toNat 3 then [0, 1] else [0]
    (hasPorts c (portSet base r.ctl) = true → spawnBad r = false → spawnRange s r = false → badCtl base r.ctl = false →
      anyBlock c (portSet base r.ctl) = false → anyNull c (portSet base r.ctl) = false → predFalse r.ctl c = false →
      (dieOf c.p = 0 → ∃ d : Draw, d.n = r.lit.toNat % 64 + 1 ∧ d.spawn = some (c, r) ∧ d.born = s.cycle ∧
        exec (.spawn r) s = .next { s with draws := s.draws ++ [d] }) ∧
      (dieOf c.p ≠ 0 → exec (.spawn r) s = .next (askPoint s 0 0 (.spawn r) c))) ∧
    (r.fmt = 0 → r.cf = 0 →
      (Takes s (formN r) 6 [0, 1] false → exec (.callocGrant r) s = .next (askPoint s 0 0 (.callocGrant r) c)) ∧
      (Takes s (formN r) 7 [0, 1] false → exec (.callocEntry r) s = .next (askPoint s 0 0 (.callocEntry r) c))) ∧
    (retBad r = false → badCtl [0] r.ctl = false → hasPorts c (portSet [0] r.ctl) = true → anyBlock c (portSet [0] r.ctl) = false →
      ActsNow s → exec (.ret r) s = .next (askPoint s 0 0 (.ret r) c))) ∧
  (∀ (r : RecS) (s : State), r.cf = 0 → Supplied s r.ctl [0] → Clean s → ActsNow s →
    let c := s.cur
    let die := barDie r c.p
    let q := bits r.obj.toNat 7 0
    let asks := fun (i : Instr) => exec i s = .next (askPoint s (1 + die) die i c)
    let there := fun (i : Instr) => exec i s =
      .next { s with qreqs := insBy qBefore { q := q, born := s.cycle, what := .inst { i := i, cur := c } } s.qreqs }
    (bits r.obj.toNat 31 14 = 0 →
      (r.sub = 0 → (binitBad r c = false → asks (.binit r)) ∧ (laneN (portTok c 0).lanes 0 ≤ 1 → asks (.barrive r)) ∧
        (c.again ≠ 1 → asks (.bwait r)) ∧ asks (.bdrop r) ∧ asks (.btest r)) ∧
      (r.sub = 1 → asks (.binitFree r) ∧ asks (.btestTicket r))) ∧
    (r.sub = 1 → bits r.obj.toNat 15 14 = 0 → bits r.obj.toNat 31 19 = 0 →
      bits r.obj.toNat 18 16 < (layoutOf s c.p c.plane).length → asks (.barriveTag r)) ∧
    (bits r.obj.toNat 31 8 = 0 → ((queueAt s q).state = 0 ∨ (queueAt s q).part = partOf s (matchCtx s c.p c.plane c.tag)) →
      (r.sub = 0 → there (.qput r) ∧ there (.qtake r) ∧ there (.qstat r)) ∧ (r.sub = 1 → there (.qtakePoll r)) ∧
      (r.sub = 0 → c.site = 240 → c.late = true → privOf s (matchCtx s c.p c.plane c.tag) ≠ 0 → (queueAt s q).state ≠ 0 →
        (queueAt s q).log ≠ 0 → there (.qmark r))))

/-- 13 R299; 15 R318 to R329; 18 R370 to R372; 19 R376, R387 to R390; 20 R396 to R398: the records of the scribe, at the commit of their block: RULESET and
RULEARM (two forms each), KSTAGE, KFLIP, KDRAIN (three forms), SNAP, CTXPRI, PARK, RESUME, YIELD, SWRITE, MPIN, MUNPIN, MINV (two forms), MPROBE (three
forms), TRAP, TRET, FTAKE (its removing forms), LSTAT and LCTL (six forms); and SREAD and FTAKE SUB 3 at their firing. -/
def ScribeRecordsComplete : Prop :=
  ∀ (r : RecS) (s : State), r.cf = 0 → AtScribe s r →
    let c := s.cur
    let ls := (portTok c 0).lanes
    let ctx := matchCtx s c.p c.plane c.tag
    let answers := fun (i : Instr) (ty : BitVec 4) => ∃ t v, v.fault = none ∧ exec i s = .next (emitRes t c (formS r) ty v)
    let plain : Prop := r.ctl = { lituse := 0, pred := false, emit0 := 0, emit1 := 0, nullpass := false }
    (c.late = true →
      (r.obj.toNat < 8 → (tableAt s c.p r.obj.toNat).waiters = [] → (tableAt s c.p r.obj.toNat).inRound = false →
        let x := tableAt s c.p r.obj.toNat
        let acks := fun (i : Instr) => ∃ t n, exec i s = .next (emit0 t c r (ackVal c.tag n))
        (r.sub = 0 → entryBad (entryOf ls) = false → entryTable (entryOf ls) = r.obj.toNat → acks (.rulesetWrite r)) ∧
        (r.sub = 0 → armBad ls = false → (shiftDest s c (bits (laneN ls 1) 15 0)).isSome = true → x.armed = none → usedEntries x ≠ [] →
          acks (.rulearmArm r)) ∧
        (r.sub = 1 → acks (.rulesetClear r) ∧ acks (.rulearmDisarm r))) ∧
      (r.obj = 0 → r.sub = 0 → descReserved ls = false →
        let k := descPlane ls
        bit (ctxAt s ctx).planes k = true → (planeOf s c.p k).state = 0 → (panelAt s c.p).scribePlane ≠ some k →
        (panelAt s c.p).inj ≠ some k → launchHolds s c.p k = false →
        ∃ own, let s1 := stageStart s c.p k ctx (descObj ls) (descKidx ls) (descKpanel ls) (descDy ls) (descDx ls) own
          exec (.kstage r) s = .next (setPlane s1 c.p k { planeOf s1 c.p k with waiters := (planeOf s1 c.p k).waiters ++ [(0, c, r)] })) ∧
      (r.obj = 0 → laneN ls 0 < 4 → bit (ctxAt s ctx).planes (laneN ls 0) = true →
        let k := laneN ls 0
        let x := planeOf s c.p k
        (r.sub = 0 → (x.state = 2 ∨ x.state = 5) → (panelAt s c.p).flip = none → launchHolds s c.p k = false → exec (.kflip r) s =
          .next (setPanel s c.p { panelAt s c.p with flip := some { target := k, ask := some (c, r), born := s.cycle } })) ∧
        (r.sub = 0 → (x.state = 3 ∨ x.state = 4) →
          let s1 := planeDrain s c.p k
          exec (.kdrain r) s =
            .next (setPlane s1 c.p k { planeOf s1 c.p k with waiters := (planeOf s1 c.p k).waiters ++ [(1, c, r)] })) ∧
        (r.sub = 1 → x.state = 4 → exec (.kdrainPurge r) s = .next (setPlane s c.p k { x with waiters := x.waiters ++ [(2, c, r)] })) ∧
        (r.sub = 2 → answers (.kdrainPoll r) 6)) ∧
      (∀ k, r.sub = 0 → bits r.obj.toNat 31 24 = 0 → r.obj.toNat % 65536 ≠ 0 → snapLanesBad s c = false → (panelAt s c.p).snap = none →
        (panelAt s c.p).snapWait = [] → (panelAt s c.p).inj = some k → (ctxAt s ctx).rows ≠ 1 →
        ∃ t, exec (.snap r) s = .next (sendMarkers t c k (((panelAt s c.p).lastSnap + 1) % 2 ^ 32))) ∧
      (bits r.obj.toNat 31 8 = 0 → r.sub = 0 → (ctxAt s (objCtx s c r)).state ≠ 4 → exec (.ctxpri r) s = .next (setPanel s c.p
        { panelAt s c.p with plpri := priMerge (panelAt s c.p).plpri.toNat (laneN ls 0) (planeMine s c.p (objCtx s c r)) })) ∧
      (bits r.obj.toNat 31 8 = 0 → ctxOwner s (objCtx s c r) = some (partOf s ctx) → parkOf s (objCtx s c r) = none →
        let t := objCtx s c r
        let a : ParkAsk := { cur := c, r := r, ctx := ctx }
        (r.sub = 0 → t ≠ ctx → (ctxAt s t).state = 3 → exec (.park r) s = .next { s with parks := s.parks ++
          [{ ctx := t, round := 1, began := s.cycle, asks := [a], preempt := false, faulted := none }] }) ∧
        (r.sub = 0 → (ctxAt s t).state = 4 → s.resumes.any (fun y => y.ctx == t) = false → exec (.resume r) s =
          .next { s with resumes := s.resumes ++ [{ ctx := t, panels := none, ask := some a }] })) ∧
      (bits r.obj.toNat 31 8 = 0 → r.sub = 0 → (ctxAt s ctx).state = 3 → workWaits s ctx 0 = true →
        exec (.yield r) s = .next (parkStart s ctx none false)) ∧
      (bits r.obj.toNat 31 24 = 0 → r.sub = 0 → (objNum r < 0x20 ∨ 0x3F < objNum r) → exec (.swrite r) s =
        .next (regWrite s (.block c.p ctx) (objNum r) (regTarget s c r) (laneN ls 0 + laneN ls 1 * 2 ^ 32) (some (blockColour s c.p)))) ∧
      (∀ w, bits r.obj.toNat 31 8 = 0 → r.sub = 0 → pageVa c % 4096 = 0 → pageN c ≠ 0 → pageN c ≤ 128 →
        shiftSite s c (bits r.obj.toNat 7 0) = some w → isWell w = true → wellMode (wellAt s c.p w) = 5 → (wellAt s c.p w).owner = some ctx →
        exec (.mpin r) s = .next (pinsGo { s with pins := s.pins ++ [{ cur := c, r := r, w := w, pins := true }] }) ∧
        exec (.munpin r) s = .next (pinsGo { s with pins := s.pins ++ [{ cur := c, r := r, w := w, pins := false }] })) ∧
      (ctxOwner s (objCtx s c r) = some (partOf s ctx) → privOf s ctx ≠ 0 →
        (bits r.obj.toNat 31 8 = 0 → r.sub = 0 → pageVa c % 4096 = 0 → pageN c ≠ 0 → pageN c ≤ 2 ^ 30 →
          exec (.minv r) s = .next (minvAct s c r (pageVa c) (pageVa c + 4096 * pageN c))) ∧
        (bits r.obj.toNat 31 8 = 0 → r.sub = 1 → exec (.minvContext r) s = .next (minvAct s c r 0 (2 ^ 56))) ∧
        (∀ l, bits r.obj.toNat 31 16 = 0 → r.sub = 0 → pageN c % 4 ≠ 3 → bits r.obj.toNat 15 8 = 0xFF → pageVa c < 2 ^ 56 →
          (leafNow s (objCtx s c r) c.p 240 (pageVa c)).2 = .leaf l → answers (.mprobe r) 7) ∧
        (bits r.obj.toNat 31 10 = 0 → (r.sub = 1 → answers (.mprobeRead r) 7) ∧ (r.sub = 2 → answers (.mprobeReadClear r) 7))) ∧
      (plain → r.sub = 0 → r.obj.toNat < 2 ^ 16 →
        exec (.trap r) s = .next (setScribe s c.p { scribeAt s c.p with trapPend := some r.obj.toNat })) ∧
      (plain → r.sub = 0 → r.obj = 0 → exec (.tret r) s = .next (trapReturn s c.p)) ∧
      (∀ k e, plain → r.obj = 0 → takeEntry s c.p = some (k, e) →
        (r.sub = 0 → exec (.ftake r) s = .next (dropEntry s c.p)) ∧
        (r.sub = 1 → exec (.ftakeRetry r) s = .next (retryHeld (dropEntry s c.p) c.p e)) ∧
        (r.sub = 2 → exec (.ftakeDiscard r) s = .next (discardHeld (dropEntry s c.p) c.p e))) ∧
      (bits r.obj.toNat 31 8 = 0 → bits r.obj.toNat 7 0 ≤ 27 → r.sub = 0 → answers (.lstat r) 7) ∧
      (privOf s ctx = 2 → bits r.obj.toNat 31 8 = 0 → bits r.obj.toNat 7 0 ≠ 27 → bits r.obj.toNat 7 0 ≤ 27 →
        let l := bits r.obj.toNat 7 0
        (r.sub = 1 → (linkAt s l).state = 0 → answers (.lctlTrain r) 6) ∧
        (r.sub = 2 → (linkAt s l).state = 2 → isDieLink l = false → answers (.lctlDown r) 6) ∧
        (r.sub = 3 → (linkAt s l).state = 2 → isDieLink l = false → answers (.lctlReset r) 6) ∧
        (r.sub = 5 → answers (.lctlClearCounters r) 6)) ∧
      (privOf s ctx = 2 → r.obj = 0 → s.routeAsks = [] →
        let v := laneN ls 0
        let port := laneN ls 1
        (r.sub = 4 → v < 1152 → isPort port = true → v ≠ s.owndev.toNat → devBusy s v = false → answers (.lctlRoute r) 6) ∧
        (r.sub = 6 → v < 1152 → routeOf s v = none → devBusy s s.owndev.toNat = false → devBusy s v = false →
          answers (.lctlOwnNumber r) 6))) ∧
    (bits r.obj.toNat 31 24 = 0 → r.sub = 0 → regCause s c r false = none → answers (.sread r) 7) ∧
    (plain → r.obj = 0 → r.sub = 3 → c.late = false → ∃ v, v.fault = none ∧ exec (.ftakePeek r) s = .next (emitRes s c (formS r) 7 v))

/-! ## Every event completes

What each event does when the spec lets it occur: for every state and selection that meet the conditions named, `exec` answers the next
state of the event's own effect. -/

/-- 02 R38 to R46; 03 R68; 09 R199, R204; 10 R212; 12 R278: the events of a nib: TOKEN_ARRIVAL, FRAME_MATCH_RETURN, SCALE_TOKEN_ARRIVAL, SHARE_WINDOW_START,
DELAYED_RESULT_DELIVERY, THROTTLE_CREDIT, GENERATOR_EMIT and RANKADM_BATCH_COMPLETE. -/
def NibEventsComplete : Prop :=
  ∀ (s : State),
    let p := s.sel.p
    let n := nibAt s p s.sel.site
    (∀ f : Flight, s.transit[s.sel.k]? = some f → f.queued = false → f.tok.snap = false → isEauCredit f = false →
      behindOwn s s.sel.k f = false → entryLate s f = false → entryShut s (matchCtx s f.p f.tok.plane.toNat f.tok.tag) = false →
      isNib f.tok.site.toNat = true → admits s f.p f.tok.tag = true → planeRuns s f.p f.tok.plane.toNat = true →
      let site := f.tok.site.toNat
      let k := f.tok.plane.toNat
      let w := recAt s f.p site k f.tok.node.toNat
      let s1 := noteTook { s with transit := dropAt s.transit s.sel.k } f
      (isCredit s f = false → marked (nibAt s1 f.p site) f.tok = false → portsOf w = [0] → f.tok.port = 0 → entryOp (Machine.opOf w) = false →
        Machine.opOf w ≠ opMerge → scaleOp (Machine.opOf w) = false → tagged s f.p = true →
        (nibAt s1 f.p site).groups.any (keyed s f.p f.tok) = false → readyRoom (nibAt s1 f.p site) k = true →
        exec .tokenArrival s = .next (setNib s1 f.p site (toReady s.cycle (nibAt s1 f.p site)
          { plane := k, node := f.tok.node.toNat, tag := f.tok.tag, ops := [(0, f.tok)] }))) ∧
      (isCredit s f = true → f.tok.site.toNat < 240 → (portsOf w).contains 1 = true → rowFree s f.p site k f.tok.tag = true →
        ∃ thr, exec .throttleCredit s = .next (settle (setNib s1 f.p site { nibAt s1 f.p site with thr := thr }) f.p site))) ∧
    (∀ (site : Nat) (m : Match) (store got : List ScaleTok), (wellAt s p s.sel.site).returns[s.sel.k]? = some (site, m) →
      takeScales m.plane m.node m.tag (scaleNeeds (Machine.opOf (recAt s p site m.plane m.node)) m.ops) (nibAt s p site).scales [] =
        some (store, got) →
      readyRoom (nibAt s p site) m.plane = true → ∃ spill, exec .frameMatchReturn s = .next (setNib (setWell s p s.sel.site
        { wellAt s p s.sel.site with returns := dropAt (wellAt s p s.sel.site).returns s.sel.k }) p site
        (toReady s.cycle { nibAt s p site with scales := store, spill := spill } { m with scales := got }))) ∧
    (∀ f : ScaleFlight, s.scaleNet[s.sel.k]? = some f → f.tok.site = 245 → (panelAt s f.p).portQ.length < 16 →
      exec .scaleTokenArrival s = .next (setPanel { s with scaleNet := dropAt s.scaleNet s.sel.k } f.p
        { panelAt s f.p with portQ := (panelAt s f.p).portQ ++ [f.tok] })) ∧
    (isNib s.sel.site = true → (panelAt s p).startCycle < s.cycle → (s.cycle - (panelAt s p).startCycle) % 256 = 0 →
      ∃ share, exec .shareWindowStart s = .next (setNib s p s.sel.site { n with issued := [], occ := [], share := share })) ∧
    (∀ d : Delayed, n.delayed[s.sel.k]? = some d → d.due ≤ s.cycle →
      (n.delayed.take s.sel.k).any (fun e => e.plane == d.plane && e.node == d.node) = false →
      exec .delayedResultDelivery s = .next (
        let c : Cur := { p := p, site := s.sel.site, plane := d.plane, node := d.node, tag := d.tag, late := d.late }
        sends (curFlags (setNib s p s.sel.site { n with delayed := dropAt n.delayed s.sel.k }) c d.flags) c d.sends)) ∧
    (∀ (g : Gen) (fmt : BitVec 4) (count : Nat), n.gens[s.sel.k]? = some g → g.kind = .range fmt count → g.last < s.cycle →
      queueUsed s p s.sel.site + ((if g.d0.site = 255 then 0 else 1) + (if g.d1.site = 255 then 0 else 1)) ≤ 8 →
      genSlots s p s.sel.site g = true → gatedCtx s p s.sel.site (matchCtx s p g.plane g.tag) = false →
      ∃ n' c xs, c.p = p ∧ c.site = s.sel.site ∧ c.node = g.node ∧
        exec .generatorEmit s = .next (settle (sendAll (setNib s p s.sel.site n') c xs) p s.sel.site)) ∧
    (∀ (r : RecN) (e : Sticky), n.sticky[s.sel.k]? = some e → decode (recAt s p s.sel.site e.plane e.node) = .ok (.rankadmCandidate r) →
      (isBlockTy e.tok.ty = false ∨ e.tok.null = true) →
      (if e.tok.null then 0 else laneN e.tok.lanes 0) ≤ (rankTable n e.plane e.node e.base).counted →
      ∃ n' c, exec .rankadmBatchComplete s = .next (sendAll (freeSticky (setNib s p s.sel.site n') p s.sel.site e.plane e.node e.base) c
        ((rankTable n e.plane e.node e.base).entries.flatMap (candSends (formN r) r.fmt true))))

/-- 04 R86 to R95; 05 R108; 06 R126, R130; 11 R237, R246, R250, R255, R260; 12 R264, R266; 18 R365: ACC_ADDEND, WCFG_TAKE_EFFECT, ORDER_BUFFER_RELEASE, WELL_ACCESS,
PAGE_WINDOW_FILL, L2_FILL, ARBITER_SERVICE, TRANSFER_SECTOR_DONE, PULSE, SCALE_PORT_CONVERT, ARRAY_PASS_UPDATE, CAVITY_ROUND, CAVITY_CARRY_POLL and PAGE_WALK. -/
def MemoryEventsComplete : Prop :=
  ∀ (s : State),
    let p := s.sel.p
    let w := s.sel.site
    let o := obufAt s p w
    let x := wellAt s p w
    (∀ (place addr : Nat) (a : Access), s.addends[s.sel.k]? = some (place, addr, a) → a.racc = none → a.reply = none →
      idxOf (slotIs place addr (addendBase s a)) s.accSlots = none → (s.accSlots.filter (fun x => x.place == place)).length < 16 →
      addendIdx s a = 0 → countWord a % 65536 = 1 →
      let y := applyAddend { s with addends := dropAt s.addends s.sel.k } place a
      let t := ackAddend y.1 y.2.1 0 1 y.2.2
      exec .accAddend s = .next { t with accSlots := t.accSlots.filter (fun x => !slotIs place addr (addendBase s a) x) }) ∧
    (∀ (pc : PendCfg) (rest : List PendCfg), x.pend = pc :: rest → wellMode x ≠ 5 → x.frames = [] → x.returns = [] →
      x.slots.any (fun y => y.2.pin) = false → x.cavs.any (fun v => v.contribs.length == v.hi - v.lo) = false → wellPending s p w pc = false →
      s.pins.any (fun y => y.cur.p == p && y.w == w && y.began) = false → pc.acc = none →
      let x' : Well := { x with cfg := pc.word, owner := some pc.ctx, pend := rest, full := [], writer := 0, reader := 0, fifo := []
                                slots := [], cavs := [], left := none, fullWas := (0, []) }
      exec .wcfgTakeEffect s = .next (wakePanel (setWell s p w x') p (fun y => y == .cavity p w))) ∧
    (∀ a : Access, o.waiting[s.sel.k]? = some a → s.sel.k < 64 → gatedCtx s p w a.ctx = false → openChain o a.tag = none → a.r.seq = 0 →
      o.released.any (fun b => b.tag == a.tag && (b.heldFault || (b.op == 0x85 && !b.isNull))) = false →
      (o.chains.filter (fun c => !c.closed)).length < 32 →
      ∃ c : Chain, c.tag = a.tag ∧ c.outst = [a.id] ∧ exec .orderBufferRelease s = .next (advance (settleOrders (setObuf s p w
        { chains := o.chains ++ [c], waiting := dropAt o.waiting s.sel.k
          released := o.released ++ [{ a with discard := false }] }) p w) p w)) ∧
    (∀ (a : Access) (e : FifoEntry) (rest : List FifoEntry), o.released[s.sel.k]? = some a → a.p = p → a.r.osite.toNat = w → isWell w = true →
      isSkew s p w = false → a.isNull = false → a.heldFault = false → started a = false → canPerform o a = true → wellAdmits s a = true →
      x.pend.any (fun c => c.plane == some a.plane) = false → a.r.ord.getLsbD 1 = false → a.r.space = 0 → wellMode x = 2 → a.op = 0x80 →
      x.fifo = e :: rest → exec .wellAccess s = .next (finishAccess (setWell s p w { x with fifo := rest })
        { a with poison := a.poison || e.poison } { tag := a.tag, ty := e.ty, lanes := e.lanes, null := e.null, eor := e.eor } true)) ∧
    (∀ (a : Access) (sec : Nat) (t : State) (slot : Nat), o.released[s.sel.k]? = some a → wellMode x = 5 → a.combining = false →
      (a.left.getD []).find? (fun k => mustHold a k && (slotHolds x k).isNone && !filling s p w k) = some sec →
      takeSlot s p w (sec / 128) (paOfGa (placeAt a (32 * sec) / 4096 * 4096)) = some (t, slot) →
      ∃ q : Req, q.kind = .fill p w (sec / 128) (sec % 128) ∧ exec .pageWindowFill s = .next { t with reqs := t.reqs ++ [q] }) ∧
    (∀ (q : Req) (f : Nat) (rest : List Nat) (sec pa id : Nat), s.reqs[s.sel.k]? = some q → q.path = f :: rest → f / 65536 = 6 →
      q.kind = .piece p w id sec pa → q.data = none → lineRoom s (f % 65536) (gaOf s q.addr) = true →
      (remote (gaOf s q.addr) || lineRoom s (homeDie (gaOf s q.addr)) (gaOf s q.addr)) = true →
      let s1 := fetchL2 s (f % 65536) (gaOf s q.addr) q.ctx (reqTag s q)
      exec .l2Fill s = .next { s1 with reqs := setAt s1.reqs s.sel.k { q with path := rest } }) ∧
    (∀ (i : Nat) (q : Req), choose s s.sel.k = some i → s.reqs[i]? = some q →
      (s.sel.k / 65536 = 2 ∨ tgetD s.served (s.sel.k * 128 + 127) 0 ≠ s.cycle + 1) →
      exec .arbiterService s = .next (serve (noteServed s s.sel.k q) s.sel.k i q)) ∧
    (∀ (q : Req) (y : Xfer) (id row k : Nat), q.kind = .xferSector id row k → xferOf s id = some y → s.reqs[s.sel.k]? = some q → q.path = [] →
      y.stopped = false → y.arr = none → y.r.len = 0 → q.born < s.cycle →
      exec .transferSectorDone s = .next (sectorDone (dropReq s s.sel.k) id)) ∧
    (s.cycle % pulseP s p = 0 → (panelAt s p).lastPulse ≠ s.cycle + 1 →
      ∃ t, exec .pulse s = .next t ∧ (panelAt t p).lastPulse = s.cycle + 1 ∧
        t = { s with pgs := t.pgs, panels := t.panels, xfers := t.xfers, ctxs := t.ctxs, scribes := t.scribes }) ∧
    (∀ (y : ScaleTok) (rest : List ScaleTok) (k : Nat), (panelAt s p).portQ = y :: rest →
      let e := tgetD (panelAt s p).sprt y.node 0
      e.getLsbD 16 = true → isNib (destOfBits (e.extractLsb' 0 16)).site.toNat = true →
      (ctxAt s (bits e.toNat 27 20)).colbase ≤ y.payload.toNat / 2 ^ 52 → y.payload.toNat / 2 ^ 52 ≤ (ctxAt s (bits e.toNat 27 20)).collim →
      (panelAt s p).inj = some k → queueLen s p 245 < 8 →
      ∃ t : Token, t.tag = y.payload &&& 0xFFFFFFFFFFF00000 ∧
        exec .scalePortConvert s = .next (sendTok (setPanel s p { panelAt s p with portQ := rest }) p 245 t)) ∧
    (∀ (a : SysArray) (y : Pass), s.arrays[s.sel.k]? = some a → a.passes[s.sel.num]? = some y → y.complete = true →
      (passCols a y).contains s.sel.q = true → (accAt a s.sel.q y.j).run = none → passIdx s a y = 0 →
      exec .arrayPassUpdate s =
        .next (sysSettle (wakePanel (passColumn s s.sel.k a s.sel.num s.sel.q y) a.p (fun w => w == .acc a.p)) a.p)) ∧
    (∀ v : Cavity, x.cavs[s.sel.k]? = some v → v.stalled = false → cavBusy v = true →
      (v.half = false → v.seg = 0 → exec .cavityRound s = .next (fwdHalf s p w s.sel.k v (noCarry v))) ∧
      (∀ up pa cls, v.poll ≤ s.cycle → ((up = false ∧ v.half = false ∧ v.seg ≠ 0 ∧ v.pc = none) ∨
          (up = true ∧ v.half = true ∧ v.last = false ∧ v.sc = none)) →
        let at_ := v.link + 512 * v.seg + (if up then 256 else 0)
        let z := xlateNow s v.ctx p 240 1 at_ .read
        z.2 = .ok pa cls → ownDev z.1 pa = true → (readCarry z.1 p w v at_).2 = .ok none →
        exec .cavityCarryPoll s = .next (setCav (readCarry z.1 p w v at_).1 p w s.sel.k { v with poll := s.cycle + 64 }))) ∧
    (∀ (wk : Walk) (leaf : Word64), s.walks[s.sel.k]? = some wk → wk.fin = some (.leaf leaf) →
      let s1 := tlbInstall { s with walks := dropAt s.walks s.sel.k } wk.ctx wk.p wk.site wk.va leaf
      exec .pageWalk s = .next (s1.obufs.foldl (fun s (o : Nat × OBuf) => advance s (o.1 / 256) (o.1 % 256)) s1))

/-- 19 R384 to R388; 16 R331 to R340; 17 R349, R350; 20 R397 to R400; 02 R52, R53: RULE_ARRIVAL, RULE_EMIT, DRAIN_FENCE_COMPLETE, EAU_CREDIT; COLOUR_DRAW,
RETURN_TOKEN_DELIVERY, COLOUR_DRAIN, GROUP_IDLE, PARKWAIT_EXPIRY; BARRIER_WATCH_EXPIRY, BARRIER_NOTICE; BLOCK_ENTRY, BLOCK_COMMIT, TRAP_TAKEN and
UNCORRECTABLE_ERROR. -/
def PointEventsComplete : Prop :=
  ∀ (s : State),
    let p := s.sel.p
    (∀ a : Arrival, s.arrivals[s.sel.k]? = some a → arrivalBehind a (s.arrivals.take s.sel.k) = false → (tableAt s a.p a.table).armed = none →
      (engineAt s a.p).hold.length < 64 →
      exec .ruleArrival s = .next (arrivalFate (setEngine { s with arrivals := dropAt s.arrivals s.sel.k } a.p
        { engineAt s a.p with hold := (engineAt s a.p).hold ++ [{ a with told := true }] }) a true)) ∧
    (∀ (idx : Nat) (e : BitVec 256),
      let t := tableAt s p s.sel.num
      t.inRound = true → nextEntry t = some (idx, e) → 0 < t.credits → (tgetD t.accs idx {}).next = entryCount e →
      queueLen s p (241 + t.edge) < 8 → gatedCtx s p (241 + t.edge) (planeOf s p t.plane).ctx = false → t.plane < 4 →
      let a := tgetD t.accs idx {}
      let d := destOfBits t.dest
      let tok : Token :=
        { tag := entryEtag e, site := d.site, node := d.node, port := d.port, plane := BitVec.ofNat 2 t.plane
          ty := copTy ((ruleCop (entryOpcode e)).getD 0), poison := a.poison, lanes := a.acc }
      ∃ u, (u.pgs = s.pgs ∧ u.mem = s.mem) ∧ exec .ruleEmit s = .next (
        let s1 := sendTok u p (241 + t.edge) tok
        if (nextEntry (tableAt s1 p s.sel.num)).isNone then ruleSettle p s.sel.num (tableAt s1 p s.sel.num).waiters.length (roundDone s1 p s.sel.num)
        else s1)) ∧
    (∀ (i : Nat) (f : Fence),
      let t := tableAt s p s.sel.num
      idxOf (fenceDone s) t.fences = some i → t.fences[i]? = some f → t.waiters = [] → exec .drainFenceComplete s =
        .next (emit1 (setTable s p s.sel.num { t with fences := dropAt t.fences i }) f.cur f.r (ackVal f.cur.tag f.round))) ∧
    (∀ f : Flight, s.transit[s.sel.k]? = some f → f.queued = false → f.tok.snap = false → isEauCredit f = true → f.tok.node.toNat < 8 →
      f.tok.null = false →
      let t := tableAt s f.p f.tok.node.toNat
      t.armed ≠ none → 241 + t.edge = f.tok.site.toNat → exec .eauCredit s = .next (setTable { s with transit := dropAt s.transit s.sel.k } f.p
        f.tok.node.toNat { t with credits := min 255 (t.credits + laneN f.tok.lanes 0) })) ∧
    (∀ (d : Draw) (c : Cur) (r : RecN) (cs : List Nat), s.draws[s.sel.k]? = some d → d.spawn = some (c, r) → (ctxAt s d.ctx).state = 3 →
      (s.draws.take s.sel.k).any (fun y => y.ctx == d.ctx) = false → drawColours s d = some cs → tgetD s.pointUsed 0 0 ≠ s.cycle + 1 →
      drawBefore s [d.born, 2, c.p] = false → s.points.any (fun y => y.point == 0 && lexBefore (pointKey y) [d.born, 2, c.p]) = false →
      exec .colourDraw s = .next (drawSpawn
        { s with draws := dropAt s.draws s.sel.k, pointUsed := tput s.pointUsed 0 (s.cycle + 1) } d cs c r)) ∧
    (∀ x : RetTok, s.returns[s.sel.k]? = some x → (s.returns.take s.sel.k).any (fun y => y.p == x.p) = false → linkUp s 0 (dieOf x.p) = true →
      exec .returnTokenDelivery s = .next { s with
        returns := dropAt s.returns s.sel.k
        transit := s.transit ++ [{ p := x.p, src := x.tok.site.toNat, queued := false, tok := x.tok }] }) ∧
    (let e := colourAt s s.sel.part s.sel.k
     e.retd = true → e.drained = false → e.gstate = 4 → colourBusy s e.ctx s.sel.k = false →
      let s1 := setColour (freeEntries s e.ctx s.sel.k) s.sel.part s.sel.k { e with drained := true }
      2 ≤ (groupAt s1 e.gid).left → exec .colourDrain s =
        .next (setGroup s1 e.gid { groupAt s1 e.gid with left := (groupAt s1 e.gid).left - 1 })) ∧
    (∀ c rest, groupColours s s.sel.part s.sel.k = c :: rest → (colourAt s s.sel.part c).gstate = 1 →
      (groupAt s s.sel.k).lastIssue + 64 ≤ s.cycle → exec .groupIdle s = .next (setGstate s s.sel.part s.sel.k 2)) ∧
    (ctxRuns s s.sel.ctx = true → ctxGroups s s.sel.ctx ≠ [] → workWaits s s.sel.ctx 0 = true →
      (∀ g ∈ ctxGroups s s.sel.ctx, ∀ c rest, groupColours s (partOf s s.sel.ctx) g = c :: rest →
        let e := colourAt s (partOf s s.sel.ctx) c
        e.gstate = 2 ∧ e.pwait ≠ 0 ∧ (groupAt s g).lastIssue + e.pwait < s.cycle) →
      exec .parkwaitExpiry s = .next (parkStart s s.sel.ctx none false)) ∧
    (let b := barrierAt s s.sel.die s.sel.num
     b.state = 1 → b.bwatch ≠ 0 → b.bwatch * 1024 ≤ b.watch → exec .barrierWatchExpiry s = .next (post
      (setBarrier s s.sel.die s.sel.num { b with state := 3 })
      { cause := cSTARVED, addr := 4096 * s.sel.die + s.sel.num, site := 240, panel := b.anchor, ctx := b.ctx, outer := true })) ∧
    (∀ x, s.notices[s.sel.k]? = some x → exec .barrierNotice s = .next (setNib { s with notices := dropAt s.notices s.sel.k } x.p x.site
      (wakeNib s.cycle (fun w => w.on == .barrier x.die x.idx) (nibAt s x.p x.site)))) ∧
    (∀ k, (panelAt s p).scribePlane = some k → mayEnter s p k = true → (scribeAt s p).next < blockCount s p →
      let sc := scribeAt s p
      let b : Block := { plane := k, index := sc.next, header := tgetD sc.blocks (blockKey k sc.next 0) 0 }
      let s1 := noteIssue (setScribe s p { sc with cur := some b }) p k sc.btag
      takeIn s1 p b = none → exec .blockEntry s = .next ((List.range (blockLen b)).foldl (fun s n => fireRead s p b n) s1)) ∧
    (∀ b, (scribeAt s p).cur = some b → gatedCtx s p 240 (planeOf s p b.plane).ctx = false → b.exc = none → b.exits.length ≤ 1 →
      blockDone s p b = true → blockWaits s p b = false → holdsTret b = false → isFinal s p b = true →
      exec .blockCommit s = .next (commitBlock s p b none)) ∧
    (∀ d, (scribeAt s p).cur = none → (scribeAt s p).stopped = false → gatedCtx s p 240 (blockCtx s p) = false → thand (scribeAt s p) = false →
      trapDue s p = some d → handlerOk s p = true → exec .trapTaken s = .next (takeTrap s p d)) ∧
    (∀ die addr g e, s.sel.loc = .l2 die addr g → l2At s die addr = some e → exec .uncorrectableError s =
      .next (lifeAdd (strikeReport (putL2 s die addr { e with poison := true }) g s.sel.site addr {} s.sel.ctx) 2 (unitBank die addr) 1))

/-- 14 R302 to R313; 15 R318 to R328: the queue events HOST_APPEND, QUEUE_CONFIG, QUEUE_START, QUEUE_STOP, QUEUE_RESET, QUEUE_CLRO and
CONTROL_LINE_REJECTED; LAUNCH_PLACEMENT, LAUNCH_COMPLETION; STAGE_COMPLETE, PLANE_EMPTY, FLIP_TAKES_EFFECT, MARKER_ARRIVAL and SNAP_TIMEOUT. -/
def LaunchEventsComplete : Prop :=
  ∀ (s : State),
    let q := s.sel.q
    let x := queueAt s q
    let ws := s.sel.line
    (s.sel.q < 256 → reachesWindow s s.sel.fn q = true → ws.length = 8 →
      exec .hostAppend s = .next { s with qreqs := insBy qBefore { q := q, born := s.cycle, what := .line s.sel.fn ws } s.qreqs } ∧
      (lineCmd ws = 1 → x.state = 0 → configBad s s.sel.fn ws = false → ∃ y : Queue, y.state = 1 ∧ y.recs = [] ∧
        exec .queueConfig s = .next (setQueue s q y)) ∧
      (lineCmd ws = 2 → (x.state = 1 ∨ x.state = 3) → x.resetting = false → exec .queueStart s = .next (setQueue s q { x with state := 2 })) ∧
      (lineCmd ws = 3 → x.state = 2 → x.resetting = false →
        exec .queueStop s = .next (setQueue s q { x with state := if x.running = [] then 1 else 3 })) ∧
      (lineCmd ws = 4 → x.state ≠ 0 → x.running = [] →
        exec .queueReset s = .next (setQueue s q { x with state := 0, resetting := false, recs := [] })) ∧
      (lineCmd ws = 5 → exec .queueClro s = .next (setQueue s q { x with overflow := false })) ∧
      (5 < lineCmd ws → exec .controlLineRejected s = .next (setQueue s q { x with bad := min (x.bad + 1) 0xFFFFFFFF }))) ∧
    (s.sel.die < 3 → s.cycle % 3 = s.sel.die → s.lastPlace ≠ s.cycle + 1 →
      let d := s.sel.die
      let s0 := { s with lastPlace := s.cycle + 1 }
      let refusedHead := fun (x : Nat × Queue) => match headOf s x.1 with
        | some (seq, ws) => if x.2.state == 2 && headRefused s x.1 ws then some (x.1, seq, ws) else none
        | none => none
      let hs := (heads s).filter (fun h => bit (recMask h.2.2) d)
      let prio := hs.foldl (fun n h => max n (recPrio h.2.2)) 0
      let t := tgetD s.turns prio {}
      s.queues.filterMap refusedHead = [] →
      ∀ s1 q seq ws k xs, firstHead d (turnOrder t (hs.filter (fun h => recPrio h.2.2 == prio))) s0 = some (s1, (q, seq, ws), .placed k xs) →
        exec .launchPlacement s = .next (launchRecord { s1 with turns := tput s1.turns prio (turnAfter s1 t q) } q seq ws k xs)) ∧
    (∀ y : Launch, s.launches[s.sel.k]? = some y → y.stage = 3 →
      ∃ t, exec .launchCompletion s = .next t ∧ t.launches = dropAt s.launches s.sel.k) ∧
    (let p := s.sel.p
     let k := s.sel.plane
     let y := planeOf s p k
     (y.state = 1 → y.verdict = 0 → exec .stageComplete s = .next (launchesGo (planeAnswer
      (setPlane (loadStores s p k) p k { y with state := 2, image := [], blockImage := [] }) p k (fun n => n == 0) 0))) ∧
     (y.state = 4 → planeEmpty s p k = true → exec .planeEmpty s = .next (planeIdle s p k))) ∧
    (∀ (k born : Nat) (c : Cur) (r : RecS), (panelAt s s.sel.p).flip = some { target := k, ask := some (c, r), born := born } →
      let p := s.sel.p
      let s0 := setPanel s p { panelAt s p with flip := none }
      let y := planeOf s0 p k
      (y.state = 2 ∨ y.state = 5) → recheckBad s0 p k = false → (y.wells.any (flipWellBad s0 p y.ctx) || y.rules.any entryBad) = false →
      exec .flipTakesEffect s = .next (launchesGo (flushFlip (planeEmit (flipTake s0 p k) c r 0 p k) p))) ∧
    (∀ f : Flight, s.transit[s.sel.k]? = some f → f.queued = false → f.tok.snap = true → behindOwn s s.sel.k f = false → entryLate s f = false →
      let t := f.tok
      let site := t.site.toNat
      let w := recAt s f.p site t.plane.toNat t.node.toNat
      isNib site = true → (panelAt s f.p).deadSnaps.contains (laneN t.lanes 0) = false →
      (nibAt s f.p site).forwarded.contains (t.plane.toNat, t.node.toNat, laneN t.lanes 0) = false → admits s f.p t.tag = true →
      planeRuns s f.p t.plane.toNat = true → (portsOf w).contains t.port.toNat = true → Machine.opOf w = 0x22 →
      exec .markerArrival s = .next (countMarker (noteTook { s with transit := dropAt s.transit s.sel.k } f) f.p (laneN t.lanes 0))) ∧
    (∀ sn d, (panelAt s s.sel.p).snap = some sn → sn.deadline = some d → d ≤ s.cycle →
      exec .snapTimeout s = .next (snapAbort s s.sel.p 240))

/-- 13 R280 to R298; 02 R54: SLICE_EXPIRY, the rounds of a park (PARK_GATE, PARK_SETTLE, PARK_QUIESCE, PARK_STREAM, PARK_COMMIT) and its two abandonments, RESUME_COMPLETE,
the host's writes (CREC_WRITE, VALIDATE, RELEASE, PRANGE_WRITE, PLPRI_WRITE, PULSE_WRITE, SVCMODE_WRITE, REGISTER_WRITE, RC_REGISTER_READ) and
commands (PREEMPT, PCTL_FREEZE, PCTL_RESET, RESUMEP), SERVICE_MODE_CHANGE, PARTITION_FROZEN and PARTITION_CLEARED. -/
def ContextEventsComplete : Prop :=
  ∀ (s : State),
    let n := s.sel.ctx
    let k := s.sel.part
    let pt := partAt s k
    (ctxRuns s n = true → (ctxAt s n).slice ≠ 0 → (ctxAt s n).slice * 1024 ≤ (ctxAt s n).sliceCnt → workWaits s n (ctxPrio s n) = true →
      exec .sliceExpiry s = .next (parkStart s n none false)) ∧
    (∀ x : Park, parkOf s n = some x →
      let hd := readHeader s x.ctx ((ctxAt s x.ctx).panels.getD 0 0)
      (x.faulted = none →
        (x.round = 1 → exec .parkGate s = .next (putPark (setGates s x.ctx true) { x with round := 2 })) ∧
        (x.round = 2 → ctxSettled s x.ctx = true → exec .parkSettle s = .next (putPark s { x with round := 3 })) ∧
        (x.round = 3 → ctxQuiet s x.ctx = true → exec .parkQuiesce s = .next (putPark s { x with round := 4 })) ∧
        (∀ w, x.round = 4 → hd.2 = .ok w → ∃ t f, exec .parkStream s = .next (putPark t { x with round := 5, faulted := f })) ∧
        (∀ w, x.round = 5 → parkLate s x = false → ctxBusy s x.ctx = false → hd.2 = .ok w → (commitHeader hd.1 x.ctx w).2 = none →
          x.preempt = false → ∃ t, exec .parkCommit s = .next (preemptGo (parkAnswer t x 0) (partOf (commitHeader hd.1 x.ctx w).1 x.ctx)))) ∧
      (parkLate s x = true → exec .parkAbandonTimeout s = .next (preemptGo (parkAbandon s x) (partOf s x.ctx))) ∧
      (∀ cause addr p, x.faulted = some (cause, addr, p) → x.preempt = false → exec .parkFaultAbandon s =
        .next (preemptGo (post (parkAbandon s x)
          { cause := cause, addr := addr, kind := 1, site := 240, panel := p, ctx := x.ctx }) (partOf s x.ctx)))) ∧
    (∀ (x : Resume) (w : Nat) (slots : List Nat), s.resumes.find? (fun x => x.ctx == n) = some x →
      let hd := readHeader s x.ctx (resumePanel s x)
      let sl := readSlots hd.1 x.ctx (resumePanel s x)
      hd.2 = .ok w → bit w 0 = true → sl.2 = .ok slots →
      let im := (tgetD sl.1.images (2 * x.ctx + b2n (bit w 1)) []).take slots.length
      let ps := (x.panels.getD slots).take slots.length
      slots.length ≤ im.length → targetsOk sl.1 x.ctx im ps = true →
      exec .resumeComplete s = .next (restoreImage sl.1 x (b2n (bit w 1)) im ps)) ∧
    (∀ fn, s.sel.who = .host fn → fn ≤ 64 → s.sel.ctx < 256 → k ≤ 64 → ctxOwner s n = some k → (fn = 0 ∨ fn = k) →
      (s.sel.num < 8 → (ctxAt s n).state = 0 → exec .crecWrite s =
        .next (setCtx s n (crecSet { ctxAt s n with state := 1, part := k } s.sel.num s.sel.v.toNat))) ∧
      ((ctxAt s n).state = 1 → ctxValid s n = true → ∃ t, exec .validate s = .next t ∧ (ctxAt t n).state = 2) ∧
      ((ctxAt s n).state = 2 → ∃ t, exec .release s = .next t ∧ (ctxAt t n).state = 0)) ∧
    (s.sel.who = .host 0 → k ≤ 64 →
      (let w : Word64 := BitVec.ofNat 64 (s.sel.v.toNat / 2 ^ 24 * 2 ^ 24 + s.sel.v.toNat % 16)
       prangeRefused s k w = false → exec .prangeWrite s = .next (setPart s k { pt with prange := w })) ∧
      (pt.pstate = 0 → exec .preempt s =
        .next (preemptGo (setPart s k { pt with pstate := 1, preT0 := some s.cycle, parked := [] }) k)) ∧
      (pt.pstate = 0 → exec .pctlFreeze s = .next (freezeStart s k false) ∧ exec .pctlReset s = .next (freezeStart s k true)) ∧
      (pt.pstate = 2 → pt.parked = [] → s.resumes = [] →
        exec .resumep s = .next (setPart s k { pt with pstate := 0, parked := [] }))) ∧
    (s.sel.who = .host 0 → s.sel.off = none → s.sel.p < 48 →
      let p := s.sel.p
      let v := s.sel.v.toNat
      let pn := panelAt s p
      exec .plpriWrite s = .next (setPanel s p { pn with plpri := priMerge pn.plpri.toNat v (mayPlane s (.host 0) p) }) ∧
      (3 ≤ v % 16 → v % 16 ≤ 10 → exec .pulseWrite s = .next (setPanel s p { pn with plogPend := some (v % 16) })) ∧
      exec .svcmodeWrite s = .next (setPanel s p { pn with svcPend := some (bit v 0) }) ∧
      (ownRow s.sel.num = false → hostReaches s 0 s.sel.num p = true →
        exec .registerWrite s = .next (regWrite s (.host 0) s.sel.num p v none))) ∧
    (s.sel.off = none → s.sel.fn ≤ 64 → hostReaches s s.sel.fn s.sel.num s.sel.p = true →
      exec .rcRegisterRead s = .next { regClear s s.sel.num s.sel.p with
        out := (regClear s s.sel.num s.sel.p).out ++
          [.regData s.sel.fn s.sel.num (BitVec.ofNat 64 (regRead s s.sel.num s.sel.p none none))] }) ∧
    (∀ v, (panelAt s s.sel.p).svcPend = some v → panelIdle s s.sel.p = true →
      exec .serviceModeChange s = .next (setPanel s s.sel.p { panelAt s s.sel.p with tagged := v, svcPend := none })) ∧
    (pt.pstate = 3 → (frozenCtxs s k).all (ctxSettled s) = true →
      ∃ t, exec .partitionFrozen s = .next t ∧ (partAt t k).pstate = if pt.clear_ then 5 else 4) ∧
    (pt.pstate = 5 → ∃ t, exec .partitionCleared s = .next t ∧ (partAt t k).pstate = 6)

/-- 19 R374 to R379; 20 R400; 26 R408 to R415: the events of links, of the host port and of bring-up, power and management. -/
def LinkEventsComplete : Prop :=
  ∀ (s : State),
    let l := s.sel.link
    let x := linkAt s l
    let m := s.mgmt
    (l < 27 → x.state = 2 → linkBlocked s l = false → s.sel.flit.crcOk = true → s.sel.flit.inc = x.inc → isDieLink l = false →
      exec .flitReceive s = .next (deliverFlit (setLink s l { x with bad := 0 }) l s.sel.flit)) ∧
    (∀ y q, s.remotes[s.sel.k]? = some y → y.sent + 2 ^ 20 ≤ s.cycle → y.ans = none → y.req = some q →
      exec .responseTimeout s = .next (staleReq { s with remotes := dropAt s.remotes s.sel.k } q)) ∧
    (isPort l = true → x.state = 1 → s.sel.num = 8 →
      exec .trainingComplete s = .next (setLink s l { x with state := 2, lanes := s.sel.num, bad := 0 })) ∧
    (l < 28 → x.state = 1 → exec .trainingFail s =
      .next (lifeAdd (leavesUp (setLink s l { x with state := 0, fails := satBits 16 (x.fails + 1) }) l) 6 l 1)) ∧
    (l < 28 → x.state = 3 → exec .resettingDrained s =
      .next (lifeAdd (linkTrain (setLink s l { x with resets := satBits 32 (x.resets + 1) }) l) 5 l 1)) ∧
    (l < 28 → x.state = 2 → exec .peerResetSeen s = .next (leavesUp (setLink s l { x with state := 3, since := s.cycle }) l)) ∧
    (isPort l = true → x.state = 2 → exec .linkLeavesUp s = .next (leavesUp (setLink s l { x with state := 3, since := s.cycle }) l)) ∧
    (isDieLink l = true → x.state = 2 → 9 ≤ x.bad → freezable s = [] → freezing s = false →
      exec .dieLinkFailure s = .next (setLink s l { x with state := 3, since := s.cycle })) ∧
    ((linkAt s 27).state = 2 → exec .hostPortDown s =
      .next (hostLeaves (setLink s 27 (if s.sel.ok then { linkAt s 27 with state := 3, since := s.cycle }
        else { linkAt s 27 with state := 0 })))) ∧
    (∀ bs, s.sel.req.fn < 65 → s.sel.req.bytes = some bs → bs.length = s.sel.req.len → windowOf s s.sel.req = none →
      hostServed s s.sel.req = true → exec .hostMemRequest s = .next (hostStore s s.sel.req bs)) ∧
    (s.sel.fn < 65 → exec .hdmDecoderWrite s = .next { s with hdm := tsetD s.hdm s.sel.fn s.sel.ranges [] }) ∧
    (m.standby = false → ∃ t, exec .standbyPowerOn s = .next t ∧ t.mgmt.standby = true ∧ t.mgmt.released = false) ∧
    (m.standby = true →
      (m.main = true → m.fwPass = true → m.released = false → ∃ t, exec .dieResetRelease s = .next t ∧ t.mgmt.released = true) ∧
      (m.main = false → exec .mainPowerOn s = .next { s with mgmt := { applyStored m with main := true } }) ∧
      (m.main = true → ∃ t, exec .mainPowerOff s = .next t ∧ t.mgmt.main = false ∧ t.mgmt.released = false) ∧
      (∃ t, exec .orderlyPowerDown s = .next t ∧ t.mgmt.nvCounters = m.counters ∧ t.mgmt.standby = false) ∧
      (∃ t, exec .standbyPowerLoss s = .next t ∧ t.mgmt.nvCounters = m.nvCounters ∧ t.mgmt.standby = false)) ∧
    (let p := s.sel.p
     let pn := panelAt s p
     p < 48 →
      (s.cycle = 17500 * p → m.panelsFuse.getLsbD p = true → pn.started = false →
        exec .panelStart s = .next (setPanel s p { pn with started := true, startCycle := s.cycle, tagged := false })) ∧
      (pn.started = true → pn.tested = false → pn.fenced = false → s.cycle ≤ pn.startCycle + 40000 → s.sel.ok = true →
        exec .selfTestComplete s = .next (setPanel s p { pn with tested := true, tagged := true }))) ∧
    (let die := s.sel.die
     let y := limiterAt s die
     die < 3 →
      (y.lastStep + m.ramp.toNat ≤ s.cycle → mmaWaits s die = true → s.sel.ok = true → y.duty < min 16 y.ceiling →
        exec .limiterStep s = .next (setLimiter s die
          { y with duty := y.duty + 1, passed2 := y.passed2 || decide (2 < y.duty + 1), lastStep := s.cycle })) ∧
      (3000 < s.sel.num → y.ceiling ≠ 0 → y.lastCeil + 1024 ≤ s.cycle → exec .powerCeilingStep s = .next (setLimiter s die
        { y with ceiling := y.ceiling - 1, duty := min y.duty (y.ceiling - 1), lastCeil := s.cycle }))) ∧
    (m.standby = true → m.serving = none →
      let serve := fun (i : Instr) (code : Nat) => ∃ (t : State) (ws : List Word64), exec i s =
        .next { t with mgmt := { t.mgmt with serving := some (code, 0 :: ws) } }
      serve .getIdentity 1 ∧ serve .getStatus 2 ∧ serve .readCounters 3 ∧ (s.sel.num < 4 → serve .readHistogram 4) ∧
      serve .setPolicy 5 ∧ (s.sel.ok = true → m.main = false → serve .keyAdd 6) ∧ serve .attest 7 ∧
      (m.resetting = false → m.main = true → m.released = true → ∃ t, exec .resetMain s = .next t ∧ t.mgmt.resetting = true ∧
        t.mgmt.serving = some (8, [0]))) ∧
    (∀ y, m.standby = true → m.serving = some y → exec .mgmtBusy s = .next { s with out := s.out ++ [.mgmt s.sel.num [1]] }) ∧
    (m.standby = true →
      (s.cycle % 2 ^ 32 = 0 → s.cycle ≠ m.lastCommit → exec .counterCommit s =
        .next { s with mgmt := { m with nvCounters := m.counters, lastCommit := s.cycle } }) ∧
      (∀ t0 t1 t2, s.cycle % 2 ^ 20 = 0 → s.cycle ≠ m.lastSample → s.sel.nums = [t0, t1, t2] → s.sel.k = 0 →
        ∃ t, exec .histogramSample s = .next t ∧ t.mgmt.lastSample = s.cycle))

end Sys2Proof.Claims

/-! ## Obligations -/

/-- 08: decoding the word of any well-formed record gives the record back, and every word that decodes is the word of its record. -/
def Obligations.DecodingInvertsEncoding : Prop :=
  Sys2Proof.Claims.DecodingInvertsEncoding

/-- The model's own form of memory (log 3): no step leaves a byte memory with addresses out of order, repeated, or with a listed byte that equals an unlisted one. -/
def Obligations.MemoriesStayCanonical : Prop :=
  Sys2Proof.Claims.MemoriesStayCanonical

/-- 26, 19: what the spec says of the state right after die reset, and that its memories (log 3) are canonical. -/
def Obligations.ResetIsAsTheSpecSays : Prop :=
  Sys2Proof.Claims.ResetIsAsTheSpecSays ∧ Sys2Proof.Claims.ResetMemoryIsCanonical

/-- 02, 08: a step runs the next move of the cycle; an issue runs the record that the word at its site decodes to. -/
def Obligations.StepsRunTheNextMove : Prop :=
  Sys2Proof.Claims.StepsRunTheNextMove

/-- 08, 09, 11, 12: words that the spec writes out decode to the records it says they are. -/
def Obligations.WorkedWordsDecode : Prop :=
  Sys2Proof.Claims.WorkedWordsDecode

/-- 08: every opcode that the map marks reserved is refused by name and has an empty port set; a header never decodes. -/
def Obligations.ReservedOpcodesAreRefused : Prop :=
  Sys2Proof.Claims.ReservedOpcodesAreRefused

/-- 00, 08: the byte order of a record; and log 36: a record placed at reset is the first that a step runs. -/
def Obligations.RecordsAreStoredAndPlaced : Prop :=
  Sys2Proof.Claims.RecordsAreTwelveBytes ∧ Sys2Proof.Claims.PlacedRecordsRunFirst

/-- 08 R165: the three steps that fix a port set. -/
def Obligations.PortSetsHaveThreeSteps : Prop :=
  Sys2Proof.Claims.PortSetsHaveThreeSteps

/-- 14 R307: the comparison modulo 2^32 that satisfies an event. -/
def Obligations.EventsAreSatisfied : Prop :=
  Sys2Proof.Claims.EventsAreSatisfied

/-- 03 R72: rounding by the mode, saturation with NV, NaN to 0 with NV, NX for an inexact result. -/
def Obligations.FloatsConvertToIntegers : Prop :=
  Sys2Proof.Claims.FloatsConvertToIntegers

/-- 09 R205: both forms of RUNEND. -/
def Obligations.RunendMarksOrTests : Prop :=
  Sys2Proof.Claims.RunendMarksOrTests

/-- 02, 08, 16: nulls and predicates before the effect, EMIT codes after it, and the grant of the colour. -/
def Obligations.FiringsSendUnderEmit : Prop :=
  Sys2Proof.Claims.NullsAndIllegalFields ∧ Sys2Proof.Claims.ResultsAreSentUnderEmit ∧ Sys2Proof.Claims.GrantsBoundResults

/-- 02, 08, 20: where tokens and fault reports go. -/
def Obligations.TokensAndReports : Prop :=
  Sys2Proof.Claims.TokensAreQueuedOrDiscarded ∧ Sys2Proof.Claims.MailboxesHoldSixtyFour ∧ Sys2Proof.Claims.FaultsAreReported

/-- 02, 08, 11: the frame of computing records and of memory records. -/
def Obligations.RecordsKeepTheirFrame : Prop :=
  Sys2Proof.Claims.FiringFrame ∧ Sys2Proof.Claims.MemoryRecordFrame

/-- 09: add, subtract, multiply, multiply-add, absolute value and negation. -/
def Obligations.IntegerArithmetic : Prop :=
  Sys2Proof.Claims.IntegerArithmeticWraps ∧ Sys2Proof.Claims.IntegerArithmeticSaturates

/-- 09: order and selection of integers. -/
def Obligations.IntegerOrder : Prop :=
  Sys2Proof.Claims.IntegerHighAndOrder ∧ Sys2Proof.Claims.CompareAndSelect

/-- 09: the operations on bits of elements. -/
def Obligations.BitOperations : Prop :=
  Sys2Proof.Claims.IntegerBitwiseAndShifts ∧ Sys2Proof.Claims.ShiftLeftSaturates ∧ Sys2Proof.Claims.IntegerBitCounts ∧ Sys2Proof.Claims.BitFields

/-- 09: division with its latency, and the records of 64-bit elements. -/
def Obligations.DivisionAndWideIntegers : Prop :=
  Sys2Proof.Claims.IntegerDivides ∧ Sys2Proof.Claims.WideIntegers

/-- 09: moves that pass, synchronise, drop or make a value. -/
def Obligations.PlainMoves : Prop :=
  Sys2Proof.Claims.NopChangesNothing ∧ Sys2Proof.Claims.MovesPassTheirOperand ∧ Sys2Proof.Claims.SinkAndConst

/-- 09: the two records that route by a Boolean. -/
def Obligations.SteerAndMerge : Prop :=
  Sys2Proof.Claims.SteerFollowsItsBoolean ∧ Sys2Proof.Claims.MergeSelectsOnePort

/-- 09: the levels of the iteration stack. -/
def Obligations.TagRecords : Prop :=
  Sys2Proof.Claims.LevelsEnterWaveLeave ∧ Sys2Proof.Claims.TagFieldsAreIndependent ∧ Sys2Proof.Claims.TagGetAndSet

/-- 09: admission against credits, invariants, and generators. -/
def Obligations.WindowsAndRuns : Prop :=
  Sys2Proof.Claims.ThrottleSpendsACredit ∧ Sys2Proof.Claims.ThrottleCreditOpensOrAdds ∧ Sys2Proof.Claims.RepeatSendsItsInvariant ∧ Sys2Proof.Claims.RangeStartsAGenerator ∧ Sys2Proof.Claims.GeneratorSendsTokenByToken

/-- 02, 03, 10: what arrives at a nib. -/
def Obligations.TokensReachTheirSites : Prop :=
  Sys2Proof.Claims.TokenArrivalAtANib ∧ Sys2Proof.Claims.FrameMatchJoinsReadyList ∧ Sys2Proof.Claims.ScaleTokensAreStored ∧ Sys2Proof.Claims.ShareWindowStarts ∧ Sys2Proof.Claims.DelayedResultsAreDelivered

/-- 10: the class 2 records. -/
def Obligations.FloatRecords : Prop :=
  Sys2Proof.Claims.FloatRecordsComplete ∧ Sys2Proof.Claims.SpecialFunctionsComplete

/-- 03: rounding and its NX flag. -/
def Obligations.Rounding : Prop :=
  Sys2Proof.Claims.RoundingKeepsRepresentableValues ∧ Sys2Proof.Claims.RoundedResultsAreExactWithoutNX

/-- 10: conversions between types, blocks and sums of products. -/
def Obligations.Conversions : Prop :=
  Sys2Proof.Claims.ConversionsComplete ∧ Sys2Proof.Claims.BlocksPackAndUnpack ∧ Sys2Proof.Claims.DotAccumulatesInOrder

/-- 10: reductions in lane order. -/
def Obligations.LaneReductions : Prop :=
  Sys2Proof.Claims.SumsAndScans ∧ Sys2Proof.Claims.LaneExtremes ∧ Sys2Proof.Claims.FloatLaneExtremes

/-- 10, 16: SHUF to UNPACKC. -/
def Obligations.LaneMoves : Prop :=
  Sys2Proof.Claims.LaneMovesComplete ∧ Sys2Proof.Claims.PackAndUnpackColours

/-- 12: comparison and ranked admission. -/
def Obligations.ExpertRecords : Prop :=
  Sys2Proof.Claims.CompareForwardSendsTheWinner ∧ Sys2Proof.Claims.RankAdmission

/-- 09, 02: what a block counts before it commits. -/
def Obligations.BlockRecords : Prop :=
  Sys2Proof.Claims.ReadSendsARegister ∧ Sys2Proof.Claims.BlockRecordsAreCounted ∧ Sys2Proof.Claims.CommitConditions

/-- 02, 09, 20: the life of a block. -/
def Obligations.Blocks : Prop :=
  Sys2Proof.Claims.BlocksAreEntered ∧ Sys2Proof.Claims.BlocksCommitOrFail

/-- 20: entry into a handler, the return, and what raises a trap. -/
def Obligations.Traps : Prop :=
  Sys2Proof.Claims.TrapsAreTaken ∧ Sys2Proof.Claims.TrapEntryAndReturn ∧ Sys2Proof.Claims.TrapsAreOrdered ∧ Sys2Proof.Claims.ErrorsStrikeTheirStore

/-- 11: the class 4 records at their firing. -/
def Obligations.MemoryRecords : Prop :=
  Sys2Proof.Claims.MemoryRecordsIssueAnAccess ∧ Sys2Proof.Claims.MemoryRecordsAreChecked

/-- 06, 11: the order in which accesses and addends take effect. -/
def Obligations.OrderingAndAddends : Prop :=
  Sys2Proof.Claims.OrderBufferReleasesInChainOrder ∧ Sys2Proof.Claims.AddendsApplyInIndexOrder

/-- 04, 11: performing an access of a well. -/
def Obligations.WellAccesses : Prop :=
  Sys2Proof.Claims.WellAccessPerforms ∧ Sys2Proof.Claims.WellSectorsArePerformed ∧ Sys2Proof.Claims.WellAccessFaults ∧ Sys2Proof.Claims.WellStoreChangesItsBytesOnly ∧ Sys2Proof.Claims.MemoryReadsWhatWasWritten

/-- 04, 06, 18: what happens behind the wells. -/
def Obligations.WellsPagesAndFills : Prop :=
  Sys2Proof.Claims.ConfigurationTakesEffect ∧ Sys2Proof.Claims.FillsServiceAndWalks ∧ Sys2Proof.Claims.WindowsPinPages

/-- 11: bulk transfers by sector, and SCLEMIT. -/
def Obligations.Transfers : Prop :=
  Sys2Proof.Claims.TransfersIssue ∧ Sys2Proof.Claims.TransferSectorsComplete ∧ Sys2Proof.Claims.ScaleTokensAreSent

/-- 06, 11: counters that transfers are paced by. -/
def Obligations.Progress : Prop :=
  Sys2Proof.Claims.ProgressCounters ∧ Sys2Proof.Claims.PulsesUpdateCounters ∧ Sys2Proof.Claims.CompletionWaits

/-- 11: the array records and the passes. -/
def Obligations.Arrays : Prop :=
  Sys2Proof.Claims.ArraysAreFormedAndLeft ∧ Sys2Proof.Claims.WeightChunksLoad ∧ Sys2Proof.Claims.ArrayRecordsComplete ∧ Sys2Proof.Claims.PassesUpdateInOrder

/-- 12: joining, contributing, rounds, carries. -/
def Obligations.Cavities : Prop :=
  Sys2Proof.Claims.CavitiesAreJoined ∧ Sys2Proof.Claims.CavitiesAreLeft ∧ Sys2Proof.Claims.ContributionsAreGathered ∧ Sys2Proof.Claims.CavityRoundsRun ∧ Sys2Proof.Claims.CarriesArePolled ∧ Sys2Proof.Claims.CavityOperatorsCombine

/-- 12: pace records and the order of a sweep. -/
def Obligations.Paces : Prop :=
  Sys2Proof.Claims.PaceSetsAreKept ∧ Sys2Proof.Claims.SweepVisitsDueMembers

/-- 19: RULESET and RULEARM. -/
def Obligations.RuleRecords : Prop :=
  Sys2Proof.Claims.RuleRecordsAreHeld ∧ Sys2Proof.Claims.RuleRecordsTakeEffect

/-- 19: arrivals, emission, fences, credits and COLL. -/
def Obligations.RuleTables : Prop :=
  Sys2Proof.Claims.RuleArrivalsMeetTheirTable ∧ Sys2Proof.Claims.RuleTablesEmit ∧ Sys2Proof.Claims.DrainFencesComplete ∧ Sys2Proof.Claims.CreditsReturnToTables ∧ Sys2Proof.Claims.CollectivesAreSent

/-- 16: SPAWN, CALLOC, RETURN and the colour point. -/
def Obligations.Groups : Prop :=
  Sys2Proof.Claims.PointsServeInOrder ∧ Sys2Proof.Claims.SpawnQueuesADraw ∧ Sys2Proof.Claims.CallocGrantsAndReads ∧ Sys2Proof.Claims.ReturnSendsTheValue ∧ Sys2Proof.Claims.DrawsOpenGroups ∧ Sys2Proof.Claims.DrawsTakeTheLowestColours ∧ Sys2Proof.Claims.ReturnTokensAreDelivered ∧ Sys2Proof.Claims.GroupsIdleAndDrain

/-- 17: BINIT, BARRIVE and phases. -/
def Obligations.Barriers : Prop :=
  Sys2Proof.Claims.BarrierRecordsAreHeld ∧ Sys2Proof.Claims.BarriersAreMadeAndFreed ∧ Sys2Proof.Claims.ArrivalsCompletePhases

/-- 17: BWAIT, BDROP, BTEST. -/
def Obligations.BarrierWaits : Prop :=
  Sys2Proof.Claims.BarriersAreWaitedFor ∧ Sys2Proof.Claims.BarriersStarveAndNotify

/-- 14: the host's lines and the queue records. -/
def Obligations.Queues : Prop :=
  Sys2Proof.Claims.HostLinesMoveQueues ∧ Sys2Proof.Claims.QueueRecordsAct

/-- 15: KSTAGE, KFLIP, KDRAIN and SNAP. -/
def Obligations.Planes : Prop :=
  Sys2Proof.Claims.PlaneRecordsAreHeld ∧ Sys2Proof.Claims.PlaneRecordsTakeEffect ∧ Sys2Proof.Claims.PlanesChangeState ∧ Sys2Proof.Claims.FlipsTakeEffect ∧ Sys2Proof.Claims.SnapshotsRun

/-- 14: the clicker. -/
def Obligations.Launches : Prop :=
  Sys2Proof.Claims.HeadsAreRefusedOrPlaced ∧ Sys2Proof.Claims.LaunchesComplete

/-- 13: CTXPRI, PARK, RESUME, YIELD. -/
def Obligations.ContextRecords : Prop :=
  Sys2Proof.Claims.ContextRecordsAreHeld ∧ Sys2Proof.Claims.ContextRecordsTakeEffect ∧ Sys2Proof.Claims.PrioritiesAreSet ∧ Sys2Proof.Claims.PrioritiesOfOthersStay

/-- 13: the rounds of a park, its commit, and the way back. -/
def Obligations.Parks : Prop :=
  Sys2Proof.Claims.ParksGoByRounds ∧ Sys2Proof.Claims.ParksStreamAndCommit ∧ Sys2Proof.Claims.IdleContextsPark ∧ Sys2Proof.Claims.RestoresComplete ∧ Sys2Proof.Claims.ContextRecordsAreBuilt

/-- 13: the partition control. -/
def Obligations.Partitions : Prop :=
  Sys2Proof.Claims.PartitionsAreCommanded ∧ Sys2Proof.Claims.PartitionsFreezeAndClear

/-- 13, 20: SREAD, SWRITE and the host. -/
def Obligations.Registers : Prop :=
  Sys2Proof.Claims.RegistersAreReadAndWritten ∧ Sys2Proof.Claims.RegistersAreProtected ∧ Sys2Proof.Claims.HostsWriteRegisters ∧ Sys2Proof.Claims.RegisterWritesTakeTheirFields

/-- 18: MPIN to MPROBE; 02: SVCMODE. -/
def Obligations.PagesAndService : Prop :=
  Sys2Proof.Claims.ServiceChangesWhenIdle ∧ Sys2Proof.Claims.PageRecordsAreHeld ∧ Sys2Proof.Claims.PageRecordsTakeEffect

/-- 20: the records that handlers use. -/
def Obligations.TrapRecords : Prop :=
  Sys2Proof.Claims.TrapAndReturn ∧ Sys2Proof.Claims.MailboxesAreTaken ∧ Sys2Proof.Claims.PoisonIsTested

/-- 19: the link records. -/
def Obligations.LinkRecords : Prop :=
  Sys2Proof.Claims.LinkRecordsAreHeld ∧ Sys2Proof.Claims.LinkRecordsTakeEffect

/-- 19: what happens on links and at the host port. -/
def Obligations.LinkEvents : Prop :=
  Sys2Proof.Claims.FlitsAreReceived ∧ Sys2Proof.Claims.LinksChangeState ∧ Sys2Proof.Claims.HostRequestsAreServed

/-- 26: the management controller. -/
def Obligations.Controller : Prop :=
  Sys2Proof.Claims.SuppliesBringTheDiesUp ∧ Sys2Proof.Claims.PanelsStartAndTest ∧ Sys2Proof.Claims.TheLimiterSteps ∧ Sys2Proof.Claims.RequestsAreServed ∧ Sys2Proof.Claims.CountersAreKept

/-- 08 to 20: for every record form, exec answers the next state of the form's own effect, under conditions on the state and the operands alone. -/
def Obligations.EveryRecordCompletes : Prop :=
  Sys2Proof.Claims.IntegerRecordsComplete ∧ Sys2Proof.Claims.MoveRecordsComplete ∧ Sys2Proof.Claims.BlockRecordsComplete ∧ Sys2Proof.Claims.FloatingRecordsComplete ∧ Sys2Proof.Claims.LaneRecordsComplete ∧ Sys2Proof.Claims.MemoryRecordsComplete ∧ Sys2Proof.Claims.TransferRecordsComplete ∧ Sys2Proof.Claims.ArrayAndCavityRecordsComplete ∧ Sys2Proof.Claims.PointRecordsComplete ∧ Sys2Proof.Claims.ScribeRecordsComplete

/-- 02 to 26: for every event form, exec answers the next state of the event's own effect, under conditions on the state and the selection alone. -/
def Obligations.EveryEventCompletes : Prop :=
  Sys2Proof.Claims.NibEventsComplete ∧ Sys2Proof.Claims.MemoryEventsComplete ∧ Sys2Proof.Claims.PointEventsComplete ∧ Sys2Proof.Claims.LaunchEventsComplete ∧ Sys2Proof.Claims.ContextEventsComplete ∧ Sys2Proof.Claims.LinkEventsComplete
end

