-- ==== Sys2Proof/Laws/Bits.lean ====
section
/-!
SUPPORT. The number operations of the model as bit-vector arithmetic.
-/
namespace Sys2Proof.Machine
open Sys2Proof.Safety

theorem elemBits_pos (f : BitVec 4) : 0 < elemBits f := by
  revert f; decide

/-- The widths of scalar elements. -/
theorem elemBits_cases (f : BitVec 4) : elemBits f = 8 ∨ elemBits f = 16 ∨ elemBits f = 32 ∨ elemBits f = 64 := by
  revert f; decide

theorem wrapN_eq (n : Nat) (x : Int) : wrapN n x = (BitVec.ofInt n x).toNat := by
  simp [wrapN, BitVec.toNat_ofInt]

theorem wrapN_lt (n : Nat) (x : Int) : wrapN n x < 2 ^ n := by
  rw [wrapN_eq]; exact BitVec.isLt _

theorem elem_lt (f : BitVec 4) (ls : List Lane) (i : Nat) : elem f ls i < 2 ^ elemBits f := by
  unfold elem
  split
  · next h =>
    rw [h]
    have h1 : laneN ls (2 * i) < 2 ^ 32 := BitVec.isLt _
    have h2 : laneN ls (2 * i + 1) < 2 ^ 32 := BitVec.isLt _
    omega
  · exact Nat.mod_lt _ (by positivity)

@[simp] theorem el_toNat (r : RecN) (c : Cur) (k i : Nat) : (el r c k i).toNat = elem r.fmt (lanesP r c k) i := by
  simp [el, Nat.mod_eq_of_lt (elem_lt _ _ _)]

theorem sgn_eq {n : Nat} (h : 0 < n) (v : Nat) : sgn n v = (BitVec.ofNat n v).toInt := by
  obtain ⟨m, rfl⟩ : ∃ m, n = m + 1 := ⟨n - 1, by omega⟩
  simp only [sgn, BitVec.toInt_eq_toNat_cond, BitVec.toNat_ofNat, Nat.add_sub_cancel]
  have : 2 ^ (m + 1) = 2 * 2 ^ m := by ring
  split <;> split <;> first | rfl | omega

theorem elemInt_eq (r : RecN) (c : Cur) (k i : Nat) : elemInt r.fmt (lanesP r c k) i = valOf r.fmt (el r c k i) := by
  unfold elemInt valOf
  split
  · rw [sgn_eq (elemBits_pos _)]; rfl
  · rw [el_toNat]

theorem satN_eq (f : BitVec 4) (x : Int) : satN f x = (clamp f x).toNat := by
  have h := elemBits_pos f
  simp only [satN, clamp, wrapN_eq]
  congr 2
  have e : ((2 ^ (elemBits f - 1) : Nat) : Int) = 2 ^ (elemBits f - 1) := by push_cast; rfl
  have e' : ((2 ^ elemBits f : Nat) : Int) = 2 ^ elemBits f := by push_cast; rfl
  rw [e, e']
  have p1 : (1 : Int) ≤ 2 ^ (elemBits f - 1) := one_le_pow₀ (by norm_num)
  have p2 : (1 : Int) ≤ 2 ^ elemBits f := one_le_pow₀ (by norm_num)
  generalize hlo : (if isSigned f = true then -(2 : Int) ^ (elemBits f - 1) else 0) = lo
  generalize hhi : (if isSigned f = true then (2 : Int) ^ (elemBits f - 1) - 1 else 2 ^ elemBits f - 1) = hi
  have : lo ≤ hi := by
    rw [← hlo, ← hhi]; split <;> omega
  split
  · omega
  · split <;> omega

/-- The integer value of a bit vector is its pattern modulo its range. -/
theorem ofInt_valOf (f : BitVec 4) {n : Nat} (x : BitVec n) : BitVec.ofInt n (valOf f x) = x := by
  unfold valOf; split <;> simp

end Sys2Proof.Machine
end

