-- ==== Sys2Proof/Laws/Encoding.lean ====
section
/-!
SUPPORT. Fields of record words (08 R161 to R171): each format's word gives its opcode and its fields back.
-/
namespace Sys2Proof

theorem extr_left {n m : Nat} (a : BitVec n) (b : BitVec m) (lo len : Nat) (h : m ≤ lo) :
    (a ++ b).extractLsb' lo len = a.extractLsb' (lo - m) len := by
  apply BitVec.eq_of_getLsbD_eq
  intro i hi
  simp only [BitVec.getLsbD_extractLsb', BitVec.getLsbD_append, hi, decide_true, Bool.true_and]
  rw [if_neg (by omega)]
  congr 1; omega

theorem extr_right {n m : Nat} (a : BitVec n) (b : BitVec m) (lo len : Nat) (h : lo + len ≤ m) :
    (a ++ b).extractLsb' lo len = b.extractLsb' lo len := by
  apply BitVec.eq_of_getLsbD_eq
  intro i hi
  simp only [BitVec.getLsbD_extractLsb', BitVec.getLsbD_append, hi, decide_true, Bool.true_and]
  rw [if_pos (by omega)]

theorem extr_all {n : Nat} (b : BitVec n) : b.extractLsb' 0 n = b := by
  apply BitVec.eq_of_getLsbD_eq
  intro i hi
  simp [hi]

theorem get_left {n m : Nat} (a : BitVec n) (b : BitVec m) (i : Nat) (h : m ≤ i) : (a ++ b).getLsbD i = a.getLsbD (i - m) := by
  rw [BitVec.getLsbD_append, if_neg (by omega)]

theorem get_right {n m : Nat} (a : BitVec n) (b : BitVec m) (i : Nat) (h : i < m) : (a ++ b).getLsbD i = b.getLsbD i := by
  rw [BitVec.getLsbD_append, if_pos h]

@[simp] theorem get_bit1 (b : Bool) : (bit1 b).getLsbD 0 = b := by cases b <;> rfl

@[simp] theorem extr_bits1 (b : BitVec 1) : b.extractLsb' 0 1 = b := extr_all b

theorem Dest.bits_extr (r : Dest) (lo len : Nat) : (r.bits).extractLsb' lo len =
    @BitVec.extractLsb' (8 + 5 + 3) lo len (r.site ++ r.node ++ r.port) := rfl

theorem Dest.bits_get (r : Dest) (i : Nat) : (r.bits).getLsbD i =
    @BitVec.getLsbD (8 + 5 + 3) (r.site ++ r.node ++ r.port) i := rfl

theorem Dest.of_bits (d : Dest) : (⟨d.bits.extractLsb' 8 8, d.bits.extractLsb' 3 5, d.bits.extractLsb' 0 3⟩ : Dest) = d := by
  rcases d with ⟨a, b, c⟩
  simp (disch := omega) only [Dest.bits_extr, extr_left, extr_right, extr_all, get_left, get_right, get_bit1, Nat.reduceSub, Nat.sub_self]

theorem Ctl.bits_extr (r : Ctl) (lo len : Nat) : (r.bits).extractLsb' lo len =
    @BitVec.extractLsb' (2 + 1 + 2 + 2 + 1) lo len (r.lituse ++ bit1 r.pred ++ r.emit0 ++ r.emit1 ++ bit1 r.nullpass) := rfl

theorem Ctl.bits_get (r : Ctl) (i : Nat) : (r.bits).getLsbD i =
    @BitVec.getLsbD (2 + 1 + 2 + 2 + 1) (r.lituse ++ bit1 r.pred ++ r.emit0 ++ r.emit1 ++ bit1 r.nullpass) i := rfl

theorem Ctl.of_bits (k : Ctl) : (⟨k.bits.extractLsb' 6 2, k.bits.getLsbD 5, k.bits.extractLsb' 3 2, k.bits.extractLsb' 1 2, k.bits.getLsbD 0⟩ : Ctl) = k := by
  rcases k with ⟨a, b, c, d, e⟩
  simp (disch := omega) only [Ctl.bits_extr, Ctl.bits_get, extr_left, extr_right, extr_all, get_left, get_right, get_bit1, Nat.reduceSub, Nat.sub_self]

theorem RecN.bits_extr (op : BitVec 8) (r : RecN) (lo len : Nat) : (r.bits op).extractLsb' lo len =
    @BitVec.extractLsb' (8 + 4 + 4 + 16 + 16 + 8 + 8 + 32) lo len (op ++ r.hi ++ r.fmt ++ r.d0.bits ++ r.d1.bits ++ r.ctl.bits ++ r.cf ++ r.lit) := rfl

theorem RecN.bits_get (op : BitVec 8) (r : RecN) (i : Nat) : (r.bits op).getLsbD i =
    @BitVec.getLsbD (8 + 4 + 4 + 16 + 16 + 8 + 8 + 32) (op ++ r.hi ++ r.fmt ++ r.d0.bits ++ r.d1.bits ++ r.ctl.bits ++ r.cf ++ r.lit) i := rfl

@[simp] theorem RecN.opOf_bits (op : BitVec 8) (r : RecN) : opOf (r.bits op) = op := by
  simp (disch := omega) only [opOf, RecN.bits_extr, extr_left, extr_right, extr_all, get_left, get_right, get_bit1, Nat.reduceSub, Nat.sub_self]

/-- The fields of a word of this format are those it was made of. -/
@[simp] theorem RecN.ofBits_bits (op : BitVec 8) (r : RecN) : RecN.ofBits (r.bits op) = r := by
  simp only [RecN.ofBits, Dest.at, Ctl.ofBits, Nat.reduceAdd, Nat.zero_add]
  simp (disch := omega) only [RecN.bits_extr, RecN.bits_get, Dest.bits_extr, Ctl.bits_extr, Ctl.bits_get, extr_left, extr_right, extr_all, get_left, get_right, get_bit1, Nat.reduceSub, Nat.sub_self]

theorem RecM.bits_extr (op : BitVec 8) (r : RecM) (lo len : Nat) : (r.bits op).extractLsb' lo len =
    @BitVec.extractLsb' (8 + 2 + 2 + 4 + 16 + 8 + 8 + 8 + 3 + 5 + 8 + 8 + 8 + 8) lo len (op ++ r.space ++ r.ord ++ r.fmt ++ r.d0.bits ++ r.osite ++ r.d1lo ++ r.ctl.bits ++ r.scope ++ r.lsid ++ r.prev ++ r.seq ++ r.next ++ r.off) := rfl

theorem RecM.bits_get (op : BitVec 8) (r : RecM) (i : Nat) : (r.bits op).getLsbD i =
    @BitVec.getLsbD (8 + 2 + 2 + 4 + 16 + 8 + 8 + 8 + 3 + 5 + 8 + 8 + 8 + 8) (op ++ r.space ++ r.ord ++ r.fmt ++ r.d0.bits ++ r.osite ++ r.d1lo ++ r.ctl.bits ++ r.scope ++ r.lsid ++ r.prev ++ r.seq ++ r.next ++ r.off) i := rfl

@[simp] theorem RecM.opOf_bits (op : BitVec 8) (r : RecM) : opOf (r.bits op) = op := by
  simp (disch := omega) only [opOf, RecM.bits_extr, extr_left, extr_right, extr_all, get_left, get_right, get_bit1, Nat.reduceSub, Nat.sub_self]

/-- The fields of a word of this format are those it was made of. -/
@[simp] theorem RecM.ofBits_bits (op : BitVec 8) (r : RecM) : RecM.ofBits (r.bits op) = r := by
  simp only [RecM.ofBits, Dest.at, Ctl.ofBits, Nat.reduceAdd, Nat.zero_add]
  simp (disch := omega) only [RecM.bits_extr, RecM.bits_get, Dest.bits_extr, Ctl.bits_extr, Ctl.bits_get, extr_left, extr_right, extr_all, get_left, get_right, get_bit1, Nat.reduceSub, Nat.sub_self]

theorem RecT.bits_extr (op : BitVec 8) (r : RecT) (lo len : Nat) : (r.bits op).extractLsb' lo len =
    @BitVec.extractLsb' (8 + 6 + 1 + 1 + 16 + 16 + 8 + 6 + 2 + 16 + 16) lo len (op ++ r.ctag ++ bit1 r.hold ++ bit1 r.fill ++ r.d0.bits ++ r.d1.bits ++ r.ctl.bits ++ r.pgn ++ r.rsv ++ r.mark ++ r.len) := rfl

theorem RecT.bits_get (op : BitVec 8) (r : RecT) (i : Nat) : (r.bits op).getLsbD i =
    @BitVec.getLsbD (8 + 6 + 1 + 1 + 16 + 16 + 8 + 6 + 2 + 16 + 16) (op ++ r.ctag ++ bit1 r.hold ++ bit1 r.fill ++ r.d0.bits ++ r.d1.bits ++ r.ctl.bits ++ r.pgn ++ r.rsv ++ r.mark ++ r.len) i := rfl

@[simp] theorem RecT.opOf_bits (op : BitVec 8) (r : RecT) : opOf (r.bits op) = op := by
  simp (disch := omega) only [opOf, RecT.bits_extr, extr_left, extr_right, extr_all, get_left, get_right, get_bit1, Nat.reduceSub, Nat.sub_self]

/-- The fields of a word of this format are those it was made of. -/
@[simp] theorem RecT.ofBits_bits (op : BitVec 8) (r : RecT) : RecT.ofBits (r.bits op) = r := by
  simp only [RecT.ofBits, Dest.at, Ctl.ofBits, Nat.reduceAdd, Nat.zero_add]
  simp (disch := omega) only [RecT.bits_extr, RecT.bits_get, Dest.bits_extr, Ctl.bits_extr, Ctl.bits_get, extr_left, extr_right, extr_all, get_left, get_right, get_bit1, Nat.reduceSub, Nat.sub_self]

theorem RecS.bits_extr (op : BitVec 8) (r : RecS) (lo len : Nat) : (r.bits op).extractLsb' lo len =
    @BitVec.extractLsb' (8 + 8 + 16 + 16 + 8 + 8 + 32) lo len (op ++ r.sub ++ r.d0.bits ++ r.d1.bits ++ r.ctl.bits ++ r.cf ++ r.obj) := rfl

theorem RecS.bits_get (op : BitVec 8) (r : RecS) (i : Nat) : (r.bits op).getLsbD i =
    @BitVec.getLsbD (8 + 8 + 16 + 16 + 8 + 8 + 32) (op ++ r.sub ++ r.d0.bits ++ r.d1.bits ++ r.ctl.bits ++ r.cf ++ r.obj) i := rfl

@[simp] theorem RecS.opOf_bits (op : BitVec 8) (r : RecS) : opOf (r.bits op) = op := by
  simp (disch := omega) only [opOf, RecS.bits_extr, extr_left, extr_right, extr_all, get_left, get_right, get_bit1, Nat.reduceSub, Nat.sub_self]

/-- The fields of a word of this format are those it was made of. -/
@[simp] theorem RecS.ofBits_bits (op : BitVec 8) (r : RecS) : RecS.ofBits (r.bits op) = r := by
  simp only [RecS.ofBits, Dest.at, Ctl.ofBits, Nat.reduceAdd, Nat.zero_add]
  simp (disch := omega) only [RecS.bits_extr, RecS.bits_get, Dest.bits_extr, Ctl.bits_extr, Ctl.bits_get, extr_left, extr_right, extr_all, get_left, get_right, get_bit1, Nat.reduceSub, Nat.sub_self]

end Sys2Proof
end

