-- ==== Sys2Proof/Laws/Exec.lean ====
section
/-!
SUPPORT. The meaning that each arm of `exec` calls.
-/
namespace Sys2Proof.Machine

@[simp] theorem exec_nop (r) (s : State) : exec (.nop r) s = execNop r s := rfl
@[simp] theorem exec_iadd (r) (s : State) : exec (.iadd r) s = execIadd r s := rfl
@[simp] theorem exec_isub (r) (s : State) : exec (.isub r) s = execIsub r s := rfl
@[simp] theorem exec_imul (r) (s : State) : exec (.imul r) s = execImul r s := rfl
@[simp] theorem exec_imulh (r) (s : State) : exec (.imulh r) s = execImulh r s := rfl
@[simp] theorem exec_imad (r) (s : State) : exec (.imad r) s = execImad r s := rfl
@[simp] theorem exec_idiv (r) (s : State) : exec (.idiv r) s = execIdiv r s := rfl
@[simp] theorem exec_irem (r) (s : State) : exec (.irem r) s = execIrem r s := rfl
@[simp] theorem exec_imin (r) (s : State) : exec (.imin r) s = execImin r s := rfl
@[simp] theorem exec_imax (r) (s : State) : exec (.imax r) s = execImax r s := rfl
@[simp] theorem exec_iabs (r) (s : State) : exec (.iabs r) s = execIabs r s := rfl
@[simp] theorem exec_ineg (r) (s : State) : exec (.ineg r) s = execIneg r s := rfl
@[simp] theorem exec_and (r) (s : State) : exec (.and r) s = execAnd r s := rfl
@[simp] theorem exec_or (r) (s : State) : exec (.or r) s = execOr r s := rfl
@[simp] theorem exec_xor (r) (s : State) : exec (.xor r) s = execXor r s := rfl
@[simp] theorem exec_andn (r) (s : State) : exec (.andn r) s = execAndn r s := rfl
@[simp] theorem exec_shl (r) (s : State) : exec (.shl r) s = execShl r s := rfl
@[simp] theorem exec_shr (r) (s : State) : exec (.shr r) s = execShr r s := rfl
@[simp] theorem exec_sra (r) (s : State) : exec (.sra r) s = execSra r s := rfl
@[simp] theorem exec_rot (r) (s : State) : exec (.rot r) s = execRot r s := rfl
@[simp] theorem exec_clz (r) (s : State) : exec (.clz r) s = execClz r s := rfl
@[simp] theorem exec_popc (r) (s : State) : exec (.popc r) s = execPopc r s := rfl
@[simp] theorem exec_brev (r) (s : State) : exec (.brev r) s = execBrev r s := rfl
@[simp] theorem exec_bfx (r) (s : State) : exec (.bfx r) s = execBfx r s := rfl
@[simp] theorem exec_bfi (r) (s : State) : exec (.bfi r) s = execBfi r s := rfl
@[simp] theorem exec_icmp (r) (s : State) : exec (.icmp r) s = execIcmp r s := rfl
@[simp] theorem exec_sel (r) (s : State) : exec (.sel r) s = execSel r s := rfl
@[simp] theorem exec_iclamp (r) (s : State) : exec (.iclamp r) s = execIclamp r s := rfl
@[simp] theorem exec_addr (r) (s : State) : exec (.addr r) s = execAddr r s := rfl
@[simp] theorem exec_iaddw (r) (s : State) : exec (.iaddw r) s = execIaddw r s := rfl
@[simp] theorem exec_icvt (r) (s : State) : exec (.icvt r) s = execIcvt r s := rfl
@[simp] theorem exec_copy (r) (s : State) : exec (.copy r) s = execCopy r s := rfl
@[simp] theorem exec_const (r) (s : State) : exec (.const r) s = execConst r s := rfl
@[simp] theorem exec_sink (r) (s : State) : exec (.sink r) s = execSink r s := rfl
@[simp] theorem exec_gate (r) (s : State) : exec (.gate r) s = execGate r s := rfl
@[simp] theorem exec_join (r) (s : State) : exec (.join r) s = execJoin r s := rfl
@[simp] theorem exec_steer (r) (s : State) : exec (.steer r) s = execSteer r s := rfl
@[simp] theorem exec_merge (r) (s : State) : exec (.merge r) s = execMerge r s := rfl
@[simp] theorem exec_enter (r) (s : State) : exec (.enter r) s = execEnter r s := rfl
@[simp] theorem exec_wave (r) (s : State) : exec (.wave r) s = execWave r s := rfl
@[simp] theorem exec_leave (r) (s : State) : exec (.leave r) s = execLeave r s := rfl
@[simp] theorem exec_throttleAdmit (r) (s : State) : exec (.throttleAdmit r) s = execThrottleAdmit r s := rfl
@[simp] theorem exec_repeat (r) (s : State) : exec (.repeat r) s = execRepeat r s := rfl
@[simp] theorem exec_tagget (r) (s : State) : exec (.tagget r) s = execTagget r s := rfl
@[simp] theorem exec_tagset (r) (s : State) : exec (.tagset r) s = execTagset r s := rfl
@[simp] theorem exec_void (r) (s : State) : exec (.void r) s = execVoid r s := rfl
@[simp] theorem exec_range (r) (s : State) : exec (.range r) s = execRange r s := rfl
@[simp] theorem exec_runend (r) (s : State) : exec (.runend r) s = execRunend r s := rfl
@[simp] theorem exec_read (r) (s : State) : exec (.read r) s = execRead r s := rfl
@[simp] theorem exec_write (r) (s : State) : exec (.write r) s = execWrite r s := rfl
@[simp] theorem exec_branch (r) (s : State) : exec (.branch r) s = execBranch r s := rfl
@[simp] theorem exec_bcall (r) (s : State) : exec (.bcall r) s = execBcall r s := rfl
@[simp] theorem exec_bret (r) (s : State) : exec (.bret r) s = execBret r s := rfl
@[simp] theorem exec_fadd (r) (s : State) : exec (.fadd r) s = execFadd r s := rfl
@[simp] theorem exec_fsub (r) (s : State) : exec (.fsub r) s = execFsub r s := rfl
@[simp] theorem exec_fmul (r) (s : State) : exec (.fmul r) s = execFmul r s := rfl
@[simp] theorem exec_ffma (r) (s : State) : exec (.ffma r) s = execFfma r s := rfl
@[simp] theorem exec_fmin (r) (s : State) : exec (.fmin r) s = execFmin r s := rfl
@[simp] theorem exec_fmax (r) (s : State) : exec (.fmax r) s = execFmax r s := rfl
@[simp] theorem exec_fcmp (r) (s : State) : exec (.fcmp r) s = execFcmp r s := rfl
@[simp] theorem exec_fclass (r) (s : State) : exec (.fclass r) s = execFclass r s := rfl
@[simp] theorem exec_fdiv (r) (s : State) : exec (.fdiv r) s = execFdiv r s := rfl
@[simp] theorem exec_fsqrt (r) (s : State) : exec (.fsqrt r) s = execFsqrt r s := rfl
@[simp] theorem exec_frcp (r) (s : State) : exec (.frcp r) s = execFrcp r s := rfl
@[simp] theorem exec_frsq (r) (s : State) : exec (.frsq r) s = execFrsq r s := rfl
@[simp] theorem exec_frcpa (r) (s : State) : exec (.frcpa r) s = execFrcpa r s := rfl
@[simp] theorem exec_frsqa (r) (s : State) : exec (.frsqa r) s = execFrsqa r s := rfl
@[simp] theorem exec_fexp2 (r) (s : State) : exec (.fexp2 r) s = execFexp2 r s := rfl
@[simp] theorem exec_flog2 (r) (s : State) : exec (.flog2 r) s = execFlog2 r s := rfl
@[simp] theorem exec_fsinpi (r) (s : State) : exec (.fsinpi r) s = execFsinpi r s := rfl
@[simp] theorem exec_fcospi (r) (s : State) : exec (.fcospi r) s = execFcospi r s := rfl
@[simp] theorem exec_ftanh (r) (s : State) : exec (.ftanh r) s = execFtanh r s := rfl
@[simp] theorem exec_fscale (r) (s : State) : exec (.fscale r) s = execFscale r s := rfl
@[simp] theorem exec_fround (r) (s : State) : exec (.fround r) s = execFround r s := rfl
@[simp] theorem exec_fsgn (r) (s : State) : exec (.fsgn r) s = execFsgn r s := rfl
@[simp] theorem exec_cvt (r) (s : State) : exec (.cvt r) s = execCvt r s := rfl
@[simp] theorem exec_ftoi (r) (s : State) : exec (.ftoi r) s = execFtoi r s := rfl
@[simp] theorem exec_itof (r) (s : State) : exec (.itof r) s = execItof r s := rfl
@[simp] theorem exec_bxpack (r) (s : State) : exec (.bxpack r) s = execBxpack r s := rfl
@[simp] theorem exec_bxunpk (r) (s : State) : exec (.bxunpk r) s = execBxunpk r s := rfl
@[simp] theorem exec_dot (r) (s : State) : exec (.dot r) s = execDot r s := rfl
@[simp] theorem exec_lsum (r) (s : State) : exec (.lsum r) s = execLsum r s := rfl
@[simp] theorem exec_lscan (r) (s : State) : exec (.lscan r) s = execLscan r s := rfl
@[simp] theorem exec_lmax (r) (s : State) : exec (.lmax r) s = execLmax r s := rfl
@[simp] theorem exec_lmin (r) (s : State) : exec (.lmin r) s = execLmin r s := rfl
@[simp] theorem exec_shuf (r) (s : State) : exec (.shuf r) s = execShuf r s := rfl
@[simp] theorem exec_bcast (r) (s : State) : exec (.bcast r) s = execBcast r s := rfl
@[simp] theorem exec_iota (r) (s : State) : exec (.iota r) s = execIota r s := rfl
@[simp] theorem exec_lmask (r) (s : State) : exec (.lmask r) s = execLmask r s := rfl
@[simp] theorem exec_packc (r) (s : State) : exec (.packc r) s = execPackc r s := rfl
@[simp] theorem exec_unpackc (r) (s : State) : exec (.unpackc r) s = execUnpackc r s := rfl
@[simp] theorem exec_cmpfwd (r) (s : State) : exec (.cmpfwd r) s = execCmpfwd r s := rfl
@[simp] theorem exec_rankadmCandidate (r) (s : State) : exec (.rankadmCandidate r) s = execRankadmCandidate r s := rfl
@[simp] theorem exec_ld (r) (s : State) : exec (.ld r) s = execLd r s := rfl
@[simp] theorem exec_st (r) (s : State) : exec (.st r) s = execSt r s := rfl
@[simp] theorem exec_ldx (r) (s : State) : exec (.ldx r) s = execLdx r s := rfl
@[simp] theorem exec_stx (r) (s : State) : exec (.stx r) s = execStx r s := rfl
@[simp] theorem exec_mnop (r) (s : State) : exec (.mnop r) s = execMnop r s := rfl
@[simp] theorem exec_fence (r) (s : State) : exec (.fence r) s = execFence r s := rfl
@[simp] theorem exec_order (r) (s : State) : exec (.order r) s = execOrder r s := rfl
@[simp] theorem exec_aadd (r) (s : State) : exec (.aadd r) s = execAadd r s := rfl
@[simp] theorem exec_amin (r) (s : State) : exec (.amin r) s = execAmin r s := rfl
@[simp] theorem exec_amax (r) (s : State) : exec (.amax r) s = execAmax r s := rfl
@[simp] theorem exec_aand (r) (s : State) : exec (.aand r) s = execAand r s := rfl
@[simp] theorem exec_aor (r) (s : State) : exec (.aor r) s = execAor r s := rfl
@[simp] theorem exec_axor (r) (s : State) : exec (.axor r) s = execAxor r s := rfl
@[simp] theorem exec_axchg (r) (s : State) : exec (.axchg r) s = execAxchg r s := rfl
@[simp] theorem exec_acas (r) (s : State) : exec (.acas r) s = execAcas r s := rfl
@[simp] theorem exec_acc (r) (s : State) : exec (.acc r) s = execAcc r s := rfl
@[simp] theorem exec_wcfg (r) (s : State) : exec (.wcfg r) s = execWcfg r s := rfl
@[simp] theorem exec_wfull (r) (s : State) : exec (.wfull r) s = execWfull r s := rfl
@[simp] theorem exec_wempty (r) (s : State) : exec (.wempty r) s = execWempty r s := rfl
@[simp] theorem exec_ldp (r) (s : State) : exec (.ldp r) s = execLdp r s := rfl
@[simp] theorem exec_promote (r) (s : State) : exec (.promote r) s = execPromote r s := rfl
@[simp] theorem exec_xfer (r) (s : State) : exec (.xfer r) s = execXfer r s := rfl
@[simp] theorem exec_xfers (r) (s : State) : exec (.xfers r) s = execXfers r s := rfl
@[simp] theorem exec_pref (r) (s : State) : exec (.pref r) s = execPref r s := rfl
@[simp] theorem exec_pginit (r) (s : State) : exec (.pginit r) s = execPginit r s := rfl
@[simp] theorem exec_pginitFree (r) (s : State) : exec (.pginitFree r) s = execPginitFree r s := rfl
@[simp] theorem exec_pgadv (r) (s : State) : exec (.pgadv r) s = execPgadv r s := rfl
@[simp] theorem exec_pgread (r) (s : State) : exec (.pgread r) s = execPgread r s := rfl
@[simp] theorem exec_waitany (r) (s : State) : exec (.waitany r) s = execWaitany r s := rfl
@[simp] theorem exec_waitall (r) (s : State) : exec (.waitall r) s = execWaitall r s := rfl
@[simp] theorem exec_ffready (r) (s : State) : exec (.ffready r) s = execFfready r s := rfl
@[simp] theorem exec_sclemit (r) (s : State) : exec (.sclemit r) s = execSclemit r s := rfl
@[simp] theorem exec_wload (r) (s : State) : exec (.wload r) s = execWload r s := rfl
@[simp] theorem exec_mma (r) (s : State) : exec (.mma r) s = execMma r s := rfl
@[simp] theorem exec_accin (r) (s : State) : exec (.accin r) s = execAccin r s := rfl
@[simp] theorem exec_accout (r) (s : State) : exec (.accout r) s = execAccout r s := rfl
@[simp] theorem exec_sysmodeEnter (r) (s : State) : exec (.sysmodeEnter r) s = execSysmodeEnter r s := rfl
@[simp] theorem exec_sysmodeLeave (r) (s : State) : exec (.sysmodeLeave r) s = execSysmodeLeave r s := rfl
@[simp] theorem exec_cavjoinLocal (r) (s : State) : exec (.cavjoinLocal r) s = execCavjoinLocal r s := rfl
@[simp] theorem exec_cavjoinSegment (r) (s : State) : exec (.cavjoinSegment r) s = execCavjoinSegment r s := rfl
@[simp] theorem exec_cavjoinLeave (r) (s : State) : exec (.cavjoinLeave r) s = execCavjoinLeave r s := rfl
@[simp] theorem exec_cav (r) (s : State) : exec (.cav r) s = execCav r s := rfl
@[simp] theorem exec_pacesetInit (r) (s : State) : exec (.pacesetInit r) s = execPacesetInit r s := rfl
@[simp] theorem exec_pacesetLoad (r) (s : State) : exec (.pacesetLoad r) s = execPacesetLoad r s := rfl
@[simp] theorem exec_pacesetUpdate (r) (s : State) : exec (.pacesetUpdate r) s = execPacesetUpdate r s := rfl
@[simp] theorem exec_sweep (r) (s : State) : exec (.sweep r) s = execSweep r s := rfl
@[simp] theorem exec_paceq (r) (s : State) : exec (.paceq r) s = execPaceq r s := rfl
@[simp] theorem exec_rulesetWrite (r) (s : State) : exec (.rulesetWrite r) s = execRulesetWrite r s := rfl
@[simp] theorem exec_rulesetClear (r) (s : State) : exec (.rulesetClear r) s = execRulesetClear r s := rfl
@[simp] theorem exec_rulearmArm (r) (s : State) : exec (.rulearmArm r) s = execRulearmArm r s := rfl
@[simp] theorem exec_rulearmDisarm (r) (s : State) : exec (.rulearmDisarm r) s = execRulearmDisarm r s := rfl
@[simp] theorem exec_coll (r) (s : State) : exec (.coll r) s = execColl r s := rfl
@[simp] theorem exec_spawn (r) (s : State) : exec (.spawn r) s = execSpawn r s := rfl
@[simp] theorem exec_callocGrant (r) (s : State) : exec (.callocGrant r) s = execCallocGrant r s := rfl
@[simp] theorem exec_callocEntry (r) (s : State) : exec (.callocEntry r) s = execCallocEntry r s := rfl
@[simp] theorem exec_ret (r) (s : State) : exec (.ret r) s = execRet r s := rfl
@[simp] theorem exec_binit (r) (s : State) : exec (.binit r) s = execBinit r s := rfl
@[simp] theorem exec_binitFree (r) (s : State) : exec (.binitFree r) s = execBinitFree r s := rfl
@[simp] theorem exec_barrive (r) (s : State) : exec (.barrive r) s = execBarrive r s := rfl
@[simp] theorem exec_barriveTag (r) (s : State) : exec (.barriveTag r) s = execBarriveTag r s := rfl
@[simp] theorem exec_bwait (r) (s : State) : exec (.bwait r) s = execBwait r s := rfl
@[simp] theorem exec_bdrop (r) (s : State) : exec (.bdrop r) s = execBdrop r s := rfl
@[simp] theorem exec_btest (r) (s : State) : exec (.btest r) s = execBtest r s := rfl
@[simp] theorem exec_btestTicket (r) (s : State) : exec (.btestTicket r) s = execBtestTicket r s := rfl
@[simp] theorem exec_qput (r) (s : State) : exec (.qput r) s = execQput r s := rfl
@[simp] theorem exec_qtake (r) (s : State) : exec (.qtake r) s = execQtake r s := rfl
@[simp] theorem exec_qtakePoll (r) (s : State) : exec (.qtakePoll r) s = execQtakePoll r s := rfl
@[simp] theorem exec_qstat (r) (s : State) : exec (.qstat r) s = execQstat r s := rfl
@[simp] theorem exec_qmark (r) (s : State) : exec (.qmark r) s = execQmark r s := rfl
@[simp] theorem exec_kstage (r) (s : State) : exec (.kstage r) s = execKstage r s := rfl
@[simp] theorem exec_kflip (r) (s : State) : exec (.kflip r) s = execKflip r s := rfl
@[simp] theorem exec_kdrain (r) (s : State) : exec (.kdrain r) s = execKdrain r s := rfl
@[simp] theorem exec_kdrainPurge (r) (s : State) : exec (.kdrainPurge r) s = execKdrainPurge r s := rfl
@[simp] theorem exec_kdrainPoll (r) (s : State) : exec (.kdrainPoll r) s = execKdrainPoll r s := rfl
@[simp] theorem exec_snap (r) (s : State) : exec (.snap r) s = execSnap r s := rfl
@[simp] theorem exec_ctxpri (r) (s : State) : exec (.ctxpri r) s = execCtxpri r s := rfl
@[simp] theorem exec_park (r) (s : State) : exec (.park r) s = execPark r s := rfl
@[simp] theorem exec_resume (r) (s : State) : exec (.resume r) s = execResume r s := rfl
@[simp] theorem exec_yield (r) (s : State) : exec (.yield r) s = execYield r s := rfl
@[simp] theorem exec_sread (r) (s : State) : exec (.sread r) s = execSread r s := rfl
@[simp] theorem exec_swrite (r) (s : State) : exec (.swrite r) s = execSwrite r s := rfl
@[simp] theorem exec_mpin (r) (s : State) : exec (.mpin r) s = execMpin r s := rfl
@[simp] theorem exec_munpin (r) (s : State) : exec (.munpin r) s = execMunpin r s := rfl
@[simp] theorem exec_minv (r) (s : State) : exec (.minv r) s = execMinv r s := rfl
@[simp] theorem exec_minvContext (r) (s : State) : exec (.minvContext r) s = execMinvContext r s := rfl
@[simp] theorem exec_mprobe (r) (s : State) : exec (.mprobe r) s = execMprobe r s := rfl
@[simp] theorem exec_mprobeRead (r) (s : State) : exec (.mprobeRead r) s = execMprobeRead r s := rfl
@[simp] theorem exec_mprobeReadClear (r) (s : State) : exec (.mprobeReadClear r) s = execMprobeReadClear r s := rfl
@[simp] theorem exec_trap (r) (s : State) : exec (.trap r) s = execTrap r s := rfl
@[simp] theorem exec_tret (r) (s : State) : exec (.tret r) s = execTret r s := rfl
@[simp] theorem exec_ftake (r) (s : State) : exec (.ftake r) s = execFtake r s := rfl
@[simp] theorem exec_ftakeRetry (r) (s : State) : exec (.ftakeRetry r) s = execFtakeRetry r s := rfl
@[simp] theorem exec_ftakeDiscard (r) (s : State) : exec (.ftakeDiscard r) s = execFtakeDiscard r s := rfl
@[simp] theorem exec_ftakePeek (r) (s : State) : exec (.ftakePeek r) s = execFtakePeek r s := rfl
@[simp] theorem exec_ptest (r) (s : State) : exec (.ptest r) s = execPtest r s := rfl
@[simp] theorem exec_lstat (r) (s : State) : exec (.lstat r) s = execLstat r s := rfl
@[simp] theorem exec_lctlTrain (r) (s : State) : exec (.lctlTrain r) s = execLctlTrain r s := rfl
@[simp] theorem exec_lctlDown (r) (s : State) : exec (.lctlDown r) s = execLctlDown r s := rfl
@[simp] theorem exec_lctlReset (r) (s : State) : exec (.lctlReset r) s = execLctlReset r s := rfl
@[simp] theorem exec_lctlRoute (r) (s : State) : exec (.lctlRoute r) s = execLctlRoute r s := rfl
@[simp] theorem exec_lctlClearCounters (r) (s : State) : exec (.lctlClearCounters r) s = execLctlClearCounters r s := rfl
@[simp] theorem exec_lctlOwnNumber (r) (s : State) : exec (.lctlOwnNumber r) s = execLctlOwnNumber r s := rfl
@[simp] theorem exec_tokenArrival (s : State) : exec .tokenArrival s = execTokenArrival s := rfl
@[simp] theorem exec_frameMatchReturn (s : State) : exec .frameMatchReturn s = execFrameMatchReturn s := rfl
@[simp] theorem exec_scaleTokenArrival (s : State) : exec .scaleTokenArrival s = execScaleTokenArrival s := rfl
@[simp] theorem exec_shareWindowStart (s : State) : exec .shareWindowStart s = execShareWindowStart s := rfl
@[simp] theorem exec_delayedResultDelivery (s : State) : exec .delayedResultDelivery s = execDelayedResultDelivery s := rfl
@[simp] theorem exec_throttleCredit (s : State) : exec .throttleCredit s = execThrottleCredit s := rfl
@[simp] theorem exec_generatorEmit (s : State) : exec .generatorEmit s = execGeneratorEmit s := rfl
@[simp] theorem exec_rankadmBatchComplete (s : State) : exec .rankadmBatchComplete s = execRankadmBatchComplete s := rfl
@[simp] theorem exec_accAddend (s : State) : exec .accAddend s = execAccAddend s := rfl
@[simp] theorem exec_wcfgTakeEffect (s : State) : exec .wcfgTakeEffect s = execWcfgTakeEffect s := rfl
@[simp] theorem exec_orderBufferRelease (s : State) : exec .orderBufferRelease s = execOrderBufferRelease s := rfl
@[simp] theorem exec_wellAccess (s : State) : exec .wellAccess s = execWellAccess s := rfl
@[simp] theorem exec_pageWindowFill (s : State) : exec .pageWindowFill s = execPageWindowFill s := rfl
@[simp] theorem exec_l2Fill (s : State) : exec .l2Fill s = execL2Fill s := rfl
@[simp] theorem exec_arbiterService (s : State) : exec .arbiterService s = execArbiterService s := rfl
@[simp] theorem exec_transferSectorDone (s : State) : exec .transferSectorDone s = execTransferSectorDone s := rfl
@[simp] theorem exec_pulse (s : State) : exec .pulse s = execPulse s := rfl
@[simp] theorem exec_scalePortConvert (s : State) : exec .scalePortConvert s = execScalePortConvert s := rfl
@[simp] theorem exec_arrayPassUpdate (s : State) : exec .arrayPassUpdate s = execArrayPassUpdate s := rfl
@[simp] theorem exec_cavityRound (s : State) : exec .cavityRound s = execCavityRound s := rfl
@[simp] theorem exec_cavityCarryPoll (s : State) : exec .cavityCarryPoll s = execCavityCarryPoll s := rfl
@[simp] theorem exec_ruleArrival (s : State) : exec .ruleArrival s = execRuleArrival s := rfl
@[simp] theorem exec_ruleEmit (s : State) : exec .ruleEmit s = execRuleEmit s := rfl
@[simp] theorem exec_drainFenceComplete (s : State) : exec .drainFenceComplete s = execDrainFenceComplete s := rfl
@[simp] theorem exec_eauCredit (s : State) : exec .eauCredit s = execEauCredit s := rfl
@[simp] theorem exec_colourDraw (s : State) : exec .colourDraw s = execColourDraw s := rfl
@[simp] theorem exec_returnTokenDelivery (s : State) : exec .returnTokenDelivery s = execReturnTokenDelivery s := rfl
@[simp] theorem exec_colourDrain (s : State) : exec .colourDrain s = execColourDrain s := rfl
@[simp] theorem exec_groupIdle (s : State) : exec .groupIdle s = execGroupIdle s := rfl
@[simp] theorem exec_parkwaitExpiry (s : State) : exec .parkwaitExpiry s = execParkwaitExpiry s := rfl
@[simp] theorem exec_sliceExpiry (s : State) : exec .sliceExpiry s = execSliceExpiry s := rfl
@[simp] theorem exec_barrierWatchExpiry (s : State) : exec .barrierWatchExpiry s = execBarrierWatchExpiry s := rfl
@[simp] theorem exec_barrierNotice (s : State) : exec .barrierNotice s = execBarrierNotice s := rfl
@[simp] theorem exec_hostAppend (s : State) : exec .hostAppend s = execHostAppend s := rfl
@[simp] theorem exec_queueConfig (s : State) : exec .queueConfig s = execQueueConfig s := rfl
@[simp] theorem exec_queueStart (s : State) : exec .queueStart s = execQueueStart s := rfl
@[simp] theorem exec_queueStop (s : State) : exec .queueStop s = execQueueStop s := rfl
@[simp] theorem exec_queueReset (s : State) : exec .queueReset s = execQueueReset s := rfl
@[simp] theorem exec_queueClro (s : State) : exec .queueClro s = execQueueClro s := rfl
@[simp] theorem exec_launchPlacement (s : State) : exec .launchPlacement s = execLaunchPlacement s := rfl
@[simp] theorem exec_launchCompletion (s : State) : exec .launchCompletion s = execLaunchCompletion s := rfl
@[simp] theorem exec_stageComplete (s : State) : exec .stageComplete s = execStageComplete s := rfl
@[simp] theorem exec_planeEmpty (s : State) : exec .planeEmpty s = execPlaneEmpty s := rfl
@[simp] theorem exec_markerArrival (s : State) : exec .markerArrival s = execMarkerArrival s := rfl
@[simp] theorem exec_snapTimeout (s : State) : exec .snapTimeout s = execSnapTimeout s := rfl
@[simp] theorem exec_parkGate (s : State) : exec .parkGate s = execParkGate s := rfl
@[simp] theorem exec_parkSettle (s : State) : exec .parkSettle s = execParkSettle s := rfl
@[simp] theorem exec_parkQuiesce (s : State) : exec .parkQuiesce s = execParkQuiesce s := rfl
@[simp] theorem exec_parkStream (s : State) : exec .parkStream s = execParkStream s := rfl
@[simp] theorem exec_parkCommit (s : State) : exec .parkCommit s = execParkCommit s := rfl
@[simp] theorem exec_parkFaultAbandon (s : State) : exec .parkFaultAbandon s = execParkFaultAbandon s := rfl
@[simp] theorem exec_parkAbandonTimeout (s : State) : exec .parkAbandonTimeout s = execParkAbandonTimeout s := rfl
@[simp] theorem exec_crecWrite (s : State) : exec .crecWrite s = execCrecWrite s := rfl
@[simp] theorem exec_validate (s : State) : exec .validate s = execValidate s := rfl
@[simp] theorem exec_release (s : State) : exec .release s = execRelease s := rfl
@[simp] theorem exec_prangeWrite (s : State) : exec .prangeWrite s = execPrangeWrite s := rfl
@[simp] theorem exec_plpriWrite (s : State) : exec .plpriWrite s = execPlpriWrite s := rfl
@[simp] theorem exec_pulseWrite (s : State) : exec .pulseWrite s = execPulseWrite s := rfl
@[simp] theorem exec_svcmodeWrite (s : State) : exec .svcmodeWrite s = execSvcmodeWrite s := rfl
@[simp] theorem exec_serviceModeChange (s : State) : exec .serviceModeChange s = execServiceModeChange s := rfl
@[simp] theorem exec_preempt (s : State) : exec .preempt s = execPreempt s := rfl
@[simp] theorem exec_pctlFreeze (s : State) : exec .pctlFreeze s = execPctlFreeze s := rfl
@[simp] theorem exec_pctlReset (s : State) : exec .pctlReset s = execPctlReset s := rfl
@[simp] theorem exec_resumep (s : State) : exec .resumep s = execResumep s := rfl
@[simp] theorem exec_registerWrite (s : State) : exec .registerWrite s = execRegisterWrite s := rfl
@[simp] theorem exec_pageWalk (s : State) : exec .pageWalk s = execPageWalk s := rfl
@[simp] theorem exec_blockEntry (s : State) : exec .blockEntry s = execBlockEntry s := rfl
@[simp] theorem exec_blockCommit (s : State) : exec .blockCommit s = execBlockCommit s := rfl
@[simp] theorem exec_trapTaken (s : State) : exec .trapTaken s = execTrapTaken s := rfl
@[simp] theorem exec_uncorrectableError (s : State) : exec .uncorrectableError s = execUncorrectableError s := rfl
@[simp] theorem exec_flitReceive (s : State) : exec .flitReceive s = execFlitReceive s := rfl
@[simp] theorem exec_trainingComplete (s : State) : exec .trainingComplete s = execTrainingComplete s := rfl
@[simp] theorem exec_trainingFail (s : State) : exec .trainingFail s = execTrainingFail s := rfl
@[simp] theorem exec_resettingDrained (s : State) : exec .resettingDrained s = execResettingDrained s := rfl
@[simp] theorem exec_peerResetSeen (s : State) : exec .peerResetSeen s = execPeerResetSeen s := rfl
@[simp] theorem exec_linkLeavesUp (s : State) : exec .linkLeavesUp s = execLinkLeavesUp s := rfl
@[simp] theorem exec_responseTimeout (s : State) : exec .responseTimeout s = execResponseTimeout s := rfl
@[simp] theorem exec_dieLinkFailure (s : State) : exec .dieLinkFailure s = execDieLinkFailure s := rfl
@[simp] theorem exec_hostMemRequest (s : State) : exec .hostMemRequest s = execHostMemRequest s := rfl
@[simp] theorem exec_hostPortDown (s : State) : exec .hostPortDown s = execHostPortDown s := rfl
@[simp] theorem exec_standbyPowerOn (s : State) : exec .standbyPowerOn s = execStandbyPowerOn s := rfl
@[simp] theorem exec_dieResetRelease (s : State) : exec .dieResetRelease s = execDieResetRelease s := rfl
@[simp] theorem exec_panelStart (s : State) : exec .panelStart s = execPanelStart s := rfl
@[simp] theorem exec_selfTestComplete (s : State) : exec .selfTestComplete s = execSelfTestComplete s := rfl
@[simp] theorem exec_limiterStep (s : State) : exec .limiterStep s = execLimiterStep s := rfl
@[simp] theorem exec_powerCeilingStep (s : State) : exec .powerCeilingStep s = execPowerCeilingStep s := rfl
@[simp] theorem exec_getIdentity (s : State) : exec .getIdentity s = execGetIdentity s := rfl
@[simp] theorem exec_getStatus (s : State) : exec .getStatus s = execGetStatus s := rfl
@[simp] theorem exec_readCounters (s : State) : exec .readCounters s = execReadCounters s := rfl
@[simp] theorem exec_readHistogram (s : State) : exec .readHistogram s = execReadHistogram s := rfl
@[simp] theorem exec_setPolicy (s : State) : exec .setPolicy s = execSetPolicy s := rfl
@[simp] theorem exec_keyAdd (s : State) : exec .keyAdd s = execKeyAdd s := rfl
@[simp] theorem exec_attest (s : State) : exec .attest s = execAttest s := rfl
@[simp] theorem exec_resetMain (s : State) : exec .resetMain s = execResetMain s := rfl
@[simp] theorem exec_mgmtBusy (s : State) : exec .mgmtBusy s = execMgmtBusy s := rfl
@[simp] theorem exec_counterCommit (s : State) : exec .counterCommit s = execCounterCommit s := rfl
@[simp] theorem exec_histogramSample (s : State) : exec .histogramSample s = execHistogramSample s := rfl
@[simp] theorem exec_flipTakesEffect (s : State) : exec .flipTakesEffect s = execFlipTakesEffect s := rfl
@[simp] theorem exec_resumeComplete (s : State) : exec .resumeComplete s = execResumeComplete s := rfl
@[simp] theorem exec_partitionFrozen (s : State) : exec .partitionFrozen s = execPartitionFrozen s := rfl
@[simp] theorem exec_partitionCleared (s : State) : exec .partitionCleared s = execPartitionCleared s := rfl
@[simp] theorem exec_rcRegisterRead (s : State) : exec .rcRegisterRead s = execRcRegisterRead s := rfl
@[simp] theorem exec_controlLineRejected (s : State) : exec .controlLineRejected s = execControlLineRejected s := rfl
@[simp] theorem exec_hdmDecoderWrite (s : State) : exec .hdmDecoderWrite s = execHdmDecoderWrite s := rfl
@[simp] theorem exec_mainPowerOn (s : State) : exec .mainPowerOn s = execMainPowerOn s := rfl
@[simp] theorem exec_mainPowerOff (s : State) : exec .mainPowerOff s = execMainPowerOff s := rfl
@[simp] theorem exec_orderlyPowerDown (s : State) : exec .orderlyPowerDown s = execOrderlyPowerDown s := rfl
@[simp] theorem exec_standbyPowerLoss (s : State) : exec .standbyPowerLoss s = execStandbyPowerLoss s := rfl

end Sys2Proof.Machine
end

