-- ==== Sys2Proof/Laws/Firing.lean ====
section
/-!
SUPPORT. What the shared firing operations answer (02 R51, 08 R179): one lemma for each way a match can go.
-/
namespace Sys2Proof.Machine
open Sys2Proof.Safety

/-- A record whose port set holds no full match does not fire. -/
theorem fireWith_noMatch {s : State} {f : Form} {ty : BitVec 4} {base : List Nat} {bad blk : Bool} {op : Cur → Res}
    {fin : State → Cur → Form → BitVec 4 → Res → State} (h : hasPorts s.cur (portSet base f.ctl) = false) :
    fireWith s f ty base bad blk op fin = .refused .noMatch := by
  simp [fireWith, h]

/-- A match that supplies values to a record with admitted fields has its effect. -/
theorem fireWith_takes {s : State} {f : Form} {ty : BitVec 4} {base : List Nat} {bad blk : Bool} {op : Cur → Res}
    {fin : State → Cur → Form → BitVec 4 → Res → State} (h : Takes s f ty base blk) (hb : bad = false) :
    fireWith s f ty base bad blk op fin = .next (fin s s.cur f ty (op s.cur)) := by
  obtain ⟨h1, h2, h3, h4, h5, h6⟩ := h
  have h3' : (f.ctl.lituse != 0 && isBlockTy ty) = false := by rcases h3 with h | h <;> simp [h]
  have h5' : (!blk && anyBlock s.cur (portSet base f.ctl)) = false := by rcases h5 with h | h <;> simp [h]
  simp only [fireWith, h1, h2, h3', h4, h5', h6, hb, Bool.not_true, Bool.false_or, Bool.false_eq_true, if_false]

/-- A record with a field that is not admitted consumes its match and faults (08 R179). -/
theorem fireWith_bad {s : State} {f : Form} {ty : BitVec 4} {base : List Nat} {blk : Bool} {op : Cur → Res}
    {fin : State → Cur → Form → BitVec 4 → Res → State} (h : hasPorts s.cur (portSet base f.ctl) = true) :
    fireWith s f ty base true blk op fin = .next (faultCur s s.cur cILLEGAL 0) := by
  simp [fireWith, h]

/-- Whatever the match, a firing ends in one of five ways. -/
theorem fireWith_cases {s t : State} {f : Form} {ty : BitVec 4} {base : List Nat} {bad blk : Bool} {op : Cur → Res}
    {fin : State → Cur → Form → BitVec 4 → Res → State} (h : fireWith s f ty base bad blk op fin = .next t) :
    t = faultCur s s.cur cILLEGAL 0 ∨ t = emitNulls s s.cur f ty ∨ t = s ∨ t = fin s s.cur f ty (op s.cur) := by
  simp only [fireWith] at h
  split at h
  · cases h
  · split at h
    · cases h; exact .inl rfl
    · split at h
      · cases h
        split
        · exact .inr (.inl rfl)
        · exact .inr (.inr (.inl rfl))
      · split at h
        · cases h; exact .inr (.inl rfl)
        · cases h; exact .inr (.inr (.inr rfl))

/-- A match that supplies values to a record of more than one cycle leaves its result to be delivered. -/
theorem fireLate_takes {s : State} {f : Form} {ty : BitVec 4} {base : List Nat} {bad blk : Bool} {op : Cur → Res} {lat : Cur → Nat}
    (h : Takes s f ty base blk) (hb : bad = false) :
    fireLate s f ty base bad blk op lat = .next (delayRes lat s s.cur f ty (op s.cur)) := by
  obtain ⟨h1, h2, h3, h4, h5, h6⟩ := h
  have h3' : (f.ctl.lituse != 0 && isBlockTy ty) = false := by rcases h3 with h | h <;> simp [h]
  have h5' : (!blk && anyBlock s.cur (portSet base f.ctl)) = false := by rcases h5 with h | h <;> simp [h]
  simp only [fireLate, h1, h2, h3', h4, h5', h6, hb, Bool.not_true, Bool.false_or, Bool.false_eq_true, if_false]

/-- Whatever the match, such a record faults, changes nothing, or leaves one result to be delivered. -/
theorem fireLate_cases {s t : State} {f : Form} {ty : BitVec 4} {base : List Nat} {bad blk : Bool} {op : Cur → Res} {lat : Cur → Nat}
    (h : fireLate s f ty base bad blk op lat = .next t) :
    t = faultCur s s.cur cILLEGAL 0 ∨ t = s ∨ ∃ v, t = delayRes lat s s.cur f ty v := by
  simp only [fireLate] at h
  split at h
  · cases h
  · split at h
    · cases h; exact .inl rfl
    · split at h
      · cases h
        split
        · exact .inr (.inr ⟨_, rfl⟩)
        · exact .inr (.inl rfl)
      · split at h <;> cases h <;> exact .inr (.inr ⟨_, rfl⟩)

/-- A move that supplies values has its effect. -/
theorem moveFire_moves {s : State} {r : RecN} {base : List Nat} {bad : Bool} {op : Cur → Res}
    (h : Moves s (formN r) base) (hb : bad = false) :
    moveFire s r base bad op = .next (emitRes s s.cur (formN r) (portTok s.cur 0).ty (op s.cur)) := by
  obtain ⟨h1, h2, h3, h4⟩ := h
  simp only [formN] at h1 h2 h3 h4
  simp [moveFire, h1, h2, h3, h4, hb, formN]

/-- Whatever the match, a move ends in one of four ways. -/
theorem moveFire_cases {s t : State} {r : RecN} {base : List Nat} {bad : Bool} {op : Cur → Res}
    (h : moveFire s r base bad op = .next t) :
    t = faultCur s s.cur cILLEGAL 0 ∨ t = s ∨ (∃ v w, t = sendNulls s s.cur (formN r) v w) ∨
      (∃ x, t = emitRes s s.cur (formN r) (portTok s.cur 0).ty x) := by
  simp only [moveFire] at h
  split at h
  · cases h
  · split at h
    · cases h; exact .inl rfl
    · split at h
      · cases h
        split
        · exact .inr (.inr (.inl ⟨_, _, rfl⟩))
        · exact .inr (.inl rfl)
      · split at h
        · cases h; exact .inr (.inr (.inl ⟨_, _, rfl⟩))
        · cases h; exact .inr (.inr (.inr ⟨_, rfl⟩))

end Sys2Proof.Machine
end

