-- ==== Sys2Proof/Laws/Records.lean ====
section
/-!
SUPPORT. What the shared firings of formats M, T and S answer (02 R51 to R53, 08 R168 to R171): one lemma for each way a match can go,
and one that lists the ways.
-/
namespace Sys2Proof.Machine
open Sys2Proof.Safety

/-! ## Format S -/

theorem sFire_supplied {s : State} {r : RecS} {base : List Nat} {bad pz : Bool} {ty : BitVec 4} {act : State → Cur → State}
    (h : Supplied s r.ctl base) (hb : bad = false) (hp : pz = false ∨ Clean s) :
    sFire s r base bad pz ty act = .next (act s s.cur) := by
  obtain ⟨h1, h2, h3, h4, h5, h6⟩ := h
  have : (pz && s.cur.ops.any (fun x => x.2.poison)) = false := by rcases hp with h | h <;> simp [h]
  simp only [sFire, h1, h2, h3, h4, h5, h6, hb, this]; rfl

theorem sFire_bad {s : State} {r : RecS} {base : List Nat} {pz : Bool} {ty : BitVec 4} {act : State → Cur → State}
    (h : hasPorts s.cur (portSet base r.ctl) = true) :
    sFire s r base true pz ty act = .next (faultCur s s.cur cILLEGAL 0) := by
  simp [sFire, h]

/-- Whatever the match, a format S firing ends in one of these ways. -/
theorem sFire_cases {s t : State} {r : RecS} {base : List Nat} {bad pz : Bool} {ty : BitVec 4} {act : State → Cur → State}
    (h : sFire s r base bad pz ty act = .next t) :
    (∃ k, t = faultCur s s.cur k 0) ∨ t = emitNulls s s.cur (formS r) ty ∨ t = s ∨ t = act s s.cur := by
  simp only [sFire] at h
  split at h
  · cases h
  · split at h
    · cases h; exact .inl ⟨_, rfl⟩
    · split at h
      · cases h
        split
        · exact .inr (.inl rfl)
        · exact .inr (.inr (.inl rfl))
      · split at h
        · cases h; exact .inr (.inl rfl)
        · split at h
          · cases h; exact .inl ⟨_, rfl⟩
          · cases h; exact .inr (.inr (.inr rfl))

/-- A record that acts on the object of a well it may reach. -/
theorem objFire_atWell {s : State} {r : RecS} {base : List Nat} {mode : Nat} {bad : Bool} {ty : BitVec 4}
    {act : State → Cur → Nat → State} (h : AtWell s r base mode) (hb : bad = false) :
    objFire s r base mode bad ty act = .next (act s s.cur r.d1.site.toNat) := by
  obtain ⟨h1, h2, h3⟩ := h
  unfold objFire
  rw [sFire_supplied (r := { r with d1 := (d0Only r).d1 }) h1 (by simp [hb, h2]) (.inl rfl)]
  simp [h3]

/-! ## Effects at commit (02 R53) -/

theorem inBlock_of {s : State} {b : Block} (h : InBlock s b) : inBlock s = true := by
  obtain ⟨h1, -, h3⟩ := h
  simp [inBlock, h1, h3]

theorem inBlock_act {s : State} (h : ActsNow s) : ¬ (inBlock s = true ∧ (!s.cur.late) = true) := by
  rcases h with h | h <;> simp [inBlock, h]

/-- The effect of an instruction of a block waits for its commit. -/
theorem holdEff_of {s : State} {b : Block} (h : InBlock s b) (i : Instr) : holdEff s i = held s b i := by
  simp only [holdEff, onBlock, h.2.2, held]

/-- A record that stands only at the scribe holds its effect while its block runs. -/
theorem sActP_held {pz : Bool} {s : State} {r : RecS} {i : Instr} {bad : Bool} {ty : BitVec 4} {chk : State → Cur → Option Nat}
    {b : Block} {act : State → Cur → State} (h : s.cur.site = 240) (hs : Supplied s r.ctl [0]) (hp : pz = false ∨ Clean s)
    (hb : bad = false) (hi : InBlock s b) (hc : chk s s.cur = none) : sActP pz s r i [0] bad ty chk act = .next (held s b i) := by
  simp only [sActP, h, ne_eq, not_true_eq_false, if_false]
  rw [sFire_supplied hs hb hp]
  simp only [hc, inBlock_of hi, hi.2.1, Bool.not_false, and_self, if_true, holdEff_of hi]

theorem sAct_held {s : State} {r : RecS} {i : Instr} {bad : Bool} {ty : BitVec 4} {chk : State → Cur → Option Nat} {b : Block}
    {act : State → Cur → State} (h : AtScribe s r) (hb : bad = false) (hi : InBlock s b) (hc : chk s s.cur = none) :
    sAct s r i [0] bad ty chk act = .next (held s b i) := sActP_held h.1 h.2.1 (.inr h.2.2) hb hi hc

/-- It acts once its block has committed. -/
theorem sActP_late {pz : Bool} {s : State} {r : RecS} {i : Instr} {bad : Bool} {ty : BitVec 4} {chk : State → Cur → Option Nat}
    {act : State → Cur → State} (h : s.cur.site = 240) (hs : Supplied s r.ctl [0]) (hp : pz = false ∨ Clean s) (hb : bad = false)
    (hl : s.cur.late = true) (hc : chk s s.cur = none) : sActP pz s r i [0] bad ty chk act = .next (act s s.cur) := by
  have e : ({ s.cur with late := true } : Cur) = s.cur := by rw [← hl]
  simp only [sActP, h]
  rw [sFire_supplied hs hb hp]
  simp [hc, hl]
  rw [e]

theorem sAct_late {s : State} {r : RecS} {i : Instr} {bad : Bool} {ty : BitVec 4} {chk : State → Cur → Option Nat}
    {act : State → Cur → State} (h : AtScribe s r) (hb : bad = false) (hl : s.cur.late = true) (hc : chk s s.cur = none) :
    sAct s r i [0] bad ty chk act = .next (act s s.cur) := sActP_late h.1 h.2.1 (.inr h.2.2) hb hl hc

/-- A record that may stand at a nib or in a block acts now, or is held. -/
theorem bAct_now {s : State} {r : RecS} {i : Instr} {base : List Nat} {bad : Bool} {ty : BitVec 4} {chk : State → Cur → Option Nat}
    {act : State → Cur → State} (h : Supplied s r.ctl base) (hp : Clean s) (hb : bad = false) (ha : ActsNow s)
    (hc : chk s s.cur = none) : bAct s r i base bad ty chk act = .next (act s s.cur) := by
  rw [bAct, sFire_supplied h hb (.inr hp)]
  simp only [hc, inBlock_act ha, if_false]

theorem bAct_held {s : State} {r : RecS} {i : Instr} {base : List Nat} {bad : Bool} {ty : BitVec 4} {chk : State → Cur → Option Nat}
    {act : State → Cur → State} {b : Block} (h : Supplied s r.ctl base) (hp : Clean s) (hb : bad = false) (hi : InBlock s b)
    (hc : chk s s.cur = none) : bAct s r i base bad ty chk act = .next (held s b i) := by
  rw [bAct, sFire_supplied h hb (.inr hp)]
  simp only [hc, inBlock_of hi, hi.2.1, Bool.not_false, and_self, if_true, holdEff_of hi]

/-! ## Format M -/

/-- Whatever the match, a memory record's firing changes only the order buffer of its site, mailboxes, scribes and the counter of
identifiers. -/
theorem memFire_cases {op : Nat} {r : RecM} {s t : State} (h : memFire op r s = .next t) :
    (∃ k, t = faultCur s s.cur k 0) ∨
    (∃ s1, (s1 = { s with fresh := s.fresh + 1 } ∨ ∃ f, s1 = onBlock { s with fresh := s.fresh + 1 } s.cur.p f) ∧
      (t = toSite s1 (accessOf s op r) ∨ ∃ f, t = onBlock s1 s.cur.p f)) := by
  simp only [memFire] at h
  split at h
  · cases h
  · split at h
    · cases h; exact .inl ⟨_, rfl⟩
    · right
      split at h
      · split at h
        · cases h; exact ⟨_, .inr ⟨_, rfl⟩, .inl rfl⟩
        · cases h; exact ⟨_, .inr ⟨_, rfl⟩, .inr ⟨_, rfl⟩⟩
      · cases h; exact ⟨_, .inl rfl, .inl rfl⟩

/-! ## Format T -/

/-- Whatever the match, a transfer record's firing ends in one of these ways. -/
theorem tFire_cases {s t : State} {r : RecT} {i : Instr} {bad : Bool} {issue : State → Cur → State}
    (h : tFire s r i bad issue = .next t) :
    (∃ k, t = faultCur s s.cur k 0) ∨ t = emitNulls s s.cur (formT r) 6 ∨ t = s ∨ t = holdEff s i ∨
      t = waitOn s s.cur .done ∨ t = issue s s.cur := by
  simp only [tFire] at h
  split at h
  · cases h
  · split at h
    · cases h; exact .inl ⟨_, rfl⟩
    · split at h
      · cases h
        split
        · exact .inr (.inl rfl)
        · exact .inr (.inr (.inl rfl))
      · split at h
        · cases h; exact .inr (.inl rfl)
        · split at h
          · cases h; exact .inl ⟨_, rfl⟩
          · split at h
            · split at h
              · cases h; exact .inl ⟨_, rfl⟩
              · cases h; exact .inr (.inr (.inr (.inl rfl)))
            · split at h
              · cases h; exact .inr (.inr (.inr (.inr (.inl rfl))))
              · cases h; exact .inr (.inr (.inr (.inr (.inr rfl))))

/-! ## Faults, and records that acknowledge at their firing -/

/-- A poisoned operand faults (20 R401). -/
theorem sFire_poison {s : State} {r : RecS} {base : List Nat} {bad : Bool} {ty : BitVec 4} {act : State → Cur → State}
    (h : Supplied s r.ctl base) (hb : bad = false) (hp : s.cur.ops.any (fun x => x.2.poison) = true) :
    sFire s r base bad true ty act = .next (faultCur s s.cur cPOISON 0) := by
  obtain ⟨h1, h2, h3, h4, h5, h6⟩ := h
  simp only [sFire, h1, h2, h3, h4, h5, h6, hb, hp]; rfl

/-- A record of the scribe alone: a check that finds a cause faults. -/
theorem sAct_fault {s : State} {r : RecS} {i : Instr} {bad : Bool} {ty : BitVec 4} {chk : State → Cur → Option Nat}
    {act : State → Cur → State} {k : Nat} (h : AtScribe s r) (hb : bad = false) (hc : chk s s.cur = some k) :
    sAct s r i [0] bad ty chk act = .next (faultCur s s.cur k 0) := by
  obtain ⟨h1, h2, h3⟩ := h
  simp [sAct, sActP, h1, sFire_supplied h2 hb (.inr h3), hc]

/-- A field that is not admitted faults. -/
theorem sActP_bad {pz : Bool} {s : State} {r : RecS} {i : Instr} {bad : Bool} {ty : BitVec 4} {chk : State → Cur → Option Nat}
    {act : State → Cur → State} (h : s.cur.site = 240) (hs : Supplied s r.ctl [0]) (hb : bad = true) :
    sActP pz s r i [0] bad ty chk act = .next (faultCur s s.cur cILLEGAL 0) := by
  subst hb
  simp [sActP, h, sFire_bad hs.1]

theorem sAct_bad {s : State} {r : RecS} {i : Instr} {bad : Bool} {ty : BitVec 4} {chk : State → Cur → Option Nat}
    {act : State → Cur → State} (h : AtScribe s r) (hb : bad = true) :
    sAct s r i [0] bad ty chk act = .next (faultCur s s.cur cILLEGAL 0) := sActP_bad h.1 h.2.1 hb

/-- A record that acts at a nib at once: a check that finds a cause faults. -/
theorem bAct_fault {s : State} {r : RecS} {i : Instr} {base : List Nat} {bad : Bool} {ty : BitVec 4}
    {chk : State → Cur → Option Nat} {act : State → Cur → State} {k : Nat} (h : Supplied s r.ctl base) (hcl : Clean s)
    (hb : bad = false) (hc : chk s s.cur = some k) : bAct s r i base bad ty chk act = .next (faultCur s s.cur k 0) := by
  simp [bAct, sFire_supplied h hb (.inr hcl), hc]

/-- A record that acknowledges at its firing: at commit its effect takes place. -/
theorem sAck_late {s : State} {r : RecS} {i : Instr} {bad : Bool} {chk : State → Cur → Option Nat} {act : State → Cur → State}
    (h : AtScribe s r) (hb : bad = false) (hl : s.cur.late = true) : sAck s r i bad chk act = .next (act s s.cur) := by
  obtain ⟨h1, h2, h3⟩ := h
  simp [sAck, h1, sFire_supplied h2 hb (.inr h3), hl]

/-- A check that finds a cause at its firing faults. -/
theorem sAck_fault {s : State} {r : RecS} {i : Instr} {bad : Bool} {chk : State → Cur → Option Nat} {act : State → Cur → State}
    {k : Nat} (h : AtScribe s r) (hb : bad = false) (hl : s.cur.late = false) (hc : chk s s.cur = some k) :
    sAck s r i bad chk act = .next (faultCur s s.cur k 0) := by
  obtain ⟨h1, h2, h3⟩ := h
  simp [sAck, h1, sFire_supplied h2 hb (.inr h3), hl, hc]

/-- In a block it acknowledges and its effect waits for the commit. -/
theorem sAck_held {s : State} {r : RecS} {i : Instr} {bad : Bool} {chk : State → Cur → Option Nat} {act : State → Cur → State}
    {b : Block} (h : AtScribe s r) (hb : bad = false) (hi : InBlock s b) (hc : chk s s.cur = none) :
    sAck s r i bad chk act = .next (holdEff (emitRes s s.cur (formS r) 6 (both (ackVal s.cur.tag 0))) i) := by
  obtain ⟨h1, h2, h3⟩ := h
  simp [sAck, h1, sFire_supplied h2 hb (.inr h3), hi.2.1, hc, inBlock_of hi]

end Sys2Proof.Machine
end

