-- ==== Sys2Proof/Laws/Tables.lean ====
section
/-!
SUPPORT. Tables and byte memories: a read after a write, and the canonical form that every write keeps.
-/
namespace Sys2Proof.Machine

section
variable {α : Type}

@[simp] theorem tget?_tput (t : Tab α) (k : Nat) (v : α) : tget? (tput t k v) k = some v := by
  induction t with
  | nil => simp [tput, tget?]
  | cons x t ih =>
    obtain ⟨k', v'⟩ := x
    simp only [tput]
    split
    · simp [tget?]
    · split
      · simp [tget?]
      · simp [tget?, *]

theorem tget?_tput_ne (t : Tab α) {k j : Nat} (v : α) (h : j ≠ k) : tget? (tput t k v) j = tget? t j := by
  induction t with
  | nil => simp [tput, tget?, h]
  | cons x t ih =>
    obtain ⟨k', v'⟩ := x
    simp only [tput]
    split
    · simp [tget?, h]
    · split
      · subst_vars; simp [tget?, h]
      · simp only [tget?, ih]

theorem tget?_tdel_ne (t : Tab α) {k j : Nat} (h : j ≠ k) : tget? (tdel t k) j = tget? t j := by
  induction t with
  | nil => rfl
  | cons x t ih =>
    obtain ⟨k', v'⟩ := x
    simp only [tdel]
    split
    · subst_vars; simp [tget?, h]
    · simp only [tget?, ih]

theorem tget?_of_above (t : Tab α) {lo k : Nat} (h : keysAbove lo t = true) (hk : k ≤ lo) : tget? t k = none := by
  induction t generalizing lo with
  | nil => rfl
  | cons x t ih =>
    obtain ⟨k', v'⟩ := x
    simp only [keysAbove, Bool.and_eq_true, decide_eq_true_eq] at h
    rw [tget?, if_neg (by omega)]
    exact ih h.2 (by omega)

theorem keysAbove_mono (t : Tab α) {lo lo' : Nat} (h : keysAbove lo t = true) (hk : lo' ≤ lo) : keysAbove lo' t = true := by
  cases t with
  | nil => rfl
  | cons x t =>
    simp only [keysAbove, Bool.and_eq_true, decide_eq_true_eq] at h ⊢
    exact ⟨by omega, h.2⟩

theorem keysAbove_tput (t : Tab α) {lo k : Nat} (v : α) (h : keysAbove lo t = true) (hk : lo < k) :
    keysAbove lo (tput t k v) = true := by
  induction t generalizing lo with
  | nil => simp [tput, keysAbove, hk]
  | cons x t ih =>
    obtain ⟨k', v'⟩ := x
    simp only [keysAbove, Bool.and_eq_true, decide_eq_true_eq] at h
    simp only [tput]
    split
    · simp [keysAbove, *]
    · split
      · subst_vars; simp [keysAbove, *]
      · simp only [keysAbove, Bool.and_eq_true, decide_eq_true_eq]
        exact ⟨h.1, ih h.2 (by omega)⟩

theorem keysAbove_tdel (t : Tab α) {lo k : Nat} (h : keysAbove lo t = true) : keysAbove lo (tdel t k) = true := by
  induction t generalizing lo with
  | nil => rfl
  | cons x t ih =>
    obtain ⟨k', v'⟩ := x
    simp only [keysAbove, Bool.and_eq_true, decide_eq_true_eq] at h
    simp only [tdel]
    split
    · exact keysAbove_mono t h.2 (by omega)
    · simp only [keysAbove, Bool.and_eq_true, decide_eq_true_eq]
      exact ⟨h.1, ih h.2⟩

theorem keysRise_tput (t : Tab α) (k : Nat) (v : α) (h : keysRise t = true) : keysRise (tput t k v) = true := by
  cases t with
  | nil => rfl
  | cons x t =>
    obtain ⟨k', v'⟩ := x
    simp only [keysRise] at h
    simp only [tput]
    split
    · simp [keysRise, keysAbove, *]
    · split
      · subst_vars; exact h
      · exact keysAbove_tput t v h (by omega)

theorem keysRise_tdel (t : Tab α) (k : Nat) (h : keysRise t = true) : keysRise (tdel t k) = true := by
  cases t with
  | nil => rfl
  | cons x t =>
    obtain ⟨k', v'⟩ := x
    simp only [keysRise] at h
    simp only [tdel]
    split
    · cases t with
      | nil => rfl
      | cons y t => simp only [keysAbove, Bool.and_eq_true] at h; exact h.2
    · exact keysAbove_tdel t h

theorem tget?_tdel (t : Tab α) (k : Nat) (h : keysRise t = true) : tget? (tdel t k) k = none := by
  induction t with
  | nil => rfl
  | cons x t ih =>
    obtain ⟨k', v'⟩ := x
    simp only [keysRise] at h
    simp only [tdel]
    split
    · subst_vars; exact tget?_of_above t h (le_refl _)
    · next hk =>
      rw [tget?, if_neg hk]
      apply ih
      cases t with
      | nil => rfl
      | cons y t => simp only [keysAbove, Bool.and_eq_true] at h; exact h.2

variable [DecidableEq α]

theorem tgetD_tsetD_ne (t : Tab α) {k j : Nat} (v d : α) (h : j ≠ k) : tgetD (tsetD t k v d) j d = tgetD t j d := by
  unfold tsetD tgetD
  split
  · rw [tget?_tdel_ne t h]
  · rw [tget?_tput_ne t v h]

theorem tgetD_tsetD_of_ne (t : Tab α) (k : Nat) {v d : α} (h : v ≠ d) : tgetD (tsetD t k v d) k d = v := by
  simp [tsetD, tgetD, h]

theorem tgetD_tsetD (t : Tab α) (k : Nat) (v d : α) (h : keysRise t = true) : tgetD (tsetD t k v d) k d = v := by
  by_cases hv : v = d
  · simp [tsetD, tgetD, hv, tget?_tdel t k h]
  · exact tgetD_tsetD_of_ne t k hv

theorem keysRise_tsetD (t : Tab α) (k : Nat) (v d : α) (h : keysRise t = true) : keysRise (tsetD t k v d) = true := by
  unfold tsetD
  split
  · exact keysRise_tdel t k h
  · exact keysRise_tput t k v h

end

/-! ## Byte memories -/

theorem all_tput {t : List Host.Cell} {p : Host.Cell → Bool} {k : Nat} {v : Byte} (h : t.all p = true) (hv : p (k, v) = true) :
    List.all (tput t k v) p = true := by
  induction t with
  | nil => simp [tput, hv]
  | cons x t ih =>
    obtain ⟨k', v'⟩ := x
    simp only [List.all_cons, Bool.and_eq_true] at h
    simp only [tput]
    split
    · simp [h, hv]
    · split
      · simp [h, hv]
      · simp [h, ih]

theorem all_tdel {t : List Host.Cell} {p : Host.Cell → Bool} {k : Nat} (h : t.all p = true) : List.all (tdel t k) p = true := by
  induction t with
  | nil => rfl
  | cons x t ih =>
    obtain ⟨k', v'⟩ := x
    simp only [List.all_cons, Bool.and_eq_true] at h
    simp only [tdel]
    split
    · exact h.2
    · simp [h, ih]

theorem memWf_nil : memWf [] = true := rfl

/-- A write keeps the canonical form. -/
theorem memWf_mwrite {m : List Host.Cell} (a : Nat) (b : Byte) (h : memWf m = true) : memWf (mwrite m a b) = true := by
  simp only [memWf, Bool.and_eq_true] at h ⊢
  refine ⟨keysRise_tsetD m a b unlisted h.1, ?_⟩
  unfold mwrite tsetD
  split
  · exact all_tdel h.2
  · next hb => exact all_tput h.2 (by simpa using hb)

theorem memWf_mwrites {m : List Host.Cell} (a : Nat) (bs : List Byte) (h : memWf m = true) : memWf (mwrites m a bs) = true := by
  induction bs generalizing m a with
  | nil => exact h
  | cons b bs ih => exact ih (a + 1) (memWf_mwrite a b h)

/-- Writes of listed bytes, each at an address that the list item gives. -/
theorem memWf_foldl {β : Type} {m : List Host.Cell} (l : List β) (a : β → Nat) (b : β → Byte) (h : memWf m = true) :
    memWf (l.foldl (fun m x => mwrite m (a x) (b x)) m) = true := by
  induction l generalizing m with
  | nil => exact h
  | cons x l ih => exact ih (memWf_mwrite (a x) (b x) h)

end Sys2Proof.Machine
end

