-- ==== Sys2Proof/Laws/Frames.lean ====
section
/-!
SUPPORT. What a firing can change by what it sends and reports (02 R33, R52, R53; 03 R75; 08 R167; 20 R393): tokens on their way, the
mailbox of its panel, the block of its scribe, and flags of groups.
-/
namespace Sys2Proof.Machine

/-- Nothing but what the panel `p` sends and reports differs in `t`. -/
structure OnlySends (p : Nat) (s t : State) : Prop where
  rest : t = { s with transit := t.transit, boxes := t.boxes, scribes := t.scribes, groups := t.groups, loose := t.loose }
  tokens : ∃ l, t.transit = s.transit ++ l
  boxes : ∀ q, q ≠ p → boxAt t q = boxAt s q
  scribes : t.scribes = s.scribes ∨ ∃ b, t.scribes = tput s.scribes p { scribeAt s p with cur := some b }

theorem OnlySends.refl (p : Nat) (s : State) : OnlySends p s s := ⟨rfl, ⟨[], by simp⟩, fun _ _ => rfl, .inl rfl⟩

theorem tput_tput {α : Type} (t : Tab α) (k : Nat) (x y : α) : tput (tput t k x) k y = tput t k y := by
  induction t with
  | nil => simp [tput]
  | cons a t ih =>
    obtain ⟨j, v⟩ := a
    by_cases h : k < j
    · simp [tput, h]
    · by_cases h' : k = j
      · simp [tput, h']
      · simp [tput, h, h', ih]

theorem OnlySends.trans {p : Nat} {s t u : State} (h : OnlySends p s t) (k : OnlySends p t u) : OnlySends p s u := by
  obtain ⟨r1, ⟨l1, t1⟩, b1, s1⟩ := h
  obtain ⟨r2, ⟨l2, t2⟩, b2, s2⟩ := k
  refine ⟨?_, ⟨l1 ++ l2, by rw [t2, t1, List.append_assoc]⟩, fun q hq => (b2 q hq).trans (b1 q hq), ?_⟩
  · rw [r2, r1]
  · rcases s2 with e2 | ⟨b, e2⟩
    · rw [e2]; exact s1
    · rcases s1 with e1 | ⟨c, e1⟩
      · refine .inr ⟨b, ?_⟩
        rw [e2, e1]; simp only [scribeAt, e1]
      · refine .inr ⟨b, ?_⟩
        rw [e2, e1, tput_tput]
        simp only [scribeAt, e1, tgetD, tget?_tput, Option.getD_some]

/-- A report. -/
theorem post_onlySends {p : Nat} (s : State) {e : MbEntry} (h : e.panel = p) : OnlySends p s (post s e) :=
  ⟨rfl, ⟨[], by simp [post, postAt]⟩, fun q hq => by
    simp only [post, postAt, boxAt, h]
    exact tgetD_tsetD_ne _ _ _ hq, .inl rfl⟩

/-- A block that changes is listed. -/
theorem setBlock_onlySends (p : Nat) (s : State) (b : Block) :
    OnlySends p s (setScribe s p { scribeAt s p with cur := some b }) :=
  ⟨rfl, ⟨[], by simp [setScribe]⟩, fun _ _ => rfl, .inr ⟨b, by simp only [setScribe, tsetD]; rw [if_neg]; intro h; injection h; contradiction⟩⟩

/-- The exception of a block. -/
theorem blockExc_onlySends (p : Nat) (s : State) (cause info : Nat) : OnlySends p s (blockExc s p cause info) := by
  simp only [blockExc]
  split
  · exact .refl p s
  · split
    · exact .refl p s
    · exact setBlock_onlySends p s _

/-- A fault of a record is reported, or becomes the exception of its block (20 R391). -/
theorem faultCur_onlySends (s : State) (c : Cur) (cause addr : Nat) : OnlySends c.p s (faultCur s c cause addr) := by
  simp only [faultCur]
  split
  · exact blockExc_onlySends _ _ _ _
  · exact post_onlySends _ rfl

/-- One token is queued, discarded or reported. -/
theorem sendTok_onlySends (p : Nat) (s : State) (src : Nat) (t : Token) : OnlySends p s (sendTok s p src t) := by
  simp only [sendTok]
  split
  · exact .refl p s
  · split
    · exact post_onlySends _ rfl
    · exact ⟨rfl, ⟨_, rfl⟩, fun _ _ => rfl, .inl rfl⟩

theorem sendScribe_onlySends (p : Nat) (s : State) (t : Token) : OnlySends p s (sendScribe s p t) := by
  simp only [sendScribe]
  split
  · split
    · exact setBlock_onlySends p s _
    · exact .refl p s
  · exact sendTok_onlySends p s _ t

theorem sendLate_onlySends (p : Nat) (s : State) (t : Token) : OnlySends p s (sendLate s p t) := by
  simp only [sendLate]
  split
  · split
    · exact sendTok_onlySends p s _ _
    · exact post_onlySends _ rfl
  · exact sendTok_onlySends p s _ t

theorem send_onlySends (s : State) (c : Cur) (x : Send) : OnlySends c.p s (send s c x) := by
  simp only [send]
  split
  · split
    · exact sendScribe_onlySends _ _ _
    · exact sendLate_onlySends _ _ _
  · exact sendTok_onlySends _ _ _ _

theorem sends_onlySends (s : State) (c : Cur) (xs : List Send) : OnlySends c.p s (sends s c xs) := by
  induction xs generalizing s with
  | nil => exact .refl _ s
  | cons x xs ih => exact (send_onlySends s c x).trans (ih _)

/-- The flags of a group, or of a colour without one. -/
theorem orFlags_onlySends (p : Nat) (s : State) (part colour : Nat) (f : BitVec 5) : OnlySends p s (orFlags s part colour f) := by
  simp only [orFlags]
  split
  · exact .refl p s
  · split <;> exact ⟨rfl, ⟨[], by simp [setGroup]⟩, fun _ _ => rfl, .inl rfl⟩

/-- A result: it sends, or faults (08 R166, R167; 16 R332). -/
theorem emitRes_onlySends (s : State) (c : Cur) (f : Form) (ty : BitVec 4) (r : Res) : OnlySends c.p s (emitRes s c f ty r) := by
  simp only [emitRes]
  split
  · exact faultCur_onlySends _ _ _ _
  · split
    · exact faultCur_onlySends _ _ _ _
    · refine OnlySends.trans ?_ (sends_onlySends _ _ _)
      simp only [curFlags]
      split
      · exact .refl _ s
      · exact orFlags_onlySends _ _ _ _ _

/-- Tokens that a firing sends, or the fault of one that is too wide (16 R332). -/
theorem sendAll_onlySends (s : State) (c : Cur) (xs : List Send) : OnlySends c.p s (sendAll s c xs) := by
  simp only [sendAll]
  split
  · exact faultCur_onlySends _ _ _ _
  · exact sends_onlySends _ _ _

/-- The nulls of a match that does not run. -/
theorem emitNulls_onlySends (s : State) (c : Cur) (f : Form) (ty : BitVec 4) : OnlySends c.p s (emitNulls s c f ty) :=
  sendAll_onlySends _ _ _

theorem sendNulls_onlySends (s : State) (c : Cur) (f : Form) (v w : Val) : OnlySends c.p s (sendNulls s c f v w) :=
  sendAll_onlySends _ _ _

/-- A record of class 0, 2 or 3 whose operation only computes changes no more than that. -/
theorem fire_onlySends {s t : State} {f : Form} {ty : BitVec 4} {base : List Nat} {bad blk : Bool} {op : Cur → Res}
    (h : fire s f ty base bad blk op = .next t) : OnlySends s.cur.p s t := by
  rcases fireWith_cases h with rfl | rfl | rfl | rfl
  · exact faultCur_onlySends _ _ _ _
  · exact emitNulls_onlySends _ _ _ _
  · exact .refl _ _
  · exact emitRes_onlySends _ _ _ _ _

/-- A move of class 1 does so too. -/
theorem moveFire_onlySends {s t : State} {r : RecN} {base : List Nat} {bad : Bool} {op : Cur → Res}
    (h : moveFire s r base bad op = .next t) : OnlySends s.cur.p s t := by
  rcases moveFire_cases h with rfl | rfl | ⟨v, w, rfl⟩ | ⟨x, rfl⟩
  · exact faultCur_onlySends _ _ _ _
  · exact .refl _ _
  · exact sendNulls_onlySends _ _ _ _ _
  · exact emitRes_onlySends _ _ _ _ _

/-- An access that joins its ordering site changes that buffer alone (11 R107). -/
theorem toSite_frame (s : State) (a : Access) :
    toSite s a = { s with obufs := (toSite s a).obufs } ∧
    ∀ p site, siteKey p site ≠ siteKey a.p (ositeOf a) → obufAt (toSite s a) p site = obufAt s p site :=
  ⟨rfl, fun p site h => by simp only [toSite, obufAt, setObuf]; exact tgetD_tsetD_ne _ _ _ h⟩

/-! ## The byte memories (04 R83, R97) -/

/-- Both byte memories are in the canonical form. -/
abbrev MemoriesOk (s : State) : Prop := memWf s.mem = true ∧ memWf s.wmem = true

/-- What only sends keeps them. -/
theorem OnlySends.memories {p : Nat} {s t : State} (h : OnlySends p s t) (hs : MemoriesOk s) : MemoriesOk t := by
  rw [h.rest]; exact hs

/-- A sector of device memory that is written keeps the form. -/
theorem memWf_sector {m : List Host.Cell} (hf : Nat) (bs : List Byte) (h : memWf m = true) :
    memWf (mwrites m (hf / 32 * 32) bs) = true := memWf_mwrites _ _ h

/-- Cells that are left out leave the canonical form. -/
theorem memWf_filter {m : List Host.Cell} (f : Host.Cell → Bool) (h : memWf m = true) : memWf (m.filter f) = true := by
  simp only [memWf, Bool.and_eq_true] at h ⊢
  refine ⟨?_, ?_⟩
  · have above : ∀ (t : List Host.Cell) (lo : Nat), keysAbove lo t = true → keysAbove lo (t.filter f) = true ∧
        ∀ lo', lo' ≤ lo → keysAbove lo' (t.filter f) = true := by
      intro t
      induction t with
      | nil => intro lo _; exact ⟨rfl, fun _ _ => rfl⟩
      | cons c t ih =>
        obtain ⟨k, v⟩ := c
        intro lo hk
        simp only [keysAbove, Bool.and_eq_true, decide_eq_true_eq] at hk
        have key : ∀ lo', lo' ≤ lo → keysAbove lo' (((k, v) :: t).filter f) = true := by
          intro lo' hl
          by_cases hf : f (k, v) = true
          · simp only [List.filter_cons, hf, if_true, keysAbove, Bool.and_eq_true, decide_eq_true_eq]
            exact ⟨by omega, (ih k hk.2).1⟩
          · simp only [List.filter_cons, hf]
            exact (ih k hk.2).2 lo' (by omega)
        exact ⟨key lo (Nat.le_refl _), key⟩
    obtain ⟨h, -⟩ := h
    cases m with
    | nil => rfl
    | cons c t =>
      obtain ⟨k, v⟩ := c
      simp only [keysRise] at h
      by_cases hf : f (k, v) = true
      · simp only [List.filter_cons, hf, if_true, keysRise]; exact (above t k h).1
      · simp only [List.filter_cons, hf]
        have := (above t k h).1
        cases hc : t.filter f with
        | nil => simp [keysRise]
        | cons c' t' =>
          obtain ⟨k', v'⟩ := c'
          rw [hc] at this
          simp only [keysAbove, Bool.and_eq_true] at this
          simpa [keysRise] using this.2
  · rw [List.all_filter]
    refine List.all_eq_true.2 fun x hx => ?_
    have := List.all_eq_true.1 h.2 x hx
    simp [this]

end Sys2Proof.Machine
end

