-- ==== Sys2Proof/Laws/PerInstr.lean ====
section
/-!
SUPPORT. Per instruction: the word of a well-formed record has the record's opcode, which the map does not reserve (08 R176).
-/
namespace Sys2Proof.Laws
open Sys2Proof.Machine

set_option maxRecDepth 8000

/-- The word of the instruction, if it has one, carries no reserved opcode. -/
def Encodes.Statement (i : Instr) : Prop :=
  ∀ w, i.wf = true → encode i = some w → reservedOp w = false

/-- A choice between words that are not reserved. -/
theorem unreserved_ite {p : Prop} [Decidable p] {a b : Except DecodeError Instr}
    (ha : (match a with | .error (.badSub _) => false | .error _ => true | .ok _ => false) = false)
    (hb : (match b with | .error (.badSub _) => false | .error _ => true | .ok _ => false) = false) :
    (match (if p then a else b) with | .error (.badSub _) => false | .error _ => true | .ok _ => false) = false := by
  by_cases h : p
  · rw [if_pos h]; exact ha
  · rw [if_neg h]; exact hb

theorem Encodes.nop (r : RecN) : Encodes.Statement (.nop r) := by
  intro w h e
  obtain rfl := Option.some.inj e
  unfold reservedOp decode
  rw [RecN.opOf_bits]
  rfl
theorem Encodes.iadd (r : RecN) : Encodes.Statement (.iadd r) := by
  intro w h e
  obtain rfl := Option.some.inj e
  unfold reservedOp decode
  rw [RecN.opOf_bits]
  rfl
theorem Encodes.isub (r : RecN) : Encodes.Statement (.isub r) := by
  intro w h e
  obtain rfl := Option.some.inj e
  unfold reservedOp decode
  rw [RecN.opOf_bits]
  rfl
theorem Encodes.imul (r : RecN) : Encodes.Statement (.imul r) := by
  intro w h e
  obtain rfl := Option.some.inj e
  unfold reservedOp decode
  rw [RecN.opOf_bits]
  rfl
theorem Encodes.imulh (r : RecN) : Encodes.Statement (.imulh r) := by
  intro w h e
  obtain rfl := Option.some.inj e
  unfold reservedOp decode
  rw [RecN.opOf_bits]
  rfl
theorem Encodes.imad (r : RecN) : Encodes.Statement (.imad r) := by
  intro w h e
  obtain rfl := Option.some.inj e
  unfold reservedOp decode
  rw [RecN.opOf_bits]
  rfl
theorem Encodes.idiv (r : RecN) : Encodes.Statement (.idiv r) := by
  intro w h e
  obtain rfl := Option.some.inj e
  unfold reservedOp decode
  rw [RecN.opOf_bits]
  rfl
theorem Encodes.irem (r : RecN) : Encodes.Statement (.irem r) := by
  intro w h e
  obtain rfl := Option.some.inj e
  unfold reservedOp decode
  rw [RecN.opOf_bits]
  rfl
theorem Encodes.imin (r : RecN) : Encodes.Statement (.imin r) := by
  intro w h e
  obtain rfl := Option.some.inj e
  unfold reservedOp decode
  rw [RecN.opOf_bits]
  rfl
theorem Encodes.imax (r : RecN) : Encodes.Statement (.imax r) := by
  intro w h e
  obtain rfl := Option.some.inj e
  unfold reservedOp decode
  rw [RecN.opOf_bits]
  rfl
theorem Encodes.iabs (r : RecN) : Encodes.Statement (.iabs r) := by
  intro w h e
  obtain rfl := Option.some.inj e
  unfold reservedOp decode
  rw [RecN.opOf_bits]
  rfl
theorem Encodes.ineg (r : RecN) : Encodes.Statement (.ineg r) := by
  intro w h e
  obtain rfl := Option.some.inj e
  unfold reservedOp decode
  rw [RecN.opOf_bits]
  rfl
theorem Encodes.and (r : RecN) : Encodes.Statement (.and r) := by
  intro w h e
  obtain rfl := Option.some.inj e
  unfold reservedOp decode
  rw [RecN.opOf_bits]
  rfl
theorem Encodes.or (r : RecN) : Encodes.Statement (.or r) := by
  intro w h e
  obtain rfl := Option.some.inj e
  unfold reservedOp decode
  rw [RecN.opOf_bits]
  rfl
theorem Encodes.xor (r : RecN) : Encodes.Statement (.xor r) := by
  intro w h e
  obtain rfl := Option.some.inj e
  unfold reservedOp decode
  rw [RecN.opOf_bits]
  rfl
theorem Encodes.andn (r : RecN) : Encodes.Statement (.andn r) := by
  intro w h e
  obtain rfl := Option.some.inj e
  unfold reservedOp decode
  rw [RecN.opOf_bits]
  rfl
theorem Encodes.shl (r : RecN) : Encodes.Statement (.shl r) := by
  intro w h e
  obtain rfl := Option.some.inj e
  unfold reservedOp decode
  rw [RecN.opOf_bits]
  rfl
theorem Encodes.shr (r : RecN) : Encodes.Statement (.shr r) := by
  intro w h e
  obtain rfl := Option.some.inj e
  unfold reservedOp decode
  rw [RecN.opOf_bits]
  rfl
theorem Encodes.sra (r : RecN) : Encodes.Statement (.sra r) := by
  intro w h e
  obtain rfl := Option.some.inj e
  unfold reservedOp decode
  rw [RecN.opOf_bits]
  rfl
theorem Encodes.rot (r : RecN) : Encodes.Statement (.rot r) := by
  intro w h e
  obtain rfl := Option.some.inj e
  unfold reservedOp decode
  rw [RecN.opOf_bits]
  rfl
theorem Encodes.clz (r : RecN) : Encodes.Statement (.clz r) := by
  intro w h e
  obtain rfl := Option.some.inj e
  unfold reservedOp decode
  rw [RecN.opOf_bits]
  rfl
theorem Encodes.popc (r : RecN) : Encodes.Statement (.popc r) := by
  intro w h e
  obtain rfl := Option.some.inj e
  unfold reservedOp decode
  rw [RecN.opOf_bits]
  rfl
theorem Encodes.brev (r : RecN) : Encodes.Statement (.brev r) := by
  intro w h e
  obtain rfl := Option.some.inj e
  unfold reservedOp decode
  rw [RecN.opOf_bits]
  rfl
theorem Encodes.bfx (r : RecN) : Encodes.Statement (.bfx r) := by
  intro w h e
  obtain rfl := Option.some.inj e
  unfold reservedOp decode
  rw [RecN.opOf_bits]
  rfl
theorem Encodes.bfi (r : RecN) : Encodes.Statement (.bfi r) := by
  intro w h e
  obtain rfl := Option.some.inj e
  unfold reservedOp decode
  rw [RecN.opOf_bits]
  rfl
theorem Encodes.icmp (r : RecN) : Encodes.Statement (.icmp r) := by
  intro w h e
  obtain rfl := Option.some.inj e
  unfold reservedOp decode
  rw [RecN.opOf_bits]
  rfl
theorem Encodes.sel (r : RecN) : Encodes.Statement (.sel r) := by
  intro w h e
  obtain rfl := Option.some.inj e
  unfold reservedOp decode
  rw [RecN.opOf_bits]
  rfl
theorem Encodes.iclamp (r : RecN) : Encodes.Statement (.iclamp r) := by
  intro w h e
  obtain rfl := Option.some.inj e
  unfold reservedOp decode
  rw [RecN.opOf_bits]
  rfl
theorem Encodes.addr (r : RecN) : Encodes.Statement (.addr r) := by
  intro w h e
  obtain rfl := Option.some.inj e
  unfold reservedOp decode
  rw [RecN.opOf_bits]
  rfl
theorem Encodes.iaddw (r : RecN) : Encodes.Statement (.iaddw r) := by
  intro w h e
  obtain rfl := Option.some.inj e
  unfold reservedOp decode
  rw [RecN.opOf_bits]
  rfl
theorem Encodes.icvt (r : RecN) : Encodes.Statement (.icvt r) := by
  intro w h e
  obtain rfl := Option.some.inj e
  unfold reservedOp decode
  rw [RecN.opOf_bits]
  rfl
theorem Encodes.copy (r : RecN) : Encodes.Statement (.copy r) := by
  intro w h e
  obtain rfl := Option.some.inj e
  unfold reservedOp decode
  rw [RecN.opOf_bits]
  rfl
theorem Encodes.const (r : RecN) : Encodes.Statement (.const r) := by
  intro w h e
  obtain rfl := Option.some.inj e
  unfold reservedOp decode
  rw [RecN.opOf_bits]
  rfl
theorem Encodes.sink (r : RecN) : Encodes.Statement (.sink r) := by
  intro w h e
  obtain rfl := Option.some.inj e
  unfold reservedOp decode
  rw [RecN.opOf_bits]
  rfl
theorem Encodes.gate (r : RecN) : Encodes.Statement (.gate r) := by
  intro w h e
  obtain rfl := Option.some.inj e
  unfold reservedOp decode
  rw [RecN.opOf_bits]
  rfl
theorem Encodes.join (r : RecN) : Encodes.Statement (.join r) := by
  intro w h e
  obtain rfl := Option.some.inj e
  unfold reservedOp decode
  rw [RecN.opOf_bits]
  rfl
theorem Encodes.steer (r : RecN) : Encodes.Statement (.steer r) := by
  intro w h e
  obtain rfl := Option.some.inj e
  unfold reservedOp decode
  rw [RecN.opOf_bits]
  rfl
theorem Encodes.merge (r : RecN) : Encodes.Statement (.merge r) := by
  intro w h e
  obtain rfl := Option.some.inj e
  unfold reservedOp decode
  rw [RecN.opOf_bits]
  rfl
theorem Encodes.enter (r : RecN) : Encodes.Statement (.enter r) := by
  intro w h e
  obtain rfl := Option.some.inj e
  unfold reservedOp decode
  rw [RecN.opOf_bits]
  rfl
theorem Encodes.wave (r : RecN) : Encodes.Statement (.wave r) := by
  intro w h e
  obtain rfl := Option.some.inj e
  unfold reservedOp decode
  rw [RecN.opOf_bits]
  rfl
theorem Encodes.leave (r : RecN) : Encodes.Statement (.leave r) := by
  intro w h e
  obtain rfl := Option.some.inj e
  unfold reservedOp decode
  rw [RecN.opOf_bits]
  rfl
theorem Encodes.throttleAdmit (r : RecN) : Encodes.Statement (.throttleAdmit r) := by
  intro w h e
  obtain rfl := Option.some.inj e
  unfold reservedOp decode
  rw [RecN.opOf_bits]
  rfl
theorem Encodes.repeat (r : RecN) : Encodes.Statement (.repeat r) := by
  intro w h e
  obtain rfl := Option.some.inj e
  unfold reservedOp decode
  rw [RecN.opOf_bits]
  rfl
theorem Encodes.tagget (r : RecN) : Encodes.Statement (.tagget r) := by
  intro w h e
  obtain rfl := Option.some.inj e
  unfold reservedOp decode
  rw [RecN.opOf_bits]
  rfl
theorem Encodes.tagset (r : RecN) : Encodes.Statement (.tagset r) := by
  intro w h e
  obtain rfl := Option.some.inj e
  unfold reservedOp decode
  rw [RecN.opOf_bits]
  rfl
theorem Encodes.void (r : RecN) : Encodes.Statement (.void r) := by
  intro w h e
  obtain rfl := Option.some.inj e
  unfold reservedOp decode
  rw [RecN.opOf_bits]
  rfl
theorem Encodes.range (r : RecN) : Encodes.Statement (.range r) := by
  intro w h e
  obtain rfl := Option.some.inj e
  unfold reservedOp decode
  rw [RecN.opOf_bits]
  rfl
theorem Encodes.runend (r : RecN) : Encodes.Statement (.runend r) := by
  intro w h e
  obtain rfl := Option.some.inj e
  unfold reservedOp decode
  rw [RecN.opOf_bits]
  rfl
theorem Encodes.read (r : RecN) : Encodes.Statement (.read r) := by
  intro w h e
  obtain rfl := Option.some.inj e
  unfold reservedOp decode
  rw [RecN.opOf_bits]
  rfl
theorem Encodes.write (r : RecN) : Encodes.Statement (.write r) := by
  intro w h e
  obtain rfl := Option.some.inj e
  unfold reservedOp decode
  rw [RecN.opOf_bits]
  rfl
theorem Encodes.branch (r : RecN) : Encodes.Statement (.branch r) := by
  intro w h e
  obtain rfl := Option.some.inj e
  unfold reservedOp decode
  rw [RecN.opOf_bits]
  rfl
theorem Encodes.bcall (r : RecN) : Encodes.Statement (.bcall r) := by
  intro w h e
  obtain rfl := Option.some.inj e
  unfold reservedOp decode
  rw [RecN.opOf_bits]
  rfl
theorem Encodes.bret (r : RecN) : Encodes.Statement (.bret r) := by
  intro w h e
  obtain rfl := Option.some.inj e
  unfold reservedOp decode
  rw [RecN.opOf_bits]
  rfl
theorem Encodes.fadd (r : RecN) : Encodes.Statement (.fadd r) := by
  intro w h e
  obtain rfl := Option.some.inj e
  unfold reservedOp decode
  rw [RecN.opOf_bits]
  rfl
theorem Encodes.fsub (r : RecN) : Encodes.Statement (.fsub r) := by
  intro w h e
  obtain rfl := Option.some.inj e
  unfold reservedOp decode
  rw [RecN.opOf_bits]
  rfl
theorem Encodes.fmul (r : RecN) : Encodes.Statement (.fmul r) := by
  intro w h e
  obtain rfl := Option.some.inj e
  unfold reservedOp decode
  rw [RecN.opOf_bits]
  rfl
theorem Encodes.ffma (r : RecN) : Encodes.Statement (.ffma r) := by
  intro w h e
  obtain rfl := Option.some.inj e
  unfold reservedOp decode
  rw [RecN.opOf_bits]
  rfl
theorem Encodes.fmin (r : RecN) : Encodes.Statement (.fmin r) := by
  intro w h e
  obtain rfl := Option.some.inj e
  unfold reservedOp decode
  rw [RecN.opOf_bits]
  rfl
theorem Encodes.fmax (r : RecN) : Encodes.Statement (.fmax r) := by
  intro w h e
  obtain rfl := Option.some.inj e
  unfold reservedOp decode
  rw [RecN.opOf_bits]
  rfl
theorem Encodes.fcmp (r : RecN) : Encodes.Statement (.fcmp r) := by
  intro w h e
  obtain rfl := Option.some.inj e
  unfold reservedOp decode
  rw [RecN.opOf_bits]
  rfl
theorem Encodes.fclass (r : RecN) : Encodes.Statement (.fclass r) := by
  intro w h e
  obtain rfl := Option.some.inj e
  unfold reservedOp decode
  rw [RecN.opOf_bits]
  rfl
theorem Encodes.fdiv (r : RecN) : Encodes.Statement (.fdiv r) := by
  intro w h e
  obtain rfl := Option.some.inj e
  unfold reservedOp decode
  rw [RecN.opOf_bits]
  rfl
theorem Encodes.fsqrt (r : RecN) : Encodes.Statement (.fsqrt r) := by
  intro w h e
  obtain rfl := Option.some.inj e
  unfold reservedOp decode
  rw [RecN.opOf_bits]
  rfl
theorem Encodes.frcp (r : RecN) : Encodes.Statement (.frcp r) := by
  intro w h e
  obtain rfl := Option.some.inj e
  unfold reservedOp decode
  rw [RecN.opOf_bits]
  rfl
theorem Encodes.frsq (r : RecN) : Encodes.Statement (.frsq r) := by
  intro w h e
  obtain rfl := Option.some.inj e
  unfold reservedOp decode
  rw [RecN.opOf_bits]
  rfl
theorem Encodes.frcpa (r : RecN) : Encodes.Statement (.frcpa r) := by
  intro w h e
  obtain rfl := Option.some.inj e
  unfold reservedOp decode
  rw [RecN.opOf_bits]
  rfl
theorem Encodes.frsqa (r : RecN) : Encodes.Statement (.frsqa r) := by
  intro w h e
  obtain rfl := Option.some.inj e
  unfold reservedOp decode
  rw [RecN.opOf_bits]
  rfl
theorem Encodes.fexp2 (r : RecN) : Encodes.Statement (.fexp2 r) := by
  intro w h e
  obtain rfl := Option.some.inj e
  unfold reservedOp decode
  rw [RecN.opOf_bits]
  rfl
theorem Encodes.flog2 (r : RecN) : Encodes.Statement (.flog2 r) := by
  intro w h e
  obtain rfl := Option.some.inj e
  unfold reservedOp decode
  rw [RecN.opOf_bits]
  rfl
theorem Encodes.fsinpi (r : RecN) : Encodes.Statement (.fsinpi r) := by
  intro w h e
  obtain rfl := Option.some.inj e
  unfold reservedOp decode
  rw [RecN.opOf_bits]
  rfl
theorem Encodes.fcospi (r : RecN) : Encodes.Statement (.fcospi r) := by
  intro w h e
  obtain rfl := Option.some.inj e
  unfold reservedOp decode
  rw [RecN.opOf_bits]
  rfl
theorem Encodes.ftanh (r : RecN) : Encodes.Statement (.ftanh r) := by
  intro w h e
  obtain rfl := Option.some.inj e
  unfold reservedOp decode
  rw [RecN.opOf_bits]
  rfl
theorem Encodes.fscale (r : RecN) : Encodes.Statement (.fscale r) := by
  intro w h e
  obtain rfl := Option.some.inj e
  unfold reservedOp decode
  rw [RecN.opOf_bits]
  rfl
theorem Encodes.fround (r : RecN) : Encodes.Statement (.fround r) := by
  intro w h e
  obtain rfl := Option.some.inj e
  unfold reservedOp decode
  rw [RecN.opOf_bits]
  rfl
theorem Encodes.fsgn (r : RecN) : Encodes.Statement (.fsgn r) := by
  intro w h e
  obtain rfl := Option.some.inj e
  unfold reservedOp decode
  rw [RecN.opOf_bits]
  rfl
theorem Encodes.cvt (r : RecN) : Encodes.Statement (.cvt r) := by
  intro w h e
  obtain rfl := Option.some.inj e
  unfold reservedOp decode
  rw [RecN.opOf_bits]
  rfl
theorem Encodes.ftoi (r : RecN) : Encodes.Statement (.ftoi r) := by
  intro w h e
  obtain rfl := Option.some.inj e
  unfold reservedOp decode
  rw [RecN.opOf_bits]
  rfl
theorem Encodes.itof (r : RecN) : Encodes.Statement (.itof r) := by
  intro w h e
  obtain rfl := Option.some.inj e
  unfold reservedOp decode
  rw [RecN.opOf_bits]
  rfl
theorem Encodes.bxpack (r : RecN) : Encodes.Statement (.bxpack r) := by
  intro w h e
  obtain rfl := Option.some.inj e
  unfold reservedOp decode
  rw [RecN.opOf_bits]
  rfl
theorem Encodes.bxunpk (r : RecN) : Encodes.Statement (.bxunpk r) := by
  intro w h e
  obtain rfl := Option.some.inj e
  unfold reservedOp decode
  rw [RecN.opOf_bits]
  rfl
theorem Encodes.dot (r : RecN) : Encodes.Statement (.dot r) := by
  intro w h e
  obtain rfl := Option.some.inj e
  unfold reservedOp decode
  rw [RecN.opOf_bits]
  rfl
theorem Encodes.lsum (r : RecN) : Encodes.Statement (.lsum r) := by
  intro w h e
  obtain rfl := Option.some.inj e
  unfold reservedOp decode
  rw [RecN.opOf_bits]
  rfl
theorem Encodes.lscan (r : RecN) : Encodes.Statement (.lscan r) := by
  intro w h e
  obtain rfl := Option.some.inj e
  unfold reservedOp decode
  rw [RecN.opOf_bits]
  rfl
theorem Encodes.lmax (r : RecN) : Encodes.Statement (.lmax r) := by
  intro w h e
  obtain rfl := Option.some.inj e
  unfold reservedOp decode
  rw [RecN.opOf_bits]
  rfl
theorem Encodes.lmin (r : RecN) : Encodes.Statement (.lmin r) := by
  intro w h e
  obtain rfl := Option.some.inj e
  unfold reservedOp decode
  rw [RecN.opOf_bits]
  rfl
theorem Encodes.shuf (r : RecN) : Encodes.Statement (.shuf r) := by
  intro w h e
  obtain rfl := Option.some.inj e
  unfold reservedOp decode
  rw [RecN.opOf_bits]
  rfl
theorem Encodes.bcast (r : RecN) : Encodes.Statement (.bcast r) := by
  intro w h e
  obtain rfl := Option.some.inj e
  unfold reservedOp decode
  rw [RecN.opOf_bits]
  rfl
theorem Encodes.iota (r : RecN) : Encodes.Statement (.iota r) := by
  intro w h e
  obtain rfl := Option.some.inj e
  unfold reservedOp decode
  rw [RecN.opOf_bits]
  rfl
theorem Encodes.lmask (r : RecN) : Encodes.Statement (.lmask r) := by
  intro w h e
  obtain rfl := Option.some.inj e
  unfold reservedOp decode
  rw [RecN.opOf_bits]
  rfl
theorem Encodes.packc (r : RecN) : Encodes.Statement (.packc r) := by
  intro w h e
  obtain rfl := Option.some.inj e
  unfold reservedOp decode
  rw [RecN.opOf_bits]
  rfl
theorem Encodes.unpackc (r : RecN) : Encodes.Statement (.unpackc r) := by
  intro w h e
  obtain rfl := Option.some.inj e
  unfold reservedOp decode
  rw [RecN.opOf_bits]
  rfl
theorem Encodes.cmpfwd (r : RecN) : Encodes.Statement (.cmpfwd r) := by
  intro w h e
  obtain rfl := Option.some.inj e
  unfold reservedOp decode
  rw [RecN.opOf_bits]
  rfl
theorem Encodes.rankadmCandidate (r : RecN) : Encodes.Statement (.rankadmCandidate r) := by
  intro w h e
  obtain rfl := Option.some.inj e
  unfold reservedOp decode
  rw [RecN.opOf_bits]
  rfl
theorem Encodes.ld (r : RecM) : Encodes.Statement (.ld r) := by
  intro w h e
  obtain rfl := Option.some.inj e
  unfold reservedOp decode
  rw [RecM.opOf_bits]
  rfl
theorem Encodes.st (r : RecM) : Encodes.Statement (.st r) := by
  intro w h e
  obtain rfl := Option.some.inj e
  unfold reservedOp decode
  rw [RecM.opOf_bits]
  rfl
theorem Encodes.ldx (r : RecM) : Encodes.Statement (.ldx r) := by
  intro w h e
  obtain rfl := Option.some.inj e
  unfold reservedOp decode
  rw [RecM.opOf_bits]
  rfl
theorem Encodes.stx (r : RecM) : Encodes.Statement (.stx r) := by
  intro w h e
  obtain rfl := Option.some.inj e
  unfold reservedOp decode
  rw [RecM.opOf_bits]
  rfl
theorem Encodes.mnop (r : RecM) : Encodes.Statement (.mnop r) := by
  intro w h e
  obtain rfl := Option.some.inj e
  unfold reservedOp decode
  rw [RecM.opOf_bits]
  rfl
theorem Encodes.fence (r : RecM) : Encodes.Statement (.fence r) := by
  intro w h e
  obtain rfl := Option.some.inj e
  unfold reservedOp decode
  rw [RecM.opOf_bits]
  rfl
theorem Encodes.order (r : RecM) : Encodes.Statement (.order r) := by
  intro w h e
  obtain rfl := Option.some.inj e
  unfold reservedOp decode
  rw [RecM.opOf_bits]
  rfl
theorem Encodes.aadd (r : RecM) : Encodes.Statement (.aadd r) := by
  intro w h e
  obtain rfl := Option.some.inj e
  unfold reservedOp decode
  rw [RecM.opOf_bits]
  rfl
theorem Encodes.amin (r : RecM) : Encodes.Statement (.amin r) := by
  intro w h e
  obtain rfl := Option.some.inj e
  unfold reservedOp decode
  rw [RecM.opOf_bits]
  rfl
theorem Encodes.amax (r : RecM) : Encodes.Statement (.amax r) := by
  intro w h e
  obtain rfl := Option.some.inj e
  unfold reservedOp decode
  rw [RecM.opOf_bits]
  rfl
theorem Encodes.aand (r : RecM) : Encodes.Statement (.aand r) := by
  intro w h e
  obtain rfl := Option.some.inj e
  unfold reservedOp decode
  rw [RecM.opOf_bits]
  rfl
theorem Encodes.aor (r : RecM) : Encodes.Statement (.aor r) := by
  intro w h e
  obtain rfl := Option.some.inj e
  unfold reservedOp decode
  rw [RecM.opOf_bits]
  rfl
theorem Encodes.axor (r : RecM) : Encodes.Statement (.axor r) := by
  intro w h e
  obtain rfl := Option.some.inj e
  unfold reservedOp decode
  rw [RecM.opOf_bits]
  rfl
theorem Encodes.axchg (r : RecM) : Encodes.Statement (.axchg r) := by
  intro w h e
  obtain rfl := Option.some.inj e
  unfold reservedOp decode
  rw [RecM.opOf_bits]
  rfl
theorem Encodes.acas (r : RecM) : Encodes.Statement (.acas r) := by
  intro w h e
  obtain rfl := Option.some.inj e
  unfold reservedOp decode
  rw [RecM.opOf_bits]
  rfl
theorem Encodes.acc (r : RecM) : Encodes.Statement (.acc r) := by
  intro w h e
  obtain rfl := Option.some.inj e
  unfold reservedOp decode
  rw [RecM.opOf_bits]
  rfl
theorem Encodes.wcfg (r : RecM) : Encodes.Statement (.wcfg r) := by
  intro w h e
  obtain rfl := Option.some.inj e
  unfold reservedOp decode
  rw [RecM.opOf_bits]
  rfl
theorem Encodes.wfull (r : RecM) : Encodes.Statement (.wfull r) := by
  intro w h e
  obtain rfl := Option.some.inj e
  unfold reservedOp decode
  rw [RecM.opOf_bits]
  rfl
theorem Encodes.wempty (r : RecM) : Encodes.Statement (.wempty r) := by
  intro w h e
  obtain rfl := Option.some.inj e
  unfold reservedOp decode
  rw [RecM.opOf_bits]
  rfl
theorem Encodes.ldp (r : RecM) : Encodes.Statement (.ldp r) := by
  intro w h e
  obtain rfl := Option.some.inj e
  unfold reservedOp decode
  rw [RecM.opOf_bits]
  rfl
theorem Encodes.promote (r : RecM) : Encodes.Statement (.promote r) := by
  intro w h e
  obtain rfl := Option.some.inj e
  unfold reservedOp decode
  rw [RecM.opOf_bits]
  rfl
theorem Encodes.xfer (r : RecT) : Encodes.Statement (.xfer r) := by
  intro w h e
  obtain rfl := Option.some.inj e
  unfold reservedOp decode
  rw [RecT.opOf_bits]
  rfl
theorem Encodes.xfers (r : RecT) : Encodes.Statement (.xfers r) := by
  intro w h e
  obtain rfl := Option.some.inj e
  unfold reservedOp decode
  rw [RecT.opOf_bits]
  rfl
theorem Encodes.pref (r : RecT) : Encodes.Statement (.pref r) := by
  intro w h e
  obtain rfl := Option.some.inj e
  unfold reservedOp decode
  rw [RecT.opOf_bits]
  rfl
theorem Encodes.pginit (r : RecS) : Encodes.Statement (.pginit r) := by
  intro w h e
  obtain rfl := Option.some.inj e
  unfold reservedOp decode
  rw [RecS.opOf_bits]
  exact unreserved_ite rfl (unreserved_ite rfl rfl)
theorem Encodes.pginitFree (r : RecS) : Encodes.Statement (.pginitFree r) := by
  intro w h e
  obtain rfl := Option.some.inj e
  unfold reservedOp decode
  rw [RecS.opOf_bits]
  exact unreserved_ite rfl (unreserved_ite rfl rfl)
theorem Encodes.pgadv (r : RecS) : Encodes.Statement (.pgadv r) := by
  intro w h e
  obtain rfl := Option.some.inj e
  unfold reservedOp decode
  rw [RecS.opOf_bits]
  rfl
theorem Encodes.pgread (r : RecS) : Encodes.Statement (.pgread r) := by
  intro w h e
  obtain rfl := Option.some.inj e
  unfold reservedOp decode
  rw [RecS.opOf_bits]
  rfl
theorem Encodes.waitany (r : RecN) : Encodes.Statement (.waitany r) := by
  intro w h e
  obtain rfl := Option.some.inj e
  unfold reservedOp decode
  rw [RecN.opOf_bits]
  rfl
theorem Encodes.waitall (r : RecN) : Encodes.Statement (.waitall r) := by
  intro w h e
  obtain rfl := Option.some.inj e
  unfold reservedOp decode
  rw [RecN.opOf_bits]
  rfl
theorem Encodes.ffready (r : RecN) : Encodes.Statement (.ffready r) := by
  intro w h e
  obtain rfl := Option.some.inj e
  unfold reservedOp decode
  rw [RecN.opOf_bits]
  rfl
theorem Encodes.sclemit (r : RecN) : Encodes.Statement (.sclemit r) := by
  intro w h e
  obtain rfl := Option.some.inj e
  unfold reservedOp decode
  rw [RecN.opOf_bits]
  rfl
theorem Encodes.wload (r : RecN) : Encodes.Statement (.wload r) := by
  intro w h e
  obtain rfl := Option.some.inj e
  unfold reservedOp decode
  rw [RecN.opOf_bits]
  rfl
theorem Encodes.mma (r : RecN) : Encodes.Statement (.mma r) := by
  intro w h e
  obtain rfl := Option.some.inj e
  unfold reservedOp decode
  rw [RecN.opOf_bits]
  rfl
theorem Encodes.accin (r : RecN) : Encodes.Statement (.accin r) := by
  intro w h e
  obtain rfl := Option.some.inj e
  unfold reservedOp decode
  rw [RecN.opOf_bits]
  rfl
theorem Encodes.accout (r : RecN) : Encodes.Statement (.accout r) := by
  intro w h e
  obtain rfl := Option.some.inj e
  unfold reservedOp decode
  rw [RecN.opOf_bits]
  rfl
theorem Encodes.sysmodeEnter (r : RecN) : Encodes.Statement (.sysmodeEnter r) := by
  intro w h e
  obtain rfl := Option.some.inj e
  unfold reservedOp decode
  rw [RecN.opOf_bits]
  exact unreserved_ite rfl (unreserved_ite rfl rfl)
theorem Encodes.sysmodeLeave (r : RecN) : Encodes.Statement (.sysmodeLeave r) := by
  intro w h e
  obtain rfl := Option.some.inj e
  unfold reservedOp decode
  rw [RecN.opOf_bits]
  exact unreserved_ite rfl (unreserved_ite rfl rfl)
theorem Encodes.cavjoinLocal (r : RecS) : Encodes.Statement (.cavjoinLocal r) := by
  intro w h e
  obtain rfl := Option.some.inj e
  unfold reservedOp decode
  rw [RecS.opOf_bits]
  exact unreserved_ite rfl (unreserved_ite rfl (unreserved_ite rfl rfl))
theorem Encodes.cavjoinSegment (r : RecS) : Encodes.Statement (.cavjoinSegment r) := by
  intro w h e
  obtain rfl := Option.some.inj e
  unfold reservedOp decode
  rw [RecS.opOf_bits]
  exact unreserved_ite rfl (unreserved_ite rfl (unreserved_ite rfl rfl))
theorem Encodes.cavjoinLeave (r : RecS) : Encodes.Statement (.cavjoinLeave r) := by
  intro w h e
  obtain rfl := Option.some.inj e
  unfold reservedOp decode
  rw [RecS.opOf_bits]
  exact unreserved_ite rfl (unreserved_ite rfl (unreserved_ite rfl rfl))
theorem Encodes.cav (r : RecS) : Encodes.Statement (.cav r) := by
  intro w h e
  obtain rfl := Option.some.inj e
  unfold reservedOp decode
  rw [RecS.opOf_bits]
  rfl
theorem Encodes.pacesetInit (r : RecS) : Encodes.Statement (.pacesetInit r) := by
  intro w h e
  obtain rfl := Option.some.inj e
  unfold reservedOp decode
  rw [RecS.opOf_bits]
  exact unreserved_ite rfl (unreserved_ite rfl (unreserved_ite rfl rfl))
theorem Encodes.pacesetLoad (r : RecS) : Encodes.Statement (.pacesetLoad r) := by
  intro w h e
  obtain rfl := Option.some.inj e
  unfold reservedOp decode
  rw [RecS.opOf_bits]
  exact unreserved_ite rfl (unreserved_ite rfl (unreserved_ite rfl rfl))
theorem Encodes.pacesetUpdate (r : RecS) : Encodes.Statement (.pacesetUpdate r) := by
  intro w h e
  obtain rfl := Option.some.inj e
  unfold reservedOp decode
  rw [RecS.opOf_bits]
  exact unreserved_ite rfl (unreserved_ite rfl (unreserved_ite rfl rfl))
theorem Encodes.sweep (r : RecS) : Encodes.Statement (.sweep r) := by
  intro w h e
  obtain rfl := Option.some.inj e
  unfold reservedOp decode
  rw [RecS.opOf_bits]
  rfl
theorem Encodes.paceq (r : RecS) : Encodes.Statement (.paceq r) := by
  intro w h e
  obtain rfl := Option.some.inj e
  unfold reservedOp decode
  rw [RecS.opOf_bits]
  rfl
theorem Encodes.rulesetWrite (r : RecS) : Encodes.Statement (.rulesetWrite r) := by
  intro w h e
  obtain rfl := Option.some.inj e
  unfold reservedOp decode
  rw [RecS.opOf_bits]
  exact unreserved_ite rfl (unreserved_ite rfl rfl)
theorem Encodes.rulesetClear (r : RecS) : Encodes.Statement (.rulesetClear r) := by
  intro w h e
  obtain rfl := Option.some.inj e
  unfold reservedOp decode
  rw [RecS.opOf_bits]
  exact unreserved_ite rfl (unreserved_ite rfl rfl)
theorem Encodes.rulearmArm (r : RecS) : Encodes.Statement (.rulearmArm r) := by
  intro w h e
  obtain rfl := Option.some.inj e
  unfold reservedOp decode
  rw [RecS.opOf_bits]
  exact unreserved_ite rfl (unreserved_ite rfl rfl)
theorem Encodes.rulearmDisarm (r : RecS) : Encodes.Statement (.rulearmDisarm r) := by
  intro w h e
  obtain rfl := Option.some.inj e
  unfold reservedOp decode
  rw [RecS.opOf_bits]
  exact unreserved_ite rfl (unreserved_ite rfl rfl)
theorem Encodes.coll (r : RecT) : Encodes.Statement (.coll r) := by
  intro w h e
  obtain rfl := Option.some.inj e
  unfold reservedOp decode
  rw [RecT.opOf_bits]
  rfl
theorem Encodes.spawn (r : RecN) : Encodes.Statement (.spawn r) := by
  intro w h e
  obtain rfl := Option.some.inj e
  unfold reservedOp decode
  rw [RecN.opOf_bits]
  rfl
theorem Encodes.callocGrant (r : RecN) : Encodes.Statement (.callocGrant r) := by
  intro w h e
  obtain rfl := Option.some.inj e
  unfold reservedOp decode
  rw [RecN.opOf_bits]
  exact unreserved_ite rfl (unreserved_ite rfl rfl)
theorem Encodes.callocEntry (r : RecN) : Encodes.Statement (.callocEntry r) := by
  intro w h e
  obtain rfl := Option.some.inj e
  unfold reservedOp decode
  rw [RecN.opOf_bits]
  exact unreserved_ite rfl (unreserved_ite rfl rfl)
theorem Encodes.ret (r : RecN) : Encodes.Statement (.ret r) := by
  intro w h e
  obtain rfl := Option.some.inj e
  unfold reservedOp decode
  rw [RecN.opOf_bits]
  rfl
theorem Encodes.binit (r : RecS) : Encodes.Statement (.binit r) := by
  intro w h e
  obtain rfl := Option.some.inj e
  unfold reservedOp decode
  rw [RecS.opOf_bits]
  exact unreserved_ite rfl (unreserved_ite rfl rfl)
theorem Encodes.binitFree (r : RecS) : Encodes.Statement (.binitFree r) := by
  intro w h e
  obtain rfl := Option.some.inj e
  unfold reservedOp decode
  rw [RecS.opOf_bits]
  exact unreserved_ite rfl (unreserved_ite rfl rfl)
theorem Encodes.barrive (r : RecS) : Encodes.Statement (.barrive r) := by
  intro w h e
  obtain rfl := Option.some.inj e
  unfold reservedOp decode
  rw [RecS.opOf_bits]
  exact unreserved_ite rfl (unreserved_ite rfl rfl)
theorem Encodes.barriveTag (r : RecS) : Encodes.Statement (.barriveTag r) := by
  intro w h e
  obtain rfl := Option.some.inj e
  unfold reservedOp decode
  rw [RecS.opOf_bits]
  exact unreserved_ite rfl (unreserved_ite rfl rfl)
theorem Encodes.bwait (r : RecS) : Encodes.Statement (.bwait r) := by
  intro w h e
  obtain rfl := Option.some.inj e
  unfold reservedOp decode
  rw [RecS.opOf_bits]
  rfl
theorem Encodes.bdrop (r : RecS) : Encodes.Statement (.bdrop r) := by
  intro w h e
  obtain rfl := Option.some.inj e
  unfold reservedOp decode
  rw [RecS.opOf_bits]
  rfl
theorem Encodes.btest (r : RecS) : Encodes.Statement (.btest r) := by
  intro w h e
  obtain rfl := Option.some.inj e
  unfold reservedOp decode
  rw [RecS.opOf_bits]
  exact unreserved_ite rfl (unreserved_ite rfl rfl)
theorem Encodes.btestTicket (r : RecS) : Encodes.Statement (.btestTicket r) := by
  intro w h e
  obtain rfl := Option.some.inj e
  unfold reservedOp decode
  rw [RecS.opOf_bits]
  exact unreserved_ite rfl (unreserved_ite rfl rfl)
theorem Encodes.qput (r : RecS) : Encodes.Statement (.qput r) := by
  intro w h e
  obtain rfl := Option.some.inj e
  unfold reservedOp decode
  rw [RecS.opOf_bits]
  rfl
theorem Encodes.qtake (r : RecS) : Encodes.Statement (.qtake r) := by
  intro w h e
  obtain rfl := Option.some.inj e
  unfold reservedOp decode
  rw [RecS.opOf_bits]
  exact unreserved_ite rfl (unreserved_ite rfl rfl)
theorem Encodes.qtakePoll (r : RecS) : Encodes.Statement (.qtakePoll r) := by
  intro w h e
  obtain rfl := Option.some.inj e
  unfold reservedOp decode
  rw [RecS.opOf_bits]
  exact unreserved_ite rfl (unreserved_ite rfl rfl)
theorem Encodes.qstat (r : RecS) : Encodes.Statement (.qstat r) := by
  intro w h e
  obtain rfl := Option.some.inj e
  unfold reservedOp decode
  rw [RecS.opOf_bits]
  rfl
theorem Encodes.qmark (r : RecS) : Encodes.Statement (.qmark r) := by
  intro w h e
  obtain rfl := Option.some.inj e
  unfold reservedOp decode
  rw [RecS.opOf_bits]
  rfl
theorem Encodes.kstage (r : RecS) : Encodes.Statement (.kstage r) := by
  intro w h e
  obtain rfl := Option.some.inj e
  unfold reservedOp decode
  rw [RecS.opOf_bits]
  rfl
theorem Encodes.kflip (r : RecS) : Encodes.Statement (.kflip r) := by
  intro w h e
  obtain rfl := Option.some.inj e
  unfold reservedOp decode
  rw [RecS.opOf_bits]
  rfl
theorem Encodes.kdrain (r : RecS) : Encodes.Statement (.kdrain r) := by
  intro w h e
  obtain rfl := Option.some.inj e
  unfold reservedOp decode
  rw [RecS.opOf_bits]
  exact unreserved_ite rfl (unreserved_ite rfl (unreserved_ite rfl rfl))
theorem Encodes.kdrainPurge (r : RecS) : Encodes.Statement (.kdrainPurge r) := by
  intro w h e
  obtain rfl := Option.some.inj e
  unfold reservedOp decode
  rw [RecS.opOf_bits]
  exact unreserved_ite rfl (unreserved_ite rfl (unreserved_ite rfl rfl))
theorem Encodes.kdrainPoll (r : RecS) : Encodes.Statement (.kdrainPoll r) := by
  intro w h e
  obtain rfl := Option.some.inj e
  unfold reservedOp decode
  rw [RecS.opOf_bits]
  exact unreserved_ite rfl (unreserved_ite rfl (unreserved_ite rfl rfl))
theorem Encodes.snap (r : RecS) : Encodes.Statement (.snap r) := by
  intro w h e
  obtain rfl := Option.some.inj e
  unfold reservedOp decode
  rw [RecS.opOf_bits]
  rfl
theorem Encodes.ctxpri (r : RecS) : Encodes.Statement (.ctxpri r) := by
  intro w h e
  obtain rfl := Option.some.inj e
  unfold reservedOp decode
  rw [RecS.opOf_bits]
  rfl
theorem Encodes.park (r : RecS) : Encodes.Statement (.park r) := by
  intro w h e
  obtain rfl := Option.some.inj e
  unfold reservedOp decode
  rw [RecS.opOf_bits]
  rfl
theorem Encodes.resume (r : RecS) : Encodes.Statement (.resume r) := by
  intro w h e
  obtain rfl := Option.some.inj e
  unfold reservedOp decode
  rw [RecS.opOf_bits]
  rfl
theorem Encodes.yield (r : RecS) : Encodes.Statement (.yield r) := by
  intro w h e
  obtain rfl := Option.some.inj e
  unfold reservedOp decode
  rw [RecS.opOf_bits]
  rfl
theorem Encodes.sread (r : RecS) : Encodes.Statement (.sread r) := by
  intro w h e
  obtain rfl := Option.some.inj e
  unfold reservedOp decode
  rw [RecS.opOf_bits]
  rfl
theorem Encodes.swrite (r : RecS) : Encodes.Statement (.swrite r) := by
  intro w h e
  obtain rfl := Option.some.inj e
  unfold reservedOp decode
  rw [RecS.opOf_bits]
  rfl
theorem Encodes.mpin (r : RecS) : Encodes.Statement (.mpin r) := by
  intro w h e
  obtain rfl := Option.some.inj e
  unfold reservedOp decode
  rw [RecS.opOf_bits]
  rfl
theorem Encodes.munpin (r : RecS) : Encodes.Statement (.munpin r) := by
  intro w h e
  obtain rfl := Option.some.inj e
  unfold reservedOp decode
  rw [RecS.opOf_bits]
  rfl
theorem Encodes.minv (r : RecS) : Encodes.Statement (.minv r) := by
  intro w h e
  obtain rfl := Option.some.inj e
  unfold reservedOp decode
  rw [RecS.opOf_bits]
  exact unreserved_ite rfl (unreserved_ite rfl rfl)
theorem Encodes.minvContext (r : RecS) : Encodes.Statement (.minvContext r) := by
  intro w h e
  obtain rfl := Option.some.inj e
  unfold reservedOp decode
  rw [RecS.opOf_bits]
  exact unreserved_ite rfl (unreserved_ite rfl rfl)
theorem Encodes.mprobe (r : RecS) : Encodes.Statement (.mprobe r) := by
  intro w h e
  obtain rfl := Option.some.inj e
  unfold reservedOp decode
  rw [RecS.opOf_bits]
  exact unreserved_ite rfl (unreserved_ite rfl (unreserved_ite rfl rfl))
theorem Encodes.mprobeRead (r : RecS) : Encodes.Statement (.mprobeRead r) := by
  intro w h e
  obtain rfl := Option.some.inj e
  unfold reservedOp decode
  rw [RecS.opOf_bits]
  exact unreserved_ite rfl (unreserved_ite rfl (unreserved_ite rfl rfl))
theorem Encodes.mprobeReadClear (r : RecS) : Encodes.Statement (.mprobeReadClear r) := by
  intro w h e
  obtain rfl := Option.some.inj e
  unfold reservedOp decode
  rw [RecS.opOf_bits]
  exact unreserved_ite rfl (unreserved_ite rfl (unreserved_ite rfl rfl))
theorem Encodes.trap (r : RecS) : Encodes.Statement (.trap r) := by
  intro w h e
  obtain rfl := Option.some.inj e
  unfold reservedOp decode
  rw [RecS.opOf_bits]
  rfl
theorem Encodes.tret (r : RecS) : Encodes.Statement (.tret r) := by
  intro w h e
  obtain rfl := Option.some.inj e
  unfold reservedOp decode
  rw [RecS.opOf_bits]
  rfl
theorem Encodes.ftake (r : RecS) : Encodes.Statement (.ftake r) := by
  intro w h e
  obtain rfl := Option.some.inj e
  unfold reservedOp decode
  rw [RecS.opOf_bits]
  exact unreserved_ite rfl (unreserved_ite rfl (unreserved_ite rfl (unreserved_ite rfl rfl)))
theorem Encodes.ftakeRetry (r : RecS) : Encodes.Statement (.ftakeRetry r) := by
  intro w h e
  obtain rfl := Option.some.inj e
  unfold reservedOp decode
  rw [RecS.opOf_bits]
  exact unreserved_ite rfl (unreserved_ite rfl (unreserved_ite rfl (unreserved_ite rfl rfl)))
theorem Encodes.ftakeDiscard (r : RecS) : Encodes.Statement (.ftakeDiscard r) := by
  intro w h e
  obtain rfl := Option.some.inj e
  unfold reservedOp decode
  rw [RecS.opOf_bits]
  exact unreserved_ite rfl (unreserved_ite rfl (unreserved_ite rfl (unreserved_ite rfl rfl)))
theorem Encodes.ftakePeek (r : RecS) : Encodes.Statement (.ftakePeek r) := by
  intro w h e
  obtain rfl := Option.some.inj e
  unfold reservedOp decode
  rw [RecS.opOf_bits]
  exact unreserved_ite rfl (unreserved_ite rfl (unreserved_ite rfl (unreserved_ite rfl rfl)))
theorem Encodes.ptest (r : RecN) : Encodes.Statement (.ptest r) := by
  intro w h e
  obtain rfl := Option.some.inj e
  unfold reservedOp decode
  rw [RecN.opOf_bits]
  rfl
theorem Encodes.lstat (r : RecS) : Encodes.Statement (.lstat r) := by
  intro w h e
  obtain rfl := Option.some.inj e
  unfold reservedOp decode
  rw [RecS.opOf_bits]
  rfl
theorem Encodes.lctlTrain (r : RecS) : Encodes.Statement (.lctlTrain r) := by
  intro w h e
  obtain rfl := Option.some.inj e
  unfold reservedOp decode
  rw [RecS.opOf_bits]
  exact unreserved_ite rfl (unreserved_ite rfl (unreserved_ite rfl (unreserved_ite rfl (unreserved_ite rfl (unreserved_ite rfl rfl)))))
theorem Encodes.lctlDown (r : RecS) : Encodes.Statement (.lctlDown r) := by
  intro w h e
  obtain rfl := Option.some.inj e
  unfold reservedOp decode
  rw [RecS.opOf_bits]
  exact unreserved_ite rfl (unreserved_ite rfl (unreserved_ite rfl (unreserved_ite rfl (unreserved_ite rfl (unreserved_ite rfl rfl)))))
theorem Encodes.lctlReset (r : RecS) : Encodes.Statement (.lctlReset r) := by
  intro w h e
  obtain rfl := Option.some.inj e
  unfold reservedOp decode
  rw [RecS.opOf_bits]
  exact unreserved_ite rfl (unreserved_ite rfl (unreserved_ite rfl (unreserved_ite rfl (unreserved_ite rfl (unreserved_ite rfl rfl)))))
theorem Encodes.lctlRoute (r : RecS) : Encodes.Statement (.lctlRoute r) := by
  intro w h e
  obtain rfl := Option.some.inj e
  unfold reservedOp decode
  rw [RecS.opOf_bits]
  exact unreserved_ite rfl (unreserved_ite rfl (unreserved_ite rfl (unreserved_ite rfl (unreserved_ite rfl (unreserved_ite rfl rfl)))))
theorem Encodes.lctlClearCounters (r : RecS) : Encodes.Statement (.lctlClearCounters r) := by
  intro w h e
  obtain rfl := Option.some.inj e
  unfold reservedOp decode
  rw [RecS.opOf_bits]
  exact unreserved_ite rfl (unreserved_ite rfl (unreserved_ite rfl (unreserved_ite rfl (unreserved_ite rfl (unreserved_ite rfl rfl)))))
theorem Encodes.lctlOwnNumber (r : RecS) : Encodes.Statement (.lctlOwnNumber r) := by
  intro w h e
  obtain rfl := Option.some.inj e
  unfold reservedOp decode
  rw [RecS.opOf_bits]
  exact unreserved_ite rfl (unreserved_ite rfl (unreserved_ite rfl (unreserved_ite rfl (unreserved_ite rfl (unreserved_ite rfl rfl)))))
theorem Encodes.tokenArrival : Encodes.Statement (.tokenArrival) := fun _ _ h => nomatch h
theorem Encodes.frameMatchReturn : Encodes.Statement (.frameMatchReturn) := fun _ _ h => nomatch h
theorem Encodes.scaleTokenArrival : Encodes.Statement (.scaleTokenArrival) := fun _ _ h => nomatch h
theorem Encodes.shareWindowStart : Encodes.Statement (.shareWindowStart) := fun _ _ h => nomatch h
theorem Encodes.delayedResultDelivery : Encodes.Statement (.delayedResultDelivery) := fun _ _ h => nomatch h
theorem Encodes.throttleCredit : Encodes.Statement (.throttleCredit) := fun _ _ h => nomatch h
theorem Encodes.generatorEmit : Encodes.Statement (.generatorEmit) := fun _ _ h => nomatch h
theorem Encodes.rankadmBatchComplete : Encodes.Statement (.rankadmBatchComplete) := fun _ _ h => nomatch h
theorem Encodes.accAddend : Encodes.Statement (.accAddend) := fun _ _ h => nomatch h
theorem Encodes.wcfgTakeEffect : Encodes.Statement (.wcfgTakeEffect) := fun _ _ h => nomatch h
theorem Encodes.orderBufferRelease : Encodes.Statement (.orderBufferRelease) := fun _ _ h => nomatch h
theorem Encodes.wellAccess : Encodes.Statement (.wellAccess) := fun _ _ h => nomatch h
theorem Encodes.pageWindowFill : Encodes.Statement (.pageWindowFill) := fun _ _ h => nomatch h
theorem Encodes.l2Fill : Encodes.Statement (.l2Fill) := fun _ _ h => nomatch h
theorem Encodes.arbiterService : Encodes.Statement (.arbiterService) := fun _ _ h => nomatch h
theorem Encodes.transferSectorDone : Encodes.Statement (.transferSectorDone) := fun _ _ h => nomatch h
theorem Encodes.pulse : Encodes.Statement (.pulse) := fun _ _ h => nomatch h
theorem Encodes.scalePortConvert : Encodes.Statement (.scalePortConvert) := fun _ _ h => nomatch h
theorem Encodes.arrayPassUpdate : Encodes.Statement (.arrayPassUpdate) := fun _ _ h => nomatch h
theorem Encodes.cavityRound : Encodes.Statement (.cavityRound) := fun _ _ h => nomatch h
theorem Encodes.cavityCarryPoll : Encodes.Statement (.cavityCarryPoll) := fun _ _ h => nomatch h
theorem Encodes.ruleArrival : Encodes.Statement (.ruleArrival) := fun _ _ h => nomatch h
theorem Encodes.ruleEmit : Encodes.Statement (.ruleEmit) := fun _ _ h => nomatch h
theorem Encodes.drainFenceComplete : Encodes.Statement (.drainFenceComplete) := fun _ _ h => nomatch h
theorem Encodes.eauCredit : Encodes.Statement (.eauCredit) := fun _ _ h => nomatch h
theorem Encodes.colourDraw : Encodes.Statement (.colourDraw) := fun _ _ h => nomatch h
theorem Encodes.returnTokenDelivery : Encodes.Statement (.returnTokenDelivery) := fun _ _ h => nomatch h
theorem Encodes.colourDrain : Encodes.Statement (.colourDrain) := fun _ _ h => nomatch h
theorem Encodes.groupIdle : Encodes.Statement (.groupIdle) := fun _ _ h => nomatch h
theorem Encodes.parkwaitExpiry : Encodes.Statement (.parkwaitExpiry) := fun _ _ h => nomatch h
theorem Encodes.sliceExpiry : Encodes.Statement (.sliceExpiry) := fun _ _ h => nomatch h
theorem Encodes.barrierWatchExpiry : Encodes.Statement (.barrierWatchExpiry) := fun _ _ h => nomatch h
theorem Encodes.barrierNotice : Encodes.Statement (.barrierNotice) := fun _ _ h => nomatch h
theorem Encodes.hostAppend : Encodes.Statement (.hostAppend) := fun _ _ h => nomatch h
theorem Encodes.queueConfig : Encodes.Statement (.queueConfig) := fun _ _ h => nomatch h
theorem Encodes.queueStart : Encodes.Statement (.queueStart) := fun _ _ h => nomatch h
theorem Encodes.queueStop : Encodes.Statement (.queueStop) := fun _ _ h => nomatch h
theorem Encodes.queueReset : Encodes.Statement (.queueReset) := fun _ _ h => nomatch h
theorem Encodes.queueClro : Encodes.Statement (.queueClro) := fun _ _ h => nomatch h
theorem Encodes.launchPlacement : Encodes.Statement (.launchPlacement) := fun _ _ h => nomatch h
theorem Encodes.launchCompletion : Encodes.Statement (.launchCompletion) := fun _ _ h => nomatch h
theorem Encodes.stageComplete : Encodes.Statement (.stageComplete) := fun _ _ h => nomatch h
theorem Encodes.planeEmpty : Encodes.Statement (.planeEmpty) := fun _ _ h => nomatch h
theorem Encodes.markerArrival : Encodes.Statement (.markerArrival) := fun _ _ h => nomatch h
theorem Encodes.snapTimeout : Encodes.Statement (.snapTimeout) := fun _ _ h => nomatch h
theorem Encodes.parkGate : Encodes.Statement (.parkGate) := fun _ _ h => nomatch h
theorem Encodes.parkSettle : Encodes.Statement (.parkSettle) := fun _ _ h => nomatch h
theorem Encodes.parkQuiesce : Encodes.Statement (.parkQuiesce) := fun _ _ h => nomatch h
theorem Encodes.parkStream : Encodes.Statement (.parkStream) := fun _ _ h => nomatch h
theorem Encodes.parkCommit : Encodes.Statement (.parkCommit) := fun _ _ h => nomatch h
theorem Encodes.parkFaultAbandon : Encodes.Statement (.parkFaultAbandon) := fun _ _ h => nomatch h
theorem Encodes.parkAbandonTimeout : Encodes.Statement (.parkAbandonTimeout) := fun _ _ h => nomatch h
theorem Encodes.crecWrite : Encodes.Statement (.crecWrite) := fun _ _ h => nomatch h
theorem Encodes.validate : Encodes.Statement (.validate) := fun _ _ h => nomatch h
theorem Encodes.release : Encodes.Statement (.release) := fun _ _ h => nomatch h
theorem Encodes.prangeWrite : Encodes.Statement (.prangeWrite) := fun _ _ h => nomatch h
theorem Encodes.plpriWrite : Encodes.Statement (.plpriWrite) := fun _ _ h => nomatch h
theorem Encodes.pulseWrite : Encodes.Statement (.pulseWrite) := fun _ _ h => nomatch h
theorem Encodes.svcmodeWrite : Encodes.Statement (.svcmodeWrite) := fun _ _ h => nomatch h
theorem Encodes.serviceModeChange : Encodes.Statement (.serviceModeChange) := fun _ _ h => nomatch h
theorem Encodes.preempt : Encodes.Statement (.preempt) := fun _ _ h => nomatch h
theorem Encodes.pctlFreeze : Encodes.Statement (.pctlFreeze) := fun _ _ h => nomatch h
theorem Encodes.pctlReset : Encodes.Statement (.pctlReset) := fun _ _ h => nomatch h
theorem Encodes.resumep : Encodes.Statement (.resumep) := fun _ _ h => nomatch h
theorem Encodes.registerWrite : Encodes.Statement (.registerWrite) := fun _ _ h => nomatch h
theorem Encodes.pageWalk : Encodes.Statement (.pageWalk) := fun _ _ h => nomatch h
theorem Encodes.blockEntry : Encodes.Statement (.blockEntry) := fun _ _ h => nomatch h
theorem Encodes.blockCommit : Encodes.Statement (.blockCommit) := fun _ _ h => nomatch h
theorem Encodes.trapTaken : Encodes.Statement (.trapTaken) := fun _ _ h => nomatch h
theorem Encodes.uncorrectableError : Encodes.Statement (.uncorrectableError) := fun _ _ h => nomatch h
theorem Encodes.flitReceive : Encodes.Statement (.flitReceive) := fun _ _ h => nomatch h
theorem Encodes.trainingComplete : Encodes.Statement (.trainingComplete) := fun _ _ h => nomatch h
theorem Encodes.trainingFail : Encodes.Statement (.trainingFail) := fun _ _ h => nomatch h
theorem Encodes.resettingDrained : Encodes.Statement (.resettingDrained) := fun _ _ h => nomatch h
theorem Encodes.peerResetSeen : Encodes.Statement (.peerResetSeen) := fun _ _ h => nomatch h
theorem Encodes.linkLeavesUp : Encodes.Statement (.linkLeavesUp) := fun _ _ h => nomatch h
theorem Encodes.responseTimeout : Encodes.Statement (.responseTimeout) := fun _ _ h => nomatch h
theorem Encodes.dieLinkFailure : Encodes.Statement (.dieLinkFailure) := fun _ _ h => nomatch h
theorem Encodes.hostMemRequest : Encodes.Statement (.hostMemRequest) := fun _ _ h => nomatch h
theorem Encodes.hostPortDown : Encodes.Statement (.hostPortDown) := fun _ _ h => nomatch h
theorem Encodes.standbyPowerOn : Encodes.Statement (.standbyPowerOn) := fun _ _ h => nomatch h
theorem Encodes.dieResetRelease : Encodes.Statement (.dieResetRelease) := fun _ _ h => nomatch h
theorem Encodes.panelStart : Encodes.Statement (.panelStart) := fun _ _ h => nomatch h
theorem Encodes.selfTestComplete : Encodes.Statement (.selfTestComplete) := fun _ _ h => nomatch h
theorem Encodes.limiterStep : Encodes.Statement (.limiterStep) := fun _ _ h => nomatch h
theorem Encodes.powerCeilingStep : Encodes.Statement (.powerCeilingStep) := fun _ _ h => nomatch h
theorem Encodes.getIdentity : Encodes.Statement (.getIdentity) := fun _ _ h => nomatch h
theorem Encodes.getStatus : Encodes.Statement (.getStatus) := fun _ _ h => nomatch h
theorem Encodes.readCounters : Encodes.Statement (.readCounters) := fun _ _ h => nomatch h
theorem Encodes.readHistogram : Encodes.Statement (.readHistogram) := fun _ _ h => nomatch h
theorem Encodes.setPolicy : Encodes.Statement (.setPolicy) := fun _ _ h => nomatch h
theorem Encodes.keyAdd : Encodes.Statement (.keyAdd) := fun _ _ h => nomatch h
theorem Encodes.attest : Encodes.Statement (.attest) := fun _ _ h => nomatch h
theorem Encodes.resetMain : Encodes.Statement (.resetMain) := fun _ _ h => nomatch h
theorem Encodes.mgmtBusy : Encodes.Statement (.mgmtBusy) := fun _ _ h => nomatch h
theorem Encodes.counterCommit : Encodes.Statement (.counterCommit) := fun _ _ h => nomatch h
theorem Encodes.histogramSample : Encodes.Statement (.histogramSample) := fun _ _ h => nomatch h
theorem Encodes.flipTakesEffect : Encodes.Statement (.flipTakesEffect) := fun _ _ h => nomatch h
theorem Encodes.resumeComplete : Encodes.Statement (.resumeComplete) := fun _ _ h => nomatch h
theorem Encodes.partitionFrozen : Encodes.Statement (.partitionFrozen) := fun _ _ h => nomatch h
theorem Encodes.partitionCleared : Encodes.Statement (.partitionCleared) := fun _ _ h => nomatch h
theorem Encodes.rcRegisterRead : Encodes.Statement (.rcRegisterRead) := fun _ _ h => nomatch h
theorem Encodes.controlLineRejected : Encodes.Statement (.controlLineRejected) := fun _ _ h => nomatch h
theorem Encodes.hdmDecoderWrite : Encodes.Statement (.hdmDecoderWrite) := fun _ _ h => nomatch h
theorem Encodes.mainPowerOn : Encodes.Statement (.mainPowerOn) := fun _ _ h => nomatch h
theorem Encodes.mainPowerOff : Encodes.Statement (.mainPowerOff) := fun _ _ h => nomatch h
theorem Encodes.orderlyPowerDown : Encodes.Statement (.orderlyPowerDown) := fun _ _ h => nomatch h
theorem Encodes.standbyPowerLoss : Encodes.Statement (.standbyPowerLoss) := fun _ _ h => nomatch h

end Sys2Proof.Laws
end

