-- ==== Sys2Proof/Laws/State.lean ====
section
/-!
SUPPORT. What each update of the state leaves as it is: one fact for each field, and what a read of the written part gives.
-/
namespace Sys2Proof.Machine

/-- `setNib` changes `nibs` alone. -/
@[simp] theorem setNib_keeps (s : State) (p site : Nat) (n : Nib) :
    (setNib s p site n).cycle = s.cycle ∧ (setNib s p site n).sched = s.sched ∧ (setNib s p site n).cur = s.cur ∧
    (setNib s p site n).sel = s.sel ∧ (setNib s p site n).fresh = s.fresh ∧ (setNib s p site n).wells = s.wells ∧
    (setNib s p site n).wmem = s.wmem ∧ (setNib s p site n).wbad = s.wbad ∧ (setNib s p site n).obufs = s.obufs ∧
    (setNib s p site n).scribes = s.scribes ∧ (setNib s p site n).panels = s.panels ∧ (setNib s p site n).boxes = s.boxes ∧
    (setNib s p site n).transit = s.transit ∧ (setNib s p site n).scaleNet = s.scaleNet ∧ (setNib s p site n).pgs = s.pgs ∧
    (setNib s p site n).arrays = s.arrays ∧ (setNib s p site n).rules = s.rules ∧ (setNib s p site n).arrivals = s.arrivals ∧
    (setNib s p site n).accSlots = s.accSlots ∧ (setNib s p site n).addends = s.addends ∧ (setNib s p site n).mem = s.mem ∧
    (setNib s p site n).memBad = s.memBad ∧ (setNib s p site n).l2 = s.l2 ∧ (setNib s p site n).l2lines = s.l2lines ∧
    (setNib s p site n).tlb = s.tlb ∧ (setNib s p site n).walks = s.walks ∧ (setNib s p site n).filters = s.filters ∧
    (setNib s p site n).traffic = s.traffic ∧ (setNib s p site n).reqs = s.reqs ∧ (setNib s p site n).served = s.served ∧
    (setNib s p site n).xfers = s.xfers ∧ (setNib s p site n).remotes = s.remotes ∧ (setNib s p site n).ctxs = s.ctxs ∧
    (setNib s p site n).parks = s.parks ∧ (setNib s p site n).resumes = s.resumes ∧ (setNib s p site n).images = s.images ∧
    (setNib s p site n).parts = s.parts ∧ (setNib s p site n).colours = s.colours ∧ (setNib s p site n).groups = s.groups ∧
    (setNib s p site n).loose = s.loose ∧ (setNib s p site n).draws = s.draws ∧ (setNib s p site n).points = s.points ∧
    (setNib s p site n).pointUsed = s.pointUsed ∧ (setNib s p site n).returns = s.returns ∧ (setNib s p site n).barriers = s.barriers ∧
    (setNib s p site n).notices = s.notices ∧ (setNib s p site n).queues = s.queues ∧ (setNib s p site n).qreqs = s.qreqs ∧
    (setNib s p site n).hostOps = s.hostOps ∧ (setNib s p site n).launches = s.launches ∧ (setNib s p site n).turns = s.turns ∧
    (setNib s p site n).lastPlace = s.lastPlace ∧ (setNib s p site n).hdm = s.hdm ∧ (setNib s p site n).links = s.links ∧
    (setNib s p site n).routes = s.routes ∧ (setNib s p site n).owndev = s.owndev ∧ (setNib s p site n).routeAsks = s.routeAsks ∧
    (setNib s p site n).mgmt = s.mgmt ∧ (setNib s p site n).limiters = s.limiters ∧ (setNib s p site n).pins = s.pins ∧
    (setNib s p site n).minvs = s.minvs ∧ (setNib s p site n).out = s.out := by
  and_intros <;> rfl

/-- `setWell` changes `wells` alone. -/
@[simp] theorem setWell_keeps (s : State) (p w : Nat) (x : Well) :
    (setWell s p w x).cycle = s.cycle ∧ (setWell s p w x).sched = s.sched ∧ (setWell s p w x).cur = s.cur ∧
    (setWell s p w x).sel = s.sel ∧ (setWell s p w x).fresh = s.fresh ∧ (setWell s p w x).nibs = s.nibs ∧
    (setWell s p w x).wmem = s.wmem ∧ (setWell s p w x).wbad = s.wbad ∧ (setWell s p w x).obufs = s.obufs ∧
    (setWell s p w x).scribes = s.scribes ∧ (setWell s p w x).panels = s.panels ∧ (setWell s p w x).boxes = s.boxes ∧
    (setWell s p w x).transit = s.transit ∧ (setWell s p w x).scaleNet = s.scaleNet ∧ (setWell s p w x).pgs = s.pgs ∧
    (setWell s p w x).arrays = s.arrays ∧ (setWell s p w x).rules = s.rules ∧ (setWell s p w x).arrivals = s.arrivals ∧
    (setWell s p w x).accSlots = s.accSlots ∧ (setWell s p w x).addends = s.addends ∧ (setWell s p w x).mem = s.mem ∧
    (setWell s p w x).memBad = s.memBad ∧ (setWell s p w x).l2 = s.l2 ∧ (setWell s p w x).l2lines = s.l2lines ∧
    (setWell s p w x).tlb = s.tlb ∧ (setWell s p w x).walks = s.walks ∧ (setWell s p w x).filters = s.filters ∧
    (setWell s p w x).traffic = s.traffic ∧ (setWell s p w x).reqs = s.reqs ∧ (setWell s p w x).served = s.served ∧
    (setWell s p w x).xfers = s.xfers ∧ (setWell s p w x).remotes = s.remotes ∧ (setWell s p w x).ctxs = s.ctxs ∧
    (setWell s p w x).parks = s.parks ∧ (setWell s p w x).resumes = s.resumes ∧ (setWell s p w x).images = s.images ∧
    (setWell s p w x).parts = s.parts ∧ (setWell s p w x).colours = s.colours ∧ (setWell s p w x).groups = s.groups ∧
    (setWell s p w x).loose = s.loose ∧ (setWell s p w x).draws = s.draws ∧ (setWell s p w x).points = s.points ∧
    (setWell s p w x).pointUsed = s.pointUsed ∧ (setWell s p w x).returns = s.returns ∧ (setWell s p w x).barriers = s.barriers ∧
    (setWell s p w x).notices = s.notices ∧ (setWell s p w x).queues = s.queues ∧ (setWell s p w x).qreqs = s.qreqs ∧
    (setWell s p w x).hostOps = s.hostOps ∧ (setWell s p w x).launches = s.launches ∧ (setWell s p w x).turns = s.turns ∧
    (setWell s p w x).lastPlace = s.lastPlace ∧ (setWell s p w x).hdm = s.hdm ∧ (setWell s p w x).links = s.links ∧
    (setWell s p w x).routes = s.routes ∧ (setWell s p w x).owndev = s.owndev ∧ (setWell s p w x).routeAsks = s.routeAsks ∧
    (setWell s p w x).mgmt = s.mgmt ∧ (setWell s p w x).limiters = s.limiters ∧ (setWell s p w x).pins = s.pins ∧
    (setWell s p w x).minvs = s.minvs ∧ (setWell s p w x).out = s.out := by
  and_intros <;> rfl

/-- `setObuf` changes `obufs` alone. -/
@[simp] theorem setObuf_keeps (s : State) (p site : Nat) (x : OBuf) :
    (setObuf s p site x).cycle = s.cycle ∧ (setObuf s p site x).sched = s.sched ∧ (setObuf s p site x).cur = s.cur ∧
    (setObuf s p site x).sel = s.sel ∧ (setObuf s p site x).fresh = s.fresh ∧ (setObuf s p site x).nibs = s.nibs ∧
    (setObuf s p site x).wells = s.wells ∧ (setObuf s p site x).wmem = s.wmem ∧ (setObuf s p site x).wbad = s.wbad ∧
    (setObuf s p site x).scribes = s.scribes ∧ (setObuf s p site x).panels = s.panels ∧ (setObuf s p site x).boxes = s.boxes ∧
    (setObuf s p site x).transit = s.transit ∧ (setObuf s p site x).scaleNet = s.scaleNet ∧ (setObuf s p site x).pgs = s.pgs ∧
    (setObuf s p site x).arrays = s.arrays ∧ (setObuf s p site x).rules = s.rules ∧ (setObuf s p site x).arrivals = s.arrivals ∧
    (setObuf s p site x).accSlots = s.accSlots ∧ (setObuf s p site x).addends = s.addends ∧ (setObuf s p site x).mem = s.mem ∧
    (setObuf s p site x).memBad = s.memBad ∧ (setObuf s p site x).l2 = s.l2 ∧ (setObuf s p site x).l2lines = s.l2lines ∧
    (setObuf s p site x).tlb = s.tlb ∧ (setObuf s p site x).walks = s.walks ∧ (setObuf s p site x).filters = s.filters ∧
    (setObuf s p site x).traffic = s.traffic ∧ (setObuf s p site x).reqs = s.reqs ∧ (setObuf s p site x).served = s.served ∧
    (setObuf s p site x).xfers = s.xfers ∧ (setObuf s p site x).remotes = s.remotes ∧ (setObuf s p site x).ctxs = s.ctxs ∧
    (setObuf s p site x).parks = s.parks ∧ (setObuf s p site x).resumes = s.resumes ∧ (setObuf s p site x).images = s.images ∧
    (setObuf s p site x).parts = s.parts ∧ (setObuf s p site x).colours = s.colours ∧ (setObuf s p site x).groups = s.groups ∧
    (setObuf s p site x).loose = s.loose ∧ (setObuf s p site x).draws = s.draws ∧ (setObuf s p site x).points = s.points ∧
    (setObuf s p site x).pointUsed = s.pointUsed ∧ (setObuf s p site x).returns = s.returns ∧ (setObuf s p site x).barriers = s.barriers ∧
    (setObuf s p site x).notices = s.notices ∧ (setObuf s p site x).queues = s.queues ∧ (setObuf s p site x).qreqs = s.qreqs ∧
    (setObuf s p site x).hostOps = s.hostOps ∧ (setObuf s p site x).launches = s.launches ∧ (setObuf s p site x).turns = s.turns ∧
    (setObuf s p site x).lastPlace = s.lastPlace ∧ (setObuf s p site x).hdm = s.hdm ∧ (setObuf s p site x).links = s.links ∧
    (setObuf s p site x).routes = s.routes ∧ (setObuf s p site x).owndev = s.owndev ∧ (setObuf s p site x).routeAsks = s.routeAsks ∧
    (setObuf s p site x).mgmt = s.mgmt ∧ (setObuf s p site x).limiters = s.limiters ∧ (setObuf s p site x).pins = s.pins ∧
    (setObuf s p site x).minvs = s.minvs ∧ (setObuf s p site x).out = s.out := by
  and_intros <;> rfl

/-- `setScribe` changes `scribes` alone. -/
@[simp] theorem setScribe_keeps (s : State) (p : Nat) (x : Scribe) :
    (setScribe s p x).cycle = s.cycle ∧ (setScribe s p x).sched = s.sched ∧ (setScribe s p x).cur = s.cur ∧
    (setScribe s p x).sel = s.sel ∧ (setScribe s p x).fresh = s.fresh ∧ (setScribe s p x).nibs = s.nibs ∧
    (setScribe s p x).wells = s.wells ∧ (setScribe s p x).wmem = s.wmem ∧ (setScribe s p x).wbad = s.wbad ∧
    (setScribe s p x).obufs = s.obufs ∧ (setScribe s p x).panels = s.panels ∧ (setScribe s p x).boxes = s.boxes ∧
    (setScribe s p x).transit = s.transit ∧ (setScribe s p x).scaleNet = s.scaleNet ∧ (setScribe s p x).pgs = s.pgs ∧
    (setScribe s p x).arrays = s.arrays ∧ (setScribe s p x).rules = s.rules ∧ (setScribe s p x).arrivals = s.arrivals ∧
    (setScribe s p x).accSlots = s.accSlots ∧ (setScribe s p x).addends = s.addends ∧ (setScribe s p x).mem = s.mem ∧
    (setScribe s p x).memBad = s.memBad ∧ (setScribe s p x).l2 = s.l2 ∧ (setScribe s p x).l2lines = s.l2lines ∧
    (setScribe s p x).tlb = s.tlb ∧ (setScribe s p x).walks = s.walks ∧ (setScribe s p x).filters = s.filters ∧
    (setScribe s p x).traffic = s.traffic ∧ (setScribe s p x).reqs = s.reqs ∧ (setScribe s p x).served = s.served ∧
    (setScribe s p x).xfers = s.xfers ∧ (setScribe s p x).remotes = s.remotes ∧ (setScribe s p x).ctxs = s.ctxs ∧
    (setScribe s p x).parks = s.parks ∧ (setScribe s p x).resumes = s.resumes ∧ (setScribe s p x).images = s.images ∧
    (setScribe s p x).parts = s.parts ∧ (setScribe s p x).colours = s.colours ∧ (setScribe s p x).groups = s.groups ∧
    (setScribe s p x).loose = s.loose ∧ (setScribe s p x).draws = s.draws ∧ (setScribe s p x).points = s.points ∧
    (setScribe s p x).pointUsed = s.pointUsed ∧ (setScribe s p x).returns = s.returns ∧ (setScribe s p x).barriers = s.barriers ∧
    (setScribe s p x).notices = s.notices ∧ (setScribe s p x).queues = s.queues ∧ (setScribe s p x).qreqs = s.qreqs ∧
    (setScribe s p x).hostOps = s.hostOps ∧ (setScribe s p x).launches = s.launches ∧ (setScribe s p x).turns = s.turns ∧
    (setScribe s p x).lastPlace = s.lastPlace ∧ (setScribe s p x).hdm = s.hdm ∧ (setScribe s p x).links = s.links ∧
    (setScribe s p x).routes = s.routes ∧ (setScribe s p x).owndev = s.owndev ∧ (setScribe s p x).routeAsks = s.routeAsks ∧
    (setScribe s p x).mgmt = s.mgmt ∧ (setScribe s p x).limiters = s.limiters ∧ (setScribe s p x).pins = s.pins ∧
    (setScribe s p x).minvs = s.minvs ∧ (setScribe s p x).out = s.out := by
  and_intros <;> rfl

/-- `setPanel` changes `panels` alone. -/
@[simp] theorem setPanel_keeps (s : State) (p : Nat) (x : Panel) :
    (setPanel s p x).cycle = s.cycle ∧ (setPanel s p x).sched = s.sched ∧ (setPanel s p x).cur = s.cur ∧ (setPanel s p x).sel = s.sel ∧
    (setPanel s p x).fresh = s.fresh ∧ (setPanel s p x).nibs = s.nibs ∧ (setPanel s p x).wells = s.wells ∧
    (setPanel s p x).wmem = s.wmem ∧ (setPanel s p x).wbad = s.wbad ∧ (setPanel s p x).obufs = s.obufs ∧
    (setPanel s p x).scribes = s.scribes ∧ (setPanel s p x).boxes = s.boxes ∧ (setPanel s p x).transit = s.transit ∧
    (setPanel s p x).scaleNet = s.scaleNet ∧ (setPanel s p x).pgs = s.pgs ∧ (setPanel s p x).arrays = s.arrays ∧
    (setPanel s p x).rules = s.rules ∧ (setPanel s p x).arrivals = s.arrivals ∧ (setPanel s p x).accSlots = s.accSlots ∧
    (setPanel s p x).addends = s.addends ∧ (setPanel s p x).mem = s.mem ∧ (setPanel s p x).memBad = s.memBad ∧
    (setPanel s p x).l2 = s.l2 ∧ (setPanel s p x).l2lines = s.l2lines ∧ (setPanel s p x).tlb = s.tlb ∧ (setPanel s p x).walks = s.walks ∧
    (setPanel s p x).filters = s.filters ∧ (setPanel s p x).traffic = s.traffic ∧ (setPanel s p x).reqs = s.reqs ∧
    (setPanel s p x).served = s.served ∧ (setPanel s p x).xfers = s.xfers ∧ (setPanel s p x).remotes = s.remotes ∧
    (setPanel s p x).ctxs = s.ctxs ∧ (setPanel s p x).parks = s.parks ∧ (setPanel s p x).resumes = s.resumes ∧
    (setPanel s p x).images = s.images ∧ (setPanel s p x).parts = s.parts ∧ (setPanel s p x).colours = s.colours ∧
    (setPanel s p x).groups = s.groups ∧ (setPanel s p x).loose = s.loose ∧ (setPanel s p x).draws = s.draws ∧
    (setPanel s p x).points = s.points ∧ (setPanel s p x).pointUsed = s.pointUsed ∧ (setPanel s p x).returns = s.returns ∧
    (setPanel s p x).barriers = s.barriers ∧ (setPanel s p x).notices = s.notices ∧ (setPanel s p x).queues = s.queues ∧
    (setPanel s p x).qreqs = s.qreqs ∧ (setPanel s p x).hostOps = s.hostOps ∧ (setPanel s p x).launches = s.launches ∧
    (setPanel s p x).turns = s.turns ∧ (setPanel s p x).lastPlace = s.lastPlace ∧ (setPanel s p x).hdm = s.hdm ∧
    (setPanel s p x).links = s.links ∧ (setPanel s p x).routes = s.routes ∧ (setPanel s p x).owndev = s.owndev ∧
    (setPanel s p x).routeAsks = s.routeAsks ∧ (setPanel s p x).mgmt = s.mgmt ∧ (setPanel s p x).limiters = s.limiters ∧
    (setPanel s p x).pins = s.pins ∧ (setPanel s p x).minvs = s.minvs ∧ (setPanel s p x).out = s.out := by
  and_intros <;> rfl

/-- `setPlane` changes `panels` alone. -/
@[simp] theorem setPlane_keeps (s : State) (p k : Nat) (x : Plane) :
    (setPlane s p k x).cycle = s.cycle ∧ (setPlane s p k x).sched = s.sched ∧ (setPlane s p k x).cur = s.cur ∧
    (setPlane s p k x).sel = s.sel ∧ (setPlane s p k x).fresh = s.fresh ∧ (setPlane s p k x).nibs = s.nibs ∧
    (setPlane s p k x).wells = s.wells ∧ (setPlane s p k x).wmem = s.wmem ∧ (setPlane s p k x).wbad = s.wbad ∧
    (setPlane s p k x).obufs = s.obufs ∧ (setPlane s p k x).scribes = s.scribes ∧ (setPlane s p k x).boxes = s.boxes ∧
    (setPlane s p k x).transit = s.transit ∧ (setPlane s p k x).scaleNet = s.scaleNet ∧ (setPlane s p k x).pgs = s.pgs ∧
    (setPlane s p k x).arrays = s.arrays ∧ (setPlane s p k x).rules = s.rules ∧ (setPlane s p k x).arrivals = s.arrivals ∧
    (setPlane s p k x).accSlots = s.accSlots ∧ (setPlane s p k x).addends = s.addends ∧ (setPlane s p k x).mem = s.mem ∧
    (setPlane s p k x).memBad = s.memBad ∧ (setPlane s p k x).l2 = s.l2 ∧ (setPlane s p k x).l2lines = s.l2lines ∧
    (setPlane s p k x).tlb = s.tlb ∧ (setPlane s p k x).walks = s.walks ∧ (setPlane s p k x).filters = s.filters ∧
    (setPlane s p k x).traffic = s.traffic ∧ (setPlane s p k x).reqs = s.reqs ∧ (setPlane s p k x).served = s.served ∧
    (setPlane s p k x).xfers = s.xfers ∧ (setPlane s p k x).remotes = s.remotes ∧ (setPlane s p k x).ctxs = s.ctxs ∧
    (setPlane s p k x).parks = s.parks ∧ (setPlane s p k x).resumes = s.resumes ∧ (setPlane s p k x).images = s.images ∧
    (setPlane s p k x).parts = s.parts ∧ (setPlane s p k x).colours = s.colours ∧ (setPlane s p k x).groups = s.groups ∧
    (setPlane s p k x).loose = s.loose ∧ (setPlane s p k x).draws = s.draws ∧ (setPlane s p k x).points = s.points ∧
    (setPlane s p k x).pointUsed = s.pointUsed ∧ (setPlane s p k x).returns = s.returns ∧ (setPlane s p k x).barriers = s.barriers ∧
    (setPlane s p k x).notices = s.notices ∧ (setPlane s p k x).queues = s.queues ∧ (setPlane s p k x).qreqs = s.qreqs ∧
    (setPlane s p k x).hostOps = s.hostOps ∧ (setPlane s p k x).launches = s.launches ∧ (setPlane s p k x).turns = s.turns ∧
    (setPlane s p k x).lastPlace = s.lastPlace ∧ (setPlane s p k x).hdm = s.hdm ∧ (setPlane s p k x).links = s.links ∧
    (setPlane s p k x).routes = s.routes ∧ (setPlane s p k x).owndev = s.owndev ∧ (setPlane s p k x).routeAsks = s.routeAsks ∧
    (setPlane s p k x).mgmt = s.mgmt ∧ (setPlane s p k x).limiters = s.limiters ∧ (setPlane s p k x).pins = s.pins ∧
    (setPlane s p k x).minvs = s.minvs ∧ (setPlane s p k x).out = s.out := by
  and_intros <;> rfl

/-- `setPg` changes `pgs` alone. -/
@[simp] theorem setPg_keeps (s : State) (p k : Nat) (x : Pg) :
    (setPg s p k x).cycle = s.cycle ∧ (setPg s p k x).sched = s.sched ∧ (setPg s p k x).cur = s.cur ∧ (setPg s p k x).sel = s.sel ∧
    (setPg s p k x).fresh = s.fresh ∧ (setPg s p k x).nibs = s.nibs ∧ (setPg s p k x).wells = s.wells ∧ (setPg s p k x).wmem = s.wmem ∧
    (setPg s p k x).wbad = s.wbad ∧ (setPg s p k x).obufs = s.obufs ∧ (setPg s p k x).scribes = s.scribes ∧
    (setPg s p k x).panels = s.panels ∧ (setPg s p k x).boxes = s.boxes ∧ (setPg s p k x).transit = s.transit ∧
    (setPg s p k x).scaleNet = s.scaleNet ∧ (setPg s p k x).arrays = s.arrays ∧ (setPg s p k x).rules = s.rules ∧
    (setPg s p k x).arrivals = s.arrivals ∧ (setPg s p k x).accSlots = s.accSlots ∧ (setPg s p k x).addends = s.addends ∧
    (setPg s p k x).mem = s.mem ∧ (setPg s p k x).memBad = s.memBad ∧ (setPg s p k x).l2 = s.l2 ∧ (setPg s p k x).l2lines = s.l2lines ∧
    (setPg s p k x).tlb = s.tlb ∧ (setPg s p k x).walks = s.walks ∧ (setPg s p k x).filters = s.filters ∧
    (setPg s p k x).traffic = s.traffic ∧ (setPg s p k x).reqs = s.reqs ∧ (setPg s p k x).served = s.served ∧
    (setPg s p k x).xfers = s.xfers ∧ (setPg s p k x).remotes = s.remotes ∧ (setPg s p k x).ctxs = s.ctxs ∧
    (setPg s p k x).parks = s.parks ∧ (setPg s p k x).resumes = s.resumes ∧ (setPg s p k x).images = s.images ∧
    (setPg s p k x).parts = s.parts ∧ (setPg s p k x).colours = s.colours ∧ (setPg s p k x).groups = s.groups ∧
    (setPg s p k x).loose = s.loose ∧ (setPg s p k x).draws = s.draws ∧ (setPg s p k x).points = s.points ∧
    (setPg s p k x).pointUsed = s.pointUsed ∧ (setPg s p k x).returns = s.returns ∧ (setPg s p k x).barriers = s.barriers ∧
    (setPg s p k x).notices = s.notices ∧ (setPg s p k x).queues = s.queues ∧ (setPg s p k x).qreqs = s.qreqs ∧
    (setPg s p k x).hostOps = s.hostOps ∧ (setPg s p k x).launches = s.launches ∧ (setPg s p k x).turns = s.turns ∧
    (setPg s p k x).lastPlace = s.lastPlace ∧ (setPg s p k x).hdm = s.hdm ∧ (setPg s p k x).links = s.links ∧
    (setPg s p k x).routes = s.routes ∧ (setPg s p k x).owndev = s.owndev ∧ (setPg s p k x).routeAsks = s.routeAsks ∧
    (setPg s p k x).mgmt = s.mgmt ∧ (setPg s p k x).limiters = s.limiters ∧ (setPg s p k x).pins = s.pins ∧
    (setPg s p k x).minvs = s.minvs ∧ (setPg s p k x).out = s.out := by
  and_intros <;> rfl

/-- `setCtx` changes `ctxs` alone. -/
@[simp] theorem setCtx_keeps (s : State) (c : Nat) (x : Ctx) :
    (setCtx s c x).cycle = s.cycle ∧ (setCtx s c x).sched = s.sched ∧ (setCtx s c x).cur = s.cur ∧ (setCtx s c x).sel = s.sel ∧
    (setCtx s c x).fresh = s.fresh ∧ (setCtx s c x).nibs = s.nibs ∧ (setCtx s c x).wells = s.wells ∧ (setCtx s c x).wmem = s.wmem ∧
    (setCtx s c x).wbad = s.wbad ∧ (setCtx s c x).obufs = s.obufs ∧ (setCtx s c x).scribes = s.scribes ∧
    (setCtx s c x).panels = s.panels ∧ (setCtx s c x).boxes = s.boxes ∧ (setCtx s c x).transit = s.transit ∧
    (setCtx s c x).scaleNet = s.scaleNet ∧ (setCtx s c x).pgs = s.pgs ∧ (setCtx s c x).arrays = s.arrays ∧
    (setCtx s c x).rules = s.rules ∧ (setCtx s c x).arrivals = s.arrivals ∧ (setCtx s c x).accSlots = s.accSlots ∧
    (setCtx s c x).addends = s.addends ∧ (setCtx s c x).mem = s.mem ∧ (setCtx s c x).memBad = s.memBad ∧ (setCtx s c x).l2 = s.l2 ∧
    (setCtx s c x).l2lines = s.l2lines ∧ (setCtx s c x).tlb = s.tlb ∧ (setCtx s c x).walks = s.walks ∧
    (setCtx s c x).filters = s.filters ∧ (setCtx s c x).traffic = s.traffic ∧ (setCtx s c x).reqs = s.reqs ∧
    (setCtx s c x).served = s.served ∧ (setCtx s c x).xfers = s.xfers ∧ (setCtx s c x).remotes = s.remotes ∧
    (setCtx s c x).parks = s.parks ∧ (setCtx s c x).resumes = s.resumes ∧ (setCtx s c x).images = s.images ∧
    (setCtx s c x).parts = s.parts ∧ (setCtx s c x).colours = s.colours ∧ (setCtx s c x).groups = s.groups ∧
    (setCtx s c x).loose = s.loose ∧ (setCtx s c x).draws = s.draws ∧ (setCtx s c x).points = s.points ∧
    (setCtx s c x).pointUsed = s.pointUsed ∧ (setCtx s c x).returns = s.returns ∧ (setCtx s c x).barriers = s.barriers ∧
    (setCtx s c x).notices = s.notices ∧ (setCtx s c x).queues = s.queues ∧ (setCtx s c x).qreqs = s.qreqs ∧
    (setCtx s c x).hostOps = s.hostOps ∧ (setCtx s c x).launches = s.launches ∧ (setCtx s c x).turns = s.turns ∧
    (setCtx s c x).lastPlace = s.lastPlace ∧ (setCtx s c x).hdm = s.hdm ∧ (setCtx s c x).links = s.links ∧
    (setCtx s c x).routes = s.routes ∧ (setCtx s c x).owndev = s.owndev ∧ (setCtx s c x).routeAsks = s.routeAsks ∧
    (setCtx s c x).mgmt = s.mgmt ∧ (setCtx s c x).limiters = s.limiters ∧ (setCtx s c x).pins = s.pins ∧ (setCtx s c x).minvs = s.minvs ∧
    (setCtx s c x).out = s.out := by
  and_intros <;> rfl

/-- `setPart` changes `parts` alone. -/
@[simp] theorem setPart_keeps (s : State) (k : Nat) (x : Part) :
    (setPart s k x).cycle = s.cycle ∧ (setPart s k x).sched = s.sched ∧ (setPart s k x).cur = s.cur ∧ (setPart s k x).sel = s.sel ∧
    (setPart s k x).fresh = s.fresh ∧ (setPart s k x).nibs = s.nibs ∧ (setPart s k x).wells = s.wells ∧ (setPart s k x).wmem = s.wmem ∧
    (setPart s k x).wbad = s.wbad ∧ (setPart s k x).obufs = s.obufs ∧ (setPart s k x).scribes = s.scribes ∧
    (setPart s k x).panels = s.panels ∧ (setPart s k x).boxes = s.boxes ∧ (setPart s k x).transit = s.transit ∧
    (setPart s k x).scaleNet = s.scaleNet ∧ (setPart s k x).pgs = s.pgs ∧ (setPart s k x).arrays = s.arrays ∧
    (setPart s k x).rules = s.rules ∧ (setPart s k x).arrivals = s.arrivals ∧ (setPart s k x).accSlots = s.accSlots ∧
    (setPart s k x).addends = s.addends ∧ (setPart s k x).mem = s.mem ∧ (setPart s k x).memBad = s.memBad ∧ (setPart s k x).l2 = s.l2 ∧
    (setPart s k x).l2lines = s.l2lines ∧ (setPart s k x).tlb = s.tlb ∧ (setPart s k x).walks = s.walks ∧
    (setPart s k x).filters = s.filters ∧ (setPart s k x).traffic = s.traffic ∧ (setPart s k x).reqs = s.reqs ∧
    (setPart s k x).served = s.served ∧ (setPart s k x).xfers = s.xfers ∧ (setPart s k x).remotes = s.remotes ∧
    (setPart s k x).ctxs = s.ctxs ∧ (setPart s k x).parks = s.parks ∧ (setPart s k x).resumes = s.resumes ∧
    (setPart s k x).images = s.images ∧ (setPart s k x).colours = s.colours ∧ (setPart s k x).groups = s.groups ∧
    (setPart s k x).loose = s.loose ∧ (setPart s k x).draws = s.draws ∧ (setPart s k x).points = s.points ∧
    (setPart s k x).pointUsed = s.pointUsed ∧ (setPart s k x).returns = s.returns ∧ (setPart s k x).barriers = s.barriers ∧
    (setPart s k x).notices = s.notices ∧ (setPart s k x).queues = s.queues ∧ (setPart s k x).qreqs = s.qreqs ∧
    (setPart s k x).hostOps = s.hostOps ∧ (setPart s k x).launches = s.launches ∧ (setPart s k x).turns = s.turns ∧
    (setPart s k x).lastPlace = s.lastPlace ∧ (setPart s k x).hdm = s.hdm ∧ (setPart s k x).links = s.links ∧
    (setPart s k x).routes = s.routes ∧ (setPart s k x).owndev = s.owndev ∧ (setPart s k x).routeAsks = s.routeAsks ∧
    (setPart s k x).mgmt = s.mgmt ∧ (setPart s k x).limiters = s.limiters ∧ (setPart s k x).pins = s.pins ∧
    (setPart s k x).minvs = s.minvs ∧ (setPart s k x).out = s.out := by
  and_intros <;> rfl

/-- `setLink` changes `links` alone. -/
@[simp] theorem setLink_keeps (s : State) (l : Nat) (x : Link) :
    (setLink s l x).cycle = s.cycle ∧ (setLink s l x).sched = s.sched ∧ (setLink s l x).cur = s.cur ∧ (setLink s l x).sel = s.sel ∧
    (setLink s l x).fresh = s.fresh ∧ (setLink s l x).nibs = s.nibs ∧ (setLink s l x).wells = s.wells ∧ (setLink s l x).wmem = s.wmem ∧
    (setLink s l x).wbad = s.wbad ∧ (setLink s l x).obufs = s.obufs ∧ (setLink s l x).scribes = s.scribes ∧
    (setLink s l x).panels = s.panels ∧ (setLink s l x).boxes = s.boxes ∧ (setLink s l x).transit = s.transit ∧
    (setLink s l x).scaleNet = s.scaleNet ∧ (setLink s l x).pgs = s.pgs ∧ (setLink s l x).arrays = s.arrays ∧
    (setLink s l x).rules = s.rules ∧ (setLink s l x).arrivals = s.arrivals ∧ (setLink s l x).accSlots = s.accSlots ∧
    (setLink s l x).addends = s.addends ∧ (setLink s l x).mem = s.mem ∧ (setLink s l x).memBad = s.memBad ∧ (setLink s l x).l2 = s.l2 ∧
    (setLink s l x).l2lines = s.l2lines ∧ (setLink s l x).tlb = s.tlb ∧ (setLink s l x).walks = s.walks ∧
    (setLink s l x).filters = s.filters ∧ (setLink s l x).traffic = s.traffic ∧ (setLink s l x).reqs = s.reqs ∧
    (setLink s l x).served = s.served ∧ (setLink s l x).xfers = s.xfers ∧ (setLink s l x).remotes = s.remotes ∧
    (setLink s l x).ctxs = s.ctxs ∧ (setLink s l x).parks = s.parks ∧ (setLink s l x).resumes = s.resumes ∧
    (setLink s l x).images = s.images ∧ (setLink s l x).parts = s.parts ∧ (setLink s l x).colours = s.colours ∧
    (setLink s l x).groups = s.groups ∧ (setLink s l x).loose = s.loose ∧ (setLink s l x).draws = s.draws ∧
    (setLink s l x).points = s.points ∧ (setLink s l x).pointUsed = s.pointUsed ∧ (setLink s l x).returns = s.returns ∧
    (setLink s l x).barriers = s.barriers ∧ (setLink s l x).notices = s.notices ∧ (setLink s l x).queues = s.queues ∧
    (setLink s l x).qreqs = s.qreqs ∧ (setLink s l x).hostOps = s.hostOps ∧ (setLink s l x).launches = s.launches ∧
    (setLink s l x).turns = s.turns ∧ (setLink s l x).lastPlace = s.lastPlace ∧ (setLink s l x).hdm = s.hdm ∧
    (setLink s l x).routes = s.routes ∧ (setLink s l x).owndev = s.owndev ∧ (setLink s l x).routeAsks = s.routeAsks ∧
    (setLink s l x).mgmt = s.mgmt ∧ (setLink s l x).limiters = s.limiters ∧ (setLink s l x).pins = s.pins ∧
    (setLink s l x).minvs = s.minvs ∧ (setLink s l x).out = s.out := by
  and_intros <;> rfl

/-- `setQueue` changes `queues` alone. -/
@[simp] theorem setQueue_keeps (s : State) (q : Nat) (x : Queue) :
    (setQueue s q x).cycle = s.cycle ∧ (setQueue s q x).sched = s.sched ∧ (setQueue s q x).cur = s.cur ∧ (setQueue s q x).sel = s.sel ∧
    (setQueue s q x).fresh = s.fresh ∧ (setQueue s q x).nibs = s.nibs ∧ (setQueue s q x).wells = s.wells ∧
    (setQueue s q x).wmem = s.wmem ∧ (setQueue s q x).wbad = s.wbad ∧ (setQueue s q x).obufs = s.obufs ∧
    (setQueue s q x).scribes = s.scribes ∧ (setQueue s q x).panels = s.panels ∧ (setQueue s q x).boxes = s.boxes ∧
    (setQueue s q x).transit = s.transit ∧ (setQueue s q x).scaleNet = s.scaleNet ∧ (setQueue s q x).pgs = s.pgs ∧
    (setQueue s q x).arrays = s.arrays ∧ (setQueue s q x).rules = s.rules ∧ (setQueue s q x).arrivals = s.arrivals ∧
    (setQueue s q x).accSlots = s.accSlots ∧ (setQueue s q x).addends = s.addends ∧ (setQueue s q x).mem = s.mem ∧
    (setQueue s q x).memBad = s.memBad ∧ (setQueue s q x).l2 = s.l2 ∧ (setQueue s q x).l2lines = s.l2lines ∧
    (setQueue s q x).tlb = s.tlb ∧ (setQueue s q x).walks = s.walks ∧ (setQueue s q x).filters = s.filters ∧
    (setQueue s q x).traffic = s.traffic ∧ (setQueue s q x).reqs = s.reqs ∧ (setQueue s q x).served = s.served ∧
    (setQueue s q x).xfers = s.xfers ∧ (setQueue s q x).remotes = s.remotes ∧ (setQueue s q x).ctxs = s.ctxs ∧
    (setQueue s q x).parks = s.parks ∧ (setQueue s q x).resumes = s.resumes ∧ (setQueue s q x).images = s.images ∧
    (setQueue s q x).parts = s.parts ∧ (setQueue s q x).colours = s.colours ∧ (setQueue s q x).groups = s.groups ∧
    (setQueue s q x).loose = s.loose ∧ (setQueue s q x).draws = s.draws ∧ (setQueue s q x).points = s.points ∧
    (setQueue s q x).pointUsed = s.pointUsed ∧ (setQueue s q x).returns = s.returns ∧ (setQueue s q x).barriers = s.barriers ∧
    (setQueue s q x).notices = s.notices ∧ (setQueue s q x).qreqs = s.qreqs ∧ (setQueue s q x).hostOps = s.hostOps ∧
    (setQueue s q x).launches = s.launches ∧ (setQueue s q x).turns = s.turns ∧ (setQueue s q x).lastPlace = s.lastPlace ∧
    (setQueue s q x).hdm = s.hdm ∧ (setQueue s q x).links = s.links ∧ (setQueue s q x).routes = s.routes ∧
    (setQueue s q x).owndev = s.owndev ∧ (setQueue s q x).routeAsks = s.routeAsks ∧ (setQueue s q x).mgmt = s.mgmt ∧
    (setQueue s q x).limiters = s.limiters ∧ (setQueue s q x).pins = s.pins ∧ (setQueue s q x).minvs = s.minvs ∧
    (setQueue s q x).out = s.out := by
  and_intros <;> rfl

/-- `setBarrier` changes `barriers` alone. -/
@[simp] theorem setBarrier_keeps (s : State) (die i : Nat) (x : Barrier) :
    (setBarrier s die i x).cycle = s.cycle ∧ (setBarrier s die i x).sched = s.sched ∧ (setBarrier s die i x).cur = s.cur ∧
    (setBarrier s die i x).sel = s.sel ∧ (setBarrier s die i x).fresh = s.fresh ∧ (setBarrier s die i x).nibs = s.nibs ∧
    (setBarrier s die i x).wells = s.wells ∧ (setBarrier s die i x).wmem = s.wmem ∧ (setBarrier s die i x).wbad = s.wbad ∧
    (setBarrier s die i x).obufs = s.obufs ∧ (setBarrier s die i x).scribes = s.scribes ∧ (setBarrier s die i x).panels = s.panels ∧
    (setBarrier s die i x).boxes = s.boxes ∧ (setBarrier s die i x).transit = s.transit ∧ (setBarrier s die i x).scaleNet = s.scaleNet ∧
    (setBarrier s die i x).pgs = s.pgs ∧ (setBarrier s die i x).arrays = s.arrays ∧ (setBarrier s die i x).rules = s.rules ∧
    (setBarrier s die i x).arrivals = s.arrivals ∧ (setBarrier s die i x).accSlots = s.accSlots ∧
    (setBarrier s die i x).addends = s.addends ∧ (setBarrier s die i x).mem = s.mem ∧ (setBarrier s die i x).memBad = s.memBad ∧
    (setBarrier s die i x).l2 = s.l2 ∧ (setBarrier s die i x).l2lines = s.l2lines ∧ (setBarrier s die i x).tlb = s.tlb ∧
    (setBarrier s die i x).walks = s.walks ∧ (setBarrier s die i x).filters = s.filters ∧ (setBarrier s die i x).traffic = s.traffic ∧
    (setBarrier s die i x).reqs = s.reqs ∧ (setBarrier s die i x).served = s.served ∧ (setBarrier s die i x).xfers = s.xfers ∧
    (setBarrier s die i x).remotes = s.remotes ∧ (setBarrier s die i x).ctxs = s.ctxs ∧ (setBarrier s die i x).parks = s.parks ∧
    (setBarrier s die i x).resumes = s.resumes ∧ (setBarrier s die i x).images = s.images ∧ (setBarrier s die i x).parts = s.parts ∧
    (setBarrier s die i x).colours = s.colours ∧ (setBarrier s die i x).groups = s.groups ∧ (setBarrier s die i x).loose = s.loose ∧
    (setBarrier s die i x).draws = s.draws ∧ (setBarrier s die i x).points = s.points ∧ (setBarrier s die i x).pointUsed = s.pointUsed ∧
    (setBarrier s die i x).returns = s.returns ∧ (setBarrier s die i x).notices = s.notices ∧ (setBarrier s die i x).queues = s.queues ∧
    (setBarrier s die i x).qreqs = s.qreqs ∧ (setBarrier s die i x).hostOps = s.hostOps ∧ (setBarrier s die i x).launches = s.launches ∧
    (setBarrier s die i x).turns = s.turns ∧ (setBarrier s die i x).lastPlace = s.lastPlace ∧ (setBarrier s die i x).hdm = s.hdm ∧
    (setBarrier s die i x).links = s.links ∧ (setBarrier s die i x).routes = s.routes ∧ (setBarrier s die i x).owndev = s.owndev ∧
    (setBarrier s die i x).routeAsks = s.routeAsks ∧ (setBarrier s die i x).mgmt = s.mgmt ∧ (setBarrier s die i x).limiters = s.limiters ∧
    (setBarrier s die i x).pins = s.pins ∧ (setBarrier s die i x).minvs = s.minvs ∧ (setBarrier s die i x).out = s.out := by
  and_intros <;> rfl

/-- `setEngine` changes `rules` alone. -/
@[simp] theorem setEngine_keeps (s : State) (p : Nat) (x : RuleEngine) :
    (setEngine s p x).cycle = s.cycle ∧ (setEngine s p x).sched = s.sched ∧ (setEngine s p x).cur = s.cur ∧
    (setEngine s p x).sel = s.sel ∧ (setEngine s p x).fresh = s.fresh ∧ (setEngine s p x).nibs = s.nibs ∧
    (setEngine s p x).wells = s.wells ∧ (setEngine s p x).wmem = s.wmem ∧ (setEngine s p x).wbad = s.wbad ∧
    (setEngine s p x).obufs = s.obufs ∧ (setEngine s p x).scribes = s.scribes ∧ (setEngine s p x).panels = s.panels ∧
    (setEngine s p x).boxes = s.boxes ∧ (setEngine s p x).transit = s.transit ∧ (setEngine s p x).scaleNet = s.scaleNet ∧
    (setEngine s p x).pgs = s.pgs ∧ (setEngine s p x).arrays = s.arrays ∧ (setEngine s p x).arrivals = s.arrivals ∧
    (setEngine s p x).accSlots = s.accSlots ∧ (setEngine s p x).addends = s.addends ∧ (setEngine s p x).mem = s.mem ∧
    (setEngine s p x).memBad = s.memBad ∧ (setEngine s p x).l2 = s.l2 ∧ (setEngine s p x).l2lines = s.l2lines ∧
    (setEngine s p x).tlb = s.tlb ∧ (setEngine s p x).walks = s.walks ∧ (setEngine s p x).filters = s.filters ∧
    (setEngine s p x).traffic = s.traffic ∧ (setEngine s p x).reqs = s.reqs ∧ (setEngine s p x).served = s.served ∧
    (setEngine s p x).xfers = s.xfers ∧ (setEngine s p x).remotes = s.remotes ∧ (setEngine s p x).ctxs = s.ctxs ∧
    (setEngine s p x).parks = s.parks ∧ (setEngine s p x).resumes = s.resumes ∧ (setEngine s p x).images = s.images ∧
    (setEngine s p x).parts = s.parts ∧ (setEngine s p x).colours = s.colours ∧ (setEngine s p x).groups = s.groups ∧
    (setEngine s p x).loose = s.loose ∧ (setEngine s p x).draws = s.draws ∧ (setEngine s p x).points = s.points ∧
    (setEngine s p x).pointUsed = s.pointUsed ∧ (setEngine s p x).returns = s.returns ∧ (setEngine s p x).barriers = s.barriers ∧
    (setEngine s p x).notices = s.notices ∧ (setEngine s p x).queues = s.queues ∧ (setEngine s p x).qreqs = s.qreqs ∧
    (setEngine s p x).hostOps = s.hostOps ∧ (setEngine s p x).launches = s.launches ∧ (setEngine s p x).turns = s.turns ∧
    (setEngine s p x).lastPlace = s.lastPlace ∧ (setEngine s p x).hdm = s.hdm ∧ (setEngine s p x).links = s.links ∧
    (setEngine s p x).routes = s.routes ∧ (setEngine s p x).owndev = s.owndev ∧ (setEngine s p x).routeAsks = s.routeAsks ∧
    (setEngine s p x).mgmt = s.mgmt ∧ (setEngine s p x).limiters = s.limiters ∧ (setEngine s p x).pins = s.pins ∧
    (setEngine s p x).minvs = s.minvs ∧ (setEngine s p x).out = s.out := by
  and_intros <;> rfl

/-- `setTable` changes `rules` alone. -/
@[simp] theorem setTable_keeps (s : State) (p t : Nat) (x : RuleTable) :
    (setTable s p t x).cycle = s.cycle ∧ (setTable s p t x).sched = s.sched ∧ (setTable s p t x).cur = s.cur ∧
    (setTable s p t x).sel = s.sel ∧ (setTable s p t x).fresh = s.fresh ∧ (setTable s p t x).nibs = s.nibs ∧
    (setTable s p t x).wells = s.wells ∧ (setTable s p t x).wmem = s.wmem ∧ (setTable s p t x).wbad = s.wbad ∧
    (setTable s p t x).obufs = s.obufs ∧ (setTable s p t x).scribes = s.scribes ∧ (setTable s p t x).panels = s.panels ∧
    (setTable s p t x).boxes = s.boxes ∧ (setTable s p t x).transit = s.transit ∧ (setTable s p t x).scaleNet = s.scaleNet ∧
    (setTable s p t x).pgs = s.pgs ∧ (setTable s p t x).arrays = s.arrays ∧ (setTable s p t x).arrivals = s.arrivals ∧
    (setTable s p t x).accSlots = s.accSlots ∧ (setTable s p t x).addends = s.addends ∧ (setTable s p t x).mem = s.mem ∧
    (setTable s p t x).memBad = s.memBad ∧ (setTable s p t x).l2 = s.l2 ∧ (setTable s p t x).l2lines = s.l2lines ∧
    (setTable s p t x).tlb = s.tlb ∧ (setTable s p t x).walks = s.walks ∧ (setTable s p t x).filters = s.filters ∧
    (setTable s p t x).traffic = s.traffic ∧ (setTable s p t x).reqs = s.reqs ∧ (setTable s p t x).served = s.served ∧
    (setTable s p t x).xfers = s.xfers ∧ (setTable s p t x).remotes = s.remotes ∧ (setTable s p t x).ctxs = s.ctxs ∧
    (setTable s p t x).parks = s.parks ∧ (setTable s p t x).resumes = s.resumes ∧ (setTable s p t x).images = s.images ∧
    (setTable s p t x).parts = s.parts ∧ (setTable s p t x).colours = s.colours ∧ (setTable s p t x).groups = s.groups ∧
    (setTable s p t x).loose = s.loose ∧ (setTable s p t x).draws = s.draws ∧ (setTable s p t x).points = s.points ∧
    (setTable s p t x).pointUsed = s.pointUsed ∧ (setTable s p t x).returns = s.returns ∧ (setTable s p t x).barriers = s.barriers ∧
    (setTable s p t x).notices = s.notices ∧ (setTable s p t x).queues = s.queues ∧ (setTable s p t x).qreqs = s.qreqs ∧
    (setTable s p t x).hostOps = s.hostOps ∧ (setTable s p t x).launches = s.launches ∧ (setTable s p t x).turns = s.turns ∧
    (setTable s p t x).lastPlace = s.lastPlace ∧ (setTable s p t x).hdm = s.hdm ∧ (setTable s p t x).links = s.links ∧
    (setTable s p t x).routes = s.routes ∧ (setTable s p t x).owndev = s.owndev ∧ (setTable s p t x).routeAsks = s.routeAsks ∧
    (setTable s p t x).mgmt = s.mgmt ∧ (setTable s p t x).limiters = s.limiters ∧ (setTable s p t x).pins = s.pins ∧
    (setTable s p t x).minvs = s.minvs ∧ (setTable s p t x).out = s.out := by
  and_intros <;> rfl

/-- `setColour` changes `colours` alone. -/
@[simp] theorem setColour_keeps (s : State) (part c : Nat) (x : Colour) :
    (setColour s part c x).cycle = s.cycle ∧ (setColour s part c x).sched = s.sched ∧ (setColour s part c x).cur = s.cur ∧
    (setColour s part c x).sel = s.sel ∧ (setColour s part c x).fresh = s.fresh ∧ (setColour s part c x).nibs = s.nibs ∧
    (setColour s part c x).wells = s.wells ∧ (setColour s part c x).wmem = s.wmem ∧ (setColour s part c x).wbad = s.wbad ∧
    (setColour s part c x).obufs = s.obufs ∧ (setColour s part c x).scribes = s.scribes ∧ (setColour s part c x).panels = s.panels ∧
    (setColour s part c x).boxes = s.boxes ∧ (setColour s part c x).transit = s.transit ∧ (setColour s part c x).scaleNet = s.scaleNet ∧
    (setColour s part c x).pgs = s.pgs ∧ (setColour s part c x).arrays = s.arrays ∧ (setColour s part c x).rules = s.rules ∧
    (setColour s part c x).arrivals = s.arrivals ∧ (setColour s part c x).accSlots = s.accSlots ∧
    (setColour s part c x).addends = s.addends ∧ (setColour s part c x).mem = s.mem ∧ (setColour s part c x).memBad = s.memBad ∧
    (setColour s part c x).l2 = s.l2 ∧ (setColour s part c x).l2lines = s.l2lines ∧ (setColour s part c x).tlb = s.tlb ∧
    (setColour s part c x).walks = s.walks ∧ (setColour s part c x).filters = s.filters ∧ (setColour s part c x).traffic = s.traffic ∧
    (setColour s part c x).reqs = s.reqs ∧ (setColour s part c x).served = s.served ∧ (setColour s part c x).xfers = s.xfers ∧
    (setColour s part c x).remotes = s.remotes ∧ (setColour s part c x).ctxs = s.ctxs ∧ (setColour s part c x).parks = s.parks ∧
    (setColour s part c x).resumes = s.resumes ∧ (setColour s part c x).images = s.images ∧ (setColour s part c x).parts = s.parts ∧
    (setColour s part c x).groups = s.groups ∧ (setColour s part c x).loose = s.loose ∧ (setColour s part c x).draws = s.draws ∧
    (setColour s part c x).points = s.points ∧ (setColour s part c x).pointUsed = s.pointUsed ∧
    (setColour s part c x).returns = s.returns ∧ (setColour s part c x).barriers = s.barriers ∧
    (setColour s part c x).notices = s.notices ∧ (setColour s part c x).queues = s.queues ∧ (setColour s part c x).qreqs = s.qreqs ∧
    (setColour s part c x).hostOps = s.hostOps ∧ (setColour s part c x).launches = s.launches ∧ (setColour s part c x).turns = s.turns ∧
    (setColour s part c x).lastPlace = s.lastPlace ∧ (setColour s part c x).hdm = s.hdm ∧ (setColour s part c x).links = s.links ∧
    (setColour s part c x).routes = s.routes ∧ (setColour s part c x).owndev = s.owndev ∧ (setColour s part c x).routeAsks = s.routeAsks ∧
    (setColour s part c x).mgmt = s.mgmt ∧ (setColour s part c x).limiters = s.limiters ∧ (setColour s part c x).pins = s.pins ∧
    (setColour s part c x).minvs = s.minvs ∧ (setColour s part c x).out = s.out := by
  and_intros <;> rfl

/-- `setGroup` changes `groups` alone. -/
@[simp] theorem setGroup_keeps (s : State) (gid : Nat) (x : GroupRec) :
    (setGroup s gid x).cycle = s.cycle ∧ (setGroup s gid x).sched = s.sched ∧ (setGroup s gid x).cur = s.cur ∧
    (setGroup s gid x).sel = s.sel ∧ (setGroup s gid x).fresh = s.fresh ∧ (setGroup s gid x).nibs = s.nibs ∧
    (setGroup s gid x).wells = s.wells ∧ (setGroup s gid x).wmem = s.wmem ∧ (setGroup s gid x).wbad = s.wbad ∧
    (setGroup s gid x).obufs = s.obufs ∧ (setGroup s gid x).scribes = s.scribes ∧ (setGroup s gid x).panels = s.panels ∧
    (setGroup s gid x).boxes = s.boxes ∧ (setGroup s gid x).transit = s.transit ∧ (setGroup s gid x).scaleNet = s.scaleNet ∧
    (setGroup s gid x).pgs = s.pgs ∧ (setGroup s gid x).arrays = s.arrays ∧ (setGroup s gid x).rules = s.rules ∧
    (setGroup s gid x).arrivals = s.arrivals ∧ (setGroup s gid x).accSlots = s.accSlots ∧ (setGroup s gid x).addends = s.addends ∧
    (setGroup s gid x).mem = s.mem ∧ (setGroup s gid x).memBad = s.memBad ∧ (setGroup s gid x).l2 = s.l2 ∧
    (setGroup s gid x).l2lines = s.l2lines ∧ (setGroup s gid x).tlb = s.tlb ∧ (setGroup s gid x).walks = s.walks ∧
    (setGroup s gid x).filters = s.filters ∧ (setGroup s gid x).traffic = s.traffic ∧ (setGroup s gid x).reqs = s.reqs ∧
    (setGroup s gid x).served = s.served ∧ (setGroup s gid x).xfers = s.xfers ∧ (setGroup s gid x).remotes = s.remotes ∧
    (setGroup s gid x).ctxs = s.ctxs ∧ (setGroup s gid x).parks = s.parks ∧ (setGroup s gid x).resumes = s.resumes ∧
    (setGroup s gid x).images = s.images ∧ (setGroup s gid x).parts = s.parts ∧ (setGroup s gid x).colours = s.colours ∧
    (setGroup s gid x).loose = s.loose ∧ (setGroup s gid x).draws = s.draws ∧ (setGroup s gid x).points = s.points ∧
    (setGroup s gid x).pointUsed = s.pointUsed ∧ (setGroup s gid x).returns = s.returns ∧ (setGroup s gid x).barriers = s.barriers ∧
    (setGroup s gid x).notices = s.notices ∧ (setGroup s gid x).queues = s.queues ∧ (setGroup s gid x).qreqs = s.qreqs ∧
    (setGroup s gid x).hostOps = s.hostOps ∧ (setGroup s gid x).launches = s.launches ∧ (setGroup s gid x).turns = s.turns ∧
    (setGroup s gid x).lastPlace = s.lastPlace ∧ (setGroup s gid x).hdm = s.hdm ∧ (setGroup s gid x).links = s.links ∧
    (setGroup s gid x).routes = s.routes ∧ (setGroup s gid x).owndev = s.owndev ∧ (setGroup s gid x).routeAsks = s.routeAsks ∧
    (setGroup s gid x).mgmt = s.mgmt ∧ (setGroup s gid x).limiters = s.limiters ∧ (setGroup s gid x).pins = s.pins ∧
    (setGroup s gid x).minvs = s.minvs ∧ (setGroup s gid x).out = s.out := by
  and_intros <;> rfl

/-- `postAt` changes `boxes` alone. -/
@[simp] theorem postAt_keeps (s : State) (p : Nat) (e : MbEntry) :
    (postAt s p e).cycle = s.cycle ∧ (postAt s p e).sched = s.sched ∧ (postAt s p e).cur = s.cur ∧ (postAt s p e).sel = s.sel ∧
    (postAt s p e).fresh = s.fresh ∧ (postAt s p e).nibs = s.nibs ∧ (postAt s p e).wells = s.wells ∧ (postAt s p e).wmem = s.wmem ∧
    (postAt s p e).wbad = s.wbad ∧ (postAt s p e).obufs = s.obufs ∧ (postAt s p e).scribes = s.scribes ∧
    (postAt s p e).panels = s.panels ∧ (postAt s p e).transit = s.transit ∧ (postAt s p e).scaleNet = s.scaleNet ∧
    (postAt s p e).pgs = s.pgs ∧ (postAt s p e).arrays = s.arrays ∧ (postAt s p e).rules = s.rules ∧
    (postAt s p e).arrivals = s.arrivals ∧ (postAt s p e).accSlots = s.accSlots ∧ (postAt s p e).addends = s.addends ∧
    (postAt s p e).mem = s.mem ∧ (postAt s p e).memBad = s.memBad ∧ (postAt s p e).l2 = s.l2 ∧ (postAt s p e).l2lines = s.l2lines ∧
    (postAt s p e).tlb = s.tlb ∧ (postAt s p e).walks = s.walks ∧ (postAt s p e).filters = s.filters ∧
    (postAt s p e).traffic = s.traffic ∧ (postAt s p e).reqs = s.reqs ∧ (postAt s p e).served = s.served ∧
    (postAt s p e).xfers = s.xfers ∧ (postAt s p e).remotes = s.remotes ∧ (postAt s p e).ctxs = s.ctxs ∧ (postAt s p e).parks = s.parks ∧
    (postAt s p e).resumes = s.resumes ∧ (postAt s p e).images = s.images ∧ (postAt s p e).parts = s.parts ∧
    (postAt s p e).colours = s.colours ∧ (postAt s p e).groups = s.groups ∧ (postAt s p e).loose = s.loose ∧
    (postAt s p e).draws = s.draws ∧ (postAt s p e).points = s.points ∧ (postAt s p e).pointUsed = s.pointUsed ∧
    (postAt s p e).returns = s.returns ∧ (postAt s p e).barriers = s.barriers ∧ (postAt s p e).notices = s.notices ∧
    (postAt s p e).queues = s.queues ∧ (postAt s p e).qreqs = s.qreqs ∧ (postAt s p e).hostOps = s.hostOps ∧
    (postAt s p e).launches = s.launches ∧ (postAt s p e).turns = s.turns ∧ (postAt s p e).lastPlace = s.lastPlace ∧
    (postAt s p e).hdm = s.hdm ∧ (postAt s p e).links = s.links ∧ (postAt s p e).routes = s.routes ∧ (postAt s p e).owndev = s.owndev ∧
    (postAt s p e).routeAsks = s.routeAsks ∧ (postAt s p e).mgmt = s.mgmt ∧ (postAt s p e).limiters = s.limiters ∧
    (postAt s p e).pins = s.pins ∧ (postAt s p e).minvs = s.minvs ∧ (postAt s p e).out = s.out := by
  and_intros <;> rfl

/-- `post` changes `boxes` alone. -/
@[simp] theorem post_keeps (s : State) (e : MbEntry) :
    (post s e).cycle = s.cycle ∧ (post s e).sched = s.sched ∧ (post s e).cur = s.cur ∧ (post s e).sel = s.sel ∧
    (post s e).fresh = s.fresh ∧ (post s e).nibs = s.nibs ∧ (post s e).wells = s.wells ∧ (post s e).wmem = s.wmem ∧
    (post s e).wbad = s.wbad ∧ (post s e).obufs = s.obufs ∧ (post s e).scribes = s.scribes ∧ (post s e).panels = s.panels ∧
    (post s e).transit = s.transit ∧ (post s e).scaleNet = s.scaleNet ∧ (post s e).pgs = s.pgs ∧ (post s e).arrays = s.arrays ∧
    (post s e).rules = s.rules ∧ (post s e).arrivals = s.arrivals ∧ (post s e).accSlots = s.accSlots ∧ (post s e).addends = s.addends ∧
    (post s e).mem = s.mem ∧ (post s e).memBad = s.memBad ∧ (post s e).l2 = s.l2 ∧ (post s e).l2lines = s.l2lines ∧
    (post s e).tlb = s.tlb ∧ (post s e).walks = s.walks ∧ (post s e).filters = s.filters ∧ (post s e).traffic = s.traffic ∧
    (post s e).reqs = s.reqs ∧ (post s e).served = s.served ∧ (post s e).xfers = s.xfers ∧ (post s e).remotes = s.remotes ∧
    (post s e).ctxs = s.ctxs ∧ (post s e).parks = s.parks ∧ (post s e).resumes = s.resumes ∧ (post s e).images = s.images ∧
    (post s e).parts = s.parts ∧ (post s e).colours = s.colours ∧ (post s e).groups = s.groups ∧ (post s e).loose = s.loose ∧
    (post s e).draws = s.draws ∧ (post s e).points = s.points ∧ (post s e).pointUsed = s.pointUsed ∧ (post s e).returns = s.returns ∧
    (post s e).barriers = s.barriers ∧ (post s e).notices = s.notices ∧ (post s e).queues = s.queues ∧ (post s e).qreqs = s.qreqs ∧
    (post s e).hostOps = s.hostOps ∧ (post s e).launches = s.launches ∧ (post s e).turns = s.turns ∧ (post s e).lastPlace = s.lastPlace ∧
    (post s e).hdm = s.hdm ∧ (post s e).links = s.links ∧ (post s e).routes = s.routes ∧ (post s e).owndev = s.owndev ∧
    (post s e).routeAsks = s.routeAsks ∧ (post s e).mgmt = s.mgmt ∧ (post s e).limiters = s.limiters ∧ (post s e).pins = s.pins ∧
    (post s e).minvs = s.minvs ∧ (post s e).out = s.out := by
  and_intros <;> rfl

/-- `takeTrap` changes `scribes` alone. -/
@[simp] theorem takeTrap_keeps (s : State) (p : Nat) (d : Due) :
    (takeTrap s p d).cycle = s.cycle ∧ (takeTrap s p d).sched = s.sched ∧ (takeTrap s p d).cur = s.cur ∧ (takeTrap s p d).sel = s.sel ∧
    (takeTrap s p d).fresh = s.fresh ∧ (takeTrap s p d).nibs = s.nibs ∧ (takeTrap s p d).wells = s.wells ∧
    (takeTrap s p d).wmem = s.wmem ∧ (takeTrap s p d).wbad = s.wbad ∧ (takeTrap s p d).obufs = s.obufs ∧
    (takeTrap s p d).panels = s.panels ∧ (takeTrap s p d).boxes = s.boxes ∧ (takeTrap s p d).transit = s.transit ∧
    (takeTrap s p d).scaleNet = s.scaleNet ∧ (takeTrap s p d).pgs = s.pgs ∧ (takeTrap s p d).arrays = s.arrays ∧
    (takeTrap s p d).rules = s.rules ∧ (takeTrap s p d).arrivals = s.arrivals ∧ (takeTrap s p d).accSlots = s.accSlots ∧
    (takeTrap s p d).addends = s.addends ∧ (takeTrap s p d).mem = s.mem ∧ (takeTrap s p d).memBad = s.memBad ∧
    (takeTrap s p d).l2 = s.l2 ∧ (takeTrap s p d).l2lines = s.l2lines ∧ (takeTrap s p d).tlb = s.tlb ∧ (takeTrap s p d).walks = s.walks ∧
    (takeTrap s p d).filters = s.filters ∧ (takeTrap s p d).traffic = s.traffic ∧ (takeTrap s p d).reqs = s.reqs ∧
    (takeTrap s p d).served = s.served ∧ (takeTrap s p d).xfers = s.xfers ∧ (takeTrap s p d).remotes = s.remotes ∧
    (takeTrap s p d).ctxs = s.ctxs ∧ (takeTrap s p d).parks = s.parks ∧ (takeTrap s p d).resumes = s.resumes ∧
    (takeTrap s p d).images = s.images ∧ (takeTrap s p d).parts = s.parts ∧ (takeTrap s p d).colours = s.colours ∧
    (takeTrap s p d).groups = s.groups ∧ (takeTrap s p d).loose = s.loose ∧ (takeTrap s p d).draws = s.draws ∧
    (takeTrap s p d).points = s.points ∧ (takeTrap s p d).pointUsed = s.pointUsed ∧ (takeTrap s p d).returns = s.returns ∧
    (takeTrap s p d).barriers = s.barriers ∧ (takeTrap s p d).notices = s.notices ∧ (takeTrap s p d).queues = s.queues ∧
    (takeTrap s p d).qreqs = s.qreqs ∧ (takeTrap s p d).hostOps = s.hostOps ∧ (takeTrap s p d).launches = s.launches ∧
    (takeTrap s p d).turns = s.turns ∧ (takeTrap s p d).lastPlace = s.lastPlace ∧ (takeTrap s p d).hdm = s.hdm ∧
    (takeTrap s p d).links = s.links ∧ (takeTrap s p d).routes = s.routes ∧ (takeTrap s p d).owndev = s.owndev ∧
    (takeTrap s p d).routeAsks = s.routeAsks ∧ (takeTrap s p d).mgmt = s.mgmt ∧ (takeTrap s p d).limiters = s.limiters ∧
    (takeTrap s p d).pins = s.pins ∧ (takeTrap s p d).minvs = s.minvs ∧ (takeTrap s p d).out = s.out := by
  and_intros <;> rfl

/-- `trapReturn` changes `scribes` alone. -/
@[simp] theorem trapReturn_keeps (s : State) (p : Nat) :
    (trapReturn s p).cycle = s.cycle ∧ (trapReturn s p).sched = s.sched ∧ (trapReturn s p).cur = s.cur ∧ (trapReturn s p).sel = s.sel ∧
    (trapReturn s p).fresh = s.fresh ∧ (trapReturn s p).nibs = s.nibs ∧ (trapReturn s p).wells = s.wells ∧
    (trapReturn s p).wmem = s.wmem ∧ (trapReturn s p).wbad = s.wbad ∧ (trapReturn s p).obufs = s.obufs ∧
    (trapReturn s p).panels = s.panels ∧ (trapReturn s p).boxes = s.boxes ∧ (trapReturn s p).transit = s.transit ∧
    (trapReturn s p).scaleNet = s.scaleNet ∧ (trapReturn s p).pgs = s.pgs ∧ (trapReturn s p).arrays = s.arrays ∧
    (trapReturn s p).rules = s.rules ∧ (trapReturn s p).arrivals = s.arrivals ∧ (trapReturn s p).accSlots = s.accSlots ∧
    (trapReturn s p).addends = s.addends ∧ (trapReturn s p).mem = s.mem ∧ (trapReturn s p).memBad = s.memBad ∧
    (trapReturn s p).l2 = s.l2 ∧ (trapReturn s p).l2lines = s.l2lines ∧ (trapReturn s p).tlb = s.tlb ∧ (trapReturn s p).walks = s.walks ∧
    (trapReturn s p).filters = s.filters ∧ (trapReturn s p).traffic = s.traffic ∧ (trapReturn s p).reqs = s.reqs ∧
    (trapReturn s p).served = s.served ∧ (trapReturn s p).xfers = s.xfers ∧ (trapReturn s p).remotes = s.remotes ∧
    (trapReturn s p).ctxs = s.ctxs ∧ (trapReturn s p).parks = s.parks ∧ (trapReturn s p).resumes = s.resumes ∧
    (trapReturn s p).images = s.images ∧ (trapReturn s p).parts = s.parts ∧ (trapReturn s p).colours = s.colours ∧
    (trapReturn s p).groups = s.groups ∧ (trapReturn s p).loose = s.loose ∧ (trapReturn s p).draws = s.draws ∧
    (trapReturn s p).points = s.points ∧ (trapReturn s p).pointUsed = s.pointUsed ∧ (trapReturn s p).returns = s.returns ∧
    (trapReturn s p).barriers = s.barriers ∧ (trapReturn s p).notices = s.notices ∧ (trapReturn s p).queues = s.queues ∧
    (trapReturn s p).qreqs = s.qreqs ∧ (trapReturn s p).hostOps = s.hostOps ∧ (trapReturn s p).launches = s.launches ∧
    (trapReturn s p).turns = s.turns ∧ (trapReturn s p).lastPlace = s.lastPlace ∧ (trapReturn s p).hdm = s.hdm ∧
    (trapReturn s p).links = s.links ∧ (trapReturn s p).routes = s.routes ∧ (trapReturn s p).owndev = s.owndev ∧
    (trapReturn s p).routeAsks = s.routeAsks ∧ (trapReturn s p).mgmt = s.mgmt ∧ (trapReturn s p).limiters = s.limiters ∧
    (trapReturn s p).pins = s.pins ∧ (trapReturn s p).minvs = s.minvs ∧ (trapReturn s p).out = s.out := by
  and_intros <;> rfl

theorem nibAt_setNib (s : State) {x : Nib} (p k : Nat) (h : x ≠ {}) : nibAt (setNib s p k x) p k = x := tgetD_tsetD_of_ne _ _ h

theorem nibAt_setNib_ne (s : State) (x : Nib) {p k p' k' : Nat} (h : siteKey p' k' ≠ siteKey p k) : nibAt (setNib s p k x) p' k' = nibAt s p' k' :=
  tgetD_tsetD_ne _ _ _ h

theorem wellAt_setWell (s : State) {x : Well} (p k : Nat) (h : x ≠ {}) : wellAt (setWell s p k x) p k = x := tgetD_tsetD_of_ne _ _ h

theorem wellAt_setWell_ne (s : State) (x : Well) {p k p' k' : Nat} (h : siteKey p' k' ≠ siteKey p k) : wellAt (setWell s p k x) p' k' = wellAt s p' k' :=
  tgetD_tsetD_ne _ _ _ h

theorem obufAt_setObuf (s : State) {x : OBuf} (p k : Nat) (h : x ≠ {}) : obufAt (setObuf s p k x) p k = x := tgetD_tsetD_of_ne _ _ h

theorem obufAt_setObuf_ne (s : State) (x : OBuf) {p k p' k' : Nat} (h : siteKey p' k' ≠ siteKey p k) : obufAt (setObuf s p k x) p' k' = obufAt s p' k' :=
  tgetD_tsetD_ne _ _ _ h

theorem scribeAt_setScribe (s : State) {x : Scribe} (p : Nat) (h : x ≠ {}) : scribeAt (setScribe s p x) p = x := tgetD_tsetD_of_ne _ _ h

theorem scribeAt_setScribe_ne (s : State) (x : Scribe) {p p' : Nat} (h : p' ≠ p) : scribeAt (setScribe s p x) p' = scribeAt s p' :=
  tgetD_tsetD_ne _ _ _ h

theorem panelAt_setPanel (s : State) {x : Panel} (p : Nat) (h : x ≠ {}) : panelAt (setPanel s p x) p = x := tgetD_tsetD_of_ne _ _ h

theorem panelAt_setPanel_ne (s : State) (x : Panel) {p p' : Nat} (h : p' ≠ p) : panelAt (setPanel s p x) p' = panelAt s p' :=
  tgetD_tsetD_ne _ _ _ h

theorem pgAt_setPg (s : State) {x : Pg} (p k : Nat) (h : x ≠ {}) : pgAt (setPg s p k x) p k = x := tgetD_tsetD_of_ne _ _ h

theorem pgAt_setPg_ne (s : State) (x : Pg) {p k p' k' : Nat} (h : 64 * p' + k' ≠ 64 * p + k) : pgAt (setPg s p k x) p' k' = pgAt s p' k' :=
  tgetD_tsetD_ne _ _ _ h

theorem ctxAt_setCtx (s : State) {x : Ctx} (p : Nat) (h : x ≠ {}) : ctxAt (setCtx s p x) p = x := tgetD_tsetD_of_ne _ _ h

theorem ctxAt_setCtx_ne (s : State) (x : Ctx) {p p' : Nat} (h : p' ≠ p) : ctxAt (setCtx s p x) p' = ctxAt s p' :=
  tgetD_tsetD_ne _ _ _ h

theorem partAt_setPart (s : State) {x : Part} (p : Nat) (h : x ≠ {}) : partAt (setPart s p x) p = x := tgetD_tsetD_of_ne _ _ h

theorem partAt_setPart_ne (s : State) (x : Part) {p p' : Nat} (h : p' ≠ p) : partAt (setPart s p x) p' = partAt s p' :=
  tgetD_tsetD_ne _ _ _ h

theorem linkAt_setLink (s : State) {x : Link} (p : Nat) (h : x ≠ {}) : linkAt (setLink s p x) p = x := tgetD_tsetD_of_ne _ _ h

theorem linkAt_setLink_ne (s : State) (x : Link) {p p' : Nat} (h : p' ≠ p) : linkAt (setLink s p x) p' = linkAt s p' :=
  tgetD_tsetD_ne _ _ _ h

theorem queueAt_setQueue (s : State) {x : Queue} (p : Nat) (h : x ≠ {}) : queueAt (setQueue s p x) p = x := tgetD_tsetD_of_ne _ _ h

theorem queueAt_setQueue_ne (s : State) (x : Queue) {p p' : Nat} (h : p' ≠ p) : queueAt (setQueue s p x) p' = queueAt s p' :=
  tgetD_tsetD_ne _ _ _ h

theorem barrierAt_setBarrier (s : State) {x : Barrier} (p k : Nat) (h : x ≠ {}) : barrierAt (setBarrier s p k x) p k = x := tgetD_tsetD_of_ne _ _ h

theorem barrierAt_setBarrier_ne (s : State) (x : Barrier) {p k p' k' : Nat} (h : 4096 * p' + k' ≠ 4096 * p + k) : barrierAt (setBarrier s p k x) p' k' = barrierAt s p' k' :=
  tgetD_tsetD_ne _ _ _ h

theorem engineAt_setEngine (s : State) {x : RuleEngine} (p : Nat) (h : x ≠ {}) : engineAt (setEngine s p x) p = x := tgetD_tsetD_of_ne _ _ h

theorem engineAt_setEngine_ne (s : State) (x : RuleEngine) {p p' : Nat} (h : p' ≠ p) : engineAt (setEngine s p x) p' = engineAt s p' :=
  tgetD_tsetD_ne _ _ _ h

theorem colourAt_setColour (s : State) {x : Colour} (p k : Nat) (h : x ≠ {}) : colourAt (setColour s p k x) p k = x := tgetD_tsetD_of_ne _ _ h

theorem colourAt_setColour_ne (s : State) (x : Colour) {p k p' k' : Nat} (h : colKey p' k' ≠ colKey p k) : colourAt (setColour s p k x) p' k' = colourAt s p' k' :=
  tgetD_tsetD_ne _ _ _ h

end Sys2Proof.Machine
end

