-- ==== Sys2Proof/Tests/Slice0.lean ====
section
/-!
SUPPORT. Tests: ill-formed terms that WellFormed refuses; words written out from the spec's encodings (08 R161 to R176); single
steps on small states; and for each claim of `Sys2Proof.Claims` a state and operands that meet the hypotheses of its clauses.
-/
namespace Sys2Proof.Tests
open Sys2Proof.Machine Sys2Proof.Safety

set_option maxRecDepth 20000
set_option Elab.async false

/-! ## Small states -/

/-- A token of type `ty` with the given lanes. -/
def tk (ls : List Lane) (ty : BitVec 4 := 6) : Token := { ty := ty, lanes := ls }

/-- A destination. -/
def ds (site : BitVec 8) : Dest := { site := site, node := 1, port := 0 }

/-- CTL 0, and CTL with the literal on port b. -/
def k0 : Ctl := { lituse := 0, pred := false, emit0 := 0, emit1 := 0, nullpass := false }
def kp : Ctl := { k0 with pred := true }
def kn : Ctl := { k0 with nullpass := true }

/-- A format N record with the given FMT and MOD[87:84]. -/
def rn (fmt : BitVec 4) (hi : BitVec 4 := 0) (lit : BitVec 32 := 0) (cf : BitVec 8 := 0) (ctl : Ctl := k0) : RecN :=
  { hi := hi, fmt := fmt, d0 := ds 7, d1 := ds 255, ctl := ctl, cf := cf, lit := lit }

/-- A format S record with the given SUB and OBJ, whose D1 names site `w`. -/
def rs (sub : BitVec 8 := 0) (obj : BitVec 32 := 0) (w : BitVec 8 := 255) : RecS :=
  { sub := sub, d0 := ds 7, d1 := { site := w, node := 0, port := 0 }, ctl := k0, cf := 0, obj := obj }

/-- A format T record. -/
def rt (ctag : BitVec 6) (pgn : BitVec 6 := 0) (len : BitVec 16 := 1) : RecT :=
  { ctag := ctag, hold := false, fill := false, d0 := ds 7, d1 := ds 255, ctl := k0, pgn := pgn, rsv := 0, mark := 0, len := len }

/-- A format M record of a well site, in the well's own space. -/
def rm (fmt : BitVec 4 := 6) (osite : BitVec 8 := 1) (space ord : BitVec 2 := 0) (scope : BitVec 3 := 0) : RecM :=
  { space := space, ord := ord, fmt := fmt, d0 := ds 7, osite := osite, d1lo := 0, ctl := k0, scope := scope, lsid := 0
    prev := 0xFE, seq := 0, next := 0xFE, off := 0 }

/-- The reset state with a match at a site of panel 0. -/
def at_ (site : Nat) (ops : List (Nat × Token)) (tag : Word64 := 0x0010000000000000) : State :=
  { State.reset with cur := { site := site, ops := ops, tag := tag } }

/-- Operands on ports a, b and c. -/
def abc (a b c : List Lane) (ty : BitVec 4 := 6) : List (Nat × Token) := [(0, tk a ty), (1, tk b ty), (2, tk c ty)]

/-- A block of panel 0's scribe that is running, and the state with a match of one of its records. -/
def blk : Block := { plane := 0, index := 0, header := 0xFF01_0000_0000_0000_0000_0000 }
def inBlk (ops : List (Nat × Token)) : State := setScribe (at_ 240 ops) 0 { cur := some blk }

/-- The same record once its block has committed. -/
def lateRec (ops : List (Nat × Token)) : State :=
  { State.reset with cur := { site := 240, ops := ops, tag := 0x0010000000000000, late := true } }

/-- The lanes and the rest of the first token that an outcome has put on its way. -/
def sent (o : Outcome) : List Token :=
  match o with
  | .next s => s.transit.map (fun f => f.tok)
  | _ => []

/-- The causes that an outcome has posted at panel 0. -/
def posted (o : Outcome) : List Nat :=
  match o with
  | .next s => (boxAt s 0).entries.map (fun e => e.cause)
  | _ => []

/-! ## Ill-formed terms -/

theorem test_ill_pginit : (Instr.pginit { (default : RecS) with sub := 9 }).wf = false := by decide
theorem test_ill_pginitFree : (Instr.pginitFree { (default : RecS) with sub := 9 }).wf = false := by decide
theorem test_ill_sysmodeEnter : (Instr.sysmodeEnter { (default : RecN) with hi := 8 }).wf = false := by decide
theorem test_ill_sysmodeLeave : (Instr.sysmodeLeave { (default : RecN) with hi := 8 }).wf = false := by decide
theorem test_ill_cavjoinLocal : (Instr.cavjoinLocal { (default : RecS) with sub := 9 }).wf = false := by decide
theorem test_ill_cavjoinSegment : (Instr.cavjoinSegment { (default : RecS) with sub := 9 }).wf = false := by decide
theorem test_ill_cavjoinLeave : (Instr.cavjoinLeave { (default : RecS) with sub := 9 }).wf = false := by decide
theorem test_ill_pacesetInit : (Instr.pacesetInit { (default : RecS) with sub := 9 }).wf = false := by decide
theorem test_ill_pacesetLoad : (Instr.pacesetLoad { (default : RecS) with sub := 9 }).wf = false := by decide
theorem test_ill_pacesetUpdate : (Instr.pacesetUpdate { (default : RecS) with sub := 9 }).wf = false := by decide
theorem test_ill_rulesetWrite : (Instr.rulesetWrite { (default : RecS) with sub := 9 }).wf = false := by decide
theorem test_ill_rulesetClear : (Instr.rulesetClear { (default : RecS) with sub := 9 }).wf = false := by decide
theorem test_ill_rulearmArm : (Instr.rulearmArm { (default : RecS) with sub := 9 }).wf = false := by decide
theorem test_ill_rulearmDisarm : (Instr.rulearmDisarm { (default : RecS) with sub := 9 }).wf = false := by decide
theorem test_ill_callocGrant : (Instr.callocGrant { (default : RecN) with hi := 8 }).wf = false := by decide
theorem test_ill_callocEntry : (Instr.callocEntry { (default : RecN) with hi := 8 }).wf = false := by decide
theorem test_ill_binit : (Instr.binit { (default : RecS) with sub := 9 }).wf = false := by decide
theorem test_ill_binitFree : (Instr.binitFree { (default : RecS) with sub := 9 }).wf = false := by decide
theorem test_ill_barrive : (Instr.barrive { (default : RecS) with sub := 9 }).wf = false := by decide
theorem test_ill_barriveTag : (Instr.barriveTag { (default : RecS) with sub := 9 }).wf = false := by decide
theorem test_ill_btest : (Instr.btest { (default : RecS) with sub := 9 }).wf = false := by decide
theorem test_ill_btestTicket : (Instr.btestTicket { (default : RecS) with sub := 9 }).wf = false := by decide
theorem test_ill_qtake : (Instr.qtake { (default : RecS) with sub := 9 }).wf = false := by decide
theorem test_ill_qtakePoll : (Instr.qtakePoll { (default : RecS) with sub := 9 }).wf = false := by decide
theorem test_ill_kdrain : (Instr.kdrain { (default : RecS) with sub := 9 }).wf = false := by decide
theorem test_ill_kdrainPurge : (Instr.kdrainPurge { (default : RecS) with sub := 9 }).wf = false := by decide
theorem test_ill_kdrainPoll : (Instr.kdrainPoll { (default : RecS) with sub := 9 }).wf = false := by decide
theorem test_ill_minv : (Instr.minv { (default : RecS) with sub := 9 }).wf = false := by decide
theorem test_ill_minvContext : (Instr.minvContext { (default : RecS) with sub := 9 }).wf = false := by decide
theorem test_ill_mprobe : (Instr.mprobe { (default : RecS) with sub := 9 }).wf = false := by decide
theorem test_ill_mprobeRead : (Instr.mprobeRead { (default : RecS) with sub := 9 }).wf = false := by decide
theorem test_ill_mprobeReadClear : (Instr.mprobeReadClear { (default : RecS) with sub := 9 }).wf = false := by decide
theorem test_ill_ftake : (Instr.ftake { (default : RecS) with sub := 9 }).wf = false := by decide
theorem test_ill_ftakeRetry : (Instr.ftakeRetry { (default : RecS) with sub := 9 }).wf = false := by decide
theorem test_ill_ftakeDiscard : (Instr.ftakeDiscard { (default : RecS) with sub := 9 }).wf = false := by decide
theorem test_ill_ftakePeek : (Instr.ftakePeek { (default : RecS) with sub := 9 }).wf = false := by decide
theorem test_ill_lctlTrain : (Instr.lctlTrain { (default : RecS) with sub := 9 }).wf = false := by decide
theorem test_ill_lctlDown : (Instr.lctlDown { (default : RecS) with sub := 9 }).wf = false := by decide
theorem test_ill_lctlReset : (Instr.lctlReset { (default : RecS) with sub := 9 }).wf = false := by decide
theorem test_ill_lctlRoute : (Instr.lctlRoute { (default : RecS) with sub := 9 }).wf = false := by decide
theorem test_ill_lctlClearCounters : (Instr.lctlClearCounters { (default : RecS) with sub := 9 }).wf = false := by decide
theorem test_ill_lctlOwnNumber : (Instr.lctlOwnNumber { (default : RecS) with sub := 9 }).wf = false := by decide

/-! ## Words, written from the layouts of 08 R162 to R171 -/

theorem test_word_nop : decode 0x00D6AB6BE13B0F4FCE294B3D = .ok (.nop
    { hi := 13, fmt := 6, d0 := { site := 171, node := 13, port := 3 }, d1 := { site := 225, node := 7, port := 3 }
      ctl := { lituse := 0, pred := false, emit0 := 1, emit1 := 3, nullpass := true }, cf := 79, lit := 3458812733 }) := by rfl
theorem test_word_iadd : decode 0x0129AE905AB03046731D17F2 = .ok (.iadd
    { hi := 2, fmt := 9, d0 := { site := 174, node := 18, port := 0 }, d1 := { site := 90, node := 22, port := 0 }
      ctl := { lituse := 0, pred := true, emit0 := 2, emit1 := 0, nullpass := false }, cf := 70, lit := 1931286514 }) := by rfl
theorem test_word_isub : decode 0x0239A59B0FCB38B1D843C7C3 = .ok (.isub
    { hi := 3, fmt := 9, d0 := { site := 165, node := 19, port := 3 }, d1 := { site := 15, node := 25, port := 3 }
      ctl := { lituse := 0, pred := true, emit0 := 3, emit1 := 0, nullpass := false }, cf := 177, lit := 3628320707 }) := by rfl
theorem test_word_imul : decode 0x037BC1B9232D7ADD5121AE87 = .ok (.imul
    { hi := 7, fmt := 11, d0 := { site := 193, node := 23, port := 1 }, d1 := { site := 35, node := 5, port := 5 }
      ctl := { lituse := 1, pred := true, emit0 := 3, emit1 := 1, nullpass := false }, cf := 221, lit := 1361161863 }) := by rfl
theorem test_word_imulh : decode 0x04FFC9FB4BEB3F5597AB1E6F = .ok (.imulh
    { hi := 15, fmt := 15, d0 := { site := 201, node := 31, port := 3 }, d1 := { site := 75, node := 29, port := 3 }
      ctl := { lituse := 0, pred := true, emit0 := 3, emit1 := 3, nullpass := true }, cf := 85, lit := 2544574063 }) := by rfl
theorem test_word_imad : decode 0x05BDEDDB878B3DA903105F2B = .ok (.imad
    { hi := 11, fmt := 13, d0 := { site := 237, node := 27, port := 3 }, d1 := { site := 135, node := 17, port := 3 }
      ctl := { lituse := 0, pred := true, emit0 := 3, emit1 := 2, nullpass := true }, cf := 169, lit := 51404587 }) := by rfl
theorem test_word_idiv : decode 0x06C67462DC24876484BF73EC = .ok (.idiv
    { hi := 12, fmt := 6, d0 := { site := 116, node := 12, port := 2 }, d1 := { site := 220, node := 4, port := 4 }
      ctl := { lituse := 2, pred := false, emit0 := 0, emit1 := 3, nullpass := true }, cf := 100, lit := 2227139564 }) := by rfl
theorem test_word_irem : decode 0x07D67B6BE13B0F6F22F6ED9D = .ok (.irem
    { hi := 13, fmt := 6, d0 := { site := 123, node := 13, port := 3 }, d1 := { site := 225, node := 7, port := 3 }
      ctl := { lituse := 0, pred := false, emit0 := 1, emit1 := 3, nullpass := true }, cf := 111, lit := 586608029 }) := by rfl
theorem test_word_imin : decode 0x08D67B6BE13B0F6F22F6ED9D = .ok (.imin
    { hi := 13, fmt := 6, d0 := { site := 123, node := 13, port := 3 }, d1 := { site := 225, node := 7, port := 3 }
      ctl := { lituse := 0, pred := false, emit0 := 1, emit1 := 3, nullpass := true }, cf := 111, lit := 586608029 }) := by rfl
theorem test_word_imax : decode 0x09F7897DEB69BF855F65E0FF = .ok (.imax
    { hi := 15, fmt := 7, d0 := { site := 137, node := 15, port := 5 }, d1 := { site := 235, node := 13, port := 1 }
      ctl := { lituse := 2, pred := true, emit0 := 3, emit1 := 3, nullpass := true }, cf := 133, lit := 1600512255 }) := by rfl
theorem test_word_iabs : decode 0x0AFF19F99BED7FD57BEE45EF = .ok (.iabs
    { hi := 15, fmt := 15, d0 := { site := 25, node := 31, port := 1 }, d1 := { site := 155, node := 29, port := 5 }
      ctl := { lituse := 1, pred := true, emit0 := 3, emit1 := 3, nullpass := true }, cf := 213, lit := 2079213039 }) := by rfl
theorem test_word_ineg : decode 0x0B31351DAF49B801F4CC2CB3 = .ok (.ineg
    { hi := 3, fmt := 1, d0 := { site := 53, node := 3, port := 5 }, d1 := { site := 175, node := 9, port := 1 }
      ctl := { lituse := 2, pred := true, emit0 := 3, emit1 := 0, nullpass := false }, cf := 1, lit := 4107021491 }) := by rfl
theorem test_word_and : decode 0x0C39E5995FCD7831BC86EF43 = .ok (.and
    { hi := 3, fmt := 9, d0 := { site := 229, node := 19, port := 1 }, d1 := { site := 95, node := 25, port := 5 }
      ctl := { lituse := 1, pred := true, emit0 := 3, emit1 := 0, nullpass := false }, cf := 49, lit := 3162959683 }) := by rfl
theorem test_word_or : decode 0x0D10870BA51B08AB0EC1F491 = .ok (.or
    { hi := 1, fmt := 0, d0 := { site := 135, node := 1, port := 3 }, d1 := { site := 165, node := 3, port := 3 }
      ctl := { lituse := 0, pred := false, emit0 := 1, emit1 := 0, nullpass := false }, cf := 171, lit := 247592081 }) := by rfl
theorem test_word_xor : decode 0x0E9C0FCB2D5B0DD338C2FF89 = .ok (.xor
    { hi := 9, fmt := 12, d0 := { site := 15, node := 25, port := 3 }, d1 := { site := 45, node := 11, port := 3 }
      ctl := { lituse := 0, pred := false, emit0 := 1, emit1 := 2, nullpass := true }, cf := 211, lit := 952303497 }) := by rfl
theorem test_word_andn : decode 0x0F10270BA51B08EBB85D3951 = .ok (.andn
    { hi := 1, fmt := 0, d0 := { site := 39, node := 1, port := 3 }, d1 := { site := 165, node := 3, port := 3 }
      ctl := { lituse := 0, pred := false, emit0 := 1, emit1 := 0, nullpass := false }, cf := 235, lit := 3093117265 }) := by rfl
theorem test_word_shl : decode 0x1073813BC3AB3A0D18DC7117 = .ok (.shl
    { hi := 7, fmt := 3, d0 := { site := 129, node := 7, port := 3 }, d1 := { site := 195, node := 21, port := 3 }
      ctl := { lituse := 0, pred := true, emit0 := 3, emit1 := 1, nullpass := false }, cf := 13, lit := 417100055 }) := by rfl
theorem test_word_shr : decode 0x11D6AB6BE13B0F4FCE294B3D = .ok (.shr
    { hi := 13, fmt := 6, d0 := { site := 171, node := 13, port := 3 }, d1 := { site := 225, node := 7, port := 3 }
      ctl := { lituse := 0, pred := false, emit0 := 1, emit1 := 3, nullpass := true }, cf := 79, lit := 3458812733 }) := by rfl
theorem test_word_sra : decode 0x12637A32BE94B2027AA4F766 = .ok (.sra
    { hi := 6, fmt := 3, d0 := { site := 122, node := 6, port := 2 }, d1 := { site := 190, node := 18, port := 4 }
      ctl := { lituse := 2, pred := true, emit0 := 2, emit1 := 1, nullpass := false }, cf := 2, lit := 2057631590 }) := by rfl
theorem test_word_rot : decode 0x135AE3AD19F98AA7BFE518C5 = .ok (.rot
    { hi := 5, fmt := 10, d0 := { site := 227, node := 21, port := 5 }, d1 := { site := 25, node := 31, port := 1 }
      ctl := { lituse := 2, pred := false, emit0 := 1, emit1 := 1, nullpass := false }, cf := 167, lit := 3219462341 }) := by rfl
theorem test_word_clz : decode 0x14948F4DCDD98D23554B6479 = .ok (.clz
    { hi := 9, fmt := 4, d0 := { site := 143, node := 9, port := 5 }, d1 := { site := 205, node := 27, port := 1 }
      ctl := { lituse := 2, pred := false, emit0 := 1, emit1 := 2, nullpass := true }, cf := 35, lit := 1431004281 }) := by rfl
theorem test_word_popc : decode 0x15299E920AB4B0A63A0C4E12 = .ok (.popc
    { hi := 2, fmt := 9, d0 := { site := 158, node := 18, port := 2 }, d1 := { site := 10, node := 22, port := 4 }
      ctl := { lituse := 2, pred := true, emit0 := 2, emit1 := 0, nullpass := false }, cf := 166, lit := 973884946 }) := by rfl
theorem test_word_brev : decode 0x16F7897DEB69BF855F65E0FF = .ok (.brev
    { hi := 15, fmt := 7, d0 := { site := 137, node := 15, port := 5 }, d1 := { site := 235, node := 13, port := 1 }
      ctl := { lituse := 2, pred := true, emit0 := 3, emit1 := 3, nullpass := true }, cf := 133, lit := 1600512255 }) := by rfl
theorem test_word_bfx : decode 0x17005002A00480C0C5581D40 = .ok (.bfx
    { hi := 0, fmt := 0, d0 := { site := 80, node := 0, port := 2 }, d1 := { site := 160, node := 0, port := 4 }
      ctl := { lituse := 2, pred := false, emit0 := 0, emit1 := 0, nullpass := false }, cf := 192, lit := 3310886208 }) := by rfl
theorem test_word_bfi : decode 0x1818D78D5599881B8017FBE1 = .ok (.bfi
    { hi := 1, fmt := 8, d0 := { site := 215, node := 17, port := 5 }, d1 := { site := 85, node := 19, port := 1 }
      ctl := { lituse := 2, pred := false, emit0 := 1, emit1 := 0, nullpass := false }, cf := 27, lit := 2149055457 }) := by rfl
theorem test_word_icmp : decode 0x19945F4DCDD98D43AA1906D9 = .ok (.icmp
    { hi := 9, fmt := 4, d0 := { site := 95, node := 9, port := 5 }, d1 := { site := 205, node := 27, port := 1 }
      ctl := { lituse := 2, pred := false, emit0 := 1, emit1 := 2, nullpass := true }, cf := 67, lit := 2853766873 }) := by rfl
theorem test_word_sel : decode 0x1A426C20B46002EC3E360404 = .ok (.sel
    { hi := 4, fmt := 2, d0 := { site := 108, node := 4, port := 0 }, d1 := { site := 180, node := 12, port := 0 }
      ctl := { lituse := 0, pred := false, emit0 := 0, emit1 := 1, nullpass := false }, cf := 236, lit := 1043727364 }) := by rfl
theorem test_word_iclamp : decode 0x1B6B5AB01E1032125C857996 = .ok (.iclamp
    { hi := 6, fmt := 11, d0 := { site := 90, node := 22, port := 0 }, d1 := { site := 30, node := 2, port := 0 }
      ctl := { lituse := 0, pred := true, emit0 := 2, emit1 := 1, nullpass := false }, cf := 18, lit := 1552251286 }) := by rfl
theorem test_word_addr : decode 0x1CBDEDDB878B3DA903105F2B = .ok (.addr
    { hi := 11, fmt := 13, d0 := { site := 237, node := 27, port := 3 }, d1 := { site := 135, node := 17, port := 3 }
      ctl := { lituse := 0, pred := true, emit0 := 3, emit1 := 2, nullpass := true }, cf := 169, lit := 51404587 }) := by rfl
theorem test_word_iaddw : decode 0x1D942F4DCDD98D63FEE6A939 = .ok (.iaddw
    { hi := 9, fmt := 4, d0 := { site := 47, node := 9, port := 5 }, d1 := { site := 205, node := 27, port := 1 }
      ctl := { lituse := 2, pred := false, emit0 := 1, emit1 := 2, nullpass := true }, cf := 99, lit := 4276529465 }) := by rfl
theorem test_word_icvt : decode 0x1E6BBAB01E1032D2B2EA34D6 = .ok (.icvt
    { hi := 6, fmt := 11, d0 := { site := 186, node := 22, port := 0 }, d1 := { site := 30, node := 2, port := 0 }
      ctl := { lituse := 0, pred := true, emit0 := 2, emit1 := 1, nullpass := false }, cf := 210, lit := 3001693398 }) := by rfl
theorem test_word_copy : decode 0x20BDDDDD3789BD09C9FF954B = .ok (.copy
    { hi := 11, fmt := 13, d0 := { site := 221, node := 27, port := 5 }, d1 := { site := 55, node := 17, port := 1 }
      ctl := { lituse := 2, pred := true, emit0 := 3, emit1 := 2, nullpass := true }, cf := 9, lit := 3388970315 }) := by rfl
theorem test_word_const : decode 0x2173113D73A9BAAD8966EBF7 = .ok (.const
    { hi := 7, fmt := 3, d0 := { site := 17, node := 7, port := 5 }, d1 := { site := 115, node := 21, port := 1 }
      ctl := { lituse := 2, pred := true, emit0 := 3, emit1 := 1, nullpass := false }, cf := 173, lit := 2305223671 }) := by rfl
theorem test_word_sink : decode 0x225AB3AD19F98AC714B2BB25 = .ok (.sink
    { hi := 5, fmt := 10, d0 := { site := 179, node := 21, port := 5 }, d1 := { site := 25, node := 31, port := 1 }
      ctl := { lituse := 2, pred := false, emit0 := 1, emit1 := 1, nullpass := false }, cf := 199, lit := 347257637 }) := by rfl
theorem test_word_gate : decode 0x2310270BA51B08EBB85D3951 = .ok (.gate
    { hi := 1, fmt := 0, d0 := { site := 39, node := 1, port := 3 }, d1 := { site := 165, node := 3, port := 3 }
      ctl := { lituse := 0, pred := false, emit0 := 1, emit1 := 0, nullpass := false }, cf := 235, lit := 3093117265 }) := by rfl
theorem test_word_join : decode 0x2408908000800090FD9D5AB0 = .ok (.join
    { hi := 0, fmt := 8, d0 := { site := 144, node := 16, port := 0 }, d1 := { site := 0, node := 16, port := 0 }
      ctl := { lituse := 0, pred := false, emit0 := 0, emit1 := 0, nullpass := false }, cf := 144, lit := 4254948016 }) := by rfl
theorem test_word_steer : decode 0x2531E5195F4D788110890533 = .ok (.steer
    { hi := 3, fmt := 1, d0 := { site := 229, node := 3, port := 1 }, d1 := { site := 95, node := 9, port := 5 }
      ctl := { lituse := 1, pred := true, emit0 := 3, emit1 := 0, nullpass := false }, cf := 129, lit := 277415219 }) := by rfl
theorem test_word_merge : decode 0x26086080008000B0526AFD10 = .ok (.merge
    { hi := 0, fmt := 8, d0 := { site := 96, node := 16, port := 0 }, d1 := { site := 0, node := 16, port := 0 }
      ctl := { lituse := 0, pred := false, emit0 := 0, emit1 := 0, nullpass := false }, cf := 176, lit := 1382743312 }) := by rfl
theorem test_word_enter : decode 0x27EFC2F246D4B74AF973A4BE = .ok (.enter
    { hi := 14, fmt := 15, d0 := { site := 194, node := 30, port := 2 }, d1 := { site := 70, node := 26, port := 4 }
      ctl := { lituse := 2, pred := true, emit0 := 2, emit1 := 3, nullpass := true }, cf := 74, lit := 4185105598 }) := by rfl
theorem test_word_wave : decode 0x2839A59B0FCB38B1D843C7C3 = .ok (.wave
    { hi := 3, fmt := 9, d0 := { site := 165, node := 19, port := 3 }, d1 := { site := 15, node := 25, port := 3 }
      ctl := { lituse := 0, pred := true, emit0 := 3, emit1 := 0, nullpass := false }, cf := 177, lit := 3628320707 }) := by rfl
theorem test_word_leave : decode 0x29D64B6BE13B0F8F77C48FFD = .ok (.leave
    { hi := 13, fmt := 6, d0 := { site := 75, node := 13, port := 3 }, d1 := { site := 225, node := 7, port := 3 }
      ctl := { lituse := 0, pred := false, emit0 := 1, emit1 := 3, nullpass := true }, cf := 143, lit := 2009370621 }) := by rfl
theorem test_word_throttleAdmit : decode 0x2A524329B97D4A57814377D5 = .ok (.throttleAdmit
    { hi := 5, fmt := 2, d0 := { site := 67, node := 5, port := 1 }, d1 := { site := 185, node := 15, port := 5 }
      ctl := { lituse := 1, pred := false, emit0 := 1, emit1 := 1, nullpass := false }, cf := 87, lit := 2168682453 }) := by rfl
theorem test_word_repeat : decode 0x2B10A70D5519888B28E7B431 = .ok (.repeat
    { hi := 1, fmt := 0, d0 := { site := 167, node := 1, port := 5 }, d1 := { site := 85, node := 3, port := 1 }
      ctl := { lituse := 2, pred := false, emit0 := 1, emit1 := 0, nullpass := false }, cf := 139, lit := 686273585 }) := by rfl
theorem test_word_tagget : decode 0x2CCE84E03CA0075411D253BC = .ok (.tagget
    { hi := 12, fmt := 14, d0 := { site := 132, node := 28, port := 0 }, d1 := { site := 60, node := 20, port := 0 }
      ctl := { lituse := 0, pred := false, emit0 := 0, emit1 := 3, nullpass := true }, cf := 84, lit := 298996668 }) := by rfl
theorem test_word_tagset : decode 0x2D84D84078C005D87C6C0808 = .ok (.tagset
    { hi := 8, fmt := 4, d0 := { site := 216, node := 8, port := 0 }, d1 := { site := 120, node := 24, port := 0 }
      ctl := { lituse := 0, pred := false, emit0 := 0, emit1 := 2, nullpass := true }, cf := 216, lit := 2087454728 }) := by rfl
theorem test_word_void : decode 0x2E299E920AB4B0A63A0C4E12 = .ok (.void
    { hi := 2, fmt := 9, d0 := { site := 158, node := 18, port := 2 }, d1 := { site := 10, node := 22, port := 4 }
      ctl := { lituse := 2, pred := true, emit0 := 2, emit1 := 0, nullpass := false }, cf := 166, lit := 973884946 }) := by rfl
theorem test_word_range : decode 0x2FD64B6BE13B0F8F77C48FFD = .ok (.range
    { hi := 13, fmt := 6, d0 := { site := 75, node := 13, port := 3 }, d1 := { site := 225, node := 7, port := 3 }
      ctl := { lituse := 0, pred := false, emit0 := 1, emit1 := 3, nullpass := true }, cf := 143, lit := 2009370621 }) := by rfl
theorem test_word_runend : decode 0x30C604648C224704F549EECC = .ok (.runend
    { hi := 12, fmt := 6, d0 := { site := 4, node := 12, port := 4 }, d1 := { site := 140, node := 4, port := 2 }
      ctl := { lituse := 1, pred := false, emit0 := 0, emit1 := 3, nullpass := true }, cf := 4, lit := 4115263180 }) := by rfl
theorem test_word_read : decode 0x31CE04E48CA247B4A147D8DC = .ok (.read
    { hi := 12, fmt := 14, d0 := { site := 4, node := 28, port := 4 }, d1 := { site := 140, node := 20, port := 2 }
      ctl := { lituse := 1, pred := false, emit0 := 0, emit1 := 3, nullpass := true }, cf := 180, lit := 2705840348 }) := by rfl
theorem test_word_write : decode 0x32B52D5B870B3DD90244D2BB = .ok (.write
    { hi := 11, fmt := 5, d0 := { site := 45, node := 11, port := 3 }, d1 := { site := 135, node := 1, port := 3 }
      ctl := { lituse := 0, pred := true, emit0 := 3, emit1 := 2, nullpass := true }, cf := 217, lit := 38064827 }) := by rfl
theorem test_word_branch : decode 0x33E72274E65277BA6AC9AC0E = .ok (.branch
    { hi := 14, fmt := 7, d0 := { site := 34, node := 14, port := 4 }, d1 := { site := 230, node := 10, port := 2 }
      ctl := { lituse := 1, pred := true, emit0 := 2, emit1 := 3, nullpass := true }, cf := 186, lit := 1791601678 }) := by rfl
theorem test_word_bcall : decode 0x34EFD2F096D037EA32846E9E = .ok (.bcall
    { hi := 14, fmt := 15, d0 := { site := 210, node := 30, port := 0 }, d1 := { site := 150, node := 26, port := 0 }
      ctl := { lituse := 0, pred := true, emit0 := 2, emit1 := 3, nullpass := true }, cf := 234, lit := 847539870 }) := by rfl
theorem test_word_bret : decode 0x35D67B6BE13B0F6F22F6ED9D = .ok (.bret
    { hi := 13, fmt := 6, d0 := { site := 123, node := 13, port := 3 }, d1 := { site := 225, node := 7, port := 3 }
      ctl := { lituse := 0, pred := false, emit0 := 1, emit1 := 3, nullpass := true }, cf := 111, lit := 586608029 }) := by rfl
theorem test_word_fadd : decode 0x40F7997B4B6B3F259876AADF = .ok (.fadd
    { hi := 15, fmt := 7, d0 := { site := 153, node := 15, port := 3 }, d1 := { site := 75, node := 13, port := 3 }
      ctl := { lituse := 0, pred := true, emit0 := 3, emit1 := 3, nullpass := true }, cf := 37, lit := 2557913823 }) := by rfl
theorem test_word_fsub : decode 0x4108908000800090FD9D5AB0 = .ok (.fsub
    { hi := 0, fmt := 8, d0 := { site := 144, node := 16, port := 0 }, d1 := { site := 0, node := 16, port := 0 }
      ctl := { lituse := 0, pred := false, emit0 := 0, emit1 := 0, nullpass := false }, cf := 144, lit := 4254948016 }) := by rfl
theorem test_word_fmul : decode 0x424AACA414E242BC767B4174 = .ok (.fmul
    { hi := 4, fmt := 10, d0 := { site := 172, node := 20, port := 4 }, d1 := { site := 20, node := 28, port := 2 }
      ctl := { lituse := 1, pred := false, emit0 := 0, emit1 := 1, nullpass := false }, cf := 188, lit := 1987789172 }) := by rfl
theorem test_word_ffma : decode 0x43ADE6D28274B59E64D8E57A = .ok (.ffma
    { hi := 10, fmt := 13, d0 := { site := 230, node := 26, port := 2 }, d1 := { site := 130, node := 14, port := 4 }
      ctl := { lituse := 2, pred := true, emit0 := 2, emit1 := 2, nullpass := true }, cf := 158, lit := 1691936122 }) := by rfl
theorem test_word_fmin : decode 0x44A56650D2F0354E4850808A = .ok (.fmin
    { hi := 10, fmt := 5, d0 := { site := 102, node := 10, port := 0 }, d1 := { site := 210, node := 30, port := 0 }
      ctl := { lituse := 0, pred := true, emit0 := 2, emit1 := 2, nullpass := true }, cf := 78, lit := 1213235338 }) := by rfl
theorem test_word_fmax : decode 0x45C67462DC24876484BF73EC = .ok (.fmax
    { hi := 12, fmt := 6, d0 := { site := 116, node := 12, port := 2 }, d1 := { site := 220, node := 4, port := 4 }
      ctl := { lituse := 2, pred := false, emit0 := 0, emit1 := 3, nullpass := true }, cf := 100, lit := 2227139564 }) := by rfl
theorem test_word_fcmp : decode 0x46634A32BE94B222CF7299C6 = .ok (.fcmp
    { hi := 6, fmt := 3, d0 := { site := 74, node := 6, port := 2 }, d1 := { site := 190, node := 18, port := 4 }
      ctl := { lituse := 2, pred := true, emit0 := 2, emit1 := 1, nullpass := false }, cf := 34, lit := 3480394182 }) := by rfl
theorem test_word_fclass : decode 0x47CE84E03CA0075411D253BC = .ok (.fclass
    { hi := 12, fmt := 14, d0 := { site := 132, node := 28, port := 0 }, d1 := { site := 60, node := 20, port := 0 }
      ctl := { lituse := 0, pred := false, emit0 := 0, emit1 := 3, nullpass := true }, cf := 84, lit := 298996668 }) := by rfl
theorem test_word_fdiv : decode 0x48945F4DCDD98D43AA1906D9 = .ok (.fdiv
    { hi := 9, fmt := 4, d0 := { site := 95, node := 9, port := 5 }, d1 := { site := 205, node := 27, port := 1 }
      ctl := { lituse := 2, pred := false, emit0 := 1, emit1 := 2, nullpass := true }, cf := 67, lit := 2853766873 }) := by rfl
theorem test_word_fsqrt : decode 0x49085082A0848010195A3330 = .ok (.fsqrt
    { hi := 0, fmt := 8, d0 := { site := 80, node := 16, port := 2 }, d1 := { site := 160, node := 16, port := 4 }
      ctl := { lituse := 2, pred := false, emit0 := 0, emit1 := 0, nullpass := false }, cf := 16, lit := 425341744 }) := by rfl
theorem test_word_frcp : decode 0x4AB56D59D70D7D59E687FA3B = .ok (.frcp
    { hi := 11, fmt := 5, d0 := { site := 109, node := 11, port := 1 }, d1 := { site := 215, node := 1, port := 5 }
      ctl := { lituse := 1, pred := true, emit0 := 3, emit1 := 2, nullpass := true }, cf := 89, lit := 3867671099 }) := by rfl
theorem test_word_frsq : decode 0x4BCEE4E03CA0071468370EFC = .ok (.frsq
    { hi := 12, fmt := 14, d0 := { site := 228, node := 28, port := 0 }, d1 := { site := 60, node := 20, port := 0 }
      ctl := { lituse := 0, pred := false, emit0 := 0, emit1 := 3, nullpass := true }, cf := 20, lit := 1748438780 }) := by rfl
theorem test_word_frcpa : decode 0x4CC64462DC248784D98D164C = .ok (.frcpa
    { hi := 12, fmt := 6, d0 := { site := 68, node := 12, port := 2 }, d1 := { site := 220, node := 4, port := 4 }
      ctl := { lituse := 2, pred := false, emit0 := 0, emit1 := 3, nullpass := true }, cf := 132, lit := 3649902156 }) := by rfl
theorem test_word_frsqa : decode 0x4DDEBBE941BD4F3F5B3C2B0D = .ok (.frsqa
    { hi := 13, fmt := 14, d0 := { site := 187, node := 29, port := 1 }, d1 := { site := 65, node := 23, port := 5 }
      ctl := { lituse := 1, pred := false, emit0 := 1, emit1 := 3, nullpass := true }, cf := 63, lit := 1530669837 }) := by rfl
theorem test_word_fexp2 : decode 0x4E52232D19798AD7BF198C55 = .ok (.fexp2
    { hi := 5, fmt := 2, d0 := { site := 35, node := 5, port := 5 }, d1 := { site := 25, node := 15, port := 1 }
      ctl := { lituse := 2, pred := false, emit0 := 1, emit1 := 1, nullpass := false }, cf := 215, lit := 3206122581 }) := by rfl
theorem test_word_flog2 : decode 0x4FADC6D0D270355EF2B751BA = .ok (.flog2
    { hi := 10, fmt := 13, d0 := { site := 198, node := 26, port := 0 }, d1 := { site := 210, node := 14, port := 0 }
      ctl := { lituse := 0, pred := true, emit0 := 2, emit1 := 2, nullpass := true }, cf := 94, lit := 4072100282 }) := by rfl
theorem test_word_fsinpi : decode 0x5094DF497DDD4DE31AA381B9 = .ok (.fsinpi
    { hi := 9, fmt := 4, d0 := { site := 223, node := 9, port := 1 }, d1 := { site := 125, node := 27, port := 5 }
      ctl := { lituse := 1, pred := false, emit0 := 1, emit1 := 2, nullpass := true }, cf := 227, lit := 446923193 }) := by rfl
theorem test_word_fcospi : decode 0x5142BC22646482AC038E2144 = .ok (.fcospi
    { hi := 4, fmt := 2, d0 := { site := 188, node := 4, port := 2 }, d1 := { site := 100, node := 12, port := 4 }
      ctl := { lituse := 2, pred := false, emit0 := 0, emit1 := 1, nullpass := false }, cf := 172, lit := 59646276 }) := by rfl
theorem test_word_ftanh : decode 0x52186789059D48BBF0A276C1 = .ok (.ftanh
    { hi := 1, fmt := 8, d0 := { site := 103, node := 17, port := 1 }, d1 := { site := 5, node := 19, port := 5 }
      ctl := { lituse := 1, pred := false, emit0 := 1, emit1 := 0, nullpass := false }, cf := 187, lit := 4037179073 }) := by rfl
theorem test_word_fscale : decode 0x53E72274E65277BA6AC9AC0E = .ok (.fscale
    { hi := 14, fmt := 7, d0 := { site := 34, node := 14, port := 4 }, d1 := { site := 230, node := 10, port := 2 }
      ctl := { lituse := 1, pred := true, emit0 := 2, emit1 := 3, nullpass := true }, cf := 186, lit := 1791601678 }) := by rfl
theorem test_word_fround : decode 0x54E712709650371A31B8E22E = .ok (.fround
    { hi := 14, fmt := 7, d0 := { site := 18, node := 14, port := 0 }, d1 := { site := 150, node := 10, port := 0 }
      ctl := { lituse := 0, pred := true, emit0 := 2, emit1 := 3, nullpass := true }, cf := 26, lit := 834200110 }) := by rfl
theorem test_word_fsgn : decode 0x55E78274E652777AC12E674E = .ok (.fsgn
    { hi := 14, fmt := 7, d0 := { site := 130, node := 14, port := 4 }, d1 := { site := 230, node := 10, port := 2 }
      ctl := { lituse := 1, pred := true, emit0 := 2, emit1 := 3, nullpass := true }, cf := 122, lit := 3241043790 }) := by rfl
theorem test_word_cvt : decode 0x60D6AB6BE13B0F4FCE294B3D = .ok (.cvt
    { hi := 13, fmt := 6, d0 := { site := 171, node := 13, port := 3 }, d1 := { site := 225, node := 7, port := 3 }
      ctl := { lituse := 0, pred := false, emit0 := 1, emit1 := 3, nullpass := true }, cf := 79, lit := 3458812733 }) := by rfl
theorem test_word_ftoi : decode 0x61299E920AB4B0A63A0C4E12 = .ok (.ftoi
    { hi := 2, fmt := 9, d0 := { site := 158, node := 18, port := 2 }, d1 := { site := 10, node := 22, port := 4 }
      ctl := { lituse := 2, pred := true, emit0 := 2, emit1 := 0, nullpass := false }, cf := 166, lit := 973884946 }) := by rfl
theorem test_word_itof : decode 0x62299E920AB4B0A63A0C4E12 = .ok (.itof
    { hi := 2, fmt := 9, d0 := { site := 158, node := 18, port := 2 }, d1 := { site := 10, node := 22, port := 4 }
      ctl := { lituse := 2, pred := true, emit0 := 2, emit1 := 0, nullpass := false }, cf := 166, lit := 973884946 }) := by rfl
theorem test_word_bxpack : decode 0x639C6FCB2D5B0D33372BE6A9 = .ok (.bxpack
    { hi := 9, fmt := 12, d0 := { site := 111, node := 25, port := 3 }, d1 := { site := 45, node := 11, port := 3 }
      ctl := { lituse := 0, pred := false, emit0 := 1, emit1 := 2, nullpass := true }, cf := 51, lit := 925623977 }) := by rfl
theorem test_word_bxunpk : decode 0x648C58C4C84245885FE3A318 = .ok (.bxunpk
    { hi := 8, fmt := 12, d0 := { site := 88, node := 24, port := 4 }, d1 := { site := 200, node := 8, port := 2 }
      ctl := { lituse := 1, pred := false, emit0 := 0, emit1 := 2, nullpass := true }, cf := 136, lit := 1608753944 }) := by rfl
theorem test_word_dot : decode 0x6573813BC3AB3A0D18DC7117 = .ok (.dot
    { hi := 7, fmt := 3, d0 := { site := 129, node := 7, port := 3 }, d1 := { site := 195, node := 21, port := 3 }
      ctl := { lituse := 0, pred := true, emit0 := 3, emit1 := 1, nullpass := false }, cf := 13, lit := 417100055 }) := by rfl
theorem test_word_lsum : decode 0x6610170D5519884B7F4C6F71 = .ok (.lsum
    { hi := 1, fmt := 0, d0 := { site := 23, node := 1, port := 5 }, d1 := { site := 85, node := 3, port := 1 }
      ctl := { lituse := 2, pred := false, emit0 := 1, emit1 := 0, nullpass := false }, cf := 75, lit := 2135715697 }) := by rfl
theorem test_word_lscan : decode 0x67186789059D48BBF0A276C1 = .ok (.lscan
    { hi := 1, fmt := 8, d0 := { site := 103, node := 17, port := 1 }, d1 := { site := 5, node := 19, port := 5 }
      ctl := { lituse := 1, pred := false, emit0 := 1, emit1 := 0, nullpass := false }, cf := 187, lit := 4037179073 }) := by rfl
theorem test_word_lmax : decode 0x68299E920AB4B0A63A0C4E12 = .ok (.lmax
    { hi := 2, fmt := 9, d0 := { site := 158, node := 18, port := 2 }, d1 := { site := 10, node := 22, port := 4 }
      ctl := { lituse := 2, pred := true, emit0 := 2, emit1 := 0, nullpass := false }, cf := 166, lit := 973884946 }) := by rfl
theorem test_word_lmin : decode 0x6908908000800090FD9D5AB0 = .ok (.lmin
    { hi := 0, fmt := 8, d0 := { site := 144, node := 16, port := 0 }, d1 := { site := 0, node := 16, port := 0 }
      ctl := { lituse := 0, pred := false, emit0 := 0, emit1 := 0, nullpass := false }, cf := 144, lit := 4254948016 }) := by rfl
theorem test_word_shuf : decode 0x6A6BBAB01E1032D2B2EA34D6 = .ok (.shuf
    { hi := 6, fmt := 11, d0 := { site := 186, node := 22, port := 0 }, d1 := { site := 30, node := 2, port := 0 }
      ctl := { lituse := 0, pred := true, emit0 := 2, emit1 := 1, nullpass := false }, cf := 210, lit := 3001693398 }) := by rfl
theorem test_word_bcast : decode 0x6BD64B6BE13B0F8F77C48FFD = .ok (.bcast
    { hi := 13, fmt := 6, d0 := { site := 75, node := 13, port := 3 }, d1 := { site := 225, node := 7, port := 3 }
      ctl := { lituse := 0, pred := false, emit0 := 1, emit1 := 3, nullpass := true }, cf := 143, lit := 2009370621 }) := by rfl
theorem test_word_iota : decode 0x6CD67B6BE13B0F6F22F6ED9D = .ok (.iota
    { hi := 13, fmt := 6, d0 := { site := 123, node := 13, port := 3 }, d1 := { site := 225, node := 7, port := 3 }
      ctl := { lituse := 0, pred := false, emit0 := 1, emit1 := 3, nullpass := true }, cf := 111, lit := 586608029 }) := by rfl
theorem test_word_lmask : decode 0x6D8C98C2284485084426CA98 = .ok (.lmask
    { hi := 8, fmt := 12, d0 := { site := 152, node := 24, port := 2 }, d1 := { site := 40, node := 8, port := 4 }
      ctl := { lituse := 2, pred := false, emit0 := 0, emit1 := 2, nullpass := true }, cf := 8, lit := 1143392920 }) := by rfl
theorem test_word_packc : decode 0x6E21EE14AA327016AB625562 = .ok (.packc
    { hi := 2, fmt := 1, d0 := { site := 238, node := 2, port := 4 }, d1 := { site := 170, node := 6, port := 2 }
      ctl := { lituse := 1, pred := true, emit0 := 2, emit1 := 0, nullpass := false }, cf := 22, lit := 2875348322 }) := by rfl
theorem test_word_unpackc : decode 0x6F52932B697B0AD7F6933D55 = .ok (.unpackc
    { hi := 5, fmt := 2, d0 := { site := 147, node := 5, port := 3 }, d1 := { site := 105, node := 15, port := 3 }
      ctl := { lituse := 0, pred := false, emit0 := 1, emit1 := 1, nullpass := false }, cf := 215, lit := 4136844629 }) := by rfl
theorem test_word_cmpfwd : decode 0x7010A70D5519888B28E7B431 = .ok (.cmpfwd
    { hi := 1, fmt := 0, d0 := { site := 167, node := 1, port := 5 }, d1 := { site := 85, node := 3, port := 1 }
      ctl := { lituse := 2, pred := false, emit0 := 1, emit1 := 0, nullpass := false }, cf := 139, lit := 686273585 }) := by rfl
theorem test_word_rankadmCandidate : decode 0x71BD6DD9D78D7DE98A9267EB = .ok (.rankadmCandidate
    { hi := 11, fmt := 13, d0 := { site := 109, node := 27, port := 1 }, d1 := { site := 215, node := 17, port := 5 }
      ctl := { lituse := 1, pred := true, emit0 := 3, emit1 := 2, nullpass := true }, cf := 233, lit := 2324850667 }) := by rfl
theorem test_word_ld : decode 0x8008108410700010B05090D0 = .ok (.ld
    { space := 0, ord := 0, fmt := 8, d0 := { site := 16, node := 16, port := 4 }, osite := 16, d1lo := 112
      ctl := { lituse := 0, pred := false, emit0 := 0, emit1 := 0, nullpass := false }, scope := 0, lsid := 16, prev := 176, seq := 80, next := 144, off := 208 }) := by rfl
theorem test_word_st : decode 0x81D3B13B83B53AE7511FBB57 = .ok (.st
    { space := 3, ord := 1, fmt := 3, d0 := { site := 177, node := 7, port := 3 }, osite := 131, d1lo := 181
      ctl := { lituse := 0, pred := true, emit0 := 3, emit1 := 1, nullpass := false }, scope := 7, lsid := 7, prev := 81, seq := 31, next := 187, off := 87 }) := by rfl
theorem test_word_ldx : decode 0x8224884468D80508F888A8C8 = .ok (.ldx
    { space := 0, ord := 2, fmt := 4, d0 := { site := 136, node := 8, port := 4 }, osite := 104, d1lo := 216
      ctl := { lituse := 0, pred := false, emit0 := 0, emit1 := 2, nullpass := true }, scope := 0, lsid := 8, prev := 248, seq := 136, next := 168, off := 200 }) := by rfl
theorem test_word_stx : decode 0x83FF39FBDB1D3FFF9957D34F = .ok (.stx
    { space := 3, ord := 3, fmt := 15, d0 := { site := 57, node := 31, port := 3 }, osite := 219, d1lo := 29
      ctl := { lituse := 0, pred := true, emit0 := 3, emit1 := 3, nullpass := true }, scope := 7, lsid := 31, prev := 153, seq := 87, next := 211, off := 79 }) := by rfl
theorem test_word_mnop : decode 0x84ADD6D4A22E355A168A725A = .ok (.mnop
    { space := 2, ord := 2, fmt := 13, d0 := { site := 214, node := 26, port := 4 }, osite := 162, d1lo := 46
      ctl := { lituse := 0, pred := true, emit0 := 2, emit1 := 2, nullpass := true }, scope := 2, lsid := 26, prev := 22, seq := 138, next := 114, off := 90 }) := by rfl
theorem test_word_fence : decode 0x8540E70B0503082107090D11 = .ok (.fence
    { space := 1, ord := 0, fmt := 0, d0 := { site := 231, node := 1, port := 3 }, osite := 5, d1lo := 3
      ctl := { lituse := 0, pred := false, emit0 := 1, emit1 := 0, nullpass := false }, scope := 1, lsid := 1, prev := 7, seq := 9, next := 13, off := 17 }) := by rfl
theorem test_word_order : decode 0x863EB4E08C54079CC4FC6CDC = .ok (.order
    { space := 0, ord := 3, fmt := 14, d0 := { site := 180, node := 28, port := 0 }, osite := 140, d1lo := 84
      ctl := { lituse := 0, pred := false, emit0 := 0, emit1 := 3, nullpass := true }, scope := 4, lsid := 28, prev := 196, seq := 252, next := 108, off := 220 }) := by rfl
theorem test_word_aadd : decode 0x87A57654B29E354AC6DA022A = .ok (.aadd
    { space := 2, ord := 2, fmt := 5, d0 := { site := 118, node := 10, port := 4 }, osite := 178, d1lo := 158
      ctl := { lituse := 0, pred := true, emit0 := 2, emit1 := 2, nullpass := true }, scope := 2, lsid := 10, prev := 198, seq := 218, next := 2, off := 42 }) := by rfl
theorem test_word_amin : decode 0x8852432939EF0AA583CD61F5 = .ok (.amin
    { space := 1, ord := 1, fmt := 2, d0 := { site := 67, node := 5, port := 1 }, osite := 57, d1lo := 239
      ctl := { lituse := 0, pred := false, emit0 := 1, emit1 := 1, nullpass := false }, scope := 5, lsid := 5, prev := 131, seq := 205, next := 97, off := 245 }) := by rfl
theorem test_word_amax : decode 0x89D3513B43F53AE791DF7B17 = .ok (.amax
    { space := 3, ord := 1, fmt := 3, d0 := { site := 81, node := 7, port := 3 }, osite := 67, d1lo := 245
      ctl := { lituse := 0, pred := true, emit0 := 3, emit1 := 1, nullpass := false }, scope := 7, lsid := 7, prev := 145, seq := 223, next := 123, off := 23 }) := by rfl
theorem test_word_aand : decode 0x8A1ABCA2E4BC02940C3484D4 = .ok (.aand
    { space := 0, ord := 1, fmt := 10, d0 := { site := 188, node := 20, port := 2 }, osite := 228, d1lo := 188
      ctl := { lituse := 0, pred := false, emit0 := 0, emit1 := 1, nullpass := false }, scope := 4, lsid := 20, prev := 12, seq := 52, next := 132, off := 212 }) := by rfl
theorem test_word_aor : decode 0x8B815E144AC63042CE525A62 = .ok (.aor
    { space := 2, ord := 0, fmt := 1, d0 := { site := 94, node := 2, port := 4 }, osite := 74, d1lo := 198
      ctl := { lituse := 0, pred := true, emit0 := 2, emit1 := 0, nullpass := false }, scope := 2, lsid := 2, prev := 206, seq := 82, next := 90, off := 98 }) := by rfl
theorem test_word_axor : decode 0x8CADD6D4A22E355A168A725A = .ok (.axor
    { space := 2, ord := 2, fmt := 13, d0 := { site := 214, node := 26, port := 4 }, osite := 162, d1lo := 46
      ctl := { lituse := 0, pred := true, emit0 := 2, emit1 := 2, nullpass := true }, scope := 2, lsid := 26, prev := 22, seq := 138, next := 114, off := 90 }) := by rfl
theorem test_word_axchg : decode 0x8DE53D5937213D6B4D638FBB = .ok (.axchg
    { space := 3, ord := 2, fmt := 5, d0 := { site := 61, node := 11, port := 1 }, osite := 55, d1lo := 33
      ctl := { lituse := 0, pred := true, emit0 := 3, emit1 := 2, nullpass := true }, scope := 3, lsid := 11, prev := 77, seq := 99, next := 143, off := 187 }) := by rfl
theorem test_word_acas : decode 0x8E2CD8C0F8C805182858B818 = .ok (.acas
    { space := 0, ord := 2, fmt := 12, d0 := { site := 216, node := 24, port := 0 }, osite := 248, d1lo := 200
      ctl := { lituse := 0, pred := false, emit0 := 0, emit1 := 2, nullpass := true }, scope := 0, lsid := 24, prev := 40, seq := 88, next := 184, off := 24 }) := by rfl
theorem test_word_acc : decode 0x8FD39139C3753AE7115FFB97 = .ok (.acc
    { space := 3, ord := 1, fmt := 3, d0 := { site := 145, node := 7, port := 1 }, osite := 195, d1lo := 117
      ctl := { lituse := 0, pred := true, emit0 := 3, emit1 := 1, nullpass := false }, scope := 7, lsid := 7, prev := 17, seq := 95, next := 251, off := 151 }) := by rfl
theorem test_word_wcfg : decode 0x90D3513B43F53AE791DF7B17 = .ok (.wcfg
    { space := 3, ord := 1, fmt := 3, d0 := { site := 81, node := 7, port := 3 }, osite := 67, d1lo := 245
      ctl := { lituse := 0, pred := true, emit0 := 3, emit1 := 1, nullpass := false }, scope := 7, lsid := 7, prev := 145, seq := 223, next := 123, off := 23 }) := by rfl
theorem test_word_wfull : decode 0x91A52652D27E354A267A22CA = .ok (.wfull
    { space := 2, ord := 2, fmt := 5, d0 := { site := 38, node := 10, port := 2 }, osite := 210, d1lo := 126
      ctl := { lituse := 0, pred := true, emit0 := 2, emit1 := 2, nullpass := true }, scope := 2, lsid := 10, prev := 38, seq := 122, next := 34, off := 202 }) := by rfl
theorem test_word_wempty : decode 0x9293BA303EF232C68AD66E06 = .ok (.wempty
    { space := 2, ord := 1, fmt := 3, d0 := { site := 186, node := 6, port := 0 }, osite := 62, d1lo := 242
      ctl := { lituse := 0, pred := true, emit0 := 2, emit1 := 1, nullpass := false }, scope := 6, lsid := 6, prev := 138, seq := 214, next := 110, off := 6 }) := by rfl
theorem test_word_ldp : decode 0x9300500240C00000C0404040 = .ok (.ldp
    { space := 0, ord := 0, fmt := 0, d0 := { site := 80, node := 0, port := 2 }, osite := 64, d1lo := 192
      ctl := { lituse := 0, pred := false, emit0 := 0, emit1 := 0, nullpass := false }, scope := 0, lsid := 0, prev := 192, seq := 64, next := 64, off := 64 }) := by rfl
theorem test_word_promote : decode 0x94938A301E1232C62A364E66 = .ok (.promote
    { space := 2, ord := 1, fmt := 3, d0 := { site := 138, node := 6, port := 0 }, osite := 30, d1lo := 18
      ctl := { lituse := 0, pred := true, emit0 := 2, emit1 := 1, nullpass := false }, scope := 6, lsid := 6, prev := 42, seq := 54, next := 78, off := 102 }) := by rfl
theorem test_word_xfer : decode 0xA0D6B3AD19F90A7D8371DF9F = .ok (.xfer
    { ctag := 53, hold := true, fill := false, d0 := { site := 179, node := 21, port := 5 }, d1 := { site := 25, node := 31, port := 1 }
      ctl := { lituse := 0, pred := false, emit0 := 1, emit1 := 1, nullpass := false }, pgn := 31, rsv := 1, mark := 33649, len := 57247 }) := by rfl
theorem test_word_xfers : decode 0xA1A0184078C005E0A6081A78 = .ok (.xfers
    { ctag := 40, hold := false, fill := false, d0 := { site := 24, node := 8, port := 0 }, d1 := { site := 120, node := 24, port := 0 }
      ctl := { lituse := 0, pred := false, emit0 := 0, emit1 := 2, nullpass := true }, pgn := 56, rsv := 0, mark := 42504, len := 6776 }) := by rfl
theorem test_word_pref : decode 0xA2B67B6BE13B0F1D8109DB87 = .ok (.pref
    { ctag := 45, hold := true, fill := false, d0 := { site := 123, node := 13, port := 3 }, d1 := { site := 225, node := 7, port := 3 }
      ctl := { lituse := 0, pred := false, emit0 := 1, emit1 := 3, nullpass := true }, pgn := 7, rsv := 1, mark := 33033, len := 56199 }) := by rfl
theorem test_word_pginit : decode 0xA300ED5B870B3DF95712751B = .ok (.pginit
    { sub := 0, d0 := { site := 237, node := 11, port := 3 }, d1 := { site := 135, node := 1, port := 3 }
      ctl := { lituse := 0, pred := true, emit0 := 3, emit1 := 2, nullpass := true }, cf := 249, obj := 1460827419 }) := by rfl
theorem test_word_pginitFree : decode 0xA3013B6D91390F8FE6B7F1FD = .ok (.pginitFree
    { sub := 1, d0 := { site := 59, node := 13, port := 5 }, d1 := { site := 145, node := 7, port := 1 }
      ctl := { lituse := 0, pred := false, emit0 := 1, emit1 := 3, nullpass := true }, cf := 143, obj := 3870814717 }) := by rfl
theorem test_word_pgadv : decode 0xA4126E920AB430C68ED9F072 = .ok (.pgadv
    { sub := 18, d0 := { site := 110, node := 18, port := 2 }, d1 := { site := 10, node := 22, port := 4 }
      ctl := { lituse := 0, pred := true, emit0 := 2, emit1 := 0, nullpass := false }, cf := 198, obj := 2396647538 }) := by rfl
theorem test_word_pgread : decode 0xA573459B0FCB38F181DF0C83 = .ok (.pgread
    { sub := 115, d0 := { site := 69, node := 19, port := 3 }, d1 := { site := 15, node := 25, port := 3 }
      ctl := { lituse := 0, pred := true, emit0 := 3, emit1 := 0, nullpass := false }, cf := 241, obj := 2178878595 }) := by rfl
theorem test_word_waitany : decode 0xA6DE4BEBE1BB0FDFCBC6A5ED = .ok (.waitany
    { hi := 13, fmt := 14, d0 := { site := 75, node := 29, port := 3 }, d1 := { site := 225, node := 23, port := 3 }
      ctl := { lituse := 0, pred := false, emit0 := 1, emit1 := 3, nullpass := true }, cf := 223, lit := 3418793453 }) := by rfl
theorem test_word_waitall : decode 0xA7E7D2709650373A8686848E = .ok (.waitall
    { hi := 14, fmt := 7, d0 := { site := 210, node := 14, port := 0 }, d1 := { site := 150, node := 10, port := 0 }
      ctl := { lituse := 0, pred := true, emit0 := 2, emit1 := 3, nullpass := true }, cf := 58, lit := 2256962702 }) := by rfl
theorem test_word_ffready : decode 0xA810770D551988AB7DB55691 = .ok (.ffready
    { hi := 1, fmt := 0, d0 := { site := 119, node := 1, port := 5 }, d1 := { site := 85, node := 3, port := 1 }
      ctl := { lituse := 2, pred := false, emit0 := 1, emit1 := 0, nullpass := false }, cf := 171, lit := 2109036177 }) := by rfl
theorem test_word_sclemit : decode 0xA918E78BA59B085B612CF1A1 = .ok (.sclemit
    { hi := 1, fmt := 8, d0 := { site := 231, node := 17, port := 3 }, d1 := { site := 165, node := 19, port := 3 }
      ctl := { lituse := 0, pred := false, emit0 := 1, emit1 := 0, nullpass := false }, cf := 91, lit := 1630335393 }) := by rfl
theorem test_word_wload : decode 0xAA7B91B9232D7AFDA5EF50E7 = .ok (.wload
    { hi := 7, fmt := 11, d0 := { site := 145, node := 23, port := 1 }, d1 := { site := 35, node := 5, port := 5 }
      ctl := { lituse := 1, pred := true, emit0 := 3, emit1 := 1, nullpass := false }, cf := 253, lit := 2783924455 }) := by rfl
theorem test_word_mma : decode 0xABBD2DDB878B3D89AE42BCCB = .ok (.mma
    { hi := 11, fmt := 13, d0 := { site := 45, node := 27, port := 3 }, d1 := { site := 135, node := 17, port := 3 }
      ctl := { lituse := 0, pred := true, emit0 := 3, emit1 := 2, nullpass := true }, cf := 137, lit := 2923609291 }) := by rfl
theorem test_word_accin : decode 0xACEFD2F096D037EA32846E9E = .ok (.accin
    { hi := 14, fmt := 15, d0 := { site := 210, node := 30, port := 0 }, d1 := { site := 150, node := 26, port := 0 }
      ctl := { lituse := 0, pred := true, emit0 := 2, emit1 := 3, nullpass := true }, cf := 234, lit := 847539870 }) := by rfl
theorem test_word_accout : decode 0xADFF99FB4BEB3F75EC78C0CF = .ok (.accout
    { hi := 15, fmt := 15, d0 := { site := 153, node := 31, port := 3 }, d1 := { site := 75, node := 29, port := 3 }
      ctl := { lituse := 0, pred := true, emit0 := 3, emit1 := 3, nullpass := true }, cf := 117, lit := 3967336655 }) := by rfl
theorem test_word_sysmodeEnter : decode 0xAE015E14AA32701651CF6862 = .ok (.sysmodeEnter
    { hi := 0, fmt := 1, d0 := { site := 94, node := 2, port := 4 }, d1 := { site := 170, node := 6, port := 2 }
      ctl := { lituse := 1, pred := true, emit0 := 2, emit1 := 0, nullpass := false }, cf := 22, lit := 1372547170 }) := by rfl
theorem test_word_sysmodeLeave : decode 0xAE18D78D5599885BD02053A1 = .ok (.sysmodeLeave
    { hi := 1, fmt := 8, d0 := { site := 215, node := 17, port := 5 }, d1 := { site := 85, node := 19, port := 1 }
      ctl := { lituse := 2, pred := false, emit0 := 1, emit1 := 0, nullpass := false }, cf := 91, lit := 3491779489 }) := by rfl
theorem test_word_cavjoinLocal : decode 0xC00013A9B9FD0A27820F0445 = .ok (.cavjoinLocal
    { sub := 0, d0 := { site := 19, node := 21, port := 1 }, d1 := { site := 185, node := 31, port := 5 }
      ctl := { lituse := 0, pred := false, emit0 := 1, emit1 := 1, nullpass := false }, cf := 39, obj := 2182022213 }) := by rfl
theorem test_word_cavjoinSegment : decode 0xC001CBED91B90F1FE4554CAD = .ok (.cavjoinSegment
    { sub := 1, d0 := { site := 203, node := 29, port := 5 }, d1 := { site := 145, node := 23, port := 1 }
      ctl := { lituse := 0, pred := false, emit0 := 1, emit1 := 3, nullpass := true }, cf := 31, obj := 3830795437 }) := by rfl
theorem test_word_cavjoinLeave : decode 0xC00221BBC32B3A3DBE7DF7A7 = .ok (.cavjoinLeave
    { sub := 2, d0 := { site := 33, node := 23, port := 3 }, d1 := { site := 195, node := 5, port := 3 }
      ctl := { lituse := 0, pred := true, emit0 := 3, emit1 := 1, nullpass := false }, cf := 61, obj := 3195926439 }) := by rfl
theorem test_word_cav : decode 0xC13A26D28274357E100B431A = .ok (.cav
    { sub := 58, d0 := { site := 38, node := 26, port := 2 }, d1 := { site := 130, node := 14, port := 4 }
      ctl := { lituse := 0, pred := true, emit0 := 2, emit1 := 2, nullpass := true }, cf := 126, obj := 269173530 }) := by rfl
theorem test_word_pacesetInit : decode 0xC2005FCDCD590D33A61F48A9 = .ok (.pacesetInit
    { sub := 0, d0 := { site := 95, node := 25, port := 5 }, d1 := { site := 205, node := 11, port := 1 }
      ctl := { lituse := 0, pred := false, emit0 := 1, emit1 := 2, nullpass := true }, cf := 51, obj := 2787068073 }) := by rfl
theorem test_word_pacesetLoad : decode 0xC201C32B697B0A5749C9C6D5 = .ok (.pacesetLoad
    { sub := 1, d0 := { site := 195, node := 5, port := 3 }, d1 := { site := 105, node := 15, port := 3 }
      ctl := { lituse := 0, pred := false, emit0 := 1, emit1 := 1, nullpass := false }, cf := 87, obj := 1237960405 }) := by rfl
theorem test_word_pacesetUpdate : decode 0xC202684228C4051894FAAEC8 = .ok (.pacesetUpdate
    { sub := 2, d0 := { site := 104, node := 8, port := 2 }, d1 := { site := 40, node := 24, port := 4 }
      ctl := { lituse := 0, pred := false, emit0 := 0, emit1 := 2, nullpass := true }, cf := 24, obj := 2499456712 }) := by rfl
theorem test_word_sweep : decode 0xC324EC226464028CAEC07EE4 = .ok (.sweep
    { sub := 36, d0 := { site := 236, node := 4, port := 2 }, d1 := { site := 100, node := 12, port := 4 }
      ctl := { lituse := 0, pred := false, emit0 := 0, emit1 := 1, nullpass := false }, cf := 140, obj := 2931850980 }) := by rfl
theorem test_word_paceq : decode 0xC40A3650D2F0356E9D1E22EA = .ok (.paceq
    { sub := 10, d0 := { site := 54, node := 10, port := 0 }, d1 := { site := 210, node := 30, port := 0 }
      ctl := { lituse := 0, pred := true, emit0 := 2, emit1 := 2, nullpass := true }, cf := 110, obj := 2635997930 }) := by rfl
theorem test_word_rulesetWrite : decode 0xC500B97DEB693FA55AA0965F = .ok (.rulesetWrite
    { sub := 0, d0 := { site := 185, node := 15, port := 5 }, d1 := { site := 235, node := 13, port := 1 }
      ctl := { lituse := 0, pred := true, emit0 := 3, emit1 := 3, nullpass := true }, cf := 165, obj := 1520473695 }) := by rfl
theorem test_word_rulesetClear : decode 0xC501AD5D37093D191AD3797B = .ok (.rulesetClear
    { sub := 1, d0 := { site := 173, node := 11, port := 5 }, d1 := { site := 55, node := 1, port := 1 }
      ctl := { lituse := 0, pred := true, emit0 := 3, emit1 := 2, nullpass := true }, cf := 25, obj := 450066811 }) := by rfl
theorem test_word_rulearmArm : decode 0xC60088C4C8420508B31A2C98 = .ok (.rulearmArm
    { sub := 0, d0 := { site := 136, node := 24, port := 4 }, d1 := { site := 200, node := 8, port := 2 }
      ctl := { lituse := 0, pred := false, emit0 := 0, emit1 := 2, nullpass := true }, cf := 8, obj := 3004837016 }) := by rfl
theorem test_word_rulearmDisarm : decode 0xC601D8C0784005C8787249D8 = .ok (.rulearmDisarm
    { sub := 1, d0 := { site := 216, node := 24, port := 0 }, d1 := { site := 120, node := 8, port := 0 }
      ctl := { lituse := 0, pred := false, emit0 := 0, emit1 := 2, nullpass := true }, cf := 200, obj := 2020755928 }) := by rfl
theorem test_word_coll : decode 0xC7A96650D2F035FA8022D9FE = .ok (.coll
    { ctag := 42, hold := false, fill := true, d0 := { site := 102, node := 10, port := 0 }, d1 := { site := 210, node := 30, port := 0 }
      ctl := { lituse := 0, pred := true, emit0 := 2, emit1 := 2, nullpass := true }, pgn := 62, rsv := 2, mark := 32802, len := 55806 }) := by rfl
theorem test_word_spawn : decode 0xC8941F497DDD4DC3C5D5DF59 = .ok (.spawn
    { hi := 9, fmt := 4, d0 := { site := 31, node := 9, port := 1 }, d1 := { site := 125, node := 27, port := 5 }
      ctl := { lituse := 1, pred := false, emit0 := 1, emit1 := 2, nullpass := true }, cf := 195, lit := 3319127897 }) := by rfl
theorem test_word_callocGrant : decode 0xC905E65282F4B58E60DF274A = .ok (.callocGrant
    { hi := 0, fmt := 5, d0 := { site := 230, node := 10, port := 2 }, d1 := { site := 130, node := 30, port := 4 }
      ctl := { lituse := 2, pred := true, emit0 := 2, emit1 := 2, nullpass := true }, cf := 142, lit := 1625237322 }) := by rfl
theorem test_word_callocEntry : decode 0xC910900000000080F9A39C80 = .ok (.callocEntry
    { hi := 1, fmt := 0, d0 := { site := 144, node := 0, port := 0 }, d1 := { site := 0, node := 0, port := 0 }
      ctl := { lituse := 0, pred := false, emit0 := 0, emit1 := 0, nullpass := false }, cf := 128, lit := 4188249216 }) := by rfl
theorem test_word_ret : decode 0xCAB59D59D70D7D3991BA57DB = .ok (.ret
    { hi := 11, fmt := 5, d0 := { site := 157, node := 11, port := 1 }, d1 := { site := 215, node := 1, port := 5 }
      ctl := { lituse := 1, pred := true, emit0 := 3, emit1 := 2, nullpass := true }, cf := 57, lit := 2444908507 }) := by rfl
theorem test_word_binit : decode 0xCB008AB01E1032F207B7D736 = .ok (.binit
    { sub := 0, d0 := { site := 138, node := 22, port := 0 }, d1 := { site := 30, node := 2, port := 0 }
      ctl := { lituse := 0, pred := true, emit0 := 2, emit1 := 1, nullpass := false }, cf := 242, obj := 129488694 }) := by rfl
theorem test_word_binitFree : decode 0xCB01C8C228440588975D5418 = .ok (.binitFree
    { sub := 1, d0 := { site := 200, node := 24, port := 2 }, d1 := { site := 40, node := 8, port := 4 }
      ctl := { lituse := 0, pred := false, emit0 := 0, emit1 := 2, nullpass := true }, cf := 136, obj := 2539475992 }) := by rfl
theorem test_word_barrive : decode 0xCC00BD5B870B3D19ABE0177B = .ok (.barrive
    { sub := 0, d0 := { site := 189, node := 11, port := 3 }, d1 := { site := 135, node := 1, port := 3 }
      ctl := { lituse := 0, pred := true, emit0 := 3, emit1 := 2, nullpass := true }, cf := 25, obj := 2883590011 }) := by rfl
theorem test_word_barriveTag : decode 0xCC01113D73A93A4D316B17D7 = .ok (.barriveTag
    { sub := 1, d0 := { site := 17, node := 7, port := 5 }, d1 := { site := 115, node := 21, port := 1 }
      ctl := { lituse := 0, pred := true, emit0 := 3, emit1 := 1, nullpass := false }, cf := 77, obj := 829102039 }) := by rfl
theorem test_word_bwait : decode 0xCD1791B9232D3AFDA5EF50E7 = .ok (.bwait
    { sub := 23, d0 := { site := 145, node := 23, port := 1 }, d1 := { site := 35, node := 5, port := 5 }
      ctl := { lituse := 0, pred := true, emit0 := 3, emit1 := 1, nullpass := false }, cf := 253, obj := 2783924455 }) := by rfl
theorem test_word_bdrop : decode 0xCE1791B9232D3AFDA5EF50E7 = .ok (.bdrop
    { sub := 23, d0 := { site := 145, node := 23, port := 1 }, d1 := { site := 35, node := 5, port := 5 }
      ctl := { lituse := 0, pred := true, emit0 := 3, emit1 := 1, nullpass := false }, cf := 253, obj := 2783924455 }) := by rfl
theorem test_word_btest : decode 0xCF00DE105A30307672518B82 = .ok (.btest
    { sub := 0, d0 := { site := 222, node := 2, port := 0 }, d1 := { site := 90, node := 6, port := 0 }
      ctl := { lituse := 0, pred := true, emit0 := 2, emit1 := 0, nullpass := false }, cf := 118, obj := 1917946754 }) := by rfl
theorem test_word_btestTicket : decode 0xCF01BA301E9032C2AEF076A6 = .ok (.btestTicket
    { sub := 1, d0 := { site := 186, node := 6, port := 0 }, d1 := { site := 30, node := 18, port := 0 }
      ctl := { lituse := 0, pred := true, emit0 := 2, emit1 := 1, nullpass := false }, cf := 194, obj := 2934994598 }) := by rfl
theorem test_word_qput : decode 0xE0CA565282F435AE0F3FB6AA = .ok (.qput
    { sub := 202, d0 := { site := 86, node := 10, port := 2 }, d1 := { site := 130, node := 30, port := 4 }
      ctl := { lituse := 0, pred := true, emit0 := 2, emit1 := 2, nullpass := true }, cf := 174, obj := 255833770 }) := by rfl
theorem test_word_qtake : decode 0xE1008AB01E1032F207B7D736 = .ok (.qtake
    { sub := 0, d0 := { site := 138, node := 22, port := 0 }, d1 := { site := 30, node := 2, port := 0 }
      ctl := { lituse := 0, pred := true, emit0 := 2, emit1 := 1, nullpass := false }, cf := 242, obj := 129488694 }) := by rfl
theorem test_word_qtakePoll : decode 0xE1016B6D91390F6F91EA4F9D = .ok (.qtakePoll
    { sub := 1, d0 := { site := 107, node := 13, port := 5 }, d1 := { site := 145, node := 7, port := 1 }
      ctl := { lituse := 0, pred := false, emit0 := 1, emit1 := 3, nullpass := true }, cf := 111, obj := 2448052125 }) := by rfl
theorem test_word_qstat : decode 0xE22D3B6D91390FEF3EB3C61D = .ok (.qstat
    { sub := 45, d0 := { site := 59, node := 13, port := 5 }, d1 := { site := 145, node := 7, port := 1 }
      ctl := { lituse := 0, pred := false, emit0 := 1, emit1 := 3, nullpass := true }, cf := 239, obj := 1051969053 }) := by rfl
theorem test_word_qmark : decode 0xE31CB4E03CA00734BD04B15C = .ok (.qmark
    { sub := 28, d0 := { site := 180, node := 28, port := 0 }, d1 := { site := 60, node := 20, port := 0 }
      ctl := { lituse := 0, pred := false, emit0 := 0, emit1 := 3, nullpass := true }, cf := 52, obj := 3171201372 }) := by rfl
theorem test_word_kstage : decode 0xE47F99FB4BEB3F75EC78C0CF = .ok (.kstage
    { sub := 127, d0 := { site := 153, node := 31, port := 3 }, d1 := { site := 75, node := 29, port := 3 }
      ctl := { lituse := 0, pred := true, emit0 := 3, emit1 := 3, nullpass := true }, cf := 117, obj := 3967336655 }) := by rfl
theorem test_word_kflip : decode 0xE5168AB01E1032F207B7D736 = .ok (.kflip
    { sub := 22, d0 := { site := 138, node := 22, port := 0 }, d1 := { site := 30, node := 2, port := 0 }
      ctl := { lituse := 0, pred := true, emit0 := 2, emit1 := 1, nullpass := false }, cf := 242, obj := 129488694 }) := by rfl
theorem test_word_kdrain : decode 0xE6006FCB2D5B0D33372BE6A9 = .ok (.kdrain
    { sub := 0, d0 := { site := 111, node := 25, port := 3 }, d1 := { site := 45, node := 11, port := 3 }
      ctl := { lituse := 0, pred := false, emit0 := 1, emit1 := 2, nullpass := true }, cf := 51, obj := 925623977 }) := by rfl
theorem test_word_kdrainPurge : decode 0xE60174E2DCA4075480C5B5BC = .ok (.kdrainPurge
    { sub := 1, d0 := { site := 116, node := 28, port := 2 }, d1 := { site := 220, node := 20, port := 4 }
      ctl := { lituse := 0, pred := false, emit0 := 0, emit1 := 3, nullpass := true }, cf := 84, obj := 2160440764 }) := by rfl
theorem test_word_kdrainPoll : decode 0xE6025082A08400B0C15E5F10 = .ok (.kdrainPoll
    { sub := 2, d0 := { site := 80, node := 16, port := 2 }, d1 := { site := 160, node := 16, port := 4 }
      ctl := { lituse := 0, pred := false, emit0 := 0, emit1 := 0, nullpass := false }, cf := 176, obj := 3244187408 }) := by rfl
theorem test_word_snap : decode 0xE7B29E920AB430A63A0C4E12 = .ok (.snap
    { sub := 178, d0 := { site := 158, node := 18, port := 2 }, d1 := { site := 10, node := 22, port := 4 }
      ctl := { lituse := 0, pred := true, emit0 := 2, emit1 := 0, nullpass := false }, cf := 166, obj := 973884946 }) := by rfl
theorem test_word_ctxpri : decode 0xE89A66D0D270359E9C52967A = .ok (.ctxpri
    { sub := 154, d0 := { site := 102, node := 26, port := 0 }, d1 := { site := 210, node := 14, port := 0 }
      ctl := { lituse := 0, pred := true, emit0 := 2, emit1 := 2, nullpass := true }, cf := 158, obj := 2622658170 }) := by rfl
theorem test_word_park : decode 0xE9AE8274E652377AC12E674E = .ok (.park
    { sub := 174, d0 := { site := 130, node := 14, port := 4 }, d1 := { site := 230, node := 10, port := 2 }
      ctl := { lituse := 0, pred := true, emit0 := 2, emit1 := 3, nullpass := true }, cf := 122, obj := 3241043790 }) := by rfl
theorem test_word_resume : decode 0xEA91278BA59B083B0C5F4F41 = .ok (.resume
    { sub := 145, d0 := { site := 39, node := 17, port := 3 }, d1 := { site := 165, node := 19, port := 3 }
      ctl := { lituse := 0, pred := false, emit0 := 1, emit1 := 0, nullpass := false }, cf := 59, obj := 207572801 }) := by rfl
theorem test_word_yield : decode 0xEB1791B9232D3AFDA5EF50E7 = .ok (.yield
    { sub := 23, d0 := { site := 145, node := 23, port := 1 }, d1 := { site := 35, node := 5, port := 5 }
      ctl := { lituse := 0, pred := true, emit0 := 3, emit1 := 1, nullpass := false }, cf := 253, obj := 2783924455 }) := by rfl
theorem test_word_sread : decode 0xF40F597DEB693FA5B433835F = .ok (.sread
    { sub := 15, d0 := { site := 89, node := 15, port := 5 }, d1 := { site := 235, node := 13, port := 1 }
      ctl := { lituse := 0, pred := true, emit0 := 3, emit1 := 3, nullpass := true }, cf := 165, obj := 3023274847 }) := by rfl
theorem test_word_swrite : decode 0xF59E82F4E6D237CA15307D3E = .ok (.swrite
    { sub := 158, d0 := { site := 130, node := 30, port := 4 }, d1 := { site := 230, node := 26, port := 2 }
      ctl := { lituse := 0, pred := true, emit0 := 2, emit1 := 3, nullpass := true }, cf := 202, obj := 355499326 }) := by rfl
theorem test_word_mpin : decode 0xECB4ACA414E202BC767B4174 = .ok (.mpin
    { sub := 180, d0 := { site := 172, node := 20, port := 4 }, d1 := { site := 20, node := 28, port := 2 }
      ctl := { lituse := 0, pred := false, emit0 := 0, emit1 := 1, nullpass := false }, cf := 188, obj := 1987789172 }) := by rfl
theorem test_word_munpin : decode 0xED9751BBC32B3A7DC1AC2967 = .ok (.munpin
    { sub := 151, d0 := { site := 81, node := 23, port := 3 }, d1 := { site := 195, node := 5, port := 3 }
      ctl := { lituse := 0, pred := true, emit0 := 3, emit1 := 1, nullpass := false }, cf := 125, obj := 3249285479 }) := by rfl
theorem test_word_minv : decode 0xEE00D6D4327235FE2BC81B9A = .ok (.minv
    { sub := 0, d0 := { site := 214, node := 26, port := 4 }, d1 := { site := 50, node := 14, port := 2 }
      ctl := { lituse := 0, pred := true, emit0 := 2, emit1 := 2, nullpass := true }, cf := 254, obj := 734534554 }) := by rfl
theorem test_word_minvContext : decode 0xEE0179F99BED3FD5225B58EF = .ok (.minvContext
    { sub := 1, d0 := { site := 121, node := 31, port := 1 }, d1 := { site := 155, node := 29, port := 5 }
      ctl := { lituse := 0, pred := true, emit0 := 3, emit1 := 3, nullpass := true }, cf := 213, obj := 576411887 }) := by rfl
theorem test_word_mprobe : decode 0xEF00C32B697B0AB7A1C59AF5 = .ok (.mprobe
    { sub := 0, d0 := { site := 195, node := 5, port := 3 }, d1 := { site := 105, node := 15, port := 3 }
      ctl := { lituse := 0, pred := false, emit0 := 1, emit1 := 1, nullpass := false }, cf := 183, obj := 2714082037 }) := by rfl
theorem test_word_mprobeRead : decode 0xEF01D70D5519080B7C1E3DB1 = .ok (.mprobeRead
    { sub := 1, d0 := { site := 215, node := 1, port := 5 }, d1 := { site := 85, node := 3, port := 1 }
      ctl := { lituse := 0, pred := false, emit0 := 1, emit1 := 0, nullpass := false }, cf := 11, obj := 2082356657 }) := by rfl
theorem test_word_mprobeReadClear : decode 0xEF02184078C005F877A6BD68 = .ok (.mprobeReadClear
    { sub := 2, d0 := { site := 24, node := 8, port := 0 }, d1 := { site := 120, node := 24, port := 0 }
      ctl := { lituse := 0, pred := false, emit0 := 0, emit1 := 2, nullpass := true }, cf := 248, obj := 2007416168 }) := by rfl
theorem test_word_trap : decode 0xF0B7C1B9232D3ADD5121AE87 = .ok (.trap
    { sub := 183, d0 := { site := 193, node := 23, port := 1 }, d1 := { site := 35, node := 5, port := 5 }
      ctl := { lituse := 0, pred := true, emit0 := 3, emit1 := 1, nullpass := false }, cf := 221, obj := 1361161863 }) := by rfl
theorem test_word_tret : decode 0xF1BF09FB4BEB3F3542DD7C0F = .ok (.tret
    { sub := 191, d0 := { site := 9, node := 31, port := 3 }, d1 := { site := 75, node := 29, port := 3 }
      ctl := { lituse := 0, pred := true, emit0 := 3, emit1 := 3, nullpass := true }, cf := 53, obj := 1121811471 }) := by rfl
theorem test_word_ftake : decode 0xF2003D59D70D3D793B559C9B = .ok (.ftake
    { sub := 0, d0 := { site := 61, node := 11, port := 1 }, d1 := { site := 215, node := 1, port := 5 }
      ctl := { lituse := 0, pred := true, emit0 := 3, emit1 := 2, nullpass := true }, cf := 121, obj := 995466395 }) := by rfl
theorem test_word_ftakeRetry : decode 0xF201C709051D086B430D73D1 = .ok (.ftakeRetry
    { sub := 1, d0 := { site := 199, node := 1, port := 1 }, d1 := { site := 5, node := 3, port := 5 }
      ctl := { lituse := 0, pred := false, emit0 := 1, emit1 := 0, nullpass := false }, cf := 107, obj := 1124955089 }) := by rfl
theorem test_word_ftakeDiscard : decode 0xF202932B697B0A779E976935 = .ok (.ftakeDiscard
    { sub := 2, d0 := { site := 147, node := 5, port := 3 }, d1 := { site := 105, node := 15, port := 3 }
      ctl := { lituse := 0, pred := false, emit0 := 1, emit1 := 1, nullpass := false }, cf := 119, obj := 2660722997 }) := by rfl
theorem test_word_ftakePeek : decode 0xF203908000800030A5A18690 = .ok (.ftakePeek
    { sub := 3, d0 := { site := 144, node := 16, port := 0 }, d1 := { site := 0, node := 16, port := 0 }
      ctl := { lituse := 0, pred := false, emit0 := 0, emit1 := 0, nullpass := false }, cf := 48, obj := 2778826384 }) := by rfl
theorem test_word_ptest : decode 0xF3085082A0848010195A3330 = .ok (.ptest
    { hi := 0, fmt := 8, d0 := { site := 80, node := 16, port := 2 }, d1 := { site := 160, node := 16, port := 4 }
      ctl := { lituse := 2, pred := false, emit0 := 0, emit1 := 0, nullpass := false }, cf := 16, lit := 425341744 }) := by rfl
theorem test_word_lstat : decode 0xF628184078C005B8279E65A8 = .ok (.lstat
    { sub := 40, d0 := { site := 24, node := 8, port := 0 }, d1 := { site := 120, node := 24, port := 0 }
      ctl := { lituse := 0, pred := false, emit0 := 0, emit1 := 2, nullpass := true }, cf := 184, obj := 664692136 }) := by rfl
theorem test_word_lctlTrain : decode 0xF7016B6D91390F6F91EA4F9D = .ok (.lctlTrain
    { sub := 1, d0 := { site := 107, node := 13, port := 5 }, d1 := { site := 145, node := 7, port := 1 }
      ctl := { lituse := 0, pred := false, emit0 := 1, emit1 := 3, nullpass := true }, cf := 111, obj := 2448052125 }) := by rfl
theorem test_word_lctlDown : decode 0xF702713D73A93A0D87CFD317 = .ok (.lctlDown
    { sub := 2, d0 := { site := 113, node := 7, port := 5 }, d1 := { site := 115, node := 21, port := 1 }
      ctl := { lituse := 0, pred := true, emit0 := 3, emit1 := 1, nullpass := false }, cf := 13, obj := 2278544151 }) := by rfl
theorem test_word_lctlReset : decode 0xF7038E94AAB230A6A8FFB012 = .ok (.lctlReset
    { sub := 3, d0 := { site := 142, node := 18, port := 4 }, d1 := { site := 170, node := 22, port := 2 }
      ctl := { lituse := 0, pred := true, emit0 := 2, emit1 := 0, nullpass := false }, cf := 166, obj := 2835329042 }) := by rfl
theorem test_word_lctlRoute : decode 0xF704E2F4E6D2372A1399645E = .ok (.lctlRoute
    { sub := 4, d0 := { site := 226, node := 30, port := 4 }, d1 := { site := 230, node := 26, port := 2 }
      ctl := { lituse := 0, pred := true, emit0 := 2, emit1 := 3, nullpass := true }, cf := 42, obj := 328819806 }) := by rfl
theorem test_word_lctlClearCounters : decode 0xF7058F4DCDD90D034D57E819 = .ok (.lctlClearCounters
    { sub := 5, d0 := { site := 143, node := 9, port := 5 }, d1 := { site := 205, node := 27, port := 1 }
      ctl := { lituse := 0, pred := false, emit0 := 1, emit1 := 2, nullpass := true }, cf := 3, obj := 1297606681 }) := by rfl
theorem test_word_lctlOwnNumber : decode 0xF70684603C2007440DD8958C = .ok (.lctlOwnNumber
    { sub := 6, d0 := { site := 132, node := 12, port := 0 }, d1 := { site := 60, node := 4, port := 0 }
      ctl := { lituse := 0, pred := false, emit0 := 0, emit1 := 3, nullpass := true }, cf := 68, obj := 232297868 }) := by rfl

/-! ## Witnesses: records as words, steps, firing -/

theorem test_wit_DecodingInvertsEncoding : (Instr.iadd (rn 2)).wf = true ∧ encode (.iadd (rn 2)) = some ((rn 2).bits 1) ∧
    decode ((rn 2).bits 1) = .ok (.iadd (rn 2)) := by decide +kernel

theorem test_wit_ReservedOpcodesAreRefused : Sys2Proof.opOf (0xFF00_0000_0000_0000_0000_0000) = 0xFF ∧
    Machine.opOf 0x1F00_0000_0000_0000_0000_0000 = 0x1F ∧ Machine.opOf 0xFE00_0000_0000_0000_0000_0000 = 0xFE := by decide +kernel

theorem test_wit_PortSetsHaveThreeSteps : reservedOp 0x0100_0000_0000_0000_0000_0000 = false ∧
    reservedOp 0x1F00_0000_0000_0000_0000_0000 = true ∧ portSet [0, 1] { k0 with lituse := 1, pred := true } = [0, 2] := by decide +kernel

/-- A state whose next move is the event of a panel's start, one whose next move issues, and one with no move left. -/
theorem test_wit_StepsRunTheNextMove : State.reset.sched = [.event .panelStart {}] ∧ encode .panelStart = none ∧
    eventAllowed State.reset .panelStart = true ∧
    ({ State.reset with sched := [] } : State).sched = [] ∧
    (State.reset.withFetchWord 96 0x0102_2400_FF00_4000_0000_0007).sched = [.issue 0 0] ∧
    (match pickIssue { State.reset.withFetchWord 96 0x0102_2400_FF00_4000_0000_0007 with sched := [] } 0 0 with
     | some (s1, m) => m.again == 0 && !recStruck s1 0 0 m.plane m.node &&
         recAt s1 0 0 m.plane m.node == 0x0102_2400_FF00_4000_0000_0007
     | none => false) = true ∧ pickIssue State.reset 0 0 = none := by decide +kernel

theorem test_wit_MemoriesStayCanonical : memWf [(3, 7), (9, 1)] = true ∧ memWf State.reset.mem = true ∧
    (match step State.reset with | .next _ => true | _ => false) = true := by decide +kernel

/-- A match without operands, one with a null under each NULLPASS, one with a false predicate, and a record with CF 1. -/
theorem test_wit_NullsAndIllegalFields :
    hasPorts (at_ 2 []).cur (portSet [0, 1] k0) = false ∧ hasPorts (at_ 2 (abc [1] [2] [0])).cur (portSet [0, 1] kp) = true ∧
    ¬ IntFields true (rn 2 0 0 1) ∧ IntFields true (rn 2) ∧ ¬ FltFields 6 (rn 2) ∧ FltFields 6 (rn 10) ∧
    LaneFields true false (rn 10) ∧ ¬ LaneFields true false (rn 10 0 0 1) ∧ badCtl [0, 1] kp = false ∧
    anyBlock (at_ 2 (abc [1] [2] [0])).cur [0, 1, 2] = false ∧ anyNull (at_ 2 (abc [1] [2] [0])).cur [0, 1, 2] = false ∧
    predFalse kp (at_ 2 (abc [1] [2] [0])).cur = true ∧
    anyNull (at_ 2 [(0, { tk [1] with null := true }), (1, tk [2])]).cur [0, 1] = true := by decide +kernel

theorem test_wit_ResultsAreSentUnderEmit : (at_ 2 []).cur.site < 240 ∧ ((ds 7).site.toNat < 246) ∧ (ds 255).site = 255 ∧
    grant? (at_ 2 []) 0 1 = none := by decide +kernel

/-- A colour with a grant of two lanes. -/
theorem test_wit_GrantsBoundResults :
    grant? (setColour (at_ 2 []) 0 1 { gstate := 1, gwm1 := 1 }) 0 1 = some 2 ∧ 2 < (tk [1, 2, 3]).lanes.length := by decide +kernel

theorem test_wit_TokensAreQueuedOrDiscarded : ({ tk [] with site := 255 } : Token).site = 255 ∧
    246 ≤ ({ tk [] with site := 246 } : Token).site.toNat ∧ ({ tk [] with site := 253 } : Token).site.toNat ≤ 253 ∧
    ({ tk [] with site := 245 } : Token).site.toNat < 246 := by decide +kernel

theorem test_wit_MailboxesHoldSixtyFour : (boxAt State.reset 0).entries.length < 64 ∧
    64 ≤ (boxAt { State.reset with boxes := [(0, { entries := List.replicate 64 default })] } 0).entries.length := by decide +kernel

theorem test_wit_FaultsAreReported : (at_ 2 []).cur.site ≠ 240 ∧ InBlock (inBlk []) blk ∧ blk.exc = none ∧
    InBlock (setScribe (at_ 240 []) 0 { cur := some { blk with exc := some 1 } }) { blk with exc := some 1 } := by decide +kernel

theorem test_wit_FiringFrame : encode (.iadd (rn 2)) = some ((rn 2).bits 1) ∧ Machine.opOf ((rn 2).bits 1) < 0x80 ∧
    (match exec (.iadd (rn 2)) (at_ 2 (abc [1] [2] [0])) with | .next _ => true | _ => false) = true := by decide +kernel

theorem test_wit_MemoryRecordFrame : encode (.ld (rm)) = some ((rm).bits 0x80) ∧ 0x80 ≤ Machine.opOf ((rm).bits 0x80) ∧
    Machine.opOf ((rm).bits 0x80) < 0xA0 ∧
    (match exec (.ld rm) (at_ 2 [(0, tk [0])]) with | .next _ => true | _ => false) = true := by decide +kernel

theorem test_wit_EventsAreSatisfied : 0 < recNev [0, 0x0000000100000000, 5] ∧ eventMet State.reset [0, 0x0000000100000000, 5] 0 = false := by
  decide +kernel

theorem test_wit_FloatsConvertToIntegers : (0 : BitVec 4).toNat < 8 ∧ ({ neg := true, m := 3, e := -1 } : Ex).sticky = false ∧
    ftoiV 2 0 0 (.fin { neg := true, m := 5, e := -1 }) = (0xFFFFFFFE, fNX) ∧ ftoiV 0 0 0 (.fin { neg := false, m := 128, e := 0 }) = (0x7F, fNV) ∧
    ftoiV 0 0 0 (.fin { neg := true, m := 129, e := 0 }) = (0x80, fNV) := by decide +kernel

theorem test_wit_RunendMarksOrTests : MoveFields true false (rn 0) ∧ MoveFields true false (rn 0 8) ∧ opx (rn 0 8) = true ∧
    Moves (at_ 2 (abc [1] [2] [3])) (formN (rn 0)) [0] := by decide +kernel

/-! ## Witnesses: class 0 -/

theorem test_wit_IntegerArithmeticWraps : IntFields true (rn 2) ∧ Takes (at_ 2 (abc [1] [2] [3])) (formN (rn 2)) 2 [0, 1] false ∧
    Takes (at_ 2 (abc [1] [2] [3])) (formN (rn 2)) 2 [0, 1, 2] false ∧ Takes (at_ 2 (abc [1] [2] [3])) (formN (rn 2)) 2 [0] false := by
  decide +kernel

theorem test_wit_IntegerArithmeticSaturates : IntFields true (rn 2 1) ∧
    Takes (at_ 2 (abc [1] [2] [3])) (formN (rn 2 1)) 2 [0, 1, 2] false := by decide +kernel

theorem test_wit_IntegerHighAndOrder : IntFields false (rn 7) ∧
    Takes (at_ 2 (abc [1, 2] [2, 3] [3, 4] 7)) (formN (rn 7)) 7 [0, 1, 2] false := by decide +kernel

theorem test_wit_ShiftLeftSaturates : IntFields true (rn 0 1) ∧ Takes (at_ 2 (abc [1] [2] [3])) (formN (rn 0 1)) 0 [0, 1] false := by
  decide +kernel

/-- A literal that supplies port b. -/
theorem test_wit_IntegerBitwiseAndShifts : IntFields false (rn 1 0 3 0 { k0 with lituse := 1 }) ∧
    Takes (at_ 2 [(0, tk [1])]) (formN (rn 1 0 3 0 { k0 with lituse := 1 })) 1 [0, 1] false := by decide +kernel

theorem test_wit_IntegerBitCounts : IntFields false (rn 5) ∧ Takes (at_ 2 [(0, tk [1])]) (formN (rn 5)) 5 [0] false := by decide +kernel

/-- A lane predicate beside the two operands. -/
theorem test_wit_IntegerDivides : IntFields false (rn 3 0 0 0 kp) ∧
    Takes (at_ 2 (abc [1, 0] [0, 0] [0, 1])) (formN (rn 3 0 0 0 kp)) 3 [0, 1] false := by decide +kernel

theorem test_wit_BitFields : 1 ≤ (rn 2 0 0 32).cf.toNat ∧ (rn 2 0 0 32).cf.toNat ≤ elemBits 2 ∧ 1 ≤ (rn 0 0 0 1).cf.toNat ∧
    Takes (at_ 2 (abc [1] [2] [3])) (formN (rn 2 0 0 32)) 2 [0, 1, 2] false := by decide +kernel

theorem test_wit_CompareAndSelect : (rn 2 5).hi.toNat ≤ 5 ∧ Takes (at_ 2 (abc [1] [2] [3])) (formN (rn 2 5)) 2 [0, 1] false ∧
    IntFields false (rn 2) ∧ Takes (at_ 2 (abc [1, 2] [2, 3] [3])) (formN (rn 2)) 2 [0, 1, 2] false := by decide +kernel

theorem test_wit_WideIntegers : (rn 2 0 0 7).cf.toNat < 8 ∧ Takes (at_ 2 (abc [1, 0] [2] [3])) (formN (rn 2 0 0 7)) 2 [0, 1] false ∧
    IntFields true (rn 2 1) ∧ (rn 2 1).fmt ≠ 3 ∧ (portTok (at_ 2 (abc [1] [2] [3] 6)).cur 0).ty.toNat < 8 ∧
    8 ≤ (portTok (at_ 2 (abc [1] [2] [3] 10)).cur 0).ty.toNat ∧ Takes (at_ 2 (abc [1] [2] [3] 10)) (formN (rn 2 1)) 2 [0] false := by
  decide +kernel

/-! ## Witnesses: class 1 -/

/-- A state whose kernel declares two levels of 8 and 4 bits. -/
def lay2 (site : Nat) (ops : List (Nat × Token)) : State := setPlane (at_ site ops) 0 0 { state := 3, layout := [8, 4] }

theorem test_wit_MovesPassTheirOperand : MoveFields false false (rn 0) ∧ Moves (at_ 2 (abc [1] [2] [3] 12)) (formN (rn 0)) [0] ∧
    MoveFields true false (rn 0 8) ∧ Moves (at_ 2 (abc [1] [2] [3])) (formN (rn 0 8)) [0] ∧ opx (rn 0 8) = true ∧
    Moves (at_ 2 (abc [1] [2] [3])) (formN (rn 0)) [0, 1] := by decide +kernel

theorem test_wit_SinkAndConst : MoveFields false false (rn 0) ∧ badCtl [0] k0 = false ∧ hasPorts (at_ 2 [(0, tk [1])]).cur (portSet [0] k0) = true ∧
    (rn 10).fmt.toNat ≤ 10 ∧ Takes (at_ 2 [(0, tk [1])]) (formN (rn 10)) 10 [0] false := by decide +kernel

/-- Values on both ports, and a null on a beside a value on b, with and without NULLPASS. -/
theorem test_wit_SteerFollowsItsBoolean : MoveFields true false (rn 0 8 0 0 kn) ∧ badCtl [0, 1] kn = false ∧
    anyNull (at_ 2 (abc [1] [2] [3])).cur (portSet [0, 1] k0) = false ∧ predFalse k0 (at_ 2 (abc [1] [2] [3])).cur = false ∧
    (portTok (at_ 2 [(0, { tk [1] with null := true }), (1, tk [1])]).cur 0).null = true ∧
    anyNull (at_ 2 [(0, { tk [1] with null := true }), (1, tk [1])]).cur ((portSet [0, 1] kn).filter (· != 0)) = false := by decide +kernel

/-- With OPX 0 the token of the port that is not selected is missing. -/
theorem test_wit_MergeSelectsOnePort : MoveFields true false (rn 0) ∧ badCtl [0, 1, 2] k0 = false ∧
    (∀ q ∈ portSet [0, 1, 2] k0, q = 2 ∨ q = 0 → (portTok? (at_ 2 [(0, tk [1]), (2, tk [1])]).cur q).isSome = true) ∧
    laneN (lanesP (rn 0) (at_ 2 [(0, tk [1]), (2, tk [1])]).cur 2) 0 ≠ 0 ∧
    (opTok (rn 0) (at_ 2 [(0, tk [1]), (2, tk [1])]).cur 2).null = false := by decide +kernel

theorem test_wit_LevelsEnterWaveLeave : MoveFields false true (rn 0 1) ∧ LevelOk (lay2 2 [(0, tk [1])]) (rn 0 1) ∧
    Moves (lay2 2 [(0, tk [1])]) (formN (rn 0 1 8)) [0] ∧ (rn 0 1 8).lit.toNat ≤ 2 ^ (levelWidth [8, 4] 1 - 1) := by decide +kernel

theorem test_wit_TagFieldsAreIndependent : [8, 4].sum ≤ 52 ∧ [52].sum ≤ 52 ∧ 1 < [8, 4].length ∧ 0 ≠ 1 := by decide

theorem test_wit_TagGetAndSet : MoveFields true (opx (rn 0)) (rn 0) ∧ MoveFields true (opx (rn 0 9)) (rn 0 9) ∧
    LevelOk (lay2 2 [(0, tk [1])]) (rn 0 9) ∧ Takes (lay2 2 [(0, tk [1])]) (formN (rn 0 9)) 6 [0] false ∧
    Takes (lay2 2 [(0, tk [1])]) (formN (rn 0)) 7 [0] false ∧ Moves (lay2 2 (abc [1] [2] [3])) (formN (rn 0)) [0, 1] := by decide +kernel

/-- An entry of the match's base with and without a credit left. -/
def thr1 (credits : Nat) (ops : List (Nat × Token)) : State :=
  setNib (lay2 2 ops) 0 2 { thr := [{ plane := 0, node := 0, base := baseTag (lay2 2 ops) 0 0 0x0010000000000000 0, credits := credits
                                      window := 2, eorSeen := false }] }

theorem test_wit_ThrottleSpendsACredit : MoveFields false true (rn 0) ∧ LevelOk (thr1 1 [(0, tk [1])]) (rn 0) ∧
    hasPorts (thr1 1 [(0, tk [1])]).cur [0] = true ∧ badCtl [0, 1] k0 = false ∧ k0.pred = false ∧
    (let f := fun s : State => idxOf (fun e : ThrEntry => e.plane == 0 && e.node == 0 &&
       e.base == baseTag s 0 0 s.cur.tag (levelOf (rn 0)) && decide (0 < e.credits)) (nibAt s 0 2).thr
     f (thr1 1 [(0, tk [1])]) = some 0 ∧ f (thr1 0 [(0, tk [1])]) = none) := by decide +kernel

/-- The word of a THROTTLE record, and a credit token for it on its way. -/
def wThrottle : Rec96 := (rn 0).bits 0x2A
def creditOn (thr : List ThrEntry) : State :=
  let s := setPanel State.reset 0 { started := true, planes := [(0, { state := 3, layout := [8, 4] })] }
  { setNib s 0 2 { store := [(1, wThrottle)], thr := thr } with
    transit := [{ p := 0, src := 6, queued := false
                  tok := { tk [3] with site := 2, node := 1, port := 1, tag := 0x0010000000000000 } }] }

theorem test_wit_ThrottleCreditOpensOrAdds :
    (let s := creditOn []
     ∀ f ∈ s.transit, f.queued = false ∧ isCredit s f = true ∧ behindOwn s 0 f = false ∧ entryLate s f = false ∧ isNib f.tok.site.toNat = true ∧
       entryShut s (matchCtx s 0 0 f.tok.tag) = false ∧ admits s 0 f.tok.tag = true ∧ planeRuns s 0 0 = true ∧
       (portsOf (recAt s 0 2 0 1)).contains 1 = true ∧ rowFree s 0 2 0 f.tok.tag = true) ∧
    (creditOn []).transit ≠ [] ∧
    (let e : ThrEntry := { plane := 0, node := 1, base := baseTag (creditOn []) 0 0 0x0010000000000000 (entryLevel wThrottle), credits := 1, window := 4
                           eorSeen := true }
     let s := creditOn [e]
     idxOf (fun x : ThrEntry => x.plane == 0 && x.node == 1 && x.base == e.base) (nibAt s 0 2).thr = some 0 ∧ e.credits + 3 = e.window) := by
  decide +kernel

theorem test_wit_RepeatSendsItsInvariant : MoveFields false true (rn 0) ∧ LevelOk (lay2 2 (abc [1] [2] [3])) (rn 0) ∧
    Moves (lay2 2 (abc [1] [2] [3])) (formN (rn 0)) [0, 1] := by decide +kernel

/-- N of 0, 256 and 257 against a level of 8 bits. -/
theorem test_wit_RangeStartsAGenerator : MoveFields false true (rn 6) ∧ LevelOk (lay2 2 [(0, tk [0])]) (rn 6) ∧
    Takes (lay2 2 [(0, tk [0])]) (formN (rn 6)) 6 [0] false ∧ laneN (portTok (lay2 2 [(0, tk [0])]).cur 0).lanes 0 = 0 ∧
    laneN (portTok (lay2 2 [(0, tk [256])]).cur 0).lanes 0 ≤ 2 ^ levelWidth [8, 4] 0 ∧
    2 ^ levelWidth [8, 4] 0 < laneN (portTok (lay2 2 [(0, tk [257])]).cur 0).lanes 0 := by decide +kernel

/-- A generator of three tokens at the first and at the last of them. -/
def genOn (next : Nat) : State :=
  let s := { setNib (lay2 2 []) 0 2 { gens := [{ plane := 0, node := 1, tag := 0x0010000000000000, level := 0, kind := .range 6 3, arg := tk [3]
                                                 next := next, d0 := ds 7, d1 := ds 255, ctl := k0, poison := false, last := 0 }] } with cycle := 5 }
  { s with sel := { p := 0, site := 2, k := 0 } }

theorem test_wit_GeneratorSendsTokenByToken :
    (∀ g ∈ (nibAt (genOn 0) 0 2).gens, g.kind = .range 6 3 ∧ g.last < (genOn 0).cycle) ∧ (nibAt (genOn 2) 0 2).gens ≠ [] ∧
    queueUsed (genOn 0) 0 2 + 1 ≤ 8 ∧ (∀ g ∈ (nibAt (genOn 0) 0 2).gens, genSlots (genOn 0) 0 2 g = true) ∧ gatedCtx (genOn 0) 0 2 (matchCtx (genOn 0) 0 0 0x0010000000000000) = false := by decide +kernel

/-! ## Witnesses: arrivals -/

/-- Panel 0 in tagged service with a LIVE plane 0 and colour 1 admitted, COPY in node 1 of nib 2, and a token for it on its way. -/
def livePanel : Panel :=
  { started := true, tested := true, tagged := true, planes := [(0, { state := 3, layout := [8, 4], ctx := 1 })], inj := some 0
    scribePlane := some 0, admit_ := [{ base := 1, lim := 1, ctx := 1, rows := 64 }] }
def wCopy : Rec96 := (rn 0).bits 0x20
def arriving (pn : Panel) (w : Rec96) (colour : Nat) (port : BitVec 3) : State :=
  { setNib (setPanel State.reset 0 pn) 0 2 { store := [(1, w)] } with
    ctxs := [(1, { state := 3, part := 1 })]
    cycle := 9
    transit := [{ p := 0, src := 4, queued := false
                  tok := { tk [3] with site := 2, node := 1, port := port, tag := BitVec.ofNat 64 (colour * 2 ^ 52) } }] }

/-- What the clauses of the claim ask of a state with one token on its way. -/
def arrives (s : State) : Bool :=
  s.transit.all (fun f => !isEauCredit f && !isCredit s f && !behindOwn s 0 f && !entryShut s (matchCtx s 0 0 f.tok.tag) && isNib f.tok.site.toNat)

theorem test_wit_TokenArrivalAtANib :
    arrives (arriving livePanel wCopy 2 0) = true ∧ admits (arriving livePanel wCopy 2 0) 0 (2 * 2 ^ 52) = false ∧
    arrives (arriving { livePanel with planes := [] } wCopy 1 0) = true ∧ planeRuns (arriving { livePanel with planes := [] } wCopy 1 0) 0 0 = false ∧
    arrives (arriving livePanel wCopy 1 3) = true ∧ (portsOf wCopy).contains 3 = false ∧
    arrives (arriving livePanel wCopy 1 0) = true ∧ admits (arriving livePanel wCopy 1 0) 0 (2 ^ 52) = true ∧ Machine.opOf wCopy ≠ opMerge ∧
    (nibAt (arriving livePanel wCopy 1 0) 0 2).groups.any (keyed (arriving livePanel wCopy 1 0) 0 (tk [3])) = false ∧
    planeRuns (arriving livePanel wCopy 1 0) 0 0 = true ∧ portsOf wCopy = [0] ∧ entryOp (Machine.opOf wCopy) = false ∧
    scaleOp (Machine.opOf wCopy) = false ∧ tagged (arriving livePanel wCopy 1 0) 0 = true ∧
    marked (nibAt (arriving livePanel wCopy 1 0) 0 2) (tk [3]) = false ∧
    readyRoom (nibAt (arriving livePanel wCopy 1 0) 0 2) 0 = true := by decide +kernel

/-- A match that a frame store in well 3 has completed for node 1 of nib 2. -/
def returning : State :=
  { setWell (arriving livePanel wCopy 1 0) 0 3 { returns := [(2, { plane := 0, node := 1, tag := 0, ops := [(0, tk [1])] })] } with
    sel := { p := 0, site := 3, k := 0 } }

theorem test_wit_FrameMatchJoinsReadyList :
    (wellAt returning 0 3).returns[0]? = some (2, { plane := 0, node := 1, tag := 0, ops := [(0, tk [1])] }) ∧
    takeScales 0 1 0 (scaleNeeds (Machine.opOf (recAt returning 0 2 0 1)) [(0, tk [1])]) (nibAt returning 0 2).scales [] = some ([], []) ∧
    readyRoom (nibAt returning 0 2) 0 = true := by decide +kernel

/-- A scale token for the scale port, and one for a BXUNPK of nib 2. -/
def scaleFor (site : Nat) : State :=
  { arriving livePanel ((rn 10).bits 0x64) 1 0 with
    scaleNet := [{ p := 0, tok := { payload := 0x0010000000000000, site := site, node := 1, plane := 0, poison := false } }] }

theorem test_wit_ScaleTokensAreStored :
    (panelAt (scaleFor 245) 0).portQ.length < 16 ∧ (scaleFor 245).scaleNet.length = 1 ∧
    isNib 2 = true ∧ admits (scaleFor 2) 0 (0x0010000000000000 &&& 0xFFFFFFFFFFF00000) = true ∧ planeRuns (scaleFor 2) 0 0 = true ∧
    scaleOp (Machine.opOf (recAt (scaleFor 2) 0 2 0 1)) = true ∧ (nibAt (scaleFor 2) 0 2).scales.length < 16 := by decide +kernel

theorem test_wit_ShareWindowStarts : isNib 2 = true ∧ (panelAt { State.reset with cycle := 256 } 0).startCycle < 256 ∧
    (256 - (panelAt { State.reset with cycle := 256 } 0).startCycle) % 256 = 0 := by decide +kernel

def delayedOn : State :=
  { setNib { State.reset with cycle := 20 } 0 2 { delayed := [{ plane := 0, node := 1, tag := 0, due := 18, sends := [], flags := 1 }] } with
    sel := { p := 0, site := 2, k := 0 } }

theorem test_wit_DelayedResultsAreDelivered : (nibAt delayedOn 0 2).delayed.length = 1 ∧
    (nibAt delayedOn 0 2).delayed.all (fun d => decide (d.due ≤ delayedOn.cycle)) = true := by decide +kernel

/-! ## Witnesses: blocks and traps -/

theorem test_wit_ReadSendsARegister : MoveFields false false (rn 7 0 63) ∧ (rn 7 0 63).lit.toNat < 64 ∧
    Takes (inBlk []) (formN (rn 7 0 63)) 7 [] false ∧ Takes (inBlk []) (formN (rn 2 0 0)) 2 [] false := by decide +kernel

theorem test_wit_BlockRecordsAreCounted : (inBlk [(4, tk [1, 2])]).cur.site = 240 ∧ (scribeAt (inBlk [(4, tk [1, 2])]) 0).cur = some blk ∧
    MoveFields false false (rn 7 0 63) ∧ (qWidth 7).isSome = true ∧ badCtl [4] k0 = false ∧ badCtl [5] k0 = false ∧
    hasPorts (inBlk [(4, tk [1, 2])]).cur (portSet [4] k0) = true ∧ (portTok (inBlk [(4, tk [1, 2])]).cur 4).poison = false ∧
    anyBlock (inBlk [(4, tk [1, 2])]).cur (portSet [4] k0) = false ∧ anyBlock (inBlk [(5, tk [0])]).cur (portSet [5] k0) = false ∧
    (portTok (inBlk [(5, tk [0])]).cur 5).poison = false ∧ hasPorts (inBlk [(5, tk [0])]).cur (portSet [5] k0) = true ∧
    levelOf (rn 0 0 65535) = 0 ∧ (rn 0 0 65535).lit.toNat < 65536 := by decide +kernel

/-- A kernel of two blocks in the scribe plane; block 0 is a header and one NOP. -/
def kernel2 (next : Nat) (tstat : Word64) : State :=
  setScribe (setPanel State.reset 0 { livePanel with planes := [(0, { state := 3, blocks := 2 })] }) 0
    { blocks := [(blockKey 0 0 0, 0xFF00_0000_0000_0000_0000_0000)], next := next, resting := false, tstat := tstat }

theorem test_wit_BlocksAreEntered : (panelAt (kernel2 0 0) 0).scribePlane = some 0 ∧ mayEnter (kernel2 0 0) 0 0 = true ∧ blockCount (kernel2 0 0) 0 = 2 ∧
    takeIn (kernel2 0 0) 0 { plane := 0, index := 0, header := 0xFF00_0000_0000_0000_0000_0000 } = none ∧
    mayEnter (kernel2 2 0) 0 0 = true ∧ thand (scribeAt (kernel2 2 0) 0) = false ∧
    mayEnter (kernel2 2 0x0020000000000000) 0 0 = true ∧ thand (scribeAt (kernel2 2 0x0020000000000000) 0) = true ∧
    mayEnter (setScribe (kernel2 0 0) 0 { resting := true }) 0 0 = false := by decide +kernel

/-- The state in which scribe 0 holds block `b`; block 0 has one record, the given word. -/
def running (w : Rec96) (b : Block) (stack : List Nat) (tstat : Word64 := 0) (tretb : Word64 := 0) : State :=
  setScribe (kernel2 0 0) 0
    { blocks := tsetD [(blockKey 0 0 0, 0xFF00_0000_0000_0000_0000_0000)] (blockKey 0 0 1) w 0, cur := some b, next := 1, stack := stack
      resting := false, tstat := tstat, tretb := tretb }
def blk1 : Block := { plane := 0, index := 0, header := 0xFF00_0000_0000_0000_0000_0000, fired := [0] }
def wBranch : Rec96 := (rn 0 0 1).bits 0x33
def exitOf (op : Nat) (lit : BitVec 32) (o : Bool) (x : Lane) : Block := { blk1 with exits := [(0, op, lit, o, x)] }
def ready1 (s : State) (b : Block) : Bool := blockDone s 0 b && !blockWaits s 0 b && !gatedCtx s 0 240 (planeOf s 0 0).ctx && b.exc.isNone

theorem test_wit_BlocksCommitOrFail :
    gatedCtx (running wCopy { blk1 with exc := some 1 } []) 0 240 0 = false ∧
    blockDone (running wBranch blk1 []) 0 blk1 = false ∧
    ready1 (running wCopy blk1 []) blk1 = true ∧ isFinal (running wCopy blk1 []) 0 blk1 = true ∧
    isFinal (running wBranch (exitOf 0x33 1 false 0) []) 0 (exitOf 0x33 1 false 0) = false ∧
    ready1 (running wBranch (exitOf 0x33 1 false 0) []) (exitOf 0x33 1 false 0) = true ∧
    ready1 (running wBranch (exitOf 0x33 0 true 1) []) (exitOf 0x33 0 true 1) = true ∧
    ready1 (running wBranch (exitOf 0x34 0x10001 false 0) (List.replicate 15 0)) (exitOf 0x34 0x10001 false 0) = true ∧
    ready1 (running wBranch (exitOf 0x34 0x10001 false 0) (List.replicate 16 0)) (exitOf 0x34 0x10001 false 0) = true ∧
    ready1 (running wBranch (exitOf 0x35 0 false 0) [1]) (exitOf 0x35 0 false 0) = true ∧
    ready1 (running wBranch (exitOf 0x35 0 false 0) []) (exitOf 0x35 0 false 0) = true ∧
    holdsTret (exitOf 0x33 1 false 0) = false := by decide +kernel

def tretBlk : Block := { exitOf 0x33 1 false 0 with held := [{ i := .tret (rs), cur := {} }] }

theorem test_wit_BlocksCommitOrFail_tret : holdsTret tretBlk = true ∧ tretBad (running wBranch tretBlk []) 0 tretBlk = true ∧
    tretBad (running wBranch tretBlk [] 0x0020000000000000 0xFFFF) 0 tretBlk = false ∧
    ready1 (running wBranch tretBlk [] 0x0020000000000000 0xFFFF) tretBlk = true := by decide +kernel

theorem test_wit_TrapEntryAndReturn : (scribeAt (setScribe State.reset 0 { exact := some (1, 2, 65535) }) 0).exact = some (1, 2, 65535) ∧
    (scribeAt State.reset 0).exact = none ∧ (scribeAt State.reset 0).resting = true ∧
    (scribeAt (setScribe State.reset 0 { resting := false, next := 3 }) 0).resting = false ∧
    (scribeAt (setScribe State.reset 0 { tretb := 0xFFFF }) 0).tretb.toNat % 2 ^ 16 = 0xFFFF := by decide +kernel

/-- One pending trap of each kind, and none. -/
theorem test_wit_TrapsAreOrdered : (scribeAt (setScribe State.reset 0 { exact := some (1, 2, 3) }) 0).exact = some (1, 2, 3) ∧
    (scribeAt (setScribe State.reset 0 { trapPend := some 7 }) 0).trapPend = some 7 ∧
    (scribeAt (setScribe State.reset 0 { latePend := true, late := 1 }) 0).late ≠ 0 ∧
    (let s := setScribe { State.reset with boxes := [(0, { entries := [{ cause := 5 }] })] } 0 { tenable := 0x20 }
     (boxAt s 0).entries.find? (fun e => e.ctx == 0 && bit (scribeAt s 0).tenable.toNat e.cause) = some { cause := 5 }) ∧
    (∀ e ∈ (boxAt State.reset 0).entries, ¬ (e.ctx = 0 ∧ bit (scribeAt State.reset 0).tenable.toNat e.cause = true)) := by decide +kernel

/-! ## Witnesses: classes 2 and 3 -/

theorem test_wit_FloatRecordsComplete : FltFields 6 (rn 10 5) ∧ FltFields 2 (rn 8 1) ∧ FltFields 8 (rn 9 7) ∧ FltFields 1 (rn 10) ∧ FltFields 3 (rn 10 2) ∧
    Takes (at_ 2 (abc [1] [2] [3])) (formN (rn 10 5)) 10 [0, 1, 2] false ∧ Takes (at_ 2 (abc [1] [2] [3])) (formN (rn 8 1)) 8 [0, 1] false ∧
    Takes (at_ 2 (abc [1] [2] [3])) (formN (rn 9 7)) 9 [0, 1] false ∧ Takes (at_ 2 (abc [1] [2] [3])) (formN (rn 10)) 10 [0] false := by decide +kernel

theorem test_wit_SpecialFunctionsComplete : (rn 10).hi = 0 ∧ Takes (at_ 2 (abc [1] [2] [3])) (formN (rn 10)) 10 [0, 1] false ∧
    Takes (at_ 2 (abc [1] [2] [3])) (formN (rn 10)) 10 [0] false := by decide +kernel

theorem test_wit_RoundingKeepsRepresentableValues : isFloatTy 8 = true ∧ 0x8001 < 2 ^ fltBits 8 ∧
    fread 8 0x8001 = .fin { neg := true, m := 1, e := -24 } := by decide +kernel

theorem test_wit_RoundedResultsAreExactWithoutNX : isFloatTy 10 = true ∧ 0 ≤ 5 ∧
    (({ neg := false, m := 3, e := 0 } : Ex).m = 0 → ({ neg := false, m := 3, e := 0 } : Ex).sticky = false) ∧
    (rnd 10 0 0 { neg := false, m := 3, e := 0 }).2 &&& fNX = 0 := by decide +kernel

theorem test_wit_ConversionsComplete : LaneFields false true (rn 10 5) ∧ LaneFields false true (rn 2 1) ∧
    Takes (at_ 2 (abc [1] [2] [3] 8)) (formN (rn 10 5)) 10 [0] false ∧ isFloatTy (portTok (at_ 2 (abc [1] [2] [3] 8)).cur 0).ty = true ∧
    Takes (at_ 2 (abc [1] [2] [3] 2)) (formN (rn 10 5)) 10 [0] false ∧ isFloatTy (portTok (at_ 2 (abc [1] [2] [3] 2)).cur 0).ty = false ∧
    Takes (at_ 2 (abc [1] [2] [3] 8)) (formN (rn 2 1)) 2 [0] false ∧ Takes (at_ 2 (abc [1] [2] [3] 2)) (formN (rn 2 1)) 2 [0] false := by decide +kernel

theorem test_wit_BlocksPackAndUnpack : LaneFields false true (rn 12) ∧ isBlockTy (rn 12).fmt = true ∧
    Takes (at_ 2 (abc [1] [2] [3] 10)) (formN (rn 12)) 12 [0] false ∧ lanePred k0 (at_ 2 (abc [1] [2] [3] 10)).cur = none ∧
    Takes (at_ 2 (abc [1, 2, 3] [2] [3] 12)) (formN (rn 10)) 10 [0] true ∧ 0 < blockCountW 12 3 ∧ blockCountW 12 3 ≤ 2 * (rn 10 0 0 1).cf.toNat ∧
    isFloatTy (portTok (at_ 2 (abc [1] [2] [3] 10)).cur 0).ty = true := by decide +kernel

theorem test_wit_DotAccumulatesInOrder : LaneFields false false (rn 10) ∧ Takes (at_ 2 (abc [1] [2] [3] 8)) (formN (rn 10)) 10 [0, 1, 2] true ∧
    isFloatTy (portTok (at_ 2 (abc [1] [2] [3] 8)).cur 0).ty = true ∧ isFloatTy (portTok (at_ 2 (abc [1] [2] [3])).cur 0).ty = false := by decide +kernel

theorem test_wit_SumsAndScans : LaneFields true false (rn 2 8) ∧ LaneFields true false (rn 10) ∧
    Takes (at_ 2 (abc [1, 2] [2] [3])) (formN (rn 2 8)) 2 [0] false ∧ Takes (at_ 2 (abc [1, 2] [2] [3])) (formN (rn 10)) 10 [0] false := by decide +kernel

theorem test_wit_LaneExtremes : 0 < (portTok (at_ 2 (abc [1, 2] [2] [3])).cur 0).lanes.length / lanesPer 7 ∧
    Takes (at_ 2 (abc [1, 2] [2] [3])) (formN (rn 7 8)) 7 [0] false ∧ LaneFields true false (rn 7 8) := by decide +kernel

theorem test_wit_FloatLaneExtremes : isFloatTy (rn 9).fmt = true ∧ Takes (at_ 2 (abc [1, 2] [2] [3])) (formN (rn 9)) 9 [0] false ∧
    0 < (portTok (at_ 2 (abc [1, 2] [2] [3])).cur 0).lanes.length := by decide +kernel

theorem test_wit_LaneMovesComplete : LaneFields true false (rn 0 8) ∧ Takes (at_ 2 (abc [1, 2] [0] [3])) (formN (rn 0 8)) 0 [0, 1] true ∧
    bits (rn 0 0 0x1F1F).lit.toNat 7 5 = 0 ∧ bits (rn 0 0 0x1F1F).lit.toNat 31 13 = 0 ∧ Takes (at_ 2 (abc [1] [2] [3])) (formN (rn 0 0 0x1F1F)) 0 [0] true ∧
    bits (rn 5 0 0x1FFFFF).lit.toNat 31 21 = 0 ∧ Takes (at_ 2 (abc [1] [2] [3])) (formN (rn 5 0 0x1FFFFF)) 5 [0] false ∧
    bits (rn 6 0 31).lit.toNat 31 5 = 0 ∧ Takes (at_ 2 (abc [1] [2] [3])) (formN (rn 6 0 31)) 6 [0] false ∧ (portTok (at_ 2 (abc [1] [2] [3])).cur 0).ty = 6 ∧
    LaneFields true false (rn 6 0 31) ∧ LaneFields false false (rn 5 0 0x1FFFFF) ∧ lanesPer 5 = 1 := by decide +kernel

theorem test_wit_PackAndUnpackColours : hasPorts (at_ 2 (abc [1] [2] [3])).cur (portSet [0, 1] k0) = true ∧
    (portTok (at_ 2 (abc [1] [2] [3])).cur 0).lanes.length + (portTok (at_ 2 (abc [1] [2] [3])).cur 1).lanes.length ≤ 32 ∧
    Takes (at_ 2 (abc [1, 2, 3] [2] [3])) (formN (rn 0 8 2)) 0 [0] true ∧ 0 < (rn 0 8 2).lit.toNat ∧
    (rn 0 8 2).lit.toNat < (portTok (at_ 2 (abc [1, 2, 3] [2] [3])).cur 0).lanes.length ∧
    (let s := setColour (at_ 2 (abc [1, 2, 3] [2] [3])) 0 1 { pk := true, gwm1 := 2, split := 1, partner := 2 }
     (colourAt s 0 (colourOf s.cur.tag)).pk = true ∧ (portTok s.cur 0).lanes.length = (colourAt s 0 1).gwm1 + 1 ∧ (colourAt s 0 1).partner < 4096 ∧
     colourOf (portTok s.cur 0).tag ≠ colourOf ({ tk [2] with tag := 0x0020000000000000 } : Token).tag ∧ (colourAt (at_ 2 []) 0 0).pk = false ∧ partOf s (matchCtx s 0 0 s.cur.tag) = 0) := by decide +kernel

theorem test_wit_CompareForwardSendsTheWinner : LaneFields true false (rn 10 8) ∧
    Takes (at_ 2 (abc [1, 0, 0, 0] [1, 1, 1, 0] [3])) (formN (rn 10 8)) 10 [0, 1] false ∧
    ranksAbove 10 (elem 10 [1, 1, 1, 0] 0) (laneN [1, 1, 1, 0] 1) (elem 10 [1, 0, 0, 0] 0) (laneN [1, 0, 0, 0] 1) = false ∧
    ranksAbove 10 (elem 10 [1, 0, 0, 0] 0) (laneN [1, 0, 0, 0] 1) (elem 10 [1, 1, 1, 0] 0) (laneN [1, 1, 1, 0] 1) = true := by decide +kernel

/-- A table with room, and one that is full. -/
def rank (n : Nat) : State :=
  setNib (lay2 2 [(0, tk [5, 9] 10)]) 0 2
    { ranks := [{ plane := 0, node := 0, base := baseTag (lay2 2 []) 0 0 0x0010000000000000 0, counted := n
                  entries := (List.range n).map (fun k => tk [BitVec.ofNat 32 (100 + k), BitVec.ofNat 32 k] 10) }] }

theorem test_wit_RankAdmission : badRank (rank 1) (rn 10 0 2) = false ∧ anyBlock (rank 1).cur (portSet [0] k0) = false ∧ k0.pred = false ∧
    anyNull (rank 1).cur (portSet [0] k0) = false ∧ predFalse k0 (rank 1).cur = false ∧ hasPorts (rank 1).cur (portSet [0] k0) = true ∧
    (∀ e ∈ (rankTable (nibAt (rank 2) 0 2) 0 0 (baseTag (rank 2) 0 0 0x0010000000000000 0)).entries,
      candAbove 10 e { tk [5, 9] 10 with tag := 0x0010000000000000 } = true ∨ candAbove 10 { tk [5, 9] 10 with tag := 0x0010000000000000 } e = true) ∧
    (rankTable (nibAt (rank 2) 0 2) 0 0 (baseTag (rank 2) 0 0 0x0010000000000000 0)).entries.length = 2 ∧
    (rankTable (nibAt (rank 1) 0 2) 0 0 (baseTag (rank 1) 0 0 0x0010000000000000 0)).entries.length < 2 := by decide +kernel

theorem test_wit_RankAdmission_batch :
    (let s := setNib (rank 2) 0 2 { nibAt (rank 2) 0 2 with
        store := [(1, (rn 10 0 2).bits 0x71)], sticky := [{ plane := 0, node := 1, base := 0, tok := tk [0] }] }
     (nibAt s 0 2).sticky.length = 1 ∧ decode (recAt s 0 2 0 1) = .ok (.rankadmCandidate (rn 10 0 2)) ∧
     isBlockTy (tk [0]).ty = false ∧ laneN (tk [0]).lanes 0 ≤ (rankTable (nibAt s 0 2) 0 1 0).counted) := by decide +kernel

/-! ## Witnesses: memory -/

/-- A load with fields that are admitted, at a nib and in a block, and a store of a block. -/
theorem test_wit_MemoryRecordsIssueAnAccess : hasPorts (at_ 2 (abc [0] [1] [2])).cur (portSet (basePorts 0x80) k0) = true ∧
    memBad (at_ 2 (abc [0] [1] [2])) 0x80 rm = none ∧ memBad (at_ 2 (abc [0] [1] [2])) 0x81 rm = none ∧
    memBad (at_ 2 (abc [0] [1] [2])) 0x8E rm = none ∧ memBad (at_ 2 (abc [0] [1] [2])) 0x85 { rm with fmt := 0 } = none ∧
    memBad (at_ 2 (abc [0] [1] [2])) 0x90 rm = none ∧ memBad (at_ 2 (abc [0, 1] [1] [2])) 0x8F rm = none ∧
    memBad (at_ 2 (abc [0] [1] [2])) 0x93 { rm with fmt := 10 } = none ∧
    memBad (at_ 2 (abc [0] [1] [2])) 0x94 { rm with osite := 241, space := 1, ord := 1, scope := 2 } = none ∧
    (inBlk (abc [0] [1] [2])).cur.site = 240 ∧ (scribeAt (inBlk (abc [0] [1] [2])) 0).cur = some blk ∧
    memBad (inBlk (abc [0] [1] [2])) 0x81 { rm with lsid := 31 } = none ∧ memBad (inBlk (abc [0] [1] [2])) 0x84 { rm with fmt := 0 } = none ∧
    anyNull (at_ 2 (abc [0, 1] [1] [2])).cur (portSet [0, 1] k0) = false := by decide +kernel

theorem test_wit_MemoryRecordsAreChecked : ({ rm with d1lo := 1 } : RecM).d1lo ≠ 0 ∧ 6 ≤ ({ rm with scope := 6 } : RecM).scope.toNat ∧
    14 ≤ ({ rm with fmt := 14 } : RecM).fmt.toNat ∧ isWell 2 = false ∧ isEau 2 = false ∧
    memBad (at_ 2 (abc [0, 0] [1] [2])) 0x80 { rm with osite := 241, space := 2 } = some cPERMISSION ∧
    privOf (at_ 2 (abc [0, 0] [1] [2])) (matchCtx (at_ 2 (abc [0, 0] [1] [2])) 0 0 0x0010000000000000) = 0 ∧
    memBad (at_ 2 [(0, { tk [0] with poison := true })]) 0x80 rm = some cPOISON := by decide +kernel

/-- An access of record `r` at well 1 of panel 0, of tag 1. -/
def acc1 (op : Nat) (r : RecM) (a : List Lane := [0]) : Access :=
  { id := 7, op := op, r := r, p := 0, site := 2, plane := 0, node := 1, tag := 0x0010000000000000, ctx := 0
    a := some (tk a), b := some (tk [5]), c := none, isNull := false }
def waits1 (r : RecM) (chains : List Chain) : State :=
  { setObuf State.reset 0 1 { chains := chains, waiting := [acc1 0x80 r] } with sel := { p := 0, site := 1, k := 0 } }
def chain1 (seq next : Nat) : Chain :=
  { tag := 0x0010000000000000, last := some (seq, next), outst := [], closed := next == 0xFE, discard := false, hold := none }

/-- The first record of a tag, one that does not begin a chain, the next by NEXT, the next by PREV, and one out of its turn. -/
theorem test_wit_OrderBufferReleasesInChainOrder : gatedCtx (waits1 rm []) 0 1 0 = false ∧
    openChain (obufAt (waits1 rm []) 0 1) 0x0010000000000000 = none ∧ (rm).seq = 0 ∧ ({ rm with seq := 3 } : RecM).seq ≠ 0 ∧
    openChain (obufAt (waits1 { rm with seq := 3 } [chain1 0 3]) 0 1) 0x0010000000000000 = some 0 ∧
    (chain1 0 3).last = some (0, 3) ∧ ({ rm with seq := 3 } : RecM).seq.toNat = 3 ∧
    ({ rm with seq := 5, prev := 0 } : RecM).prev.toNat = 0 ∧
    ¬ ((({ rm with seq := 4, prev := 9 } : RecM).seq ≠ 0 ∧ ({ rm with seq := 4, prev := 9 } : RecM).prev.toNat = 0) ∨
       ({ rm with seq := 4, prev := 9 } : RecM).seq.toNat = 3) := by decide +kernel

/-- Well 1 with configuration word `cfg` and state `x`, and a released access at it. -/
def atWell (cfg : BitVec 128) (x : Well) (a : Access) : State :=
  { setObuf (setWell State.reset 0 1 { x with cfg := cfg }) 0 1 { released := [a] } with sel := { p := 0, site := 1, k := 0 } }
/-- MODE 1 with one buffer of 32 bytes, MODE 2, MODE 3, MODE 6. -/
def cfg1 : BitVec 128 := 1 <<< 125
def cfg2 : BitVec 128 := 2 <<< 125 ||| 127 <<< 47
def cfg3 : BitVec 128 := 3 <<< 125

def reaches (s : State) (a : Access) : Bool :=
  isWell a.r.osite.toNat && !isSkew s 0 1 && canPerform (obufAt s 0 1) a && wellAdmits s a &&
    !(wellAt s 0 1).pend.any (fun c => c.plane == some a.plane) && !a.r.ord.getLsbD 1 && a.r.osite == 1 &&
    !a.isNull && !a.heldFault && !started a && (obufAt s 0 1).released == [a] && a.p == s.sel.p && s.sel.site == 1 && s.sel.k == 0

theorem test_wit_WellAccessPerforms :
    reaches (atWell cfg1 {} (acc1 0x81 rm)) (acc1 0x81 rm) = true ∧ wellMode (wellAt (atWell cfg1 {} (acc1 0x81 rm)) 0 1) = 1 ∧
    (List.range (elemCount (acc1 0x81 rm))).any (fun j => decide (524288 ≤ rawAddr (acc1 0x81 rm) j)) = false ∧
    misaligned (acc1 0x81 rm) = none ∧
    (bytePlan (acc1 0x81 rm)).find? (fun y => decide (bufCount { cfg := cfg1 } * bufBytes { cfg := cfg1 } ≤ y.2)) = none ∧
    planSectors (acc1 0x81 rm) = [0] ∧
    (bufsOf { cfg := cfg1 } (acc1 0x81 rm)).any (fun i => (fullSeen State.reset { cfg := cfg1 }).contains i) = false ∧
    reaches (atWell cfg1 { full := [0] } (acc1 0x80 rm)) (acc1 0x80 rm) = true ∧
    (bufsOf { cfg := cfg1, full := [0] } (acc1 0x80 rm)).any (fun i => !(fullSeen State.reset { cfg := cfg1, full := [0] }).contains i) = false ∧
    reaches (atWell cfg2 { fifo := [{ lanes := [4], ty := 6, null := false, poison := false, eor := true }] } (acc1 0x80 rm)) (acc1 0x80 rm) = true ∧
    reaches (atWell cfg2 {} (acc1 0x81 rm)) (acc1 0x81 rm) = true ∧ wellMode { cfg := cfg2 } = 2 ∧ 1 ≤ fifoFree { cfg := cfg2 } ∧
    accPred (acc1 0x81 rm) = none ∧
    reaches (atWell cfg3 {} (acc1 0x92 rm)) (acc1 0x92 rm) = true ∧ wellMode { cfg := cfg3 } = 3 ∧
    laneN (aLanes (acc1 0x92 rm)) 0 < bufCount { cfg := cfg3 } ∧
    reaches (atWell cfg3 {} (acc1 0x91 rm)) (acc1 0x91 rm) = true ∧ ({ cfg := cfg3 } : Well).full.contains 0 = false := by decide +kernel

/-- A released access of well 1 that has set out, and its one sector's request at a generator of the well. -/
def piece1 (op arb : Nat) : State :=
  let a := { acc1 op rm with left := some [0] }
  { atWell cfg1 { full := if op = 0x80 then [0] else [] } a with cycle := 9, sel := { k := arb }, reqs := [pieceReq State.reset a 0 0 0 [arb]] }

theorem test_wit_WellSectorsArePerformed :
    tgetD (piece1 0x81 (arbWell 0 1)).served (arbWell 0 1 * 128 + 127) 0 ≠ 10 ∧ choose (piece1 0x81 (arbWell 0 1)) (arbWell 0 1) = some 0 ∧
    pieceAccess (piece1 0x81 (arbWell 0 1)) 0 1 7 = some { acc1 0x81 rm with left := some [0] } ∧
    choose (piece1 0x80 (arbRead 0 1)) (arbRead 0 1) = some 0 ∧ ositeOf (acc1 0x80 rm) = 1 ∧ isWell 1 = true ∧
    pieceAccess (piece1 0x80 (arbRead 0 1)) 0 1 7 = some { acc1 0x80 rm with left := some [0] } ∧
    wellMode (wellAt (piece1 0x80 (arbRead 0 1)) 0 1) = 1 := by decide +kernel

theorem test_wit_WellAccessFaults : isOrdering 0x80 = false ∧ reaches (atWell 0 {} (acc1 0x80 rm)) (acc1 0x80 rm) = true ∧ isSkew State.reset 0 1 = false ∧ canPerform (obufAt (atWell 0 {} (acc1 0x80 rm)) 0 1) (acc1 0x80 rm) = true ∧
    wellAdmits (atWell 0 {} (acc1 0x80 rm)) (acc1 0x80 rm) = true ∧ wellMode (wellAt (atWell 0 {} (acc1 0x80 rm)) 0 1) = 0 ∧
    wellAdmits (setPanel (atWell 0 { owner := some 3 } (acc1 0x80 rm)) 0 livePanel) (acc1 0x80 rm) = false := by decide +kernel

theorem test_wit_WellStoreChangesItsBytesOnly : memWf (State.reset).wmem = true ∧
    (∀ y ∈ [((0 : Nat), (5 : Byte)), (1, 6)], wellAddr 0 1 y.1 ≠ 3) ∧
    ([((0 : Nat), (5 : Byte)), (1, 6)].filter (fun z => z.1 == 1)).length = 1 := by decide +kernel

theorem test_wit_MemoryReadsWhatWasWritten : memWf [(3, 7), (9, 1)] = true ∧ memWf [(3, 0)] = false ∧ memWf [(9, 1), (3, 7)] = false := by
  decide +kernel

/-- A well with an accepted word, of a flip and of a WCFG. -/
def pendCfg (a : Option Access) : PendCfg := { word := cfg1, ctx := 1, acc := a, plane := none }

theorem test_wit_ConfigurationTakesEffect :
    (wellAt (setWell State.reset 0 1 { pend := [pendCfg none] }) 0 1).pend = [pendCfg none] ∧
    (wellAt (setWell State.reset 0 1 { pend := [pendCfg (some (acc1 0x90 rm))] }) 0 1).pend = [pendCfg (some (acc1 0x90 rm))] ∧
    wellMode (wellAt (setWell State.reset 0 1 { pend := [pendCfg none] }) 0 1) ≠ 5 ∧
    wellPending (setWell State.reset 0 1 { pend := [pendCfg none] }) 0 1 (pendCfg none) = false ∧
    wellPending (setWell State.reset 0 1 { pend := [pendCfg (some (acc1 0x90 rm))] }) 0 1 (pendCfg (some (acc1 0x90 rm))) = false ∧
    ({} : Well).frames = [] ∧ ({} : Well).cavs = [] ∧ State.reset.pins = [] := by decide +kernel

/-- Addends of index 0 of 1, 0 of 2 and 1 of 2, and one of index 2 of 2. -/
def addend (idx cnt : BitVec 32) : State :=
  let a := { acc1 0x8F rm [0, cnt ||| (0 <<< 16)] with tag := 0x0010000000000000 ||| (idx.setWidth 64 <<< 44) }
  { lay2 2 [] with addends := [(1, 0, a)] }

theorem test_wit_AddendsApplyInIndexOrder :
    (∀ x ∈ (addend 0 1).addends, x.2.2.racc = none ∧ countWord x.2.2 % 65536 = 1 ∧ addendIdx (addend 0 1) x.2.2 = 0) ∧
    (∀ x ∈ (addend 1 2).addends, countWord x.2.2 % 65536 = 2 ∧ addendIdx (addend 1 2) x.2.2 = 1) ∧
    (∀ x ∈ (addend 2 2).addends, countWord x.2.2 % 65536 ≤ addendIdx (addend 2 2) x.2.2) ∧
    (addend 0 1).accSlots = [] ∧ (addend 0 1).sel.k = 0 ∧ (addend 0 1).addends.length = 1 ∧ (addend 1 2).addends.length = 1 ∧
    (addend 2 2).addends.length = 1 ∧ (addend 0 1).addends.all (fun x => x.2.2.reply.isNone) = true := by decide +kernel

/-- A request whose next arbiter is an L2 bank's fill, and one that an arbiter serves. -/
def reqAt (f : Nat) : State :=
  { State.reset with cycle := 400, reqs := [{ kind := .piece 0 241 7 0 0, path := [f], born := 0, ctx := 0, issuer := 0, addr := 0, ctag := 64 }]
                     sel := { k := f } }

/-- A load released at the page window of well 1 that lacks its sector. -/
def window1 : State :=
  atWell (5 <<< 125) {} { acc1 0x80 rm with left := some [0], pas := [(0, 0, 0)] }

theorem test_wit_FillsServiceAndWalks :
    (match (obufAt window1 0 1).released with
     | a :: _ => ((a.left.getD []).find? (fun k => mustHold a k && (slotHolds (wellAt window1 0 1) k).isNone && !filling window1 0 1 k) == some 0) &&
         a.combining == false && wellMode (wellAt window1 0 1) == 5 && placeAt a 0 == 0
     | [] => false) = true ∧ (takeSlot window1 0 1 0 (paOfGa 0)).isSome = true ∧
    (let s := { reqAt (6 * 65536) with sel := {} }
     s.reqs.length = 1 ∧ lineRoom s 0 (gaOf s 0) = true ∧ lineRoom s (homeDie (gaOf s 0)) (gaOf s 0) = true) ∧
    choose (reqAt 3) 3 = some 0 ∧ tgetD (reqAt 3).served (3 * 128 + 127) 0 ≠ (reqAt 3).cycle + 1 ∧
    (let s : State := { State.reset with served := [(3 * 128 + 127, 1)], sel := { k := 3 } }
     tgetD s.served (s.sel.k * 128 + 127) 0 = s.cycle + 1 ∧ s.sel.k / 65536 ≠ 2) ∧
    (let s : State := { State.reset with walks := [{ die := 0, ctx := 1, va := 0, p := 0, site := 1, fin := some (.leaf 3) }] }
     s.walks[s.sel.k]?.any (fun w => w.fin == some (.leaf 3)) = true) := by decide +kernel

/-! ## Witnesses: transfers, counters, waits -/

theorem test_wit_TransfersIssue : (rt 2).rsv = 0 ∧ Supplied (at_ 2 [(0, tk [0])]) (rt 2).ctl [0] ∧
    (portTok (at_ 2 [(0, { tk [0] with poison := true })]).cur 0).poison = true ∧ InBlock (inBlk [(0, tk [0])]) blk ∧
    ctagTaken (inBlk [(0, tk [0])]) 0 2 = false ∧ (shiftDesc (inBlk [(0, tk [0])]) (inBlk [(0, tk [0])]).cur [0]).isSome = true ∧
    ActsNow (at_ 2 [(0, tk [0])]) ∧ tagFree (setScribe (at_ 2 [(0, tk [0])]) 0 { busy := 4 }) 0 2 = false ∧
    tagFree (at_ 2 [(0, tk [0])]) 0 2 = true := by decide +kernel

/-- A transfer with one sector request that has passed its arbiters. -/
def xferOn (x : Xfer) : State :=
  { State.reset with xfers := [x], cycle := 5
                     reqs := [{ kind := .xferSector 9 0 0, path := [], born := 1, ctx := 0, issuer := 0, addr := 0, ctag := 2 }] }
def xf (len : BitVec 16) : Xfer :=
  { id := 9, op := opXfer, p := 0, site := 2, plane := 0, node := 1, tag := 0, ctx := 0, r := rt 2 0 len, desc := [], cpanel := 0, born := 0
    doneCount := 0, stopped := false, freed := false, flagged := false, fifo := [] }

theorem test_wit_TransferSectorsComplete : xferOf (xferOn (xf 0)) 9 = some (xf 0) ∧ (xf 0).stopped = false ∧ (xf 0).arr = none ∧ (xf 0).r.len = 0 ∧
    xferOf (xferOn { xf 1 with stopped := true }) 9 = some { xf 1 with stopped := true } ∧ (xf 1).r.len ≠ 0 ∧
    xferOf (xferOn { xf 1 with arr := some (default, 3) }) 9 = some { xf 1 with arr := some (default, 3) } := by decide +kernel

def pgOn (x : Pg) : State := setPg (at_ 2 [(0, tk [5, 6])]) 0 3 x

theorem test_wit_ProgressCounters : (rs 0 63).obj.toNat < 64 ∧ Supplied (pgOn {}) (rs 0 3).ctl [0] ∧ (pgAt (pgOn {}) 0 3).alloc = false ∧
    (pgAt (pgOn { alloc := true, colour := 1 }) 0 3).colour = colourOf (pgOn {}).cur.tag ∧
    (pgAt (pgOn { alloc := true, colour := 2 }) 0 3).colour ≠ colourOf (pgOn {}).cur.tag ∧ Clean (pgOn {}) ∧
    (pgAt (pgOn { alloc := true, ctx := 0 }) 0 3).ctx = matchCtx (pgOn {}) 0 0 (pgOn {}).cur.tag ∧
    (pgAt (pgOn { alloc := true, ctx := 5 }) 0 3).ctx ≠ matchCtx (pgOn {}) 0 0 (pgOn {}).cur.tag := by decide +kernel

theorem test_wit_PulsesUpdateCounters : (State.reset).cycle % pulseP State.reset 0 = 0 ∧ (panelAt State.reset 0).lastPulse ≠ (State.reset).cycle + 1 ∧
    pulsed { State.reset with ctxs := [(0, { state := 3 })] } { alloc := true } = true ∧ pulsed State.reset (pgAt State.reset 0 3) = false := by decide +kernel

def doneOn (d : Word64) : State := setScribe (at_ 2 [(0, tk [1]), (1, tk [5])]) 0 { done := d }

theorem test_wit_CompletionWaits : Takes (doneOn 1) (formN (rn 0)) 6 [0, 1] false ∧ waitMask (rn 0) (doneOn 1).cur = 5 ∧
    (scribeAt (doneOn 1) 0).done &&& 5 = 1 ∧ (scribeAt (doneOn 5) 0).done &&& 5 = 5 ∧ (scribeAt (doneOn 2) 0).done &&& 5 = 0 ∧
    waitMask (rn 0) (at_ 2 [(0, tk [1]), (1, tk [0])]).cur = 0 := by decide +kernel

theorem test_wit_ScaleTokensAreSent : sclDestOk (at_ 2 [(0, tk [1, 2] 5)]).cur { ds 4 with port := 3 } = true ∧ emits k0.emit0 true = true ∧
    (rn 5 1 0 6).cf.toNat + (portTok (at_ 2 [(0, tk [1, 2] 5)]).cur 0).lanes.length ≤ 8 ∧
    (let x : ScaleTok := { payload := 0x0010000000000000, site := 245, node := 1, plane := 0, poison := false }
     let pn : Panel := { inj := some 0, portQ := [x], sprt := [(1, 0x0000000000110200)] }
     (panelAt (setPanel { State.reset with ctxs := [(1, { colbase := 1, collim := 1 })] } 0 pn) 0).portQ = [x] ∧
     (tgetD pn.sprt x.node 0).getLsbD 16 = true ∧ isNib (destOfBits ((tgetD pn.sprt x.node 0).extractLsb' 0 16)).site.toNat = true ∧
     queueLen State.reset 0 245 < 8) := by decide +kernel

/-! ## Witnesses: arrays -/

/-- The late match of a SYSMODE over rows 2 to 6 and columns 2 to 8, and the array that it forms. -/
def sysLate : State := lateRec [(0, tk [0x26280000])]
def arr1 : SysArray := { p := 0, y0 := 2, y1 := 6, x0 := 2, x1 := 8, ty := 12 }

theorem test_wit_ArraysAreFormedAndLeft : arrTyOk (rn 12).fmt = true ∧ Supplied sysLate k0 [0] ∧
    sysRect sysLate sysLate.cur = some (2, 6, 2, 8) ∧ enterBad sysLate 0 2 6 2 8 = false ∧
    (cellSites 2 6 2 8).any (mmaPending sysLate 0) = false ∧ arrayAt { sysLate with arrays := [arr1] } 0 2 6 2 8 = some 0 ∧
    InBlock (inBlk [(0, tk [0x26280000])]) blk ∧ sysBad (inBlk [(0, tk [0x26280000])]) (inBlk [(0, tk [0x26280000])]).cur false = false ∧
    sysBad (inBlk [(0, tk [0x62280000])]) (inBlk [(0, tk [0x62280000])]).cur false = true ∧
    sysBad { inBlk [(0, tk [0x26280000])] with arrays := [arr1] } (inBlk [(0, tk [0x26280000])]).cur true = false := by decide +kernel

/-- Matches at the cells s34 (row 0, west edge) and s98 (row 2, south edge) of the array. -/
def cellAt (site : Nat) (ops : List (Nat × Token)) : State := { lay2 site ops with arrays := [arr1] }
def chunk : List Lane := List.replicate 24 1

theorem test_wit_WeightChunksLoad : cellOf (cellAt 34 []) 0 34 = some (0, 0, 0) ∧ Takes (cellAt 34 (abc chunk [3] [] 12)) (formN (rn 12)) 6 [0, 1] true ∧
    chunk.length = 8 * blockLanes 12 ∧ 15 < 32 * arrK 12 / chunkElems 12 ∧ reading arr1 0 false = false ∧
    reading { arr1 with passes := [{ tag := 0, j := 0, level := 0, wb := false, plane := 0, rows := [], complete := true, accin := none
                                     cols := [], colour := 1 }] } 0 false = true := by decide +kernel

theorem test_wit_ArrayRecordsComplete : (rn 12 1 3).hi.toNat % 8 < (layoutOf (cellAt 34 []) 0 0).length ∧ rowFired arr1 0x0010000000000000 0 = false ∧
    (tk (List.replicate 12 1) 12).lanes.length = sliceLanes 12 ∧
    skewFull (cellAt 34 []) arr1 (cellAt 34 []).cur 0 3 1 = false ∧ cellOf (cellAt 98 []) 0 98 = some (0, 2, 0) ∧ 2 + 1 = nrowOf arr1 ∧
    accTy 12 = 10 ∧ Takes (cellAt 98 [(0, tk (List.replicate 32 0) 10)]) (formN (rn 10 1 3)) 10 [0] false ∧ 0 < bits (rn 10 1 0x103).lit.toNat 23 8 ∧
    (accAt arr1 0 3).run ≠ some 0 ∧ (accAt (setAcc arr1 0 3 { run := some 0, next := 1 }) 0 3).run = some 0 := by decide +kernel

def pass1 (complete : Bool) : Pass :=
  { tag := 0x0010000000000000, j := 3, level := 1, wb := false, plane := 0, rows := [], complete := complete, accin := none, cols := [], colour := 1 }

theorem test_wit_PassesUpdateInOrder : (passCols { arr1 with passes := [pass1 true] } (pass1 true)).contains 0 = true ∧
    passIdx (cellAt 34 []) arr1 (pass1 true) = 0 ∧ (accAt arr1 0 3).run = none ∧
    (accAt (setAcc arr1 0 3 { run := some 5, next := 1 }) 0 3).run ≠ none := by decide +kernel

/-! ## Witnesses: cavities and pace sets -/

/-- Descriptors: 2 indices, signed maximum, 2 lanes, BASE 0; the same with 1,024 indices; and a pace set of 4 members, PMAX 1. -/
def cd2 : BitVec 32 := 0x00542000
def cd1024 : BitVec 32 := 0xFFD42000
def pd4 : BitVec 32 := 0x00C80000

/-- A match at nib 2 beside well 1 of panel 0. -/
def byWell (x : Well) (ops : List (Nat × Token)) : State := setWell (lay2 2 ops) 0 1 x
def cavWell (cavs : List Cavity) : Well := { cfg := cfg1 ||| (3 <<< 61) ||| (16383 <<< 47), cavs := cavs }
def cav2 (joined : List Nat) (contribs : List Contrib) : Cavity :=
  { desc := cd2, lo := 0, hi := 2, seg := 0, last := true, link := 0, ctx := 0, joined := joined, contribs := contribs }
def con (i : Nat) : Contrib :=
  { idx := i, lanes := [some 1, none], poison := false, tag := 0, site := 2, plane := 0, node := 1, dest := ds 7, emit := true }
def idx (i : Lane) (b : List Lane := []) : List (Nat × Token) := [(0, tk [i]), (1, tk b)]

theorem test_wit_CavitiesAreJoined :
    cavBad cd2 = false ∧ AtWell (byWell (cavWell []) (idx 1)) (rs 0 cd2 1) [0] 1 ∧ cavAt (cavWell []) cd2 = none ∧ 1 < cavN cd2 ∧
    cavBase cd2 * 4096 + regionBytes 2 ≤ bufCount (cavWell []) * bufBytes (cavWell []) ∧
    cavAt (cavWell [cav2 [1] []]) cd2 = some 0 ∧ cavBusy (cav2 [1] []) = false ∧ cavBusy (cav2 [0, 1] [con 0, con 1]) = true ∧
    AtWell (byWell (cavWell []) (idx 1023 [0xFFC00, 512, 0])) (rs 1 cd1024 1) [0, 1] 1 ∧ segBad cd1024 [0x041FFA00, 512, 0] = true ∧
    segBad cd1024 [0x040FFE00, 512, 0] = true ∧ segBad cd1024 [0x0C1FFE00, 512, 0] = true ∧ segBad cd1024 [0x041FFE00, 512, 0] = false ∧
    segOf cd2 none = (0, 2, 0, true, 0) := by decide +kernel

theorem test_wit_CavitiesAreLeft : AtWell (byWell (cavWell []) (idx 1)) (rs 2 cd2 1) [0] 1 ∧ cavAt (cavWell []) cd2 = none ∧
    cavAt (cavWell [cav2 [1] []]) cd2 = some 0 ∧ [1].filter (fun j => j != 1) = [] ∧ [0, 1].filter (fun j => j != 1) ≠ [] ∧
    hasContrib (cav2 [0, 1] [con 1]) 1 = true ∧ hasContrib (cav2 [0, 1] [con 0]) 1 = false ∧ cavBusy (cav2 [0, 1] [con 0]) = false := by
  decide +kernel

theorem test_wit_ContributionsAreGathered :
    (let s := byWell (cavWell [cav2 [0, 1] [con 0]]) [(0, tk [5, 6] 2), (1, tk [1])]
     objBad s s.cur (rs 0 cd2 1) 1 = false ∧ objForeign s s.cur 1 = false ∧ hasPorts s.cur (portSet [0, 1] k0) = true ∧
     anyBlock s.cur (portSet [0, 1] k0) = false ∧ (portTok s.cur 1).null = false ∧ (portTok s.cur 0).lanes.length ≤ cavW cd2) ∧
    (byWell (cavWell []) [(0, { tk [0] 2 with null := true }), (1, tk [1])]).cur.ops.length = 2 := by decide +kernel

def roundOf (v : Cavity) : State :=
  { setWell State.reset 0 1 (cavWell [v]) with sel := { p := 0, site := 1, k := 0 }, cycle := 100 }
def mid (half : Bool) : Cavity := { cav2 [0, 1] [con 0, con 1] with seg := 1, last := false, half := half, link := 4096 }

theorem test_wit_CavityRoundsRun : (wellAt (roundOf (cav2 [0, 1] [con 0, con 1])) 0 1).cavs[0]? = some (cav2 [0, 1] [con 0, con 1]) ∧
    (cav2 [0, 1] [con 0, con 1]).stalled = false ∧ (cav2 [0, 1] [con 0, con 1]).half = false ∧ (cav2 [0, 1] []).last = true ∧
    ({ mid false with pc := some (noCarry (mid false)) } : Cavity).seg ≠ 0 ∧
    ({ cav2 [0, 1] [con 0, con 1] with half := true } : Cavity).half = true := by decide +kernel

theorem test_wit_CarriesArePolled : cavBusy (mid false) = true ∧ (mid false).poll ≤ (roundOf (mid false)).cycle ∧ (mid false).pc = none ∧
    (mid true).half = true ∧ (mid true).sc = none ∧ ({ mid false with poll := 101 } : Cavity).poll > (roundOf (mid false)).cycle := by
  decide +kernel

/-- A well in MODE 4 for a pace set of `n` + 1 members, and a match that names member `m`. -/
def paceMatch (n : Nat) (ops : List (Nat × Token)) : State := byWell { cfg := (4 <<< 125) ||| (BitVec.ofNat 128 n <<< 54) } ops
/-- The same once the set is laid out, with member 3 pending. -/
def paceLaid (ops : List (Nat × Token)) : State :=
  setMember (setHeader (paceMatch 3 ops) 0 1 7 pd4.toNat) 0 1 3 { pend := true } false

theorem test_wit_PaceSetsAreKept : paceBad pd4 = false ∧ AtWell (paceMatch 3 (idx 3)) (rs 0 pd4 1) [0] 4 ∧ paceNM1 pd4 = 3 ∧
    bits (wellAt (paceMatch 3 []) 0 1).cfg.toNat 63 54 = 3 ∧ bits (wellAt (paceMatch 1023 []) 0 1).cfg.toNat 63 54 ≠ 3 ∧
    paceDesc (paceLaid (idx 3)) 0 1 = pd4.toNat ∧ (memberAt (paceLaid []) 0 1 3).pend = true ∧ (memberAt (paceLaid []) 0 1 0).pend = false ∧
    AtWell (paceLaid (idx 4)) (rs 1 pd4 1) [0] 4 ∧ paceDesc (paceMatch 3 []) 0 1 ≠ pd4.toNat ∧ memberBad (paceLaid []) 0 1 3 = false := by
  decide +kernel

theorem test_wit_SweepVisitsDueMembers : AtWell (paceLaid (idx 0)) (rs 7 pd4 1) [0] 4 ∧ 1 < (layoutOf (paceLaid []) 0 0).length ∧
    (∃ m < 4, (memberAt (paceLaid []) 0 1 m).pend = true) ∧ (∀ m < 4, (memberAt (paceMatch 3 []) 0 1 m).pend = false) ∧
    4 ≤ 2 ^ levelWidth (layoutOf (paceMatch 3 []) 0 0) 1 ∧ 2 ^ levelWidth (layoutOf (paceMatch 1023 []) 0 0) 0 < 1024 ∧
    paceDue (memberAt (paceMatch 3 []) 0 1 0) 1 = true ∧ paceDue { pexp := 3, stag := 1 } 8 = false := by decide +kernel

/-- The operators of a cavity meet no condition; one value of each. -/
theorem test_wit_CavityOperatorsCombine : copLane 4 (some 0xFFFFFFFF) (some 1) = (some 0, 0) ∧ copLane 5 (some 0xFFFFFFFF) (some 1) = (some 1, 0) ∧
    copLane 6 (some 0xFFFFFFFF) (some 1) = (some 0xFFFFFFFF, 0) ∧ copLane 9 (some 3) (some 5) = (some 6, 0) := by decide +kernel

/-! ## Witnesses: rule tables and collectives -/

/-- Entry 31 of table 1: wrapping addition, COUNT 2, the index in tag bit 0. -/
def enLanes : List Lane := [0x1F0001, 0x10002, 0, 0, 0xFFFFFFFE, 0xFFFFFFFF, 0, 0x100000]
def en : BitVec 256 := entryOf enLanes

theorem test_wit_RuleRecordsAreHeld : Supplied (inBlk [(0, tk enLanes)]) k0 [0] ∧ Clean (inBlk [(0, tk enLanes)]) ∧
    entryBad en = false ∧ entryTable en = (rs 0 1).obj.toNat ∧ entryTable en ≠ (rs 0 7).obj.toNat ∧
    entryBad (entryOf [0x1F0001, 0x10000]) = true ∧ entryBad (entryOf [0x200001, 0x10002]) = true ∧ entryBad (entryOf [0x1F0008, 0x10002]) = true ∧
    armBad [0x01010005, 0x0200] = false ∧ (shiftDest (inBlk []) (inBlk []).cur 0x0200).isSome = true ∧ armBad [0x01000005, 0x0200] = true ∧
    InBlock (inBlk [(0, tk enLanes)]) blk := by decide +kernel

def withTable (t : RuleTable) (ops : List (Nat × Token)) : State := setTable (lateRec ops) 0 1 t

theorem test_wit_RuleRecordsTakeEffect :
    (withTable {} [(0, tk enLanes)]).cur.late = true ∧ Supplied (withTable {} [(0, tk enLanes)]) k0 [0] ∧
    (tableAt (withTable { inRound := true } []) 0 1).inRound = true ∧ (tableAt (withTable {} []) 0 1).inRound = false ∧
    Supplied (withTable { entries := [(31, en)] } [(0, tk [0x01010005, 0x0200])]) k0 [0] ∧ armBad [0x01010005, 0x0200] = false ∧
    (shiftDest (lateRec []) (lateRec []).cur 0x0200).isSome = true ∧ (tableAt (withTable { entries := [(31, en)] } []) 0 1).armed = none ∧
    usedEntries (tableAt (withTable { entries := [(31, en)] } []) 0 1) ≠ [] := by decide +kernel

/-- An arrival at table 1, which stands in round 65535 with the accumulation given. -/
def arr (round : Nat) (t : Word64) : Arrival :=
  { p := 0, table := 1, round := round, tag := t, ty := 2, lanes := [4], poison := false, link := none, coll := 0, origin := none }
def meets (armed : Option Nat) (inRound : Bool) (a : Arrival) (acc : RuleAcc := {}) (hold : List Arrival := []) : State :=
  let s := setTable { State.reset with arrivals := [a] } 0 1 { entries := [(31, en)], armed := armed, inRound := inRound, accs := [(31, acc)] }
  setEngine s 0 { engineAt s 0 with hold := hold }
def hitOf (t : Word64) : Option (Nat × BitVec 256) :=
  (usedEntries (tableAt (meets none false (arr 0 0)) 0 1)).find? (fun x => t &&& entryTmask x.2 == entryTval x.2 &&& entryTmask x.2)

theorem test_wit_RuleArrivalsMeetTheirTable :
    (meets none false (arr 0 0)).arrivals[(meets none false (arr 0 0)).sel.k]? = some (arr 0 0) ∧ arrivalBehind (arr 0 0) [] = false ∧
    (tableAt (meets none false (arr 0 0)) 0 1).armed = none ∧
    -- round 0 follows 65535; 32766 is the last later one, 32767 a retired one
    (1 ≤ (0 + 65536 - 65535) % 65536 ∧ (0 + 65536 - 65535) % 65536 ≤ 32767) ∧ (32766 + 65536 - 65535) % 65536 = 32767 ∧
    ¬ ((32767 + 65536 - 65535) % 65536 ≤ 32767) ∧
    64 ≤ (engineAt (meets (some 65535) true (arr 0 0) {} (List.replicate 64 (arr 0 0))) 0).hold.length ∧
    hitOf 0 = some (31, en) ∧ hitOf 2 = none ∧ freeBits 1 (entryTmask en) = 1 ∧ 1 < entryCount en ∧
    (ruleCop (entryOpcode en)) = some 4 ∧ (arr 0 0).ty = copTy 4 ∧ engineStaged (meets (some 65535) true (arr 65535 1)) 0 < 64 ∧
    (0 : Nat) < ({ next := 1 } : RuleAcc).next := by decide +kernel

def emits1 (credits : Nat) (a : RuleAcc) : State :=
  { setTable { State.reset with sel := { p := 0, num := 1 } } 0 1
      { entries := [(31, en)], inRound := true, armed := some 5, credits := credits, accs := [(31, a)] } with cycle := 9 }
def whole : RuleAcc := { next := 2, acc := [7], width := 1, poison := true }

theorem test_wit_RuleTablesEmit : (tableAt (emits1 1 whole) 0 1).inRound = true ∧ nextEntry (tableAt (emits1 1 whole) 0 1) = some (31, en) ∧
    entryCount en = whole.next ∧ whole.poison = true ∧ queueLen (emits1 1 whole) 0 241 < 8 ∧
    gatedCtx (emits1 1 whole) 0 241 (planeOf (emits1 1 whole) 0 0).ctx = false ∧ (tableAt (emits1 1 whole) 0 1).plane < 4 ∧
    (tableAt (emits1 0 whole) 0 1).credits = 0 ∧ ({} : RuleAcc).next ≠ entryCount en ∧
    nextEntry (tableAt (setTable (emits1 1 whole) 0 1 { tableAt (emits1 1 whole) 0 1 with accs := [(31, { whole with emitted := true })] }) 0 1) = none := by
  decide +kernel

def fence1 : Fence := { round := 5, id := 3, since := 2, cur := {}, r := rs }

theorem test_wit_DrainFencesComplete :
    (let s := setTable { State.reset with sel := { p := 0, num := 1 } } 0 1 { fences := [fence1] }
     (tableAt s 0 1).fences[0]? = some fence1 ∧ fenceDone s fence1 = true ∧ (tableAt s 0 1).waiters.length = 0) := by decide +kernel

def creditFor (armed : Option Nat) : State :=
  setTable { State.reset with transit := [{ p := 0, src := 4, queued := false, tok := { tk [255] with site := 241, node := 7, port := 1 } }] } 0 7
    { armed := armed, credits := 1 }

theorem test_wit_CreditsReturnToTables :
    ((creditFor none).transit.all (fun f => isEauCredit f && !f.queued && !f.tok.snap && decide (f.tok.node.toNat < 8) && !f.tok.null)) = true ∧
    (tableAt (creditFor none) 0 7).armed = none ∧ (tableAt (creditFor (some 5)) 0 7).armed ≠ none ∧
    241 + (tableAt (creditFor (some 5)) 0 7).edge = 241 := by decide +kernel

/-- A route word for round 1 at table 1 of panel 47 of this part, and the match of a COLL with it. -/
def route (dev : Lane) : List Lane := [0x6F0001, dev]
def collMatch (dev : Lane) : State := setPg (at_ 2 [(0, tk [5]), (1, tk (route dev))]) 0 3 { alloc := true }

theorem test_wit_CollectivesAreSent : Supplied (collMatch 0xFFF) k0 [0, 1] ∧ (rt 9 3 0).len = 0 ∧ ActsNow (collMatch 0xFFF) ∧
    tagFree (collMatch 0xFFF) 0 9 = true ∧ tagFree (setScribe (collMatch 0xFFF) 0 { busy := 0x200 }) 0 9 = false ∧
    collBad (route 0xFFF) = false ∧ collBad [0x700001, 0] = true ∧ collBad [0x6F0001, 0x1000] = true ∧
    (pgAt (collMatch 0xFFF) 0 3).alloc = true ∧ (pgAt (collMatch 0xFFF) 0 4).alloc = false ∧
    collOwn (collMatch 0xFFF) 0xFFF = true ∧ collOwn (collMatch 3) 3 = false ∧ routeOf { collMatch 3 with routes := [(3, 3)] } 3 = some 3 ∧
    routeOf (collMatch 3) 3 = none ∧
    InBlock (inBlk [(0, tk [5]), (1, tk (route 3))]) blk ∧ ctagTaken (inBlk [(0, tk [5]), (1, tk (route 3))]) 0 9 = false := by decide +kernel

/-! ## Witnesses: groups and barriers -/

/-- A match of colour 1 in context 1 (colours 1 to 40) on panel 0, whose layout has levels of 8 and 4 bits. -/
def inCtx (site : Nat) (ops : List (Nat × Token)) : State :=
  { setPanel (at_ site ops) 0 livePanel with
    ctxs := [(1, { state := 3, part := 1, colbase := 1, collim := 40, planes := 15, pmask := 1, rows := 4, priv := 2, panels := [0] })]
    cycle := 100
    colours := [(colKey 1 1, { gstate := 1, gid := 1, leader := 1, gwm1 := 7, ctx := 1, rdest := 0x0500, rtag := 0x0010000000000000 })]
    groups := [(1, { lastIssue := 50 })], fresh := 2 }
/-- A SPAWN of `n` colours at level `lev` to nib 4, with a slot or without, at nib 2 in node 0. -/
def spawnRec (n lev : Nat) (slot : Bool := false) (ctl : Ctl := k0) : RecN :=
  { rn 0 (BitVec.ofNat 4 (lev + (if slot then 8 else 0))) (BitVec.ofNat 32 (n - 1)) 0 ctl with d1 := ds 4 }

theorem test_wit_SpawnQueuesADraw :
    hasPorts (inCtx 2 [(0, tk [1])]).cur (portSet [0] k0) = true ∧ spawnBad (spawnRec 16 1) = false ∧
    spawnRange (inCtx 2 [(0, tk [1])]) (spawnRec 16 1) = false ∧ spawnRange (inCtx 2 [(0, tk [1])]) (spawnRec 17 1) = true ∧
    spawnRange (inCtx 2 [(0, tk [1])]) (spawnRec 40 0) = false ∧ spawnRange (inCtx 2 [(0, tk [1])]) (spawnRec 41 0) = true ∧
    spawnRange (inCtx 2 [(0, tk [1]), (1, tk [38])]) (spawnRec 2 0 true) = false ∧
    spawnRange (inCtx 2 [(0, tk [1]), (1, tk [39])]) (spawnRec 2 0 true) = true ∧
    badCtl [0, 1] kn = false ∧ anyBlock (inCtx 2 [(0, tk [1])]).cur (portSet [0] k0) = false ∧
    anyNull (inCtx 2 [(0, { tk [1] with null := true })]).cur (portSet [0] kn) = true := by decide +kernel

theorem test_wit_CallocGrantsAndReads : Takes (inCtx 2 [(0, tk [1]), (1, tk [32])]) (formN (rn 0)) 6 [0, 1] false ∧
    gidOf (inCtx 2 []) 1 1 = some 1 ∧ gidOf (inCtx 2 []) 1 2 = none ∧ groupColours (inCtx 2 []) 1 1 = [1] ∧
    (groupColours (inCtx 2 []) 1 1).any (fun k => (colourAt (inCtx 2 []) 1 k).pk) = false ∧
    Takes (inCtx 2 [(0, tk [1]), (1, tk [40])]) (formN (rn 0 1)) 7 [0, 1] false ∧ (ctxAt (inCtx 2 []) 1).collim < 41 := by decide +kernel

theorem test_wit_ReturnSendsTheValue : retBad (rn 0) = false ∧ hasPorts (inCtx 2 [(0, tk [1])]).cur (portSet [0] k0) = true ∧
    retWrong (inCtx 2 [(0, tk [1])]) (inCtx 2 [(0, tk [1])]).cur = false ∧ ActsNow (inCtx 2 [(0, tk [1])]) ∧
    (colourAt (inCtx 2 []) 1 2).gstate = 0 ∧
    (colourAt (inCtx 2 []) 1 1).rdest ≠ 0xFF00 ∧ InBlock (setScribe (inCtx 240 [(0, tk [1])]) 0 { cur := some blk }) blk := by decide +kernel

/-- A draw of two colours, and the state with it first at the colour point. -/
def draw2 (base : Option Nat) : Draw := { part := 1, ctx := 1, n := 2, base := base, spawn := some ({}, spawnRec 2 1), launch := none }
def drawing (base : Option Nat) (st : Nat) : State :=
  let s := inCtx 2 []
  { s with draws := [draw2 base], ctxs := tsetD s.ctxs 1 { ctxAt s 1 with state := st } {} }

theorem test_wit_DrawsOpenGroups : (drawing none 3).draws[0]? = some (draw2 none) ∧ drawColours (drawing none 3) (draw2 none) = some [2, 3] ∧
    drawColours (drawing (some 0) 3) (draw2 (some 0)) = none ∧ (ctxAt (drawing none 4) 1).state ≠ 3 := by decide +kernel

theorem test_wit_DrawsTakeTheLowestColours : drawColours (drawing none 3) (draw2 none) = some [2, 3] ∧
    drawColours (drawing (some 38) 3) (draw2 (some 38)) = some [39, 40] := by decide +kernel

theorem test_wit_ReturnTokensAreDelivered :
    (let x : RetTok := { p := 0, tok := { tk [1] with site := 4, node := 1 } }
     let s := { State.reset with returns := [x] }
     s.returns[s.sel.k]? = some x ∧ (s.returns.take s.sel.k).any (fun y => y.p == x.p) = false) := by decide +kernel

/-- Group 1 of partition 1 with colour 1 in state `st`, chosen by the event. -/
def idling (st : Nat) (retd : Bool) (cycle : Nat) : State :=
  let s := inCtx 2 []
  { setColour s 1 1 { colourAt s 1 1 with gstate := st, retd := retd } with cycle := cycle, sel := { part := 1, k := 1 } }

theorem test_wit_GroupsIdleAndDrain : groupColours (idling 1 false 114) 1 1 = [1] ∧ (groupAt (idling 1 false 114) 1).lastIssue + 64 ≤ 114 ∧
    113 < (groupAt (idling 1 false 113) 1).lastIssue + 64 ∧ (colourAt (idling 4 true 114) 1 1).retd = true ∧
    (colourAt (idling 4 true 114) 1 1).drained = false ∧ colourBusy (idling 4 true 114) 1 1 = false ∧
    (groupAt (idling 4 true 114) 1).left ≤ 1 ∧ 2 ≤ (groupAt (setGroup (idling 4 true 114) 1 { left := 2 }) 1).left ∧
    colourBusy { idling 4 true 114 with transit := [{ p := 0, src := 4, queued := false, tok := { tk [1] with tag := 2 ^ 52 } }] } 1 1 = true := by
  decide +kernel

/-- A match beside barrier 4095 of die 0 in the given state. -/
def atBar (b : Barrier) (ops : List (Nat × Token)) : State := setBarrier (inCtx 2 ops) 0 4095 b
def bar (st arr early : Nat) (phase : Bool := false) : Barrier :=
  { state := st, phase := phase, scope := 1, ctx := 1, count := 2, arr := arr, early := early, running := true, nph := 0xFFFFFFFF }

theorem test_wit_BarrierRecordsAreHeld : Supplied (inBlk [(0, tk [0x01000001])]) k0 [0] ∧ Clean (inBlk [(0, tk [0x01000001])]) ∧
    InBlock (inBlk [(0, tk [1])]) blk ∧ bits (rs 0 4095).obj.toNat 31 14 = 0 ∧ binitBad (rs 0 4095) (inBlk [(0, tk [0x01000001])]).cur = false ∧
    laneN (portTok (inBlk [(0, tk [1])]).cur 0).lanes 0 ≤ 1 ∧
    (let s := { lay2 240 [(0, tk [0])] with scribes := (inBlk []).scribes }
     InBlock s blk ∧ bits (rs 1 0x10FFF).obj.toNat 18 16 < (layoutOf s 0 0).length) := by decide +kernel

theorem test_wit_BarriersAreMadeAndFreed : ActsNow (atBar {} [(0, tk [0x03FF0001])]) ∧ Supplied (atBar {} [(0, tk [0x03FF0001])]) k0 [0] ∧
    binitBad (rs 0 4095) (atBar {} [(0, tk [0x03FF0001])]).cur = false ∧ binitBad (rs 0 4095) (atBar {} [(0, tk [0x03FF0000])]).cur = true ∧
    binitBad (rs 0 4095) (atBar {} [(0, tk [0x04000001])]).cur = true ∧ (barrierAt (atBar {} []) 0 4095).state = 0 ∧
    (barrierAt (atBar (bar 2 2 0) []) 0 (barIdx (rs 1 4095))).state = 2 ∧ (bar 1 0 0).arr = 0 ∧ 0 < (bar 1 1 0).arr ∧ (bar 3 0 0).state = 3 ∧
    (bar 2 2 0).ctx = matchCtx (atBar {} []) 0 0 (atBar {} []).cur.tag := by decide +kernel

theorem test_wit_ArrivalsCompletePhases : Supplied (atBar (bar 1 1 0) [(0, tk [0])]) k0 [0] ∧ Clean (atBar (bar 1 1 0) [(0, tk [0])]) ∧
    ActsNow (atBar (bar 1 1 0) [(0, tk [0])]) ∧ laneN (portTok (atBar (bar 1 1 0) [(0, tk [0])]).cur 0).lanes 0 = b2n false ∧
    (bar 1 1 0).ctx = matchCtx (atBar {} []) 0 0 (atBar {} []).cur.tag ∧ barMember (bar 1 1 0) 0 0 = true ∧ barMember (bar 1 1 0) 0 1 = false ∧
    (bar 2 2 0).phase = false ∧ (bar 1 1 2 true).early = (bar 1 1 2 true).count ∧ 1 < (bar 2 2 0).count ∧
    (bar 1 0 0).arr + 1 < (bar 1 0 0).count ∧ (bar 1 1 0).arr + 1 = (bar 1 1 0).count ∧ 0 < (bar 1 1 1).early ∧
    (bar 1 1 1).early < (bar 1 1 1).count ∧ (bar 1 1 1 true).arr < (bar 1 1 1 true).count ∧
    bits (rs 1 0x10FFF).obj.toNat 18 16 < (layoutOf (atBar {} []) 0 0).length ∧
    fld (layoutOf (atBar {} []) 0 0) (atBar {} []).cur.tag 1 % 2 = b2n false := by decide +kernel

/-- Tickets of the phase before, of the current phase and of the one 2^31 back, at phase number 2^32 - 1. -/
theorem test_wit_BarriersAreWaitedFor : (bar 1 1 0).ctx = matchCtx (atBar {} []) 0 0 (atBar {} []).cur.tag ∧
    (1 ≤ (0xFFFFFFFF + 2 ^ 32 - 0xFFFFFFFE) % 2 ^ 32 ∧ (0xFFFFFFFF + 2 ^ 32 - 0xFFFFFFFE) % 2 ^ 32 < 2 ^ 31) ∧
    ¬ (1 ≤ (0xFFFFFFFF + 2 ^ 32 - 0xFFFFFFFF) % 2 ^ 32) ∧ ¬ ((0xFFFFFFFF + 2 ^ 32 - 0x7FFFFFFF) % 2 ^ 32 < 2 ^ 31) ∧
    (bar 1 1 0).count ≤ 2 ∧ (bar 1 1 2).count - 1 < (bar 1 1 2).early ∧ (bar 1 1 1).early ≤ (bar 1 1 1).count - 1 ∧
    (bar 1 0 0).arr < (bar 1 0 0).count - 1 ∧ (bar 1 1 0).count - 1 ≤ (bar 1 1 0).arr ∧ ActsNow (atBar (bar 1 1 0) [(0, tk [1])]) ∧
    Clean (atBar (bar 1 1 0) [(0, tk [1])]) := by decide +kernel

theorem test_wit_BarriersStarveAndNotify :
    (let s := { setBarrier State.reset 0 0 { state := 1, bwatch := 1, watch := 1024 } with notices := [{ p := 0, site := 2, die := 0, idx := 0 }] }
     (barrierAt s s.sel.die s.sel.num).bwatch * 1024 ≤ (barrierAt s s.sel.die s.sel.num).watch ∧ s.notices[s.sel.k]?.isSome = true) ∧
    (State.reset).notices = [] ∧ (barrierAt State.reset 0 0).bwatch = 0 ∧ 1023 < 1 * 1024 := by decide +kernel

/-! ## Witnesses: queues, launches, planes, snapshots -/

/-- A control line with a command, and with LSZ for CONFIG. -/
def line (cmd : Nat) (lsz : Nat := 0) : List Word64 := [BitVec.ofNat 64 (cmd * 2 ^ 60 + lsz * 2 ^ 56 + 0xFFF00000000000), 0xFFF00000100000, 0, 0, 0, 0, 0, 0]
def hostAt (x : Queue) (ws : List Word64) (fn : Nat := 0) : State :=
  { setQueue State.reset 255 x with sel := { q := 255, line := ws, fn := fn } }

/-- The commands at both ends, LSZ 12 and 13, and a queue in each state. -/
theorem test_wit_HostLinesMoveQueues : reachesWindow (hostAt {} []) 0 255 = true ∧ reachesWindow (hostAt {} []) 3 255 = false ∧
    (line 1).length = 8 ∧ (queueAt (hostAt { state := 1 } []) 255).recs = [] ∧ (queueAt (hostAt { state := 2, recs := [1] } []) 255).state = 2 ∧
    2 ^ ({ lsz := 0, recs := [1] } : Queue).lsz ≤ 1 ∧ ([] : List Nat).length < 2 ^ ({ lsz := 0 } : Queue).lsz ∧
    lineCmd (line 1) = 1 ∧ lineCmd (line 5) = 5 ∧ lineCmd (line 0) = 0 ∧ 5 < lineCmd (line 6) ∧
    configBad (hostAt {} []) 0 (line 1 12) = false ∧ configBad (hostAt {} []) 0 (line 1 13) = true := by decide +kernel

/-- A match beside queue 255 in the state given, for a record that names it. -/
def atQ (x : Queue) (site : Nat) (late : Bool := false) : State :=
  let s := setQueue (inCtx site [(0, tk [1, 2])]) 255 x
  { s with cur := { s.cur with late := late } }
def q1 (st : Nat) (recs : List Nat) : Queue := { state := st, part := 1, recs := recs, lsz := 3, log := 4096 }

theorem test_wit_QueueRecordsAct : Supplied (atQ (q1 1 [5]) 2) k0 [0] ∧ Clean (atQ (q1 1 [5]) 2) ∧
    ((q1 1 [5]).state ≠ 0 ∧ 0 ≠ partOf (atQ (q1 1 [5]) 2) (matchCtx (atQ (q1 1 [5]) 2) 0 0 (atQ (q1 1 [5]) 2).cur.tag)) ∧
    (q1 1 [5]).part = partOf (atQ (q1 1 [5]) 2) (matchCtx (atQ (q1 1 [5]) 2) 0 0 (atQ (q1 1 [5]) 2).cur.tag) ∧ 2 ≤ (q1 3 []).state ∧
    (q1 1 []).recs = [] ∧ privOf (atQ (q1 1 []) 240) 1 ≠ 0 ∧ (q1 1 []).log ≠ 0 ∧ (atQ (q1 1 []) 240 true).cur.late = true ∧
    InBlock (setScribe (atQ (q1 1 []) 240) 0 { cur := some blk }) blk := by decide +kernel

/-- A KSTAGE's descriptor of plane `k`, and a late match with it; `x` is plane `k`. -/
def stageDesc (k : Nat) : List Lane := [0x1000, 0, BitVec.ofNat 32 (k * 2 ^ 24 + 0x000000), 0]
def planeRec (k : Nat) (x : Plane) (ls : List Lane) (late : Bool) : State :=
  let s := setPlane (inCtx 240 [(0, tk ls)]) 0 k x
  { s with cur := { s.cur with late := late } }

theorem test_wit_PlaneRecordsAreHeld : AtScribe (planeRec 1 {} (stageDesc 1) false) rs ∧ descReserved (stageDesc 1) = false ∧
    descReserved [0, 0x1000000, 0, 0] = true ∧ descReserved [0, 0, 0x4000000, 0] = true ∧ descReserved [0, 0, 0, 0x400] = true ∧
    bit (ctxAt (planeRec 1 {} [3] false) 1).planes 3 = true ∧ bit (ctxAt (planeRec 1 {} [3] false) 0).planes 3 = false ∧
    4 ≤ laneN (portTok (planeRec 1 {} [4] false).cur 0).lanes 0 ∧
    snapLanesBad (planeRec 1 {} [0x0200] false) (planeRec 1 {} [0x0200] false).cur = false ∧
    InBlock (setScribe (planeRec 1 {} [0x0200] false) 0 { cur := some blk }) blk := by decide +kernel

theorem test_wit_PlaneRecordsTakeEffect : AtScribe (planeRec 1 {} (stageDesc 1) true) rs ∧ (planeRec 1 {} [1] true).cur.late = true ∧
    (planeOf (planeRec 1 {} [1] true) 0 1).state = 0 ∧ (panelAt (planeRec 1 {} [1] true) 0).scribePlane ≠ some 1 ∧
    (panelAt (planeRec 1 {} [1] true) 0).inj ≠ some 1 ∧ launchHolds (planeRec 1 {} [1] true) 0 1 = false ∧
    (panelAt (planeRec 1 {} [1] true) 0).flip = none ∧ (planeOf (planeRec 1 { state := 2 } [1] true) 0 1).state = 2 ∧
    (planeOf (planeRec 1 { state := 4 } [1] true) 0 1).state = 4 ∧ (planeOf (planeRec 1 { state := 1 } [1] true) 0 1).state = 1 := by decide +kernel

/-- Plane 1 of panel 0, chosen by the event. -/
def planeSel (x : Plane) : State := { setPlane State.reset 0 1 x with sel := { p := 0, plane := 1 } }
def tagOne : Flight := { p := 0, src := 4, queued := false, tok := { tk [1] with site := 2, plane := 1 } }

theorem test_wit_PlanesChangeState : (planeOf (planeSel { state := 1 }) 0 1).verdict = 0 ∧ (planeOf (planeSel { state := 1, verdict := 3 }) 0 1).verdict ≠ 0 ∧
    planeEmpty (planeSel { state := 4 }) 0 1 = true ∧ (planeOf (planeSel { state := 4 }) 0 1).state = 4 ∧
    planeEmpty { planeSel { state := 4 } with transit := [tagOne] } 0 1 = false ∧
    (let s := setNib (planeSel { state := 4, waiters := [(2, {}, rs)] }) 0 2 { groups := [{ plane := 1, node := 0, tag := 0, ops := [] }] }
     planeEmpty s 0 1 = false ∧ planeQuiet s 0 1 = true ∧ (planeOf s 0 1).waiters.any (fun w => w.1 == 2) = true) := by decide +kernel

def flipping (x : Plane) : State :=
  let s := setPlane (inCtx 2 []) 0 1 x
  { setPanel s 0 { panelAt s 0 with flip := some { target := 1, ask := some ({}, rs) } } with sel := { p := 0 } }

theorem test_wit_FlipsTakeEffect : (panelAt (flipping { state := 2 }) 0).flip = some { target := 1, ask := some ({}, rs) } ∧
    (planeOf (flipping { state := 2 }) 0 1).state = 2 ∧ recheckBad (flipping { state := 2 }) 0 1 = false ∧
    recheckBad (setNib (flipping { state := 2 }) 0 2 { storeBad := [33] }) 0 1 = true ∧
    flipWellBad (flipping { state := 2 }) 0 1 (1, cfg1) = false ∧ flipWellBad (setWell (flipping { state := 2 }) 0 1 { owner := some 3 }) 0 1 (1, cfg1) = true := by
  decide +kernel

/-- A SNAP with one destination, and a marker for a record of nib 2. -/
def snapRec (pn : Panel) (rows : Nat) : State :=
  let s := setPanel (inCtx 240 [(0, tk [0x0200])]) 0 pn
  { s with cur := { s.cur with late := true }, ctxs := tsetD s.ctxs 1 { ctxAt s 1 with rows := rows } {} }
def snapOn (deadline : Option Nat) (cycle : Nat) : State :=
  { setPanel State.reset 0 { snap := some { id := 1, want := 1, count := 0, deadline := deadline, cur := {}, r := rs } } with cycle := cycle }
def markerFor (w : Rec96) : State :=
  { arriving livePanel w 1 0 with
    transit := [{ p := 0, src := 4, queued := false
                  tok := { tk [7] with site := 2, node := 1, snap := true, tag := 2 ^ 52 } }] }

theorem test_wit_SnapshotsRun :
    (AtScribe (snapRec livePanel 4) (rs 0 0xFF0001) ∧ snapLanesBad (snapRec livePanel 4) (snapRec livePanel 4).cur = false ∧
      (panelAt (snapRec livePanel 4) 0).snap = none ∧ (panelAt (snapRec livePanel 4) 0).inj = some 0 ∧
      (ctxAt (snapRec livePanel 4) 1).rows ≠ 1 ∧ bits (rs 0 0xFF0001).obj.toNat 31 24 = 0 ∧ (rs 0 0xFF0001).obj.toNat % 65536 ≠ 0 ∧
      (panelAt (snapRec { livePanel with snap := some { id := 1, want := 1, count := 0, deadline := none, cur := {}, r := rs } } 4) 0).snap ≠ none) ∧
    ((panelAt (snapOn (some 1024) 1024) 0).snap.isSome = true ∧ 1024 ≤ (snapOn (some 1024) 1024).cycle ∧ (snapOn (some 1024) 1023).cycle < 1024) ∧
    (behindOwn (markerFor wCopy) 0 ((markerFor wCopy).transit.getD 0 default) = false ∧ (portsOf wCopy).contains 0 = true ∧
      admits (markerFor wCopy) 0 (2 ^ 52) = true ∧ planeRuns (markerFor wCopy) 0 0 = true ∧ (portsOf wCopy).length = 1 ∧
      (portsOf ((rn 2).bits 0x01)).length ≠ 1 ∧ Machine.opOf ((rn 0).bits 0x22) = 0x22 ∧ queueLen (markerFor wCopy) 0 2 + 2 ≤ 8) := by
  decide +kernel

/-- Queue 7 runs with record 1 at its head, in memory; the context of the record is 1, or one of no partition. -/
def headAt (ctx : Byte) : State :=
  { setQueue (inCtx 2 []) 7 { q1 2 [1] with lsz := 0 } with mem := [(7, 1), (13, ctx)], cycle := 99, sel := { die := 0 } }

theorem test_wit_HeadsAreRefusedOrPlaced : (headAt 1).cycle % 3 = 0 ∧ (headAt 1).lastPlace ≠ 100 ∧
    (headOf (headAt 9) 7).any (fun x => headRefused (headAt 9) 7 x.2) = true ∧ (headOf (headAt 1) 7).any (fun x => headRefused (headAt 1) 7 x.2) = false ∧
    (heads (headAt 1)).length = 1 ∧ ((firstHead 0 (heads (headAt 1)) (headAt 1)).any (fun x => x.2.2 == .fails)) = true ∧
    heads (setQueue (headAt 1) 7 (q1 1 [1])) = [] := by decide +kernel

/-- A launch that runs, and one that completes. -/
def launch1 (stage : Nat) : Launch :=
  { id := 5, q := 7, seq := 1, words := [0, 0x1000000000], ctx := 1, part := 1, prio := 0, panels := [0], planes := [1], born := 40
    width := 4, ncol := 1, stage := stage, status := 0, flags := 1, leader := 1, kflags := 0 }

theorem test_wit_LaunchesComplete : (launch1 2).stage ≠ 3 ∧ (launch1 3).stage = 3 ∧ bit (launch1 3).words[1]!.toNat 36 = true ∧
    ({ inCtx 2 [] with launches := [launch1 3] } : State).launches[0]? = some (launch1 3) := by decide +kernel

/-! ## Witnesses: contexts, partitions, registers -/

/-- A match of context 1 at the scribe with context 2 in state `st` in partition `part`; the record's OBJ names it. -/
def parkRec (st part : Nat) (late : Bool) (ls : List Lane := [1]) : State :=
  let s := inCtx 240 [(0, tk ls)]
  { s with cur := { s.cur with late := late }
           ctxs := tsetD s.ctxs 2 { state := st, part := part, planes := 2, pmask := 1, rows := 1, panels := [0] } {} }
def park2 (round : Nat) : Park := { ctx := 2, round := round, began := 5, asks := [], preempt := false, faulted := none }

theorem test_wit_ContextRecordsAreHeld : AtScribe (parkRec 3 1 false) (rs 0 2) ∧ bits (rs 0 0xFF).obj.toNat 31 8 = 0 ∧
    matchCtx (parkRec 3 1 false) 0 0 (parkRec 3 1 false).cur.tag = 1 ∧ ctxOwner (parkRec 3 1 false) 2 = some 1 ∧
    ctxOwner (parkRec 3 9 false) 2 = some 9 ∧ ctxOwner (parkRec 0 1 false) 2 = none ∧ partOf (parkRec 3 9 false) 1 = 1 ∧
    InBlock (setScribe (parkRec 3 1 false) 0 { cur := some blk }) blk := by decide +kernel

theorem test_wit_ContextRecordsTakeEffect : AtScribe (parkRec 3 1 true) (rs 0 2) ∧ (parkRec 3 1 true).cur.late = true ∧
    ctxOwner (parkRec 4 1 true) 2 = some 1 ∧ parkOf (parkRec 3 1 true) 2 = none ∧
    parkOf { parkRec 3 1 true with parks := [park2 1] } 2 = some (park2 1) ∧ (ctxAt (parkRec 4 1 true) 2).state = 4 ∧
    targetsOk (parkRec 4 1 true) 2 [] [] = true ∧ targetsOk (parkRec 4 1 true) 2 [takeImage State.reset 2 0] [] = false ∧
    workWaits (parkRec 3 1 true) 1 0 = false ∧ (ctxAt (parkRec 3 1 true) 1).state = 3 := by decide +kernel

theorem test_wit_PrioritiesAreSet : AtScribe (parkRec 3 1 false [0xF0001]) (rs 1 0xFF) ∧ ctxOwner (parkRec 3 1 false) 1 = some (partOf (parkRec 3 1 false) 1) ∧
    privOf (parkRec 3 1 false) 1 ≠ 0 ∧ setsStrict (parkRec 3 1 false [0xF0001]) (parkRec 3 1 false [0xF0001]).cur (rs 1 0xFF) = true ∧
    setsStrict (parkRec 3 1 false [0xF0001]) (parkRec 3 1 false [1]).cur (rs 1 0xFF) = false ∧
    privOf { parkRec 3 1 false with ctxs := [(1, {})] } 1 = 0 ∧ (ctxAt (parkRec 3 1 true) 2).state ≠ 4 := by decide +kernel

theorem test_wit_PrioritiesOfOthersStay : (0 : Nat) < 4 ∧ (3 : Nat) < 4 := by decide

def parking (x : Park) (pre : Option Nat) (cycle : Nat) : State :=
  { parkRec 3 1 false with
    parks := [x], sel := { ctx := 2 }, cycle := cycle, parts := [(1, { preT0 := pre })] }

/-- Parks of each round, one that is late by a cycle, and one with a fault. -/
theorem test_wit_ParksGoByRounds : parkOf (parking (park2 1) none 9) 2 = some (park2 1) ∧ (park2 1).faulted = none ∧
    ctxSettled (parking (park2 2) none 9) 2 = true ∧ ctxQuiet (parking (park2 3) none 9) 2 = true ∧
    ctxQuiet { parking (park2 3) none 9 with remotes := [{ id := 0, dev := 1, link := 3, sent := 0, body := .fence 0
                                                           req := some { kind := .xferSector 9 0 0, path := [], born := 1, ctx := 2, issuer := 0, addr := 0, ctag := 2 } }] } 2 = false ∧
    parkLate (parking (park2 2) (some 10) 4107) (park2 2) = true ∧ parkLate (parking (park2 2) (some 10) 4106) (park2 2) = false ∧
    ({ park2 2 with faulted := some (3, 64, 0) } : Park).preempt = false := by decide +kernel

theorem test_wit_ParksStreamAndCommit : (park2 4).round = 4 ∧ (park2 5).round = 5 ∧ parkOf (parking (park2 5) none 9) 2 = some (park2 5) ∧
    (match (readHeader (parking (park2 4) none 9) 2 0).2 with | .error _ => true | .ok _ => false) = true ∧
    parkLate (parking (park2 5) none 9) (park2 5) = false ∧ (park2 5).preempt = false := by decide +kernel

theorem test_wit_IdleContextsPark : (parking (park2 1) none 9).sel.ctx = 2 ∧ (ctxAt (parking (park2 1) none 9) 2).slice = 0 ∧
    ctxRuns { parking (park2 1) none 9 with parks := [] } 2 = true ∧ (ctxGroups (inCtx 2 []) 0) ≠ [] ∧
    ({ slice := 1, sliceCnt := 1023 } : Ctx).sliceCnt < 1 * 1024 := by decide +kernel

def restoring (im : List SavedPanel) (ps : List Nat) : State :=
  { parkRec 4 1 false with resumes := [{ ctx := 2, panels := some ps, ask := none }], sel := { ctx := 2 }, images := [(4, im)] }

theorem test_wit_RestoresComplete : (restoring [] []).resumes.find? (fun x => x.ctx == 2) = some { ctx := 2, panels := some [], ask := none } ∧
    (match (readHeader (restoring [] []) 2 0).2 with | .error _ => true | .ok _ => false) = true ∧
    targetsOk (restoring [] []) 2 [] [] = true ∧ targetsOk (restoring [] []) 2 [takeImage State.reset 2 0] [] = false ∧ bit 1 0 = true ∧ bit 2 0 = false := by decide +kernel

/-- Context 2 in state `st` of partition 1, whose range holds contexts 0 to 9, before function `fn`. -/
def building (st fn : Nat) (num : Nat := 0) : State :=
  let s := parkRec st 1 false
  { s with ctxs := [(2, { state := st, part := if st = 0 then 0 else 1, colbase := 1, collim := 9, planes := 1, pmask := 1, rows := 1, saveBase := 4096, panels := [] })]
           parts := [(1, { prange := 0x09000FF000000008 })]
           sel := { who := .host fn, ctx := 2, part := 1, num := num } }

theorem test_wit_ContextRecordsAreBuilt : (building 1 1).sel.who = .host 1 ∧ (building 1 1).sel.ctx < 256 ∧ (building 1 1 7).sel.num < 8 ∧
    ctxOwner (building 1 1) 2 = some 1 ∧ ctxOwner (building 0 1) 2 = some 1 ∧ ctxOwner { building 0 1 with parts := [] } 2 = none ∧
    (ctxAt (building 1 1) 2).state = 1 ∧ (ctxAt (building 6 1) 2).state = 6 ∧
    ctxValid (building 1 1) 2 = true ∧ ctxValid { building 1 1 with parts := [] } 2 = false := by decide +kernel

def commanding (st : Nat) (fn : Nat) (v : Word64 := 0) : State :=
  { State.reset with parts := [(64, { pstate := st })], sel := { who := .host fn, part := 64, v := v } }

theorem test_wit_PartitionsAreCommanded : (commanding 0 0).sel.who = .host 0 ∧ (commanding 0 64).sel.part ≤ 64 ∧
    prangeRefused (commanding 0 0) 64 0x09000FF000000008 = false ∧
    prangeRefused { commanding 0 0 with parts := [(3, { prange := 0x09000FF000000008 })] } 64 0x09000FF000000008 = true ∧
    (partAt (commanding 6 0) 64).pstate = 6 ∧ (partAt (commanding 5 0) 64).pstate = 5 ∧ (partAt (commanding 2 0) 64).parked = [] ∧
    (commanding 2 0).resumes = [] := by decide +kernel

def freezing_ (st cycle : Nat) (st2 : Nat := 5) : State :=
  { parkRec st2 1 false with parts := [(1, { pstate := st, frzT0 := some 10 })], cycle := cycle, sel := { part := 1 } }

theorem test_wit_PartitionsFreezeAndClear : (partAt (freezing_ 3 4106) 1).pstate = 3 ∧ (frozenCtxs (freezing_ 3 4106) 1).all (ctxSettled (freezing_ 3 4106)) = true ∧
    (partAt (freezing_ 3 4106) 1).frzT0.getD 0 + 4096 ≤ (freezing_ 3 4106).cycle ∧ (partAt (freezing_ 5 9) 1).pstate = 5 ∧
    (partAt (freezing_ 4 9) 1).pstate ≠ 3 := by decide +kernel

/-- SREAD and SWRITE of DONE of the own panel, and of a register of another panel, at user and at hypervisor privilege. -/
def regMatch (priv : Nat) (late : Bool) : State :=
  let s := parkRec 3 1 late [7, 0]
  { s with ctxs := tsetD s.ctxs 1 { ctxAt s 1 with priv := priv } {} }

theorem test_wit_RegistersAreReadAndWritten : AtScribe (regMatch 0 false) (rs 0 0xFF0003) ∧ regCause (regMatch 0 false) (regMatch 0 false).cur (rs 0 0xFF0003) false = none ∧
    regCause (regMatch 0 false) (regMatch 0 false).cur (rs 0 0xFF0003) true = none ∧
    regCause (regMatch 0 false) (regMatch 0 false).cur (rs 0 0x050003) false = some cPERMISSION ∧
    regCause (regMatch 0 false) (regMatch 0 false).cur (rs 0 0xFF0C00) false = some cILLEGAL ∧ objNum (rs 0 0xFF0003) < 0x20 ∧
    (0x20 ≤ objNum (rs 0 0xFF003F) ∧ objNum (rs 0 0xFF003F) ≤ 0x3F) ∧ (shiftDest (regMatch 0 false) (regMatch 0 false).cur 7).isSome = true ∧
    InBlock (setScribe (regMatch 0 false) 0 { cur := some blk }) blk ∧ (regMatch 0 true).cur.late = true := by decide +kernel

theorem test_wit_RegistersAreProtected : regKind 0xC00 = .absent ∧ regKind 0x3F = .panel ∧ regKind 0x40 = .absent ∧ regKind 2 = .scribe ∧
    regKind 0x208 = .scribe ∧ regKind 0x14 = .context ∧ regKind 0x18 = .group ∧ regKind 0x304 = .partition ∧
    regTarget (regMatch 0 false) (regMatch 0 false).cur (rs 0 0x2F0003) = 47 ∧ regTarget (regMatch 0 false) (regMatch 0 false).cur (rs 0 0x300003) = 48 ∧
    panelOf (regMatch 0 false) 1 5 = false ∧ userWrite 3 = true ∧ userWrite 2 = false ∧ ctxOwner (regMatch 0 false) 200 = none := by decide +kernel

def hostReg (fn num p : Nat) (v : Word64) : State :=
  { regMatch 2 false with sel := { who := .host fn, fn := fn, num := num, p := p, v := v } }

theorem test_wit_HostsWriteRegisters : panelOf (hostReg 1 1 0 3) 1 0 = true ∧ panelOf (hostReg 1 1 47 3) 1 47 = false ∧
    3 ≤ (hostReg 1 1 0 10).sel.v.toNat % 16 ∧ (hostReg 1 1 0 10).sel.v.toNat % 16 ≤ 10 ∧ (hostReg 1 1 0 11).sel.v.toNat % 16 = 11 ∧
    ownRow 3 = false ∧ hostReaches (hostReg 1 3 0 3) 1 3 0 = true ∧ hostReaches (hostReg 64 3 0 3) 64 3 0 = false ∧
    hostReaches (hostReg 1 0x12 1 0) 1 0x12 1 = true ∧ hostReaches (hostReg 3 0x204 0 0) 3 0x204 0 = false := by decide +kernel

/-- The registers at both ends of the read-only numbers. -/
theorem test_wit_RegisterWritesTakeTheirFields : (0x100 : Nat) ≤ 0x100 ∧ (0x17F : Nat) ≤ 0x17F ∧ regKind 0x17F = .panel ∧ regKind 0x180 = .absent := by
  decide +kernel

theorem test_wit_ServiceChangesWhenIdle : panelIdle { setPanel State.reset 0 { svcPend := some true } with transit := [] } 0 = true ∧
    panelIdle { setPanel State.reset 0 { svcPend := some true } with transit := [tagOne] } 0 = false ∧
    (panelAt (setPanel State.reset 0 { svcPend := some true }) 0).svcPend = some true := by decide +kernel

/-! ## Witnesses: pages and traps -/

/-- A page-window well of pages 4 to 7, owned by context 1, and a page record's match over pages 4 to 4 + n - 1. -/
def winWell (slots : Tab PwSlot) : Well := { cfg := (5 <<< 125) ||| (4 <<< 20) ||| (3 <<< 4), owner := some 1, slots := slots }
def pageRec (x : Well) (va n : Lane) (late : Bool) : State := setWell (parkRec 3 1 late [va, 0, n]) 0 1 x

theorem test_wit_PageRecordsAreHeld : AtScribe (pageRec (winWell []) 0x4000 4 false) (rs 0 1) ∧ pageVa (pageRec (winWell []) 0x4000 4 false).cur = 0x4000 ∧
    pageN (pageRec (winWell []) 0x4000 128 false).cur ≤ 128 ∧ ¬ (pageN (pageRec (winWell []) 0x4000 129 false).cur ≤ 128) ∧
    pageVa (pageRec (winWell []) 0x4800 1 false).cur % 4096 ≠ 0 ∧ wellMode (winWell []) = 5 ∧
    shiftSite (pageRec (winWell []) 0x4000 4 false) (pageRec (winWell []) 0x4000 4 false).cur 1 = some 1 ∧
    InBlock (setScribe (pageRec (winWell []) 0x4000 4 false) 0 { cur := some blk }) blk ∧ bits (rs 0 0xFFFF).obj.toNat 15 8 = 0xFF ∧
    privOf (pageRec (winWell []) 0x4000 4 false) 1 ≠ 0 ∧ ctxOwner (pageRec (winWell []) 0x4000 4 false) 2 = some 1 := by decide +kernel

theorem test_wit_PageRecordsTakeEffect : AtScribe (pageRec (winWell []) 0x4000 4 true) (rs 0 1) ∧ (pageRec (winWell []) 0 1 true).cur.late = true ∧
    (pagesOf (pageRec (winWell []) 0x4000 4 true).cur).find? (fun g => !inWindow (winWell []) g) = none ∧
    (pagesOf (pageRec (winWell []) 0x4000 5 true).cur).find? (fun g => !inWindow (winWell []) g) = some 8 ∧
    inWindow (winWell []) 3 = false ∧ (winWell [(0, { page := 4, have_ := 0, dirty := 0, pin := true, used := 0 })]).slots.length = 1 ∧
    (match (pinXlat (pageRec (winWell []) 0x4000 1 true) (pageRec (winWell []) 0x4000 1 true).cur 1 1 [4]).2 with
      | .error _ => true | .ok _ => false) = true ∧ bits (rs 1 0x3FF).obj.toNat 31 10 = 0 := by decide +kernel

theorem test_wit_TrapAndReturn : AtScribe (parkRec 3 1 true) (rs 0 0xFFFF) ∧ (rs 0 0xFFFF).obj.toNat < 2 ^ 16 ∧ 2 ^ 16 ≤ (rs 0 0x10000).obj.toNat ∧
    InBlock (setScribe (parkRec 3 1 false) 0 { cur := some blk }) blk := by decide +kernel

/-- A mailbox with an entry of context 1, of a chain or not. -/
def mailed (chain late : Bool) (claims : List Nat) : State :=
  setScribe { parkRec 3 1 late with boxes := [(0, { entries := [{ ctx := 9 }, { ctx := 1, cause := 5, chain := chain }] })] } 0
    { cur := if late then none else some { blk with claims := claims } }

theorem test_wit_MailboxesAreTaken : AtScribe (mailed true false []) (rs 3) ∧ (takeEntry (mailed true false []) 0).map (·.1) = some 1 ∧
    takeEntry (mailed true false [1]) 0 = none ∧ (takeEntry (mailed false false []) 0).map (·.2.chain) = some false ∧
    (takeEntry (mailed true true []) 0).isSome = true ∧ (mailed true true []).cur.late = true ∧
    InBlock (mailed true false []) { blk with claims := [] } := by decide +kernel

theorem test_wit_PoisonIsTested : (rn 0 3).hi.toNat < 4 ∧ hasPorts (at_ 2 [(0, { tk [1] with poison := true })]).cur (portSet [0] k0) = true ∧
    anyNull (at_ 2 [(0, { tk [1] with poison := true })]).cur (portSet [0] k0) = false ∧
    (portTok (at_ 2 [(0, { tk [1] with poison := true })]).cur 0).poison = true ∧
    InBlock (inBlk [(0, { tk [1] with poison := true })]) blk ∧
    tooWide (at_ 2 [(0, tk [1])]) (at_ 2 [(0, tk [1])]).cur (valSend (ds 7) false { tag := 0, ty := 6, lanes := [1] }) = false := by decide +kernel

theorem test_wit_TrapsAreTaken :
    (let s := setScribe (parkRec 3 1 false) 0 { trapPend := some 7, tvec := 0x10000 }
     trapDue s 0 ≠ none ∧ thand (scribeAt s 0) = false ∧ (scribeAt s 0).cur = none ∧ gatedCtx s 0 240 (blockCtx s 0) = false ∧
     handlerOk s 0 = false ∧ handlerOk (setPlane s 0 0 { state := 3, blocks := 1 }) 0 = true) ∧
    trapDue (parkRec 3 1 false) 0 = none ∧ thand { tstat := 0x0020000000000000 } = true := by decide +kernel

def struck (loc : ErrLoc) : State :=
  { lay2 2 [] with sel := { loc := loc, site := 5 }, l2 := [(l2Key 0 64, { data := 0, dirty := false, poison := false, ctx := 0 })], transit := [tagOne] }

theorem test_wit_ErrorsStrikeTheirStore : (struck (.dram (3 * 2 ^ 42 - 2 ^ 40 - 1) 47)).sel.loc = .dram (3 * 2 ^ 42 - 2 ^ 40 - 1) 47 ∧
    (3 * 2 ^ 42 - 2 ^ 40 - 1) % 2 ^ 42 < 3 * 2 ^ 40 ∧ (l2At (struck (.l2 0 64 0)) 0 64).isSome = true ∧ isWell 1 = true ∧
    (struck (.outQueue 0)).transit[0]?.isSome = true ∧
    (let s := setNib (struck (.row 0 2 0)) 0 2 { groups := [{ plane := 0, node := 0, tag := 0, ops := [(0, tk [1])] }] }
     (nibAt s 0 2).groups[0]?.isSome = true ∧ s.sel.num = 0) ∧ (struck (.record 0 240 1 64)).sel.loc = .record 0 240 1 64 := by decide +kernel

/-! ## Witnesses: links, host memory, management -/

/-- A match at the scribe for a record of link `l` in the state given. -/
def linkRec (l : Nat) (x : Link) (ls : List Lane) (late : Bool) (priv : Nat := 2) : State :=
  let s := setLink (parkRec 3 1 late ls) l x
  { s with ctxs := [(1, { ctxAt s 1 with priv := priv })] }

theorem test_wit_LinkRecordsAreHeld : AtScribe (linkRec 27 {} [3, 26] false) (rs 1 27) ∧
    privOf (linkRec 27 {} [3, 26] false) (matchCtx (linkRec 27 {} [3, 26] false) 0 0 (linkRec 27 {} [3, 26] false).cur.tag) = 2 ∧
    privOf (linkRec 27 {} [3, 26] false 1) 1 = 1 ∧ bits (rs 1 28).obj.toNat 7 0 = 28 ∧ bits (rs 1 28).obj.toNat 31 8 = 0 ∧
    isPort 3 = true ∧ isPort 26 = true ∧ isPort 27 = false ∧ isPort 2 = false ∧ (State.reset).owndev.toNat = 0xFFF ∧
    (routeOf { State.reset with routes := [(3, 26)] } 3).isSome = true ∧ (1151 : Nat) < 1152 ∧
    InBlock (setScribe (linkRec 27 {} [3, 26] false) 0 { cur := some blk }) blk := by decide +kernel

theorem test_wit_LinkRecordsTakeEffect : AtScribe (linkRec 0 { state := 2 } [3, 26] true) (rs 1 0) ∧ (linkRec 0 {} [3, 26] true).cur.late = true ∧
    (linkAt (linkRec 3 { state := 0 } [3, 26] true) 3).state = 0 ∧ (linkAt (linkRec 3 { state := 2 } [3, 26] true) 3).state = 2 ∧
    (isDieLink 0 = true ∧ residentOn (linkRec 0 { state := 2 } [3, 26] true) (dieLinkEnds 0) = true) ∧ isDieLink 3 = false ∧
    residentOn (linkRec 1 { state := 2 } [3, 26] true) (dieLinkEnds 1) = false ∧ (linkRec 3 {} [3, 26] true).routeAsks.length = 0 ∧
    devBusy (linkRec 3 {} [3, 26] true) 3 = false ∧
    devBusy { linkRec 3 {} [3, 26] true with remotes := [{ id := 0, dev := 3, link := 3, sent := 0, body := .fence 0, req := none }] } 3 = true := by
  decide +kernel

/-- A flit at link `l`, whose state is `x`. -/
def flitAt (l : Nat) (x : Link) (f : Flit) : State := { setLink State.reset l x with sel := { link := l, flit := f } }
def flit1 (inc : BitVec 8) (ok : Bool) : Flit := { inc := inc, crcOk := ok, dev := 0xFFF, src := 1, body := .fence 0 }
def up (bad : Nat) : Link := { state := 2, inc := 4, bad := bad }

theorem test_wit_FlitsAreReceived : (linkAt (flitAt 26 (up 7) (flit1 4 false)) 26).state = 2 ∧ linkBlocked (flitAt 26 (up 7) (flit1 4 false)) 26 = false ∧
    (up 7).bad < 8 ∧ 8 ≤ (up 8).bad ∧ isPort 26 = true ∧ isPort 0 = false ∧ (flit1 3 true).inc ≠ (up 0).inc ∧ (flit1 4 true).inc = (up 0).inc ∧
    (linkAt (flitAt 26 {} (flit1 4 true)) 26).state ≠ 2 ∧
    (let m : Remote := { id := 0, dev := 3, link := 3, sent := 5, body := .fence 0
                         req := some { kind := .xferSector 9 0 0, path := [], born := 1, ctx := 2, issuer := 0, addr := 0, ctag := 2 } }
     m.sent + 2 ^ 20 ≤ 1048581 ∧ 1048580 < m.sent + 2 ^ 20 ∧ m.req.isSome = true) := by decide +kernel

theorem test_wit_LinksChangeState : (linkAt (flitAt 27 { state := 1 } default) 27).state = 1 ∧ (linkAt (flitAt 27 { state := 3 } default) 27).state = 3 ∧
    (linkAt (flitAt 27 (up 0) default) 27).state = 2 ∧ isDieLink 2 = true ∧ 9 ≤ (up 9).bad ∧ freezable State.reset ≠ [] ∧
    (let s := { flitAt 2 (up 9) default with parts := (List.range 65).map (fun k => (k, { pstate := 4 })) }
     freezable s = [] ∧ freezing s = false) ∧
    (let s := { flitAt 2 (up 9) default with parts := (List.range 65).map (fun k => (k, { pstate := 3 })) }
     freezable s = [] ∧ freezing s = true) := by decide +kernel

/-- A host request of the physical function. -/
def hostMem (addr len : Nat) (bs : Option (List Byte)) (fn : Nat := 0) : State :=
  { State.reset with sel := { req := { fn := fn, addr := addr, len := len, bytes := bs, poison := false } } }

/-- Requests in a window and just below the windows, of functions that reach them and that do not. -/
theorem test_wit_HostRequestsAreServed :
    windowOf (hostMem 0xFFF2FFFFF00FC0 64 none) (hostMem 0xFFF2FFFFF00FC0 64 none).sel.req = some (0, 0xFC0) ∧
    windowOf (hostMem 0xFFF2FFFFF00FC1 64 none) (hostMem 0xFFF2FFFFF00FC1 64 none).sel.req = none ∧
    reachesWindow (hostMem 0 0 none) 0 0 = true ∧ reachesWindow (hostMem 0 0 none) 64 0 = false ∧
    hostServed (hostMem 0xFFF2FFFFEFFFC0 64 none) (hostMem 0xFFF2FFFFEFFFC0 64 none).sel.req = true ∧
    hostServed (hostMem 0xFFF2FFFFEFFFC1 64 none) (hostMem 0xFFF2FFFFEFFFC1 64 none).sel.req = false ∧
    windowOf (hostMem 0xFFF2FFFFEFFFC0 64 none) (hostMem 0xFFF2FFFFEFFFC0 64 none).sel.req = none ∧
    (hostMem 0 1 (some [7])).sel.req.bytes = some [7] ∧ (hostMem 0 0 none).sel.fn < 65 ∧
    hostServed (hostMem 0xFFF00000000000 64 none 64) (hostMem 0xFFF00000000000 64 none 64).sel.req = false := by decide +kernel

def managed (m : Mgmt) (cycle : Nat := 0) (sel : Sel := {}) : State := { State.reset with mgmt := m, cycle := cycle, sel := sel }

theorem test_wit_SuppliesBringTheDiesUp : (managed { standby := false }).mgmt.standby = false ∧
    (managed { released := false }).mgmt.main = true ∧ (managed { released := false }).mgmt.fwPass = true ∧
    (managed { main := false }).mgmt.standby = true ∧ (managed {}).mgmt.released = true := by decide +kernel

theorem test_wit_PanelsStartAndTest : (managed {} 822500 { p := 47 }).cycle = 17500 * 47 ∧ ({} : Mgmt).panelsFuse.getLsbD 47 = true ∧
    (panelAt (managed {} 822500 { p := 47 }) 47).started = false ∧ ({ panelsFuse := 1 } : Mgmt).panelsFuse.getLsbD 47 = false ∧
    (let pn : Panel := { started := true, startCycle := 17500 }
     pn.tested = false ∧ pn.fenced = false ∧ 57500 ≤ pn.startCycle + 40000 ∧ ¬ (57501 ≤ pn.startCycle + 40000)) := by decide +kernel

def limited (l : Limiter) (cycle : Nat) (waits : Bool) : State :=
  let s := setLimiter (managed {} cycle { die := 0, ok := true, num := 3001 }) 0 l
  if waits then setNib { s with arrays := [arr1] } 0 34
    { store := [(0, (rn 12).bits 0xAB)], ready := [{ plane := 0, node := 0, tag := 0, ops := [], done := 0 }] } else s

theorem test_wit_TheLimiterSteps : (limited { lastStep := 5 } 260 true).cycle < 5 + (limited {} 260 true).mgmt.ramp.toNat ∧
    5 + (limited {} 261 true).mgmt.ramp.toNat ≤ 261 ∧ mmaWaits (limited {} 261 true) 0 = true ∧ mmaWaits (limited {} 261 false) 0 = false ∧
    ({ duty := 15 } : Limiter).duty < min 16 ({} : Limiter).ceiling ∧ min 16 ({ ceiling := 7 } : Limiter).ceiling ≤ 7 ∧
    (if ({ passed2 := true } : Limiter).passed2 then 2 else 0) < ({ duty := 3 } : Limiter).duty ∧ 3000 < (limited {} 2000 false).sel.num ∧
    ({} : Limiter).lastCeil + 1024 ≤ 2000 ∧ (managed {} 0 { num := 3000 }).sel.num ≤ 3000 := by decide +kernel

theorem test_wit_RequestsAreServed : (managed {}).mgmt.standby = true ∧ (managed {}).mgmt.serving = none ∧ ({ num := 3 } : Sel).num < 4 ∧
    4 ≤ ({ num := 4 } : Sel).num ∧ (managed { main := false }).mgmt.main = false ∧
    (addKey {} 5).isSome = true ∧ addKey { keys := (List.range 8).map (fun i => (i, BitVec.ofNat 64 (i + 10))) } 5 = none ∧
    (managed { serving := some (1, [0]) }).mgmt.serving = some (1, [0]) ∧ (managed {}).mgmt.released = true := by decide +kernel

theorem test_wit_CountersAreKept : (managed {} (2 ^ 32)).cycle % 2 ^ 32 = 0 ∧ (managed {} (2 ^ 32)).cycle ≠ (managed {} (2 ^ 32)).mgmt.lastCommit ∧
    (managed {} (2 ^ 20 + 1)).cycle % 2 ^ 20 ≠ 0 ∧ (managed {} (2 ^ 20) { nums := [127, 128, 0] }).sel.nums = [127, 128, 0] ∧
    min 15 (127 / 8) = 15 ∧ min 15 (3000 / 200) = 15 := by decide +kernel

/-! ## Witnesses: further clauses -/

/-- A descriptor from well 1 to well 3 and a state that admits it. -/
def dsc : List Lane := [0, 0, 0, 0, 0x03010000, 0, 0, 0]
def issueOn : State := setPg (setWell (setWell (at_ 2 [(0, tk dsc)]) 0 1 { cfg := cfg1 }) 0 3 { cfg := cfg1 }) 0 0 { alloc := true }

theorem test_wit_TransfersIssue_descriptor : ActsNow issueOn ∧ tagFree issueOn 0 2 = true ∧ Supplied issueOn (rt 2 0 0).ctl [0] ∧
    (portTok issueOn.cur 0).poison = false ∧ shiftDesc issueOn issueOn.cur (portTok issueOn.cur 0).lanes = some dsc ∧
    descBad issueOn 0 (matchCtx issueOn 0 0 issueOn.cur.tag) opXfer (rt 2 0 0) dsc = false ∧
    descBad (at_ 2 [(0, tk dsc)]) 0 0 opXfer (rt 2 0 0) dsc = true ∧ (rt 2 0 0).len = 0 ∧
    foreignWell issueOn { xf 0 with desc := dsc } = false := by decide +kernel

/-- A transfer's sector whose data has come, at the last arbiter of its path. -/
def xferLast : State :=
  { xferOn (xf 1) with sel := { k := arbWell 0 3 }
                       reqs := [{ kind := .xferSector 9 0 0, path := [arbWell 0 3], born := 1, ctx := 0, issuer := 0, addr := 0, ctag := 2
                                  data := some ([], false) }] }
theorem test_wit_TransferSectorsComplete_served : choose xferLast xferLast.sel.k = some 0 ∧
    (xferLast.reqs[0]?).map (fun q => (q.path, q.data)) = some ([arbWell 0 3], some ([], false)) ∧ xferLast.sel.k / 65536 = 0 ∧
    tgetD xferLast.served (xferLast.sel.k * 128 + 127) 0 ≠ xferLast.cycle + 1 ∧ xferOf xferLast 9 = some (xf 1) ∧
    (xf 1).stopped = false ∧ (xf 1).arr = none ∧ (xferOn (xf 1)).reqs[(xferOn (xf 1)).sel.k]?.map (fun q => (q.path, decide (q.due ≤ 5), decide (q.born < 5))) =
      some ([], true, true) ∧ (xf 1).r.len ≠ 0 := by decide +kernel

theorem test_wit_ProgressCounters_pulse : pulseDue (pgOn {}) 0 = false ∧
    pulseDue (setPanel (pgOn {}) 0 { panelAt (pgOn {}) 0 with started := true }) 0 = true ∧ pgHolder ({} : Pg) = none ∧
    pgHolder { alloc := true, colour := 1 } = some (colourOf (pgOn {}).cur.tag) ∧ pgHolder { alloc := true, colour := 2 } = some 2 ∧
    ({} : Pg).stamp ≠ (pgOn {}).cycle + 1 ∧ bit (pgWords { alloc := true }).2 51 = true ∧
    ({ stamp := 1, was := (0, 2 ^ 51, 0) } : Pg).stamp = (pgOn {}).cycle + 1 ∧ bit ({ stamp := 1, was := (0, 2 ^ 51, 0) } : Pg).was.2.1 51 = true := by
  decide +kernel

/-- Counter 3 of panel 0 of a RESIDENT context, and one that a PGINIT of the cycle takes. -/
def pgRes (x : Pg) : State := { pgOn x with ctxs := [(0, { state := 3 })] }
theorem test_wit_PulsesUpdateCounters_counter : pulsed (pgRes { alloc := true }) (pgAt (pgRes { alloc := true }) 0 3) = true ∧
    (pgAt (pgRes { alloc := true }) 0 3).pend = none ∧ (pgRes { alloc := true }).cycle % pulseP (pgRes { alloc := true }) (pgRes { alloc := true }).sel.p = 0 ∧
    (panelAt (pgRes { alloc := true }) (pgRes { alloc := true }).sel.p).lastPulse ≠ 1 ∧
    (pgAt (pgRes { pend := some { alloc := true, value := 4 } }) 0 3).pend.map (fun y => y.alloc) = some true := by decide +kernel

/-- A record that waits for mask 5 as `w` encodes it. -/
def waitM (w : Rec96) : Match := { plane := 0, node := 1, tag := 0, ops := [(0, tk [1]), (1, tk [5])], scales := [], word := w }
theorem test_wit_CompletionWaits_block :
    (let s := setScribe (inBlk [(0, tk [1]), (1, tk [5])]) 0 { cur := some blk, done := 5 }
     Takes s (formN (rn 0)) 6 [0, 1] false ∧ s.cur.site = 240 ∧ (scribeAt s 0).done &&& waitMask (rn 0) s.cur = 5) ∧
    (let s := inBlk [(0, tk [1]), (1, tk [5])]
     Takes s (formN (rn 0)) 6 [0, 1] false ∧ (scribeAt s 0).done &&& waitMask (rn 0) s.cur = 0) ∧
    (∀ w ∈ [Instr.waitany (rn 0), .waitall (rn 0), .ffready (rn 0)], (encode w).map (fun x => decode (waitM x).word) = some (.ok w)) ∧
    waitMask (rn 0) (waitCur 0 2 (waitM 0)) = 5 ∧ (scribeAt (doneOn 1) 0).done &&& 5 = 1 := by decide +kernel

theorem test_wit_ArrayRecordsComplete_others :
    rowFired { arr1 with passes := [{ pass1 false with rows := [{ row := 0, j := 3, level := 1, wb := false, site := 34, node := 1, plane := 0, tok := none, scales := [] }] }] }
      0x0010000000000000 0 = true ∧
    cellOf (cellAt 36 []) 0 36 = some (0, 0, 1) ∧ anyNull (cellAt 34 [(0, { tk [] with null := true })]).cur (portSet [0] k0) = true ∧
    hasPorts (cellAt 36 [(0, tk [1] 12)]).cur (portSet [0] k0) = true ∧ (rn 12 1 3).lit.toNat < 128 ∧ arrTyOk (rn 12 1 3).fmt = true ∧
    (accAt (setAcc arr1 0 3 { run := some 0, next := 1 }) 0 3).next = bits (rn 10 1 0x103).lit.toNat 23 8 := by decide +kernel

/-- The die's cache of translations holds the leaf of page 1 of context 0: a page of 4 KiB that may be read and written. -/
def leafOf (dev : Nat) : Word64 := BitVec.ofNat 64 (put dev 44 + put 1 12 + 15)
def polls (dev : Nat) (up : Bool) : State :=
  { roundOf (mid up) with tlb := [{ cache := 1, key := 0, ctx := 0, page := 1, size := 0, leaf := leafOf dev }], routes := [(5, 3)] }
def xlOf (s : State) : State × Xlat := xlateNow s 0 0 240 1 (4096 + 512) .read

theorem test_wit_CarriesArePolled_answers :
    (wellAt (polls 0xFFF false) 0 1).cavs[(polls 0xFFF false).sel.k]? = some (mid false) ∧ (mid false).stalled = false ∧
    (match xlOf (roundOf (mid false)) with | (_, .bad _) => true | _ => false) = true ∧
    (match xlOf (polls 0xFFF false) with
     | (s, .ok pa _) => ownDev s pa && (match (readCarry s 0 1 (mid false) (4096 + 512)).2 with | .ok (some _) => true | _ => false)
     | _ => false) = true ∧
    (match xlOf { polls 0xFFF false with wmem := [(wellAddr 0 1 (cavRegion (mid false)), 1)] } with
     | (s, .ok pa _) => ownDev s pa && (match (readCarry s 0 1 (mid false) (4096 + 512)).2 with | .ok none => true | _ => false)
     | _ => false) = true ∧
    (match xlOf (polls 5 false) with
     | (s, .ok pa _) => !ownDev s pa && !carryAsked s 0 1 (mid false) false && (cameIn (mid false) false 4).isNone
     | _ => false) = true := by decide +kernel

theorem test_wit_CollectivesAreSent_paths : linkPath (dieOf 0) (dieOf 0) = [] ∧
    portPath { collMatch 3 with routes := [(3, 3)] } 0 3 = some [arbPort 3] ∧ portPath (collMatch 3) 0 3 = none := by decide +kernel

theorem test_wit_SpawnQueuesADraw_guards : anyNull (inCtx 2 [(0, tk [1])]).cur (portSet [0] k0) = false ∧ predFalse k0 (inCtx 2 [(0, tk [1])]).cur = false ∧
    badCtl [0] k0 = false ∧ dieOf (inCtx 2 []).cur.p = 0 ∧ dieOf ({ p := 16 } : Cur).p ≠ 0 ∧ kn.nullpass = true ∧ k0.nullpass = false ∧
    predFalse kp ({ ops := [(0, tk [1]), (2, tk [0])] } : Cur) = true := by decide +kernel

/-- A draw that is ready, and one whose point has served in this cycle. -/
theorem test_wit_DrawsOpenGroups_order :
    (let s := drawing none 3
     tgetD s.pointUsed 0 0 ≠ s.cycle + 1 ∧ drawBefore s [(draw2 none).born, 2, 0] = false ∧ (s.draws.take s.sel.k).any (fun y => y.ctx == 1) = false ∧
     s.points.any (fun y => y.point == 0 && lexBefore (pointKey y) [(draw2 none).born, 2, 0]) = false) ∧
    tgetD ({ drawing none 3 with pointUsed := [(0, 101)] } : State).pointUsed 0 0 = (drawing none 3).cycle + 1 := by decide +kernel

/-- Requests at point 0: a read of cycle 5, and a RETURN of cycle 4. -/
def atPoint (kind : Nat) (used : Nat) : State :=
  { inCtx 2 [(0, tk [1])] with
    draws := [], pointUsed := [(0, used)]
    points := [{ point := 0, born := 5, kind := 3, i := .callocEntry (rn 0 1), cur := {} }, { point := 0, born := 4, kind := kind, i := .ret (rn 0), cur := {} }] }
theorem test_wit_PointsServeInOrder : pointFirst (atPoint 1 0) 0 = some 1 ∧ ((atPoint 1 0).points[1]?).map (·.kind) = some 1 ∧
    tgetD (atPoint 1 0).pointUsed 0 0 ≠ (atPoint 1 0).cycle + 1 ∧ tgetD (atPoint 1 101).pointUsed 0 0 = (atPoint 1 101).cycle + 1 ∧
    drawBefore (atPoint 1 0) [4, 1, 0] = false ∧ ((atPoint 3 0).points[1]?).map (·.kind) = some 3 ∧
    dieOf ({ p := 16 } : Cur).p ≠ 0 ∧ dieOf ({} : Cur).p = 0 := by decide +kernel

theorem test_wit_ReturnTokensAreDelivered_link : linkUp State.reset 0 (dieOf 0) = true := by decide +kernel

theorem test_wit_CallocGrantsAndReads_bounds :
    (let s := inCtx 2 []
     (colourOf s.cur.tag, partOf s (matchCtx s 0 0 s.cur.tag)) = (1, 1) ∧ (ctxAt s 1).colbase ≤ 1 ∧ 40 ≤ (ctxAt s 1).collim ∧ 0 < (ctxAt s 1).colbase) := by
  decide +kernel

theorem test_wit_BarriersAreMadeAndFreed_guards : Clean (atBar {} [(0, tk [0x03FF0001])]) ∧ bits (rs 0 4095).obj.toNat 31 14 = 0 ∧ (rs 1 4095).sub = 1 ∧
    (bar 2 2 0).ctx ≠ matchCtx (at_ 2 []) 0 0 (at_ 2 []).cur.tag ∧ (bar 1 1 0).state = 1 := by decide +kernel

theorem test_wit_BarriersAreWaitedFor_guards : bits (rs 0 4095).obj.toNat 31 14 = 0 ∧ Supplied (atBar (bar 1 1 0) [(0, tk [1])]) k0 [0] ∧
    (atBar (bar 1 1 0) [(0, tk [1])]).cur.again ≠ 1 ∧ ({ again := 1 } : Cur).again = 1 ∧ barMember (bar 1 1 0) 0 0 = true ∧
    laneN (portTok (atBar (bar 1 1 0) [(0, tk [1])]).cur 0).lanes 0 < (bar 1 1 0).count := by decide +kernel

theorem test_wit_BarriersStarveAndNotify_armed :
    (let s := setBarrier State.reset 0 0 { state := 1, bwatch := 1, watch := 1024 }
     (barrierAt s s.sel.die s.sel.num).state = 1 ∧ (barrierAt s s.sel.die s.sel.num).bwatch ≠ 0) ∧
    ({ bwatch := 1, watch := 1023 } : Barrier).watch < ({ bwatch := 1, watch := 1023 } : Barrier).bwatch * 1024 := by decide +kernel

theorem test_wit_QueueRecordsAct_mark :
    (let s := atQ (q1 1 []) 240 true
     Supplied s k0 [0] ∧ Clean s ∧ s.cur.site = 240 ∧ s.cur.late = true ∧ privOf s (matchCtx s 0 0 s.cur.tag) ≠ 0 ∧ (queueAt s 255).log ≠ 0 ∧
     (queueAt s (bits (rs 0 255).obj.toNat 7 0)).state ≠ 0 ∧ bits (rs 0 255).obj.toNat 31 8 = 0) ∧
    ({ state := 1 } : Queue).log = 0 ∧ (q1 1 [5]).recs = 5 :: [] ∧ (queueAt (atQ {} 2) 255).state = 0 := by decide +kernel

theorem test_wit_PlaneRecordsTakeEffect_free :
    (let s := planeRec 1 {} (stageDesc 1) true
     descReserved (stageDesc 1) = false ∧ bit (ctxAt s (matchCtx s 0 0 s.cur.tag)).planes (descPlane (stageDesc 1)) = true ∧ descPlane (stageDesc 1) = 1) ∧
    (let s := planeRec 1 { state := 3 } [1] true
     laneN (portTok s.cur 0).lanes 0 < 4 ∧ bit (ctxAt s (matchCtx s 0 0 s.cur.tag)).planes 1 = true ∧ (planeOf s 0 1).state = 3) ∧
    launchHolds { planeRec 1 { state := 2 } [1] true with launches := [{ launch1 0 with ctx := 1 }] } 0 1 = true ∧
    (planeOf (planeRec 1 { state := 2 } [1] true) 0 1).state ≠ 4 := by decide +kernel

theorem test_wit_FlipsTakeEffect_wells :
    (let s := flipping { state := 2, wells := [(1, cfg1)] }
     (planeOf s 0 1).wells.any (flipWellBad s 0 (planeOf s 0 1).ctx) = false ∧ (planeOf s 0 1).rules.any entryBad = false) ∧
    (let s := flipping { state := 5, wells := [(1, 7 <<< 125)] }
     (planeOf s 0 1).wells.any (flipWellBad s 0 (planeOf s 0 1).ctx) = true ∧ recheckBad s 0 1 = false) := by decide +kernel

theorem test_wit_SnapshotsRun_marker :
    (let s := markerFor wCopy
     let f := s.transit.getD 0 default
     s.transit[s.sel.k]? = some f ∧ f.queued = false ∧ f.tok.snap = true ∧ entryLate s f = false ∧ isNib f.tok.site.toNat = true ∧
     (panelAt s 0).deadSnaps.contains 7 = false ∧ (nibAt s 0 2).forwarded.contains (0, 1, 7) = false ∧ recAt s 0 2 0 1 = wCopy ∧
     (markerDests wCopy).length ≤ 2) ∧
    (panelAt (snapRec livePanel 4) 0).snapWait = [] := by decide +kernel

/-- Queue 7's head asks for context 2, whose kernel of one panel and one colour stands in memory, and context 1 holds panel 0. -/
def kernelBytes : List (Nat × Byte) :=
  [(0, 0x4B), (1, 0x49), (2, 0x53), (3, 0x42), (4, 1), (12, 2), (64, 1), (76, 96), (80, 2), (88, 96), (92, 64), (100, 1), (101, 1), (102, 4), (110, 1), (112, 1)]
def yielding : State :=
  let s := parkRec 2 1 true
  { s with
    queues := [(7, { q1 2 [1] with lsz := 0, ring := 0xFFF00000000000 })]
    mem := [(1, 8), (7, 1), (13, 2)] ++ kernelBytes.map (fun b => (6144 + b.1, b.2))
    tlb := [{ cache := 1, key := 0, ctx := 2, page := 0, size := 0, leaf := leafOf 0xFFF }] }

theorem test_wit_ContextRecordsTakeEffect_yield :
    (matchCtx (parkRec 3 1 true) 0 0 (parkRec 3 1 true).cur.tag = 1) ∧ (2 : Nat) ≠ 1 ∧ bits (rs 0 2).obj.toNat 7 0 = 2 ∧
    workWaits yielding 1 0 = true ∧ (ctxAt yielding 1).state = 3 ∧
    (parkRec 4 1 true).resumes.any (fun y => y.ctx == 2) = false ∧ (ctxAt (parkRec 5 1 true) 2).state ≠ 4 ∧ (ctxAt (parkRec 5 1 true) 2).state ≠ 2 ∧
    ctxOwner (parkRec 4 1 true) 2 = some (partOf (parkRec 4 1 true) 1) := by decide +kernel

/-- Context 2's page 0 is cached, and its save area, at 0, holds the bytes given. -/
def leaf2 : List TlbEntry := [{ cache := 1, key := 0, ctx := 2, page := 0, size := 0, leaf := leafOf 0xFFF }]
def area (bs : List (Nat × Byte)) : List Host.Cell := bs.map (fun b => (homeForm (0xFFF * 2 ^ 44 + 4096) + b.1, b.2))
def readOf (s : State) : Nat := match (readHeader s 2 0).2 with | .ok w => w + 1 | .error _ => 0

theorem test_wit_ParksStreamAndCommit_header :
    readOf { parking (park2 5) none 9 with tlb := leaf2 } = 1 ∧
    (let s := { parking (park2 5) none 9 with tlb := leaf2 }
     (commitHeader (readHeader s 2 0).1 2 0).2 = none ∧ ctxBusy s 2 = false) ∧
    (commitHeader (parking (park2 5) none 9) 2 0).2 ≠ none ∧
    ctxBusy { parking (park2 5) none 9 with reqs := [{ kind := .flush 0 1 [] false, path := [], born := 0, ctx := 2, issuer := 0, addr := 0, ctag := 64 }] } 2 = true := by
  decide +kernel

/-- A context to restore, whose header and slots stand in memory, and panel 0 free. -/
def restores (bs : List (Nat × Byte)) (im : List SavedPanel) : State :=
  { setPanel (restoring im []) 0 { started := true, tested := true } with
    resumes := [{ ctx := 2, panels := none, ask := none }], tlb := leaf2, mem := area bs }
def im0 : SavedPanel := takeImage State.reset 2 0
theorem test_wit_RestoresComplete_image :
    readOf (restores [] [im0]) = 1 ∧ readOf (restores [(0, 1)] [im0]) = 2 ∧
    (match (readSlots (restores [(0, 1)] [im0]) 2 0).2 with | .ok ps => ps == [0] | .error _ => false) = true ∧
    tgetD (restores [(0, 1)] [im0]).images 4 [] = [im0] ∧ targetsOk (restores [(0, 1)] [im0]) 2 [im0] [0] = true ∧
    targetsOk (restores [(0, 1)] [im0]) 2 [im0] [1] = false ∧ (([] : List SavedPanel).length < 1) ∧
    (restagePanel (restores [] [im0]) [im0] [0] 2 0 im0).isSome = true ∧
    (restagePanel (restores [] [im0]) [im0] [0] 2 0 { im0 with planes := [(1, { state := 2, obj := 8192 })] }).isNone = true ∧
    (match loadWells 2 0 0 0 im0 (restores [] [im0], none) with | (_, none) => true | _ => false) = true := by decide +kernel

theorem test_wit_ContextRecordsAreBuilt_release : (building 1 1).resumes.find? (fun y => y.ctx == 2) = none ∧ (building 1 1 6).sel.num = 6 ∧
    ({ building 4 1 with resumes := [{ ctx := 2, panels := none, ask := none }] } : State).resumes.find? (fun y => y.ctx == 2) =
      some { ctx := 2, panels := none, ask := none } ∧ (ctxAt (building 4 1) 2).state = 4 ∧ (building 1 1).sel.part ≤ 64 ∧ (ctxAt (building 0 1) 2).state = 0 := by
  decide +kernel

theorem test_wit_RegistersAreProtected_others : panelOf (regMatch 1 false) 1 0 = true ∧ privOf (regMatch 1 false) 1 = 1 ∧ privOf (regMatch 2 false) 1 = 2 ∧
    regTarget (regMatch 1 false) (regMatch 1 false).cur (rs 0 0x000003) = 0 ∧ regTarget (regMatch 1 false) ({ (regMatch 1 false).cur with p := 5 }) (rs 0 0x000003) ≠ 5 ∧
    panelOf (regMatch 1 false) (partOf (regMatch 1 false) 1) 0 = true ∧ ctxOwner (parkRec 3 9 false) 2 = some 9 := by decide +kernel

theorem test_wit_HostsWriteRegisters_window :
    (let s := { hostReg 1 3 0 3 with sel := { (hostReg 1 3 0 3).sel with off := some (0x8000 * 47 + 8 * 3) } }
     offBad s = false ∧ accessed s s.sel.num = (3, 47)) ∧ offBad (hostReg 1 3 0 3) = false ∧ (hostReg 1 3 0 3).sel.off = none ∧
    offBad { hostReg 1 3 0 3 with sel := { (hostReg 1 3 0 3).sel with off := some 0x800000 } } = true := by decide +kernel

/-- An MPIN and an MUNPIN of page 4 at well 1, tested or not. -/
def pinAsk (pins began : Bool) : PinAsk := { cur := (pageRec (winWell []) 0x4000 1 true).cur, r := rs 0 1, w := 1, pins := pins, began := began }
def pinOn (x : Well) : State := { pageRec x 0x4000 1 true with tlb := [{ cache := 1, key := 0, ctx := 1, page := 4, size := 0, leaf := leafOf 0xFFF }] }
theorem test_wit_WindowsPinPages :
    (pinAsk false false).pins = false ∧ (pinAsk true false).began = false ∧ (pinAsk true true).began = true ∧ pagesOf (pinAsk true false).cur = [4] ∧
    (pagesOf (pinAsk true false).cur).find? (fun g => !inWindow (winWell []) g) = none ∧
    (match (pinXlat (pinOn (winWell [])) (pinAsk true false).cur 1 1 [4]).2 with | .ok xs => xs.length == 1 | .error _ => false) = true ∧
    (takeSlot (pinOn (winWell [])) 0 1 4 4096).isSome = true ∧
    (match takeSlot (pinOn (winWell [])) 0 1 4 4096 with
     | some (t, i) => (tget? (wellAt t 0 1).slots i).any (fun sl => !bit sl.have_ 0)
     | none => false) = true ∧
    (match takeSlot (pinOn (winWell [(0, { page := 4, have_ := 2 ^ 128 - 1, dirty := 0, pin := false, used := 0 })])) 0 1 4 4096 with
     | some (t, i) => (tget? (wellAt t 0 1).slots i).any (fun sl => (List.range 128).all (fun k => bit sl.have_ k))
     | none => false) = true ∧
    (takeSlot (pinOn (winWell ((List.range 128).map (fun i => (i, { page := 100 + i, have_ := 0, dirty := 0, pin := true, used := 0 }))))) 0 1 4 4096).isNone = true := by
  decide +kernel

theorem test_wit_PageRecordsTakeEffect_probe :
    (let s := pinOn (winWell [])
     (match leafNow s 1 0 240 0x4000 with | (_, .leaf _) => true | _ => false) = true ∧
     (match leafNow s 1 0 240 0x5000 with | (_, .bad k) => k == cTRANSLATION | _ => false) = true ∧
     ctxOwner s 1 = some (partOf s 1) ∧ privOf s 1 ≠ 0 ∧ objCtx s s.cur (rs 0 0xFFFF) = 1 ∧ pageVa s.cur % 4096 = 0 ∧ pageN s.cur ≠ 0 ∧ pageN s.cur % 4 ≠ 3 ∧
     pageN s.cur ≤ 128 ∧ wellMode (wellAt s 0 1) = 5 ∧ (wellAt s 0 1).owner = some 1 ∧ shiftSite s s.cur 1 = some 1) ∧
    bits (rs 0 0xFFFF).obj.toNat 15 8 = 0xFF ∧ bits (rs 0 0xFFFF).obj.toNat 31 16 = 0 := by decide +kernel

theorem test_wit_FlitsAreReceived_links : isDieLink 2 = true ∧ isDieLink 26 = false ∧ linkBlocked (flitAt 2 (up 0) (flit1 4 true)) 2 = false ∧
    (linkAt (flitAt 2 (up 0) (flit1 4 true)) 2).state = 2 ∧ (flit1 4 true).crcOk = true ∧ (flit1 4 false).crcOk = false ∧
    ({ id := 0, dev := 3, link := 3, sent := 5, body := .fence 0, req := none } : Remote).ans = none := by decide +kernel

theorem test_wit_LinksChangeState_port : isPort 26 = true ∧ (linkAt (flitAt 26 (up 0) default) 26).state = 2 ∧ (8 : Nat) < 64 ∧ (up 8).bad < 9 ∧
    (linkAt (flitAt 26 { state := 1 } default) 26).state = 1 := by decide +kernel

theorem test_wit_HostRequestsAreServed_sizes : (hostMem 0 1 (some [7])).sel.req.fn < 65 ∧ ([7] : List Byte).length = (hostMem 0 1 (some [7])).sel.req.len ∧
    (hostMem 0 64 none).sel.req.bytes = none := by decide +kernel

theorem test_wit_CommitConditions_final : isFinal (running wCopy blk1 []) 0 blk1 = false ∨ isFinal (running wCopy blk1 []) 0 blk1 = true := by decide +kernel

/-! ## Witnesses: every record and every event completes -/

/-- A state whose match at nib 2 has 32-bit integers on ports a, b and c, and one with wide ones. -/
def ints : State := at_ 2 (abc [1] [2] [3] 2)
def wide : State := at_ 2 (abc [1, 0] [2, 0] [3, 0] 3)

theorem test_wit_IntegerRecordsComplete :
    IntFields true (rn 2) ∧ Takes ints (formN (rn 2)) 2 [0, 1] false ∧ Takes ints (formN (rn 2)) 2 [0, 1, 2] false ∧ Takes ints (formN (rn 2)) 2 [0] false := by decide +kernel
theorem test_wit_IntegerRecordsComplete_1 :
    IntFields false (rn 3) ∧ Takes wide (formN (rn 3)) 3 [0, 1] false ∧ Takes wide (formN (rn 3)) 3 [0, 1, 2] false ∧ Takes wide (formN (rn 3)) 3 [0] false := by decide +kernel
theorem test_wit_IntegerRecordsComplete_2 :
    (rn 2 0 0 32).fmt.toNat < 8 ∧ (rn 2 0 0 32).hi = 0 ∧ 1 ≤ (rn 2 0 0 32).cf.toNat ∧ (rn 2 0 0 32).cf.toNat ≤ elemBits 2 ∧
      Takes ints (formN (rn 2 0 0 32)) 2 [0, 1] false ∧ Takes ints (formN (rn 2 0 0 32)) 2 [0, 1, 2] false := by decide +kernel
theorem test_wit_IntegerRecordsComplete_3 :
    (rn 2 5).hi.toNat ≤ 5 ∧ Takes ints (formN (rn 2 5)) 2 [0, 1] false := by decide +kernel
theorem test_wit_IntegerRecordsComplete_4 :
    (rn 2 0 0 7).cf.toNat < 8 ∧ (rn 2 0 0 7).ctl.lituse = 0 ∧ Takes ints (formN (rn 2 0 0 7)) 2 [0, 1] false := by decide +kernel
theorem test_wit_IntegerRecordsComplete_5 :
    (rn 2).fmt ≠ 3 ∧ (rn 2).fmt ≠ 7 ∧ (portTok ints.cur 0).ty.toNat < 8 := by decide +kernel

theorem test_wit_MoveRecordsComplete :
    (rn 7).fmt.toNat < 8 ∧ (rn 7).hi = 0 := by decide +kernel
theorem test_wit_MoveRecordsComplete_1 :
    MoveFields false false (rn 0) ∧ badCtl [0] k0 = false ∧ hasPorts ints.cur (portSet [0] k0) = true := by decide +kernel
theorem test_wit_MoveRecordsComplete_2 :
    (rn 10).fmt.toNat ≤ 10 ∧ MoveFields false false (rn 10) ∧ (rn 10).ctl.lituse = 0 ∧ Takes ints (formN (rn 10)) 10 [0] false := by decide +kernel
theorem test_wit_MoveRecordsComplete_3 :
    Moves ints (formN (rn 0)) [0] ∧ Moves ints (formN (rn 0)) [0, 1] ∧ MoveFields true false (rn 0 8) := by decide +kernel
theorem test_wit_MoveRecordsComplete_4 :
    badCtl [0, 1, 2] k0 = false ∧ hasPorts ints.cur (portSet [0, 1, 2] k0) = true ∧ anyNull ints.cur (portSet [0, 1, 2] k0) = false ∧
      (opTok (rn 0) ints.cur 1).null = false ∧ (opTok (rn 0) ints.cur 2).null = false := by decide +kernel
theorem test_wit_MoveRecordsComplete_5 :
    (let s := lay2 2 (abc [1] [2] [3])
     MoveFields false true (rn 0 1 8) ∧ LevelOk s (rn 0 1 8) ∧ Moves s (formN (rn 0 1 8)) [0] ∧ (rn 0 1 8).lit.toNat ≤ 2 ^ (levelWidth (layoutOf s 0 0) 1 - 1) ∧
     (rn 0 1).lit = 0 ∧ Moves s (formN (rn 0 1)) [0, 1] ∧ (opTok (rn 0 1) s.cur 1).eor = false) := by decide +kernel
theorem test_wit_MoveRecordsComplete_6 :
    (let s := lay2 2 [(0, tk [1]), (1, { tk [2] with eor := true })]
     Moves s (formN (rn 0)) [0, 1] ∧ (opTok (rn 0) s.cur 1).eor = true) := by decide +kernel
theorem test_wit_MoveRecordsComplete_7 :
    (let s := thr1 1 [(0, tk [1])]
     MoveFields false true (rn 0) ∧ LevelOk s (rn 0) ∧ badCtl [0, 1] k0 = false ∧ k0.pred = false ∧ hasPorts s.cur [0] = true ∧ (portTok s.cur 0).null = false ∧
     idxOf (fun e : ThrEntry => e.plane == 0 && e.node == 0 && e.base == baseTag s 0 0 s.cur.tag (levelOf (rn 0)) && decide (0 < e.credits))
       (nibAt s 0 2).thr = some 0 ∧ (nibAt s 0 2).thr[0]?.isSome = true) := by decide +kernel
theorem test_wit_MoveRecordsComplete_8 :
    (let s := lay2 2 [(0, tk [256])]
     MoveFields false true (rn 6) ∧ LevelOk s (rn 6) ∧ Takes s (formN (rn 6)) 6 [0] false ∧ 0 < laneN (portTok s.cur 0).lanes 0 ∧
     laneN (portTok s.cur 0).lanes 0 ≤ 2 ^ levelWidth (layoutOf s 0 0) 0) := by decide +kernel
theorem test_wit_MoveRecordsComplete_9 :
    (let s := lay2 2 (abc [0] [2] [3])
     Takes s (formN (rn 6)) 6 [0] false ∧ laneN (portTok s.cur 0).lanes 0 = 0 ∧ MoveFields true (opx (rn 0 9)) (rn 0 9) ∧ LevelOk s (rn 0 9) ∧
     Takes s (formN (rn 0 9)) 6 [0] false ∧ MoveFields true (opx (rn 0)) (rn 0) ∧ Takes s (formN (rn 0)) 7 [0] false ∧ Moves s (formN (rn 0)) [0, 1]) := by decide +kernel

theorem test_wit_BlockRecordsComplete :
    MoveFields false false (rn 7 0 63) ∧ (rn 7 0 63).lit.toNat < 64 ∧ Takes (inBlk []) (formN (rn 7 0 63)) 7 [] false := by decide +kernel
theorem test_wit_BlockRecordsComplete_1 :
    (let s := inBlk [(4, tk [1, 2])]
     s.cur.site = 240 ∧ (scribeAt s 0).cur = some blk ∧ badCtl [4] k0 = false ∧ hasPorts s.cur (portSet [4] k0) = true ∧ (portTok s.cur 4).poison = false ∧
     anyBlock s.cur (portSet [4] k0) = false) := by decide +kernel
theorem test_wit_BlockRecordsComplete_2 :
    (let s := inBlk [(5, tk [0])]
     s.cur.site = 240 ∧ (scribeAt s 0).cur = some blk ∧ levelOf (rn 0 0 65535) = 0 ∧ badCtl [5] k0 = false ∧ hasPorts s.cur (portSet [5] k0) = true ∧
     (portTok s.cur 5).poison = false ∧ anyBlock s.cur (portSet [5] k0) = false ∧ anyNull s.cur (portSet [5] k0) = false ∧ predFalse k0 s.cur = false ∧
     (rn 0 0 65535).lit.toNat < 65536 ∧ opx (rn 0 0 65535) = false ∧ (rn 0).lit = 0) := by decide +kernel

def flts : State := at_ 2 (abc [1, 0, 0, 0] [2, 0, 0, 0] [3, 0, 0, 0] 10)

theorem test_wit_FloatingRecordsComplete :
    FltFields 6 (rn 10 5) ∧ Takes flts (formN (rn 10 5)) 10 [0, 1] false ∧ Takes flts (formN (rn 10 5)) 10 [0, 1, 2] false ∧
    Takes flts (formN (rn 10 5)) 10 [0] false := by decide +kernel
theorem test_wit_FloatingRecordsComplete_1 : FltFields 2 (rn 10 1) ∧ Takes flts (formN (rn 10 1)) 10 [0, 1] false ∧ FltFields 8 (rn 10 7) ∧
    Takes flts (formN (rn 10 7)) 10 [0, 1] false ∧ FltFields 1 (rn 10) ∧ Takes flts (formN (rn 10)) 10 [0] false ∧ FltFields 3 (rn 10 2) ∧
    Takes flts (formN (rn 10 2)) 10 [0, 1] false ∧ Takes flts (formN (rn 10)) 10 [0, 1] false := by decide +kernel

theorem test_wit_LaneRecordsComplete :
    LaneFields false true (rn 10 5) ∧ Takes flts (formN (rn 10 5)) 10 [0] false ∧ isFloatTy (portTok flts.cur 0).ty = true ∧
      Takes ints (formN (rn 10 5)) 10 [0] false ∧ (portTok ints.cur 0).ty.toNat < 8 ∧ LaneFields false true (rn 2 1) ∧ Takes flts (formN (rn 2 1)) 2 [0] false := by decide +kernel
theorem test_wit_LaneRecordsComplete_1 :
    LaneFields false true (rn 12) ∧ isBlockTy (rn 12).fmt = true ∧ Takes flts (formN (rn 12)) 12 [0] false := by decide +kernel
theorem test_wit_LaneRecordsComplete_2 :
    (let s := at_ 2 (abc [1, 2, 3] [2] [3] 12)
     (rn 10).cf.toNat ≤ 3 ∧ rnd3 (rn 10) ≤ 5 ∧ opx (rn 10) = false ∧ Takes s (formN (rn 10)) 10 [0] true ∧ isBlockTy (portTok s.cur 0).ty = true ∧
     2 * (rn 10).cf.toNat < blockCountW 12 3) := by decide +kernel
theorem test_wit_LaneRecordsComplete_3 :
    LaneFields false false (rn 10) ∧ Takes flts (formN (rn 10)) 10 [0, 1, 2] true := by decide +kernel
theorem test_wit_LaneRecordsComplete_4 :
    (let s := at_ 2 (abc [1, 2, 3] [2] [3] 2)
     LaneFields true false (rn 2) ∧ Takes s (formN (rn 2)) 2 [0] false ∧ lanesPer 2 ≤ (portTok s.cur 0).lanes.length ∧ LaneFields true false (rn 0) ∧
     Takes s (formN (rn 0)) 0 [0, 1] true ∧ Takes s (formN (rn 0 0 0x1F1F)) 0 [0] true ∧ bits (rn 0 0 0x1F1F).lit.toNat 7 5 = 0 ∧
     bits (rn 0 0 0x1F1F).lit.toNat 31 13 = 0) := by decide +kernel
theorem test_wit_LaneRecordsComplete_iota :
    (let s := at_ 2 (abc [1, 2, 3] [2] [3] 2)
     lanesPer 2 = 1 ∧ bits (rn 2 0 0x1FFFFF).lit.toNat 31 21 = 0 ∧ Takes s (formN (rn 2 0 0x1FFFFF)) 2 [0] false ∧
     LaneFields false false (rn 2 0 0x1FFFFF) ∧ LaneFields false false (rn 0) ∧ badCtl [0, 1] k0 = false ∧ hasPorts s.cur (portSet [0, 1] k0) = true ∧
     anyNull s.cur (portSet [0, 1] k0) = false ∧ predFalse k0 s.cur = false ∧ (portTok s.cur 0).ty = (portTok s.cur 1).ty) := by decide +kernel
theorem test_wit_LaneRecordsComplete_unpackc :
    (let s := at_ 2 (abc [1, 2, 3] [2] [3] 2)
     LaneFields true false (rn 0 8 2) ∧ Takes s (formN (rn 0 8 2)) 0 [0] true ∧ opx (rn 0 8 2) = true ∧ (rn 0 8 2).lit.toNat < (portTok s.cur 0).lanes.length) := by decide +kernel
theorem test_wit_LaneRecordsComplete_5 :
    (let s := at_ 2 (abc [1] [2] [3])
     LaneFields true false (rn 6 0 31) ∧ bits (rn 6 0 31).lit.toNat 31 5 = 0 ∧ Takes s (formN (rn 6 0 31)) 6 [0] false ∧ (portTok s.cur 0).ty = 6) := by decide +kernel
theorem test_wit_LaneRecordsComplete_6 :
    LaneFields true false (rn 10) ∧ (rn 10).lit = 0 ∧ Takes flts (formN (rn 10)) 10 [0, 1] false ∧ (portTok flts.cur 0).lanes.length = 4 ∧
      (portTok flts.cur 1).lanes.length = 4 := by decide +kernel
theorem test_wit_LaneRecordsComplete_7 :
    (let s := lay2 2 [(0, tk [5, 9] 10)]
     badRank s (rn 10 0 2) = false ∧ hasPorts s.cur (portSet [0] k0) = true ∧ anyBlock s.cur (portSet [0] k0) = false ∧
     (rankTable (nibAt s 0 2) 0 0 (baseTag s 0 0 s.cur.tag (bits (rn 10 0 2).lit.toNat 18 16))).entries = [] ∧ 0 < (rn 10 0 2).lit.toNat % 65536) := by decide +kernel
theorem test_wit_LaneRecordsComplete_8 :
    (let s := at_ 2 [(0, tk [1, 2] 5)]
     let r := { rn 5 1 0 6 with d0 := { ds 4 with port := 3 } }
     r.hi.toNat ≤ 1 ∧ r.cf.toNat < 8 ∧ badCtl [0] k0 = false ∧ hasPorts s.cur (portSet [0] k0) = true ∧ anyBlock s.cur (portSet [0] k0) = false ∧
     anyNull s.cur (portSet [0] k0) = false ∧ sclDestOk s.cur r.d0 = true ∧ sclDestOk s.cur r.d1 = true ∧ r.cf.toNat + (portTok s.cur 0).lanes.length ≤ 8) := by decide +kernel
theorem test_wit_LaneRecordsComplete_9 :
    (let s := setScribe (inBlk [(0, tk [1]), (1, tk [5])]) 0 { cur := some blk, done := 5 }
     Takes s (formN (rn 0)) (portTok s.cur 0).ty [0, 1] false ∧ s.cur.site = 240 ∧ (scribeAt s 0).done &&& waitMask (rn 0) s.cur = waitMask (rn 0) s.cur ∧
     (scribeAt s 0).done &&& waitMask (rn 0) s.cur ≠ 0 ∧ (doneOn 1).cur.site ≠ 240 ∧ waitMask (rn 0) (doneOn 1).cur ≠ 0) := by decide +kernel
theorem test_wit_LaneRecordsComplete_10 :
    (let s := at_ 2 [(0, tk [1])]
     (rn 0 3).hi.toNat < 4 ∧ badCtl [0] k0 = false ∧ hasPorts s.cur (portSet [0] k0) = true ∧ anyBlock s.cur (portSet [0] k0) = false ∧
     anyNull s.cur (portSet [0] k0) = false ∧ predFalse k0 s.cur = false ∧ s.cur.late = false ∧ (portTok s.cur 0).poison = false ∧
     tooWide s s.cur (valSend (ds 7) false { tag := 0, ty := 6, lanes := [0] }) = false) := by decide +kernel

theorem test_wit_MemoryRecordsComplete :
    (let s := at_ 2 (abc [0, 1] [1] [2])
     ActsNow s ∧ hasPorts s.cur (portSet (basePorts 0x80) k0) = true ∧ memBad s 0x80 rm = none ∧ hasPorts s.cur (portSet (basePorts 0x8F) k0) = true ∧
     memBad s 0x8F rm = none ∧ anyNull s.cur (portSet [0, 1] k0) = false ∧ predFalse k0 s.cur = false ∧ memBad s 0x90 rm = none ∧ memBad s 0x8E rm = none) := by
  decide +kernel

theorem test_wit_TransferRecordsComplete :
    (rt 2 0 0).rsv = 0 ∧ ActsNow issueOn ∧ tagFree issueOn 0 2 = true ∧ Supplied issueOn (rt 2 0 0).ctl [0] ∧ (portTok issueOn.cur 0).poison = false ∧
      shiftDesc issueOn issueOn.cur (portTok issueOn.cur 0).lanes = some dsc ∧ descBad issueOn 0 (matchCtx issueOn 0 0 issueOn.cur.tag) opXfer (rt 2 0 0) dsc = false := by decide +kernel
theorem test_wit_TransferRecordsComplete_1 :
    (let s := { collMatch 3 with routes := [(3, 3)] }
     ActsNow s ∧ tagFree s 0 9 = true ∧ Supplied s k0 [0, 1] ∧ (rt 9 3 0).len = 0 ∧ collBad (portTok s.cur 1).lanes = false ∧ (pgAt s 0 3).alloc = true ∧
     collOwn s (collDev (portTok s.cur 1).lanes) = false ∧ portPath s (dieOf 0) (collDev (portTok s.cur 1).lanes) = some [arbPort 3]) := by decide +kernel
theorem test_wit_TransferRecordsComplete_2 :
    (let s := pgOn { alloc := true, colour := 1 }
     (rs 0 3).obj.toNat < 64 ∧ Supplied s (rs 0 3).ctl [0] ∧ pgHolder (pgAt s 0 3) = some (colourOf s.cur.tag) ∧ Clean s ∧ (pgAt s 0 3).alloc = true ∧
     (pgAt s 0 3).ctx = matchCtx s 0 0 s.cur.tag ∧ (pgAt s 0 3).stamp ≠ s.cycle + 1 ∧ bit (pgWords (pgAt s 0 3)).2 51 = true) := by decide +kernel

/-- Matches of the cells of the array: chunk 3 at s34, a slice at s34, an addend at s98, and a run that is complete. -/
def sumUp : SysArray := setAcc arr1 0 3 { run := some (setfld [8, 4] 0x0010000000000000 1 0), next := 1, v := [1, 2] }
theorem test_wit_ArrayAndCavityRecordsComplete :
    arrTyOk (rn 12).fmt = true ∧ (rn 12).d0.site.toNat < 240 ∧ sysLate.cur.site = 240 ∧ sysLate.cur.late = true ∧ Supplied sysLate k0 [0] ∧ Clean sysLate ∧
      sysRect sysLate sysLate.cur = some (2, 6, 2, 8) ∧ enterBad sysLate 0 2 6 2 8 = false ∧ (cellSites 2 6 2 8).any (mmaPending sysLate 0) = false ∧
      arrayAt { sysLate with arrays := [arr1] } 0 2 6 2 8 = some 0 ∧ arr1.passes.any (fun q => q.complete) = false := by decide +kernel
theorem test_wit_ArrayAndCavityRecordsComplete_1 :
    (let s := cellAt 34 (abc chunk [3] [] 12)
     cellOf s 0 34 = some (0, 0, 0) ∧ Takes s (formN (rn 12)) 6 [0, 1] true ∧ arr1.ty = 12 ∧ (portTok s.cur 0).ty = 12 ∧ (portTok s.cur 1).poison = false ∧
     chunk.length = 8 * blockLanes 12 ∧ 3 < 32 * arrK 12 / chunkElems 12 ∧ reading arr1 0 false = false) := by decide +kernel
theorem test_wit_ArrayAndCavityRecordsComplete_2 :
    (let s := cellAt 34 [(0, tk (List.replicate 12 1) 12)]
     (rn 12 1 3).hi.toNat % 8 < (layoutOf s 0 0).length ∧ (rn 12 1 3).lit.toNat < 128 ∧ Takes s (formN (rn 12 1 3)) 12 [0] true ∧
     (portTok s.cur 0).lanes.length = sliceLanes 12 ∧ rowFired arr1 s.cur.tag 0 = false ∧ skewFull s arr1 s.cur 0 3 1 = false) := by decide +kernel
theorem test_wit_ArrayAndCavityRecordsComplete_3 :
    (let s := cellAt 98 [(0, tk (List.replicate 32 0) 10)]
     2 + 1 = nrowOf arr1 ∧ (rn 10 1 3).fmt = accTy 12 ∧ Takes s (formN (rn 10 1 3)) 10 [0] false ∧ (rn 10 1 3).lit.toNat < 64 ∧ (portTok s.cur 0).lanes.length = 32) := by decide +kernel
theorem test_wit_ArrayAndCavityRecordsComplete_4 :
    (let s := { cellAt 98 [(0, tk [0] 10)] with arrays := [sumUp] }
     cellOf s 0 98 = some (0, 2, 0) ∧ Takes s (formN (rn 10 1 0x103)) 10 [0] false ∧ 0 < bits (rn 10 1 0x103).lit.toNat 23 8 ∧
     (accAt sumUp 0 3).run = some (setfld (layoutOf s 0 0) s.cur.tag 1 0) ∧ (accAt sumUp 0 3).next = bits (rn 10 1 0x103).lit.toNat 23 8 ∧
     tooWide s s.cur (valSend (ds 7) false { tag := 0, ty := 10, lanes := [1, 2] }) = false) := by decide +kernel
theorem test_wit_ArrayAndCavityRecordsComplete_5 :
    cavBad cd2 = false ∧ AtWell (byWell (cavWell []) (idx 1)) (rs 0 cd2 1) [0] 1 ∧ cavAt (cavWell []) cd2 = none ∧ (cavWell []).cavs.length < 8 ∧
      1 < cavN cd2 ∧ cavBase cd2 * 4096 + regionBytes (cavN cd2) ≤ bufCount (cavWell []) * bufBytes (cavWell []) := by decide +kernel
theorem test_wit_ArrayAndCavityRecordsComplete_6 :
    (let b : List Lane := [0x041FFE00, 512, 0]
     cavBad cd1024 = false ∧ AtWell (byWell (cavWell []) (idx 1023 b)) (rs 1 cd1024 1) [0, 1] 1 ∧ segBad cd1024 b = false ∧
     (segOf cd1024 (some b)).1 ≤ 1023 ∧ 1023 < (segOf cd1024 (some b)).2.1 ∧
     cavBase cd1024 * 4096 + regionBytes ((segOf cd1024 (some b)).2.1 - (segOf cd1024 (some b)).1) ≤ bufCount (cavWell []) * bufBytes (cavWell [])) := by decide +kernel
theorem test_wit_ArrayAndCavityRecordsComplete_7 :
    cavAt (cavWell [cav2 [1] []]) cd2 = some 0 ∧ (cav2 [1] []).desc = cd2 ∧ cavBusy (cav2 [1] []) = false ∧ [1].contains 1 = true ∧
      hasContrib (cav2 [1] []) 1 = false ∧ AtWell (byWell (cavWell [cav2 [1] []]) (idx 1)) (rs 2 cd2 1) [0] 1 ∧
      AtWell (byWell (cavWell [cav2 [1] []]) (idx 5 [1])) (rs 0 cd2 1) [0, 1] 1 ∧ (idx 5 [1]).length ≤ cavW cd2 := by decide +kernel
theorem test_wit_ArrayAndCavityRecordsComplete_8 :
    paceBad pd4 = false ∧ AtWell (paceMatch 3 (idx 3)) (rs 0 pd4 1) [0] 4 ∧ bits (wellAt (paceMatch 3 []) 0 1).cfg.toNat 63 54 = paceNM1 pd4 ∧
      AtWell (paceLaid (idx 3)) (rs 2 pd4 1) [0] 4 ∧ paceDesc (paceLaid (idx 3)) 0 1 = pd4.toNat ∧ 3 ≤ paceNM1 pd4 ∧
      (memberAt (paceLaid []) 0 1 3).pend = true ∧ (memberAt (paceLaid []) 0 1 0).pend = false ∧ AtWell (paceMatch 3 (idx 0)) (rs 1 pd4 1) [0] 4 ∧
      1 < (layoutOf (paceMatch 3 []) 0 0).length ∧ (∀ k < paceNM1 pd4 + 1, (memberAt (paceMatch 3 []) 0 1 k).pend = false) ∧
      paceNM1 pd4 + 1 ≤ 2 ^ levelWidth (layoutOf (paceMatch 3 []) 0 0) 1 := by decide +kernel

theorem test_wit_PointRecordsComplete :
    (let s := inCtx 2 [(0, tk [1]), (1, tk [32])]
     hasPorts s.cur (portSet [0] k0) = true ∧ spawnBad (spawnRec 16 1) = false ∧ spawnRange s (spawnRec 16 1) = false ∧ badCtl [0] k0 = false ∧
     anyBlock s.cur (portSet [0] k0) = false ∧ anyNull s.cur (portSet [0] k0) = false ∧ predFalse k0 s.cur = false ∧ dieOf s.cur.p = 0 ∧
     Takes s (formN (rn 0)) 6 [0, 1] false ∧ Takes s (formN (rn 0 8)) 7 [0, 1] false ∧ retBad (rn 0) = false ∧ ActsNow s) := by decide +kernel
theorem test_wit_PointRecordsComplete_1 :
    (let s := atBar (bar 1 1 0) [(0, tk [0x03FF0001])]
     Supplied s k0 [0] ∧ Clean s ∧ ActsNow s ∧ bits (rs 0 4095).obj.toNat 31 14 = 0 ∧ binitBad (rs 0 4095) s.cur = false ∧ s.cur.again ≠ 1 ∧
     bits (rs 1 0x10FFF).obj.toNat 15 14 = 0 ∧ bits (rs 1 0x10FFF).obj.toNat 31 19 = 0 ∧ bits (rs 1 0x10FFF).obj.toNat 18 16 < (layoutOf s 0 0).length) := by decide +kernel
theorem test_wit_PointRecordsComplete_2 :
    (let s := atBar (bar 1 1 0) [(0, tk [1])]
     Supplied s k0 [0] ∧ Clean s ∧ ActsNow s ∧ laneN (portTok s.cur 0).lanes 0 ≤ 1) := by decide +kernel
theorem test_wit_PointRecordsComplete_3 :
    (let s := atQ (q1 1 [5]) 2
     Supplied s k0 [0] ∧ Clean s ∧ ActsNow s ∧ bits (rs 0 255).obj.toNat 31 8 = 0 ∧ (queueAt s 255).part = partOf s (matchCtx s 0 0 s.cur.tag)) := by decide +kernel
theorem test_wit_PointRecordsComplete_4 :
    (let s := atQ (q1 1 []) 240 true
     Supplied s k0 [0] ∧ Clean s ∧ ActsNow s ∧ s.cur.site = 240 ∧ s.cur.late = true ∧ privOf s (matchCtx s 0 0 s.cur.tag) ≠ 0 ∧ (queueAt s 255).state ≠ 0 ∧
     (queueAt s 255).log ≠ 0) := by decide +kernel

theorem test_wit_ScribeRecordsComplete_tables :
    (let s := withTable { entries := [(31, en)] } [(0, tk [0x01010005, 0x0200])]
     AtScribe s (rs 0 1) ∧ s.cur.late = true ∧ (rs 0 1).obj.toNat < 8 ∧ (tableAt s 0 1).waiters = [] ∧ (tableAt s 0 1).inRound = false ∧ armBad [0x01010005, 0x0200] = false ∧
     (shiftDest s s.cur 0x0200).isSome = true ∧ (tableAt s 0 1).armed = none ∧ usedEntries (tableAt s 0 1) ≠ []) := by decide +kernel
theorem test_wit_ScribeRecordsComplete_entries :
    (let s := withTable {} [(0, tk enLanes)]
     AtScribe s (rs 0 1) ∧ entryBad (entryOf (portTok s.cur 0).lanes) = false ∧ entryTable (entryOf (portTok s.cur 0).lanes) = 1) := by decide +kernel
theorem test_wit_ScribeRecordsComplete_planes :
    (let s := planeRec 1 {} (stageDesc 1) true
     AtScribe s rs ∧ s.cur.late = true ∧ descReserved (stageDesc 1) = false ∧ descPlane (stageDesc 1) = 1 ∧ bit (ctxAt s (matchCtx s 0 0 s.cur.tag)).planes 1 = true ∧
     (planeOf s 0 1).state = 0 ∧ (panelAt s 0).scribePlane ≠ some 1 ∧ (panelAt s 0).inj ≠ some 1 ∧ launchHolds s 0 1 = false) := by decide +kernel
theorem test_wit_ScribeRecordsComplete_flips :
    (let s := planeRec 1 { state := 2 } [1] true
     AtScribe s rs ∧ laneN (portTok s.cur 0).lanes 0 < 4 ∧ bit (ctxAt s (matchCtx s 0 0 s.cur.tag)).planes 1 = true ∧ (planeOf s 0 1).state = 2 ∧
     (panelAt s 0).flip = none ∧ launchHolds s 0 1 = false ∧ (planeOf (planeRec 1 { state := 4 } [1] true) 0 1).state = 4) := by decide +kernel
theorem test_wit_ScribeRecordsComplete_snap :
    (let s := snapRec livePanel 4
     AtScribe s (rs 0 0xFF0001) ∧ bits (rs 0 0xFF0001).obj.toNat 31 24 = 0 ∧ (rs 0 0xFF0001).obj.toNat % 65536 ≠ 0 ∧ snapLanesBad s s.cur = false ∧
     (panelAt s 0).snap = none ∧ (panelAt s 0).snapWait = [] ∧ (panelAt s 0).inj = some 0 ∧ (ctxAt s (matchCtx s 0 0 s.cur.tag)).rows ≠ 1) := by decide +kernel
theorem test_wit_ScribeRecordsComplete_contexts :
    (let s := parkRec 3 1 true
     AtScribe s (rs 0 2) ∧ bits (rs 0 2).obj.toNat 31 8 = 0 ∧ objCtx s s.cur (rs 0 2) = 2 ∧ (ctxAt s 2).state = 3 ∧
     ctxOwner s 2 = some (partOf s (matchCtx s 0 0 s.cur.tag)) ∧ parkOf s 2 = none ∧ matchCtx s 0 0 s.cur.tag = 1) ∧
    (ctxAt (parkRec 4 1 true) 2).state = 4 ∧ (parkRec 4 1 true).resumes.any (fun y => y.ctx == 2) = false ∧ parkOf (parkRec 4 1 true) 2 = none := by decide +kernel
theorem test_wit_ScribeRecordsComplete_yield :
    AtScribe yielding (rs 0 2) ∧ yielding.cur.late = true ∧ matchCtx yielding 0 0 yielding.cur.tag = 1 ∧ (ctxAt yielding 1).state = 3 ∧
    workWaits yielding 1 0 = true := by decide +kernel
theorem test_wit_ScribeRecordsComplete_registers :
    (let s := regMatch 0 true
     AtScribe s (rs 0 0xFF0003) ∧ bits (rs 0 0xFF0003).obj.toNat 31 24 = 0 ∧ objNum (rs 0 0xFF0003) < 0x20 ∧ regCause s s.cur (rs 0 0xFF0003) false = none) := by
  decide +kernel
theorem test_wit_ScribeRecordsComplete_pages :
    (let s := pinOn (winWell [])
     AtScribe s (rs 0 1) ∧ s.cur.late = true ∧ pageVa s.cur % 4096 = 0 ∧ pageN s.cur ≠ 0 ∧ pageN s.cur ≤ 128 ∧ shiftSite s s.cur (bits (rs 0 1).obj.toNat 7 0) = some 1 ∧
     isWell 1 = true ∧ wellMode (wellAt s 0 1) = 5 ∧ (wellAt s 0 1).owner = some (matchCtx s 0 0 s.cur.tag)) := by decide +kernel
theorem test_wit_ScribeRecordsComplete_probe :
    (let s := pinOn (winWell [])
     AtScribe s (rs 0 0xFFFF) ∧ objCtx s s.cur (rs 0 0xFFFF) = 1 ∧ ctxOwner s 1 = some (partOf s (matchCtx s 0 0 s.cur.tag)) ∧ privOf s (matchCtx s 0 0 s.cur.tag) ≠ 0 ∧
     pageN s.cur % 4 ≠ 3 ∧ bits (rs 0 0xFFFF).obj.toNat 15 8 = 0xFF ∧ bits (rs 0 0xFFFF).obj.toNat 31 16 = 0 ∧
     (match leafNow s 1 0 240 (pageVa s.cur) with | (_, .leaf _) => true | _ => false) = true) := by decide +kernel
theorem test_wit_ScribeRecordsComplete_traps :
    (let s := mailed true true []
     AtScribe s rs ∧ s.cur.late = true ∧ (rs).obj = 0 ∧ (rs).ctl = { lituse := 0, pred := false, emit0 := 0, emit1 := 0, nullpass := false } ∧
     (takeEntry s 0).isSome = true ∧ (mailed true false []).cur.late = false ∧ AtScribe (mailed true false []) (rs 3)) := by decide +kernel
theorem test_wit_ScribeRecordsComplete_links :
    (let s := linkRec 3 { state := 2 } [3, 26] true
     AtScribe s (rs 1 3) ∧ s.cur.late = true ∧ privOf s (matchCtx s 0 0 s.cur.tag) = 2 ∧ bits (rs 1 3).obj.toNat 31 8 = 0 ∧ bits (rs 1 3).obj.toNat 7 0 = 3 ∧
     (linkAt s 3).state = 2 ∧ isDieLink 3 = false ∧ s.routeAsks = [] ∧ laneN (portTok s.cur 0).lanes 0 = 3 ∧ isPort (laneN (portTok s.cur 0).lanes 1) = true ∧
     3 ≠ s.owndev.toNat ∧ devBusy s 3 = false ∧ devBusy s s.owndev.toNat = false ∧ routeOf s 3 = none) ∧
    (linkAt (linkRec 3 {} [3, 26] true) 3).state = 0 := by decide +kernel

theorem test_wit_NibEventsComplete :
    (let s := arriving livePanel wCopy 1 0
     arrives s = true ∧ s.transit.all (fun f => !f.queued && !f.tok.snap && !entryLate s f && f.tok.port == 0) = true ∧ admits s 0 (2 ^ 52) = true ∧
     planeRuns s 0 0 = true ∧ portsOf wCopy = [0] ∧ recAt s 0 2 0 1 = wCopy ∧ entryOp (Machine.opOf wCopy) = false ∧ Machine.opOf wCopy ≠ opMerge ∧
     scaleOp (Machine.opOf wCopy) = false ∧ tagged s 0 = true ∧ marked (nibAt s 0 2) (tk [3]) = false ∧ (nibAt s 0 2).groups = [] ∧
     readyRoom (nibAt s 0 2) 0 = true) := by decide +kernel
theorem test_wit_NibEventsComplete_credit :
    (let s := creditOn []
     s.transit.all (fun f => isCredit s f && !f.queued && !f.tok.snap && !isEauCredit f && !behindOwn s 0 f && !entryLate s f && decide (f.tok.site.toNat < 240) &&
       !entryShut s (matchCtx s 0 0 f.tok.tag) && admits s 0 f.tok.tag && planeRuns s 0 0 && rowFree s 0 2 0 f.tok.tag) = true ∧ s.transit.length = 1 ∧
     (portsOf (recAt s 0 2 0 1)).contains 1 = true) := by decide +kernel
theorem test_wit_NibEventsComplete_others :
    ((wellAt returning 0 3).returns.length = 1 ∧ takeScales 0 1 0 (scaleNeeds (Machine.opOf (recAt returning 0 2 0 1)) [(0, tk [1])]) (nibAt returning 0 2).scales [] =
      some ([], []) ∧ readyRoom (nibAt returning 0 2) 0 = true) ∧
    ((panelAt (scaleFor 245) 0).portQ.length < 16 ∧ (scaleFor 245).scaleNet.map (fun f => f.tok.site) = [245]) ∧
    (isNib 2 = true ∧ (panelAt { State.reset with cycle := 256 } 0).startCycle < 256 ∧ (256 - (panelAt { State.reset with cycle := 256 } 0).startCycle) % 256 = 0) ∧
    ((nibAt delayedOn 0 2).delayed.all (fun d => decide (d.due ≤ delayedOn.cycle)) = true ∧ (nibAt delayedOn 0 2).delayed.length = 1) := by decide +kernel
theorem test_wit_NibEventsComplete_generator :
    (let s := genOn 0
     (nibAt s 0 2).gens.all (fun g => g.kind == .range 6 3 && decide (g.last < s.cycle) && genSlots s 0 2 g) = true ∧ (nibAt s 0 2).gens.length = 1 ∧
     queueUsed s 0 2 + 1 ≤ 8 ∧ gatedCtx s 0 2 (matchCtx s 0 0 0x0010000000000000) = false) := by decide +kernel
theorem test_wit_NibEventsComplete_batch :
    (let s := setNib (rank 2) 0 2 { nibAt (rank 2) 0 2 with
        store := [(1, (rn 10 0 2).bits 0x71)], sticky := [{ plane := 0, node := 1, base := 0, tok := tk [0] }] }
     (nibAt s 0 2).sticky.length = 1 ∧ decode (recAt s 0 2 0 1) = .ok (.rankadmCandidate (rn 10 0 2)) ∧ isBlockTy (tk [0]).ty = false ∧
     laneN (tk [0]).lanes 0 ≤ (rankTable (nibAt s 0 2) 0 1 0).counted) := by decide +kernel

theorem test_wit_MemoryEventsComplete :
    (let s := addend 0 1
     s.addends.all (fun x => x.2.2.racc.isNone && x.2.2.reply.isNone && addendIdx s x.2.2 == 0 && countWord x.2.2 % 65536 == 1) = true ∧ s.addends.length = 1 ∧
     s.accSlots = []) ∧
    (let s := setWell State.reset 0 1 { pend := [pendCfg none] }
     (wellAt s 0 1).pend = [pendCfg none] ∧ wellMode (wellAt s 0 1) ≠ 5 ∧ wellPending s 0 1 (pendCfg none) = false ∧ s.pins = [] ∧ (pendCfg none).acc = none) ∧
    (let s := waits1 rm []
     (obufAt s 0 1).waiting.length = 1 ∧ gatedCtx s 0 1 0 = false ∧ openChain (obufAt s 0 1) 0x0010000000000000 = none ∧ (rm).seq = 0 ∧ (obufAt s 0 1).released = []) := by
  decide +kernel
theorem test_wit_MemoryEventsComplete_fifo :
    (let s := atWell cfg2 { fifo := [{ lanes := [4], ty := 6, null := false, poison := false, eor := true }] } (acc1 0x80 rm)
     reaches s (acc1 0x80 rm) = true ∧ (obufAt s 0 1).released[0]? = some (acc1 0x80 rm) ∧ wellMode (wellAt s 0 1) = 2 ∧ rm.space = 0 ∧ (wellAt s 0 1).fifo.length = 1) ∧
    (match (obufAt window1 0 1).released with
     | a :: _ => ((a.left.getD []).find? (fun k => mustHold a k && (slotHolds (wellAt window1 0 1) k).isNone && !filling window1 0 1 k) == some 0) && !a.combining
     | [] => false) = true ∧ wellMode (wellAt window1 0 1) = 5 ∧ (takeSlot window1 0 1 0 (paOfGa 0)).isSome = true := by decide +kernel
theorem test_wit_MemoryEventsComplete_requests :
    (let s := { reqAt (6 * 65536) with sel := { site := 241 } }
     (s.reqs.all (fun q => q.data.isNone && q.path == [6 * 65536] && lineRoom s 0 (gaOf s q.addr) && lineRoom s (homeDie (gaOf s q.addr)) (gaOf s q.addr))) = true ∧
     s.reqs.length = 1) ∧
    choose (reqAt 3) 3 = some 0 ∧ tgetD (reqAt 3).served (3 * 128 + 127) 0 ≠ (reqAt 3).cycle + 1 ∧
    (xferOf (xferOn (xf 0)) 9 = some (xf 0) ∧ (xf 0).stopped = false ∧ (xf 0).arr = none ∧ (xf 0).r.len = 0 ∧
      (xferOn (xf 0)).reqs.all (fun q => q.path == [] && decide (q.born < 5)) = true) ∧
    ((State.reset).cycle % pulseP State.reset 0 = 0 ∧ (panelAt State.reset 0).lastPulse ≠ (State.reset).cycle + 1) := by decide +kernel
theorem test_wit_MemoryEventsComplete_scale :
    (let x : ScaleTok := { payload := 0x0010000000000000, site := 245, node := 1, plane := 0, poison := false }
     let pn : Panel := { inj := some 0, portQ := [x], sprt := [(1, 0x0000000000110200)] }
     let s := setPanel { State.reset with ctxs := [(1, { colbase := 1, collim := 1 })] } 0 pn
     (panelAt s 0).portQ = [x] ∧ (tgetD pn.sprt 1 0).getLsbD 16 = true ∧ isNib (destOfBits ((tgetD pn.sprt 1 0).extractLsb' 0 16)).site.toNat = true ∧
     bits (tgetD pn.sprt 1 0).toNat 27 20 = 1 ∧ x.payload.toNat / 2 ^ 52 = 1 ∧ (panelAt s 0).inj = some 0 ∧ queueLen s 0 245 < 8) := by decide +kernel
theorem test_wit_MemoryEventsComplete_engines :
    (let a := { arr1 with passes := [pass1 true] }
     let s := { cellAt 34 [] with arrays := [a] }
     (pass1 true).complete = true ∧ (passCols a (pass1 true)).contains 0 = true ∧ (accAt a 0 3).run = none ∧ passIdx s a (pass1 true) = 0) ∧
    ((wellAt (roundOf (cav2 [0, 1] [con 0, con 1])) 0 1).cavs[0]? = some (cav2 [0, 1] [con 0, con 1]) ∧ (cav2 [0, 1] [con 0, con 1]).stalled = false ∧
      cavBusy (cav2 [0, 1] [con 0, con 1]) = true ∧ (cav2 [0, 1] [con 0, con 1]).half = false ∧ (cav2 [0, 1] [con 0, con 1]).seg = 0) ∧
    (let s : State := { State.reset with walks := [{ die := 0, ctx := 1, va := 0, p := 0, site := 1, fin := some (.leaf 3) }] }
     s.walks[s.sel.k]?.any (fun w => w.fin == some (.leaf 3)) = true) := by decide +kernel
theorem test_wit_MemoryEventsComplete_polls :
    (let s := { polls 0xFFF false with wmem := [(wellAddr 0 1 (cavRegion (mid false)), 1)] }
     (mid false).poll ≤ s.cycle ∧ (mid false).seg ≠ 0 ∧ (mid false).pc = none ∧ cavBusy (mid false) = true ∧
     (match xlOf s with
      | (t, .ok pa _) => ownDev t pa && (match (readCarry t 0 1 (mid false) (4096 + 512)).2 with | .ok none => true | _ => false)
      | _ => false) = true) := by decide +kernel

theorem test_wit_PointEventsComplete_rules :
    ((meets none false (arr 0 0)).arrivals[0]? = some (arr 0 0) ∧ arrivalBehind (arr 0 0) [] = false ∧ (tableAt (meets none false (arr 0 0)) 0 1).armed = none ∧
      (engineAt (meets none false (arr 0 0)) 0).hold.length < 64) ∧
    (let s := emits1 1 whole
     (tableAt s 0 1).inRound = true ∧ nextEntry (tableAt s 0 1) = some (31, en) ∧ 0 < (tableAt s 0 1).credits ∧ whole.next = entryCount en ∧
     queueLen s 0 241 < 8 ∧ gatedCtx s 0 241 (planeOf s 0 (tableAt s 0 1).plane).ctx = false ∧ (tableAt s 0 1).plane < 4) ∧
    (let s := setTable { State.reset with sel := { p := 0, num := 1 } } 0 1 { fences := [fence1] }
     idxOf (fenceDone s) (tableAt s 0 1).fences = some 0 ∧ (tableAt s 0 1).waiters.length = 0) ∧
    ((creditFor (some 5)).transit.all (fun f => isEauCredit f && !f.queued && !f.tok.snap && decide (f.tok.node.toNat < 8) && !f.tok.null &&
      241 + (tableAt (creditFor (some 5)) 0 7).edge == f.tok.site.toNat) = true ∧ (tableAt (creditFor (some 5)) 0 7).armed ≠ none) := by decide +kernel
theorem test_wit_PointEventsComplete_colours :
    (let s := drawing none 3
     (ctxAt s 1).state = 3 ∧ drawColours s (draw2 none) = some [2, 3] ∧ tgetD s.pointUsed 0 0 ≠ s.cycle + 1 ∧ drawBefore s [(draw2 none).born, 2, 0] = false ∧
     s.points = []) ∧
    linkUp State.reset 0 (dieOf 0) = true ∧
    (let s := setGroup (idling 4 true 114) 1 { left := 2 }
     (colourAt s 1 1).retd = true ∧ (colourAt s 1 1).drained = false ∧ (colourAt s 1 1).gstate = 4 ∧ colourBusy s (colourAt s 1 1).ctx 1 = false ∧
     2 ≤ (groupAt (setColour (freeEntries s (colourAt s 1 1).ctx 1) 1 1 { colourAt s 1 1 with drained := true }) (colourAt s 1 1).gid).left) ∧
    (groupColours (idling 1 false 114) 1 1 = [1] ∧ (colourAt (idling 1 false 114) 1 1).gstate = 1 ∧ (groupAt (idling 1 false 114) 1).lastIssue + 64 ≤ 114) := by
  decide +kernel
/-- The head of `yielding` waits while the one group of context 1 idles past its PARKWAIT. -/
def idleYield : State :=
  let s := setColour yielding 1 1 { colourAt yielding 1 1 with gstate := 2, pwait := 10 }
  { s with groups := [(1, { lastIssue := 50, ctx := 1 })], sel := { ctx := 1 } }
theorem test_wit_PointEventsComplete_parkwait :
    ctxRuns idleYield 1 = true ∧ ctxGroups idleYield 1 = [1] ∧ workWaits idleYield 1 0 = true ∧ groupColours idleYield (partOf idleYield 1) 1 = [1] ∧
    (colourAt idleYield 1 1).gstate = 2 ∧ (groupAt idleYield 1).lastIssue + 10 < idleYield.cycle := by decide +kernel
theorem test_wit_PointEventsComplete_barriers :
    (let s := { setBarrier State.reset 0 0 { state := 1, bwatch := 1, watch := 1024 } with notices := [{ p := 0, site := 2, die := 0, idx := 0 }] }
     (barrierAt s 0 0).state = 1 ∧ (barrierAt s 0 0).bwatch * 1024 ≤ (barrierAt s 0 0).watch ∧ s.notices[s.sel.k]?.isSome = true) := by decide +kernel
theorem test_wit_PointEventsComplete_blocks :
    (let s := kernel2 0 0
     let b : Block := { plane := 0, index := 0, header := tgetD (scribeAt s 0).blocks (blockKey 0 0 0) 0 }
     (panelAt s 0).scribePlane = some 0 ∧ mayEnter s 0 0 = true ∧ (scribeAt s 0).next < blockCount s 0 ∧
     takeIn (noteIssue (setScribe s 0 { scribeAt s 0 with cur := some b }) 0 0 (scribeAt s 0).btag) 0 b = none) ∧
    (let s := running wCopy blk1 []
     ready1 s blk1 = true ∧ blk1.exits.length ≤ 1 ∧ holdsTret blk1 = false ∧ isFinal s 0 blk1 = true) := by decide +kernel
theorem test_wit_PointEventsComplete_traps :
    (let s := setPlane (setScribe (parkRec 3 1 false) 0 { trapPend := some 7, tvec := 0x10000 }) 0 0 { state := 3, blocks := 1 }
     trapDue s 0 ≠ none ∧ thand (scribeAt s 0) = false ∧ (scribeAt s 0).cur = none ∧ (scribeAt s 0).stopped = false ∧
     gatedCtx s 0 240 (blockCtx s 0) = false ∧ handlerOk s 0 = true) ∧ (l2At (struck (.l2 0 64 0)) 0 64).isSome = true := by decide +kernel

theorem test_wit_LaunchEventsComplete_queues :
    (let s := hostAt {} (line 1 12)
     s.sel.q < 256 ∧ reachesWindow s s.sel.fn 255 = true ∧ (line 1 12).length = 8 ∧ lineCmd (line 1 12) = 1 ∧ (queueAt s 255).state = 0 ∧ configBad s 0 (line 1 12) = false) ∧
    (let s := hostAt { state := 2 } (line 3)
     reachesWindow s s.sel.fn 255 = true ∧ lineCmd (line 3) = 3 ∧ (queueAt s 255).state = 2 ∧ (queueAt s 255).running = []) ∧
    (lineCmd (line 2) = 2 ∧ ({ state := 3 } : Queue).resetting = false) ∧ lineCmd (line 4) = 4 ∧ lineCmd (line 5) = 5 ∧ 5 < lineCmd (line 6) := by decide +kernel
/-- The panel and the context of the head of `yielding` are free: it is placed. -/
def placing : State :=
  { setPanel yielding 0 { started := true, tested := true } with cycle := 99, lastPlace := 0, sel := { die := 0 } }
theorem test_wit_LaunchEventsComplete_places :
    placing.sel.die < 3 ∧ placing.cycle % 3 = placing.sel.die ∧ placing.lastPlace ≠ placing.cycle + 1 ∧ (heads placing).length = 1 ∧
    (headOf placing 7).any (fun x => headRefused placing 7 x.2) = false ∧
    (match firstHead 0 (turnOrder (tgetD placing.turns 0 {}) (heads placing)) { placing with lastPlace := placing.cycle + 1 } with
     | some (_, _, .placed _ _) => true
     | _ => false) = true := by decide +kernel
theorem test_wit_LaunchEventsComplete_others :
    ((launch1 3).stage = 3 ∧ ({ inCtx 2 [] with launches := [launch1 3] } : State).launches[0]? = some (launch1 3)) ∧
    ((planeOf (planeSel { state := 1 }) 0 1).state = 1 ∧ (planeOf (planeSel { state := 1 }) 0 1).verdict = 0 ∧ (planeOf (planeSel { state := 4 }) 0 1).state = 4 ∧
      planeEmpty (planeSel { state := 4 }) 0 1 = true) ∧
    (let s := flipping { state := 2 }
     (panelAt s 0).flip = some { target := 1, ask := some ({}, rs) } ∧ (planeOf s 0 1).state = 2 ∧ recheckBad s 0 1 = false ∧ (planeOf s 0 1).wells = [] ∧
     (planeOf s 0 1).rules = []) ∧
    (let s := markerFor ((rn 0).bits 0x22)
     let f := s.transit.getD 0 default
     f.queued = false ∧ f.tok.snap = true ∧ behindOwn s 0 f = false ∧ entryLate s f = false ∧ isNib 2 = true ∧ (panelAt s 0).deadSnaps = [] ∧
     (nibAt s 0 2).forwarded = [] ∧ admits s 0 f.tok.tag = true ∧ planeRuns s 0 0 = true ∧ (portsOf (recAt s 0 2 0 1)).contains 0 = true ∧
     Machine.opOf (recAt s 0 2 0 1) = 0x22) ∧
    ((panelAt (snapOn (some 1024) 1024) 0).snap.any (fun x => x.deadline == some 1024) = true ∧ 1024 ≤ (snapOn (some 1024) 1024).cycle) := by decide +kernel

/-- Context 1 runs past its slice while the head of `yielding` waits. -/
def slicing : State :=
  { yielding with ctxs := tsetD yielding.ctxs 1 { ctxAt yielding 1 with slice := 1, sliceCnt := 1024 } {}, sel := { ctx := 1 } }
theorem test_wit_ContextEventsComplete_slice :
    ctxRuns slicing 1 = true ∧ (ctxAt slicing 1).slice ≠ 0 ∧ (ctxAt slicing 1).slice * 1024 ≤ (ctxAt slicing 1).sliceCnt ∧
    workWaits slicing 1 (ctxPrio slicing 1) = true := by decide +kernel
theorem test_wit_ContextEventsComplete_parks :
    (parkOf (parking (park2 1) none 9) 2 = some (park2 1) ∧ (park2 1).faulted = none ∧ ctxSettled (parking (park2 2) none 9) 2 = true ∧
      ctxQuiet (parking (park2 3) none 9) 2 = true ∧ readOf { parking (park2 4) none 9 with tlb := leaf2 } = 1) ∧
    (let s := { parking (park2 5) none 9 with tlb := leaf2 }
     parkLate s (park2 5) = false ∧ ctxBusy s 2 = false ∧ readOf s = 1 ∧ (commitHeader (readHeader s 2 0).1 2 0).2 = none ∧ (park2 5).preempt = false) ∧
    parkLate (parking (park2 2) (some 10) 4107) (park2 2) = true ∧ ({ park2 2 with faulted := some (3, 64, 0) } : Park).faulted = some (3, 64, 0) := by decide +kernel
theorem test_wit_ContextEventsComplete_restore :
    (let s := restores [(0, 1)] [im0]
     readOf s = 2 ∧ bit 1 0 = true ∧ (match (readSlots s 2 0).2 with | .ok ps => ps == [0] | .error _ => false) = true ∧ targetsOk s 2 [im0] [0] = true) := by decide +kernel
theorem test_wit_ContextEventsComplete_hosts :
    ((building 0 1).sel.who = .host 1 ∧ (building 0 1).sel.ctx < 256 ∧ ctxOwner (building 0 1) 2 = some 1 ∧ (ctxAt (building 0 1) 2).state = 0 ∧
      (ctxAt (building 1 1) 2).state = 1 ∧ ctxValid (building 1 1) 2 = true ∧ (ctxAt (building 2 1) 2).state = 2) ∧
    ((commanding 0 0).sel.who = .host 0 ∧ (commanding 0 0).sel.part ≤ 64 ∧ prangeRefused (commanding 0 0) 64 0 = false ∧ (partAt (commanding 0 0) 64).pstate = 0 ∧
      (partAt (commanding 2 0) 64).pstate = 2 ∧ (partAt (commanding 2 0) 64).parked = [] ∧ (commanding 2 0).resumes = []) ∧
    (let s := hostReg 0 3 0 10
     s.sel.who = .host 0 ∧ s.sel.off = none ∧ s.sel.p < 48 ∧ 3 ≤ s.sel.v.toNat % 16 ∧ s.sel.v.toNat % 16 ≤ 10 ∧ ownRow s.sel.num = false ∧ s.sel.fn ≤ 64 ∧
     hostReaches s 0 3 0 = true ∧ hostReaches s s.sel.fn s.sel.num s.sel.p = true) := by decide +kernel
theorem test_wit_ContextEventsComplete_partitions :
    ((panelAt (setPanel State.reset 0 { svcPend := some true }) 0).svcPend = some true ∧ panelIdle (setPanel State.reset 0 { svcPend := some true }) 0 = true) ∧
    ((partAt (freezing_ 3 4106) 1).pstate = 3 ∧ (frozenCtxs (freezing_ 3 4106) 1).all (ctxSettled (freezing_ 3 4106)) = true ∧ (partAt (freezing_ 5 9) 1).pstate = 5) := by
  decide +kernel

theorem test_wit_LinkEventsComplete :
    (let s := flitAt 26 (up 7) (flit1 4 true)
     (linkAt s 26).state = 2 ∧ linkBlocked s 26 = false ∧ (flit1 4 true).inc = (up 7).inc ∧ isDieLink 26 = false ∧ isPort 26 = true) ∧
    (let m : Remote := { id := 0, dev := 3, link := 3, sent := 5, body := .fence 0
                         req := some { kind := .xferSector 9 0 0, path := [], born := 1, ctx := 2, issuer := 0, addr := 0, ctag := 2 } }
     m.sent + 2 ^ 20 ≤ 1048581 ∧ m.ans = none ∧ m.req.isSome = true) ∧
    (linkAt (flitAt 26 { state := 1 } default) 26).state = 1 ∧ (linkAt (flitAt 27 { state := 3 } default) 27).state = 3 ∧ (linkAt (flitAt 27 (up 0) default) 27).state = 2 ∧
    (let s := { flitAt 2 (up 9) default with parts := (List.range 65).map (fun k => (k, { pstate := 4 })) }
     isDieLink 2 = true ∧ (linkAt s 2).state = 2 ∧ 9 ≤ (linkAt s 2).bad ∧ freezable s = [] ∧ freezing s = false) ∧
    (let s := hostMem 0xFFF2FFFFEFFFC0 64 (some (List.replicate 64 0))
     windowOf s s.sel.req = none ∧ hostServed s s.sel.req = true ∧ s.sel.fn < 65) := by decide +kernel
theorem test_wit_LinkEventsComplete_power :
    ((managed { standby := false }).mgmt.standby = false ∧ (managed { released := false }).mgmt.standby = true ∧ (managed { released := false }).mgmt.main = true ∧
      (managed { released := false }).mgmt.fwPass = true ∧ (managed { main := false }).mgmt.main = false) ∧
    ((managed {} 822500 { p := 47 }).cycle = 17500 * 47 ∧ ({} : Mgmt).panelsFuse.getLsbD 47 = true ∧ (panelAt (managed {} 822500 { p := 47 }) 47).started = false) ∧
    ((limited {} 261 true).sel.die < 3 ∧ (limited { lastStep := 5 } 261 true).cycle = 5 + (limited {} 261 true).mgmt.ramp.toNat ∧ mmaWaits (limited { lastStep := 5 } 261 true) 0 = true ∧
      (limited {} 261 true).sel.ok = true ∧ ({} : Limiter).duty < min 16 ({} : Limiter).ceiling ∧ 3000 < (limited {} 2000 false).sel.num ∧ ({} : Limiter).lastCeil + 1024 ≤ 2000) ∧
    ((managed {}).mgmt.standby = true ∧ (managed {}).mgmt.serving = none ∧ ({ num := 3 } : Sel).num < 4 ∧ (managed {}).mgmt.resetting = false ∧ (managed {}).mgmt.released = true) ∧
    ((managed {} (2 ^ 32)).cycle % 2 ^ 32 = 0 ∧ (managed {} (2 ^ 32)).cycle ≠ (managed {} (2 ^ 32)).mgmt.lastCommit ∧
      (managed {} (2 ^ 20) { nums := [1, 2, 3] }).cycle ≠ (managed {} (2 ^ 20)).mgmt.lastSample) := by decide +kernel

/-! ## Single steps: the spec's worked examples -/

/-- A state in which decode's record is the one whose match stands at the site. -/
def runs (w : Rec96) (site : Nat) (ops : List (Nat × Token)) : Outcome :=
  match decode w with
  | .ok i => exec i (lay2 site ops)
  | .error _ => .refused .noMatch
/-- Type, NULL and lanes of the tokens sent, and where to. -/
def shown (o : Outcome) : List (Nat × BitVec 4 × Bool × List Lane) := (sent o).map (fun t => (t.site.toNat, t.ty, t.null, t.lanes))

/-- 08, "An example in format N": 1.0 and 2.0 plus 1.5 with c = 1; the two nulls with c = 0. -/
theorem test_fadd_example : shown (runs 0x400A_2410_3301_6100_3FC0_0000 2 [(0, tk [0x3F800000, 0x40000000] 10), (2, tk [1])]) =
    [(36, 10, false, [0x40200000, 0x40600000]), (51, 10, false, [0x40200000, 0x40600000])] := by decide +kernel
theorem test_fadd_example_nulls : (shown (runs 0x400A_2410_3301_6100_3FC0_0000 2 [(0, tk [0x3F800000, 0x40000000] 10), (2, tk [0])])).map (fun x => (x.1, x.2.2.1)) =
    [(36, true), (51, true)] := by decide +kernel

/-- 09: ICMP of i16 −3 < 0; with emit0=true nothing is sent for a ≥ 0. -/
theorem test_icmp_example : shown (runs 0x1921_2409_FF00_4000_0000_0000 2 [(0, tk [0x0000FFFD] 1)]) = [(36, 1, false, [1])] := by decide +kernel
theorem test_icmp_example_emit : shown (runs 0x1921_2409_FF00_4800_0000_0000 2 [(0, tk [3] 1)]) = [] := by decide +kernel

/-- 09 R187: i8 0x50 shifted left by 1, under wrap and under sat. -/
theorem test_shl_wraps : shown (exec (.shl (rn 0)) (lay2 2 (abc [0x50] [1] [] 0))) = [(7, 0, false, [0xA0])] := by decide +kernel
theorem test_shl_saturates : shown (exec (.shl (rn 0 1)) (lay2 2 (abc [0x50] [1] [] 0))) = [(7, 0, false, [0x7F])] := by decide +kernel

/-- 10: FSINPI(0.5) = 1.0 is exact. -/
theorem test_fsinpi_half :
    (match exec (.fsinpi (rn 10)) (lay2 2 [(0, tk [0x3F000000] 10)]) with
     | .next t => (nibAt t 0 2).delayed.map (fun d => (d.flags, (d.sends.map (fun x => x.lanes)).head?))
     | _ => []) = [(0, some [0x3F800000])] := by decide +kernel

/-- 10: LSUM in lane order. -/
theorem test_lsum_example : shown (runs 0x660A_2428_FF00_0000_0000_0000 2 [(0, tk [0x3F800000, 0x4B800000, 0xCB800000, 0x3F800000] 10)]) =
    [(36, 10, false, [0x3F800000])] := by decide +kernel
theorem test_lsum_exchanged : shown (runs 0x660A_2428_FF00_0000_0000_0000 2 [(0, tk [0x3F800000, 0xCB800000, 0x4B800000, 0x3F800000] 10)]) =
    [(36, 10, false, [0x40000000])] := by decide +kernel

/-- 03 and 10: the worked packing, under ne and under up. -/
theorem test_bxpack_example : shown (runs 0x630C_2408_3500_0000_0000_0000 2
      [(0, tk [0x40400000, 0xBFA00000, 0x3F000000, 0x3E99999A, 0x3DCCCCCD, 0xBD800000] 10)]) =
    [(36, 12, false, [0x24308AAC, 0, 0]), (53, 5, false, [0x0000FC80])] := by decide +kernel
theorem test_bxpack_up : (shown (exec (.bxpack (rn 12 3)) (lay2 2
      [(0, tk [0x40400000, 0xBFA00000, 0x3F000000, 0x3E99999A, 0x3DCCCCCD, 0xBD800000] 10)]))).map (fun x => x.2.2.2.head?) =
    [some 0x24410AAC] := by decide +kernel

/-- 04: the worked address, on die 2 at 0x11123. -/
theorem test_home_form_example : homeForm 0xFFFC0000035123 = 2 * 2 ^ 42 + 0x11123 := by decide +kernel

/-- 02: shares of nodes 5 and 6 after a window in which they held 3,072 and 1,024 row-cycles, and of a node that held none. -/
theorem test_share_example :
    (match exec .shareWindowStart { setNib (lay2 2 []) 0 2 { occ := [(5, 3072), (6, 1024)] } with sel := { site := 2 }, cycle := 256 } with
     | .next t => [5, 6, 7].map (fun n => shareOf (nibAt t 0 2) n)
     | _ => []) = [12, 4, 0] := by decide +kernel

/-- 11: the array of rows 2 to 6 and columns 2 to 8: its west-edge and south-edge cells and its skew wells. -/
theorem test_array_example : ((cellSites 2 6 2 8).filter (fun x => x % 16 == 2), (cellSites 2 6 2 8).filter (fun x => x / 16 == 6)) =
    ([34, 66, 98], [98, 100, 102, 104]) := by decide +kernel
theorem test_array_skew_wells : skewSites 2 6 2 8 = [50, 52, 54, 56, 82, 84, 86, 88] := by decide +kernel

/-- 11: the addends of the worked ACC in index order. -/
theorem test_acc_example : (([0x4B800000, 0x3F800000, 0xCB800000] : List Nat).foldl (fun (x : Nat × Bool) y =>
    let r := fadd 10 0 0 (fread 10 x.1) (fread 10 y)
    (r.1, x.2 || r.2.getLsbD 0)) (0x3F800000, false)) = (0, true) := by decide +kernel

/-- 12: the prefixes of the worked cavity. -/
theorem test_cavity_example : ((chain 0 1 true ([none], false)
    [([some 0x3F800000], false), ([some 0x4B800000], false), ([some 0x3F800000], false), ([some 0xCB800000], false)]).1.map (·.1)) =
    [[none], [some 0x3F800000], [some 0x4B800000], [some 0x4B800000], [some 0]] := by decide +kernel

/-- 12: sweep 3 of the worked pace set visits member 1 and not before its exponent says so. -/
theorem test_pace_example : (paceDue { pexp := 1, stag := 1 } 2, paceDue { pexp := 1, stag := 1 } 3, paceDue { pexp := 0, stag := 1 } 6) =
    (false, true, true) := by decide +kernel

/-- 20 R397, R398: TRET from a handler goes to the block of TRETB. -/
theorem test_tret_returns :
    (match exec (.tret rs) (setScribe (lateRec [(0, tk [1])]) 0 { tstat := 0x0020000000000000, tretb := 9 }) with
     | .next t => (thand (scribeAt t 0), (scribeAt t 0).next, (scribeAt t 0).resting)
     | _ => (true, 0, true)) = (false, 9, false) := by decide +kernel

/-- 14 R303: an append to the top of a ring goes to its last slot, under sequence number 2^32 − 1 and then 0. -/
theorem test_append_wraps :
    (let t := takeReq (setQueue State.reset 255 { state := 1, lsz := 2, ring := 0xFFF00000000000, appseq := 0xFFFFFFFF, recs := [0xFFFFFFFF] })
        { q := 255, born := 0, what := .line 0 [5, 0, 0, 0, 0, 0, 0, 0] }
     ((queueAt t 255).appseq, (queueAt t 255).recs)) = (0, [0xFFFFFFFF, 0]) := by decide +kernel

/-- 17: the last arrival completes the phase. -/
theorem test_barrier_completes :
    (let t := pointAct (.barrive (rs 0 4095)) (atBar (bar 1 1 0) [(0, tk [0])]).cur (atBar (bar 1 1 0) [(0, tk [0])])
     ((barrierAt t 0 4095).state, (barrierAt t 0 4095).nph)) = (2, 0) := by decide +kernel

/-! ## Witnesses: steps and whole records -/

theorem test_wit_PlacedRecordsRunFirst : (decode 0x0102_2400_FF00_4000_0000_0007).isOk = true ∧
    (match step (State.reset.withFetchWord 96 0x0102_2400_FF00_4000_0000_0007) with | .next _ => true | _ => false) = true := by decide +kernel

theorem test_wit_RecordsAreTwelveBytes : Instr.wf (.iadd (rn 2)) = true ∧ (encode (.iadd (rn 2))).isSome = true := by decide +kernel

theorem test_wit_CommitConditions : blockDone (running wCopy blk1 []) 0 blk1 = true ∧ blockDone (running wBranch blk1 []) 0 blk1 = false := by
  decide +kernel
end Sys2Proof.Tests
end

section
/-!
PROOF. Conversion from a float to an integer type (03 R61, R63, R72): `roundAt` at the units place gives an integer that
the rounding code allows, and `ftoiV` is that integer clamped to the type, with the flag of what was lost.
-/
namespace Sys2Proof.Proofs
open Sys2Proof.Machine Sys2Proof.Safety Sys2Proof.Claims

/-! ## Sign and magnitude -/

/-- The integer of a sign and a magnitude. -/
def signedInt (neg : Bool) (n : Nat) : Int := if neg then -(n : Int) else n

/-- The rational of a sign and a magnitude. -/
def signedRat (neg : Bool) (a : ℚ) : ℚ := if neg then -a else a

theorem exVal_eq (x : Ex) : exVal x = signedRat x.neg (x.m * 2 ^ x.e) := by
  cases h : x.neg <;> simp [exVal, signedRat, h]

@[simp] theorem cast_signedInt (neg : Bool) (n : Nat) : (signedInt neg n : ℚ) = signedRat neg n := by
  cases neg <;> simp [signedInt, signedRat]

theorem signedRat_sub (neg : Bool) (a b : ℚ) : signedRat neg a - signedRat neg b = signedRat neg (a - b) := by
  cases neg <;> simp [signedRat]; ring

@[simp] theorem abs_signedRat (neg : Bool) (a : ℚ) : |signedRat neg a| = |a| := by
  cases neg <;> simp [signedRat]

theorem signedInt_even_iff (neg : Bool) (n : Nat) : signedInt neg n % 2 = 0 ↔ n % 2 = 0 := by
  cases neg <;> simp only [signedInt] <;> simp <;> omega

/-! ## What a rounding code does (03 R61, R63) -/

/-- An integer is what every code gives for itself. -/
theorem roundsTo_self (mode z : Nat) (k : Int) : RoundsTo mode z k k := by
  unfold RoundsTo
  split <;> simp

/-- The code takes a magnitude `q + f` with 0 < f < 1 to `q + 1` rather than to `q`. -/
def AwayFromZero (mode z : Nat) (neg : Bool) (q : Nat) (f : ℚ) : Prop :=
  match mode with
  | 0 => 1 / 2 < f ∨ (f = 1 / 2 ∧ q % 2 = 1)
  | 1 => False
  | 2 => neg = true
  | 3 => neg = false
  | 4 => 1 / 2 ≤ f
  | _ => (z : Int) < ⌊f * 2 ^ 32⌋

/-- The neighbour of a magnitude between `q` and `q + 1`: away from zero or toward it. -/
def neighbour (q : Nat) (up : Bool) : Nat := if up then q + 1 else q

section
variable {q : Nat} {f : ℚ} (h0 : 0 < f) (h1 : f < 1)
include h0

theorem signedRat_neg_iff (neg : Bool) : signedRat neg (q + f) < 0 ↔ neg = true := by
  have : (0 : ℚ) ≤ q := q.cast_nonneg
  cases neg <;> simp [signedRat] <;> linarith

theorem abs_add_fraction (q : Nat) : |(q : ℚ) + f| = q + f :=
  abs_of_nonneg (add_nonneg q.cast_nonneg h0.le)

include h1

theorem floor_signedRat (neg : Bool) : ⌊signedRat neg (q + f)⌋ = signedInt neg (neighbour q neg) := by
  rw [Int.floor_eq_iff]
  cases neg <;> simp [signedRat, neighbour] <;> constructor <;> linarith

theorem ceil_signedRat (neg : Bool) : ⌈signedRat neg (q + f)⌉ = signedInt neg (neighbour q !neg) := by
  rw [Int.ceil_eq_iff]
  cases neg <;> simp [signedRat, neighbour] <;> constructor <;> linarith

/-- The integer next to the value on the side of zero. -/
theorem trunc_signedRat (neg : Bool) :
    (if signedRat neg (q + f) < 0 then ⌈signedRat neg (q + f)⌉ else ⌊signedRat neg (q + f)⌋) = signedInt neg q := by
  simp only [signedRat_neg_iff h0, floor_signedRat h0 h1, ceil_signedRat h0 h1]
  cases neg <;> rfl

/-- How far the neighbour is from the value. -/
theorem abs_neighbour_sub (neg up : Bool) :
    |(signedInt neg (neighbour q up) : ℚ) - signedRat neg (q + f)| = if up then 1 - f else f := by
  rw [cast_signedInt, signedRat_sub, abs_signedRat]
  cases up
  · simp [neighbour, abs_of_pos h0]
  · have : (q : ℚ) + 1 - (q + f) = 1 - f := by ring
    simp [neighbour, this, abs_of_pos (sub_pos.mpr h1)]

/-- Code ne: away from zero beyond the half, and at the half only when `q` is odd. -/
theorem roundsTo_nearestEven {neg up : Bool} (z : Nat) (hup : up = true ↔ AwayFromZero 0 z neg q f) :
    RoundsTo 0 z (signedRat neg (q + f)) (signedInt neg (neighbour q up)) := by
  simp only [RoundsTo, abs_neighbour_sub h0 h1, signedInt_even_iff]
  simp only [AwayFromZero] at hup
  cases up with
  | false =>
    obtain ⟨hle, hodd⟩ : f ≤ 1 / 2 ∧ (f = 1 / 2 → ¬ q % 2 = 1) := by simpa using hup
    exact hle.lt_or_eq.imp id fun h => ⟨h, Nat.mod_two_ne_one.mp (hodd h)⟩
  | true =>
    refine (hup.mp rfl).imp (fun h => ?_) fun ⟨h, hodd⟩ => ⟨?_, ?_⟩
    · simp only [if_true]; linarith
    · simp only [if_true]; linarith
    · simp only [neighbour, if_true]; omega

/-- Code na: at the tie the neighbour away from zero has the larger magnitude. -/
theorem roundsTo_nearestAway {neg up : Bool} (z : Nat) (hup : up = true ↔ AwayFromZero 4 z neg q f) :
    RoundsTo 4 z (signedRat neg (q + f)) (signedInt neg (neighbour q up)) := by
  simp only [RoundsTo, abs_neighbour_sub h0 h1]
  simp only [AwayFromZero] at hup
  cases up with
  | false => exact .inl (by simpa using hup)
  | true =>
    have hlarger : |signedRat neg (q + f)| < |(signedInt neg (neighbour q true) : ℚ)| := by
      rw [cast_signedInt, abs_signedRat, abs_signedRat, abs_add_fraction h0, Nat.abs_cast]
      simp only [neighbour, if_true]; push_cast; linarith
    refine (hup.mp rfl).lt_or_eq.imp (fun h => ?_) fun h => ⟨?_, hlarger⟩
    · simp only [if_true]; linarith
    · simp only [if_true]; linarith

/-- Code sr: the stochastic bits are compared with the part of the magnitude beyond the integer toward zero. -/
theorem roundsTo_stochastic {neg up : Bool} {m z : Nat} (hup : up = true ↔ AwayFromZero (m + 5) z neg q f) :
    RoundsTo (m + 5) z (signedRat neg (q + f)) (signedInt neg (neighbour q up)) := by
  have hpart : |signedRat neg (q + f)| - |(signedInt neg q : ℚ)| = f := by
    rw [cast_signedInt, abs_signedRat, abs_signedRat, abs_add_fraction h0, Nat.abs_cast, add_sub_cancel_left]
  have haway : (z : Int) < ⌊f * 2 ^ 32⌋ ↔ up = true := hup.symm
  simp only [RoundsTo]
  rw [trunc_signedRat h0 h1, hpart]
  simp only [haway, signedRat_neg_iff h0]
  cases up
  · rfl
  · cases neg <;> simp [neighbour, signedInt]; omega

/-- A value between two integers rounds to the neighbour that `AwayFromZero` selects. -/
theorem roundsTo_neighbour {mode z : Nat} {neg up : Bool} (hup : up = true ↔ AwayFromZero mode z neg q f) :
    RoundsTo mode z (signedRat neg (q + f)) (signedInt neg (neighbour q up)) := by
  match mode, hup with
  | 0, hup => exact roundsTo_nearestEven h0 h1 z hup
  | 1, hup =>
    obtain rfl : up = false := by simpa [AwayFromZero] using hup
    exact (trunc_signedRat h0 h1 neg).symm
  | 2, hup =>
    obtain rfl : up = neg := Bool.eq_iff_iff.mpr hup
    exact (floor_signedRat h0 h1 up).symm
  | 3, hup =>
    obtain rfl : up = !neg := Bool.eq_iff_iff.mpr (by simpa [AwayFromZero] using hup)
    exact (ceil_signedRat h0 h1 neg).symm
  | 4, hup => exact roundsTo_nearestAway h0 h1 z hup
  | m + 5, hup => exact roundsTo_stochastic h0 h1 hup

end

/-! ## Rounding at the units place -/

/-- A value whose exponent is not below 0 is an integer. -/
theorem magnitude_of_exponent_nonneg {x : Ex} (he : 0 ≤ x.e) :
    (x.m : ℚ) * 2 ^ x.e = ((x.m * 2 ^ x.e.toNat : Nat) : ℚ) := by
  push_cast
  rw [← zpow_natCast, Int.toNat_of_nonneg he]

/-- Below exponent 0 the magnitude is the quotient by 2^-e and the fraction that the remainder leaves. -/
theorem magnitude_of_exponent_neg {x : Ex} (he : x.e < 0) :
    (x.m : ℚ) * 2 ^ x.e =
      (x.m / 2 ^ (-x.e).toNat : Nat) + ((x.m % 2 ^ (-x.e).toNat : Nat) : ℚ) / (2 ^ (-x.e).toNat : Nat) := by
  have hexp : (2 : ℚ) ^ x.e = ((2 ^ (-x.e).toNat : Nat) : ℚ)⁻¹ := by
    rw [Nat.cast_pow, ← zpow_natCast, Int.toNat_of_nonneg (by omega), zpow_neg, inv_inv, Nat.cast_ofNat]
  have hpos : ((2 ^ (-x.e).toNat : Nat) : ℚ) ≠ 0 := by positivity
  rw [hexp, ← div_eq_mul_inv, div_eq_iff hpos, add_mul, div_mul_cancel₀ _ hpos]
  exact_mod_cast (Nat.div_add_mod' x.m (2 ^ (-x.e).toNat)).symm

/-- A value of exponent 0 or more is not rounded. -/
theorem roundAt_of_exponent_nonneg (mode z : Nat) {x : Ex} (hs : x.sticky = false) (he : 0 ≤ x.e) :
    roundAt mode z x 0 = (x.m * 2 ^ x.e.toNat, false) := by
  simp [roundAt, he, hs]

/-- A value with no bits below the units place is not rounded. -/
theorem roundAt_of_remainder_zero (mode z : Nat) {x : Ex} (hs : x.sticky = false) (he : x.e < 0)
    (hr : x.m % 2 ^ (-x.e).toNat = 0) : roundAt mode z x 0 = (x.m / 2 ^ (-x.e).toNat, false) := by
  have hp : (0 : Nat) ≠ 2 ^ (-x.e).toNat := by positivity
  simp only [roundAt, not_le.mpr he, if_false, zero_sub, hr, hs]
  match mode with
  | 0 | 1 | 2 | 3 | 4 | m + 5 => simp [hp]

section
variable {r p : Nat} (hp : 0 < p)
include hp

theorem half_lt_div_iff : (1 : ℚ) / 2 < r / p ↔ p < 2 * r := by
  rw [div_lt_div_iff₀ two_pos (by exact_mod_cast hp)]
  norm_cast
  omega

theorem half_le_div_iff : (1 : ℚ) / 2 ≤ r / p ↔ p ≤ 2 * r := by
  rw [div_le_div_iff₀ two_pos (by exact_mod_cast hp)]
  norm_cast
  omega

theorem div_eq_half_iff : (r : ℚ) / p = 1 / 2 ↔ 2 * r = p := by
  rw [div_eq_div_iff (by exact_mod_cast hp.ne') two_ne_zero]
  norm_cast
  omega

end

theorem lt_floor_div_mul_iff (z r p : Nat) : (z : Int) < ⌊(r : ℚ) / p * 2 ^ 32⌋ ↔ z < r * 2 ^ 32 / p := by
  have h : (r : ℚ) / p * 2 ^ 32 = ((r * 2 ^ 32 : Nat) : ℚ) / p := by push_cast; ring
  rw [h, Rat.floor_natCast_div_natCast]
  exact_mod_cast Iff.rfl

/-- A value with bits below the units place goes to one of its neighbours, and the change is reported. -/
theorem roundAt_of_remainder_ne_zero (mode z : Nat) {x : Ex} (hs : x.sticky = false) (he : x.e < 0)
    (hr : x.m % 2 ^ (-x.e).toNat ≠ 0) :
    ∃ up : Bool, roundAt mode z x 0 = (neighbour (x.m / 2 ^ (-x.e).toNat) up, true) ∧
      (up = true ↔ AwayFromZero mode z x.neg (x.m / 2 ^ (-x.e).toNat)
        (((x.m % 2 ^ (-x.e).toNat : Nat) : ℚ) / (2 ^ (-x.e).toNat : Nat))) := by
  have hp : 0 < 2 ^ (-x.e).toNat := by positivity
  simp only [roundAt, not_le.mpr he, if_false, zero_sub, hs]
  generalize x.m / 2 ^ (-x.e).toNat = q
  generalize x.m % 2 ^ (-x.e).toNat = r at hr ⊢
  generalize 2 ^ (-x.e).toNat = p at hp ⊢
  refine ⟨_, Prod.ext rfl (by simp [hr]), ?_⟩
  match mode with
  | 0 => simp only [AwayFromZero, half_lt_div_iff hp, div_eq_half_iff hp]; simp
  | 1 => simp [AwayFromZero]
  | 2 => simp [AwayFromZero, hr]
  | 3 => simp [AwayFromZero, hr]
  | 4 => simp only [AwayFromZero, half_le_div_iff hp]; simp
  | m + 5 => simp only [AwayFromZero, lt_floor_div_mul_iff]; simp [hr]

/-- The pair is an integer that the code allows for the value, and whether that integer differs from it. -/
def IsUnitsRounding (mode z : Nat) (x : Ex) (r : Nat × Bool) : Prop :=
  RoundsTo mode z (exVal x) (signedInt x.neg r.1) ∧ (r.2 = false ↔ (signedInt x.neg r.1 : ℚ) = exVal x)

/-- An integer value is its own rounding, unchanged. -/
theorem isUnitsRounding_of_integer (mode z : Nat) {x : Ex} {n : Nat} (hv : (x.m : ℚ) * 2 ^ x.e = n) :
    IsUnitsRounding mode z x (n, false) := by
  have hval : exVal x = signedInt x.neg n := by rw [exVal_eq, hv, cast_signedInt]
  exact ⟨hval ▸ roundsTo_self mode z _, by simp [hval]⟩

/-- A value with a fraction is changed, since it lies at a positive distance from both neighbours. -/
theorem isUnitsRounding_of_fraction {mode z : Nat} {x : Ex} {q : Nat} {f : ℚ} {up : Bool} (h0 : 0 < f) (h1 : f < 1)
    (hv : (x.m : ℚ) * 2 ^ x.e = q + f) (hup : up = true ↔ AwayFromZero mode z x.neg q f) :
    IsUnitsRounding mode z x (neighbour q up, true) := by
  have hdist := abs_neighbour_sub (q := q) h0 h1 x.neg up
  have hne : (signedInt x.neg (neighbour q up) : ℚ) ≠ signedRat x.neg (q + f) := by
    rw [← sub_ne_zero, ← abs_pos, hdist]
    split <;> linarith
  rw [IsUnitsRounding, exVal_eq, hv]
  exact ⟨roundsTo_neighbour h0 h1 hup, by simpa using hne⟩

/-- 03 R61, R63: `roundAt` at the units place gives an integer the code allows and reports the change. -/
theorem roundAt_isUnitsRounding (mode z : Nat) {x : Ex} (hs : x.sticky = false) :
    IsUnitsRounding mode z x (roundAt mode z x 0) := by
  rcases le_or_gt 0 x.e with he | he
  · rw [roundAt_of_exponent_nonneg mode z hs he]
    exact isUnitsRounding_of_integer mode z (magnitude_of_exponent_nonneg he)
  have hmag := magnitude_of_exponent_neg he
  by_cases hr : x.m % 2 ^ (-x.e).toNat = 0
  · rw [roundAt_of_remainder_zero mode z hs he hr]
    exact isUnitsRounding_of_integer mode z (by rw [hmag, hr]; simp)
  · obtain ⟨up, hround, hup⟩ := roundAt_of_remainder_ne_zero mode z hs he hr
    have hp : (0 : ℚ) < (2 ^ (-x.e).toNat : Nat) := by positivity
    have hlt : x.m % 2 ^ (-x.e).toNat < 2 ^ (-x.e).toNat := Nat.mod_lt _ (by positivity)
    rw [hround]
    refine isUnitsRounding_of_fraction (div_pos ?_ hp) ((div_lt_one hp).mpr ?_) hmag hup
    · exact_mod_cast Nat.pos_of_ne_zero hr
    · exact_mod_cast hlt

/-! ## Saturation (03 R72) -/

/-- The most negative value of an integer type. -/
def intMin (ty : BitVec 4) : Int := if isSigned ty then -(2 ^ (elemBits ty - 1)) else 0

/-- The most positive value of an integer type. -/
def intMax (ty : BitVec 4) : Int := if isSigned ty then 2 ^ (elemBits ty - 1) - 1 else 2 ^ elemBits ty - 1

theorem intMin_le_intMax (ty : BitVec 4) : intMin ty ≤ intMax ty := by
  have p1 : (1 : Int) ≤ 2 ^ (elemBits ty - 1) := one_le_pow₀ (by norm_num)
  have p2 : (1 : Int) ≤ 2 ^ elemBits ty := one_le_pow₀ (by norm_num)
  unfold intMin intMax
  split <;> omega

/-- The nearest integer in the range of the type. -/
def clampInt (ty : BitVec 4) (k : Int) : Int :=
  if k < intMin ty then intMin ty else if intMax ty < k then intMax ty else k

theorem clampInt_of_lt {ty : BitVec 4} {k : Int} (h : k < intMin ty) : clampInt ty k = intMin ty := if_pos h

theorem clampInt_of_gt {ty : BitVec 4} {k : Int} (h : intMax ty < k) : clampInt ty k = intMax ty := by
  have := intMin_le_intMax ty
  rw [clampInt, if_neg (by omega), if_pos h]

theorem clampInt_of_mem {ty : BitVec 4} {k : Int} (hlo : intMin ty ≤ k) (hhi : k ≤ intMax ty) : clampInt ty k = k := by
  rw [clampInt, if_neg (by omega), if_neg (by omega)]

theorem clampInt_mem (ty : BitVec 4) (k : Int) : intMin ty ≤ clampInt ty k ∧ clampInt ty k ≤ intMax ty := by
  have := intMin_le_intMax ty
  unfold clampInt
  split
  · omega
  · split <;> omega

theorem clampInt_eq_self_iff (ty : BitVec 4) (k : Int) : clampInt ty k = k ↔ intMin ty ≤ k ∧ k ≤ intMax ty :=
  ⟨fun h => h ▸ clampInt_mem ty k, fun h => clampInt_of_mem h.1 h.2⟩

/-- `satN` is the pattern of the clamped integer. -/
theorem satN_eq_clampInt (ty : BitVec 4) (k : Int) : satN ty k = (BitVec.ofInt (elemBits ty) (clampInt ty k)).toNat :=
  satN_eq ty k

/-- An integer in the range of a type is read back from its pattern. -/
theorem valOf_ofInt {ty : BitVec 4} {k : Int} (hlo : intMin ty ≤ k) (hhi : k ≤ intMax ty) :
    valOf ty (BitVec.ofInt (elemBits ty) k) = k := by
  unfold intMin at hlo
  unfold intMax at hhi
  unfold valOf
  split at hlo
  · next h =>
    rw [if_pos h] at hhi ⊢
    exact BitVec.toInt_ofInt_eq_self (elemBits_pos ty) hlo (by omega)
  · next h =>
    rw [if_neg h] at hhi ⊢
    rw [BitVec.toNat_ofInt, Int.emod_eq_of_lt hlo (by push_cast; omega), Int.toNat_of_nonneg hlo]

/-- What the saturated pattern is worth in its type. -/
theorem value_satN (ty : BitVec 4) (k : Int) :
    (if isSigned ty then sgn (elemBits ty) (satN ty k) else (satN ty k : Int)) = clampInt ty k := by
  obtain ⟨hlo, hhi⟩ := clampInt_mem ty k
  conv_rhs => rw [← valOf_ofInt hlo hhi, valOf]
  rw [sgn_eq (elemBits_pos ty), satN_eq_clampInt, BitVec.ofNat_toNat, BitVec.setWidth_eq]

/-! ## The conversion -/

theorem intMin_gt (ty : BitVec 4) : -2 ^ 64 < intMin ty := by revert ty; decide

theorem intMax_lt (ty : BitVec 4) : intMax ty < 2 ^ 64 := by revert ty; decide

/-- An infinity saturates by its sign. -/
theorem ftoiV_inf (ty : BitVec 4) (mode z : Nat) (neg : Bool) :
    ftoiV ty mode z (.inf neg) = ((BitVec.ofInt (elemBits ty) (if neg then intMin ty else intMax ty)).toNat, fNV) := by
  have hclamp : clampInt ty (if neg then -(2 ^ 64 : Nat) else (2 ^ 64 : Nat)) = if neg then intMin ty else intMax ty := by
    cases neg
    · exact clampInt_of_gt (intMax_lt ty)
    · exact clampInt_of_lt (intMin_gt ty)
  rw [ftoiV, satN_eq_clampInt, hclamp]

/-- A finite value gives its rounded integer clamped, with NV exactly when clamping changed it. -/
theorem ftoiV_fin (ty : BitVec 4) (mode z : Nat) (x : Ex) :
    ftoiV ty mode z (.fin x) =
      let k := signedInt x.neg (roundAt mode z x 0).1
      ((BitVec.ofInt (elemBits ty) (clampInt ty k)).toNat,
        if clampInt ty k = k then flagIf (roundAt mode z x 0).2 fNX else fNV) := by
  simp only [ftoiV, value_satN]
  simp only [satN_eq_clampInt]
  exact (apply_ite (Prod.mk _) _ _ _).symm

/-- Settles O10: the integer `roundAt` gives at the units place is allowed by the code, and `ftoiV` clamps it, with NV when
clamping changes it and NX when rounding did. -/
theorem floatsConvertToIntegers : Obligations.FloatsConvertToIntegers := by
  intro ty mode z _ _
  refine ⟨fun _ => rfl, ftoiV_inf ty mode z true, ftoiV_inf ty mode z false, fun x hs => ?_⟩
  obtain ⟨hrounds, hchanged⟩ := roundAt_isUnitsRounding mode z hs
  have hfin := ftoiV_fin ty mode z x
  generalize signedInt x.neg (roundAt mode z x 0).1 = k at hrounds hchanged hfin
  simp only [clampInt_eq_self_iff] at hfin
  refine ⟨k, hrounds, fun hlo hhi => ?_, fun hgt => ?_, fun hlt => ?_⟩
  · rw [hfin, if_pos ⟨hlo, hhi⟩, clampInt_of_mem hlo hhi]
    cases hx : (roundAt mode z x 0).2 with
    | false => rw [if_pos (hchanged.mp hx)]; rfl
    | true => rw [if_neg (by rw [← hchanged, hx]; decide)]; rfl
  · rw [hfin, if_neg fun h => absurd h.2 (not_le.mpr hgt), clampInt_of_gt hgt]; rfl
  · rw [hfin, if_neg fun h => absurd h.1 (not_le.mpr hlt), clampInt_of_lt hlt]; rfl

end Sys2Proof.Proofs
end

section
/-!
PROOF. RUNEND (09 R205): a move whose fields are admitted and whose match supplies values has its effect, which is port a's value with
EOR set (OPX 0) or cleared under cond := a.EOR (OPX 1).
-/
namespace Sys2Proof.Proofs
open Sys2Proof.Machine Sys2Proof.Safety Sys2Proof.Claims

/-- The model's check of a move's fields is FMT 0 with the fields of 09 R193. -/
theorem badMove_eq_false_iff (opxOk levelOk : Bool) (r : RecN) :
    badMove opxOk levelOk r = false ↔ r.fmt = 0 ∧ MoveFields opxOk levelOk r := by
  simp only [badMove, bad1, MoveFields, Bool.or_eq_false_iff, Bool.and_eq_false_imp, bne_eq_false_iff_eq, Bool.not_eq_true',
    or_iff_not_imp_left, Bool.not_eq_true]
  tauto

/-- What the model passes is the value that a claim calls moved under the match's own tag. -/
theorem passVal_eq_moved (k : Ctl) (c : Cur) (t : Token) : passVal k c t = moved k c c.tag t := rfl

/-- What RUNEND makes of its match: port a's value, its EOR the negation of OPX; cond is a.EOR under OPX and true without it. -/
def runendRes (r : RecN) (c : Cur) : Res :=
  { both { moved r.ctl c c.tag (portTok c 0) with eor := !opx r } with
    cond := if opx r then (portTok c 0).eor else true }

/-- RUNEND sends its result when its fields are admitted and its match supplies port a with a value. -/
theorem exec_runend_moves {r : RecN} {s : State} (hfmt : r.fmt = 0) (hfields : MoveFields true false r)
    (hmoves : Moves s (formN r) [0]) :
    exec (.runend r) s = .next (emitRes s s.cur (formN r) (portTok s.cur 0).ty (runendRes r s.cur)) := by
  have hadmitted : badMove true false r = false := (badMove_eq_false_iff true false r).mpr ⟨hfmt, hfields⟩
  rw [exec_runend, execRunend, moveFire_moves hmoves hadmitted, passVal_eq_moved, runendRes]

/-- With OPX 0 the value goes out with EOR set, under cond true. -/
theorem runendRes_of_not_opx {r : RecN} (hopx : opx r = false) (c : Cur) :
    runendRes r c = both { moved r.ctl c c.tag (portTok c 0) with eor := true } := by
  simp [runendRes, both, hopx]

/-- With OPX 1 it goes out with EOR cleared, under cond := a.EOR. -/
theorem runendRes_of_opx {r : RecN} (hopx : opx r = true) (c : Cur) :
    runendRes r c = { both { moved r.ctl c c.tag (portTok c 0) with eor := false } with cond := (portTok c 0).eor } := by
  simp [runendRes, both, hopx]

/-- Settles O11: the result of RUNEND, at each value of OPX. -/
theorem runendMarksOrTests : Obligations.RunendMarksOrTests := by
  intro r s hfmt hfields hmoves
  have hexec := exec_runend_moves hfmt hfields hmoves
  refine ⟨fun hopx => ?_, fun hopx => ?_⟩
  · rw [hexec, runendRes_of_not_opx hopx, both]
  · rw [hexec, runendRes_of_opx hopx, both]

end Sys2Proof.Proofs
end

section
/-!
PROOF. Events of a queue record (14 R307, R308): the model's natural-number distance from ESEQ to CPLSEQ is the difference of 32-bit
words, and an eligible head has every event satisfied.
-/
namespace Sys2Proof.Proofs
open Sys2Proof.Machine Sys2Proof.Safety Sys2Proof.Claims

/-- A field of the bits `hi` to `lo` is below two to its width. -/
theorem bits_lt (v hi lo : Nat) : bits v hi lo < 2 ^ (hi + 1 - lo) := Nat.mod_lt _ (Nat.two_pow_pos _)

/-- ESEQ is a 32-bit field. -/
theorem recEseq_lt (ws : List Word64) (k : Nat) : recEseq ws k < 2 ^ 32 := by
  have hwidth : 32 * (k % 2) + 31 + 1 - 32 * (k % 2) = 32 := by omega
  simpa only [recEseq, hwidth] using bits_lt (ws.getD (2 + k / 2) 0).toNat (32 * (k % 2) + 31) (32 * (k % 2))

/-- The distance from a 32-bit sequence number, taken without a negative intermediate, is the difference of 32-bit words. The bound on
`b` is what keeps the natural subtraction from being cut off at 0. -/
theorem seqDistance_eq_toNat_sub (a : Nat) {b : Nat} (hb : b < 2 ^ 32) :
    (a + 2 ^ 32 - b) % 2 ^ 32 = (BitVec.ofNat 32 a - BitVec.ofNat 32 b).toNat := by
  rw [BitVec.toNat_sub, BitVec.toNat_ofNat, BitVec.toNat_ofNat]
  omega

/-- An event is satisfied at ESEQ 0, or once CPLSEQ of the queue it names has reached ESEQ. -/
theorem eventMet_iff (s : State) (ws : List Word64) (k : Nat) :
    eventMet s ws k = true ↔
      recEseq ws k = 0 ∨ (BitVec.ofNat 32 (queueAt s (recEq ws k)).cplseq - BitVec.ofNat 32 (recEseq ws k)).toNat < 2 ^ 31 := by
  rw [← seqDistance_eq_toNat_sub _ (recEseq_lt ws k), eventMet, Bool.or_eq_true, beq_iff_eq, decide_eq_true_iff]

/-- What an eligible head has (14 R308). -/
theorem eligible_iff (s : State) (q seq : Nat) (ws : List Word64) :
    eligible s q seq ws = true ↔
      (queueAt s q).state = 2 ∧ (∀ k < recNev ws, eventMet s ws k = true) ∧
        (recSer ws = true → seqDone (queueAt s q) ((seq + 2 ^ 32 - 1) % 2 ^ 32) = true) := by
  simp only [eligible, Bool.and_eq_true, beq_iff_eq, List.all_eq_true, List.mem_range, Bool.or_eq_true, Bool.not_eq_true',
    ← Bool.not_eq_true, ← imp_iff_not_or, and_assoc]

/-- Settles O9: the distance of sequence numbers decides an event, and an eligible head would have the unsatisfied one satisfied. -/
theorem eventsAreSatisfied : Obligations.EventsAreSatisfied := by
  intro s ws k
  refine ⟨eventMet_iff s ws k, fun q seq hk hunmet => Bool.eq_false_iff.mpr fun heligible => ?_⟩
  obtain ⟨_, hevents, _⟩ := (eligible_iff s q seq ws).mp heligible
  exact Bool.eq_false_iff.mp hunmet (hevents k hk)

end Sys2Proof.Proofs
end

section
/-!
PROOF. Encoding and decoding (08 R161 to R176): the fields of a word, put together again, are the word; so the word of a record decodes
to it, and a word that decodes is the word of what it decodes to.
-/
namespace Sys2Proof.Proofs
open Sys2Proof.Machine Sys2Proof.Safety Sys2Proof.Claims

/-! ## The fields of a word make the word -/

/-- Neighbouring fields of a word make one field. -/
theorem extr_append {k : Nat} (w : BitVec k) {hi lo n m : Nat} (h : hi = lo + m) :
    w.extractLsb' hi n ++ w.extractLsb' lo m = w.extractLsb' lo (n + m) := by
  apply BitVec.eq_of_getLsbD_eq
  intro i hi
  simp only [BitVec.getLsbD_append, BitVec.getLsbD_extractLsb']
  by_cases hm : i < m
  · simp [hm, hi]
  · have hn : i - m < n := by omega
    have hlo : lo + m + (i - m) = lo + i := by omega
    simp [hm, hi, hn, h, hlo]

theorem bit1_getLsbD {k : Nat} (w : BitVec k) (i : Nat) : bit1 (w.getLsbD i) = w.extractLsb' i 1 := by
  apply BitVec.eq_of_getLsbD_eq
  intro j hj
  obtain rfl : j = 0 := by omega
  simp [bit1]

theorem Dest.bits_at (w : Rec96) (lo : Nat) : (Dest.at w lo).bits = w.extractLsb' lo 16 := by
  simp (disch := omega) only [Dest.bits, Dest.at, extr_append]

theorem Ctl.bits_ofBits (w : Rec96) : (Ctl.ofBits w).bits = w.extractLsb' 40 8 := by
  simp (disch := omega) only [Ctl.bits, Ctl.ofBits, bit1_getLsbD, extr_append]

theorem RecN.bits_ofBits (w : Rec96) : (RecN.ofBits w).bits (Sys2Proof.opOf w) = w := by
  simp (disch := omega) only [RecN.bits, RecN.ofBits, Sys2Proof.opOf, Dest.bits_at, Ctl.bits_ofBits, extr_append]
  exact extr_all w

theorem RecM.bits_ofBits (w : Rec96) : (RecM.ofBits w).bits (Sys2Proof.opOf w) = w := by
  simp (disch := omega) only [RecM.bits, RecM.ofBits, Sys2Proof.opOf, Dest.bits_at, Ctl.bits_ofBits, extr_append]
  exact extr_all w

theorem RecT.bits_ofBits (w : Rec96) : (RecT.ofBits w).bits (Sys2Proof.opOf w) = w := by
  simp (disch := omega) only [RecT.bits, RecT.ofBits, Sys2Proof.opOf, Dest.bits_at, Ctl.bits_ofBits, bit1_getLsbD, extr_append]
  exact extr_all w

theorem RecS.bits_ofBits (w : Rec96) : (RecS.ofBits w).bits (Sys2Proof.opOf w) = w := by
  simp (disch := omega) only [RecS.bits, RecS.ofBits, Sys2Proof.opOf, Dest.bits_at, Ctl.bits_ofBits, extr_append]
  exact extr_all w

/-! ## Both directions -/

/-- A word of opcode `n` is one of the four formats' words with that opcode. -/
theorem bits_of_opOf {w : Rec96} {n : Nat} (h : (Sys2Proof.opOf w).toNat = n) :
    (RecN.ofBits w).bits (BitVec.ofNat 8 n) = w ∧ (RecM.ofBits w).bits (BitVec.ofNat 8 n) = w ∧
    (RecT.ofBits w).bits (BitVec.ofNat 8 n) = w ∧ (RecS.ofBits w).bits (BitVec.ofNat 8 n) = w := by
  subst h
  rw [BitVec.ofNat_toNat, BitVec.setWidth_eq]
  exact ⟨RecN.bits_ofBits w, RecM.bits_ofBits w, RecT.bits_ofBits w, RecS.bits_ofBits w⟩

set_option maxRecDepth 8000 in
/-- A word that decodes is the word of what it decodes to, which carries the SUB or OPX of its row. -/
theorem encode_of_decode {w : Rec96} {i : Instr} (h : decode w = .ok i) : encode i = some w ∧ i.wf = true := by
  unfold decode at h
  split at h <;> rename_i hop <;> (repeat' split at h) <;> cases h
  all_goals
    obtain ⟨hn, hm, ht, hs⟩ := bits_of_opOf hop
    simp only [encode, Instr.wf, beq_iff_eq, BitVec.ofNat_eq_ofNat, and_self, *]

theorem RecN.decode_bits {op : BitVec 8} {r : RecN} {x : Except DecodeError Instr}
    (h : ∀ w, Sys2Proof.opOf w = op → RecN.ofBits w = r → decode w = x) : decode (r.bits op) = x :=
  h _ (RecN.opOf_bits op r) (RecN.ofBits_bits op r)

theorem RecM.decode_bits {op : BitVec 8} {r : RecM} {x : Except DecodeError Instr}
    (h : ∀ w, Sys2Proof.opOf w = op → RecM.ofBits w = r → decode w = x) : decode (r.bits op) = x :=
  h _ (RecM.opOf_bits op r) (RecM.ofBits_bits op r)

theorem RecT.decode_bits {op : BitVec 8} {r : RecT} {x : Except DecodeError Instr}
    (h : ∀ w, Sys2Proof.opOf w = op → RecT.ofBits w = r → decode w = x) : decode (r.bits op) = x :=
  h _ (RecT.opOf_bits op r) (RecT.ofBits_bits op r)

theorem RecS.decode_bits {op : BitVec 8} {r : RecS} {x : Except DecodeError Instr}
    (h : ∀ w, Sys2Proof.opOf w = op → RecS.ofBits w = r → decode w = x) : decode (r.bits op) = x :=
  h _ (RecS.opOf_bits op r) (RecS.ofBits_bits op r)

set_option maxRecDepth 8000 in
/-- The word of a well-formed instruction decodes to it. The rows are grouped by format, and by whether SUB or OPX tells them apart. -/
theorem decode_of_encode {w : Rec96} {i : Instr} (hwf : i.wf = true) (h : encode i = some w) : decode w = .ok i := by
  cases i <;> cases h
  case pginit r | pginitFree r | cavjoinLocal r | cavjoinSegment r | cavjoinLeave r | pacesetInit r | pacesetLoad r |
    pacesetUpdate r | rulesetWrite r | rulesetClear r | rulearmArm r | rulearmDisarm r | binit r | binitFree r | barrive r |
    barriveTag r | btest r | btestTicket r | qtake r | qtakePoll r | kdrain r | kdrainPurge r | kdrainPoll r | minv r |
    minvContext r | mprobe r | mprobeRead r | mprobeReadClear r | ftake r | ftakeRetry r | ftakeDiscard r | ftakePeek r |
    lctlTrain r | lctlDown r | lctlReset r | lctlRoute r | lctlClearCounters r | lctlOwnNumber r =>
    refine RecS.decode_bits fun w hop hr => ?_
    subst hr
    have hsub : (RecS.ofBits w).sub = _ := beq_iff_eq.mp hwf
    unfold decode
    rewrite [hop, hsub]
    rfl
  case sysmodeEnter r | sysmodeLeave r | callocGrant r | callocEntry r =>
    refine RecN.decode_bits fun w hop hr => ?_
    subst hr
    have hopx : (RecN.ofBits w).hi = _ := beq_iff_eq.mp hwf
    unfold decode
    rewrite [hop, hopx]
    rfl
  case ld r | st r | ldx r | stx r | mnop r | fence r | order r | aadd r | amin r | amax r | aand r | aor r | axor r | axchg r |
    acas r | acc r | wcfg r | wfull r | wempty r | ldp r | promote r =>
    refine RecM.decode_bits fun w hop hr => ?_
    subst hr
    unfold decode
    rewrite [hop]
    rfl
  case xfer r | xfers r | pref r | coll r =>
    refine RecT.decode_bits fun w hop hr => ?_
    subst hr
    unfold decode
    rewrite [hop]
    rfl
  case pgadv r | pgread r | cav r | sweep r | paceq r | bwait r | bdrop r | qput r | qstat r | qmark r | kstage r | kflip r | snap
    r | ctxpri r | park r | resume r | yield r | sread r | swrite r | mpin r | munpin r | trap r | tret r | lstat r =>
    refine RecS.decode_bits fun w hop hr => ?_
    subst hr
    unfold decode
    rewrite [hop]
    rfl
  all_goals
    refine RecN.decode_bits fun w hop hr => ?_
    subst hr
    unfold decode
    rewrite [hop]
    rfl

/-- Settles O1: the two directions. -/
theorem decodingInvertsEncoding : Obligations.DecodingInvertsEncoding :=
  ⟨fun _ _ hwf h => decode_of_encode hwf h, fun _ _ h => encode_of_decode h⟩
end Sys2Proof.Proofs
end

section
/-!
PROOF. Opcodes that no record has (08 R172, R176), and the twelve bytes of a record (00 R2, 08 R161).
-/
namespace Sys2Proof.Proofs
open Sys2Proof.Machine Sys2Proof.Safety Sys2Proof.Claims

/-- The opcodes that 08 R176 leaves undefined. -/
abbrev UndefinedOp (op : Nat) : Prop :=
  op = 0x1F ∨ (0x36 ≤ op ∧ op ≤ 0x3F) ∨ (0x56 ≤ op ∧ op ≤ 0x5F) ∨ (0x72 ≤ op ∧ op ≤ 0x7F) ∨ (0x95 ≤ op ∧ op ≤ 0x9F) ∨
    (0xAF ≤ op ∧ op ≤ 0xBF) ∨ (0xD0 ≤ op ∧ op ≤ 0xDF) ∨ (0xF8 ≤ op ∧ op ≤ 0xFE)

set_option maxRecDepth 8000 in
/-- `decode` has no row for an undefined opcode: each row's opcode is outside the ranges, so the last alternative is left. -/
theorem decode_of_undefinedOp {w : Rec96} (h : UndefinedOp (Machine.opOf w)) :
    decode w = .error (.reservedOp (Machine.opOf w)) := by
  change UndefinedOp (Sys2Proof.opOf w).toNat at h
  unfold decode
  split
  case h_171 => rfl
  all_goals
    rename_i hop
    rw [hop] at h
    exact absurd h (by decide)

set_option maxRecDepth 8000 in
theorem decode_of_header {w : Rec96} (h : Machine.opOf w = 0xFF) : decode w = .error .blockHeader := by
  have hop : Sys2Proof.opOf w = 0xFF := BitVec.eq_of_toNat_eq h
  unfold decode
  rewrite [hop]
  rfl

theorem portsOf_of_reserved {w : Rec96} {op : Nat} (h : decode w = .error (.reservedOp op)) : portsOf w = [] := by
  simp [portsOf, reservedOp, h]

/-- Settles O6: the header's row, and the opcodes that have none. -/
theorem reservedOpcodesAreRefused : Obligations.ReservedOpcodesAreRefused :=
  ⟨fun _ h => decode_of_header h, fun _ h => ⟨decode_of_undefinedOp h, portsOf_of_reserved (decode_of_undefinedOp h)⟩⟩

/-! ## A record's bytes -/

/-- The low bytes of a number, put together again. -/
theorem foldr_leBytes (k n : Nat) : (leBytes k n).foldr (fun b v => v * 256 + b.toNat) 0 = n % 256 ^ k := by
  induction k generalizing n with
  | zero => simp [leBytes, Nat.mod_one]
  | succ k ih =>
    have hsplit := Nat.mod_mul (x := n) (a := 256) (b := 256 ^ k)
    simp only [leBytes, List.foldr_cons, ih, BitVec.toNat_ofNat, pow_succ']
    omega

theorem recOfBytes_leBytes (w : Rec96) : recOfBytes (leBytes 12 w.toNat) = w := by
  have hlt : w.toNat < 256 ^ 12 := w.isLt
  rw [recOfBytes, foldr_leBytes, Nat.mod_eq_of_lt hlt, BitVec.ofNat_toNat, BitVec.setWidth_eq]

theorem decodeTableWord_toNat {w : Rec96} {i : Instr} (h : decode w = .ok i) : decodeTableWord 96 w.toNat = some i := by
  simp [decodeTableWord, Nat.mod_eq_of_lt w.isLt, h]

theorem recordsAreTwelveBytes : RecordsAreTwelveBytes := by
  intro i w hwf henc
  have hdec := decode_of_encode hwf henc
  exact ⟨by rw [recOfBytes_leBytes, hdec], decodeTableWord_toNat hdec⟩

end Sys2Proof.Proofs
end

section
/-!
PROOF. A record that is placed to run from reset is the first to be issued (log 36; 02 R45): it is the one match of a quiet nib.
-/
namespace Sys2Proof.Proofs
open Sys2Proof.Machine Sys2Proof.Safety Sys2Proof.Claims

/-! ## The issue of a match that stands alone (02 R45) -/

/-- The only plane that has a match to issue is served, whatever the priorities are. -/
theorem pickPlane_of_only {s : State} {p site : Nat} {n : Nib} {m : Match} (hzero : issuable s p site n 0 = [m])
    (hrest : ∀ k, k ≠ 0 → issuable s p site n k = []) : pickPlane s p site n = some 0 := by
  have hlive : (List.range 4).filter (fun k => !(issuable s p site n k).isEmpty) = [0] := by
    simp [List.range, List.range.loop, hzero, hrest]
  simp only [pickPlane, hlive, List.foldl_cons, List.foldl_nil]
  split
  · rfl
  · split <;> rfl

theorem pickMatch_singleton (site : Nat) (n : Nib) (k : Nat) (m : Match) : pickMatch site n k [m] = some m := by
  simp only [pickMatch, List.find?_cons, List.find?_nil]
  split
  · split <;> rfl
  · rfl

theorem noteIssue_of_free {s : State} {p plane : Nat} {tag : Word64}
    (h : (colourAt s (partOf s (matchCtx s p plane tag)) (colourOf tag)).gstate = 0) : noteIssue s p plane tag = s := by
  simp [noteIssue, gidOf, h]

/-- Where no operand, match or generator waits there is nothing to move on. -/
theorem settle_of_quiet {s : State} {p site : Nat} {n : Nib} (hn : nibAt s p site = n) (hgroups : n.groups = [])
    (hwaits : n.waits = []) (hgens : n.gens = []) : settle s p site = setNib s p site n := by
  cases n
  simp only at hgroups hwaits hgens
  subst hgroups hwaits hgens
  simp only [settle, hn, List.length_nil, iter, List.range_zero, List.foldl_nil, wakeNib, armGens]

/-- Writing the same nib twice is writing it once. -/
theorem setNib_setNib {s : State} {p site : Nat} {n : Nib} (h : n ≠ {}) : setNib (setNib s p site n) p site n = setNib s p site n := by
  simp only [setNib, tsetD, if_neg h, tput_tput]

/-- The nib after the issue, in cycle `cycle`, of match `m` of plane 0, the first of its ready list. -/
def nibIssued (n : Nib) (m : Match) (cycle : Nat) : Nib :=
  { n with
    ready := dropAt n.ready 0
    issued := tsetD n.issued (nodeKey 0 m.node) (tgetD n.issued (nodeKey 0 m.node) 0 + 1) 0
    planeIssues := tsetD n.planeIssues 0 (tgetD n.planeIssues 0 0 + 1) 0
    lastIssue := tsetD n.lastIssue 0 (cycle + 1) 0
    lastPlane := 0 }

/-- No nib is in its reset state after an issue of plane 0, since the plane served last is 3 at reset. -/
theorem nibIssued_ne_default (n : Nib) (m : Match) (cycle : Nat) : nibIssued n m cycle ≠ {} := by
  intro h
  exact absurd (congrArg Nib.lastPlane h) (by simp [nibIssued])

/-- A quiet nib with one match, of plane 0 and of no group, issues it. -/
theorem pickIssue_of_only {s : State} {p site : Nat} {n : Nib} {m : Match} (hn : nibAt s p site = n)
    (hquiet : n.ready = [m] ∧ n.lastIssue = [] ∧ n.groups = [] ∧ n.waits = [] ∧ n.gens = [])
    (hzero : issuable s p site n 0 = [m]) (hrest : ∀ k, k ≠ 0 → issuable s p site n k = [])
    (hroom : outRoom s p site (if m.again = 1 then m.word else recAt s p site 0 m.node) = true) (hcolours : s.colours = []) :
    pickIssue s p site = some (setNib s p site (nibIssued n m s.cycle), m) := by
  obtain ⟨hready, hlast, hgroups, hwaits, hgens⟩ := hquiet
  have hidx : idxOf (fun x => decide (x = m)) n.ready = some 0 := by simp [hready, idxOf]
  have hturn : (List.range 4).any (fun k => tgetD n.lastIssue k 0 == s.cycle + 1) = false := by simp [hlast, tgetD, tget?]
  have hnib : nibAt (setNib s p site (nibIssued n m s.cycle)) p site = nibIssued n m s.cycle :=
    nibAt_setNib s p site (nibIssued_ne_default n m s.cycle)
  have hfree : noteIssue (setNib s p site (nibIssued n m s.cycle)) p 0 m.tag = setNib s p site (nibIssued n m s.cycle) := by
    apply noteIssue_of_free
    simp [colourAt, hcolours, tgetD, tget?]
  have hsettle : settle (setNib s p site (nibIssued n m s.cycle)) p site = setNib s p site (nibIssued n m s.cycle) := by
    rw [settle_of_quiet hnib hgroups hwaits hgens, setNib_setNib (nibIssued_ne_default n m s.cycle)]
  unfold pickIssue
  simp only [hn, hturn, pickPlane_of_only hzero hrest, hzero, pickMatch_singleton, hroom, hidx]
  change some (if _ then noteIssue (setNib s p site (nibIssued n m s.cycle)) p 0 m.tag
    else settle (noteIssue (setNib s p site (nibIssued n m s.cycle)) p 0 m.tag) p site, m) = _
  rw [hfree, hsettle, ite_self]

/-! ## A placed record (log 36) -/

/-- The match that `placeRecord` puts on the ready list. -/
def placedMatch (w : Rec96) : Match :=
  { plane := 0, node := 0, tag := 0, ops := (portsOf w).map (fun k => (k, waitingTok k)), done := 0, entered := 0 }

/-- What the issue of a placed record reads: its match alone stands ready at the site, nothing is gated or on its way, no colour is in use,
and the limiter holds nothing back. -/
structure Placed (s : State) (site : Nat) (st : Tab Rec96) (w : Rec96) : Prop where
  nib : nibAt s 0 site = { store := st, ready := [placedMatch w] }
  cycle : s.cycle = 1
  ctxs : s.ctxs = []
  colours : s.colours = []
  transit : s.transit = []
  limiter : limiterAt s 0 = { duty := 16 }

theorem needOut_le_two (w : Rec96) : needOut w ≤ 2 := by
  simp only [needOut]
  split <;> split <;> omega

theorem Placed.outRoom {s : State} {site : Nat} {st : Tab Rec96} {w : Rec96} (h : Placed s site st w) (v : Rec96) :
    Machine.outRoom s 0 site v = true := by
  have := needOut_le_two v
  simp [Machine.outRoom, queueUsed, queueLen, h.transit, h.nib]
  omega

/-- The placed match can issue, and no other match stands there. -/
theorem Placed.issuable {s : State} {site : Nat} {st : Tab Rec96} {w : Rec96} (h : Placed s site st w) (k : Nat) :
    Machine.issuable s 0 site { store := st, ready := [placedMatch w] } k = if k = 0 then [placedMatch w] else [] := by
  have hgate : ∀ c, gatedCtx s 0 site c = false := by simp [gatedCtx, h.nib, ctxAt, h.ctxs, tgetD, tget?]
  have hheld : mmaHeld s 0 site (placedMatch w) = false := by simp [mmaHeld, dieOf, h.limiter]
  simp only [Machine.issuable, List.filter_cons, hgate, hheld, h.cycle, List.filter_nil]
  by_cases hk : k = 0
  · simp [hk, placedMatch]
  · simp [hk, placedMatch, Ne.symm hk]

theorem Placed.pickIssue {s : State} {site : Nat} {st : Tab Rec96} {w : Rec96} (h : Placed s site st w) :
    ∃ n, n ≠ {} ∧ n.store = st ∧ n.storeBad = [] ∧ Machine.pickIssue s 0 site = some (setNib s 0 site n, placedMatch w) := by
  refine ⟨nibIssued { store := st, ready := [placedMatch w] } (placedMatch w) s.cycle, nibIssued_ne_default _ _ _, rfl, rfl, ?_⟩
  refine pickIssue_of_only h.nib ⟨rfl, rfl, rfl, rfl, rfl⟩ ?_ (fun k hk => ?_) (h.outRoom _) h.colours
  · rw [h.issuable, if_pos rfl]
  · rw [h.issuable, if_neg hk]

/-- An issued match that is neither waiting nor struck runs what its record decodes to. -/
theorem fireMatch_decodes {s : State} {p site : Nat} {m : Match} {i : Instr} (hfresh : m.again = 0)
    (hstruck : recStruck s p site m.plane m.node = false) (hdec : decode (recAt s p site m.plane m.node) = .ok i) :
    fireMatch s p site m = exec i (beginIssue s p site m) ∧ (beginIssue s p site m).cur.word = recAt s p site m.plane m.node := by
  have hword : (beginIssue s p site m).cur.word = recAt s p site m.plane m.node := by
    simp only [beginIssue, noteFired, hfresh]
    split
    · split <;> rfl
    · rfl
  refine ⟨?_, hword⟩
  simp [fireMatch, hfresh, hstruck, hword, hdec]

theorem Placed.withSched {s : State} {site : Nat} {st : Tab Rec96} {w : Rec96} (h : Placed s site st w) (rest : List Move) :
    Placed { s with sched := rest } site st w := ⟨h.nib, h.cycle, h.ctxs, h.colours, h.transit, h.limiter⟩

/-- A step whose move is the issue of a placed record runs it, where the record's store is left as it is by the issue. -/
theorem Placed.step {s : State} {site : Nat} {st : Tab Rec96} {w : Rec96} {i : Instr} (h : Placed s site st w)
    (hsched : s.sched = [.issue 0 site]) (hdec : decode w = .ok i)
    (hstore : ∀ n : Nib, n ≠ {} → n.store = st → n.storeBad = [] →
      recAt (setNib { s with sched := [] } 0 site n) 0 site 0 0 = w ∧ recStruck (setNib { s with sched := [] } 0 site n) 0 site 0 0 = false) :
    ∃ t : State, Machine.step s = exec i t ∧ t.cur.word = w := by
  obtain ⟨n, hne, hst, hbad, hpick⟩ := (h.withSched []).pickIssue
  obtain ⟨hrec, hstruck⟩ := hstore n hne hst hbad
  have ⟨hfire, hword⟩ := fireMatch_decodes (m := placedMatch w) rfl hstruck (hrec.symm ▸ hdec)
  exact ⟨_, by simp only [Machine.step, hsched, runMove, issueSite, hpick, hfire], hword.trans hrec⟩

theorem step_placeRecord {w : Rec96} {i : Instr} (hdec : decode w = .ok i) :
    ∃ t : State, step (placeRecord State.reset w) = exec i t ∧ t.cur.word = w := by
  have hread : ∀ k, tgetD (tsetD ([] : Tab Rec96) k w 0#96) k 0#96 = w := fun k => tgetD_tsetD _ _ _ _ rfl
  cases hsite : scribeOnly (Machine.opOf w)
  case false =>
    have hplaced : Placed (placeRecord State.reset w) 0 (tsetD [] 0 w 0) w := by
      simp only [placeRecord, hsite]
      exact ⟨nibAt_setNib _ 0 0 (fun h => nomatch congrArg Nib.ready h), rfl, rfl, rfl, rfl, rfl⟩
    refine hplaced.step (by simp [placeRecord, hsite]) hdec fun n hne hst hbad => ?_
    simp [recAt, recStruck, nibAt_setNib _ 0 0 hne, hst, hbad, hread]
  case true =>
    have hplaced : Placed (placeRecord State.reset w) 240 [] w := by
      simp only [placeRecord, hsite]
      exact ⟨nibAt_setNib _ 0 240 (fun h => nomatch congrArg Nib.ready h), rfl, rfl, rfl, rfl, rfl⟩
    refine hplaced.step (by simp [placeRecord, hsite]) hdec fun n hne hst hbad => ?_
    have hscribe : scribeAt (setNib { placeRecord State.reset w with sched := [] } 0 240 n) 0 =
        { blocks := tsetD [] (blockKey 0 0 1) w 0, cur := some { plane := 0, index := 0, header := 0 } } := by
      simp [placeRecord, hsite, setScribe, setNib, scribeAt, State.reset, tgetD, tget?, tsetD, tput]
    simp [recAt, recStruck, hscribe, hread]

theorem placedRecordsRunFirst : PlacedRecordsRunFirst := by
  intro w i hdec
  rw [State.withFetchWord, Nat.mod_eq_of_lt w.isLt, BitVec.ofNat_toNat, BitVec.setWidth_eq]
  exact step_placeRecord hdec

/-- Settles O7: a record's bytes, and the record that is placed. -/
theorem recordsAreStoredAndPlaced : Obligations.RecordsAreStoredAndPlaced := ⟨recordsAreTwelveBytes, placedRecordsRunFirst⟩

end Sys2Proof.Proofs
end

section
/-!
PROOF. Worked words (08 R168; 09; 11; 12), the state right after die reset (26 R408), and what a step does (02 R45, log 8).
-/
namespace Sys2Proof.Proofs
open Sys2Proof.Machine Sys2Proof.Safety Sys2Proof.Claims

/-- Settles O5: each word is the word of the record that it is worked out as, and so decodes to it. -/
theorem workedWordsDecode : Obligations.WorkedWordsDecode := by
  refine ⟨?_, ?_, ?_, ?_, ?_, ?_⟩ <;> exact decode_of_encode rfl rfl

/-! ## Reset -/

/-- The links that the reset state lists, and the default of every other. -/
theorem linkAt_reset (l : Nat) : linkAt State.reset l = if l ∈ [0, 1, 2, 27] then { state := 1, inc := 1 } else {} := by
  simp only [linkAt, State.reset, tgetD, tget?, List.mem_cons, List.not_mem_nil, or_false]
  split_ifs <;> simp_all

theorem wellMode_reset (p k : Nat) : wellMode (wellAt State.reset p k) = 0 := by
  simp [wellMode, wellAt, State.reset, tgetD, tget?, bits]

/-- Settles O3: the reset state's tables list nothing but four links. -/
theorem resetIsAsTheSpecSays : Obligations.ResetIsAsTheSpecSays := by
  refine ⟨⟨rfl, rfl, rfl, rfl, fun p => ⟨rfl, rfl, rfl, rfl, fun k => ⟨rfl, wellMode_reset p k⟩⟩, fun l => ?_, fun _ => rfl, fun _ _ => rfl,
    fun _ => rfl, fun _ _ => rfl⟩, rfl, rfl⟩
  rw [linkAt_reset]
  split <;> exact ⟨rfl, rfl⟩

/-! ## Steps -/

theorem step_of_sched {s : State} {m : Move} {rest : List Move} (h : s.sched = m :: rest) :
    step s = runMove m { s with sched := rest } := by simp only [step, h]

/-- The match that is issued is the current one, with its record. -/
theorem beginIssue_cur (s : State) (p site : Nat) (m : Match) :
    (beginIssue s p site m).cur =
      { p := p, site := site, plane := m.plane, node := m.node, tag := m.tag, ops := m.ops, scales := m.scales, again := m.again
        late := m.late, word := if m.again = 1 then m.word else recAt s p site m.plane m.node } := by
  simp only [beginIssue, noteFired]
  split
  · split <;> rfl
  · rfl

/-- A match that is issued, and no generator's: it runs what its record decodes to, and a record that does not decode faults. -/
theorem fireMatch_word {s : State} {p site : Nat} {m : Match} (hgen : m.again ≠ 2)
    (hstruck : m.again = 0 → recStruck s p site m.plane m.node = false) :
    (∀ i, decode (beginIssue s p site m).cur.word = .ok i → fireMatch s p site m = exec i (beginIssue s p site m)) ∧
    (∀ e, decode (beginIssue s p site m).cur.word = .error e →
      fireMatch s p site m = .next (faultCur (beginIssue s p site m) (beginIssue s p site m).cur cILLEGAL 0)) := by
  have hclean : ¬ (m.again = 0 ∧ recStruck s p site m.plane m.node = true) := fun h => by simp [hstruck h.1] at h
  refine ⟨fun i hdec => ?_, fun e hdec => ?_⟩ <;> simp only [fireMatch, if_neg hgen, if_neg hclean, hdec]

/-- Settles O4: a step runs the first move of the list, and each kind of move is what `runMove` says of it. -/
theorem stepsRunTheNextMove : Obligations.StepsRunTheNextMove := by
  intro s
  refine ⟨fun h => ?_, fun i sel rest h henc hallow => ?_, fun p site rest h => ?_, fun rest => ?_⟩
  · simp only [step, h]
  · rw [step_of_sched h]
    have hrun : ¬ ((encode i).isSome = true ∨ (!eventAllowed { s with sched := rest } i) = true) := by
      have hallow' : eventAllowed { s with sched := rest } i = true := hallow
      simp [henc, hallow']
    refine ⟨fun hnot => ?_, fun hcan => ?_⟩
    · simp only [runMove, runEvent, if_neg hrun, hnot]
    · simp only [runMove, runEvent, if_neg hrun]
  · rw [step_of_sched h]
    refine ⟨fun hnone => by simp only [runMove, issueSite, hnone], fun s1 m hpick hgen hstruck => ?_⟩
    obtain ⟨hok, herror⟩ := fireMatch_word hgen hstruck
    simp only [runMove, issueSite, hpick]
    have hword : (beginIssue s1 p site m).cur.word = if m.again = 1 then m.word else recAt s1 p site m.plane m.node := by
      rw [beginIssue_cur]
    exact ⟨fun i hdec => ⟨hok i (hword ▸ hdec), beginIssue_cur s1 p site m⟩, fun e hdec => herror e (hword ▸ hdec)⟩
  · refine ⟨fun p h => ?_, fun h => ?_, fun h => ?_, fun h => ?_, fun die hf h => ?_⟩ <;> rw [step_of_sched h] <;> rfl

end Sys2Proof.Proofs
end

section
/-!
PROOF. Which fields a record of classes 0 to 3 admits (09 R183, R193; 10 R211, R222): the model's checks as the conditions that the claims
name.
-/
namespace Sys2Proof.Proofs
open Sys2Proof.Machine Sys2Proof.Safety Sys2Proof.Claims

theorem badInt_eq_false {sat : Bool} {r : RecN} : badInt sat r = false ↔ IntFields sat r := by
  cases sat <;> simp [badInt, isIntTy, IntFields, BitVec.toNat_eq] <;> omega

theorem badRnd_eq_false {r : RecN} : badRnd r = false ↔ FltFields 6 r := by
  simp only [badRnd, isFloatTy, FltFields, Bool.or_eq_false_iff, Bool.not_eq_false', Bool.and_eq_true, decide_eq_true_eq,
    decide_eq_false_iff_not, bne_eq_false_iff_eq, and_assoc, Nat.lt_succ_iff, Nat.not_lt]

theorem badOpx_eq_false {k : Nat} {r : RecN} : badOpx k r = false ↔ FltFields k r := by
  simp only [badOpx, isFloatTy, FltFields, Bool.or_eq_false_iff, Bool.not_eq_false', Bool.and_eq_true, decide_eq_true_eq,
    decide_eq_false_iff_not, bne_eq_false_iff_eq, and_assoc, Nat.not_le]

theorem bad3_eq_false {opxOk rndOk fmtOk : Bool} {r : RecN} : bad3 opxOk rndOk fmtOk r = false ↔ fmtOk = true ∧ LaneFields opxOk rndOk r := by
  cases rndOk <;> cases opxOk <;> simp [bad3, LaneFields] <;> tauto

theorem badSpecial_eq_false {r : RecN} : badSpecial r = false ↔ r.fmt = 10 ∧ r.hi = 0 ∧ r.cf = 0 := by
  simp [badSpecial, and_assoc]

/-! ## No integer or float type is a block type -/

theorem isBlockTy_of_le {f : BitVec 4} (h : f.toNat ≤ 10) : isBlockTy f = false := by
  simp [isBlockTy]
  omega

theorem isBlockTy_of_float {f : BitVec 4} (h : isFloatTy f = true) : isBlockTy f = false := by
  simp [isFloatTy] at h
  exact isBlockTy_of_le h.2

end Sys2Proof.Proofs
end

section
/-!
PROOF. What a firing sends (02 R31, R50, R51; 08 R166, R167; 16 R332): nulls, values under EMIT, and what a grant withholds.
-/
namespace Sys2Proof.Proofs
open Sys2Proof.Machine Sys2Proof.Safety Sys2Proof.Claims

/-! ## Nulls and fields -/

/-- What a record does before its operation is asked for, where `bad` says exactly that the fields are not `ok`, and the record's type is
no block type. -/
theorem fire_before_op {i : Instr} {s : State} {r : RecN} {base : List Nat} {bad : Bool} {op : Cur → Res} {ok : Prop}
    (hexec : exec i s = fire s (formN r) r.fmt base bad false op) (hbad : bad = false ↔ ok) (hty : ok → r.fmt.toNat ≤ 10) :
    (hasPorts s.cur (portSet base r.ctl) = false → exec i s = .refused .noMatch) ∧
    (hasPorts s.cur (portSet base r.ctl) = true → ¬ ok → exec i s = .next (faultCur s s.cur cILLEGAL 0)) ∧
    (hasPorts s.cur (portSet base r.ctl) = true → ok → badCtl base r.ctl = false → anyBlock s.cur (portSet base r.ctl) = false →
      (anyNull s.cur (portSet base r.ctl) = true → r.ctl.nullpass = false → exec i s = .next s) ∧
      (anyNull s.cur (portSet base r.ctl) = true → r.ctl.nullpass = true → exec i s = .next (emitNulls s s.cur (formN r) r.fmt)) ∧
      (anyNull s.cur (portSet base r.ctl) = false → predFalse r.ctl s.cur = true →
        exec i s = .next (emitNulls s s.cur (formN r) r.fmt))) := by
  rw [hexec]
  refine ⟨fun hports => fireWith_noMatch (f := formN r) hports, fun hports hnot => ?_, fun hports hok hctl hblock => ?_⟩
  · obtain rfl : bad = true := by simpa [← hbad] using hnot
    exact fireWith_bad (f := formN r) hports
  · obtain rfl := hbad.mpr hok
    have hplain := isBlockTy_of_le (hty hok)
    refine ⟨fun hnull hpass => ?_, fun hnull hpass => ?_, fun hnull hpred => ?_⟩ <;> simp [fire, fireWith, formN, *]

theorem nullsAndIllegalFields : NullsAndIllegalFields := by
  intro r s
  refine ⟨fire_before_op (by rw [exec_iadd, execIadd, intVal]) badInt_eq_false fun h => ?_,
    fire_before_op (by rw [exec_icmp, execIcmp]) ?_ fun h => ?_,
    fire_before_op (by rw [exec_fadd, execFadd, fltRnd]) badRnd_eq_false fun h => h.2.1,
    fire_before_op (by rw [exec_lsum, execLsum]) ?_ fun h => h.1⟩
  · have := h.1; omega
  · simp only [isIntTy, Bool.or_eq_false_iff, Bool.not_eq_false', decide_eq_true_eq, decide_eq_false_iff_not, Nat.not_lt,
      bne_eq_false_iff_eq, and_assoc, Nat.lt_succ_iff]
  · have := h.1; omega
  · rw [bad3_eq_false]; simp [isIntTy]

/-! ## Tokens (02 R33) -/

theorem sendTok_of_discard {s : State} {p src : Nat} {t : Token} (h : t.site = 255) : sendTok s p src t = s := by
  simp [sendTok, h]

theorem sendTok_of_site {s : State} {p src : Nat} {t : Token} (h : t.site.toNat < 246 ∨ t.site = 254) :
    sendTok s p src t = { s with transit := s.transit ++ [{ p := p, src := src, queued := true, tok := t }] } := by
  have hkeep : t.site ≠ 255 := by rintro h'; simp [h'] at h
  have hsite : ¬ (246 ≤ t.site.toNat ∧ t.site.toNat ≤ 253) := by
    rcases h with h | h
    · omega
    · simp [h]
  simp only [sendTok, if_neg hkeep, if_neg hsite]

/-! ## Sends of a nib -/

/-- A destination that a token can be sent to, or that discards it. -/
abbrev DestOk (d : Dest) : Prop := (d.site.toNat < 246 ∨ d.site = 254) ∨ d.site = 255

/-- The token of a send on its way from the site of the match. -/
def flightOf (c : Cur) (x : Send) : Flight := { p := c.p, src := c.site, queued := true, tok := tokenOf c.site c.plane x }

theorem send_of_nib {s : State} {c : Cur} {x : Send} (hnib : c.site < 240) (hdest : DestOk x.dest) :
    send s c x = { s with transit := s.transit ++ if x.dest.site = 255 then [] else [flightOf c x] } := by
  have hsite : c.site ≠ 240 := by omega
  simp only [send, if_neg hsite]
  by_cases hdiscard : x.dest.site = 255
  · rw [sendTok_of_discard (by simp [tokenOf, hdiscard])]
    simp [hdiscard]
  · have hgoes : (tokenOf c.site c.plane x).site.toNat < 246 := by
      rcases hdest with (h | h) | h
      · have : x.dest.site ≠ 254 := by rintro h'; simp [h'] at h
        simp only [tokenOf, if_neg this]
        exact h
      · simp [tokenOf, h]; omega
      · exact absurd h hdiscard
    rw [sendTok_of_site (.inl hgoes), if_neg hdiscard, flightOf]

/-- The tokens that a nib's sends queue, in order; those for site 255 are discarded. -/
theorem sends_of_nib {c : Cur} (hnib : c.site < 240) {xs : List Send} (hdest : ∀ x ∈ xs, DestOk x.dest) (s : State) :
    sends s c xs = { s with transit := s.transit ++ xs.flatMap (fun x => if x.dest.site = 255 then [] else [flightOf c x]) } := by
  induction xs generalizing s with
  | nil => simp [sends]
  | cons x xs ih =>
    have hfirst := send_of_nib (s := s) hnib (hdest x List.mem_cons_self)
    have hrest := ih (fun y hy => hdest y (List.mem_cons_of_mem _ hy)) (send s c x)
    simp only [sends, List.foldl_cons] at hrest ⊢
    rw [hrest, hfirst]
    simp only [List.flatMap_cons, List.append_assoc]

/-! ## Results under EMIT (08 R166) -/

/-- The sends of one destination that nothing is voided at: a value under its code, a null to a code that takes one. -/
theorem destSends_some (d : Dest) (code : BitVec 2) (poison cond : Bool) (nul v : Val) :
    destSends d code poison cond false nul (some v) =
      if (if v.null then code = 0 ∨ code = 3 else code = 0 ∨ (code = 1 ∧ cond = true) ∨ (code = 2 ∧ cond = false)) then
        [valSend d (poison && !v.null) v] else [] := by
  cases hnull : v.null <;> simp [destSends, hnull, takesNull, emits, or_assoc]

/-- No token of a list is too wide when its lanes fit the grant that the copy shows. -/
theorem tooWide_eq_false {s : State} {c : Cur} {x : Send}
    (h : ∀ g, grantCopy s c.p c.site (partOf s (matchCtx s c.p c.plane c.tag)) (colourOf x.tag) = some g → x.lanes.length ≤ g) :
    tooWide s c x = false := by
  simp only [tooWide]
  split
  · next g hg => simpa using h g hg
  · rfl

theorem curFlags_zero (s : State) (c : Cur) : curFlags s c 0 = s := by
  simp [curFlags, orFlags]

theorem resultsAreSentUnderEmit : ResultsAreSentUnderEmit := by
  intro s f ty v cond c ok goes flight hnib hok0 hok1 hgrant
  have hxs : resSends c f ty { v0 := some v, v1 := some v, cond := cond } =
      (if goes f.ctl.emit0 then [valSend f.d0 (curPoison c && !v.null) v] else []) ++
        (if goes f.ctl.emit1 then [valSend f.d1 (curPoison c && !v.null) v] else []) := by
    simp only [resSends, destSends_some, goes]
  have hwide : ∀ d, tooWide s c (valSend d (curPoison c && !v.null) v) = false := fun d => tooWide_eq_false hgrant
  have hnarrow : (resSends c f ty { v0 := some v, v1 := some v, cond := cond }).any (tooWide s c) = false := by
    rw [hxs]
    split <;> split <;> simp [hwide]
  have hdest : ∀ x ∈ resSends c f ty { v0 := some v, v1 := some v, cond := cond }, DestOk x.dest := by
    rw [hxs]
    intro x hx
    simp only [List.mem_append, List.mem_ite_nil_right, List.mem_singleton] at hx
    rcases hx with ⟨_, rfl⟩ | ⟨_, rfl⟩
    · exact hok0
    · exact hok1
  have hflight : ∀ (d : Dest) (code : BitVec 2), (if goes code then [valSend d (curPoison c && !v.null) v] else []).flatMap
      (fun x => if x.dest.site = 255 then [] else [flightOf c x]) = flight d code := by
    intro d code
    by_cases hgoes : goes code
    · by_cases hdiscard : d.site = 255
      · simp [flight, hdiscard, valSend]
      · simp [flight, hgoes, valSend, flightOf, tokenOf]
    · simp [flight, hgoes]
  simp only [emitRes, hnarrow, curFlags_zero, Bool.false_eq_true, if_false]
  rw [sends_of_nib hnib hdest, hxs, List.flatMap_append, hflight, hflight, List.append_assoc]

/-! ## Grants (16 R332) -/

/-- A copy shows the grant itself once every change is 64 cycles old: no lag exceeds 64. -/
theorem copyOf_settled {cycle : Nat} {lag : Nat → Nat} (hlag : ∀ t, lag t ≤ 64) {now : Option Nat} {hist : List (Nat × Option Nat)}
    (h : ∀ x ∈ hist, x.1 + 64 ≤ cycle) : copyOf cycle lag now hist = now := by
  cases hist with
  | nil => rfl
  | cons x rest =>
    have hx := h x List.mem_cons_self
    have hl := hlag x.1
    obtain ⟨t, old⟩ := x
    exact if_pos (by simp only at hx hl; omega)

theorem grantsBoundResults : GrantsBoundResults := by
  refine ⟨fun s f ty v g => ?_, fun s p site part c h => ?_⟩
  · intro c hcode hgrant hwide
    have hany : (resSends c f ty { v0 := some v, v1 := some v }).any (tooWide s c) = true := by
      refine List.any_eq_true.mpr ⟨valSend f.d0 (curPoison c && !v.null) v, ?_, ?_⟩
      · simp [resSends, destSends_some, hcode]
      · simp [tooWide, valSend, hgrant, hwide]
    simp only [emitRes, hany, if_true]
  · exact copyOf_settled (fun t => Nat.le_of_lt_succ (Nat.mod_lt _ (by decide))) h

/-- Settles O12: nulls and fields, what results send, and what a grant withholds. -/
theorem firingsSendUnderEmit : Obligations.FiringsSendUnderEmit :=
  ⟨nullsAndIllegalFields, resultsAreSentUnderEmit, grantsBoundResults⟩

end Sys2Proof.Proofs
end

section
/-!
PROOF. Tokens that are queued or discarded (02 R33), mailboxes (20 R393), and the reports of faults (20 R391).
-/
namespace Sys2Proof.Proofs
open Sys2Proof.Machine Sys2Proof.Safety Sys2Proof.Claims

theorem tokensAreQueuedOrDiscarded : TokensAreQueuedOrDiscarded := by
  intro s p src t
  refine ⟨sendTok_of_discard, fun hlo hhi => ?_, sendTok_of_site⟩
  have hkeep : t.site ≠ 255 := by rintro h; simp [h] at hhi
  exact ⟨_, by rw [sendTok, if_neg hkeep, if_pos ⟨hlo, hhi⟩], rfl, rfl, rfl, rfl, rfl, rfl⟩

/-! ## The place of an entry -/

/-- An entry of a mailbox stays before the one that arrives. -/
def staysBefore (s : State) (p : Nat) (e x : MbEntry) (i : Nat) : Prop :=
  x.born < e.born ∨ (claimsAt s p).contains i = true ∨ (!mbBefore e x) = true

/-- The place after the first `n` entries have been looked at. -/
def placeAmong (s : State) (p : Nat) (es : List MbEntry) (e : MbEntry) (n : Nat) : Nat :=
  (List.range n).foldl (fun n i => match es[i]? with
    | some x => if x.born < e.born ∨ (claimsAt s p).contains i ∨ !mbBefore e x then i + 1 else n
    | none => n) 0

theorem mbPlace_eq (s : State) (p : Nat) (es : List MbEntry) (e : MbEntry) : mbPlace s p es e = placeAmong s p es e es.length := rfl

theorem placeAmong_succ_stays {s : State} {p : Nat} {es : List MbEntry} {e x : MbEntry} {n : Nat} (hx : es[n]? = some x)
    (h : staysBefore s p e x n) : placeAmong s p es e (n + 1) = n + 1 := by
  simp only [placeAmong, List.range_succ, List.foldl_append, List.foldl_cons, List.foldl_nil, hx]
  exact if_pos h

theorem placeAmong_succ_not {s : State} {p : Nat} {es : List MbEntry} {e x : MbEntry} {n : Nat} (hx : es[n]? = some x)
    (h : ¬ staysBefore s p e x n) : placeAmong s p es e (n + 1) = placeAmong s p es e n := by
  simp only [placeAmong, List.range_succ, List.foldl_append, List.foldl_cons, List.foldl_nil, hx]
  exact if_neg h

/-- Where every entry stays before it, an entry comes last. -/
theorem mbPlace_eq_length {s : State} {p : Nat} {es : List MbEntry} {e : MbEntry} (h : ∀ x ∈ es, x.born < e.born) :
    mbPlace s p es e = es.length := by
  rw [mbPlace_eq]
  cases hlen : es.length with
  | zero => rfl
  | succ n =>
    have hn : n < es.length := by omega
    exact placeAmong_succ_stays (List.getElem?_eq_getElem hn) (.inl (h _ (List.getElem_mem hn)))

/-- No entry at or after the place stays before the one that arrives. -/
theorem not_staysBefore_of_place {s : State} {p : Nat} {es : List MbEntry} {e : MbEntry} {n : Nat} (hn : n ≤ es.length) :
    ∀ k, placeAmong s p es e n ≤ k → k < n → ∀ x, es[k]? = some x → ¬ staysBefore s p e x k := by
  induction n with
  | zero => intro k _ hk; omega
  | succ n ih =>
    intro k hplace hk x hx hstays
    obtain ⟨y, hy⟩ : ∃ y, es[n]? = some y := ⟨_, List.getElem?_eq_getElem (by omega)⟩
    by_cases hlast : staysBefore s p e y n
    · rw [placeAmong_succ_stays hy hlast] at hplace
      omega
    · rw [placeAmong_succ_not hy hlast] at hplace
      by_cases hkn : k = n
      · subst hkn
        obtain rfl : y = x := Option.some.inj (hy.symm.trans hx)
        exact hlast hstays
      · exact ih (by omega) k hplace (by omega) x hx hstays

/-! ## The mailbox after an entry -/

theorem boxAt_postAt_ne (s : State) {p q : Nat} (e : MbEntry) (h : q ≠ p) : boxAt (postAt s p e) q = boxAt s q :=
  tgetD_tsetD_ne _ _ _ h

/-- The entry as it is placed. -/
def placedEntry (s : State) (p : Nat) (e : MbEntry) : MbEntry := { e with born := s.cycle, outer := e.outer || e.panel != p }

/-- The entries with the one that arrives among them. -/
def withEntry (s : State) (p : Nat) (e : MbEntry) : List MbEntry :=
  let i := mbPlace s p (boxAt s p).entries (placedEntry s p e)
  (boxAt s p).entries.take i ++ placedEntry s p e :: (boxAt s p).entries.drop i

theorem length_withEntry (s : State) (p : Nat) (e : MbEntry) : (withEntry s p e).length = (boxAt s p).entries.length + 1 := by
  simp only [withEntry, List.length_append, List.length_take, List.length_cons, List.length_drop]
  omega

theorem boxAt_postAt (s : State) (p : Nat) (e : MbEntry) :
    boxAt (postAt s p e) p =
      { entries := (withEntry s p e).take 64
        lost := if (withEntry s p e).length ≤ 64 then (boxAt s p).lost else min ((boxAt s p).lost + 1) 0xFFFFFFFF } := by
  refine tgetD_tsetD_of_ne _ _ fun h => ?_
  have hlen := length_withEntry s p e
  have hempty : (withEntry s p e).take 64 = [] := congrArg Mailbox.entries h
  have := congrArg List.length hempty
  simp only [List.length_take, List.length_nil] at this
  omega

theorem mailboxesHoldSixtyFour : MailboxesHoldSixtyFour := by
  intro s p e es e' i
  have hlen := length_withEntry s p e
  have hlast : (∀ x ∈ es, x.born < s.cycle) → i = es.length := fun h => mbPlace_eq_length h
  have hfull : es.length = 64 → (boxAt (postAt s p e) p).entries = (es.take i ++ e' :: es.drop i).take 64 ∧
      (boxAt (postAt s p e) p).lost = min ((boxAt s p).lost + 1) 0xFFFFFFFF := by
    intro h
    have hover : ¬ (withEntry s p e).length ≤ 64 := by rw [hlen]; simp only [es] at h; omega
    rw [boxAt_postAt]
    exact ⟨rfl, if_neg hover⟩
  refine ⟨⟨_, rfl⟩, fun h => ?_, hfull, hlast, fun h h64 => ?_, fun hi k hk x hx => ?_, fun q hq => boxAt_postAt_ne s e hq⟩
  · have hfits : (withEntry s p e).length ≤ 64 := by rw [hlen]; simp only [es] at h; omega
    rw [boxAt_postAt]
    exact ⟨List.take_of_length_le hfits, if_pos hfits⟩
  · rw [(hfull h64).1, hlast h, List.take_length, List.take_append_of_le_length (Nat.le_of_eq h64.symm), ← h64, List.take_length]
  · have hk' : k < es.length := (List.getElem?_eq_some_iff.mp hx).1
    have hnot := not_staysBefore_of_place (Nat.le_refl es.length) k hk hk' x hx
    simp only [staysBefore, not_or, Nat.not_lt, Bool.not_eq_true, Bool.not_eq_false'] at hnot
    exact ⟨hnot.1, hnot.2.2⟩

/-! ## Faults -/

theorem faultCur_of_nib {s : State} {c : Cur} (h : c.site ≠ 240) (cause addr : Nat) :
    faultCur s c cause addr = post s { tag := c.tag, addr := addr, cause := cause, site := c.site, node := c.node, plane := c.plane
                                       panel := c.p, ctx := matchCtx s c.p c.plane c.tag, info := 0 } := by
  simp [faultCur, h]

theorem faultCur_of_block {s : State} {b : Block} (h : InBlock s b) (cause addr : Nat) :
    faultCur s s.cur cause addr = blockExc s s.cur.p cause (if cause = cILLEGAL then s.cur.node + 1 else 0) := by
  obtain ⟨hsite, hlate, hcur⟩ := h
  simp [faultCur, hsite, hlate, hcur]

theorem faultsAreReported : FaultsAreReported := by
  intro s cause addr
  refine ⟨fun h => faultCur_of_nib h cause addr, fun b hb => ⟨fun hnone => ?_, fun k hsome => ?_⟩⟩
  · rw [faultCur_of_block hb]
    simp [blockExc, hb.2.2, hnone]
  · rw [faultCur_of_block hb]
    simp [blockExc, hb.2.2, hsome]

/-- Settles O13: tokens, mailboxes and faults. -/
theorem tokensAndReports : Obligations.TokensAndReports :=
  ⟨tokensAreQueuedOrDiscarded, mailboxesHoldSixtyFour, faultsAreReported⟩

end Sys2Proof.Proofs
end

section
/-!
PROOF. The frame of the records of classes 0 to 3 (02 R33, R52, R53; 08 R167): what each shared operation of those classes leaves as it is,
and so what each record does.
-/
namespace Sys2Proof.Proofs
open Sys2Proof.Machine Sys2Proof.Safety Sys2Proof.Claims

/-! ## What a firing at one site may change -/

/-- Nothing but what a record of classes 0 to 3 at site `site` of panel `p` may change differs in `t`; requests to the colour point stay. -/
structure FiringKeeps (p site : Nat) (s t : State) : Prop where
  rest : t = { s with transit := t.transit, nibs := t.nibs, groups := t.groups, loose := t.loose, boxes := t.boxes, scribes := t.scribes
                      fresh := t.fresh }
  nibs : ∀ q k, siteKey q k ≠ siteKey p site → nibAt t q k = nibAt s q k
  boxes : ∀ q, q ≠ p → boxAt t q = boxAt s q
  scribes : t.scribes = s.scribes ∨ ∃ b, t.scribes = tput s.scribes p { scribeAt s p with cur := some b }
  tokens : ∃ l, t.transit = s.transit ++ l

theorem FiringKeeps.of_onlySends {p : Nat} {s t : State} (h : OnlySends p s t) (site : Nat) : FiringKeeps p site s t := by
  obtain ⟨hrest, htokens, hboxes, hscribes⟩ := h
  have hnibs : t.nibs = s.nibs := by rw [hrest]
  refine ⟨by rw [hrest], fun q k _ => ?_, hboxes, hscribes, htokens⟩
  rw [nibAt, nibAt, hnibs]

theorem FiringKeeps.refl (p site : Nat) (s : State) : FiringKeeps p site s s := .of_onlySends (.refl p s) site

theorem FiringKeeps.trans {p site : Nat} {s t u : State} (h : FiringKeeps p site s t) (k : FiringKeeps p site t u) :
    FiringKeeps p site s u := by
  obtain ⟨hrest, hnibs, hboxes, hscribes, l, htokens⟩ := h
  obtain ⟨krest, knibs, kboxes, kscribes, m, ktokens⟩ := k
  refine ⟨?_, fun q j hq => (knibs q j hq).trans (hnibs q j hq), fun q hq => (kboxes q hq).trans (hboxes q hq), ?_,
    l ++ m, by rw [ktokens, htokens, List.append_assoc]⟩
  · rw [krest, hrest]
  · rcases kscribes with kscribes | ⟨b, kscribes⟩
    · rw [kscribes]; exact hscribes
    · refine .inr ⟨b, ?_⟩
      rcases hscribes with hscribes | ⟨b', hscribes⟩
      · rw [kscribes]; simp only [scribeAt, hscribes]
      · rw [kscribes]; simp only [scribeAt, hscribes, tput_tput, tgetD, tget?_tput, Option.getD_some]

theorem setNib_keepsRest (s : State) (p site : Nat) (n : Nib) : FiringKeeps p site s (setNib s p site n) :=
  ⟨rfl, fun _ _ h => nibAt_setNib_ne s n h, fun _ _ => rfl, .inl rfl, [], by simp⟩

theorem fresh_keepsRest (p site : Nat) (s : State) (k : Nat) : FiringKeeps p site s { s with fresh := k } :=
  ⟨rfl, fun _ _ _ => rfl, fun _ _ => rfl, .inl rfl, [], by simp⟩

theorem faultCur_keepsRest (s : State) (c : Cur) (k a : Nat) : FiringKeeps c.p c.site s (faultCur s c k a) :=
  .of_onlySends (faultCur_onlySends s c k a) _

theorem sendAll_keepsRest (s : State) (c : Cur) (xs : List Send) : FiringKeeps c.p c.site s (sendAll s c xs) :=
  .of_onlySends (sendAll_onlySends s c xs) _

theorem sendNulls_keepsRest (s : State) (c : Cur) (f : Form) (v w : Val) : FiringKeeps c.p c.site s (sendNulls s c f v w) :=
  .of_onlySends (sendNulls_onlySends s c f v w) _

theorem moveNulls_keepsRest (s : State) (c : Cur) (f : Form) (t : Token) : FiringKeeps c.p c.site s (moveNulls s c f t) :=
  sendNulls_keepsRest _ _ _ _ _

theorem emitRes_keepsRest (s : State) (c : Cur) (f : Form) (ty : BitVec 4) (r : Res) : FiringKeeps c.p c.site s (emitRes s c f ty r) :=
  .of_onlySends (emitRes_onlySends s c f ty r) _

theorem onBlock_keepsRest (s : State) (p site : Nat) (f : Block → Block) : FiringKeeps p site s (onBlock s p f) := by
  simp only [onBlock]
  split
  · exact .of_onlySends (setBlock_onlySends p s _) _
  · exact .refl _ _ _

/-- A chain of changes that each keep the frame keeps it. -/
theorem foldl_keepsRest {α : Type} {p site : Nat} {f : State → α → State} (hf : ∀ s x, FiringKeeps p site s (f s x)) (l : List α) (s : State) :
    FiringKeeps p site s (l.foldl f s) := by
  induction l generalizing s with
  | nil => exact .refl _ _ _
  | cons x l ih => exact (hf s x).trans (ih _)

/-- What waits at a site and can move on moves within its nib. -/
theorem settle_keepsRest (s : State) (p site : Nat) : FiringKeeps p site s (settle s p site) := by
  simp only [settle, iter]
  refine FiringKeeps.trans (foldl_keepsRest (fun s _ => ?_) _ s) (setNib_keepsRest _ _ _ _)
  split
  · exact setNib_keepsRest _ _ _ _
  · exact .refl _ _ _

theorem delayRes_keepsRest (lat : Cur → Nat) (s : State) (c : Cur) (f : Form) (ty : BitVec 4) (r : Res) :
    FiringKeeps c.p c.site s (delayRes lat s c f ty r) := by
  simp only [delayRes]
  split
  · exact faultCur_keepsRest _ _ _ _
  · split
    · exact faultCur_keepsRest _ _ _ _
    · split
      · refine FiringKeeps.trans ?_ (.of_onlySends (sends_onlySends _ _ _) _)
        simp only [curFlags]
        split
        · exact .refl _ _ _
        · exact .of_onlySends (orFlags_onlySends _ _ _ _ _) _
      · exact setNib_keepsRest _ _ _ _

theorem startGen_keepsRest (s : State) (c : Cur) (f : Form) (level : Nat) (kind : GenKind) (arg : Token) :
    FiringKeeps c.p c.site s (startGen s c f level kind arg) :=
  (setNib_keepsRest _ _ _ _).trans (settle_keepsRest _ _ _)

/-! ## The shared firings -/

theorem fire_keepsRest {s t : State} {f : Form} {ty : BitVec 4} {base : List Nat} {bad blk : Bool} {op : Cur → Res}
    (h : fire s f ty base bad blk op = .next t) : FiringKeeps s.cur.p s.cur.site s t := .of_onlySends (fire_onlySends h) _

theorem moveFire_keepsRest {s t : State} {r : RecN} {base : List Nat} {bad : Bool} {op : Cur → Res}
    (h : moveFire s r base bad op = .next t) : FiringKeeps s.cur.p s.cur.site s t := .of_onlySends (moveFire_onlySends h) _

theorem fireLate_keepsRest {s t : State} {f : Form} {ty : BitVec 4} {base : List Nat} {bad blk : Bool} {op : Cur → Res} {lat : Cur → Nat}
    (h : fireLate s f ty base bad blk op lat = .next t) : FiringKeeps s.cur.p s.cur.site s t := by
  rcases fireLate_cases h with rfl | rfl | ⟨v, rfl⟩
  · exact faultCur_keepsRest _ _ _ _
  · exact .refl _ _ _
  · exact delayRes_keepsRest _ _ _ _ _ _

/-- A firing with nulls of its own ends as a firing does. -/
theorem fireNul_keepsRest {s t : State} {f : Form} {ty : BitVec 4} {base : List Nat} {bad blk : Bool} {nuls : Cur → Val × Val}
    {op : Cur → Res} (h : fireNul s f ty base bad blk nuls op = .next t) : FiringKeeps s.cur.p s.cur.site s t := by
  simp only [fireNul] at h
  split at h
  · cases h
  · split at h
    · cases h; exact faultCur_keepsRest _ _ _ _
    · split at h
      · cases h
        split
        · exact sendNulls_keepsRest _ _ _ _ _
        · exact .refl _ _ _
      · split at h <;> cases h
        · exact sendNulls_keepsRest _ _ _ _ _
        · exact emitRes_keepsRest _ _ _ _ _

theorem exitFire_keepsRest {op : Nat} {bad : Bool} {r : RecN} {s t : State} (h : exitFire op bad r s = .next t) :
    FiringKeeps s.cur.p s.cur.site s t := by
  simp only [exitFire] at h
  split at h
  · cases h
  · split at h
    · cases h; exact faultCur_keepsRest _ _ _ _
    · split at h
      · cases h; exact faultCur_keepsRest _ _ _ _
      · split at h <;> cases h
        · exact .refl _ _ _
        · exact onBlock_keepsRest _ _ _ _

/-! ## Records with a firing of their own -/

/-- What an outcome keeps when it is a next state. -/
def OutcomeKeeps (p site : Nat) (s : State) (o : Outcome) : Prop := ∀ t, o = .next t → FiringKeeps p site s t

theorem OutcomeKeeps.refused (p site : Nat) (s : State) (r : Refusal) : OutcomeKeeps p site s (.refused r) := fun _ h => nomatch h

theorem OutcomeKeeps.next {p site : Nat} {s t : State} (h : FiringKeeps p site s t) : OutcomeKeeps p site s (.next t) := by
  rintro _ ⟨⟩; exact h

theorem OutcomeKeeps.ite {p site : Nat} {s : State} {c : Prop} [Decidable c] {o o' : Outcome} (h : OutcomeKeeps p site s o)
    (h' : OutcomeKeeps p site s o') : OutcomeKeeps p site s (if c then o else o') := by
  split
  · exact h
  · exact h'

/-- Either way of a choice between two states. -/
theorem FiringKeeps.ite {p site : Nat} {s t t' : State} {c : Prop} [Decidable c] (h : FiringKeeps p site s t)
    (h' : FiringKeeps p site s t') : FiringKeeps p site s (if c then t else t') := by
  split
  · exact h
  · exact h'

/-- The outcome that a record of wrong fields has. -/
theorem OutcomeKeeps.illegal (s : State) (k a : Nat) : OutcomeKeeps s.cur.p s.cur.site s (.next (faultCur s s.cur k a)) :=
  .next (faultCur_keepsRest _ _ _ _)

theorem execNop_keepsRest (r : RecN) (s : State) : OutcomeKeeps s.cur.p s.cur.site s (execNop r s) :=
  .ite (.illegal _ _ _) (.next (.refl _ _ _))

theorem execSink_keepsRest (r : RecN) (s : State) : OutcomeKeeps s.cur.p s.cur.site s (execSink r s) :=
  .ite (.refused _ _ _ _) (.ite (.illegal _ _ _) (.next (.refl _ _ _)))

theorem execJoin_keepsRest (r : RecN) (s : State) : OutcomeKeeps s.cur.p s.cur.site s (execJoin r s) :=
  .ite (.refused _ _ _ _) (.ite (.illegal _ _ _) (.ite (.next (.ite (sendNulls_keepsRest _ _ _ _ _) (.refl _ _ _)))
    (.ite (.next (sendNulls_keepsRest _ _ _ _ _)) (.next (emitRes_keepsRest _ _ _ _ _)))))

theorem execSteer_keepsRest (r : RecN) (s : State) : OutcomeKeeps s.cur.p s.cur.site s (execSteer r s) :=
  .ite (.refused _ _ _ _) (.ite (.illegal _ _ _) (.ite (.next (.ite (sendAll_keepsRest _ _ _) (.refl _ _ _)))
    (.ite (.next (.ite (moveNulls_keepsRest _ _ _ _) (.refl _ _ _)))
      (.ite (.next (moveNulls_keepsRest _ _ _ _)) (.next (emitRes_keepsRest _ _ _ _ _))))))

theorem execMerge_keepsRest (r : RecN) (s : State) : OutcomeKeeps s.cur.p s.cur.site s (execMerge r s) :=
  .ite (.refused _ _ _ _) (.ite (.illegal _ _ _) (.ite (.next (.ite (moveNulls_keepsRest _ _ _ _) (.refl _ _ _)))
    (.ite (.next (.ite (moveNulls_keepsRest _ _ _ _) (.refl _ _ _))) (.next (emitRes_keepsRest _ _ _ _ _)))))

theorem throttleFire_keepsRest (r : RecN) (s : State) (n : Nib) (i : Nat) (e : ThrEntry) :
    FiringKeeps s.cur.p s.cur.site s (throttleFire r s n i e) :=
  (setNib_keepsRest _ _ _ _).trans ((FiringKeeps.ite (.ite (moveNulls_keepsRest _ _ _ _) (.refl _ _ _))
    (emitRes_keepsRest _ _ _ _ _)).trans (settle_keepsRest _ _ _))

theorem execThrottleAdmit_keepsRest (r : RecN) (s : State) : OutcomeKeeps s.cur.p s.cur.site s (execThrottleAdmit r s) := by
  refine .ite (.refused _ _ _ _) (.ite (.next ((faultCur_keepsRest _ _ _ _).trans (settle_keepsRest _ _ _))) ?_)
  split
  · split
    · exact .next (throttleFire_keepsRest _ _ _ _ _)
    · exact .next (.refl _ _ _)
  · exact .next (setNib_keepsRest _ _ _ _)

theorem execRepeat_keepsRest (r : RecN) (s : State) : OutcomeKeeps s.cur.p s.cur.site s (execRepeat r s) := by
  refine .ite (.refused _ _ _ _) (.ite (.illegal _ _ _) (.next ?_))
  refine FiringKeeps.ite (FiringKeeps.trans ?_ ((setNib_keepsRest _ _ _ _).trans (settle_keepsRest _ _ _))) ?_ <;>
    exact .ite (.ite (moveNulls_keepsRest _ _ _ _) (.refl _ _ _))
      (.ite (moveNulls_keepsRest _ _ _ _) (emitRes_keepsRest _ _ _ _ _))

theorem rangeFire_keepsRest (r : RecN) (s : State) (c : Cur) : FiringKeeps c.p c.site s (rangeFire r s c) :=
  .ite (faultCur_keepsRest _ _ _ _) (.ite (emitRes_keepsRest _ _ _ _ _) (startGen_keepsRest _ _ _ _ _ _))

theorem execRange_keepsRest (r : RecN) (s : State) : OutcomeKeeps s.cur.p s.cur.site s (execRange r s) := by
  intro t h
  rcases fireWith_cases h with rfl | rfl | rfl | rfl
  · exact faultCur_keepsRest _ _ _ _
  · exact .of_onlySends (emitNulls_onlySends _ _ _ _) _
  · exact .refl _ _ _
  · exact rangeFire_keepsRest _ _ _

theorem execWrite_keepsRest (r : RecN) (s : State) : OutcomeKeeps s.cur.p s.cur.site s (execWrite r s) :=
  .ite (.refused _ _ _ _) (.ite (.illegal _ _ _) (.ite (.illegal _ _ _) (.next (onBlock_keepsRest _ _ _ _))))

theorem execBxpack_keepsRest (r : RecN) (s : State) : OutcomeKeeps s.cur.p s.cur.site s (execBxpack r s) := by
  intro t h
  simp only [execBxpack] at h
  exact (fresh_keepsRest _ _ s (s.fresh + 2)).trans (fireNul_keepsRest (s := { s with fresh := s.fresh + 2 }) h)

theorem execRankadmCandidate_keepsRest (r : RecN) (s : State) : OutcomeKeeps s.cur.p s.cur.site s (execRankadmCandidate r s) := by
  refine .ite (.refused _ _ _ _) (.ite (.illegal _ _ _) (.ite (.next ?_) ?_))
  · exact .ite ((setNib_keepsRest _ _ _ _).trans (sendAll_keepsRest _ _ _)) (setNib_keepsRest _ _ _ _)
  · split
    · exact .illegal _ _ _
    · refine .next ?_
      split
      · exact (setNib_keepsRest _ _ _ _).trans (sendAll_keepsRest _ _ _)
      · exact setNib_keepsRest _ _ _ _

/-! ## Every record of classes 0 to 3 -/

@[simp] theorem RecN.machineOpOf_bits (op : BitVec 8) (r : RecN) : Machine.opOf (r.bits op) = op.toNat :=
  congrArg BitVec.toNat (RecN.opOf_bits op r)
@[simp] theorem RecM.machineOpOf_bits (op : BitVec 8) (r : RecM) : Machine.opOf (r.bits op) = op.toNat :=
  congrArg BitVec.toNat (RecM.opOf_bits op r)
@[simp] theorem RecT.machineOpOf_bits (op : BitVec 8) (r : RecT) : Machine.opOf (r.bits op) = op.toNat :=
  congrArg BitVec.toNat (RecT.opOf_bits op r)
@[simp] theorem RecS.machineOpOf_bits (op : BitVec 8) (r : RecS) : Machine.opOf (r.bits op) = op.toNat :=
  congrArg BitVec.toNat (RecS.opOf_bits op r)

/-- A record of classes 0 to 3 other than PACKC keeps the rest. -/
theorem exec_keepsRest {i : Instr} {w : Rec96} {s t : State} (henc : encode i = some w) (hlow : Machine.opOf w < 0x80)
    (hpack : Machine.opOf w ≠ 0x6E) (h : exec i s = .next t) : FiringKeeps s.cur.p s.cur.site s t := by
  cases i <;> cases henc
  case iadd r | isub r | imul r | imulh r | imad r | imin r | imax r | iabs r | ineg r | iclamp r =>
    simp only [exec_iadd, execIadd, exec_isub, execIsub, exec_imul, execImul, exec_imulh, execImulh, exec_imad, execImad,
      exec_imin, execImin, exec_imax, execImax, exec_iabs, execIabs, exec_ineg, execIneg, exec_iclamp, execIclamp, intVal] at h
    exact fire_keepsRest h
  case and r | or r | xor r | andn r | shl r | shr r | sra r | rot r | clz r | popc r | brev r =>
    simp only [exec_and, execAnd, exec_or, execOr, exec_xor, execXor, exec_andn, execAndn, exec_shl, execShl, exec_shr, execShr,
      exec_sra, execSra, exec_rot, execRot, exec_clz, execClz, exec_popc, execPopc, exec_brev, execBrev, intPat] at h
    exact fire_keepsRest h
  case bfx r | bfi r | icmp r | sel r | addr r | iaddw r | icvt r | const r | tagget r | read r | fcmp r | fclass r | fscale r |
    fsgn r | cvt r | ftoi r | itof r | bxunpk r | lsum r | lscan r | iota r | lmask r | cmpfwd r =>
    simp only [exec_bfx, execBfx, exec_bfi, execBfi, exec_icmp, execIcmp, exec_sel, execSel, exec_addr, execAddr, exec_iaddw,
      execIaddw, exec_icvt, execIcvt, exec_const, execConst, exec_tagget, execTagget, exec_read, execRead, exec_fcmp, execFcmp,
      exec_fclass, execFclass, exec_fscale, execFscale, exec_fsgn, execFsgn, exec_cvt, execCvt, exec_ftoi, execFtoi, exec_itof,
      execItof, exec_bxunpk, execBxunpk, exec_lsum, execLsum, exec_lscan, execLscan, exec_iota, execIota, exec_lmask, execLmask,
      exec_cmpfwd, execCmpfwd] at h
    exact fire_keepsRest h
  case fadd r | fsub r | fmul r | ffma r | fround r =>
    simp only [exec_fadd, execFadd, exec_fsub, execFsub, exec_fmul, execFmul, exec_ffma, execFfma, exec_fround, execFround,
      fltRnd] at h
    exact fire_keepsRest h
  case fmin r | fmax r =>
    simp only [exec_fmin, execFmin, exec_fmax, execFmax, fltMinmax] at h
    exact fire_keepsRest h
  case lmax r | lmin r =>
    simp only [exec_lmax, execLmax, exec_lmin, execLmin, laneExtreme] at h
    exact fire_keepsRest h
  case copy r | gate r | enter r | wave r | leave r | tagset r | void r | runend r =>
    simp only [exec_copy, execCopy, exec_gate, execGate, exec_enter, execEnter, exec_wave, execWave, exec_leave, execLeave,
      exec_tagset, execTagset, exec_void, execVoid, exec_runend, execRunend] at h
    exact moveFire_keepsRest h
  case idiv r | irem r =>
    simp only [exec_idiv, execIdiv, exec_irem, execIrem, intDiv] at h
    exact fireLate_keepsRest h
  case fdiv r | fsqrt r | frcp r | frsq r | frcpa r | frsqa r | fexp2 r | flog2 r | fsinpi r | fcospi r | ftanh r =>
    simp only [exec_fdiv, execFdiv, exec_fsqrt, execFsqrt, exec_frcp, execFrcp, exec_frsq, execFrsq, exec_frcpa, execFrcpa,
      exec_frsqa, execFrsqa, exec_fexp2, execFexp2, exec_flog2, execFlog2, exec_fsinpi, execFsinpi, exec_fcospi, execFcospi,
      exec_ftanh, execFtanh, fltSpecial] at h
    exact fireLate_keepsRest h
  case dot r =>
    simp only [exec_dot, execDot] at h
    exact fireLate_keepsRest h
  case shuf r | bcast r | unpackc r =>
    simp only [exec_shuf, execShuf, exec_bcast, execBcast, exec_unpackc, execUnpackc] at h
    exact fireNul_keepsRest h
  case branch r | bcall r | bret r =>
    simp only [exec_branch, execBranch, exec_bcall, execBcall, exec_bret, execBret] at h
    exact exitFire_keepsRest h
  case nop r => exact execNop_keepsRest r s t h
  case sink r => exact execSink_keepsRest r s t h
  case join r => exact execJoin_keepsRest r s t h
  case steer r => exact execSteer_keepsRest r s t h
  case merge r => exact execMerge_keepsRest r s t h
  case throttleAdmit r => exact execThrottleAdmit_keepsRest r s t h
  case range r => exact execRange_keepsRest r s t h
  case write r => exact execWrite_keepsRest r s t h
  case bxpack r => exact execBxpack_keepsRest r s t h
  case rankadmCandidate r => exact execRankadmCandidate_keepsRest r s t h
  case packc r => exact absurd (RecN.machineOpOf_bits _ r) hpack
  -- REPEAT, whose name is a word of Lean's tactics and can name no case; the others are of later classes.
  next r => exact execRepeat_keepsRest r s t h
  all_goals
    simp only [RecN.machineOpOf_bits, RecM.machineOpOf_bits, RecT.machineOpOf_bits, RecS.machineOpOf_bits] at hlow
    exact absurd hlow (by decide)


/-- PACKC asks the colour point, there or over the die link (10 R233, 16 R331). -/
theorem askPoint_packc (s : State) (r : RecN) (c : Cur) :
    askPoint s 0 0 (.packc r) c =
      { s with points := (askPoint s 0 0 (.packc r) c).points, reqs := (askPoint s 0 0 (.packc r) c).reqs } := by
  simp only [askPoint]
  split <;> rfl

theorem execPackc_keepsRest {r : RecN} {s t : State} (h : execPackc r s = .next t) :
    ∃ points reqs, FiringKeeps s.cur.p s.cur.site { s with points := points, reqs := reqs } t := by
  have hnulls : ∀ v w, FiringKeeps s.cur.p s.cur.site s (sendNulls s s.cur (formN r) v w) := fun v w => sendNulls_keepsRest _ _ _ _ _
  simp only [execPackc] at h
  split at h
  · cases h
  split at h
  · cases h; exact ⟨s.points, s.reqs, faultCur_keepsRest _ _ _ _⟩
  split at h
  · cases h
    refine ⟨s.points, s.reqs, ?_⟩
    split
    · exact hnulls _ _
    · exact .refl _ _ _
  split at h <;> cases h
  · exact ⟨s.points, s.reqs, hnulls _ _⟩
  · simp only [packFire]
    split
    · exact ⟨s.points, s.reqs, faultCur_keepsRest _ _ _ _⟩
    split
    · exact ⟨s.points, s.reqs, faultCur_keepsRest _ _ _ _⟩
    split
    · exact ⟨s.points, s.reqs, emitRes_keepsRest _ _ _ _ _⟩
    · refine ⟨(askPoint s 0 0 (.packc r) s.cur).points, (askPoint s 0 0 (.packc r) s.cur).reqs, ?_⟩
      rw [← askPoint_packc]
      exact .of_onlySends (sends_onlySends _ _ _) _

/-- 02 R33, R52, R53; 08 R167: the frame of classes 0 to 3. -/
theorem firingFrame : FiringFrame := by
  intro i w s t henc hlow h
  by_cases hpack : Machine.opOf w = 0x6E
  · obtain ⟨r, rfl⟩ : ∃ r, i = .packc r := by
      cases i <;> cases henc
      case packc r => exact ⟨r, rfl⟩
      all_goals
        simp only [RecN.machineOpOf_bits, RecM.machineOpOf_bits, RecT.machineOpOf_bits, RecS.machineOpOf_bits] at hpack
        exact absurd hpack (by decide)
    obtain ⟨points, reqs, hrest, hnibs, hboxes, hscribes, htokens⟩ := execPackc_keepsRest h
    exact ⟨by rw [hrest], fun hne => absurd hpack hne, hnibs, hboxes, hscribes, htokens⟩
  · obtain ⟨hrest, hnibs, hboxes, hscribes, htokens⟩ := exec_keepsRest henc hlow hpack h
    exact ⟨by rw [hrest], fun _ => ⟨by rw [hrest], by rw [hrest]⟩, hnibs, hboxes, hscribes, htokens⟩

/-! ## The memory records (05 R107; 11 R235, R239) -/

/-- What a memory record's match may change: the order buffer of its site, its panel's mailbox, the block of its scribe, the counter of
identifiers. -/
structure MemKeeps (p osite : Nat) (s t : State) : Prop where
  rest : t = { s with obufs := t.obufs, boxes := t.boxes, scribes := t.scribes, fresh := t.fresh }
  obufs : ∀ q k, siteKey q k ≠ siteKey p osite → obufAt t q k = obufAt s q k
  boxes : ∀ q, q ≠ p → boxAt t q = boxAt s q
  scribes : t.scribes = s.scribes ∨ ∃ b, t.scribes = tput s.scribes p { scribeAt s p with cur := some b }

theorem MemKeeps.refl (p osite : Nat) (s : State) : MemKeeps p osite s s := ⟨rfl, fun _ _ _ => rfl, fun _ _ => rfl, .inl rfl⟩

theorem MemKeeps.trans {p osite : Nat} {s t u : State} (h : MemKeeps p osite s t) (k : MemKeeps p osite t u) : MemKeeps p osite s u := by
  obtain ⟨hrest, hobufs, hboxes, hscribes⟩ := h
  obtain ⟨krest, kobufs, kboxes, kscribes⟩ := k
  refine ⟨by rw [krest, hrest], fun q j hq => (kobufs q j hq).trans (hobufs q j hq), fun q hq => (kboxes q hq).trans (hboxes q hq), ?_⟩
  rcases kscribes with kscribes | ⟨b, kscribes⟩
  · rw [kscribes]; exact hscribes
  · refine .inr ⟨b, ?_⟩
    rcases hscribes with hscribes | ⟨b', hscribes⟩
    · rw [kscribes]; simp only [scribeAt, hscribes]
    · rw [kscribes]; simp only [scribeAt, hscribes, tput_tput, tgetD, tget?_tput, Option.getD_some]

theorem onBlock_memKeeps (s : State) (p osite : Nat) (f : Block → Block) : MemKeeps p osite s (onBlock s p f) := by
  simp only [onBlock]
  split
  · obtain ⟨-, -, hboxes, hscribes⟩ := setBlock_onlySends p s (f ‹_›)
    exact ⟨rfl, fun _ _ _ => rfl, hboxes, hscribes⟩
  · exact .refl _ _ _

theorem toSite_memKeeps (s : State) (a : Access) : MemKeeps a.p (ositeOf a) s (toSite s a) :=
  ⟨rfl, (toSite_frame s a).2, fun _ _ => rfl, .inl rfl⟩

theorem fresh_memKeeps (p osite : Nat) (s : State) (k : Nat) : MemKeeps p osite s { s with fresh := k } :=
  ⟨rfl, fun _ _ _ => rfl, fun _ _ => rfl, .inl rfl⟩

theorem faultCur_memKeeps (s : State) (c : Cur) (osite k a : Nat) : MemKeeps c.p osite s (faultCur s c k a) := by
  obtain ⟨-, -, hboxes, hscribes⟩ := faultCur_onlySends s c k a
  have hrest : faultCur s c k a = { s with boxes := (faultCur s c k a).boxes, scribes := (faultCur s c k a).scribes } := by
    simp only [faultCur, blockExc]
    split
    · split
      · rfl
      · split <;> rfl
    · rfl
  exact ⟨by rw [hrest], fun q j _ => by rw [hrest]; rfl, hboxes, hscribes⟩

/-- 05 R107; 11 R239: what a match of a memory record changes. -/
theorem memFire_memKeeps {op : Nat} {r : RecM} {s t : State} (h : memFire op r s = .next t) :
    MemKeeps s.cur.p r.osite.toNat s t := by
  rcases memFire_cases h with ⟨k, rfl⟩ | ⟨s1, hs1, ht⟩
  · exact faultCur_memKeeps _ _ _ _ _
  · have hfirst : MemKeeps s.cur.p r.osite.toNat s s1 := by
      rcases hs1 with rfl | ⟨f, rfl⟩
      · exact fresh_memKeeps _ _ _ _
      · exact (fresh_memKeeps _ _ _ (s.fresh + 1)).trans (onBlock_memKeeps _ _ _ _)
    refine hfirst.trans ?_
    rcases ht with rfl | ⟨f, rfl⟩
    · exact toSite_memKeeps s1 (accessOf s op r)
    · exact onBlock_memKeeps _ _ _ _

/-- Every record of class 4 fires as a memory record with its own fields. -/
theorem exec_memKeeps {i : Instr} {w : Rec96} {s t : State} (henc : encode i = some w) (hlo : 0x80 ≤ Machine.opOf w)
    (hhi : Machine.opOf w < 0xA0) (h : exec i s = .next t) : MemKeeps s.cur.p (RecM.ofBits w).osite.toNat s t := by
  cases i <;> cases henc
  case ld r | st r | ldx r | stx r | mnop r | fence r | order r =>
    simp only [exec_ld, execLd, exec_st, execSt, exec_ldx, execLdx, exec_stx, execStx, exec_mnop, execMnop, exec_fence,
      execFence, exec_order, execOrder] at h
    rw [RecM.ofBits_bits]
    exact memFire_memKeeps h
  case aadd r | amin r | amax r | aand r | aor r | axor r | axchg r | acas r =>
    simp only [exec_aadd, execAadd, exec_amin, execAmin, exec_amax, execAmax, exec_aand, execAand, exec_aor, execAor,
      exec_axor, execAxor, exec_axchg, execAxchg, exec_acas, execAcas] at h
    rw [RecM.ofBits_bits]
    exact memFire_memKeeps h
  case acc r | wcfg r | wfull r | wempty r | ldp r | promote r =>
    simp only [exec_acc, execAcc, exec_wcfg, execWcfg, exec_wfull, execWfull, exec_wempty, execWempty, exec_ldp, execLdp,
      exec_promote, execPromote] at h
    rw [RecM.ofBits_bits]
    exact memFire_memKeeps h
  all_goals
    simp only [RecN.machineOpOf_bits, RecT.machineOpOf_bits, RecS.machineOpOf_bits] at hlo hhi
    exact absurd (And.intro hlo hhi) (by decide)

/-- Settles O14: what each shared operation of the classes leaves unchanged, record by record. -/
theorem recordsKeepTheirFrame : Obligations.RecordsKeepTheirFrame := by
  refine ⟨firingFrame, fun i w s t henc hlo hhi h => ?_⟩
  obtain ⟨hrest, hobufs, hboxes, hscribes⟩ := exec_memKeeps henc hlo hhi h
  refine ⟨hrest, fun p site hsite hne => hobufs p site fun hkey => hne ?_, hboxes, hscribes⟩
  have hos := (RecM.ofBits w).osite.isLt
  simp only [siteKey] at hkey
  omega

end Sys2Proof.Proofs
end

section
/-!
PROOF. Class 0 (09 R183 to R191): each operation of the model as the arithmetic of bit vectors of the type's width.
-/
namespace Sys2Proof.Proofs
open Sys2Proof.Machine Sys2Proof.Safety Sys2Proof.Claims

/-! ## A firing of class 0 that supplies values -/

theorem intVal_takes {r : RecN} {s : State} {sat : Bool} {base : List Nat} {g : Int → Int → Int → Int} {g' : Nat → Nat}
    (hf : IntFields sat r) (ht : Takes s (formN r) r.fmt base false)
    (hg : ∀ i, narrow r.fmt (r.hi == 1) (g (valOf r.fmt (el r s.cur 0 i)) (valOf r.fmt (el r s.cur 1 i)) (valOf r.fmt (el r s.cur 2 i))) = g' i) :
    intVal r sat base g s = .next (emitRes s s.cur (formN r) r.fmt (intRes r s.cur g')) := by
  rw [intVal, fire, fireWith_takes ht (badInt_eq_false.2 hf)]
  simp only [elemInt_eq, hg]

theorem intPat_takes {r : RecN} {s : State} {sat : Bool} {base : List Nat} {g : Nat → Nat → Nat → Nat} {g' : Nat → Nat}
    (hf : IntFields sat r) (ht : Takes s (formN r) r.fmt base false)
    (hg : ∀ i, g (el r s.cur 0 i).toNat (el r s.cur 1 i).toNat (el r s.cur 2 i).toNat = g' i) :
    intPat r sat base g s = .next (emitRes s s.cur (formN r) r.fmt (intRes r s.cur g')) := by
  rw [intPat, fire, fireWith_takes ht (badInt_eq_false.2 hf)]
  simp only [el_toNat] at hg
  simp only [hg]

theorem intFields_sat {r : RecN} (h : IntFields false r) : IntFields true r := by
  simp only [IntFields] at h ⊢
  grind

theorem hi_eq_zero {r : RecN} (h : IntFields false r) : r.hi = 0 := by
  obtain ⟨-, hhi, -⟩ := h
  exact BitVec.eq_of_toNat_eq (Nat.le_zero.1 hhi)

theorem narrow_wrap {f : BitVec 4} {hi : BitVec 4} (h : hi = 0) (x : Int) : narrow f (hi == 1) x = (BitVec.ofInt (elemBits f) x).toNat := by
  subst h
  exact wrapN_eq _ _

theorem narrow_sat {f : BitVec 4} {hi : BitVec 4} (h : hi = 1) (x : Int) : narrow f (hi == 1) x = (clamp f x).toNat := by
  subst h
  exact satN_eq _ _

/-- The absolute value of a pattern is that of its value. -/
theorem ofInt_natAbs_valOf (f : BitVec 4) {n : Nat} (x : BitVec n) :
    BitVec.ofInt n (valOf f x).natAbs = if isSigned f then x.abs else x := by
  by_cases hs : isSigned f = true
  · simp only [valOf, hs, if_true, BitVec.abs, BitVec.msb_eq_toInt, decide_eq_true_eq]
    split
    · rw [Int.ofNat_natAbs_of_nonpos (by omega), BitVec.ofInt_neg, BitVec.ofInt_toInt]; rfl
    · rw [Int.natAbs_of_nonneg (by omega), BitVec.ofInt_toInt]
  · simp only [valOf, hs, Bool.false_eq_true, if_false, Int.natAbs_natCast, BitVec.ofInt_natCast, BitVec.ofNat_toNat, BitVec.setWidth_eq]

theorem natAbs_eq_ite (x : Int) : (x.natAbs : Int) = if x < 0 then -x else x := by
  split <;> omega

/-- 09 R183, R184, R190: with SAT 0 the results wrap. -/
theorem integerArithmeticWraps : IntegerArithmeticWraps := by
  intro r s hf hhi
  refine ⟨fun ht => ⟨?_, ?_, ?_⟩, fun ht => ?_, fun ht => ⟨?_, ?_⟩⟩
  · refine (exec_iadd r s).trans (intVal_takes hf ht fun i => ?_)
    rw [narrow_wrap hhi, BitVec.ofInt_add, ofInt_valOf, ofInt_valOf]
  · refine (exec_isub r s).trans (intVal_takes hf ht fun i => ?_)
    rw [narrow_wrap hhi, Int.sub_eq_add_neg, BitVec.ofInt_add, BitVec.ofInt_neg, ofInt_valOf, ofInt_valOf, ← BitVec.sub_eq_add_neg]
  · refine (exec_imul r s).trans (intVal_takes hf ht fun i => ?_)
    rw [narrow_wrap hhi, BitVec.ofInt_mul, ofInt_valOf, ofInt_valOf]
  · refine (exec_imad r s).trans (intVal_takes hf ht fun i => ?_)
    rw [narrow_wrap hhi, BitVec.ofInt_add, BitVec.ofInt_mul, ofInt_valOf, ofInt_valOf, ofInt_valOf]
  · refine (exec_ineg r s).trans (intVal_takes hf ht fun i => ?_)
    rw [narrow_wrap hhi, BitVec.ofInt_neg, ofInt_valOf]
  · refine (exec_iabs r s).trans (intVal_takes hf ht fun i => ?_)
    rw [narrow_wrap hhi, ofInt_natAbs_valOf]

/-- 09 R183, R184: with SAT 1 they clamp. -/
theorem integerArithmeticSaturates : IntegerArithmeticSaturates := by
  intro r s hf hhi v
  refine ⟨fun ht => ⟨?_, ?_, ?_⟩, fun ht => ?_, fun ht => ⟨?_, ?_⟩⟩
  · exact (exec_iadd r s).trans (intVal_takes hf ht fun i => narrow_sat hhi _)
  · exact (exec_isub r s).trans (intVal_takes hf ht fun i => narrow_sat hhi _)
  · exact (exec_imul r s).trans (intVal_takes hf ht fun i => narrow_sat hhi _)
  · exact (exec_imad r s).trans (intVal_takes hf ht fun i => narrow_sat hhi _)
  · exact (exec_ineg r s).trans (intVal_takes hf ht fun i => narrow_sat hhi _)
  · refine (exec_iabs r s).trans (intVal_takes hf ht fun i => ?_)
    rw [narrow_sat hhi, natAbs_eq_ite]

/-- Settles O15, operation by operation: what the bit vector of an exact result is. -/
theorem integerArithmetic : Obligations.IntegerArithmetic := ⟨integerArithmeticWraps, integerArithmeticSaturates⟩

/-! ## High product, minimum, maximum, clamp, compare, select (09 R184, R188) -/

theorem wrapN_valOf (f : BitVec 4) (x : BitVec (elemBits f)) : wrapN (elemBits f) (valOf f x) = x.toNat := by
  rw [wrapN_eq, ofInt_valOf]

/-- A value of the type is not changed by clamping with SAT 0. -/
theorem narrow_valOf {f : BitVec 4} {hi : BitVec 4} (h : hi = 0) (x : BitVec (elemBits f)) : narrow f (hi == 1) (valOf f x) = x.toNat := by
  rw [narrow_wrap h, ofInt_valOf]

theorem valOf_ite (f : BitVec 4) {n : Nat} (p : Prop) [Decidable p] (x y : BitVec n) :
    valOf f (if p then x else y) = if p then valOf f x else valOf f y := apply_ite _ _ _ _

theorem max_valOf (f : BitVec 4) {n : Nat} (x y : BitVec n) : max (valOf f x) (valOf f y) = valOf f (if valOf f x ≤ valOf f y then y else x) := by
  rw [valOf_ite, max_def]

theorem min_valOf (f : BitVec 4) {n : Nat} (x y : BitVec n) : min (valOf f x) (valOf f y) = valOf f (if valOf f x ≤ valOf f y then x else y) := by
  rw [valOf_ite, min_def]

theorem integerHighAndOrder : IntegerHighAndOrder := by
  intro r s hf v
  have hhi : r.hi = 0 := hi_eq_zero hf
  refine ⟨fun ht => ⟨?_, ?_, ?_⟩, fun ht => ?_⟩
  · refine (exec_imulh r s).trans (intVal_takes hf ht fun i => ?_)
    rw [narrow_wrap hhi, Int.shiftRight_eq_div_pow]
  · refine (exec_imin r s).trans (intVal_takes hf ht fun i => ?_)
    rw [min_valOf, narrow_valOf hhi]
  · refine (exec_imax r s).trans (intVal_takes hf ht fun i => ?_)
    rw [max_valOf, narrow_valOf hhi]
  · refine (exec_iclamp r s).trans (intVal_takes hf ht fun i => ?_)
    rw [max_valOf, min_valOf, narrow_valOf hhi]

end Sys2Proof.Proofs
end

section
/-!
PROOF. The rest of class 0 (09 R185 to R191): compares, bitwise operations, shifts, counts, fields, division and wide integers.
-/
namespace Sys2Proof.Proofs
open Sys2Proof.Machine Sys2Proof.Safety Sys2Proof.Claims

/-! ## Compare and select (09 R188) -/

theorem b2n_eq_one {b : Bool} : (b2n b == 1) = b := by cases b <;> rfl

theorem compareAndSelect : CompareAndSelect := by
  intro r s v holds
  refine ⟨fun hty hhi hcf ht => ?_, fun hf ht => ?_⟩
  · have hok : (!isIntTy r.fmt || decide (5 < r.hi.toNat) || r.cf != 0) = false := by
      simp [isIntTy, hty, hcf, hhi]
    refine ⟨fun i => b2n (iRel r.hi.toNat (v 0 i) (v 1 i)), fun i => ?_, ?_⟩
    · have hrel : iRel r.hi.toNat (v 0 i) (v 1 i) = true ↔ holds i := by
        have h6 : ∀ h : BitVec 4, h.toNat ≤ 5 → h = 0 ∨ h = 1 ∨ h = 2 ∨ h = 3 ∨ h = 4 ∨ h = 5 := by decide
        rcases h6 r.hi hhi with h | h | h | h | h | h <;> simp [holds, h, iRel]
      by_cases h : holds i
      · exact ⟨fun _ => congrArg b2n (hrel.2 h), fun h' => absurd h h'⟩
      · exact ⟨fun h' => absurd h' h, fun _ => congrArg b2n (Bool.eq_false_iff.2 (mt hrel.1 h))⟩
    · rw [exec_icmp, execIcmp, fire, fireWith_takes ht hok]
      simp only [elemInt_eq, b2n_eq_one, v]
  · rw [exec_sel, execSel, fire, fireWith_takes ht (badInt_eq_false.2 hf)]
    simp only [el_toNat, ite_not]

/-- Settles O16: what ICMP, SEL and the choosing operations send. -/
theorem integerOrder : Obligations.IntegerOrder := ⟨integerHighAndOrder, compareAndSelect⟩

/-! ## Shifts (09 R186) -/

/-- The signed or unsigned value that a shift left reads is the value of the type. -/
theorem shl_value (f : BitVec 4) (x : BitVec (elemBits f)) :
    (if isSigned f then sgn (elemBits f) x.toNat else (x.toNat : Int)) = valOf f x := by
  rw [valOf, sgn_eq (elemBits_pos f), BitVec.ofNat_toNat, BitVec.setWidth_eq]

theorem ofInt_two_pow (n k : Nat) : BitVec.ofInt n ((2 ^ k : Nat) : Int) = BitVec.twoPow n k := by
  apply BitVec.eq_of_toNat_eq
  rw [BitVec.ofInt_natCast, BitVec.toNat_ofNat, BitVec.toNat_twoPow]

theorem shlV_wrap (f : BitVec 4) (x : BitVec (elemBits f)) (k : Nat) : shlV f false x.toNat k = (x <<< k).toNat := by
  rw [shlV, shl_value]
  split
  · next h => rw [BitVec.shiftLeft_eq_zero h]; rfl
  · rw [narrow, if_neg (by decide), wrapN_eq, BitVec.ofInt_mul, ofInt_valOf, ofInt_two_pow, ← BitVec.shiftLeft_eq_mul_twoPow]

theorem shlV_sat (f : BitVec 4) (x : BitVec (elemBits f)) (k : Nat) :
    shlV f true x.toNat k = (clamp f (valOf f x * 2 ^ min (elemBits f) k)).toNat := by
  rw [shlV, shl_value]
  split
  · next h => rw [if_pos rfl, satN_eq, min_eq_left h]; push_cast; rfl
  · next h => rw [narrow, if_pos rfl, satN_eq, min_eq_right (by omega)]; push_cast; rfl

theorem shrV_eq {n : Nat} (x : BitVec n) (k : Nat) : shrV n x.toNat k = (x >>> k).toNat := by
  rw [shrV, BitVec.toNat_ushiftRight, Nat.shiftRight_eq_div_pow]
  split
  · next h => rw [Nat.div_eq_of_lt (x.isLt.trans_le (Nat.pow_le_pow_right (by decide) h))]
  · rfl

/-- A shift right by no less than the width of the value leaves copies of the sign. -/
theorem ediv_two_pow_of_lt {x : Int} {n k : Nat} (hlo : -2 ^ n ≤ x) (hhi : x < 2 ^ n) (h : n ≤ k) :
    x / (2 ^ k : Nat) = if x < 0 then -1 else 0 := by
  have hk : (2 : Int) ^ n ≤ ((2 ^ k : Nat) : Int) := by
    push_cast
    exact pow_le_pow_right₀ (by decide) h
  split
  · exact Int.ediv_eq_neg_one_of_neg_of_le (by omega) (by omega)
  · exact Int.ediv_eq_zero_of_lt (by omega) (by omega)

theorem sraV_eq {n : Nat} (hn : 0 < n) (x : BitVec n) (k : Nat) : sraV n x.toNat k = (x.sshiftRight k).toNat := by
  have hshift : x.toInt / (2 ^ min k n : Nat) = x.toInt >>> k := by
    rw [Int.shiftRight_eq_div_pow]
    rcases Nat.le_total k n with h | h
    · rw [min_eq_left h]
    · have hlo := BitVec.le_two_mul_toInt (x := x)
      have hhi := BitVec.two_mul_toInt_lt (x := x)
      have hp : (0 : Int) < 2 ^ n := by positivity
      rw [min_eq_right h, ediv_two_pow_of_lt (by omega) (by omega) (le_refl n), ediv_two_pow_of_lt (n := n) (by omega) (by omega) h]
  rw [sraV, sgn_eq hn, BitVec.ofNat_toNat, BitVec.setWidth_eq, hshift, wrapN_eq, ← BitVec.toInt_sshiftRight, BitVec.ofInt_toInt]

theorem rotV_eq {n : Nat} (hn : 0 < n) (x : BitVec n) (k : Nat) : rotV n x.toNat k = (x.rotateLeft k).toNat := by
  have hj : k % n < n := Nat.mod_lt _ hn
  have hpow : 2 ^ n = 2 ^ (k % n) * 2 ^ (n - k % n) := by rw [← pow_add]; congr 1; omega
  have hhigh : x.toNat * 2 ^ (k % n) % 2 ^ n = 2 ^ (k % n) * (x.toNat % 2 ^ (n - k % n)) := by
    rw [hpow, mul_comm, Nat.mul_mod_mul_left]
  have hlow : x.toNat / 2 ^ (n - k % n) < 2 ^ (k % n) := by
    rw [Nat.div_lt_iff_lt_mul (by positivity), ← hpow]
    exact x.isLt
  rw [rotV, BitVec.toNat_rotateLeft, Nat.shiftLeft_eq, Nat.shiftRight_eq_div_pow, hhigh, Nat.two_pow_add_eq_or_of_lt hlow]

/-- 09 R186: the bitwise operations and the shifts. -/
theorem integerBitwiseAndShifts : IntegerBitwiseAndShifts := by
  intro r s hf ht a b
  have hsat : (r.hi == 1) = false := by rw [hi_eq_zero hf]; rfl
  refine ⟨?_, ?_, ?_, ?_, ?_, ?_, ?_, ?_⟩
  · exact (exec_and r s).trans (intPat_takes hf ht fun i => rfl)
  · exact (exec_or r s).trans (intPat_takes hf ht fun i => rfl)
  · exact (exec_xor r s).trans (intPat_takes hf ht fun i => rfl)
  · refine (exec_andn r s).trans (intPat_takes hf ht fun i => ?_)
    rw [BitVec.toNat_and, BitVec.toNat_not, ones]
  · refine (exec_shl r s).trans (intPat_takes (intFields_sat hf) ht fun i => ?_)
    rw [hsat, shlV_wrap]
  · exact (exec_shr r s).trans (intPat_takes hf ht fun i => shrV_eq _ _)
  · exact (exec_sra r s).trans (intPat_takes hf ht fun i => sraV_eq (elemBits_pos _) _ _)
  · exact (exec_rot r s).trans (intPat_takes hf ht fun i => rotV_eq (elemBits_pos _) _ _)

theorem shiftLeftSaturates : ShiftLeftSaturates := by
  intro r s hf hhi ht
  have hsat : (r.hi == 1) = true := by rw [hhi]; rfl
  refine (exec_shl r s).trans (intPat_takes hf ht fun i => ?_)
  rw [hsat, shlV_sat]

/-! ## Counts (09 R186) -/

theorem clzV_eq {n : Nat} (hn : 0 < n) (x : BitVec n) : clzV n x.toNat = x.clz.toNat := by
  by_cases hx : x = 0#n
  · have hz : x.clz = BitVec.ofNat n n := BitVec.clz_eq_iff_eq_zero.2 hx
    rw [hz, hx, BitVec.toNat_ofNat, BitVec.toNat_ofNat, Nat.zero_mod, Nat.mod_eq_of_lt Nat.lt_two_pow_self]
    rfl
  · have hlt := BitVec.clz_lt_iff_ne_zero.2 hx
    have hlo := BitVec.two_pow_sub_clz_le_toNat_of_ne_zero hn hx
    have hhi := BitVec.toNat_lt_two_pow_sub_clz (x := x)
    have hne : x.toNat ≠ 0 := fun h => hx (BitVec.eq_of_toNat_eq h)
    rw [BitVec.natCast_eq_ofNat, BitVec.lt_def, BitVec.toNat_ofNat, Nat.mod_eq_of_lt Nat.lt_two_pow_self] at hlt
    have hlog : x.toNat.log2 = n - 1 - x.clz.toNat := by
      rw [Nat.log2_eq_iff hne]
      exact ⟨hlo, by convert hhi using 2; omega⟩
    rw [clzV, bitLen, if_neg hne, hlog]
    omega

theorem toNat_getLsbD {n : Nat} (x : BitVec n) (i : Nat) : (x.getLsbD i).toNat = x.toNat / 2 ^ i % 2 := by
  rw [BitVec.getLsbD, Nat.toNat_testBit]

theorem popcV_eq {n : Nat} (x : BitVec n) : popcV n x.toNat = x.cpop.toNat := by
  have hrec : ∀ m, (List.range m).foldl (fun t i => t + x.toNat / 2 ^ i % 2) 0 = x.cpopNatRec m 0 := by
    intro m
    induction m with
    | zero => rfl
    | succ m ih =>
      rw [List.range_succ, List.foldl_append, ih, BitVec.cpopNatRec_succ, Nat.zero_add,
        BitVec.cpopNatRec_eq (acc := (x.getLsbD m).toNat), toNat_getLsbD]
      rfl
  rw [BitVec.toNat_cpop, popcV, hrec]

theorem brevV_eq {n : Nat} (x : BitVec n) : brevV n x.toNat = x.reverse.toNat := by
  have hrec : ∀ m ≤ n, (List.range m).foldl (fun t i => t + x.toNat / 2 ^ i % 2 * 2 ^ (n - 1 - i)) 0 =
      x.reverse.toNat / 2 ^ (n - m) * 2 ^ (n - m) := by
    intro m
    induction m with
    | zero => intro _; simp [Nat.div_eq_of_lt x.reverse.isLt]
    | succ m ih =>
      intro hm
      have hbit : x.toNat / 2 ^ m % 2 = x.reverse.toNat / 2 ^ (n - (m + 1)) % 2 := by
        rw [← toNat_getLsbD, ← toNat_getLsbD, BitVec.getLsbD_reverse, BitVec.getMsbD_eq_getLsbD]
        simp only [show n - (m + 1) < n by omega, decide_true, Bool.true_and]
        congr 2; omega
      have hhalf : x.reverse.toNat / 2 ^ (n - m) = x.reverse.toNat / 2 ^ (n - (m + 1)) / 2 := by
        rw [Nat.div_div_eq_div_mul, ← pow_succ]; congr 2; omega
      rw [List.range_succ, List.foldl_append, ih (by omega)]
      simp only [List.foldl_cons, List.foldl_nil]
      rw [hbit, hhalf, show n - 1 - m = n - (m + 1) by omega, show n - m = n - (m + 1) + 1 by omega, pow_succ]
      generalize x.reverse.toNat / 2 ^ (n - (m + 1)) = q
      generalize 2 ^ (n - (m + 1)) = p
      calc q / 2 * (p * 2) + q % 2 * p = (q / 2 * 2 + q % 2) * p := by ring
        _ = q * p := by rw [Nat.div_add_mod']
  rw [brevV, hrec n (le_refl n)]
  simp

theorem integerBitCounts : IntegerBitCounts := by
  intro r s hf ht a
  refine ⟨?_, ?_, ?_⟩
  · exact (exec_clz r s).trans (intPat_takes hf ht fun i => clzV_eq (elemBits_pos _) _)
  · exact (exec_popc r s).trans (intPat_takes hf ht fun i => popcV_eq _)
  · exact (exec_brev r s).trans (intPat_takes hf ht fun i => brevV_eq _)


/-! ## Bit fields (09 R187) -/

theorem bfxV_eq {f : BitVec 4} {len : Nat} (hpos : 1 ≤ len) (hle : len ≤ elemBits f) (a : BitVec (elemBits f)) (p : Nat) :
    bfxV f len a.toNat p =
      (if isSigned f then ((a >>> p).setWidth len).signExtend (elemBits f) else ((a >>> p).setWidth len).setWidth (elemBits f)).toNat := by
  have hx : shrV (elemBits f) a.toNat p % 2 ^ len = ((a >>> p).setWidth len).toNat := by rw [shrV_eq, BitVec.toNat_setWidth]
  simp only [bfxV, hx]
  split
  · rw [sgn_eq hpos, BitVec.ofNat_toNat, BitVec.setWidth_eq, wrapN_eq]; rfl
  · rw [BitVec.toNat_setWidth _ ((a >>> p).setWidth len)]
    exact (Nat.mod_eq_of_lt (((a >>> p).setWidth len).isLt.trans_le (Nat.pow_le_pow_right (by decide) hle))).symm

/-- The bits of a number with a field of w bits replaced, from the top: those above, those of b, those below. -/
theorem insertField_eq (a b p w : Nat) :
    a - put (a / 2 ^ p % 2 ^ w) p + put (b % 2 ^ w) p = 2 ^ (p + w) * (a / 2 ^ (p + w)) + (2 ^ p * (b % 2 ^ w) + a % 2 ^ p) := by
  have hlow := Nat.div_add_mod a (2 ^ p)
  have hmid := congrArg (2 ^ p * ·) (Nat.div_add_mod (a / 2 ^ p) (2 ^ w))
  simp only [Nat.div_div_eq_div_mul, ← pow_add, mul_add, ← mul_assoc] at hmid
  rw [put, put, mul_comm _ (2 ^ p), mul_comm _ (2 ^ p)]
  omega

/-- Bit i of an insertion. -/
theorem testBit_insert (a b p w i : Nat) :
    (2 ^ (p + w) * (a / 2 ^ (p + w)) + (2 ^ p * (b % 2 ^ w) + a % 2 ^ p)).testBit i =
      if i < p then a.testBit i else if i < p + w then b.testBit (i - p) else a.testBit i := by
  have hlow : a % 2 ^ p < 2 ^ p := Nat.mod_lt _ (by positivity)
  have hmid : 2 ^ p * (b % 2 ^ w) + a % 2 ^ p < 2 ^ (p + w) := by
    have hb : b % 2 ^ w + 1 ≤ 2 ^ w := Nat.mod_lt _ (by positivity)
    calc 2 ^ p * (b % 2 ^ w) + a % 2 ^ p < 2 ^ p * (b % 2 ^ w) + 2 ^ p := by omega
      _ = 2 ^ p * (b % 2 ^ w + 1) := by ring
      _ ≤ 2 ^ p * 2 ^ w := Nat.mul_le_mul_left _ hb
      _ = 2 ^ (p + w) := (pow_add _ _ _).symm
  rw [Nat.testBit_two_pow_mul_add _ hmid, Nat.testBit_two_pow_mul_add _ hlow]
  by_cases hp : i < p
  · rw [if_pos (by omega), if_pos hp, if_pos hp, Nat.testBit_mod_two_pow]; simp [hp]
  · by_cases hw : i < p + w
    · rw [if_pos hw, if_neg hp, if_neg hp, if_pos hw, Nat.testBit_mod_two_pow]; simp [show i - p < w by omega]
    · rw [if_neg hw, if_neg hp, if_neg hw, Nat.testBit_div_two_pow]; congr 1; omega

/-- What BFI's mask of `len` ones at position `p` holds. -/
theorem getLsbD_fieldMask (n len p i : Nat) (hi : i < n) :
    ((BitVec.allOnes len).setWidth n <<< p).getLsbD i = (decide (p ≤ i) && decide (i - p < len)) := by
  simp only [BitVec.getLsbD_shiftLeft, BitVec.getLsbD_setWidth, BitVec.getLsbD_allOnes, hi, decide_true, Bool.true_and]
  by_cases h : p ≤ i
  · simp [h, Nat.not_lt.2 h, show i - p < n by omega]
  · simp [h, Nat.lt_of_not_le h]

theorem bfiV_of_lt {n len a b p w : Nat} (hp : p < n) (hw : 0 < w) (htop : min (p + len) n = p + w) :
    bfiV n len a b p = 2 ^ (p + w) * (a / 2 ^ (p + w)) + (2 ^ p * (b % 2 ^ w) + a % 2 ^ p) := by
  simp only [bfiV, if_neg (Nat.not_le.2 hp), htop, Nat.add_sub_cancel_left]
  rw [bits, show p + w - 1 + 1 - p = w by omega, insertField_eq]

theorem bfiV_eq {n len : Nat} (hpos : 1 ≤ len) (a b : BitVec n) (p : Nat) :
    bfiV n len a.toNat b.toNat p =
      ((a &&& ~~~((BitVec.allOnes len).setWidth n <<< p)) ||| ((b <<< p) &&& ((BitVec.allOnes len).setWidth n <<< p))).toNat := by
  apply Nat.eq_of_testBit_eq
  intro i
  rw [BitVec.testBit_toNat]
  by_cases hi : i < n
  · simp only [BitVec.getLsbD_or, BitVec.getLsbD_and, BitVec.getLsbD_not, getLsbD_fieldMask n len p i hi, BitVec.getLsbD_shiftLeft, hi,
      decide_true, Bool.true_and]
    by_cases hp : n ≤ p
    · rw [bfiV, if_pos hp]
      simp [show ¬ p ≤ i by omega, BitVec.testBit_toNat]
    · obtain ⟨w, hw, htop⟩ : ∃ w, 0 < w ∧ min (p + len) n = p + w := ⟨min (p + len) n - p, by omega, by omega⟩
      rw [bfiV_of_lt (Nat.not_le.1 hp) hw htop, testBit_insert, BitVec.testBit_toNat, BitVec.testBit_toNat]
      by_cases h : i < p
      · simp [h, Nat.not_le.2 h]
      · by_cases h' : i < p + w
        · simp [h, h', Nat.not_lt.1 h, show i - p < len by omega]
        · simp [h, h', show ¬ i - p < len by omega]
  · have hn : n ≤ i := by omega
    rw [BitVec.getLsbD_of_ge _ _ hn]
    by_cases hp : n ≤ p
    · rw [bfiV, if_pos hp, BitVec.testBit_toNat, BitVec.getLsbD_of_ge _ _ hn]
    · obtain ⟨w, hw, htop⟩ : ∃ w, 0 < w ∧ min (p + len) n = p + w := ⟨min (p + len) n - p, by omega, by omega⟩
      rw [bfiV_of_lt (Nat.not_le.1 hp) hw htop, testBit_insert, if_neg (by omega), if_neg (by omega),
        BitVec.testBit_toNat, BitVec.getLsbD_of_ge _ _ hn]

theorem isIntTy_of_lt {f : BitVec 4} (h : f.toNat < 8) : isIntTy f = true := by simpa [isIntTy] using h

theorem badField_eq_false {r : RecN} (hty : r.fmt.toNat < 8) (hhi : r.hi = 0) (hpos : 1 ≤ r.cf.toNat) (hle : r.cf.toNat ≤ elemBits r.fmt) :
    badField r = false := by
  rw [badField, fieldLen, isIntTy_of_lt hty, hhi, decide_eq_false (by omega), decide_eq_false (by omega)]
  rfl

theorem bitFields : BitFields := by
  intro r s hty hhi hpos hle
  have hok := badField_eq_false hty hhi hpos hle
  refine ⟨fun ht => ?_, fun ht => ?_⟩
  · rw [exec_bfx, execBfx, fire, fireWith_takes ht hok]
    simp only [← el_toNat, fieldLen, bfxV_eq hpos hle]
  · rw [exec_bfi, execBfi, fire, fireWith_takes ht hok]
    simp only [← el_toNat, fieldLen, bfiV_eq hpos]

/-- Settles O17: each of the model's number operations is the bit vector's. -/
theorem bitOperations : Obligations.BitOperations := ⟨integerBitwiseAndShifts, shiftLeftSaturates, integerBitCounts, bitFields⟩

/-! ## Division (09 R185) -/

theorem valOf_eq_zero (f : BitVec 4) {n : Nat} (x : BitVec n) : valOf f x = 0 ↔ x = 0 := by
  unfold valOf
  split
  · rw [← BitVec.toInt_inj, BitVec.ofNat_eq_ofNat, BitVec.toInt_zero]
  · rw [← BitVec.toNat_inj, BitVec.ofNat_eq_ofNat, BitVec.toNat_zero, Int.natCast_eq_zero]

theorem wrapN_tdiv (f : BitVec 4) (x y : BitVec (elemBits f)) :
    wrapN (elemBits f) ((valOf f x).tdiv (valOf f y)) = (if isSigned f then x.sdiv y else x / y).toNat := by
  rw [wrapN_eq]
  unfold valOf
  split
  · congr 1
    apply BitVec.eq_of_toInt_eq
    rw [BitVec.toInt_ofInt, BitVec.toInt_sdiv]
  · rw [← Int.ofNat_tdiv, BitVec.ofInt_natCast, ← BitVec.toNat_udiv, BitVec.ofNat_toNat, BitVec.setWidth_eq]

theorem wrapN_tmod (f : BitVec 4) (x y : BitVec (elemBits f)) :
    wrapN (elemBits f) ((valOf f x).tmod (valOf f y)) = (if isSigned f then x.srem y else x % y).toNat := by
  rw [wrapN_eq]
  unfold valOf
  split
  · rw [← BitVec.toInt_srem, BitVec.ofInt_toInt]
  · rw [← Int.ofNat_tmod, BitVec.ofInt_natCast, ← BitVec.toNat_umod, BitVec.ofNat_toNat, BitVec.setWidth_eq]

theorem idivV_eq (f : BitVec 4) (x y : BitVec (elemBits f)) :
    idivV f (valOf f x) (valOf f y) = (if y = 0 then BitVec.allOnes _ else if isSigned f then x.sdiv y else x / y).toNat := by
  simp only [idivV, valOf_eq_zero, wrapN_tdiv]
  split
  · rw [ones, BitVec.toNat_allOnes]
  · rfl

theorem iremV_eq (f : BitVec 4) (x y : BitVec (elemBits f)) :
    iremV f (valOf f x) (valOf f y) = (if y = 0 then x else if isSigned f then x.srem y else x % y).toNat := by
  simp only [iremV, valOf_eq_zero, wrapN_tmod, wrapN_valOf]
  split <;> rfl

theorem integerDivides : IntegerDivides := by
  intro r s hf ht a b
  have hok := badInt_eq_false.2 hf
  refine ⟨?_, ?_⟩
  · rw [exec_idiv, execIdiv, intDiv, fireLate_takes ht hok]
    simp only [elemInt_eq, idivV_eq, a, b]
  · rw [exec_irem, execIrem, intDiv, fireLate_takes ht hok]
    simp only [elemInt_eq, iremV_eq, a, b]

/-! ## Addresses, wide adds and conversion (09 R189 to R191) -/

theorem sgn_toNat {n : Nat} (h : 0 < n) (x : BitVec n) : sgn n x.toNat = x.toInt := by
  rw [sgn_eq h, BitVec.ofNat_toNat, BitVec.setWidth_eq]

/-- An element's value, whatever the list of lanes. -/
theorem elemInt_valOf (f : BitVec 4) (ls : List Lane) (i : Nat) :
    elemInt f ls i = valOf f (BitVec.ofNat (elemBits f) (elem f ls i)) := by
  unfold elemInt valOf
  split
  · rw [sgn_eq (elemBits_pos _)]
  · rw [BitVec.toNat_ofNat, Nat.mod_eq_of_lt (elem_lt _ _ _)]

theorem lanesP_of_noLit {r : RecN} (h : r.ctl.lituse = 0) (c : Cur) (k : Nat) : lanesP r c k = (portTok c k).lanes := by
  simp [lanesP, h]

/-- The sum modulo 2^56 of a base, a scaled index and a displacement (09 R189). -/
theorem wrapN_address (a : Nat) (x : Int) (k : Nat) (lit : BitVec 32) :
    wrapN 56 ((a : Int) + x * (2 ^ k : Nat) + sgn 32 lit.toNat) =
      ((BitVec.ofNat 64 a + (BitVec.ofInt 64 x <<< k) + lit.signExtend 64).setWidth 56).toNat := by
  have hbase : BitVec.ofNat 64 a = BitVec.ofInt 64 a := (BitVec.ofInt_natCast _ _).symm
  have hidx : BitVec.ofInt 64 x <<< k = BitVec.ofInt 64 (x * (2 ^ k : Nat)) := by
    rw [BitVec.ofInt_mul, ofInt_two_pow, BitVec.shiftLeft_eq_mul_twoPow]
  have hlit : lit.signExtend 64 = BitVec.ofInt 64 (sgn 32 lit.toNat) := by rw [sgn_toNat (by decide)]; rfl
  rw [hbase, hidx, hlit, ← BitVec.ofInt_add, ← BitVec.ofInt_add, wrapN, BitVec.toNat_setWidth, BitVec.toNat_ofInt]
  omega

theorem addr_sends {r : RecN} {s : State} (hty : r.fmt.toNat < 8) (hhi : r.hi = 0) (hcf : r.cf.toNat < 8) (hlit : r.ctl.lituse = 0)
    (ht : Takes s (formN r) r.fmt [0, 1] false) :
    exec (.addr r) s = .next (emitRes s s.cur (formN r) 7 (both
      { tag := s.cur.tag, ty := 7
        lanes := maskElems (lanePred r.ctl s.cur) 2 (portTok s.cur 0).lanes (lanesOf 7 (widthA s.cur) (fun j =>
          let base := BitVec.ofNat 64 (elem 7 (portTok s.cur 0).lanes j)
          let idx := BitVec.ofInt 64 (valOf r.fmt (el r s.cur 1 j))
          ((base + (idx <<< r.cf.toNat) + r.lit.signExtend 64).setWidth 56).toNat)) })) := by
  have hok : (!isIntTy r.fmt || r.hi != 0 || decide (7 < r.cf.toNat) || r.ctl.lituse != 0) = false := by
    simp [isIntTy_of_lt hty, hhi, hlit, show ¬ 7 < r.cf.toNat by omega]
  have ht7 : Takes s (formN r) 7 [0, 1] false := by
    obtain ⟨h1, h2, -, h4, h5, h6⟩ := ht
    exact ⟨h1, h2, .inl hlit, h4, h5, h6⟩
  rw [exec_addr, execAddr, fire, fireWith_takes ht7 hok]
  simp only [wrapN_address, el, lanesP_of_noLit hlit, elemInt_valOf]

/-- A result of SAT's choice as one value of the type. -/
theorem narrow_eq (f : BitVec 4) (hi : BitVec 4) (x : Int) :
    narrow f (hi == 1) x = if hi = 1 then (clamp f x).toNat else (BitVec.ofInt (elemBits f) x).toNat := by
  split
  · next h => exact narrow_sat h x
  · next h => rw [narrow, if_neg (by simpa using h), wrapN_eq]

theorem iaddw_sends {r : RecN} {s : State} (hf : IntFields true r) (h3 : r.fmt ≠ 3) (h7 : r.fmt ≠ 7)
    (ht : Takes s (formN r) r.fmt [0, 1] false) :
    exec (.iaddw r) s = .next (emitRes s s.cur (formN r) (r.fmt + 1) (both
      { tag := s.cur.tag, ty := r.fmt + 1
        lanes := maskElems (lanePred r.ctl s.cur) (lanesPer (r.fmt + 1)) (portTok s.cur 0).lanes
          (lanesOf (r.fmt + 1) (widthA s.cur) (fun j =>
            let a := BitVec.ofNat (elemBits (r.fmt + 1)) (elem (r.fmt + 1) (portTok s.cur 0).lanes j)
            let x := valOf (r.fmt + 1) a + valOf r.fmt (el r s.cur 1 j)
            if r.hi = 1 then (clamp (r.fmt + 1) x).toNat else (BitVec.ofInt (elemBits (r.fmt + 1)) x).toNat)) })) := by
  have hok : (badInt true r || r.fmt == 3 || r.fmt == 7) = false := by rw [badInt_eq_false.2 hf, beq_false_of_ne h3, beq_false_of_ne h7]; rfl
  have htw : Takes s (formN r) (wideTy r.fmt) [0, 1] false := by
    obtain ⟨h1, h2, -, h4, h5, h6⟩ := ht
    refine ⟨h1, h2, .inr ?_, h4, h5, h6⟩
    have hnarrow : ∀ f : BitVec 4, f.toNat < 8 → f ≠ 3 → f ≠ 7 → isBlockTy (wideTy f) = false := by decide
    exact hnarrow r.fmt hf.1 h3 h7
  rw [exec_iaddw, execIaddw, fire, fireWith_takes htw hok]
  simp only [narrow_eq, elemInt_valOf, wideTy, el]

theorem icvt_sends {r : RecN} {s : State} (hf : IntFields true r) (ht : Takes s (formN r) r.fmt [0] false) :
    let t := portTok s.cur 0
    (8 ≤ t.ty.toNat → exec (.icvt r) s = .next (faultCur s s.cur cILLEGAL 0)) ∧
    (t.ty.toNat < 8 → exec (.icvt r) s = .next (emitRes s s.cur (formN r) r.fmt (both
      { tag := s.cur.tag, ty := r.fmt
        lanes :=
          let k := min (t.lanes.length / lanesPer t.ty) (32 / lanesPer r.fmt)
          maskElems (lanePred r.ctl s.cur) (lanesPer r.fmt) t.lanes (lanesOf r.fmt (k * lanesPer r.fmt) (fun i =>
            let x := valOf t.ty (BitVec.ofNat (elemBits t.ty) (elem t.ty t.lanes i))
            if r.hi = 1 then (clamp r.fmt x).toNat else (BitVec.ofInt (elemBits r.fmt) x).toNat)) }))) := by
  intro t
  rw [exec_icvt, execIcvt, fire, fireWith_takes ht (badInt_eq_false.2 hf)]
  refine ⟨fun hty => ?_, fun hty => ?_⟩
  · have hno : isIntTy (portTok s.cur 0).ty = false := by simpa [isIntTy] using hty
    simp only [hno, Bool.not_false, if_true, emitRes]
  · simp only [isIntTy_of_lt hty, Bool.not_true, Bool.false_eq_true, if_false, narrow_eq, elemInt_valOf, t]

theorem wideIntegers : WideIntegers := by
  intro r s
  exact ⟨fun hty hhi hcf hlit ht => addr_sends hty hhi hcf hlit ht, fun hf h3 h7 ht => iaddw_sends hf h3 h7 ht, fun hf ht => icvt_sends hf ht⟩

/-- Settles O18: what the divides, ADDR, IADDW and ICVT send. -/
theorem divisionAndWideIntegers : Obligations.DivisionAndWideIntegers := ⟨integerDivides, wideIntegers⟩

end Sys2Proof.Proofs
end

section
/-!
PROOF. Class 1: moves, steering and merging (09 R192 to R197).
-/
namespace Sys2Proof.Proofs
open Sys2Proof.Machine Sys2Proof.Safety Sys2Proof.Claims

theorem bad1_eq_false {opxOk levelOk : Bool} {r : RecN} : bad1 opxOk levelOk r = false ↔ MoveFields opxOk levelOk r := by
  cases opxOk <;> cases levelOk <;> simp [bad1, MoveFields] <;> tauto

theorem badMove_of {opxOk levelOk : Bool} {r : RecN} (hfmt : r.fmt = 0) (h : MoveFields opxOk levelOk r) : badMove opxOk levelOk r = false :=
  (badMove_eq_false_iff _ _ _).2 ⟨hfmt, h⟩

/-! ## NOP, COPY, GATE, JOIN, VOID, SINK, CONST -/

theorem nopChangesNothing : NopChangesNothing := by
  intro r s
  rw [exec_nop, execNop]
  refine ⟨fun hty hhi => ?_, fun h => ?_⟩
  · rw [isIntTy_of_lt hty, hhi]; rfl
  · rw [if_pos]
    rcases h with h | h
    · simp [isIntTy, h]
    · rw [bne_iff_ne.2 h, Bool.or_true]

theorem copy_sends {r : RecN} {s : State} (hfmt : r.fmt = 0) (hf : MoveFields false false r) (hm : Moves s (formN r) [0]) :
    exec (.copy r) s = .next (emitRes s s.cur (formN r) (portTok s.cur 0).ty
      (both (moved r.ctl s.cur s.cur.tag (portTok s.cur 0)))) := by
  rw [exec_copy, execCopy, moveFire_moves hm (badMove_of hfmt hf), passVal_eq_moved]

theorem void_sends {r : RecN} {s : State} (hfmt : r.fmt = 0) (hf : MoveFields false false r) (hm : Moves s (formN r) [0]) :
    exec (.void r) s = .next (emitRes s s.cur (formN r) (portTok s.cur 0).ty (both (moveNull s.cur (portTok s.cur 0)))) := by
  rw [exec_void, execVoid, moveFire_moves hm (badMove_of hfmt hf)]

theorem gate_sends {r : RecN} {s : State} (hfmt : r.fmt = 0) (hf : MoveFields false false r) (hm : Moves s (formN r) [0, 1]) :
    exec (.gate r) s = .next (emitRes s s.cur (formN r) (portTok s.cur 0).ty
      (both (moved r.ctl s.cur s.cur.tag (portTok s.cur 0)))) := by
  rw [exec_gate, execGate, moveFire_moves hm (badMove_of hfmt hf), passVal_eq_moved]

theorem join_sends {r : RecN} {s : State} (hfmt : r.fmt = 0) (hf : MoveFields false false r) (hm : Moves s (formN r) [0, 1]) :
    exec (.join r) s = .next (emitRes s s.cur (formN r) (portTok s.cur 0).ty
      { v0 := some (moved r.ctl s.cur s.cur.tag (portTok s.cur 0)), v1 := some (moved r.ctl s.cur s.cur.tag (opTok r s.cur 1)) }) := by
  obtain ⟨hports, hctl, hnull, hpred⟩ := hm
  simp only [formN] at hports hctl hnull hpred
  simp only [exec_join, execJoin, hports, badMove_of hfmt hf, hctl, hnull, hpred, Bool.not_true, Bool.or_self, Bool.false_eq_true,
    if_false, passVal_eq_moved]

theorem movesPassTheirOperand : MovesPassTheirOperand := by
  intro r s hfmt c a v
  refine ⟨fun hf hm => ⟨copy_sends hfmt hf hm, void_sends hfmt hf hm⟩, fun hf hm => ⟨fun hopx => ?_, fun hopx => ?_⟩,
    fun hf hm => ⟨gate_sends hfmt hf hm, join_sends hfmt hf hm⟩⟩
  · rw [exec_runend_moves hfmt hf hm, runendRes_of_not_opx hopx, both]
  · rw [exec_runend_moves hfmt hf hm, runendRes_of_opx hopx, both]

theorem sinkAndConst : SinkAndConst := by
  intro r s hf
  refine ⟨fun hfmt hctl hports => ?_, fun hfmt hlit ht => ?_⟩
  · simp only [exec_sink, execSink, hports, bad1_eq_false.2 hf, hfmt, hctl, bne_self_eq_false, Bool.not_true, Bool.or_self,
      Bool.false_eq_true, if_false]
  · have hok : (bad1 false false r || decide (10 < r.fmt.toNat) || r.ctl.lituse != 0) = false := by
      rw [bad1_eq_false.2 hf, hlit, decide_eq_false (by omega)]; rfl
    rw [exec_const, execConst, fire, fireWith_takes ht hok]

/-- Settles O19: the result of each record that passes its operand. -/
theorem plainMoves : Obligations.PlainMoves := ⟨nopChangesNothing, movesPassTheirOperand, sinkAndConst⟩

/-! ## STEER and MERGE (09 R196, R197) -/

theorem steer_sends {r : RecN} {s : State} (hfmt : r.fmt = 0) (hf : MoveFields true false r) (hm : Moves s (formN r) [0, 1]) :
    exec (.steer r) s = .next (emitRes s s.cur (formN r) (portTok s.cur 0).ty
      { both (moved r.ctl s.cur s.cur.tag (portTok s.cur 0)) with cond := steerCond r s.cur, voids := opx r }) := by
  obtain ⟨hports, hctl, hnull, hpred⟩ := hm
  simp only [formN] at hports hctl hnull hpred
  have hlone : ((portTok s.cur 0).null && !anyNull s.cur ((portSet [0, 1] r.ctl).filter (· != 0))) = false := by
    have hmem : 0 ∈ portSet [0, 1] r.ctl := by simp [portSet]
    have h0 : (portTok s.cur 0).null = false := by simpa using List.any_eq_false.1 hnull 0 hmem
    rw [h0]; rfl
  simp only [exec_steer, execSteer, hports, badMove_of hfmt hf, hctl, hlone, hnull, hpred, Bool.not_true, Bool.or_self,
    Bool.false_eq_true, if_false, passVal_eq_moved]

/-- A null on port a beside a value on port b follows the Boolean. -/
theorem steer_null {r : RecN} {s : State} (hfmt : r.fmt = 0) (hf : MoveFields true false r) (hctl : badCtl [0, 1] r.ctl = false)
    (hports : hasPorts s.cur (portSet [0, 1] r.ctl) = true) (ha : (portTok s.cur 0).null = true)
    (hb : anyNull s.cur ((portSet [0, 1] r.ctl).filter (· != 0)) = false) :
    exec (.steer r) s = .next (if r.ctl.nullpass then sendAll s s.cur (steerNull r s.cur) else s) := by
  simp only [exec_steer, execSteer, hports, badMove_of hfmt hf, hctl, ha, hb, Bool.not_true, Bool.not_false, Bool.or_self,
    Bool.and_self, Bool.false_eq_true, if_false, if_true]

theorem emits_iff {code : BitVec 2} {cond : Bool} : emits code cond = true ↔ code = 0 ∨ (code = 1 ∧ cond) ∨ (code = 2 ∧ ¬ cond) := by
  cases cond <;> simp [emits]

theorem steerFollowsItsBoolean : SteerFollowsItsBoolean := by
  intro r s hfmt hf hctl hports c a yes
  refine ⟨fun hnull hpred => steer_sends hfmt hf ⟨hports, hctl, hnull, hpred⟩, fun ha hb => ⟨fun hpass => ?_, fun hpass => ?_⟩⟩
  · rw [steer_null hfmt hf hctl hports ha hb, hpass]; rfl
  · have hgo : ∀ code : BitVec 2, (emits code (steerCond r s.cur) || code == 3 || opx r) = true ↔
        (code = 0 ∨ (code = 1 ∧ yes) ∨ (code = 2 ∧ ¬ yes) ∨ code = 3 ∨ opx r) := by
      intro code
      rw [Bool.or_eq_true, Bool.or_eq_true, emits_iff, beq_iff_eq, or_assoc, or_assoc, or_assoc]
      rfl
    intro go
    rw [steer_null hfmt hf hctl hports ha hb, hpass, if_pos rfl]
    simp only [steerNull, go, hgo]
    rfl

theorem mergePort_eq (r : RecN) (c : Cur) : mergePort r c = if laneN (lanesP r c 2) 0 ≠ 0 then 0 else 1 := by
  simp only [mergePort, mergeSel, bne_iff_ne]

theorem mergeSelectsOnePort : MergeSelectsOnePort := by
  intro r s hfmt hf hctl c k t hports hsel ht
  have hk : mergePort r s.cur = k := mergePort_eq r s.cur
  have hneeds : hasPorts s.cur (mergePorts r s.cur) = true := by
    rw [hasPorts, List.all_eq_true]
    intro q hq
    obtain ⟨hq, hneed⟩ := List.mem_filter.1 hq
    rw [hk] at hneed
    refine hports q hq ?_
    simp only [Bool.or_eq_true, Bool.and_eq_true, beq_iff_eq] at hneed
    tauto
  simp only [exec_merge, execMerge, hneeds, badMove_of hfmt hf, hctl, hk, Bool.not_true, Bool.or_self, Bool.false_eq_true, if_false]
  rw [if_neg (by rw [hsel]; decide), if_neg (by rw [ht]; decide)]
  rfl

/-- Settles O20: the branches of STEER and MERGE. -/
theorem steerAndMerge : Obligations.SteerAndMerge := ⟨steerFollowsItsBoolean, mergeSelectsOnePort⟩

end Sys2Proof.Proofs
end

section
/-!
PROOF. Tags and their fields (02 R35, 08 R181); ENTER, WAVE, LEAVE, TAGGET, TAGSET (09 R198, R203).
-/
namespace Sys2Proof.Proofs
open Sys2Proof.Machine Sys2Proof.Safety Sys2Proof.Claims

/-! ## Where the levels of a layout lie -/

/-- Bits of the levels before level `j`. -/
theorem levelLo_eq (lay : List Nat) (j : Nat) : levelLo lay j = 52 - (lay.take (j + 1)).sum := by
  rw [levelLo, ← List.sum_eq_foldl]

theorem take_sum_le (lay : List Nat) (j : Nat) : (lay.take j).sum ≤ lay.sum := by
  conv_rhs => rw [← List.take_append_drop j lay, List.sum_append]
  omega

theorem take_sum_succ {lay : List Nat} {j : Nat} (h : j < lay.length) :
    (lay.take (j + 1)).sum = (lay.take j).sum + levelWidth lay j := by
  rw [List.take_add_one, List.getElem?_eq_getElem h, levelWidth, List.getD_eq_getElem _ _ h, List.sum_append]
  simp

/-- A level ends below the colour, and where the levels before it begin. -/
theorem levelLo_add_width {lay : List Nat} {j : Nat} (hsum : lay.sum ≤ 52) (h : j < lay.length) :
    levelLo lay j + levelWidth lay j = 52 - (lay.take j).sum := by
  have hle := take_sum_le lay (j + 1)
  have hsucc := take_sum_succ h
  rw [levelLo_eq]
  omega

theorem take_sum_mono (lay : List Nat) {j k : Nat} (h : j ≤ k) : (lay.take j).sum ≤ (lay.take k).sum := by
  have := take_sum_le (lay.take k) j
  rwa [List.take_take, min_eq_left h] at this

/-- Two levels of a layout share no bit. -/
theorem levels_disjoint {lay : List Nat} {j k : Nat} (hsum : lay.sum ≤ 52) (hj : j < lay.length) (hk : k < lay.length) (hne : k ≠ j) :
    levelLo lay k + levelWidth lay k ≤ levelLo lay j ∨ levelLo lay j + levelWidth lay j ≤ levelLo lay k := by
  rcases Nat.lt_or_gt_of_ne hne with h | h
  · have := take_sum_mono lay (show k + 1 ≤ j from h)
    right
    rw [levelLo_add_width hsum hj, levelLo_eq]
    omega
  · have := take_sum_mono lay (show j + 1 ≤ k from h)
    left
    rw [levelLo_add_width hsum hk, levelLo_eq]
    omega

/-! ## Bits of a field -/

theorem testBit_fld (lay : List Nat) (t : Word64) (j i : Nat) :
    (fld lay t j).testBit i = (decide (i < levelWidth lay j) && t.toNat.testBit (levelLo lay j + i)) := by
  rw [fld, Nat.testBit_mod_two_pow, Nat.testBit_div_two_pow, add_comm i]

theorem testBit_colourOf (t : Word64) (i : Nat) : (colourOf t).testBit i = t.toNat.testBit (52 + i) := by
  rw [colourOf, bits, Nat.testBit_mod_two_pow, Nat.testBit_div_two_pow, add_comm i]
  by_cases h : i < 63 + 1 - 52
  · simp [h]
  · rw [decide_eq_false h, Bool.false_and, BitVec.testBit_toNat, BitVec.getLsbD_of_ge _ _ (by omega)]

/-- `setfld` writes the bits of its level and no other. -/
theorem testBit_setfld {lay : List Nat} {j : Nat} (hsum : lay.sum ≤ 52) (hj : j < lay.length) (t : Word64) (v i : Nat) :
    (setfld lay t j v).toNat.testBit i =
      if i < levelLo lay j then t.toNat.testBit i
      else if i < levelLo lay j + levelWidth lay j then v.testBit (i - levelLo lay j) else t.toNat.testBit i := by
  have htop := levelLo_add_width hsum hj
  simp only [setfld, fld]
  rw [insertField_eq, BitVec.toNat_ofNat, Nat.testBit_mod_two_pow, testBit_insert]
  by_cases h : i < 64
  · rw [decide_eq_true h, Bool.true_and]
  · rw [decide_eq_false h, Bool.false_and, if_neg (by omega), if_neg (by omega), BitVec.testBit_toNat, BitVec.getLsbD_of_ge _ _ (by omega)]

/-- 02 R35, 08 R181: a field is read back, and only it is written. -/
theorem tagFieldsAreIndependent : TagFieldsAreIndependent := by
  intro lay t j v hsum hj
  have htop := levelLo_add_width hsum hj
  refine ⟨?_, ?_, fun k hk hne => ?_, ?_⟩
  · apply Nat.eq_of_testBit_eq
    intro i
    rw [testBit_fld, testBit_setfld hsum hj, Nat.testBit_mod_two_pow, if_neg (by omega), Nat.add_sub_cancel_left]
    by_cases h : i < levelWidth lay j
    · rw [if_pos (by omega)]
    · rw [decide_eq_false h, Bool.false_and, Bool.false_and]
  · apply Nat.eq_of_testBit_eq
    intro i
    rw [testBit_colourOf, testBit_colourOf, testBit_setfld hsum hj, if_neg (by omega), if_neg (by omega)]
  · apply Nat.eq_of_testBit_eq
    intro i
    rw [testBit_fld, testBit_fld, testBit_setfld hsum hj]
    by_cases h : i < levelWidth lay k
    · rcases levels_disjoint hsum hj hk hne with hd | hd
      · rw [if_pos (by omega)]
      · rw [if_neg (by omega), if_neg (by omega)]
    · rw [decide_eq_false h, Bool.false_and, Bool.false_and]
  · apply BitVec.eq_of_toNat_eq
    apply Nat.eq_of_testBit_eq
    intro i
    rw [testBit_setfld hsum hj, testBit_fld]
    split
    · rfl
    · split
      · rw [decide_eq_true (by omega), Bool.true_and]; congr 1; omega
      · rfl

/-! ## ENTER, WAVE, LEAVE (09 R198) -/

theorem badLevel_eq_false {s : State} {r : RecN} : badLevel s r = false ↔ LevelOk s r := by
  simp [badLevel]

theorem retag_eq_moved (r : RecN) (c : Cur) (tag : Word64) : retag r c tag = moved r.ctl c tag (portTok c 0) := rfl

theorem levelsEnterWaveLeave : LevelsEnterWaveLeave := by
  intro r s hfmt hf hlevel hm c a lay j zero
  have hmove := badMove_of hfmt hf
  have hlev := badLevel_eq_false.2 hlevel
  refine ⟨fun hlit hwin hlow => ?_, fun hlit => ⟨?_, ?_⟩⟩
  · have hok : (badMove false true r || badLevel s r || decide (2 ^ (levelWidth lay (levelOf r) - 1) < r.lit.toNat % 65536) ||
        r.lit.toNat / 65536 != 0 || r.ctl.lituse != 0) = false := by
      rw [hmove, hlev, hlit, Nat.mod_eq_of_lt hlow, Nat.div_eq_of_lt hlow, decide_eq_false (by simpa using hwin)]; rfl
    have hzero : r.lit.toNat = 0 ↔ r.lit = 0 := by rw [← BitVec.toNat_inj]; rfl
    rw [exec_enter, execEnter, moveFire_moves hm hok]
    simp only [retag_eq_moved, Nat.mod_eq_of_lt hlow, hzero, word1, BitVec.ofNat_toNat, BitVec.setWidth_eq]
    rfl
  · have hok : (badMove false true r || badLevel s r || r.lit != 0) = false := by rw [hmove, hlev, hlit]; rfl
    rw [exec_wave, execWave, moveFire_moves hm hok]
    rfl
  · have hok : (badMove false true r || badLevel s r || r.lit != 0) = false := by rw [hmove, hlev, hlit]; rfl
    rw [exec_leave, execLeave, moveFire_moves hm hok]
    rfl

/-! ## TAGGET and TAGSET (09 R203) -/

theorem wordsLanes_word (x : Word64) : wordsLanes [x.toNat] = [x.setWidth 32, (x >>> 32).setWidth 32] := by
  simp only [wordsLanes, List.flatMap_cons, List.flatMap_nil, List.append_nil]
  congr 2
  apply BitVec.eq_of_toNat_eq
  rw [BitVec.toNat_ofNat, BitVec.toNat_setWidth, BitVec.toNat_ushiftRight, Nat.shiftRight_eq_div_pow]

/-- A tag with other stack bits keeps its colour field as it is. -/
theorem colour_append (t : Word64) (x : Nat) :
    BitVec.ofNat 64 (put (colourOf t) 52 + x % 2 ^ 52) = t.extractLsb' 52 12 ++ (BitVec.ofNat 64 x).setWidth 52 := by
  apply BitVec.eq_of_toNat_eq
  have ht := t.isLt
  rw [BitVec.toNat_append, BitVec.extractLsb'_toNat, BitVec.toNat_setWidth, BitVec.toNat_ofNat, BitVec.toNat_ofNat,
    Nat.shiftRight_eq_div_pow, colourOf, put, bits, ← Nat.shiftLeft_add_eq_or_of_lt (by omega), Nat.shiftLeft_eq]
  omega

theorem tagGetAndSet : TagGetAndSet := by
  intro r s hfmt hf hlevel c a lay m
  have h1 := bad1_eq_false.2 hf
  have hmove := badMove_of hfmt hf
  refine ⟨fun ht => ?_, fun hm => ⟨fun hopx => ?_, fun hopx => ?_⟩⟩
  · have hok : (bad1 true (opx r) r || r.fmt != 0 || (opx r && badLevel s r)) = false := by
      rw [h1, hfmt]
      by_cases hopx : opx r = true
      · rw [hopx, badLevel_eq_false.2 (hlevel hopx)]; rfl
      · rw [Bool.eq_false_iff.2 hopx]; rfl
    rw [exec_tagget, execTagget, fire, fireWith_takes ht hok]
    refine ⟨fun hopx => ?_, fun hopx => ?_⟩
    · simp only [hopx, Bool.false_eq_true, if_false, wordsLanes_word]
      rfl
    · simp only [hopx, if_true]
      rfl
  · have hok : (badMove true (opx r) r || (opx r && badLevel s r)) = false := by rw [hmove, hopx]; rfl
    rw [exec_tagset, execTagset, moveFire_moves hm hok]
    simp only [hopx, Bool.false_eq_true, if_false, colour_append]
    rfl
  · have hok : (badMove true (opx r) r || (opx r && badLevel s r)) = false := by
      rw [hmove, hopx, badLevel_eq_false.2 (hlevel hopx)]; rfl
    rw [exec_tagset, execTagset, moveFire_moves hm hok]
    simp only [hopx, if_true]
    rfl

/-- Settles O21: the tags that the records of levels and tags send under. -/
theorem tagRecords : Obligations.TagRecords := ⟨levelsEnterWaveLeave, tagFieldsAreIndependent, tagGetAndSet⟩

end Sys2Proof.Proofs
end

section
/-!
PROOF. Windows and runs: THROTTLE, REPEAT, RANGE and the generators (09 R199 to R204).
-/
namespace Sys2Proof.Proofs
open Sys2Proof.Machine Sys2Proof.Safety Sys2Proof.Claims

/-! ## THROTTLE (09 R199, R200) -/

theorem idxOf_eq_none {α : Type} {p : α → Bool} {l : List α} (h : l.find? p = none) : idxOf p l = none := by
  induction l with
  | nil => rfl
  | cons x l ih =>
    rw [List.find?_cons] at h
    cases hx : p x with
    | true => rw [hx] at h; cases h
    | false => rw [hx] at h; rw [idxOf, hx, ih h]; rfl

theorem throttleSpendsACredit : ThrottleSpendsACredit := by
  intro r s hfmt hf hlevel hctl hpred hports c a n base mine
  have hok : (badMove false true r || badLevel s r || badCtl [0, 1] r.ctl || r.ctl.pred) = false := by
    rw [badMove_of hfmt hf, badLevel_eq_false.2 hlevel, hctl, hpred]; rfl
  have hadmit : exec (.throttleAdmit r) s =
      match idxOf mine n.thr with
      | some i =>
        match n.thr[i]? with
        | some e => .next (throttleFire r s n i e)
        | none => .next s
      | none => .next (setNib s c.p c.site
          { n with groups := { plane := c.plane, node := c.node, tag := keyTag s c.p c.tag, ops := c.ops } :: n.groups }) := by
    simp only [exec_throttleAdmit, execThrottleAdmit, hports, hok, Bool.not_true, Bool.false_eq_true, if_false]
    rfl
  refine ⟨fun hnone => ?_, fun i e hi he => ?_⟩
  · rw [hadmit, idxOf_eq_none hnone]
  · rw [hadmit, hi]
    simp only [he]
    refine ⟨fun ha => ?_, fun ha hpass => ?_, fun ha hpass => ?_⟩
    · rw [throttleFire, if_neg (by rw [show (portTok s.cur 0).null = false from ha]; decide)]; rfl
    · rw [throttleFire, if_pos ha, if_neg (by rw [hpass]; decide)]; rfl
    · rw [throttleFire, if_pos ha, if_pos hpass]; rfl

theorem planeAt_of_nib {s : State} {p : Nat} {t : Token} (h : t.site.toNat < 240) : planeAt s p t = t.plane.toNat := by
  rw [planeAt, if_neg]
  intro h'
  rw [h'] at h
  exact absurd h (by decide)

theorem throttleCreditOpensOrAdds : ThrottleCreditOpensOrAdds := by
  intro s f hk hqueued hsnap hcredit hbehind hlate hnib hsite hshut hadmits hruns site k w hport s1 n base mine v
  have hplane : planeAt s f.p f.tok = k := planeAt_of_nib hsite
  have h240 : ¬ f.tok.site.toNat = 240 := by omega
  have hport' : (portsOf (recAt s f.p f.tok.site.toNat f.tok.plane.toNat f.tok.node.toNat)).contains 1 = true := hport
  simp only [exec_throttleCredit, execThrottleCredit, hk, hqueued, hsnap, hcredit, hbehind, hlate, hplane, k, hshut, hadmits, hruns, hport',
    Bool.or_self, Bool.not_true, Bool.false_eq_true, if_false, and_false]
  refine ⟨fun hidx hrow => ?_, fun i e hidx he => ?_⟩
  · split
    · next i' hi' => exact absurd (hi'.symm.trans hidx) (by simp)
    · rw [if_neg (by rw [show rowFree s f.p f.tok.site.toNat f.tok.plane.toNat f.tok.tag = true from hrow]; decide)]
  · split
    · next i' hi' =>
      obtain rfl : i' = i := Option.some.inj (hi'.symm.trans hidx)
      simp only [show (nibAt (noteTook { s with transit := dropAt s.transit s.sel.k } f) f.p f.tok.site.toNat).thr[i']? = some e from he]
      rfl
    · next hi' => exact absurd (hi'.symm.trans hidx) (by simp)

/-! ## REPEAT (09 R202) -/

theorem repeatSendsItsInvariant : RepeatSendsItsInvariant := by
  intro r s hfmt hf hlevel hm c a b t
  obtain ⟨hports, hctl, hnull, hpred⟩ := hm
  simp only [formN] at hports hctl hnull hpred
  simp only [exec_repeat, execRepeat, hports, badMove_of hfmt hf, badLevel_eq_false.2 hlevel, hctl, hnull, hpred, Bool.not_true,
    Bool.or_self, Bool.false_eq_true, if_false]
  rfl

/-! ## RANGE and the generators (09 R204) -/

theorem rangeStartsAGenerator : RangeStartsAGenerator := by
  intro r s hfmt hf hlevel ht c lay j count
  have hok : (bad1 false true r || decide (10 < r.fmt.toNat) || badLevel s r) = false := by
    rw [bad1_eq_false.2 hf, badLevel_eq_false.2 hlevel, decide_eq_false (by omega)]; rfl
  have hrange : exec (.range r) s = .next (rangeFire r s s.cur) := by rw [exec_range, execRange, fireWith_takes ht hok]
  refine ⟨fun hbig => ?_, fun hzero => ?_, fun hpos hle => ?_⟩
  · rw [hrange, rangeFire, if_pos hbig]
  · rw [hrange, rangeFire, if_neg (show ¬ 2 ^ levelWidth lay j < count by rw [hzero]; exact Nat.not_lt_zero _), if_pos hzero]
  · rw [hrange, rangeFire, if_neg (show ¬ 2 ^ levelWidth lay j < count by omega), if_neg (show ¬ count = 0 by omega)]
    rfl

/-- The first lane of an index as an element of the type. -/
theorem lanesOf_take_one (f : BitVec 4) (i : Nat) : (lanesOf f (lanesPer f) (fun _ => i)).take 1 = [BitVec.ofNat 32 (i % 2 ^ elemBits f)] := by
  by_cases h : elemBits f = 64
  · simp only [lanesOf, lanesPer, h, if_true]
    simp only [List.range_succ, List.range_zero, List.nil_append, List.map_cons, List.map_nil, List.singleton_append,
      List.take_succ_cons, List.take_zero]
    congr 1
    apply BitVec.eq_of_toNat_eq
    simp
  · simp [lanesOf, lanesPer, h]

theorem genVal_range {s : State} {p : Nat} {g : Gen} {fmt : BitVec 4} {count : Nat} (h : g.kind = .range fmt count) :
    genVal s p g = ({ tag := setfld (layoutOf s p g.plane) g.tag g.level g.next, ty := fmt, eor := g.next + 1 == count
                      lanes := [BitVec.ofNat 32 (g.next % 2 ^ elemBits fmt)] }, g.poison) := by
  simp only [genVal, genCount, h, lanesOf_take_one]

theorem mem_of_mem_dropAt {α : Type} {l : List α} {i : Nat} {x : α} (h : x ∈ dropAt l i) : x ∈ l := by
  rw [dropAt] at h
  rcases List.mem_append.1 h with h | h
  · exact List.mem_of_mem_take h
  · exact List.mem_of_mem_drop h

theorem generatorSendsTokenByToken : GeneratorSendsTokenByToken := by
  intro s g fmt count p site n hg hkind hlast hroom hslots hgate c i v xs
  refine ⟨match idxOf (genReady g) n.ready with | some i => dropAt n.ready i | none => n.ready, fun m hm => ?_, ?_⟩
  · split at hm
    · exact mem_of_mem_dropAt hm
    · exact hm
  · have hnow : ¬ (s.cycle ≤ g.last ∨
        8 < queueUsed s s.sel.p s.sel.site + ((if g.d0.site = 255 then 0 else 1) + (if g.d1.site = 255 then 0 else 1)) ∨
        gatedCtx s s.sel.p s.sel.site (matchCtx s s.sel.p g.plane g.tag) = true ∨ (!genSlots s s.sel.p s.sel.site g) = true) := by
      rintro (h | h | h | h)
      · omega
      · exact absurd hroom (Nat.not_le.2 h)
      · rw [show gatedCtx s s.sel.p s.sel.site _ = false from hgate] at h; cases h
      · rw [show genSlots s s.sel.p s.sel.site g = true from hslots] at h; cases h
    have hcount : genCount g = count := by rw [genCount, hkind]
    simp only [exec_generatorEmit, execGeneratorEmit, show (nibAt s s.sel.p s.sel.site).gens[s.sel.k]? = some g from hg, if_neg hnow,
      genVal_range hkind, hcount]
    rfl

/-- Settles O22: each branch of THROTTLE, REPEAT, RANGE and of the generators. -/
theorem windowsAndRuns : Obligations.WindowsAndRuns :=
  ⟨throttleSpendsACredit, throttleCreditOpensOrAdds, repeatSendsItsInvariant, rangeStartsAGenerator, generatorSendsTokenByToken⟩

end Sys2Proof.Proofs
end

section
/-!
PROOF. What reaches a nib: operands, matches of frame stores, scale tokens, share windows, delayed results (02 R38 to R46; 03 R68;
10 R212).
-/
namespace Sys2Proof.Proofs
open Sys2Proof.Machine Sys2Proof.Safety Sys2Proof.Claims

/-! ## What noting an arrival leaves as it is -/

theorem noteTook_of_nib {s : State} {f : Flight} (h : isNib f.tok.site.toNat = true) :
    noteTook s f = setNib s f.p f.tok.site.toNat { nibAt s f.p f.tok.site.toNat with
      took := (nibAt s f.p f.tok.site.toNat).took ++ [((sideFree (nibAt s f.p f.tok.site.toNat) f.src f.tok.site.toNat).getD 4,
        planeAt s f.p f.tok, f.tok.node.toNat, f.tok.port.toNat)] } := by
  simp only [noteTook, if_pos (Or.inl h)]

theorem isNib_lt {site : Nat} (h : isNib site = true) : site < 240 := by
  simp only [isNib, Bool.and_eq_true, decide_eq_true_eq] at h
  exact h.1

theorem isNib_ne {site k : Nat} (h : isNib site = true) (hk : 240 ≤ k) : site ≠ k := by
  have := isNib_lt h
  omega

/-- A token that comes in is noted; the records of the nib stay. -/
theorem recAt_noteTook {s : State} {f : Flight} (h : isNib f.tok.site.toNat = true) (plane node : Nat) :
    recAt (noteTook s f) f.p f.tok.site.toNat plane node = recAt s f.p f.tok.site.toNat plane node := by
  have h240 := isNib_ne h (le_refl 240)
  have hne : ({ nibAt s f.p f.tok.site.toNat with
      took := (nibAt s f.p f.tok.site.toNat).took ++ [((sideFree (nibAt s f.p f.tok.site.toNat) f.src f.tok.site.toNat).getD 4,
        planeAt s f.p f.tok, f.tok.node.toNat, f.tok.port.toNat)] } : Nib) ≠ {} := by
    intro h'
    simpa using congrArg Nib.took h'
  rw [recAt, recAt, if_neg h240, if_neg h240, noteTook_of_nib h, nibAt_setNib _ _ _ hne]

theorem admits_noteTook {s : State} {f : Flight} (h : isNib f.tok.site.toNat = true) (p : Nat) (t : Word64) :
    admits (noteTook s f) p t = admits s p t := by rw [noteTook_of_nib h]; rfl

theorem planeRuns_noteTook {s : State} {f : Flight} (h : isNib f.tok.site.toNat = true) (p k : Nat) :
    planeRuns (noteTook s f) p k = planeRuns s p k := by rw [noteTook_of_nib h]; rfl

theorem tagged_noteTook {s : State} {f : Flight} (h : isNib f.tok.site.toNat = true) (p : Nat) :
    tagged (noteTook s f) p = tagged s p := by rw [noteTook_of_nib h]; rfl

theorem keyed_noteTook {s : State} {f : Flight} (h : isNib f.tok.site.toNat = true) (p : Nat) (t : Token) :
    keyed (noteTook s f) p t = keyed s p t := by
  funext g
  rw [keyed, keyed, keyTag, keyTag, tagged_noteTook h]

theorem cycle_noteTook {s : State} {f : Flight} (h : isNib f.tok.site.toNat = true) : (noteTook s f).cycle = s.cycle := by
  rw [noteTook_of_nib h]; rfl

/-! ## Arrival of an operand (02 R38, R41; 15 R320, R327) -/

theorem place_of_noPort {s : State} {p site : Nat} {t : Token}
    (h : (portsOf (recAt s p site t.plane.toNat t.node.toNat)).contains t.port.toNat = false) :
    place s p site t = some (discardTok s p site t) := by
  simp only [place, h, Bool.not_false, if_true]

/-- The operand of a record with the one port a joins the ready list at once. -/
theorem place_single {s : State} {p site : Nat} {t : Token} (hports : portsOf (recAt s p site t.plane.toNat t.node.toNat) = [0])
    (hport : t.port = 0) (hentry : entryOp (Machine.opOf (recAt s p site t.plane.toNat t.node.toNat)) = false)
    (hmerge : Machine.opOf (recAt s p site t.plane.toNat t.node.toNat) ≠ opMerge)
    (hscale : scaleOp (Machine.opOf (recAt s p site t.plane.toNat t.node.toNat)) = false)
    (hgroups : (nibAt s p site).groups.any (keyed s p t) = false) (hroom : readyRoom (nibAt s p site) t.plane.toNat = true) :
    place s p site t = some (setNib s p site (toReady s.cycle (nibAt s p site)
      { plane := t.plane.toNat, node := t.node.toNat, tag := t.tag, ops := [(0, t)] })) := by
  have hk : t.port.toNat = 0 := by rw [hport]; rfl
  have hone : mergeOne (recAt s p site t.plane.toNat t.node.toNat) = false := by simp [mergeOne, hmerge]
  have hidx : idxOf (fun g => keyed s p t g && !(g.ops.any (fun x => x.1 == 0))) (nibAt s p site).groups = none := by
    refine idxOf_eq_none (List.find?_eq_none.2 fun g hg => ?_)
    simp [Bool.eq_false_iff.2 (List.any_eq_false.1 hgroups g hg)]
  have hmeets : placeMatch s p (nibAt s p site) t (recAt s p site t.plane.toNat t.node.toNat) =
      some ([(0, t)], (nibAt s p site).groups) := by
    simp [placeMatch, hone, hk, hidx, completes, hports]
  have hneeds : scaleNeeds (Machine.opOf (recAt s p site t.plane.toNat t.node.toNat)) [(0, t)] = [] := by simp [scaleNeeds, hscale]
  have hplain : place s p site t = placePlain s p site t (recAt s p site t.plane.toNat t.node.toNat) := by
    simp [place, hports, hk, hentry]
  rw [hplain]
  simp only [placePlain, hmeets, hneeds, takeScales, hroom, if_true]
  rfl

theorem tokenArrivalAtANib : TokenArrivalAtANib := by
  intro s f hk hqueued hsnap heau hcredit hbehind hlate hshut hnib site k w s1 n
  have h240 := isNib_ne hnib (le_refl 240)
  have harrive : exec .tokenArrival s = match takeToken s1 f.p f.tok.site.toNat f.tok with
      | some s' => .next s'
      | none => notNow := by
    simp only [exec_tokenArrival, execTokenArrival, hk, hqueued, hsnap, heau, hcredit, hbehind, hlate, hshut, Bool.or_self,
      Bool.false_eq_true, if_false]
    rfl
  have hadm : ∀ t, admits s1 f.p t = admits s f.p t := admits_noteTook hnib f.p
  have hrun : ∀ q, planeRuns s1 f.p q = planeRuns s f.p q := planeRuns_noteTook hnib f.p
  have hrec : recAt s1 f.p f.tok.site.toNat f.tok.plane.toNat f.tok.node.toNat = w := recAt_noteTook hnib _ _
  have htake : takeToken s1 f.p f.tok.site.toNat f.tok =
      if admits s f.p f.tok.tag = false then some (postTok s1 f.p site cTAG f.tok)
      else if planeRuns s f.p k = false then some (discardTok s1 f.p site f.tok)
      else if marked n f.tok then holdTok s1 f.p site f.tok else place s1 f.p site f.tok := by
    simp only [takeToken, if_neg h240, hnib, hadm, hrun, Bool.not_true, Bool.false_eq_true, if_false, Bool.not_eq_true']
    rfl
  refine ⟨fun ha => ?_, fun ha hr => ?_, fun ha hr hmark => ⟨fun hport => ?_, fun hports hport hentry hmerge hscale htag hgroups hroom => ?_⟩⟩
  · rw [harrive, htake, if_pos ha]
  · rw [harrive, htake, if_neg (by rw [ha]; decide), if_pos hr]; rfl
  · rw [harrive, htake, if_neg (by rw [ha]; decide), if_neg (by rw [hr]; decide), if_neg (by rw [hmark]; decide)]
    rw [show place s1 f.p site f.tok = _ from place_of_noPort (by rw [hrec]; exact hport)]
    rfl
  · rw [harrive, htake, if_neg (by rw [ha]; decide), if_neg (by rw [hr]; decide), if_neg (by rw [hmark]; decide)]
    have hplace := place_single (s := s1) (p := f.p) (site := f.tok.site.toNat) (t := f.tok) (by rw [hrec]; exact hports) hport
      (by rw [hrec]; exact hentry) (by rw [hrec]; exact hmerge) (by rw [hrec]; exact hscale)
      (by rw [show keyed s1 f.p f.tok = keyed s f.p f.tok from keyed_noteTook hnib _ _]; exact hgroups) hroom
    rw [show place s1 f.p site f.tok = _ from hplace, show s1.cycle = s.cycle from cycle_noteTook hnib]


/-! ## Matches of frame stores and scale tokens (02 R42; 03 R68) -/

theorem frameMatchJoinsReadyList : FrameMatchJoinsReadyList := by
  intro s site m store got p x n hret hscales hroom x' gone
  simp only [exec_frameMatchReturn, execFrameMatchReturn, show (wellAt s s.sel.p s.sel.site).returns[s.sel.k]? = some (site, m) from hret,
    show takeScales m.plane m.node m.tag (scaleNeeds (Machine.opOf (recAt s s.sel.p site m.plane m.node)) m.ops)
      (nibAt s s.sel.p site).scales [] = some (store, got) from hscales,
    show readyRoom (nibAt s s.sel.p site) m.plane = true from hroom, Bool.not_true, Bool.false_eq_true, if_false, Bool.not_eq_true']
  rfl

/-- The tag that a scale token's payload names. -/
theorem payload_tag (x : Word64) : BitVec.ofNat 64 (x.toNat / 2 ^ 20 * 2 ^ 20) = x &&& 0xFFFFFFFFFFF00000 := by
  have hmask : ∀ i < 64, (0xFFFFFFFFFFF00000 : Word64).getLsbD i = decide (20 ≤ i) := by decide
  apply BitVec.eq_of_getLsbD_eq
  intro i hi
  rw [BitVec.getLsbD_and, hmask i hi, BitVec.getLsbD_ofNat, Nat.testBit_mul_two_pow, Nat.testBit_div_two_pow]
  by_cases h : 20 ≤ i
  · simp [hi, h, BitVec.testBit_toNat]
  · simp [h]

theorem scaleTokensAreStored : ScaleTokensAreStored := by
  intro s f hk s1 x
  refine ⟨fun hport hroom => ?_, fun hnib hadm hrun hop hroom => ?_⟩
  · simp only [exec_scaleTokenArrival, execScaleTokenArrival, hk, show f.tok.site = 245 from hport, if_true]
    exact if_pos hroom
  · have h240 : f.tok.site ≠ 240 := isNib_ne hnib (le_refl 240)
    have h245 : f.tok.site ≠ 245 := isNib_ne hnib (by decide)
    simp only [exec_scaleTokenArrival, execScaleTokenArrival, hk, if_neg h245, h240, false_and, payload_tag,
      show isNib f.tok.site = true from hnib, show admits s f.p (f.tok.payload &&& 0xFFFFFFFFFFF00000) = true from hadm,
      show planeRuns s f.p f.tok.plane = true from hrun, show scaleOp (Machine.opOf (recAt s f.p f.tok.site f.tok.plane f.tok.node)) = true from hop,
      Bool.not_true, Bool.false_eq_true, and_false, if_false]
    exact if_pos hroom

/-! ## Share windows (02 R46) -/

/-- A table filled at the keys below `m` with the values of `g`. -/
theorem tgetD_foldl_tsetD {α : Type} [DecidableEq α] (g : Nat → α) (d : α) (m : Nat) :
    keysRise ((List.range m).foldl (fun t key => tsetD t key (g key) d) ([] : Tab α)) = true ∧
    ∀ k, tgetD ((List.range m).foldl (fun t key => tsetD t key (g key) d) ([] : Tab α)) k d = if k < m then g k else d := by
  induction m with
  | zero => exact ⟨rfl, fun k => rfl⟩
  | succ m ih =>
    obtain ⟨hkeys, hget⟩ := ih
    simp only [List.range_succ, List.foldl_append, List.foldl_cons, List.foldl_nil]
    refine ⟨keysRise_tsetD _ _ _ _ hkeys, fun k => ?_⟩
    by_cases hk : k = m
    · rw [hk, tgetD_tsetD _ _ _ _ hkeys, if_pos (by omega)]
    · rw [tgetD_tsetD_ne _ _ _ hk, hget]
      by_cases h : k < m
      · rw [if_pos h, if_pos (by omega)]
      · rw [if_neg h, if_neg (by omega)]

/-- The shares of a window: 16 for a plane without row-cycles. -/
def windowShares (n : Nib) : Tab Nat :=
  (List.range 128).foldl (fun t key =>
    tsetD t key (if occPlane n (key / 32) = 0 then 0 else 16 * tgetD n.occ key 0 / occPlane n (key / 32) + 1) 0) []

theorem shareOf_windowShares {n n' : Nib} (h : n'.share = windowShares n) {k node : Nat} (hnode : node < 32) (hk : k < 4) :
    shareOf n' (32 * k + node) =
      if occPlane n k = 0 then 16 else 16 * tgetD n.occ (32 * k + node) 0 / occPlane n k := by
  have hplane : (32 * k + node) / 32 = k := by omega
  rw [shareOf, h, windowShares, (tgetD_foldl_tsetD _ 0 128).2, if_pos (by omega), hplane]
  by_cases h0 : occPlane n k = 0
  · rw [if_pos h0, if_pos h0]
  · rw [if_neg h0, if_neg h0]

theorem shareWindowStarts : ShareWindowStarts := by
  intro s hnib hstart hmod n
  have hnow : ¬ (s.cycle ≤ (panelAt s s.sel.p).startCycle ∨ (s.cycle - (panelAt s s.sel.p).startCycle) % 256 ≠ 0 ∨
      (!isNib s.sel.site) = true) := by
    rw [hmod, hnib]
    simpa using hstart
  refine ⟨{ n with issued := [], share := windowShares n, occ := [] }, ?_, rfl, fun k node hnode hk => ?_⟩
  · simp only [exec_shareWindowStart, execShareWindowStart, if_neg hnow]
    rfl
  · exact shareOf_windowShares rfl hnode hk

/-! ## Delayed results (10 R212) -/

theorem delayedResultsAreDelivered : DelayedResultsAreDelivered := by
  intro s d p site n hd hdue hfirst c
  have hnow : ¬ (s.cycle < d.due ∨ ((nibAt s s.sel.p s.sel.site).delayed.take s.sel.k).any
      (fun e => e.plane == d.plane && e.node == d.node) = true) := by
    rintro (h | h)
    · omega
    · exact absurd (h.symm.trans hfirst) (by decide)
  simp only [exec_delayedResultDelivery, execDelayedResultDelivery,
    show (nibAt s s.sel.p s.sel.site).delayed[s.sel.k]? = some d from hd, if_neg hnow]
  rfl

/-- Settles O23: what each of the arrivals at a nib does. -/
theorem tokensReachTheirSites : Obligations.TokensReachTheirSites :=
  ⟨tokenArrivalAtANib, frameMatchJoinsReadyList, scaleTokensAreStored, shareWindowStarts, delayedResultsAreDelivered⟩

end Sys2Proof.Proofs
end

section
/-!
PROOF. Class 2: the lane-wise results of the floating-point records and the special functions (10 R211 to R221).
-/
namespace Sys2Proof.Proofs
open Sys2Proof.Machine Sys2Proof.Safety Sys2Proof.Claims

/-! ## The shared firings -/

theorem fltRnd_takes {r : RecN} {s : State} {base : List Nat} {g : Nat → FV → FV → FV → FR} (hf : FltFields 6 r)
    (ht : Takes s (formN r) r.fmt base false) :
    fltRnd r base g s = .next (emitRes s s.cur (formN r) r.fmt (fltOp r s r.fmt g s.cur)) := by
  rw [fltRnd, fire, fireWith_takes ht (badRnd_eq_false.2 hf)]

theorem fltMinmax_takes {r : RecN} {s : State} {mx : Bool} (hf : FltFields 2 r) (ht : Takes s (formN r) r.fmt [0, 1] false) :
    fltMinmax r mx s = .next (emitRes s s.cur (formN r) r.fmt (fltRes s.cur r.fmt (fltLanes (lanePred r.ctl s.cur)
      (lanesP r s.cur 0) (widthA s.cur) (fun l =>
        fminmax r.fmt mx (r.hi == 1) (elem r.fmt (lanesP r s.cur 0) l) (elem r.fmt (lanesP r s.cur 1) l))))) := by
  rw [fltMinmax, fire, fireWith_takes ht (badOpx_eq_false.2 hf)]

theorem fltSpecial_takes {r : RecN} {s : State} {base : List Nat} {lat : Nat} {g : Nat → FV → FV → FR} (hfmt : r.fmt = 10) (hhi : r.hi = 0)
    (hcf : r.cf = 0) (ht : Takes s (formN r) r.fmt base false) :
    fltSpecial r base lat g s = .next (delayRes (fun _ => lat) s s.cur (formN r) r.fmt
      (fltOp r s r.fmt (fun z a b _ => g z a b) s.cur)) := by
  rw [fltSpecial, fireLate_takes ht (badSpecial_eq_false.2 ⟨hfmt, hhi, hcf⟩)]

/-! ## Records of latency 1 -/

/-- FSCALE reads its shift as a signed word. -/
theorem fscale_shift (p : Prop) [Decidable p] (lit x : BitVec 32) :
    sgn 32 (if p then lit.toNat else x.toNat) = if p then lit.toInt else x.toInt := by
  split <;> exact sgn_toNat (by decide) _

theorem floatRecordsComplete : FloatRecordsComplete := by
  intro r s c f z out v bits_
  refine ⟨fun hf ht => ⟨?_, ?_, ?_, ?_⟩, fun hf ht => ?_, fun hf ht => ?_, fun hf ht => ⟨?_, ?_⟩, fun hf ht => ?_, fun hf ht => ?_,
    fun hf ht => ?_⟩
  · exact (exec_fadd r s).trans (fltRnd_takes hf ht)
  · exact (exec_fsub r s).trans (fltRnd_takes hf ht)
  · exact (exec_fmul r s).trans (fltRnd_takes hf ht)
  · rw [exec_fscale, execFscale, fire, fireWith_takes ht (badRnd_eq_false.2 hf)]
    simp only [laneN, fscale_shift]
    rfl
  · exact (exec_ffma r s).trans (fltRnd_takes hf ht)
  · exact (exec_fround r s).trans (fltRnd_takes hf ht)
  · exact (exec_fmin r s).trans (fltMinmax_takes hf ht)
  · exact (exec_fmax r s).trans (fltMinmax_takes hf ht)
  · have ht6 : Takes s (formN r) 6 [0, 1] false := by
      obtain ⟨h1, h2, -, h4, h5, h6⟩ := ht
      exact ⟨h1, h2, .inr rfl, h4, h5, h6⟩
    rw [exec_fcmp, execFcmp, fire, fireWith_takes ht6 (badOpx_eq_false.2 hf)]
    rfl
  · have ht6 : Takes s (formN r) 6 [0] false := by
      obtain ⟨h1, h2, -, h4, h5, h6⟩ := ht
      exact ⟨h1, h2, .inr rfl, h4, h5, h6⟩
    rw [exec_fclass, execFclass, fire, fireWith_takes ht6 (badOpx_eq_false.2 hf)]
  · rw [exec_fsgn, execFsgn, fire, fireWith_takes ht (badOpx_eq_false.2 hf)]

/-! ## Special functions (03 R74; 10 R212, R219, R220) -/

theorem specialFunctionsComplete : SpecialFunctionsComplete := by
  intro r s hfmt hhi hcf c z v after
  have hspecial : ∀ {base : List Nat} {lat : Nat} {g : Nat → FV → FV → FR}, Takes s (formN r) r.fmt base false →
      fltSpecial r base lat g s = after lat (fun l => g (z l) (v 0 l) (v 1 l)) := by
    intro base lat g ht
    rw [fltSpecial_takes hfmt hhi hcf ht]
    simp only [fltOp, fltAt, hfmt, seedOf]
    rfl
  refine ⟨fun ht => ?_, fun ht => ⟨?_, ?_, ?_, ?_, ?_, ?_, ?_, ?_, ?_, ?_⟩⟩
  · exact (exec_fdiv r s).trans (hspecial ht)
  · exact (exec_fsqrt r s).trans (hspecial ht)
  · exact (exec_frcp r s).trans (hspecial ht)
  · exact (exec_frsq r s).trans (hspecial ht)
  · exact (exec_frcpa r s).trans (hspecial ht)
  · exact (exec_frsqa r s).trans (hspecial ht)
  · exact (exec_fexp2 r s).trans (hspecial ht)
  · exact (exec_flog2 r s).trans (hspecial ht)
  · exact (exec_fsinpi r s).trans (hspecial ht)
  · exact (exec_fcospi r s).trans (hspecial ht)
  · exact (exec_ftanh r s).trans (hspecial ht)

/-- Settles O24: the result of each class 2 record, lane by lane. -/
theorem floatRecords : Obligations.FloatRecords := ⟨floatRecordsComplete, specialFunctionsComplete⟩

end Sys2Proof.Proofs
end

section
/-!
PROOF. Rounding to a float type (03 R58, R61, R62, R75): the fields of a pattern, the bounds of a rounded significand, and what is read
back.
-/
namespace Sys2Proof.Proofs
open Sys2Proof.Machine Sys2Proof.Safety Sys2Proof.Claims

/-! ## The float types -/

/-- What the proofs use of a float type's widths and exponents. -/
theorem fltShape {f : BitVec 4} (h : isFloatTy f = true) :
    2 ≤ fltP f ∧ fltP f + 2 ≤ fltBits f ∧ fltMin f + (2 ^ (fltBits f - fltP f) : Nat) = fltMax f - fltP f + 4 := by
  revert f
  decide

/-- Pattern of sign, exponent field and fraction (03 R58). -/
def fltPattern (f : BitVec 4) (neg : Bool) (ex fr : Nat) : Nat := b2n neg * 2 ^ (fltBits f - 1) + ex * 2 ^ (fltP f - 1) + fr

section
variable {f : BitVec 4} (hf : isFloatTy f = true)
include hf

/-- The sign's weight is that of one more than the exponent field. -/
theorem sign_weight : 2 ^ (fltBits f - 1) = 2 ^ (fltBits f - fltP f) * 2 ^ (fltP f - 1) := by
  obtain ⟨hp, hb, -⟩ := fltShape hf
  rw [← pow_add]
  congr 1
  omega

theorem fltPattern_lt {neg : Bool} {ex fr : Nat} (hex : ex < 2 ^ (fltBits f - fltP f)) (hfr : fr < 2 ^ (fltP f - 1)) :
    fltPattern f neg ex fr < 2 ^ fltBits f := by
  obtain ⟨hp, hb, -⟩ := fltShape hf
  have hlow : ex * 2 ^ (fltP f - 1) + fr < 2 ^ (fltBits f - 1) := by
    have hmul := Nat.mul_le_mul_right (2 ^ (fltP f - 1)) (show ex + 1 ≤ 2 ^ (fltBits f - fltP f) from hex)
    rw [sign_weight hf]
    rw [add_mul] at hmul
    omega
  have hdouble : 2 ^ fltBits f = 2 * 2 ^ (fltBits f - 1) := by rw [← pow_succ']; congr 1; omega
  rw [fltPattern]
  cases neg <;> simp only [b2n, Bool.false_eq_true, if_false, if_true] <;> omega

/-- A pattern reads as its fields. -/
theorem fread_fltPattern {neg : Bool} {ex fr : Nat} (hex : ex < 2 ^ (fltBits f - fltP f)) (hfr : fr < 2 ^ (fltP f - 1)) :
    fread f (fltPattern f neg ex fr) =
      if ex = 2 ^ (fltBits f - fltP f) - 1 then
        if fr = 0 then .inf neg else .nan (!bit (fltPattern f neg ex fr) (fltP f - 1 - 1))
      else if ex = 0 then .fin { neg := neg, m := fr, e := fltMin f }
      else .fin { neg := neg, m := fr + 2 ^ (fltP f - 1), e := fltMin f + (ex - 1 : Nat) } := by
  obtain ⟨hp, hb, -⟩ := fltShape hf
  have hpos : 0 < 2 ^ (fltP f - 1) := by positivity
  have hpos' : 0 < 2 ^ (fltBits f - fltP f) := by positivity
  have hhigh : fltPattern f neg ex fr / 2 ^ (fltP f - 1) = b2n neg * 2 ^ (fltBits f - fltP f) + ex := by
    rw [fltPattern, sign_weight hf, ← mul_assoc, ← add_mul, Nat.add_comm, Nat.add_mul_div_right _ _ hpos, Nat.div_eq_of_lt hfr, Nat.zero_add]
  have hfrac : fltPattern f neg ex fr % 2 ^ (fltP f - 1) = fr := by
    rw [fltPattern, sign_weight hf, ← mul_assoc, ← add_mul, Nat.add_comm, Nat.add_mul_mod_self_right, Nat.mod_eq_of_lt hfr]
  have hexp : bits (fltPattern f neg ex fr) (fltBits f - 2) (fltP f - 1) = ex := by
    rw [bits, hhigh, show fltBits f - 2 + 1 - (fltP f - 1) = fltBits f - fltP f by omega, Nat.add_comm, Nat.add_mul_mod_self_right,
      Nat.mod_eq_of_lt hex]
  have hsign : bit (fltPattern f neg ex fr) (fltBits f - 1) = neg := by
    rw [bit, sign_weight hf, mul_comm, ← Nat.div_div_eq_div_mul, hhigh, Nat.add_comm, Nat.add_mul_div_right _ _ hpos',
      Nat.div_eq_of_lt hex, Nat.zero_add]
    cases neg <;> rfl
  simp only [fread, hexp, hfrac, hsign, show fltBits f - 1 - (fltP f - 1) = fltBits f - fltP f by omega]

/-- Every pattern of the type has fields. -/
theorem exists_fltPattern {v : Nat} (hv : v < 2 ^ fltBits f) :
    ∃ neg ex fr, ex < 2 ^ (fltBits f - fltP f) ∧ fr < 2 ^ (fltP f - 1) ∧ v = fltPattern f neg ex fr := by
  obtain ⟨hp, hb, -⟩ := fltShape hf
  have hpos : 0 < 2 ^ (fltP f - 1) := by positivity
  refine ⟨decide (2 ^ (fltBits f - 1) ≤ v), v % 2 ^ (fltBits f - 1) / 2 ^ (fltP f - 1), v % 2 ^ (fltP f - 1), ?_, Nat.mod_lt _ hpos, ?_⟩
  · rw [Nat.div_lt_iff_lt_mul hpos, ← sign_weight hf]
    exact Nat.mod_lt _ (by positivity)
  · have hdvd : v % 2 ^ (fltBits f - 1) % 2 ^ (fltP f - 1) = v % 2 ^ (fltP f - 1) := by
      rw [sign_weight hf, Nat.mod_mul_left_mod]
    have hsplit := Nat.div_add_mod' (v % 2 ^ (fltBits f - 1)) (2 ^ (fltP f - 1))
    have hdouble : 2 ^ fltBits f = 2 * 2 ^ (fltBits f - 1) := by rw [← pow_succ']; congr 1; omega
    rw [hdvd] at hsplit
    rw [fltPattern, add_assoc, hsplit]
    by_cases h : 2 ^ (fltBits f - 1) ≤ v
    · have hmod : v % 2 ^ (fltBits f - 1) = v - 2 ^ (fltBits f - 1) := by
        rw [Nat.mod_eq_sub_mod h, Nat.mod_eq_of_lt (by omega)]
      rw [decide_eq_true h, hmod, b2n, if_pos rfl]
      omega
    · rw [decide_eq_false h, Nat.mod_eq_of_lt (by omega), b2n, if_neg (by decide)]
      omega

end

/-! ## Rounding to a multiple of 2^q -/

/-- The leading bit of a number. -/
theorem bitLen_bounds {m : Nat} (h : m ≠ 0) : 0 < bitLen m ∧ 2 ^ (bitLen m - 1) ≤ m ∧ m < 2 ^ bitLen m := by
  rw [bitLen, if_neg h]
  exact ⟨Nat.succ_pos _, Nat.log2_self_le h, Nat.lt_log2_self⟩

theorem bitLen_le {m k : Nat} (h : m < 2 ^ k) : bitLen m ≤ k := by
  by_cases hm : m = 0
  · simp [bitLen, hm]
  · obtain ⟨hpos, hlo, -⟩ := bitLen_bounds hm
    have := (Nat.pow_lt_pow_iff_right (by decide)).1 (hlo.trans_lt h)
    omega

theorem lt_bitLen {m k : Nat} (h : 2 ^ k ≤ m) : k < bitLen m := by
  have hm : m ≠ 0 := by
    have : 0 < 2 ^ k := by positivity
    omega
  exact (Nat.pow_lt_pow_iff_right (by decide)).1 (h.trans_lt (bitLen_bounds hm).2.2)

theorem roundAt_of_le {q : Int} {x : Ex} (mode z : Nat) (h : q ≤ x.e) :
    roundAt mode z x q = (x.m * 2 ^ (x.e - q).toNat, x.sticky) := by rw [roundAt, if_pos h]

/-- Below 2^q the value goes to one of its neighbours, and up only when it is inexact. -/
theorem roundAt_of_gt {q : Int} {x : Ex} (mode z : Nat) (h : x.e < q) :
    ∃ up : Bool, roundAt mode z x q =
        (x.m / 2 ^ (q - x.e).toNat + b2n up, x.m % 2 ^ (q - x.e).toNat != 0 || x.sticky) ∧
      (up = true → (x.m % 2 ^ (q - x.e).toNat != 0 || x.sticky) = true) := by
  have hpos : 0 < 2 ^ (q - x.e).toNat := by positivity
  simp only [roundAt, not_le.2 h, if_false]
  generalize x.m / 2 ^ (q - x.e).toNat = base
  generalize x.m % 2 ^ (q - x.e).toNat = lo
  generalize 2 ^ (q - x.e).toNat = p at hpos ⊢
  have hup : ∀ up : Bool, (if up = true then base + 1 else base) = base + b2n up := fun up => by cases up <;> rfl
  rw [hup]
  refine ⟨_, rfl, ?_⟩
  match mode with
  | 0 | 4 => simp; omega
  | 1 => simp
  | 2 | 3 => simp
  | _ + 5 => simp; tauto


theorem b2n_le_one (b : Bool) : b2n b ≤ 1 := by cases b <;> decide

/-- A significand rounded to no more than p bits is at most 2^p. -/
theorem roundAt_le_two_pow {q : Int} {x : Ex} {p : Nat} (mode z : Nat) (hq : x.e + bitLen x.m - p ≤ q) (hm : x.m ≠ 0) :
    (roundAt mode z x q).1 ≤ 2 ^ p := by
  obtain ⟨-, -, hlt⟩ := bitLen_bounds hm
  rcases le_or_gt q x.e with h | h
  · rw [roundAt_of_le mode z h]
    calc x.m * 2 ^ (x.e - q).toNat ≤ 2 ^ bitLen x.m * 2 ^ (x.e - q).toNat := Nat.mul_le_mul_right _ hlt.le
      _ = 2 ^ (bitLen x.m + (x.e - q).toNat) := (pow_add _ _ _).symm
      _ ≤ 2 ^ p := Nat.pow_le_pow_right (by decide) (by omega)
  · obtain ⟨up, hr, -⟩ := roundAt_of_gt mode z h
    have hbase : x.m / 2 ^ (q - x.e).toNat < 2 ^ p := by
      rw [Nat.div_lt_iff_lt_mul (by positivity), ← pow_add]
      exact hlt.trans_le (Nat.pow_le_pow_right (by decide) (by omega))
    have := b2n_le_one up
    rw [hr]
    show x.m / 2 ^ (q - x.e).toNat + b2n up ≤ 2 ^ p
    omega

/-- A significand rounded to just p bits has its leading bit. -/
theorem two_pow_le_roundAt {q : Int} {x : Ex} {p : Nat} (mode z : Nat) (hp : 1 ≤ p) (hq : q = x.e + bitLen x.m - p) (hm : x.m ≠ 0) :
    2 ^ (p - 1) ≤ (roundAt mode z x q).1 := by
  obtain ⟨hlen, hle, -⟩ := bitLen_bounds hm
  rcases le_or_gt q x.e with h | h
  · rw [roundAt_of_le mode z h]
    calc 2 ^ (p - 1) ≤ 2 ^ (bitLen x.m - 1 + (x.e - q).toNat) := Nat.pow_le_pow_right (by decide) (by omega)
      _ = 2 ^ (bitLen x.m - 1) * 2 ^ (x.e - q).toNat := pow_add _ _ _
      _ ≤ x.m * 2 ^ (x.e - q).toNat := Nat.mul_le_mul_right _ hle
  · obtain ⟨up, hr, -⟩ := roundAt_of_gt mode z h
    rw [hr]
    refine le_trans ?_ (Nat.le_add_right _ _)
    rw [Nat.le_div_iff_mul_le (by positivity), ← pow_add]
    exact le_trans (Nat.pow_le_pow_right (by decide) (by omega)) hle

/-- A value that rounding leaves as it is. -/
theorem roundAt_exact {q : Int} {x : Ex} {mode z : Nat} (h : (roundAt mode z x q).2 = false) :
    ((roundAt mode z x q).1 : ℚ) * 2 ^ q = x.m * 2 ^ x.e := by
  rcases le_or_gt q x.e with hq | hq
  · rw [roundAt_of_le mode z hq]
    push_cast
    rw [mul_assoc, ← zpow_natCast, Int.toNat_of_nonneg (by omega), ← zpow_add₀ two_ne_zero]
    congr 2
    omega
  · obtain ⟨up, hr, hup⟩ := roundAt_of_gt mode z hq
    rw [hr] at h ⊢
    have hdown : up = false := by
      cases up with
      | false => rfl
      | true => exact absurd (h.symm.trans (hup rfl)) (by decide)
    have hlo : x.m % 2 ^ (q - x.e).toNat = 0 := by
      simp only [Bool.or_eq_false_iff, bne_eq_false_iff_eq] at h
      exact h.1
    have hm := Nat.div_add_mod' x.m (2 ^ (q - x.e).toNat)
    rw [hlo, Nat.add_zero] at hm
    have hexp : (2 : ℚ) ^ q = ((2 ^ (q - x.e).toNat : Nat) : ℚ) * 2 ^ x.e := by
      push_cast
      rw [← zpow_natCast, Int.toNat_of_nonneg (by omega), ← zpow_add₀ two_ne_zero]
      congr 1
      omega
    rw [hdown, hexp, ← mul_assoc]
    congr 1
    exact_mod_cast hm

/-! ## The rounded result (03 R62, R75) -/

/-- The exponent at which a value is rounded to the type. -/
def rndExp (f : BitVec 4) (x : Ex) : Int := max (x.e + bitLen x.m - fltP f) (fltMin f)

/-- The rounded value lies within the type's range. -/
def FitsRange (f : BitVec 4) (n : Nat) (q : Int) : Prop := n < 2 ^ (fltMax f + 1 - q).toNat ∧ q ≤ fltMax f + 1

theorem tooBig_iff {f : BitVec 4} {n : Nat} {q : Int} :
    (decide (2 ^ (fltMax f + 1 - q).toNat ≤ n) && decide (q ≤ fltMax f + 1) || decide (fltMax f + 1 < q)) = true ↔ ¬ FitsRange f n q := by
  simp only [Bool.or_eq_true, Bool.and_eq_true, decide_eq_true_eq, FitsRange, not_and_or, not_lt, not_le]
  rcases lt_or_ge (fltMax f + 1) q with h | h
  · simp [h]
  · simp [h, not_lt.2 h]

theorem rnd_of_fits {f : BitVec 4} {x : Ex} {mode z : Nat} (hm : x.m ≠ 0)
    (h : FitsRange f (roundAt mode z x (rndExp f x)).1 (rndExp f x)) :
    ∃ tiny : Bool, rnd f mode z x =
      (zeroBits f x.neg + (rndExp f x - fltMin f).toNat * 2 ^ (fltP f - 1) + (roundAt mode z x (rndExp f x)).1,
        flagIf (roundAt mode z x (rndExp f x)).2 fNX ||| flagIf (tiny && (roundAt mode z x (rndExp f x)).2) fUF) := by
  have hqu : x.e + bitLen x.m - 1 - ((fltP f : Int) - 1) = x.e + bitLen x.m - fltP f := by omega
  rw [rnd, if_neg (by simp [hm])]
  simp only [hqu]
  exact ⟨_, if_neg fun hbig => tooBig_iff.1 hbig h⟩

theorem rnd_of_not_fits {f : BitVec 4} {x : Ex} {mode z : Nat} (hm : x.m ≠ 0)
    (h : ¬ FitsRange f (roundAt mode z x (rndExp f x)).1 (rndExp f x)) :
    rnd f mode z x = (overflowBits f mode x.neg, fOF ||| fNX) := by
  have hqu : x.e + bitLen x.m - 1 - ((fltP f : Int) - 1) = x.e + bitLen x.m - fltP f := by omega
  rw [rnd, if_neg (by simp [hm])]
  simp only [hqu]
  exact if_pos (tooBig_iff.2 h)

theorem rnd_of_zero {f : BitVec 4} {x : Ex} (mode z : Nat) (hm : x.m = 0) (hs : x.sticky = false) : rnd f mode z x = (zeroBits f x.neg, 0) := by
  rw [rnd, if_pos ⟨hm, by simp [hs]⟩]

theorem zeroBits_eq (f : BitVec 4) (neg : Bool) : zeroBits f neg = fltPattern f neg 0 0 := by
  simp [zeroBits, put, fltPattern]

/-- 03 R58, R61, R62, R75: a value of the type is its own rounding. -/
theorem roundingKeepsRepresentableValues : RoundingKeepsRepresentableValues := by
  intro f v mode z x hf hv hread
  obtain ⟨hp, hb, hexps⟩ := fltShape hf
  obtain ⟨neg, ex, fr, hex, hfr, rfl⟩ := exists_fltPattern hf hv
  have htwo : 2 ^ fltP f = 2 * 2 ^ (fltP f - 1) := by rw [← pow_succ']; congr 1; omega
  rw [fread_fltPattern hf hex hfr] at hread
  by_cases htop : ex = 2 ^ (fltBits f - fltP f) - 1
  · rw [if_pos htop] at hread
    split at hread <;> cases hread
  rw [if_neg htop] at hread
  by_cases hm : x.m = 0
  · by_cases h0 : ex = 0
    · rw [if_pos h0] at hread
      cases hread
      rw [rnd_of_zero mode z hm rfl, zeroBits_eq, h0, show fr = 0 from hm]
    · rw [if_neg h0] at hread
      cases hread
      have : 0 < 2 ^ (fltP f - 1) := by positivity
      simp only at hm
      omega
  · have hfields : x.neg = neg ∧ x.sticky = false ∧ rndExp f x = x.e ∧ x.m < 2 ^ fltP f ∧ x.e ≤ fltMax f - fltP f + 1 ∧
        (x.e - fltMin f).toNat * 2 ^ (fltP f - 1) + x.m = ex * 2 ^ (fltP f - 1) + fr := by
      by_cases h0 : ex = 0
      · rw [if_pos h0] at hread
        cases hread
        have hlen : bitLen fr ≤ fltP f := bitLen_le (by omega)
        refine ⟨rfl, rfl, ?_, ?_, ?_, ?_⟩
        · simp only [rndExp]; omega
        · simp only; omega
        · have : 0 < 2 ^ (fltBits f - fltP f) := by positivity
          have : 4 ≤ 2 ^ (fltBits f - fltP f) := Nat.pow_le_pow_right (n := 2) (i := 2) (by decide) (by omega)
          simp only; omega
        · simp [h0]
      · rw [if_neg h0] at hread
        cases hread
        have hlen : bitLen (fr + 2 ^ (fltP f - 1)) = fltP f := by
          have h1 := bitLen_le (m := fr + 2 ^ (fltP f - 1)) (k := fltP f) (by omega)
          have h2 := lt_bitLen (m := fr + 2 ^ (fltP f - 1)) (k := fltP f - 1) (by omega)
          omega
        refine ⟨rfl, rfl, ?_, ?_, ?_, ?_⟩
        · simp only [rndExp, hlen]; omega
        · simp only; omega
        · simp only; omega
        · have hsub : fltMin f + ((ex - 1 : Nat) : Int) - fltMin f = (ex - 1 : Nat) := by omega
          simp only [hsub, Int.toNat_natCast]
          have hmul : (ex - 1) * 2 ^ (fltP f - 1) + 2 ^ (fltP f - 1) = ex * 2 ^ (fltP f - 1) := by
            rw [← Nat.succ_mul]; congr 1; omega
          omega
    obtain ⟨hneg, hsticky, hq, hlt, hmax, hbits⟩ := hfields
    have hround : roundAt mode z x x.e = (x.m, false) := by
      rw [roundAt_of_le mode z (le_refl _), Int.sub_self, hsticky]
      simp
    have hfits : FitsRange f (roundAt mode z x (rndExp f x)).1 (rndExp f x) := by
      rw [hq, hround]
      exact ⟨hlt.trans_le (Nat.pow_le_pow_right (by decide) (by omega)), by omega⟩
    obtain ⟨tiny, hrnd⟩ := rnd_of_fits hm hfits
    rw [hrnd, hq, hround, hneg]
    refine Prod.ext ?_ (by simp [flagIf])
    simp only [zeroBits, put, fltPattern, add_assoc, hbits]


/-- What a significand of at most p bits at its exponent reads back as. -/
theorem fread_rounded {f : BitVec 4} (hf : isFloatTy f = true) {neg : Bool} {n : Nat} {q : Int} (hle : n ≤ 2 ^ fltP f)
    (hmin : fltMin f ≤ q) (hsub : n < 2 ^ (fltP f - 1) → q = fltMin f) (hfits : FitsRange f n q) :
    let y := zeroBits f neg + (q - fltMin f).toNat * 2 ^ (fltP f - 1) + n
    y < 2 ^ fltBits f ∧ ∃ u, fread f y = .fin u ∧ u.neg = neg ∧ (u.m : ℚ) * 2 ^ u.e = n * 2 ^ q := by
  intro y
  obtain ⟨hp, hb, hexps⟩ := fltShape hf
  obtain ⟨hn, hq⟩ := hfits
  have htwo : 2 ^ fltP f = 2 * 2 ^ (fltP f - 1) := by rw [← pow_succ']; congr 1; omega
  have hhalf : 0 < 2 ^ (fltP f - 1) := by positivity
  obtain ⟨ex, fr, u, hex, hfr, hy, hu⟩ : ∃ ex fr u, ex + 1 < 2 ^ (fltBits f - fltP f) ∧ fr < 2 ^ (fltP f - 1) ∧
      y = fltPattern f neg ex fr ∧
      (if ex = 0 then FV.fin { neg := neg, m := fr, e := fltMin f }
        else .fin { neg := neg, m := fr + 2 ^ (fltP f - 1), e := fltMin f + (ex - 1 : Nat) }) = .fin u ∧
      u.neg = neg ∧ (u.m : ℚ) * 2 ^ u.e = n * 2 ^ q := by
    have hfield : 4 ≤ 2 ^ (fltBits f - fltP f) := Nat.pow_le_pow_right (n := 2) (i := 2) (by decide) (by omega)
    rcases Nat.lt_or_ge n (2 ^ (fltP f - 1)) with h | h
    · refine ⟨0, n, { neg := neg, m := n, e := fltMin f }, by omega, h, ?_, rfl, rfl, ?_⟩
      · simp [y, hsub h, zeroBits, put, fltPattern]
      · rw [hsub h]
    rcases Nat.lt_or_eq_of_le hle with h' | h'
    · have hroom := (Nat.pow_lt_pow_iff_right (by decide)).1 (h.trans_lt hn)
      refine ⟨(q - fltMin f).toNat + 1, n - 2 ^ (fltP f - 1), { neg := neg, m := n, e := q }, by omega, by omega, ?_, ?_, rfl, rfl⟩
      · simp only [y, zeroBits, put, fltPattern, add_mul]
        omega
      · rw [if_neg (by omega)]
        congr 2
        · omega
        · omega
    · have hroom := (Nat.pow_lt_pow_iff_right (by decide)).1 (h'.symm.trans_lt hn)
      refine ⟨(q - fltMin f).toNat + 2, 0, { neg := neg, m := 2 ^ (fltP f - 1), e := q + 1 }, by omega, hhalf, ?_, ?_, rfl, ?_⟩
      · simp only [y, zeroBits, put, fltPattern, add_mul]
        omega
      · rw [if_neg (by omega), Nat.zero_add]
        congr 2
        omega
      · rw [h', htwo, zpow_add_one₀ two_ne_zero]
        push_cast
        ring
  rw [hy]
  refine ⟨fltPattern_lt hf (by omega) hfr, u, ?_, hu.2⟩
  rw [fread_fltPattern hf (by omega) hfr, if_neg (by omega), hu.1]


/-- The results of an overflow are patterns of the type, and no NaNs. -/
theorem overflowBits_fread {f : BitVec 4} (hf : isFloatTy f = true) (mode : Nat) (neg : Bool) :
    overflowBits f mode neg < 2 ^ fltBits f ∧ isNanV (fread f (overflowBits f mode neg)) = false := by
  have hends : ∀ f : BitVec 4, isFloatTy f = true → ∀ neg : Bool,
      (maxBits f neg < 2 ^ fltBits f ∧ isNanV (fread f (maxBits f neg)) = false) ∧
      (infBits f neg < 2 ^ fltBits f ∧ isNanV (fread f (infBits f neg)) = false) := by decide
  rw [overflowBits]
  split
  · exact (hends f hf neg).1
  · exact (hends f hf neg).2

/-- Equal values have equal significands at a common exponent. -/
theorem significands_eq {m n : Nat} {e q : Int} (h : (m : ℚ) * 2 ^ e = n * 2 ^ q) :
    (m : Int) * 2 ^ (e - min e q).toNat = (n : Int) * 2 ^ (q - min e q).toNat := by
  have hscale : ∀ (k : Nat) (d : Int), min e q ≤ d → (k : ℚ) * 2 ^ d = ((k * 2 ^ (d - min e q).toNat : Int) : ℚ) * 2 ^ min e q := by
    intro k d hd
    push_cast
    rw [mul_assoc, ← zpow_natCast, Int.toNat_of_nonneg (by omega), ← zpow_add₀ two_ne_zero]
    congr 2
    omega
  rw [hscale m e (by omega), hscale n q (by omega)] at h
  exact_mod_cast mul_right_cancel₀ (zpow_ne_zero _ two_ne_zero) h

/-- NX is among the flags exactly when it was raised. -/
theorem nx_of_flags (inexact tiny : Bool) (h : (flagIf inexact fNX ||| flagIf (tiny && inexact) fUF) &&& fNX = 0) : inexact = false := by
  revert h
  cases inexact <;> cases tiny <;> decide

theorem roundedResultsAreExactWithoutNX : RoundedResultsAreExactWithoutNX := by
  intro f mode z x hf _ hsticky y
  obtain ⟨hp, hb, hexps⟩ := fltShape hf
  by_cases hm : x.m = 0
  · have hy : y = (zeroBits f x.neg, 0) := rnd_of_zero mode z hm (hsticky hm)
    have hpos : 0 < 2 ^ (fltP f - 1) := by positivity
    have hfield : 4 ≤ 2 ^ (fltBits f - fltP f) := Nat.pow_le_pow_right (n := 2) (i := 2) (by decide) (by omega)
    have hzero : fread f (zeroBits f x.neg) = .fin { neg := x.neg, m := 0, e := fltMin f } := by
      rw [zeroBits_eq, fread_fltPattern hf (by omega) hpos, if_neg (by omega), if_pos rfl]
    rw [hy]
    refine ⟨?_, by rw [hzero]; rfl, fun _ => ⟨_, hzero, rfl, by simp [hm]⟩⟩
    rw [zeroBits_eq]
    exact fltPattern_lt hf (by omega) hpos
  by_cases hfits : FitsRange f (roundAt mode z x (rndExp f x)).1 (rndExp f x)
  · obtain ⟨tiny, hy⟩ := rnd_of_fits hm hfits
    have hsub : (roundAt mode z x (rndExp f x)).1 < 2 ^ (fltP f - 1) → rndExp f x = fltMin f := by
      intro hlt
      rcases max_choice (x.e + bitLen x.m - fltP f) (fltMin f) with h | h
      · exact absurd (two_pow_le_roundAt mode z (by omega) h hm) (Nat.not_le.2 hlt)
      · exact h
    obtain ⟨hlt, u, hu, hneg, hval⟩ := fread_rounded hf (neg := x.neg) (n := (roundAt mode z x (rndExp f x)).1) (q := rndExp f x)
      (roundAt_le_two_pow mode z (le_max_left _ _) hm) (le_max_right _ _)
      hsub hfits
    simp only [show y = _ from hy]
    refine ⟨hlt, by rw [hu]; rfl, fun hnx => ⟨u, hu, hneg, significands_eq ?_⟩⟩
    rw [hval, roundAt_exact (nx_of_flags _ _ hnx)]
  · obtain ⟨hlt, hnan⟩ := overflowBits_fread hf mode x.neg
    simp only [show y = _ from rnd_of_not_fits hm hfits]
    exact ⟨hlt, hnan, fun hnx => absurd hnx (by decide)⟩

/-- Settles O25: rounding to a type keeps its values, and what it leaves without NX is exact. -/
theorem rounding : Obligations.Rounding := ⟨roundingKeepsRepresentableValues, roundedResultsAreExactWithoutNX⟩

end Sys2Proof.Proofs
end

section
/-!
PROOF. Conversions, block packing and dot products (10 R222 to R227).
-/
namespace Sys2Proof.Proofs
open Sys2Proof.Machine Sys2Proof.Safety Sys2Proof.Claims

/-! ## Faults of results, and firings with nulls of their own -/

theorem emitRes_of_fault (s : State) (c : Cur) (f : Form) (ty : BitVec 4) (k : Nat) :
    emitRes s c f ty { fault := some k } = faultCur s c k 0 := rfl

theorem delayRes_of_fault (lat : Cur → Nat) (s : State) (c : Cur) (f : Form) (ty : BitVec 4) (k : Nat) :
    delayRes lat s c f ty { fault := some k } = faultCur s c k 0 := rfl

/-- A match that supplies values to a record whose nulls are its own has its effect. -/
theorem fireNul_takes {s : State} {f : Form} {ty : BitVec 4} {base : List Nat} {bad blk : Bool} {nuls : Cur → Val × Val} {op : Cur → Res}
    (h : Takes s f ty base blk) (hb : bad = false) :
    fireNul s f ty base bad blk nuls op = .next (emitRes s s.cur f ty (op s.cur)) := by
  obtain ⟨h1, h2, h3, h4, h5, h6⟩ := h
  have h3' : (f.ctl.lituse != 0 && isBlockTy ty) = false := by rcases h3 with h | h <;> simp [h]
  have h5' : (!blk && anyBlock s.cur (portSet base f.ctl)) = false := by rcases h5 with h | h <;> simp [h]
  simp only [fireNul, h1, h2, h3', h4, h5', h6, hb, Bool.not_true, Bool.false_or, Bool.false_eq_true, if_false]

/-! ## Conversions (10 R222 to R224) -/

theorem isIntTy_of_ge {f : BitVec 4} (h : 8 ≤ f.toNat) : isIntTy f = false := by simpa [isIntTy] using h

theorem conversionsComplete : ConversionsComplete := by
  intro r s hf ht c a z
  refine ⟨fun hflt => ⟨fun ha => ?_, fun ha => ?_, fun ha => ?_, fun ha => ?_⟩, fun hint => ⟨fun ha => ?_, fun ha => ?_⟩⟩
  · rw [exec_cvt, execCvt, fire, fireWith_takes ht (bad3_eq_false.2 ⟨hflt, hf⟩)]
    simp only [show isFloatTy (portTok s.cur 0).ty = true from ha, Bool.not_true, Bool.false_eq_true, if_false]
    rfl
  · rw [exec_cvt, execCvt, fire, fireWith_takes ht (bad3_eq_false.2 ⟨hflt, hf⟩)]
    simp only [show isFloatTy (portTok s.cur 0).ty = false from ha, Bool.not_false, if_true, emitRes_of_fault]
    rfl
  · rw [exec_itof, execItof, fire, fireWith_takes ht (bad3_eq_false.2 ⟨hflt, hf⟩)]
    simp only [isIntTy_of_lt (show (portTok s.cur 0).ty.toNat < 8 from ha), Bool.not_true, Bool.false_eq_true, if_false]
    rfl
  · rw [exec_itof, execItof, fire, fireWith_takes ht (bad3_eq_false.2 ⟨hflt, hf⟩)]
    simp only [isIntTy_of_ge (show 8 ≤ (portTok s.cur 0).ty.toNat from ha), Bool.not_false, if_true, emitRes_of_fault]
    rfl
  · rw [exec_ftoi, execFtoi, fire, fireWith_takes ht (bad3_eq_false.2 ⟨isIntTy_of_lt hint, hf⟩)]
    simp only [show isFloatTy (portTok s.cur 0).ty = true from ha, Bool.not_true, Bool.false_eq_true, if_false]
    rfl
  · rw [exec_ftoi, execFtoi, fire, fireWith_takes ht (bad3_eq_false.2 ⟨isIntTy_of_lt hint, hf⟩)]
    simp only [show isFloatTy (portTok s.cur 0).ty = false from ha, Bool.not_false, if_true, emitRes_of_fault]
    rfl

/-! ## Blocks (03 R64 to R69; 10 R225, R226) -/

theorem bxpack_sends {r : RecN} {s : State} (hf : LaneFields false true r) (hblk : isBlockTy r.fmt = true)
    (ht : Takes s (formN r) r.fmt [0] false) (ha : isFloatTy (portTok s.cur 0).ty = true) (hpred : lanePred r.ctl s.cur = none) :
    let c := s.cur
    let a := portTok c 0
    let z := srTop c.tag (ctxAt s (matchCtx s c.p c.plane c.tag)).srseed
    let nb := (a.lanes.length + 15) / 16
    let blk := fun j => tobx ((List.range 16).map (fun i =>
      if 16 * j + i < a.lanes.length then fread a.ty (elem a.ty a.lanes (16 * j + i))
      else .fin { neg := false, m := 0, e := 0 })) (blockM r.fmt) (rnd3 r) (fun i => z (16 * j + i))
    exec (.bxpack r) s = .next (emitRes { s with fresh := s.fresh + 2 } c (formN r) r.fmt
      { v0 := some { tag := c.tag, ty := r.fmt
                     lanes := (List.range nb).flatMap (fun j => strLanes (blockLanes r.fmt) (blk j).str) }
        v1 := some { tag := c.tag, ty := 5, lanes := (List.range nb).map (fun j => BitVec.ofNat 32 (blk j).sw) }
        flags := (List.range nb).foldl (fun f j => f ||| (blk j).flags) 0 }) := by
  intro c a z nb blk
  have ht' : Takes { s with fresh := s.fresh + 2 } (formN r) r.fmt [0] false := ht
  rw [exec_bxpack, execBxpack, fireNul_takes ht' (bad3_eq_false.2 ⟨hblk, hf⟩)]
  simp only [ha, hpred, predAt, maskElems, Bool.not_true, Bool.false_eq_true, if_false, if_true]
  rfl

theorem bxunpk_fields {r : RecN} (hcf : r.cf.toNat ≤ 3) (hrnd : rnd3 r ≤ 5) (hopx : opx r = false) (hflt : isFloatTy r.fmt = true) :
    (!isFloatTy r.fmt || opx r || decide (5 < rnd3 r) || decide (3 < r.cf.toNat)) = false := by
  rw [hflt, hopx, decide_eq_false (by omega), decide_eq_false (by omega)]
  rfl

theorem blocksPackAndUnpack : BlocksPackAndUnpack := by
  intro r s c a z
  refine ⟨fun hf hblk ht ha hpred => bxpack_sends hf hblk ht ha hpred, ?_⟩
  intro hcf hrnd hopx hflt ht nb p2
  have hmod : r.cf.toNat % 4 = r.cf.toNat := Nat.mod_eq_of_lt (by omega)
  rw [exec_bxunpk, execBxunpk, fire, fireWith_takes ht (bxunpk_fields hcf hrnd hopx hflt)]
  simp only [hmod]
  refine ⟨fun hbad => ?_, fun hty hlt hpred => ?_⟩
  · rw [if_pos (by rw [Bool.not_eq_true']; exact hbad), emitRes_of_fault]
  · rw [if_neg (by rintro (h | h)
                   · rw [show isBlockTy (portTok s.cur 0).ty = true from hty] at h; cases h
                   · exact absurd hlt (Nat.not_lt.2 h))]
    simp only [show lanePred r.ctl s.cur = none from hpred, predAt, maskElems, if_true]
    rfl

/-! ## Dot products (03 R77; 10 R227) -/

theorem isBlockTy_of_isFloatTy {f : BitVec 4} (h : isFloatTy f = true) : isBlockTy f = false := by
  revert f
  decide

/-- A latency counts at its own match only. -/
theorem delayRes_at (lat : Cur → Nat) (s : State) (c : Cur) (f : Form) (ty : BitVec 4) (r : Res) :
    delayRes lat s c f ty r = delayRes (fun _ => lat c) s c f ty r := rfl

theorem dotAccumulatesInOrder : DotAccumulatesInOrder := by
  intro r s hf hfmt hlit ht c a b n
  have hok : bad3 false false (r.fmt == 10) r = false := bad3_eq_false.2 ⟨by rw [hfmt]; rfl, hf⟩
  rw [exec_dot, execDot, fireLate_takes ht hok, delayRes_at]
  simp only [lanesP_of_noLit hlit, hlit, show ¬ (0 : BitVec 2) = 1 by decide, if_false]
  refine ⟨fun hbad => ?_, fun hty hflt => ?_⟩
  · rw [if_pos (hbad.imp id fun h => by
      rw [show isFloatTy (portTok s.cur 0).ty = false from h.1, show isBlockTy (portTok s.cur 0).ty = false from h.2]; rfl), delayRes_of_fault]
  · have hblk : isBlockTy (portTok s.cur 0).ty = false := isBlockTy_of_isFloatTy hflt
    rw [if_neg (by rintro (h | h)
                   · exact h hty
                   · rw [show isFloatTy (portTok s.cur 0).ty = true from hflt] at h; cases h)]
    simp only [dotTerms, hblk, Bool.false_eq_true, if_false]
    rfl

/-- Settles O26: the results of the conversions, of the block records and of DOT. -/
theorem conversions : Obligations.Conversions := ⟨conversionsComplete, blocksPackAndUnpack, dotAccumulatesInOrder⟩

end Sys2Proof.Proofs
end

section
/-!
PROOF. Movement of lanes, packing of colours (10 R230 to R234; 16 R338), CMPFWD and RANKADM (12 R277, R278).
-/
namespace Sys2Proof.Proofs
open Sys2Proof.Machine Sys2Proof.Safety Sys2Proof.Claims

/-- The bits of a number from a place on that it does not reach. -/
theorem bits_eq_zero_of_lt {v hi lo : Nat} (h : v < 2 ^ lo) : bits v hi lo = 0 :=
  (congrArg (· % 2 ^ (hi + 1 - lo)) (Nat.div_eq_of_lt h)).trans (Nat.zero_mod _)

/-! ## SHUF, BCAST, IOTA, LMASK -/

theorem iota_value (f : BitVec 4) (x : Int) (i : Nat) (lit : BitVec 32) :
    wrapN (elemBits f) (x + (i : Nat) * sgn 16 lit.toNat) = (BitVec.ofInt (elemBits f) (x + i * (lit.setWidth 16).toInt)).toNat := by
  rw [wrapN_eq, sgn_eq (by decide), BitVec.ofNat_toNat]

theorem b2n_bit (v i : Nat) : b2n (bit v i) = v / 2 ^ i % 2 := by
  rw [bit, b2n]
  rcases Nat.mod_two_eq_zero_or_one (v / 2 ^ i) with h | h <;> rw [h] <;> rfl

/-- A lane of LMASK: bit i of the operand, or whether i is below it. -/
theorem lmask_lane (p : Bool) (x : Lane) (i : Nat) :
    BitVec.ofNat 32 (if p then b2n (bit x.toNat i) else if i < x.toNat then 1 else 0) =
      if p then (x >>> i) &&& 1 else if i < x.toNat then 1 else 0 := by
  split
  · apply BitVec.eq_of_toNat_eq
    rw [b2n_bit, BitVec.toNat_ofNat, BitVec.toNat_and, BitVec.toNat_ushiftRight, Nat.shiftRight_eq_div_pow,
      show (1 : BitVec 32).toNat = 1 from rfl, Nat.and_one_is_mod]
    omega
  · split <;> rfl

theorem shuf_sends {r : RecN} {s : State} (hf : LaneFields true false r) (hfmt : r.fmt = 0) (ht : Takes s (formN r) r.fmt [0, 1] true) :
    exec (.shuf r) s = .next (emitRes s s.cur (formN r) r.fmt (both (moveVal s.cur (maskLanes (lanePred r.ctl s.cur)
      (portTok s.cur 0).lanes ((List.range (if opx r ∨ r.ctl.lituse = 1 then (portTok s.cur 0).lanes.length
        else (portTok s.cur 1).lanes.length)).map (fun l => (portTok s.cur 0).lanes.getD
          (if opx r then Nat.xor l ((if r.ctl.lituse = 1 then r.lit.toNat else laneN (portTok s.cur 1).lanes l) % 32)
            else if r.ctl.lituse = 1 then r.lit.toNat else laneN (portTok s.cur 1).lanes l) 0)))))) := by
  rw [exec_shuf, execShuf, fireNul_takes ht (bad3_eq_false.2 ⟨by rw [hfmt]; rfl, hf⟩)]

theorem bcast_sends {r : RecN} {s : State} (hf : LaneFields true false r) (hfmt : r.fmt = 0) (hlit : r.ctl.lituse = 0)
    (h7 : bits r.lit.toNat 7 5 = 0) (h31 : bits r.lit.toNat 31 13 = 0) (ht : Takes s (formN r) r.fmt [0] true) :
    exec (.bcast r) s = .next (emitRes s s.cur (formN r) r.fmt (both (moveVal s.cur (maskLanes (lanePred r.ctl s.cur)
      (portTok s.cur 0).lanes ((List.range (bits r.lit.toNat 12 8 + 1)).map (fun i =>
        (portTok s.cur 0).lanes.getD (if opx r then 2 * (r.lit.toNat % 32) + i % 2 else r.lit.toNat % 32) 0)))))) := by
  have hok : (bad3 true false (r.fmt == 0) r || bits r.lit.toNat 7 5 != 0 || bits r.lit.toNat 31 13 != 0 || r.ctl.lituse != 0) = false := by
    rw [bad3_eq_false.2 ⟨by rw [hfmt]; rfl, hf⟩, h7, h31, hlit]; rfl
  rw [exec_bcast, execBcast, fireNul_takes ht hok]

theorem laneMovesComplete : LaneMovesComplete := by
  intro r s c t a m move lit
  refine ⟨?_, fun hf hfmt hlit h7 h31 ht => bcast_sends hf hfmt hlit h7 h31 ht, fun hf hfmt hone hlit h31 ht => ?_,
    fun hf hfmt hlit h31 ht hty => ?_⟩
  · intro hf hfmt ht idx
    refine ⟨fun hopx => ?_, fun hopx => ?_⟩
    · rw [shuf_sends hf hfmt ht]
      simp only [hopx, true_or, if_true]
      rfl
    · rw [shuf_sends hf hfmt ht]
      simp only [hopx, Bool.false_eq_true, false_or, if_false]
      rfl
  · have hok : (bad3 false false (isIntTy r.fmt && lanesPer r.fmt == 1) r || bits r.lit.toNat 31 21 != 0 || r.ctl.lituse != 0) = false := by
      rw [bad3_eq_false.2 ⟨by rw [isIntTy_of_lt hfmt, hone]; rfl, hf⟩, h31, hlit]; rfl
    rw [exec_iota, execIota, fire, fireWith_takes ht hok]
    simp only [iota_value]
    rfl
  · have hok : (bad3 true false (r.fmt == 6) r || bits r.lit.toNat 31 5 != 0 || r.ctl.lituse != 0) = false := by
      rw [bad3_eq_false.2 ⟨by rw [hfmt]; rfl, hf⟩, h31, hlit]; rfl
    rw [exec_lmask, execLmask, fire, fireWith_takes ht hok]
    simp only [show (portTok s.cur 0).ty = 6 from hty, ne_eq, not_true_eq_false, if_false, laneN]
    refine congrArg (fun g => Host.Outcome.next (emitRes s c (formN r) r.fmt (both
      { tag := c.tag, ty := 6, lanes := m ((List.range (lit % 32 + 1)).map g) }))) (funext fun i => ?_)
    exact lmask_lane _ _ _

/-! ## PACKC and UNPACKC (10 R233, R234; 16 R338) -/

theorem packc_fires {r : RecN} {s : State} (hf : LaneFields false false r) (hfmt : r.fmt = 0) (hlit : r.ctl.lituse = 0)
    (hctl : badCtl [0, 1] r.ctl = false) (hports : hasPorts s.cur (portSet [0, 1] r.ctl) = true)
    (hnull : anyNull s.cur (portSet [0, 1] r.ctl) = false) (hpred : predFalse r.ctl s.cur = false) :
    exec (.packc r) s = .next (packFire r s) := by
  have hok : (bad3 false false (r.fmt == 0) r || badCtl [0, 1] r.ctl || r.ctl.lituse != 0) = false := by
    rw [bad3_eq_false.2 ⟨by rw [hfmt]; rfl, hf⟩, hctl, hlit]; rfl
  simp only [exec_packc, execPackc, hports, hok, hnull, hpred, Bool.not_true, Bool.false_eq_true, if_false]

/-- A tag with the colour of a pack's partner (10 R234). -/
theorem partner_tag (k : Nat) (t : Word64) :
    BitVec.ofNat 64 (put k 52 + t.toNat % 2 ^ 52) = BitVec.ofNat 12 k ++ t.setWidth 52 := by
  apply BitVec.eq_of_toNat_eq
  rw [BitVec.toNat_append, BitVec.toNat_setWidth, BitVec.toNat_ofNat, BitVec.toNat_ofNat, put,
    ← Nat.shiftLeft_add_eq_or_of_lt (by omega), Nat.shiftLeft_eq]
  omega

theorem packAndUnpackColours : PackAndUnpackColours := by
  intro r s c a b part
  refine ⟨?_, ?_⟩
  · intro hf hfmt hlit hctl hports hnull hpred hwidth hty e hfree v
    have hnarrow : ¬ (32 < (portTok s.cur 0).lanes.length + (portTok s.cur 1).lanes.length ∨ (portTok s.cur 0).ty ≠ (portTok s.cur 1).ty) := by
      rintro (h | h)
      · exact absurd hwidth (Nat.not_le.2 h)
      · exact h hty
    have hpk : ¬ (colourOf (portTok s.cur 0).tag ≠ colourOf (portTok s.cur 1).tag ∧ e.pk = true ∧
        ¬ (e.partner = colourOf (portTok s.cur 1).tag ∧ e.split = (portTok s.cur 0).lanes.length)) := by
      rintro ⟨h1, h2, h3⟩
      rcases hfree with h | h | h
      · exact h1 h
      · rw [h] at h2; cases h2
      · exact h3 h
    have hfire := packc_fires hf hfmt hlit hctl hports hnull hpred
    refine ⟨fun hsame => ?_, fun hne => ⟨?_, rfl⟩⟩
    · rw [hfire, packFire, if_neg hnarrow, if_neg hpk, if_pos hsame]
    · rw [hfire, packFire, if_neg hnarrow, if_neg hpk, if_neg hne]
  · intro hf hfmt hlit ht hpred v k e
    have hbad3 : bad3 true false (r.fmt == 0) r = false := bad3_eq_false.2 ⟨by rw [hfmt]; rfl, hf⟩
    refine ⟨fun hopx hpos hlt h32 => ?_, fun hopx hpk hwidth _ => ?_⟩
    · have hmod : r.lit.toNat % 32 = r.lit.toNat := Nat.mod_eq_of_lt h32
      have hok : (bad3 true false (r.fmt == 0) r || (opx r && (bits r.lit.toNat 31 5 != 0 || r.lit.toNat % 32 == 0)) || r.ctl.lituse != 0) = false := by
        have hhigh : bits r.lit.toNat 31 5 = 0 := bits_eq_zero_of_lt (show r.lit.toNat < 2 ^ 5 from h32)
        rw [hbad3, hlit, hhigh, hmod, beq_false_of_ne (Nat.pos_iff_ne_zero.1 hpos), hopx]; rfl
      rw [exec_unpackc, execUnpackc, fireNul_takes ht hok]
      simp only [show lanePred r.ctl s.cur = none from hpred, maskLanes, hopx, hmod, if_true, Bool.true_and, Bool.not_true, Bool.false_and,
        Bool.or_false, show decide ((portTok s.cur 0).lanes.length ≤ r.lit.toNat) = false from decide_eq_false (Nat.not_le.2 hlt), Bool.false_eq_true, if_false]
      rfl
    · have hok : (bad3 true false (r.fmt == 0) r || (opx r && (bits r.lit.toNat 31 5 != 0 || r.lit.toNat % 32 == 0)) || r.ctl.lituse != 0) = false := by
        rw [hbad3, hlit, hopx]; rfl
      have hentry : (!e.pk || (portTok s.cur 0).lanes.length != e.gwm1 + 1) = false := by
        rw [hpk, show (portTok s.cur 0).lanes.length = e.gwm1 + 1 from hwidth, bne_self_eq_false]; rfl
      rw [exec_unpackc, execUnpackc, fireNul_takes ht hok]
      simp only [show lanePred r.ctl s.cur = none from hpred, maskLanes, hopx, Bool.false_and, Bool.false_or, Bool.not_false, Bool.true_and,
        Bool.false_eq_true, if_false]
      rw [if_neg (by rw [show (!(colourAt s _ _).pk || _) = false from hentry]; decide), partner_tag]
      rfl

/-- Settles O28: what the records that move lanes send. -/
theorem laneMoves : Obligations.LaneMoves := ⟨laneMovesComplete, packAndUnpackColours⟩

end Sys2Proof.Proofs
end

section
/-!
PROOF. CMPFWD and RANKADM (12 R277, R278).
-/
namespace Sys2Proof.Proofs
open Sys2Proof.Machine Sys2Proof.Safety Sys2Proof.Claims

/-! ## CMPFWD -/

/-- The exclusion mask of a candidate: lanes 3 and 2. -/
def exclusion (t : List Lane) : Word64 := t.getD 3 0 ++ t.getD 2 0

/-- The candidate's index is in its own exclusion mask. -/
def IsExcluded (t : List Lane) : Prop := (t.getD 1 0).toNat < 64 ∧ (exclusion t).getLsbD (t.getD 1 0).toNat = true

theorem candMask_eq (t : List Lane) : candMask t = (exclusion t).toNat := by
  have h := (t.getD 2 0).isLt
  rw [candMask, exclusion, BitVec.toNat_append, ← Nat.shiftLeft_add_eq_or_of_lt h, Nat.shiftLeft_eq, Nat.add_comm]
  rfl

theorem bit_toNat {n : Nat} (x : BitVec n) (i : Nat) : bit x.toNat i = x.getLsbD i := by
  rw [bit, BitVec.getLsbD, Nat.testBit_eq_decide_div_mod_eq]
  rfl

theorem excluded_iff (t : List Lane) : excluded t = true ↔ IsExcluded t := by
  rw [excluded, candMask_eq, bit_toNat, Bool.and_eq_true, decide_eq_true_eq]
  rfl

/-- A candidate with the joint mask of both. -/
theorem withMask_join (f : BitVec 4) (t a b : List Lane) :
    withMask f t (Nat.lor (candMask a) (candMask b)) = [BitVec.ofNat 32 (elem f t 0), t.getD 1 0,
      (exclusion a ||| exclusion b).setWidth 32, ((exclusion a ||| exclusion b) >>> 32).setWidth 32] := by
  have hjoin : Nat.lor (candMask a) (candMask b) = (exclusion a ||| exclusion b).toNat := by
    rw [candMask_eq, candMask_eq, BitVec.toNat_or]
    rfl
  rw [withMask, hjoin, wordsLanes_word]
  rfl

theorem aWins_of_first {f : BitVec 4} {a b : List Lane}
    (h : (IsExcluded b ∧ ¬ IsExcluded a) ∨ ((IsExcluded a ↔ IsExcluded b) ∧
      ranksAbove f (elem f b 0) (laneN b 1) (elem f a 0) (laneN a 1) = false)) : aWins f a b = true := by
  simp only [← excluded_iff] at h
  rw [aWins]
  rcases h with ⟨hb, ha⟩ | ⟨hiff, hrank⟩
  · rw [hb, Bool.eq_false_iff.2 ha]; rfl
  · rw [Bool.eq_iff_iff.2 hiff, bne_self_eq_false, hrank]; rfl

theorem aWins_of_second {f : BitVec 4} {a b : List Lane}
    (h : (IsExcluded a ∧ ¬ IsExcluded b) ∨ ((IsExcluded a ↔ IsExcluded b) ∧
      ranksAbove f (elem f b 0) (laneN b 1) (elem f a 0) (laneN a 1) = true)) : aWins f a b = false := by
  simp only [← excluded_iff] at h
  rw [aWins]
  rcases h with ⟨ha, hb⟩ | ⟨hiff, hrank⟩
  · rw [ha, Bool.eq_false_iff.2 hb]; rfl
  · rw [Bool.eq_iff_iff.2 hiff, bne_self_eq_false, hrank]; rfl

theorem compareForwardSendsTheWinner : CompareForwardSendsTheWinner := by
  intro r s hf hflt hlit huse ht hpred c a b mask out m v fl ha hb
  have hok : (bad3 true false (isFloatTy r.fmt) r || r.lit != 0 || r.ctl.lituse != 0) = false := by
    rw [bad3_eq_false.2 ⟨hflt, hf⟩, hlit, huse]; rfl
  have hfour : ¬ ((portTok s.cur 0).lanes.length ≠ 4 ∨ (portTok s.cur 1).lanes.length ≠ 4) := by
    rintro (h | h)
    · exact h ha
    · exact h hb
  have hexec : exec (.cmpfwd r) s = .next (emitRes s c (formN r) r.fmt
      { cond := aWins r.fmt a b, v0 := some (v (if aWins r.fmt a b then a else b))
        v1 := some (v (if opx r == aWins r.fmt a b then b else a)), flags := fl }) := by
    rw [exec_cmpfwd, execCmpfwd, fire, fireWith_takes ht hok]
    simp only [if_neg hfour, hpred, maskLanes, withMask_join]
    rfl
  refine ⟨fun h => ?_, fun h => ?_⟩
  · rw [hexec, aWins_of_first h]
    cases opx r <;> rfl
  · rw [hexec, aWins_of_second h]
    cases opx r <;> rfl

/-! ## RANKADM -/

theorem length_insBy {α : Type} (lt : α → α → Bool) (x : α) (l : List α) : (insBy lt x l).length = l.length + 1 := by
  induction l with
  | nil => rfl
  | cons y l ih =>
    rw [insBy]
    split
    · rfl
    · rw [List.length_cons, ih, List.length_cons]

theorem rankIn_below {r : RecN} {tb : RankTable} {x : Token}
    (hord : ∀ e ∈ tb.entries, candAbove r.fmt e x = true ∨ candAbove r.fmt x e = true) (h : tb.entries.length < rankCap r) :
    rankIn r tb x = some ({ tb with counted := tb.counted + 1, entries := (insBy (candAbove r.fmt) x tb.entries).take (rankCap r) }, none) := by
  have hties : ¬ (tb.entries.any (fun e => !candAbove r.fmt e x && !candAbove r.fmt x e)) = true := by
    rw [List.any_eq_true]
    rintro ⟨e, he, htie⟩
    rcases hord e he with h | h <;> simp [h] at htie
  rw [rankIn, if_neg hties]
  simp only [if_pos h]
  rw [List.take_of_length_le (by rw [length_insBy]; omega)]

theorem rankIn_full {r : RecN} {tb : RankTable} {x : Token}
    (hord : ∀ e ∈ tb.entries, candAbove r.fmt e x = true ∨ candAbove r.fmt x e = true) (h : tb.entries.length = rankCap r) :
    ∃ y, (insBy (candAbove r.fmt) x tb.entries).drop (rankCap r) = [y] ∧
      rankIn r tb x = some ({ tb with counted := tb.counted + 1, entries := (insBy (candAbove r.fmt) x tb.entries).take (rankCap r) }, some y) := by
  have hties : ¬ (tb.entries.any (fun e => !candAbove r.fmt e x && !candAbove r.fmt x e)) = true := by
    rw [List.any_eq_true]
    rintro ⟨e, he, htie⟩
    rcases hord e he with h | h <;> simp [h] at htie
  obtain ⟨y, hy⟩ := List.length_eq_one_iff.1
    (show ((insBy (candAbove r.fmt) x tb.entries).drop (rankCap r)).length = 1 by rw [List.length_drop, length_insBy]; omega)
  refine ⟨y, hy, ?_⟩
  rw [rankIn, if_neg hties]
  simp only [if_neg (show ¬ tb.entries.length < rankCap r by omega), hy]
  rfl

/-- A candidate with a value is ranked in its table. -/
theorem rankadm_ranks {r : RecN} {s : State} (hbad : badRank s r = false) (hports : hasPorts s.cur (portSet [0] r.ctl) = true)
    (hnull : anyNull s.cur (portSet [0] r.ctl) = false) (hpred : predFalse r.ctl s.cur = false)
    (hblk : anyBlock s.cur (portSet [0] r.ctl) = false) (hlit : r.ctl.pred = false ∨ r.ctl.lituse ≠ 2) {tb' : RankTable} {out : Option Token}
    (hrank : rankIn r (rankTable (nibAt s s.cur.p s.cur.site) s.cur.plane s.cur.node
      (baseTag s s.cur.p s.cur.plane s.cur.tag (bits r.lit.toNat 18 16))) { portTok s.cur 0 with tag := s.cur.tag } = some (tb', out)) :
    exec (.rankadmCandidate r) s = .next (match out with
      | some y => sendAll (setNib s s.cur.p s.cur.site (putRank (nibAt s s.cur.p s.cur.site) tb')) s.cur (candSends (formN r) r.fmt false y)
      | none => setNib s s.cur.p s.cur.site (putRank (nibAt s s.cur.p s.cur.site) tb')) := by
  have hpl : (r.ctl.pred && r.ctl.lituse == 2) = false := by
    rcases hlit with h | h
    · rw [h]; rfl
    · rw [beq_false_of_ne h, Bool.and_false]
  simp only [exec_rankadmCandidate, execRankadmCandidate, hports, hbad, hpl, hblk, hnull, hpred, hrank, Bool.not_true, Bool.or_self,
    Bool.false_eq_true, if_false]
  cases out <;> rfl

/-- A batch whose count is reached leaves. -/
theorem rankadm_batch {r : RecN} {s : State} {e : Sticky} (hrow : (nibAt s s.sel.p s.sel.site).sticky[s.sel.k]? = some e)
    (hdec : decode (recAt s s.sel.p s.sel.site e.plane e.node) = .ok (.rankadmCandidate r))
    (hblk : isBlockTy e.tok.ty = false ∨ e.tok.null = true)
    (hcount : (if e.tok.null then 0 else laneN e.tok.lanes 0) ≤ (rankTable (nibAt s s.sel.p s.sel.site) e.plane e.node e.base).counted) :
    exec .rankadmBatchComplete s = .next (sendAll (freeSticky (setNib s s.sel.p s.sel.site { nibAt s s.sel.p s.sel.site with
        ranks := (nibAt s s.sel.p s.sel.site).ranks.filter (fun x => !(x.plane == e.plane && x.node == e.node && x.base == e.base)) })
        s.sel.p s.sel.site e.plane e.node e.base)
      { p := s.sel.p, site := s.sel.site, plane := e.plane, node := e.node, tag := e.tok.tag }
      ((rankTable (nibAt s s.sel.p s.sel.site) e.plane e.node e.base).entries.flatMap (candSends (formN r) r.fmt true))) := by
  have hok : (isBlockTy e.tok.ty && !e.tok.null) = false := by
    rcases hblk with h | h <;> simp [h]
  simp only [exec_rankadmBatchComplete, execRankadmBatchComplete, hrow, hdec, hok, Bool.not_false, Bool.true_and,
    decide_eq_false (Nat.not_lt.2 hcount), Bool.false_eq_true, if_false]

theorem rankAdmission : RankAdmission := by
  intro r s
  refine ⟨?_, fun e hrow hdec => fun hblk hcount => rankadm_batch hrow hdec hblk hcount⟩
  intro hbad hports hnull hpred hblk hlit c x n tb cap hord all tb'
  refine ⟨fun h => ?_, fun h => ?_⟩
  · exact rankadm_ranks hbad hports hnull hpred hblk hlit (rankIn_below hord h)
  · obtain ⟨y, hy, hrank⟩ := rankIn_full hord h
    exact ⟨y, hy, rankadm_ranks hbad hports hnull hpred hblk hlit hrank⟩

/-- Settles O29: the winner that CMPFWD sends, and the table that RANKADM keeps. -/
theorem expertRecords : Obligations.ExpertRecords := ⟨compareForwardSendsTheWinner, rankAdmission⟩

end Sys2Proof.Proofs
end

section
/-!
PROOF. Scribe blocks: READ, WRITE and the exits, the conditions of a commit, entry and commit (02 R52, R53; 09 R207 to R210; 20 R398).
-/
namespace Sys2Proof.Proofs
open Sys2Proof.Machine Sys2Proof.Safety Sys2Proof.Claims

/-! ## READ (09 R207) -/

theorem badQ_eq_false {r : RecN} (hf : MoveFields false false r) (hw : (qWidth r.fmt).isSome = true) (hlit : r.lit.toNat < 64) :
    badQ r = false := by
  rw [badQ, bad1_eq_false.2 hf, Option.isNone_eq_false_iff.2 hw, Nat.div_eq_of_lt hlit]
  rfl

theorem qWidth_two {f : BitVec 4} (h : f = 3 ∨ f = 7) : qWidth f = some 2 := if_pos h

theorem qWidth_one {f : BitVec 4} (h : f = 2 ∨ f = 6) : qWidth f = some 1 := by
  rcases h with rfl | rfl <;> rfl

theorem qWidth_eq_two_iff {f : BitVec 4} : qWidth f = some 2 ↔ f = 3 ∨ f = 7 := by
  revert f
  decide

theorem read_sends {r : RecN} {s : State} {w : Nat} (hf : MoveFields false false r) (hw : qWidth r.fmt = some w) (hlit : r.lit.toNat < 64)
    (ht : Takes s (formN r) r.fmt [] false) :
    exec (.read r) s = .next (emitRes s s.cur (formN r) r.fmt (both
      { tag := (scribeAt s s.cur.p).btag, ty := r.fmt
        lanes := [(qreg s s.cur.p r.lit.toNat).setWidth 32, (qreg s s.cur.p r.lit.toNat >>> 32).setWidth 32].take w })) := by
  rw [exec_read, execRead, fire, fireWith_takes ht (badQ_eq_false hf (by rw [hw]; rfl) hlit)]
  simp only [hw, Nat.mod_eq_of_lt hlit, wordsLanes_word, Option.getD_some]

theorem readSendsARegister : ReadSendsARegister := by
  intro r s hf hlit ht v
  exact ⟨fun h => read_sends hf (qWidth_two h) hlit ht, fun h => read_sends hf (qWidth_one h) hlit ht⟩

/-! ## WRITE and the exits (09 R208, R209; 20 R401) -/

theorem onBlock_of_cur {s : State} {p : Nat} {b : Block} (h : (scribeAt s p).cur = some b) (f : Block → Block) :
    onBlock s p f = setScribe s p { scribeAt s p with cur := some (f b) } := by
  simp only [onBlock, h]

theorem inBlock_of_cur {s : State} {b : Block} (hsite : s.cur.site = 240) (h : (scribeAt s s.cur.p).cur = some b) : inBlock s = true := by
  rw [inBlock, hsite, h]
  rfl

/-- The word that WRITE records: two lanes, or lane 0 zero-extended. -/
theorem write_value (p : Prop) [Decidable p] (x : List Lane) :
    BitVec.ofNat 64 (laneN x 0 + if p then laneN x 1 * 2 ^ 32 else 0) = if p then x.getD 1 0 ++ x.getD 0 0 else (x.getD 0 0).setWidth 64 := by
  have h0 := (x.getD 0 0).isLt
  have h1 := (x.getD 1 0).isLt
  split <;> apply BitVec.eq_of_toNat_eq
  · rw [BitVec.toNat_append, BitVec.toNat_ofNat, ← Nat.shiftLeft_add_eq_or_of_lt h0, Nat.shiftLeft_eq, laneN, laneN]
    omega
  · rw [BitVec.toNat_setWidth, BitVec.toNat_ofNat, laneN, Nat.add_zero]

theorem write_records {r : RecN} {s : State} {b : Block} (hsite : s.cur.site = 240) (hb : (scribeAt s s.cur.p).cur = some b)
    (hf : MoveFields false false r) (hw : (qWidth r.fmt).isSome = true) (hlit : r.lit.toNat < 64) (hctl : badCtl [4] r.ctl = false)
    (hports : hasPorts s.cur (portSet [4] r.ctl) = true) (hpoison : (portTok s.cur 4).poison = false)
    (hblk : anyBlock s.cur (portSet [4] r.ctl) = false) :
    exec (.write r) s = .next (setScribe s s.cur.p { scribeAt s s.cur.p with
      cur := some { b with writes := b.writes ++ [(s.cur.node, r.lit.toNat,
        if anyNull s.cur (portSet [4] r.ctl) || predFalse r.ctl s.cur then none
        else some (if r.fmt = 3 ∨ r.fmt = 7 then (portTok s.cur 4).lanes.getD 1 0 ++ (portTok s.cur 4).lanes.getD 0 0
          else ((portTok s.cur 4).lanes.getD 0 0).setWidth 64))] } }) := by
  have hfire : ¬ ((!hasPorts s.cur (portSet [4] r.ctl)) = true ∨ (!inBlock s) = true) := by
    rw [hports, inBlock_of_cur hsite hb]; decide
  simp only [exec_write, execWrite, if_neg hfire, badQ_eq_false hf hw hlit, hctl, hblk, hpoison, Bool.or_self, Bool.false_eq_true, if_false,
    onBlock_of_cur hb, Nat.mod_eq_of_lt hlit, qWidth_eq_two_iff, write_value]

theorem exitFire_records {r : RecN} {s : State} {b : Block} {op : Nat} {bad : Bool} (hsite : s.cur.site = 240)
    (hb : (scribeAt s s.cur.p).cur = some b) (hbad : bad = false) (hf : MoveFields (op == 0x33) false r) (hfmt : r.fmt = 0)
    (hctl : badCtl [5] r.ctl = false) (hports : hasPorts s.cur (portSet [5] r.ctl) = true) (hpoison : (portTok s.cur 5).poison = false)
    (hblk : anyBlock s.cur (portSet [5] r.ctl) = false) :
    exitFire op bad r s = .next (if anyNull s.cur (portSet [5] r.ctl) || predFalse r.ctl s.cur then s
      else setScribe s s.cur.p { scribeAt s s.cur.p with
        cur := some { b with exits := b.exits ++ [(s.cur.node, op, r.lit, opx r, (portTok s.cur 5).lanes.getD 0 0)] } }) := by
  have hfire : ¬ ((!hasPorts s.cur (portSet [5] r.ctl)) = true ∨ (!inBlock s) = true) := by
    rw [hports, inBlock_of_cur hsite hb]; decide
  simp only [exitFire, if_neg hfire, hbad, bad1_eq_false.2 hf, hfmt, hctl, hblk, hpoison, bne_self_eq_false, Bool.or_self,
    Bool.false_eq_true, if_false, onBlock_of_cur hb]
  split <;> rfl

theorem blockRecordsAreCounted : BlockRecordsAreCounted := by
  intro r s b hsite hb c sc with_
  refine ⟨fun hf hw hlit hctl hports hpoison hblk => write_records hsite hb hf hw hlit hctl hports hpoison hblk, ?_⟩
  intro hcf hlevel hfmt hctl hports hpoison hblk taken
  refine ⟨fun hlit => ?_, fun hopx => ?_, fun hopx hlit => ?_⟩
  · exact (exec_branch r s).trans (exitFire_records hsite hb (by rw [Nat.div_eq_of_lt hlit]; rfl) ⟨hcf, .inl rfl, .inr hlevel⟩ hfmt hctl
      hports hpoison hblk)
  · exact (exec_bcall r s).trans (exitFire_records hsite hb rfl ⟨hcf, .inr hopx, .inr hlevel⟩ hfmt hctl hports hpoison hblk)
  · exact (exec_bret r s).trans (exitFire_records hsite hb (by rw [hlit]; rfl) ⟨hcf, .inr hopx, .inr hlevel⟩ hfmt hctl hports hpoison hblk)

/-! ## The conditions of a commit (02 R53; log 86) -/

theorem storesCounted_iff {b : Block} : storesCounted b = true ↔ ∀ i < 32, bit (headerMask b) i = true → i ∈ b.lsids := by
  simp only [storesCounted, List.all_eq_true, List.mem_range, Bool.or_eq_true, Bool.not_eq_true', List.contains_iff_mem]
  refine forall₂_congr fun i _ => ?_
  cases bit (headerMask b) i <;> simp

theorem mustFire_eq_false {s : State} {p : Nat} {b : Block} {n : Nat} :
    ¬ mustFire s p b n = true ↔ n ∈ b.fired ∨ Machine.opOf (blockRec s p b (n + 1)) = 0 := by
  simp only [mustFire, Bool.and_eq_true, bne_iff_ne, Bool.not_eq_true', ← List.contains_iff_mem]
  cases b.fired.contains n <;> simp

theorem commitConditions : CommitConditions := by
  intro s p b
  rw [blockDone, Bool.and_eq_true, Bool.and_eq_true, storesCounted_iff, beq_iff_eq, and_assoc]
  refine and_congr_right fun _ => and_congr_right fun _ => ?_
  cases hfin : isFinal s p b with
  | true =>
    simp only [if_true, Bool.not_eq_true', List.any_eq_false, List.mem_range, mustFire_eq_false, reduceCtorEq, false_implies, true_and,
      true_implies]
  | false =>
    simp only [Bool.false_eq_true, if_false, beq_iff_eq, true_implies, false_implies, and_true]

/-- Settles O30: what READ, WRITE and the exits do in a block, and when it may commit. -/
theorem blockRecords : Obligations.BlockRecords := ⟨readSendsARegister, blockRecordsAreCounted, commitConditions⟩

/-! ## Entry and commit (02 R52, R53) -/

theorem blocksAreEntered : BlocksAreEntered := by
  intro s k p sc hplane
  have hplane' : (panelAt s s.sel.p).scribePlane = some k := hplane
  refine ⟨fun hno => ?_, fun hmay hcount => ⟨fun hth => ?_, fun hth => ?_⟩, ?_⟩
  · simp only [exec_blockEntry, execBlockEntry, hplane', show mayEnter s s.sel.p k = false from hno, Bool.not_false, if_true]
    rfl
  · simp only [exec_blockEntry, execBlockEntry, hplane', show mayEnter s s.sel.p k = true from hmay, Bool.not_true, Bool.false_eq_true,
      if_false, show blockCount s s.sel.p ≤ (scribeAt s s.sel.p).next from hcount, if_true,
      show thand (scribeAt s s.sel.p) = false from hth]
    rfl
  · simp only [exec_blockEntry, execBlockEntry, hplane', show mayEnter s s.sel.p k = true from hmay, Bool.not_true, Bool.false_eq_true,
      if_false, show blockCount s s.sel.p ≤ (scribeAt s s.sel.p).next from hcount, if_true,
      show thand (scribeAt s s.sel.p) = true from hth]
    rfl
  · intro hmay hcount b s1
    have henter : exec .blockEntry s = .next (match takeIn s1 p b with
        | some (cause, info) => onBlock s1 p (fun b => { b with exc := some cause, excInfo := info })
        | none => (List.range (blockLen b)).foldl (fun s n => fireRead s p b n) s1) := by
      simp only [exec_blockEntry, execBlockEntry, hplane', show mayEnter s s.sel.p k = true from hmay, Bool.not_true, Bool.false_eq_true,
        if_false, Nat.not_le.2 (show (scribeAt s s.sel.p).next < blockCount s s.sel.p from hcount)]
      rfl
    exact ⟨fun h => by rw [henter, h], fun cause info h => by rw [henter, h]⟩

section
variable {s : State} {p k : Nat} {b : Block} {lit : BitVec 32} {o : Bool} {x : Lane}

/-- The block that an exit goes on at, when the kernel holds it. -/
def inKernel (s : State) (p : Nat) (x : Nat × List Nat) : Option (Nat × List Nat) := if x.1 < blockCount s p then some x else none

theorem exitGo_branch (h : b.exits = [(k, 0x33, lit, o, x)]) :
    exitGo s p b = inKernel s p (if o then x.toNat % 2 ^ 16 else lit.toNat % 2 ^ 16, (scribeAt s p).stack) := by
  simp only [exitGo, h]
  rfl

theorem exitGo_call (h : b.exits = [(k, 0x34, lit, o, x)]) :
    exitGo s p b = if 16 ≤ (scribeAt s p).stack.length then none
      else inKernel s p (lit.toNat % 2 ^ 16, (lit.toNat / 2 ^ 16) :: (scribeAt s p).stack) := by
  simp only [exitGo, h]
  rfl

theorem exitGo_ret (h : b.exits = [(k, 0x35, lit, o, x)]) :
    exitGo s p b = match (scribeAt s p).stack with
      | [] => none
      | t :: rest => inKernel s p (t, rest) := by
  simp only [exitGo, h]
  rfl

end

theorem blocksCommitOrFail : BlocksCommitOrFail := by
  intro s b p sc n goes fails hb hgate
  have hexit : ∀ h : b.exc = none, b.exits.length ≤ 1 → blockDone s p b = true → blockWaits s p b = false → exec .blockCommit s =
      if holdsTret b then
        (if tretBad s p b then .next (failBlock s p b cILLEGAL (tretInfo b)) else goes sc.next sc.stack)
      else if isFinal s p b then .next (commitBlock s p b none)
      else match exitGo s p b with
        | some x => .next (commitBlock s p b (some x))
        | none => fails := by
    intro hexc hone hdone hwaits
    have hnow : ¬ ((!blockDone s s.sel.p b) = true ∨ blockWaits s s.sel.p b = true) := by
      rw [show blockDone s s.sel.p b = true from hdone, show blockWaits s s.sel.p b = false from hwaits]; decide
    simp only [exec_blockCommit, execBlockCommit, show (scribeAt s s.sel.p).cur = some b from hb,
      show gatedCtx s s.sel.p 240 (planeOf s s.sel.p b.plane).ctx = false from hgate, hexc, Bool.false_eq_true, if_false,
      if_neg (show ¬ 2 ≤ b.exits.length by omega), if_neg hnow]
    rfl
  refine ⟨fun cause hexc => ?_, fun hexc htwo => ?_, fun hexc hone hwait => ?_, fun hexc hone hdone hwaits htret => ⟨fun hfin => ?_, fun hfin => ?_⟩,
    fun hexc hone hdone hwaits htret => ⟨fun hbad => ?_, fun hok => ?_⟩⟩
  · simp only [exec_blockCommit, execBlockCommit, show (scribeAt s s.sel.p).cur = some b from hb,
      show gatedCtx s s.sel.p 240 (planeOf s s.sel.p b.plane).ctx = false from hgate, hexc, Bool.false_eq_true, if_false]
    rfl
  · simp only [exec_blockCommit, execBlockCommit, show (scribeAt s s.sel.p).cur = some b from hb,
      show gatedCtx s s.sel.p 240 (planeOf s s.sel.p b.plane).ctx = false from hgate, hexc, Bool.false_eq_true, if_false, if_pos htwo]
    rfl
  · have hnow : (!blockDone s s.sel.p b) = true ∨ blockWaits s s.sel.p b = true := by
      rw [Bool.not_eq_true']; exact hwait
    simp only [exec_blockCommit, execBlockCommit, show (scribeAt s s.sel.p).cur = some b from hb,
      show gatedCtx s s.sel.p 240 (planeOf s s.sel.p b.plane).ctx = false from hgate, hexc, Bool.false_eq_true, if_false,
      if_neg (show ¬ 2 ≤ b.exits.length by omega), if_pos hnow]
    rfl
  · rw [hexit hexc hone hdone hwaits, if_neg (by rw [htret]; decide), if_pos hfin]
  · have hgoes : ∀ x, exitGo s p b = some x → exec .blockCommit s = .next (commitBlock s p b (some x)) := by
      intro x hx
      rw [hexit hexc hone hdone hwaits, if_neg (by rw [htret]; decide), if_neg (by rw [hfin]; decide), hx]
    have hfails : exitGo s p b = none → exec .blockCommit s = fails := by
      intro hx
      rw [hexit hexc hone hdone hwaits, if_neg (by rw [htret]; decide), if_neg (by rw [hfin]; decide), hx]
    refine ⟨fun k lit x he hlt => hgoes _ ?_, fun k lit x he hlt => hgoes _ ?_, fun k lit o x he hlt hroom => hgoes _ ?_,
      fun k lit o x he hfull => hfails ?_, fun k lit o x t rest he hst hlt => hgoes _ ?_, fun k lit o x he hst => hfails ?_⟩
    · rw [exitGo_branch he, if_neg Bool.false_ne_true]; exact if_pos hlt
    · rw [exitGo_branch he, if_pos rfl]; exact if_pos hlt
    · rw [exitGo_call he, if_neg (Nat.not_le.2 hroom)]; exact if_pos hlt
    · rw [exitGo_call he]; exact if_pos hfull
    · rw [exitGo_ret he, show (scribeAt s p).stack = t :: rest from hst]; exact if_pos hlt
    · rw [exitGo_ret he, show (scribeAt s p).stack = [] from hst]
  · rw [hexit hexc hone hdone hwaits, if_pos htret, if_pos hbad]
  · rw [hexit hexc hone hdone hwaits, if_pos htret, if_neg (by rw [hok]; decide)]

/-- Settles O31: how a block is entered, commits or fails. -/
theorem blocks : Obligations.Blocks := ⟨blocksAreEntered, blocksCommitOrFail⟩

end Sys2Proof.Proofs
end

section
/-!
PROOF. Traps and uncorrectable errors (20 R396 to R400).
-/
namespace Sys2Proof.Proofs
open Sys2Proof.Machine Sys2Proof.Safety Sys2Proof.Claims

/-! ## When a trap is taken (R397, R399) -/

theorem trapsAreTaken : TrapsAreTaken := by
  intro s p sc
  refine ⟨fun hno => ?_, fun d hcur hgo hgate hth hdue => ?_⟩
  · rw [exec_trapTaken, execTrapTaken]
    by_cases hb : ¬ atBoundary s s.sel.p = true ∨ thand (scribeAt s s.sel.p) = true
    · exact if_pos (by simpa using hb)
    · obtain ⟨hat, hth⟩ := not_or.1 hb
      have hcur : (scribeAt s s.sel.p).cur = none := by
        simp only [atBoundary, Bool.and_eq_true, not_not, Option.isNone_iff_eq_none] at hat
        exact hat.1.1
      have hdue : trapDue s s.sel.p = none := by
        rcases hno with h | h | h
        · exact absurd hcur h
        · exact absurd h hth
        · exact h
      rw [if_neg (by simpa using hb), hdue]
      rfl
  · have hat : atBoundary s s.sel.p = true := by
      rw [atBoundary, show (scribeAt s s.sel.p).cur = none from hcur, show (scribeAt s s.sel.p).stopped = false from hgo,
        show gatedCtx s s.sel.p 240 (blockCtx s s.sel.p) = false from hgate]
      rfl
    have htaken : exec .trapTaken s = .next (if handlerOk s p then takeTrap s p d else doubleFault s p d.cause d.code) := by
      rw [exec_trapTaken, execTrapTaken, if_neg (by rw [hat, show thand (scribeAt s s.sel.p) = false from hth]; decide),
        show trapDue s s.sel.p = some d from hdue]
    exact ⟨fun h => by rw [htaken, if_pos h], fun h => by rw [htaken, if_neg (by rw [h]; decide)]⟩

/-! ## Entry and return (R396 to R398) -/

/-- TSTAT as a trap leaves it: the cause, the kind, THAND and the code, none reaching into another. -/
theorem tstat_toNat {cause kind code : Nat} (hc : cause < 256) (hk : kind < 4) (hcode : code < 2 ^ 16) :
    (BitVec.ofNat 64 (put cause 56 + put kind 54 + put 1 53 + code)).toNat = put cause 56 + put kind 54 + put 1 53 + code := by
  rw [BitVec.toNat_ofNat, Nat.mod_eq_of_lt]
  simp only [put]
  omega

theorem bit_thand_of_trap {cause kind code : Nat} (hcode : code < 2 ^ 16) : bit (put cause 56 + put kind 54 + put 1 53 + code) 53 = true := by
  simp only [bit, put, beq_iff_eq]
  omega

theorem bit_sub_thand {v : Nat} : bit (v - if bit v 53 = true then put 1 53 else 0) 53 = false := by
  by_cases h : bit v 53 = true
  · rw [if_pos h]
    simp only [bit, put, beq_iff_eq, beq_eq_false_iff_ne] at h ⊢
    omega
  · rw [if_neg h, Nat.sub_zero]
    exact Bool.eq_false_iff.2 h

theorem trapReturn_thand (sc : Scribe) : bit (BitVec.ofNat 64 (sc.tstat.toNat - if thand sc = true then put 1 53 else 0)).toNat 53 = false := by
  rw [BitVec.toNat_ofNat, Nat.mod_eq_of_lt (by have := sc.tstat.isLt; omega)]
  exact bit_sub_thand

theorem bits_low (v hi : Nat) : bits v hi 0 = v % 2 ^ (hi + 1) := by
  rw [bits, Nat.pow_zero, Nat.div_one, Nat.sub_zero]

theorem trapEntryAndReturn : TrapEntryAndReturn := by
  intro s p d hcause hkind hcode sc
  refine ⟨⟨_, rfl, tstat_toNat hcause hkind hcode, ?_, ?_, rfl, ?_, ?_, ?_, rfl, rfl, rfl, rfl, rfl⟩,
    ⟨_, rfl, trapReturn_thand _, rfl, rfl, rfl, ?_, ?_⟩⟩
  · rw [thand, tstat_toNat hcause hkind hcode]
    exact bit_thand_of_trap hcode
  · exact bits_low _ 15
  · intro c i blk hex hblk
    simp only [show (scribeAt s p).exact = some (c, i, blk) from hex, BitVec.toNat_ofNat]
    exact Nat.mod_eq_of_lt (by omega)
  · intro hex hrest
    simp only [show (scribeAt s p).exact = none from hex, show (scribeAt s p).resting = true from hrest, if_true]
    rfl
  · intro hex hrest hnext
    simp only [show (scribeAt s p).exact = none from hex, show (scribeAt s p).resting = false from hrest, Bool.false_eq_true, if_false,
      BitVec.toNat_ofNat]
    exact Nat.mod_eq_of_lt (by have : (scribeAt s p).next < 2 ^ 16 := hnext; omega)
  · rw [← bits_low _ 15]
    exact fun h => beq_iff_eq.2 h
  · rw [← bits_low _ 15]
    exact fun h => ⟨beq_eq_false_iff_ne.2 h, if_neg h⟩

theorem trapsAreOrdered : TrapsAreOrdered := by
  intro s p sc ctx
  refine ⟨fun cause info blk hex => ?_, fun code hex hpend => ?_, fun hex hpend hlate hne => ?_, fun hex hpend hlate => ?_⟩
  · simp only [trapDue, show (scribeAt s p).exact = some (cause, info, blk) from hex]
  · simp only [trapDue, show (scribeAt s p).exact = none from hex, show (scribeAt s p).trapPend = some code from hpend]
    rfl
  · simp only [trapDue, show (scribeAt s p).exact = none from hex, show (scribeAt s p).trapPend = none from hpend]
    exact if_pos ⟨hlate, hne⟩
  · have hbox : trapDue s p = match (boxAt s p).entries.find? (fun e => e.ctx == ctx && bit sc.tenable.toNat e.cause) with
        | some e => some { cause := e.cause, kind := 3, code := e.info % 2 ^ 16 }
        | none => none := by
      simp only [trapDue, show (scribeAt s p).exact = none from hex, show (scribeAt s p).trapPend = none from hpend,
        show (scribeAt s p).latePend = false from hlate, Bool.false_eq_true, false_and, if_false]
      rfl
    refine ⟨fun e he => by rw [hbox, he], fun hall => ?_⟩
    rw [hbox, List.find?_eq_none.2 (fun e he => by simpa using hall e he)]

/-! ## Errors strike their store (R400) -/

theorem execUncorrectableError_record (s : State) {p plane node : Nat} (h : s.sel.loc = .record p 240 plane node) :
    ∃ t, exec .uncorrectableError s = .next t ∧ node ∈ (scribeAt t p).storeBad := by
  rw [exec_uncorrectableError, execUncorrectableError]
  simp only [h, if_true]
  generalize loadError s p (node / 64 / 256) = u
  refine ⟨_, rfl, ?_⟩
  let x : Scribe := { scribeAt u p with storeBad := node :: (scribeAt u p).storeBad.filter (· != node) }
  show node ∈ (scribeAt (setScribe u p x) p).storeBad
  have hne : x ≠ {} := fun e => List.cons_ne_nil _ _ (congrArg Scribe.storeBad e)
  rw [scribeAt_setScribe u p hne]
  exact List.mem_cons_self ..

theorem errorsStrikeTheirStore : ErrorsStrikeTheirStore := by
  intro s x
  have hexec : exec .uncorrectableError s = execUncorrectableError s := exec_uncorrectableError s
  refine ⟨fun addr g h ha hd hg => ?_, fun die addr g e h he => ?_, fun p w sector h hw hs => ?_,
    fun p site k g port t h hg ho => ?_, fun k f h hf => ?_, fun p plane node h => execUncorrectableError_record s h⟩
  · rw [hexec, execUncorrectableError]
    simp only [show s.sel.loc = .dram addr g from h, if_neg (show ¬ (3 * 2 ^ 42 ≤ addr ∨ 3 * 2 ^ 40 ≤ addr % 2 ^ 42 ∨ 48 ≤ g) by omega)]
    rfl
  · rw [hexec, execUncorrectableError]
    simp only [show s.sel.loc = .l2 die addr g from h, he]
    rfl
  · rw [hexec, execUncorrectableError]
    simp only [show s.sel.loc = .well p w sector from h, hw, Bool.not_true, Bool.false_eq_true, false_or, if_neg (Nat.not_le.2 hs)]
    rfl
  · rw [hexec, execUncorrectableError]
    simp only [show s.sel.loc = .row p site k from h, strikeRow, hg, strikeOp, show g.ops[s.sel.num]? = some (port, t) from ho, Option.map_some,
      strikeTok]
    rfl
  · rw [hexec, execUncorrectableError]
    simp only [show s.sel.loc = .outQueue k from h, hf, strikeTok]

/-- Settles O32: taking a trap and returning from it, the order of traps, and the strike of an error. -/
theorem traps : Obligations.Traps := ⟨trapsAreTaken, trapEntryAndReturn, trapsAreOrdered, errorsStrikeTheirStore⟩

end Sys2Proof.Proofs
end

section
/-!
PROOF. The memory records at their firing: the checks and the access that is issued (11 R235 to R239; 08 R168, R179; 20 R401).
-/
namespace Sys2Proof.Proofs
open Sys2Proof.Machine Sys2Proof.Safety Sys2Proof.Claims

/-! ## Two changes of the block that a scribe holds -/

theorem setScribe_setScribe (s : State) (p : Nat) {x y : Scribe} (hx : x ≠ {}) (hy : y ≠ {}) :
    setScribe (setScribe s p x) p y = setScribe s p y := by
  simp only [setScribe, tsetD, if_neg hx, if_neg hy, tput_tput]

theorem scribe_of_block_ne {x : Scribe} {b : Block} (h : x.cur = some b) : x ≠ {} :=
  fun e => Option.some_ne_none b (h.symm.trans (congrArg Scribe.cur e))

theorem onBlock_onBlock (s : State) (p : Nat) (f g : Block → Block) : onBlock (onBlock s p f) p g = onBlock s p (fun b => g (f b)) := by
  cases h : (scribeAt s p).cur with
  | none => simp only [onBlock, h]
  | some b =>
    have hx (z : Block) : { scribeAt s p with cur := some z } ≠ ({} : Scribe) := scribe_of_block_ne rfl
    rw [onBlock_of_cur h, onBlock_of_cur h, onBlock_of_cur (b := f b) (by rw [scribeAt_setScribe s p (hx _)]),
      scribeAt_setScribe s p (hx _), setScribe_setScribe s p (hx _) (hx _)]

/-! ## What a firing whose checks pass does (R239; 02 R52, R53) -/

section
variable {s : State} {op : Nat} {r : RecM}

theorem memFire_issues (hports : hasPorts s.cur (portSet (basePorts op) r.ctl) = true) (hbad : memBad s op r = none)
    (hnow : storeClass op = false ∨ s.cur.site ≠ 240 ∨ s.cur.late = true) :
    memFire op r s = .next (toSite { s with fresh := s.fresh + 1 } (accessOf s op r)) := by
  have hheld : ¬ (storeClass op = true ∧ inBlock { s with fresh := s.fresh + 1 } = true ∧ (!s.cur.late) = true) := by
    rintro ⟨hst, hin, hl⟩
    rcases hnow with h | h | h
    · exact Bool.false_ne_true (h.symm.trans hst)
    · rw [inBlock, beq_eq_false_iff_ne.2 h] at hin
      exact Bool.false_ne_true hin
    · rw [h] at hl
      exact Bool.false_ne_true hl
  simp only [memFire, hports, hbad, Bool.not_true, Bool.false_eq_true, if_false, if_neg hheld]

theorem memFire_holds {b : Block} (hports : hasPorts s.cur (portSet (basePorts op) r.ctl) = true) (hbad : memBad s op r = none)
    (hst : storeClass op = true) (hsite : s.cur.site = 240) (hlate : s.cur.late = false) (hb : (scribeAt s s.cur.p).cur = some b) :
    memFire op r s = .next (
      let s1 := onBlock { s with fresh := s.fresh + 1 } s.cur.p (fun b => { b with lsids := b.lsids ++ [r.lsid.toNat] })
      if op = 0x84 then toSite s1 (accessOf s op r)
      else onBlock s1 s.cur.p (fun b => { b with stores := b.stores ++ [accessOf s op r] })) := by
  have hheld : storeClass op = true ∧ inBlock { s with fresh := s.fresh + 1 } = true ∧ (!s.cur.late) = true :=
    ⟨hst, inBlock_of_cur hsite hb, by rw [hlate]; rfl⟩
  simp only [memFire, hports, hbad, Bool.not_true, Bool.false_eq_true, if_false, if_pos hheld]
  split <;> rfl

theorem accessOf_of_ne (h : op ≠ 0x8F) : accessOf s op r =
    { id := s.fresh, op := op, r := r, p := s.cur.p, site := s.cur.site, plane := s.cur.plane, node := s.cur.node, tag := s.cur.tag
      ctx := matchCtx s s.cur.p s.cur.plane s.cur.tag, a := portTok? s.cur 0, b := portTok? s.cur 1, c := portTok? s.cur 2
      isNull := anyNull s.cur (portSet (basePorts op) r.ctl) || predFalse r.ctl s.cur, born := s.cycle, late := s.cur.late } := by
  simp only [accessOf, h, if_false, false_and]

theorem portA_of_anyNull {base : List Nat} {k : Ctl} {c : Cur} (h : anyNull c (portSet (0 :: base) k) = false) : (portTok c 0).null = false := by
  have hmem : 0 ∈ portSet (0 :: base) k := by simp [portSet]
  simpa using List.any_eq_false.1 h 0 hmem

theorem accessOf_acc (hnull : anyNull s.cur (portSet (basePorts 0x8F) r.ctl) = false) (hpred : predFalse r.ctl s.cur = false) :
    accessOf s 0x8F r =
    { id := s.fresh, op := 0x8F, r := r, p := s.cur.p, site := s.cur.site, plane := s.cur.plane, node := s.cur.node, tag := s.cur.tag
      ctx := matchCtx s s.cur.p s.cur.plane s.cur.tag, a := portTok? s.cur 0, b := portTok? s.cur 1, c := portTok? s.cur 2
      isNull := anyNull s.cur (portSet (basePorts 0x8F) r.ctl) || predFalse r.ctl s.cur, born := s.cycle, late := s.cur.late } := by
  have ha : (portTok s.cur 0).null = false := portA_of_anyNull (base := [1]) hnull
  simp only [accessOf, hnull, hpred, ha, Bool.or_self, Bool.false_eq_true, and_false, if_false, if_true]

end

theorem memoryRecordsIssueAnAccess : MemoryRecordsIssueAnAccess := by
  intro r s c s1 acc wait counted load store
  have hload : ∀ op i, exec i s = memFire op r s → storeClass op = false → op ≠ 0x8F → load op i := by
    intro op i hi hst hne hports hbad
    rw [hi, memFire_issues hports hbad (.inl hst), accessOf_of_ne hne]
    rfl
  have hstore : ∀ op i, exec i s = memFire op r s → storeClass op = true → op ≠ 0x8F → op ≠ 0x84 → store op i := by
    intro op i hi hst hne hmnop hports hbad
    refine ⟨fun hout => ?_, fun b hsite hlate hb => ?_⟩
    · rw [hi, memFire_issues hports hbad (.inr hout), accessOf_of_ne hne]
      rfl
    · have hb1 : (scribeAt s1 s.cur.p).cur = some b := hb
      rw [hi, memFire_holds hports hbad hst hsite hlate hb]
      simp only [if_neg hmnop, onBlock_onBlock, accessOf_of_ne hne]
      rw [onBlock_of_cur hb1]
      rfl
  refine ⟨hload _ _ (exec_ld r s) rfl (by decide), hload _ _ (exec_ldx r s) rfl (by decide), hload _ _ (exec_ldp r s) rfl (by decide),
    hload _ _ (exec_fence r s) rfl (by decide), hload _ _ (exec_order r s) rfl (by decide),
    hstore _ _ (exec_st r s) rfl (by decide) (by decide), hstore _ _ (exec_stx r s) rfl (by decide) (by decide),
    hstore _ _ (exec_aadd r s) rfl (by decide) (by decide), hstore _ _ (exec_amin r s) rfl (by decide) (by decide),
    hstore _ _ (exec_amax r s) rfl (by decide) (by decide), hstore _ _ (exec_aand r s) rfl (by decide) (by decide),
    hstore _ _ (exec_aor r s) rfl (by decide) (by decide), hstore _ _ (exec_axor r s) rfl (by decide) (by decide),
    hstore _ _ (exec_axchg r s) rfl (by decide) (by decide), hstore _ _ (exec_acas r s) rfl (by decide) (by decide),
    hstore _ _ (exec_wcfg r s) rfl (by decide) (by decide), hstore _ _ (exec_wfull r s) rfl (by decide) (by decide),
    hstore _ _ (exec_wempty r s) rfl (by decide) (by decide), hload _ _ (exec_promote r s) rfl (by decide), ?_, ?_⟩
  · intro hports hbad
    refine ⟨fun hout => ?_, fun b hsite hlate hb => ?_⟩
    · rw [exec_mnop, execMnop, memFire_issues hports hbad (.inr hout), accessOf_of_ne (by decide)]
      rfl
    · have hb1 : (scribeAt s1 s.cur.p).cur = some b := hb
      rw [exec_mnop, execMnop, memFire_holds hports hbad rfl hsite hlate hb]
      simp only [if_true, accessOf_of_ne (op := 0x84) (by decide)]
      rw [onBlock_of_cur hb1]
      rfl
  · intro hports hbad hout hnull hpred
    rw [exec_acc, execAcc, memFire_issues hports hbad (.inr hout), accessOf_acc hnull hpred]
    rfl

/-! ## What a memory record may not hold (08 R168, R179; R235, R236) -/

/-- The loads, stores and atomics of the checks. -/
def checkedOps : List Nat := [0x80, 0x81, 0x82, 0x83, 0x87, 0x8E]

section
variable {s : State} {op : Nat} {r : RecM}

theorem memFmtOk_lt (hop : op ∈ checkedOps) {f : BitVec 4} (h : 14 ≤ f.toNat) : memFmtOk op f = false := by
  simp only [checkedOps, List.mem_cons, List.not_mem_nil, or_false] at hop
  rcases hop with rfl | rfl | rfl | rfl | rfl | rfl <;> simp [memFmtOk, isScatter, isOrdering, isAtomic] <;> omega

theorem memPlaceOk_checked (hop : op ∈ checkedOps) : memPlaceOk op r =
    ((isWell r.osite.toNat || isEau r.osite.toNat) && r.scope.toNat < 6 && r.space != 3 && (!isWell r.osite.toNat || r.space != 2) &&
      (isWell r.osite.toNat || r.space != 0)) := by
  simp only [checkedOps, List.mem_cons, List.not_mem_nil, or_false] at hop
  rcases hop with rfl | rfl | rfl | rfl | rfl | rfl <;> rfl

theorem hasAddr_checked (hop : op ∈ checkedOps) : hasAddr op = true ∧ op ≠ 0x8F := by
  revert op
  decide

theorem memBad_illegal (h : memFmtOk op r.fmt = false ∨ memPlaceOk op r = false ∨ memLsidOk s op r = false ∨ r.d1lo ≠ 0 ∨ r.ctl.lituse ≠ 0) :
    memBad s op r = some cILLEGAL := by
  refine if_pos ?_
  rcases h with h | h | h | h | h
  · simp [h]
  · simp [h]
  · simp [h]
  · rw [bne_iff_ne.2 h, Bool.or_true, Bool.true_or, Bool.true_or]
  · rw [bne_iff_ne.2 h, Bool.or_true, Bool.true_or]

theorem memBad_of_not_illegal (hop : op ≠ 0x8F) (h : memBad s op r ≠ some cILLEGAL) : memBad s op r =
    if r.space = 2 ∧ privOf s (matchCtx s s.cur.p s.cur.plane s.cur.tag) = 0 then some cPERMISSION
    else if hasAddr op && (portTok s.cur 0).poison && !(portTok s.cur 0).null then some cPOISON
    else none := by
  simp only [memBad, hop, false_and, if_false] at h ⊢
  exact if_neg fun hfields => h (if_pos hfields)

theorem memFire_faults {k : Nat} (hports : hasPorts s.cur (portSet (basePorts op) r.ctl) = true) (hbad : memBad s op r = some k) :
    memFire op r s = .next (faultCur s s.cur k 0) := by
  simp only [memFire, hports, hbad, Bool.not_true, Bool.false_eq_true, if_false]

end

theorem memoryRecordsAreChecked : MemoryRecordsAreChecked := by
  intro r s op i hi c hports
  obtain ⟨hexec, hop⟩ : exec i s = memFire op r s ∧ op ∈ checkedOps := by
    simp only [List.mem_cons, Prod.mk.injEq, List.not_mem_nil, or_false] at hi
    rcases hi with ⟨rfl, rfl⟩ | ⟨rfl, rfl⟩ | ⟨rfl, rfl⟩ | ⟨rfl, rfl⟩ | ⟨rfl, rfl⟩ | ⟨rfl, rfl⟩ <;> exact ⟨rfl, by decide⟩
  obtain ⟨haddr, hne⟩ := hasAddr_checked hop
  have hfault : ∀ k, memBad s op r = some k → exec i s = .next (faultCur s c k 0) := fun k h => hexec.trans (memFire_faults hports h)
  refine ⟨fun h => hfault _ (memBad_illegal ?_), hfault, fun hill hsp hpriv => hfault _ ?_, fun hill hperm hpoison hnull => hfault _ ?_⟩
  · rw [memPlaceOk_checked hop]
    rcases h with h | h | h | h | ⟨hw, he⟩ | ⟨hw, hsp⟩ | h | ⟨hsite, hl⟩
    · exact .inr (.inr (.inr (.inl h)))
    · exact .inr (.inr (.inr (.inr h)))
    · exact .inr (.inl (by simp [h]))
    · exact .inr (.inl (by simp [Nat.not_lt.2 h]))
    · exact .inr (.inl (by simp [hw, he]))
    · exact .inr (.inl (by simp [hw, hsp]))
    · exact .inl (memFmtOk_lt hop h)
    · refine .inr (.inr (.inl ?_))
      have hsite' : (s.cur.site == 240) = false := beq_eq_false_iff_ne.2 hsite
      rw [memLsidOk, hsite', beq_eq_false_iff_ne.2 hl]
      rfl
  · rw [memBad_of_not_illegal hne hill, if_pos ⟨hsp, hpriv⟩]
  · rw [memBad_of_not_illegal hne hill, if_neg (not_and_or.2 hperm), haddr, show (portTok s.cur 0).poison = true from hpoison,
      show (portTok s.cur 0).null = false from hnull]
    rfl

/-- Settles O33: a memory record is checked, and issues one access. -/
theorem memoryRecords : Obligations.MemoryRecords := ⟨memoryRecordsIssueAnAccess, memoryRecordsAreChecked⟩

end Sys2Proof.Proofs
end

section
/-!
PROOF. The release rule of the order buffers and the combiner (05 R108; 11 R245, R246).
-/
namespace Sys2Proof.Proofs
open Sys2Proof.Machine Sys2Proof.Safety Sys2Proof.Claims

/-! ## The release rule (05 R108) -/

theorem mayRelease_closed {r : RecM} : mayRelease none r = true ↔ r.seq = 0 := beq_iff_eq

theorem mayRelease_open {r : RecM} {c : Chain} {seq next : Nat} (h : c.last = some (seq, next)) :
    mayRelease (some c) r = true ↔ (r.seq ≠ 0 ∧ r.prev.toNat = seq) ∨ r.seq.toNat = next := by
  simp only [mayRelease, h, Bool.or_eq_true, Bool.and_eq_true, bne_iff_ne, beq_iff_eq, ne_eq, eq_comm (a := next)]

theorem orderBufferReleasesInChainOrder : OrderBufferReleasesInChainOrder := by
  intro s a p site o hk hlt hgate hstuck rest chain go
  have hexec : exec .orderBufferRelease s = execOrderBufferRelease s := exec_orderBufferRelease s
  have hk' : (obufAt s s.sel.p s.sel.site).waiting[s.sel.k]? = some a := hk
  have hgate' : gatedCtx s s.sel.p s.sel.site a.ctx = false := hgate
  have hstuck' : (obufAt s s.sel.p s.sel.site).released.any (fun b => b.tag == a.tag && (b.heldFault || (b.op == 0x85 && !b.isNull))) = false := hstuck
  refine ⟨fun hclosed => ⟨fun hseq hroom => ?_, fun hseq => ?_⟩, fun j c seq next hopen hj hlast => ⟨fun hrel => ?_, fun hrel => ?_⟩⟩
  · have hgo : ¬ (64 ≤ s.sel.k ∨ (!mayRelease none a.r) = true ∨ False ∨ (True ∧ 32 ≤ ((obufAt s s.sel.p s.sel.site).chains.filter (fun c => !c.closed)).length) ∨ False) := by
      have : ((obufAt s s.sel.p s.sel.site).chains.filter (fun c => !c.closed)).length < 32 := hroom
      rw [mayRelease_closed.2 hseq]
      simp
      omega
    rw [hexec, execOrderBufferRelease]
    simp only [hk', show openChain (obufAt s s.sel.p s.sel.site) a.tag = none from hclosed, hgate', hstuck', Option.bind_none, Option.isNone_none,
      Bool.false_eq_true, if_neg hgo, Option.map_none, Option.getD_none, Bool.or_false]
    rfl
  · have hno : (!mayRelease none a.r) = true := by
      rw [Bool.not_eq_true', ← Bool.not_eq_true, mayRelease_closed]
      exact hseq
    rw [hexec, execOrderBufferRelease]
    simp only [hk', show openChain (obufAt s s.sel.p s.sel.site) a.tag = none from hclosed, Option.bind_none, hno, true_or, or_true, if_true]
    rfl
  · have hgo : ¬ (64 ≤ s.sel.k ∨ (!mayRelease (some c) a.r) = true ∨ False ∨ (False ∧ 32 ≤ ((obufAt s s.sel.p s.sel.site).chains.filter (fun c => !c.closed)).length) ∨ False) := by
      rw [(mayRelease_open hlast).2 hrel]
      simp
      omega
    rw [hexec, execOrderBufferRelease]
    simp only [hk', show openChain (obufAt s s.sel.p s.sel.site) a.tag = some j from hopen, hgate', hstuck', Option.bind_some, 
      show (obufAt s s.sel.p s.sel.site).chains[j]? = some c from hj, Option.isNone_some,
      Bool.false_eq_true, if_neg hgo, Option.map_some, Option.getD_some]
    rfl
  · have hno : (!mayRelease (some c) a.r) = true := by
      rw [Bool.not_eq_true', ← Bool.not_eq_true, mayRelease_open hlast]
      exact hrel
    rw [hexec, execOrderBufferRelease]
    simp only [hk', show openChain (obufAt s s.sel.p s.sel.site) a.tag = some j from hopen, Option.bind_some,
      show (obufAt s s.sel.p s.sel.site).chains[j]? = some c from hj, hno, true_or, or_true, if_true]
    rfl

/-! ## Addends (11 R245, R246) -/

section
variable {s : State} {k place addr i cnt : Nat} {a : Access} {base : Word64}
  (hnew : idxOf (slotIs place addr base) s.accSlots = none) (hroom : (s.accSlots.filter (fun x => x.place == place)).length < 16)
include hnew hroom

theorem addendAt_beyond (hreply : a.reply = none) (hi : cnt ≤ i) : addendAt s k place addr a i cnt base =
    some (advance (accFault { s with addends := dropAt s.addends k, accSlots := s.accSlots ++
      [{ place := place, addr := addr, base := base, next := 0, cnt := cnt, staged := [] }] } a cILLEGAL (elemAddr a 0)) a.p (ositeOf a)) := by
  have hroom' : ¬ (True ∧ 16 ≤ (s.accSlots.filter (fun x => x.place == place)).length) := fun h => Nat.not_lt.2 h.2 hroom
  simp only [addendAt, hnew, Option.isNone_none, if_neg hroom', hi, true_or, or_true, if_true, hreply, Option.isSome_none, Bool.false_eq_true,
    if_false]

theorem addendAt_ahead (hpos : 0 < i) (hi : i < cnt)
    (hstage : ((s.accSlots.filter (fun x => x.place == place)).map (fun x => x.staged.length)).foldl (· + ·) 0 < 64) :
    addendAt s k place addr a i cnt base =
      some { s with addends := dropAt s.addends k, accSlots := s.accSlots.filter (fun x => !slotIs place addr base x) ++
        [{ place := place, addr := addr, base := base, next := 0, cnt := cnt, staged := [(i, a)] }] } := by
  have hroom' : ¬ (True ∧ 16 ≤ (s.accSlots.filter (fun x => x.place == place)).length) := fun h => Nat.not_lt.2 h.2 hroom
  have hok : ¬ (cnt ≠ cnt ∨ cnt ≤ i ∨ i < 0 ∨ False) := by rw [or_false]; omega
  have hstage' : ¬ (0 < i ∧ 64 ≤ ((s.accSlots.filter (fun x => x.place == place)).map (fun x => x.staged.length)).foldl (· + ·) 0) :=
    fun h => Nat.not_lt.2 h.2 hstage
  have hrun : (i == 0) = false := beq_eq_false_iff_ne.2 (by omega)
  have hlast : ¬ 0 = cnt := by omega
  simp only [addendAt, hnew, Option.isNone_none, if_neg hroom', List.any_nil, Bool.false_eq_true, if_neg hok, if_neg hstage', List.nil_append,
    List.length_singleton, applyRun, List.find?_cons, List.find?_nil, hrun, if_neg hlast]

theorem addendAt_first (hcnt : 0 < cnt) : addendAt s k place addr a 0 cnt base =
    let y := applyAddend { s with addends := dropAt s.addends k } place a
    let t := ackAddend y.1 y.2.1 0 cnt y.2.2
    let others := t.accSlots.filter (fun x => !slotIs place addr base x)
    some { t with accSlots := if cnt = 1 then others else others ++
      [{ place := place, addr := addr, base := base, next := 1, cnt := cnt, staged := [] }] } := by
  have hroom' : ¬ (True ∧ 16 ≤ (s.accSlots.filter (fun x => x.place == place)).length) := fun h => Nat.not_lt.2 h.2 hroom
  have hok : ¬ (cnt ≠ cnt ∨ cnt ≤ 0 ∨ 0 < 0 ∨ False) := by rw [or_false]; omega
  have hstage' : ¬ (0 < 0 ∧ 64 ≤ ((s.accSlots.filter (fun x => x.place == place)).map (fun x => x.staged.length)).foldl (· + ·) 0) := by omega
  simp only [addendAt, hnew, Option.isNone_none, if_neg hroom', List.any_nil, Bool.false_eq_true, if_neg hok, if_neg hstage', List.nil_append,
    List.length_singleton, applyRun, List.find?_cons, beq_self_eq_true, eq_comm (b := cnt)]
  rfl

end

theorem addendsApplyInIndexOrder : AddendsApplyInIndexOrder := by
  intro s place addr a hk hracc hreply cnt i base s0 here hnew hroom
  have hexec : exec .accAddend s = match addendAt s s.sel.k place addr a i cnt base with
      | some s' => .next s'
      | none => notNow := by
    rw [exec_accAddend, execAccAddend]
    simp only [hk, hracc, Option.getD_none]
    rfl
  refine ⟨fun hi => ?_, fun hpos hi hstage => ?_, fun hzero hcnt => ?_⟩
  · rw [hexec, addendAt_beyond hnew hroom hreply hi]
  · rw [hexec, addendAt_ahead hnew hroom hpos hi hstage]
  · rw [hexec, hzero, addendAt_first hnew hroom hcnt]

/-- Settles O34: order buffers release in chain order, and addends apply in index order. -/
theorem orderingAndAddends : Obligations.OrderingAndAddends := ⟨orderBufferReleasesInChainOrder, addendsApplyInIndexOrder⟩

end Sys2Proof.Proofs
end

section
/-!
PROOF. Accesses of wells, the sectors that their generators serve, and the bytes of a memory (04 R83 to R89; 11 R237 to R240; 00 R2).
-/
namespace Sys2Proof.Proofs
open Sys2Proof.Machine Sys2Proof.Safety Sys2Proof.Claims

/-! ## Tables that read alike are equal -/

section
variable {α : Type}

theorem keysRise_of_above {t : Tab α} {lo : Nat} (h : keysAbove lo t = true) : keysRise t = true := by
  cases t with
  | nil => rfl
  | cons x t => exact (Bool.and_eq_true_iff.1 h).2

theorem tget?_mem {t : Tab α} {k : Nat} {v : α} (h : tget? t k = some v) : (k, v) ∈ t := by
  induction t with
  | nil => cases h
  | cons x t ih =>
    obtain ⟨j, w⟩ := x
    rw [tget?] at h
    split at h
    next hk => cases h; rw [hk]; exact List.mem_cons_self ..
    next => exact List.mem_cons_of_mem _ (ih h)

theorem tab_ext_of_tget? {t u : Tab α} (ht : keysRise t = true) (hu : keysRise u = true) (h : ∀ k, tget? t k = tget? u k) : t = u := by
  induction t generalizing u with
  | nil =>
    cases u with
    | nil => rfl
    | cons y u => have := h y.1; simp [tget?] at this
  | cons x t ih =>
    obtain ⟨k, v⟩ := x
    cases u with
    | nil => have := h k; simp [tget?] at this
    | cons y u =>
      obtain ⟨j, w⟩ := y
      have hk : tget? t k = none := tget?_of_above t ht (Nat.le_refl k)
      have hj : tget? u j = none := tget?_of_above u hu (Nat.le_refl j)
      obtain hlt | rfl | hgt := Nat.lt_trichotomy k j
      · have habove : keysAbove k ((j, w) :: u) = true := by rw [keysAbove, decide_eq_true hlt, show keysAbove j u = true from hu]; rfl
        have := h k
        rw [tget?_of_above _ habove (Nat.le_refl k), tget?, if_pos rfl] at this
        cases this
      · have hv : some v = some w := by have := h k; rwa [tget?, if_pos rfl, tget?, if_pos rfl] at this
        cases hv
        rw [ih (keysRise_of_above ht) (keysRise_of_above hu) (fun i => ?_)]
        by_cases hi : i = k
        · rw [hi, hk, hj]
        · have := h i; rwa [tget?, if_neg hi, tget?, if_neg hi] at this
      · have habove : keysAbove j ((k, v) :: t) = true := by rw [keysAbove, decide_eq_true hgt, show keysAbove k t = true from ht]; rfl
        have := h j
        rw [tget?_of_above _ habove (Nat.le_refl j), tget?, if_pos rfl] at this
        cases this

end

/-! ## The bytes of a memory (00 R2) -/

theorem mread_mwrite {m : List Host.Cell} (h : memWf m = true) (a x : Nat) (b : Byte) :
    mread (mwrite m a b) x = if x = a then b else mread m x := by
  by_cases hx : x = a
  · rw [if_pos hx, hx]; exact tgetD_tsetD m a b unlisted (Bool.and_eq_true_iff.1 h).1
  · rw [if_neg hx]; exact tgetD_tsetD_ne m b unlisted hx

theorem mread_mwrites_out {m : List Host.Cell} (h : memWf m = true) (a : Nat) (bs : List Byte) {x : Nat} (hx : x < a ∨ a + bs.length ≤ x) :
    mread (mwrites m a bs) x = mread m x := by
  induction bs generalizing m a with
  | nil => rfl
  | cons b bs ih =>
    rw [List.length_cons] at hx
    rw [mwrites, ih (memWf_mwrite a b h) (a + 1) (by omega), mread_mwrite h, if_neg (by omega)]

theorem mreads_succ (m : List Host.Cell) (a n : Nat) : mreads m a (n + 1) = mread m a :: mreads m (a + 1) n := by
  simp only [mreads, List.range_succ_eq_map, List.map_cons, List.map_map, Nat.add_zero]
  exact congrArg (_ :: ·) (List.map_congr_left fun i _ => congrArg (mread m) (by simp; omega))

theorem mreads_mwrites {m : List Host.Cell} (h : memWf m = true) (a : Nat) (bs : List Byte) : mreads (mwrites m a bs) a bs.length = bs := by
  induction bs generalizing m a with
  | nil => rfl
  | cons b bs ih =>
    rw [List.length_cons, mreads_succ, mwrites, ih (memWf_mwrite a b h) (a + 1), mread_mwrites_out (memWf_mwrite a b h) _ _ (by omega),
      mread_mwrite h, if_pos rfl]

theorem mem_ext {m m' : List Host.Cell} (h : memWf m = true) (h' : memWf m' = true) (hr : ∀ a, mread m a = mread m' a) : m = m' := by
  have hlisted : ∀ {l : List Host.Cell}, memWf l = true → ∀ {k v}, tget? l k = some v → v ≠ unlisted := by
    intro l hl k v hv
    have := List.all_eq_true.1 (Bool.and_eq_true_iff.1 hl).2 _ (tget?_mem hv)
    simpa using this
  refine tab_ext_of_tget? (Bool.and_eq_true_iff.1 h).1 (Bool.and_eq_true_iff.1 h').1 fun k => ?_
  have hk := hr k
  simp only [mread, tgetD] at hk
  cases hv : tget? m k with
  | none =>
    cases hw : tget? m' k with
    | none => rfl
    | some w => rw [hv, hw] at hk; exact absurd hk.symm (hlisted h' hw)
  | some v =>
    cases hw : tget? m' k with
    | none => rw [hv, hw] at hk; exact absurd hk (hlisted h hv)
    | some w => rw [hv, hw] at hk; exact congrArg some hk

theorem memoryReadsWhatWasWritten : MemoryReadsWhatWasWritten := by
  intro m h
  exact ⟨fun a b => ⟨memWf_mwrite a b h, fun x => mread_mwrite h a x b⟩,
    fun a bs => ⟨memWf_mwrites a bs h, mreads_mwrites h a bs, fun x hx => mread_mwrites_out h a bs hx⟩,
    fun m' h' hr => mem_ext h h' hr⟩

theorem mread_foldl_out {β : Type} {m : List Host.Cell} (h : memWf m = true) (l : List β) (a : β → Nat) (b : β → Byte) {x : Nat}
    (hx : ∀ y ∈ l, a y ≠ x) : mread (l.foldl (fun m y => mwrite m (a y) (b y)) m) x = mread m x := by
  induction l generalizing m with
  | nil => rfl
  | cons y l ih =>
    rw [List.foldl_cons, ih (memWf_mwrite _ _ h) (fun z hz => hx z (List.mem_cons_of_mem _ hz)), mread_mwrite h,
      if_neg (hx y (List.mem_cons_self ..)).symm]

/-- Where one item alone has its key, no other item of the list has that key. -/
theorem split_of_unique {β : Type} {l : List (Nat × β)} {y : Nat × β} (hy : y ∈ l) (hone : (l.filter (fun z => z.1 == y.1)).length = 1) :
    ∃ l1 l2, l = l1 ++ y :: l2 ∧ ∀ z ∈ l2, z.1 ≠ y.1 := by
  obtain ⟨l1, l2, rfl⟩ := List.append_of_mem hy
  refine ⟨l1, l2, rfl, fun z hz he => ?_⟩
  have hpos := List.length_pos_of_mem (List.mem_filter (p := fun z => z.1 == y.1).2 ⟨hz, by simpa using he⟩)
  rw [List.filter_append, List.length_append, @List.filter_cons_of_pos _ (fun z : Nat × β => z.1 == y.1) y l2 (beq_self_eq_true _), List.length_cons] at hone
  omega

theorem wellStoreChangesItsBytesOnly : WellStoreChangesItsBytesOnly := by
  intro s p w bs poison h t
  refine ⟨memWf_foldl bs _ _ h, rfl, fun addr ha => mread_foldl_out h bs _ _ ha, fun y hy hone => ?_⟩
  obtain ⟨l1, l2, hbs, hl2⟩ := split_of_unique hy hone
  show mread (bs.foldl (fun m x => mwrite m (wellAddr p w x.1) x.2) s.wmem) (wellAddr p w y.1) = y.2
  have h1 : memWf (l1.foldl (fun m x => mwrite m (wellAddr p w x.1) x.2) s.wmem) = true := memWf_foldl l1 _ _ h
  have hout : ∀ z ∈ l2, wellAddr p w z.1 ≠ wellAddr p w y.1 := fun z hz he => hl2 z hz (Nat.add_left_cancel he)
  rw [hbs, List.foldl_append, List.foldl_cons, mread_foldl_out (memWf_mwrite _ _ h1) l2 (fun z => wellAddr p w z.1) (fun z => z.2) hout,
    mread_mwrite h1, if_pos rfl]

/-! ## What a released access does at its well (R237) -/

/-- Access `a` is the one of its order buffer whose turn it is at its well, which has no pending word of its plane. -/
structure ReachesWell (s : State) (a : Access) : Prop where
  here : (obufAt s s.sel.p s.sel.site).released[s.sel.k]? = some a
  panel : a.p = s.sel.p
  site : ositeOf a = s.sel.site
  well : isWell s.sel.site = true
  cell : isSkew s a.p (ositeOf a) = false
  value : a.isNull = false
  free : a.heldFault = false
  fresh : started a = false
  turn : canPerform (obufAt s s.sel.p s.sel.site) a = true
  settled : (wellAt s a.p (ositeOf a)).pend.any (fun c => c.plane == some a.plane) = false

section
variable {s : State} {a : Access} (h : ReachesWell s a)
include h

theorem wellAccess_of_reaches (hop : isOrdering a.op = false) : exec .wellAccess s = match accessWell s a with
    | some s' => .next s'
    | none => notNow := by
  rw [exec_wellAccess, execWellAccess]
  simp only [h.here, h.well, h.value, hop, h.free, h.fresh, h.turn, Bool.not_true, Bool.false_eq_true, or_self, if_false] <;> rfl

theorem accessWell_tag (hop : a.op ≠ 0x90) (hadm : wellAdmits s a = false) : accessWell s a = some (accFault s a cTAG 0) := by
  simp only [accessWell, h.cell, hop, h.settled, hadm, Bool.not_false, Bool.false_eq_true, if_false, if_true]

theorem accessWell_mode (hop : a.op ≠ 0x90) (hadm : wellAdmits s a = true)
    (hmode : wellMode (wellAt s a.p (ositeOf a)) = 0 ∨ wellMode (wellAt s a.p (ositeOf a)) = 7) :
    accessWell s a = some (accFault s a cILLEGAL 0) := by
  simp only [accessWell, h.cell, hop, h.settled, hadm, Bool.not_true, Bool.false_eq_true, if_false, if_pos hmode]

theorem accessWell_mark (hop : a.op = 0x91 ∨ a.op = 0x92) (hadm : wellAdmits s a = true)
    (hmode : wellMode (wellAt s a.p (ositeOf a)) = 3) : accessWell s a = some (markAt s a) := by
  have hop' : a.op ≠ 0x90 := by rcases hop with h | h <;> rw [h] <;> decide
  simp only [accessWell, h.cell, hop', h.settled, hadm, hmode, Bool.not_true, Bool.false_eq_true, if_false, if_pos hop]
  rfl

theorem accessWell_store (hop : a.op = 0x80 ∨ a.op = 0x81) (hadm : wellAdmits s a = true) (hspace : a.r.space = 0)
    (hrel : a.r.ord.getLsbD 1 = false) (hmode : wellMode (wellAt s a.p (ositeOf a)) = 1 ∨ wellMode (wellAt s a.p (ositeOf a)) = 3)
    (hin : (List.range (elemCount a)).any (fun j => decide (524288 ≤ rawAddr a j)) = false) : accessWell s a = storeAt s a := by
  have hmode' : ¬ (wellMode (wellAt s a.p (ositeOf a)) = 0 ∨ wellMode (wellAt s a.p (ositeOf a)) = 7) := by omega
  have hwait : releaseWaits s a = false := by rw [releaseWaits, hrel]; rfl
  have hsame : wellRelease s a = s := if_neg (by rw [hrel]; simp)
  have hafter : afterRelease s a (fun s => storeAt s a) = storeAt s a := by
    simp only [afterRelease, hwait, hsame, Bool.false_eq_true, if_false]
  rcases hop with hop | hop <;> rcases hmode with hm | hm <;>
  · simp only [accessWell, h.cell, hop, h.settled, hadm, if_neg hmode', hin, hspace, hafter, Bool.not_true, Bool.false_eq_true, if_false,
      false_and, and_false]
    simp [hm]

theorem accessWell_fifo (hop : a.op = 0x80 ∨ a.op = 0x81) (hadm : wellAdmits s a = true) (hspace : a.r.space = 0)
    (hrel : a.r.ord.getLsbD 1 = false) (hmode : wellMode (wellAt s a.p (ositeOf a)) = 2) : accessWell s a = fifoAt s a := by
  have hwait : releaseWaits s a = false := by rw [releaseWaits, hrel]; rfl
  have hsame : wellRelease s a = s := if_neg (by rw [hrel]; simp)
  have hafter : afterRelease s a (fun s => fifoAt s a) = fifoAt s a := by
    simp only [afterRelease, hwait, hsame, Bool.false_eq_true, if_false]
  rcases hop with hop | hop <;>
  · simp only [accessWell, h.cell, hop, h.settled, hadm, hspace, hafter, Bool.not_true, Bool.false_eq_true, if_false]
    simp [hmode]

end

theorem wellAccessFaults : WellAccessFaults := by
  intro s a w o hk hp hsite hw hskew hnull hord hop hheld hstart hturn hpend
  have hsite' : ositeOf a = s.sel.site := hsite
  have h : ReachesWell s a := ⟨hk, hp, hsite', hw, hsite' ▸ hskew, hnull, hheld, hstart, hturn, hsite' ▸ hpend⟩
  refine ⟨fun hadm => ?_, fun hadm hmode => ?_⟩
  · rw [wellAccess_of_reaches h hord, accessWell_tag h hop hadm]
  · rw [wellAccess_of_reaches h hord, accessWell_mode h hop hadm (hsite' ▸ hmode)]

/-! ### Buffers (R83, R88) -/

theorem storeAt_sends {s : State} {a : Access} {x : Well} (hx : wellAt s a.p (ositeOf a) = x) (hop : a.op = 0x80 ∨ a.op = 0x81)
    (hwait : bufWaits s x a = false) (halign : misaligned a = none)
    (hroom : (bytePlan a).find? (fun y => decide (bufCount x * bufBytes x ≤ y.2)) = none) (hne : planSectors a ≠ []) :
    let a' : Access := { a with left := some (planSectors a) }
    storeAt s a = some { putAccess s a' with
      reqs := s.reqs ++ (planSectors a).map (fun sec => pieceReq s a' sec (32 * sec) 0
        [if isLoad a.op then arbRead a.p (ositeOf a) else arbWell a.p (ositeOf a)]) } := by
  intro a'
  have hne' : (planSectors a).isEmpty = false := by cases h : planSectors a with
    | nil => exact absurd h hne
    | cons => rfl
  have hstr : straddles a = false := by rcases hop with h | h <;> rw [straddles, h] <;> rfl
  have hacc : a.op ≠ 0x8F := by rcases hop with h | h <;> rw [h] <;> decide
  simp only [storeAt, hx, hroom, hwait, halign, hstr, hacc, wellOut, hne', Bool.false_eq_true, if_false]
  rfl

/-- The full/empty bit of a line buffer (R88). -/
theorem markAt_line {s : State} {a : Access} {x : Well} (hx : wellAt s a.p (ositeOf a) = x) (hmode : wellMode x = 3)
    (hi : laneN (aLanes a) 0 < bufCount x) : markAt s a =
      finishAccess (setWell s a.p (ositeOf a) { x with
        full := if a.op = 0x91 then (if x.full.contains (laneN (aLanes a) 0) = true then x.full
          else insBy (fun a b => decide (a < b)) (laneN (aLanes a) 0) x.full) else x.full.filter (· != laneN (aLanes a) 0)
        fullWas := if x.fullWas.1 = s.cycle + 1 then x.fullWas else (s.cycle + 1, x.full) }) a (ackVal a.tag 0) true := by
  have hmode1 : (wellMode x == 1) = false := by rw [hmode]; rfl
  have hmode3 : ¬ (wellMode x ≠ 1 ∧ wellMode x ≠ 3) := by omega
  have hin : ¬ ((!false) = true ∧ bufCount x ≤ laneN (aLanes a) 0) := fun h => Nat.not_lt.2 h.2 hi
  simp only [markAt, hx, hmode1, if_neg hmode3, Bool.false_eq_true, if_false, if_neg hin, false_and]
  by_cases hop : a.op = 0x91
  · simp only [hop, beq_self_eq_true, if_true]
    cases x.full.contains (laneN (aLanes a) 0) <;> rfl
  · simp only [beq_eq_false_iff_ne.2 hop, if_neg hop, Bool.false_eq_true, if_false]

theorem wellAccessPerforms : WellAccessPerforms := by
  intro s a w o x hk hp hsite hw hskew hnull hheld hstart hturn hadm hpend hrel
  have hsite' : ositeOf a = s.sel.site := hsite
  have h : ReachesWell s a := ⟨hk, hp, hsite', hw, hsite' ▸ hskew, hnull, hheld, hstart, hturn, hsite' ▸ hpend⟩
  have hx : wellAt s a.p (ositeOf a) = x := by rw [hsite']
  refine ⟨fun hspace hmode hin halign hroom hne => ?_, fun hspace hmode => ?_, fun hmode hi => ?_⟩
  · intro a' out
    refine ⟨fun hop hempty => ?_, fun hop hfull => ?_⟩
    · have hwait : bufWaits s x a = false := by rw [bufWaits, hop, hempty]; rfl
      rw [wellAccess_of_reaches h (by rw [hop]; rfl), accessWell_store h (.inr hop) hadm hspace hrel (hx ▸ hmode) hin,
        storeAt_sends hx (.inr hop) hwait halign hroom hne, show isLoad a.op = false by rw [hop]; rfl, hsite']
      rfl
    · have hwait : bufWaits s x a = false := by rw [bufWaits, hop, hfull]; rfl
      rw [wellAccess_of_reaches h (by rw [hop]; rfl), accessWell_store h (.inl hop) hadm hspace hrel (hx ▸ hmode) hin,
        storeAt_sends hx (.inl hop) hwait halign hroom hne, show isLoad a.op = true by rw [hop]; rfl, hsite']
      rfl
  · refine ⟨fun b hop hb hfree hpred => ?_, fun e rest hop hfifo => ?_⟩
    · rw [wellAccess_of_reaches h (by rw [hop]; rfl), accessWell_fifo h (.inr hop) hadm hspace hrel (hx ▸ hmode)]
      simp only [fifoAt, hop, if_true, hb, Option.getD_some, hpred, maskLanes, hsite', if_pos (show (b.lanes.length + 7) / 8 ≤ fifoFree (wellAt s a.p s.sel.site) from hfree)]
      rfl
    · rw [wellAccess_of_reaches h (by rw [hop]; rfl), accessWell_fifo h (.inl hop) hadm hspace hrel (hx ▸ hmode)]
      simp only [fifoAt, if_neg (show a.op ≠ 0x81 by rw [hop]; decide), if_pos hop, hsite', show (wellAt s a.p s.sel.site).fifo = e :: rest from hfifo]
      rfl
  · have hmark : ∀ (hop : a.op = 0x91 ∨ a.op = 0x92), exec .wellAccess s = .next (markAt s a) := by
      intro hop
      rw [wellAccess_of_reaches h (by rcases hop with e | e <;> rw [e] <;> rfl), accessWell_mark h hop hadm (hx ▸ hmode)]
    intro i was
    refine ⟨fun hop => ?_, fun hop hnot => ?_⟩
    · rw [hmark (.inr hop), markAt_line hx hmode hi, if_neg (by rw [hop]; decide), hsite']
    · rw [hmark (.inl hop), markAt_line hx hmode hi, if_pos hop, if_neg (by rw [hnot]; decide), hsite']

/-! ## The sectors that a well's generators serve (R83; 11 R237, R238) -/

theorem arbOf_generator {p w arb : Nat} (harb : arb = arbWell p w ∨ arb = arbRead p w) (hp : p < 256) (hw : w < 256) :
    (arb / 65536 = 0 ∨ arb / 65536 = 8) ∧ arb % 65536 / 256 = p ∧ arb % 256 = w := by
  rcases harb with rfl | rfl <;> simp only [arbWell, arbRead, siteKey] <;> omega

/-- Another bank for the read generator leaves MODE. -/
theorem wellMode_setWell_rdBank {s : State} {p w b : Nat} (h : wellMode (wellAt s p w) ≠ 0) :
    wellMode (wellAt (setWell s p w { wellAt s p w with rdBank := b }) p w) = wellMode (wellAt s p w) := by
  rw [wellAt_setWell]
  · rfl
  · exact fun e => h (congrArg wellMode e)

section
variable {s : State} {p w i sec pa arb : Nat} {q : Req} {a : Access}
  (hc : arb / 65536 = 0 ∨ arb / 65536 = 8) (hp : arb % 65536 / 256 = p) (hw : arb % 256 = w) (hq : q.kind = .piece p w a.id sec pa)
  (hpath : q.path = [arb]) (hacc : pieceAccess s p w a.id = some a)
include hp hw hacc

theorem noteRead_keeps (hmode : wellMode (wellAt s p w) ≠ 0) :
    pieceAccess (noteRead s arb q) p w a.id = some a ∧ wellMode (wellAt (noteRead s arb q) p w) = wellMode (wellAt s p w) := by
  simp only [noteRead, hp, hw]
  split
  · exact ⟨hacc, wellMode_setWell_rdBank hmode⟩
  · split
    · exact ⟨hacc, wellMode_setWell_rdBank hmode⟩
    · exact ⟨hacc, rfl⟩

include hc hq hpath

theorem serve_piece (hmode : wellMode (wellAt s p w) = 1 ∨ wellMode (wellAt s p w) = 3) (hop : a.op ≠ 0x8F) :
    serve s arb i q = pieceEnd (dropReq
      (let y := performBytes (noteRead s arb q) w a ((bytePlan a).filter (fun x => x.2 / 32 == sec))
       putAccess y.1 y.2) i) p w a.id sec := by
  obtain ⟨hacc', hmode'⟩ := noteRead_keeps (q := q) hp hw hacc (by omega)
  have h5 : ¬ wellMode (wellAt (noteRead s arb q) p w) = 5 := by omega
  have h1 : ¬ arb / 65536 = 1 := by omega
  have h4 : ¬ arb / 65536 = 4 := by omega
  have h57 : ¬ arb / 65536 = 5 ∧ ¬ arb / 65536 = 7 := by omega
  have hstage : arb / 65536 = 0 ∨ arb / 65536 = 1 ∨ arb / 65536 = 8 := by omega
  have hat : atStage (noteRead s arb q) arb q =
      (let y := performBytes (noteRead s arb q) w a ((bytePlan a).filter (fun x => x.2 / 32 == sec))
       putAccess y.1 y.2, q) := by
    simp only [atStage, if_neg h4, if_pos hstage, hq, pieceAct, hacc', if_neg hop, if_neg h1, if_neg h5]
  simp only [serve, h1, false_and, if_false, h57.1, h57.2, h4, or_self, hat, hq, hpath, List.tail_cons, endReq]

end

theorem performBytes_store {s : State} {w : Nat} {a : Access} {plan : List (Nat × Nat)} (h : a.op = 0x81) :
    performBytes s w a plan = (wellStore s a.p w (plan.map (fun x => (x.2, dataByte a (bLanes a) x.1))) ((a.b.map (·.poison)).getD false), a) := by
  simp only [performBytes, show isLoad a.op = false by rw [h]; rfl, show isStore a.op = true by rw [h]; rfl, Bool.false_eq_true, if_false, if_true]

theorem performBytes_load {s : State} {w : Nat} {a : Access} {plan : List (Nat × Nat)} (h : a.op = 0x80) :
    performBytes s w a plan = (s, readInto a (plan.map (fun x => (x.1, mread s.wmem (wellAddr a.p w x.2))))
      (plan.any (fun x => tgetD s.wbad (wbadKey a.p w x.2) false))) := by
  simp only [performBytes, show isLoad a.op = true by rw [h]; rfl, if_true]

theorem noteRead_wmem (s : State) (arb : Nat) (q : Req) : (noteRead s arb q).wmem = s.wmem ∧ (noteRead s arb q).wbad = s.wbad := by
  simp only [noteRead]
  split
  · exact ⟨rfl, rfl⟩
  · split <;> exact ⟨rfl, rfl⟩

theorem pieceEnd_last {u : State} {a : Access} {p w id sec : Nat} (h : pieceAccess u p w id = some a) (hop : a.op ≠ 0x8F)
    (hleft : a.left = some [sec]) :
    pieceEnd u p w id sec = advance (finishAccess u { a with left := some [] } (accValue { a with left := some [] }) a.cond) p w := by
  have hfilter : [sec].filter (fun x => x != sec) = [] := by simp
  simp only [pieceEnd, h, if_neg hop, hleft, Option.getD_some, hfilter, List.isEmpty_nil, if_true]

theorem wellSectorsArePerformed : WellSectorsArePerformed := by
  intro s q i sec pa a p w arb harb hp hw hwell hserved hchoose hreq hkind hpath hacc hmode plan t
  obtain ⟨hc, hap, haw⟩ := arbOf_generator harb hp hw
  have hturn : ¬ (s.sel.k / 65536 ≠ 2 ∧ tgetD s.served (s.sel.k * 128 + 127) 0 = s.cycle + 1) := fun h => hserved h.2
  have hserve : exec .arbiterService s = .next (serve (noteServed s arb q) arb i q) := by
    rw [exec_arbiterService, execArbiterService]
    simp only [if_neg hturn, show choose s s.sel.k = some i from hchoose, hreq]
    rfl
  have hpiece : ∀ _ : a.op ≠ 0x8F, exec .arbiterService s = .next (pieceEnd (dropReq
      (let y := performBytes t w a plan
       putAccess y.1 y.2) i) p w a.id sec) := fun hop =>
    hserve.trans (congrArg _ (serve_piece (s := noteServed s arb q) hc hap haw hkind hpath hacc hmode hop))
  refine ⟨fun hop => ?_, fun hop => ?_, fun u a' hu hop hleft => pieceEnd_last hu hop hleft⟩
  · rw [hpiece (by rw [hop]; decide), performBytes_store hop]
  · rw [hpiece (by rw [hop]; decide), performBytes_load hop, (noteRead_wmem _ _ _).1, (noteRead_wmem _ _ _).2]
    rfl

/-- Settles O35: what an access does at its well, and what a well's bytes read. -/
theorem wellAccesses : Obligations.WellAccesses :=
  ⟨wellAccessPerforms, wellSectorsArePerformed, wellAccessFaults, wellStoreChangesItsBytesOnly, memoryReadsWhatWasWritten⟩

end Sys2Proof.Proofs
end

section
/-!
PROOF. Configuration words, fills, arbiters and walks, and what a window does for MPIN and MUNPIN (04 R86, R90, R95; 06 R130, R131; 18
R360 to R371).
-/
namespace Sys2Proof.Proofs
open Sys2Proof.Machine Sys2Proof.Safety Sys2Proof.Claims

/-! ## WCFG_TAKE_EFFECT (R86) -/

theorem wcfgTakeEffect_of_settled {s : State} {p w : Nat} {x : Well} {pc : PendCfg} {rest : List PendCfg} (hp : s.sel.p = p) (hw : s.sel.site = w)
    (hx : wellAt s p w = x) (hpend : x.pend = pc :: rest) (hmode : wellMode x ≠ 5) (hframes : x.frames = []) (hret : x.returns = [])
    (hslots : x.slots.any (fun y => y.2.pin) = false) (hround : x.cavs.any (fun v => v.contribs.length == v.hi - v.lo) = false)
    (hwell : wellPending s p w pc = false) (hpins : s.pins.any (fun y => y.cur.p == p && y.w == w && y.began) = false) :
    let s1 := wakePanel (setWell s p w { x with cfg := pc.word, owner := some pc.ctx, pend := rest, full := [], writer := 0, reader := 0
                                                fifo := [], slots := [], cavs := [], left := none, fullWas := (0, []) })
      p (fun y => y == .cavity p w)
    exec .wcfgTakeEffect s = .next (match pc.acc with
      | some a => finishAccess s1 a (ackVal a.tag 0) true
      | none => s1) := by
  rw [exec_wcfgTakeEffect, execWcfgTakeEffect]
  simp only [hp, hw, hx, hpend, hwell, hround, hpins, hframes, hret, hslots, if_neg hmode, List.isEmpty_nil, Bool.not_true, Bool.false_eq_true,
    or_self, if_false] <;> rfl

theorem configurationTakesEffect : ConfigurationTakesEffect := by
  intro s pc rest p w x hpend hmode hframes hret hslots hround hwell hpins
  have h := wcfgTakeEffect_of_settled (p := p) (w := w) (x := x) rfl rfl rfl hpend hmode hframes hret hslots hround hwell hpins
  exact ⟨fun hacc => h.trans (by rw [hacc]), fun a hacc => h.trans (by rw [hacc])⟩

/-! ## Fills, arbiters, walks (R90, R95; R131; R360) -/

theorem fillMiss_piece {s : State} {die p site id sec pa : Nat} {q : Req} (hkind : q.kind = .piece p site id sec pa) (hdata : q.data = none) :
    fillMiss s die q = (fetchL2 s die (gaOf s q.addr) q.ctx (reqTag s q), q) := by
  simp only [fillMiss, hkind, hdata]

theorem fillsServiceAndWalks : FillsServiceAndWalks := by
  intro s
  refine ⟨fun a sec t slot => ?_, fun q f rest p site id sec pa hreq hpath hf hkind hdata => ?_, fun i q hchoose hreq hturn => ?_,
    fun hserved hkind => ?_, fun wk leaf hwk hfin => ?_⟩
  · intro p w base hk hmode hcomb hfind hslot
    have hgo : ¬ (wellMode (wellAt s s.sel.p s.sel.site) ≠ 5 ∨ a.combining = true) := by
      rw [hcomb, show wellMode (wellAt s s.sel.p s.sel.site) = 5 from hmode]; decide
    rw [exec_pageWindowFill, execPageWindowFill]
    simp only [show (obufAt s s.sel.p s.sel.site).released[s.sel.k]? = some a from hk, if_neg hgo,
      show (a.left.getD []).find? (fun k => mustHold a k && (slotHolds (wellAt s s.sel.p s.sel.site) k).isNone &&
        !filling s s.sel.p s.sel.site k) = some sec from hfind,
      show takeSlot s s.sel.p s.sel.site (sec / 128) (paOfGa (placeAt a (32 * sec) / 4096 * 4096)) = some (t, slot) from hslot]
    rfl
  · intro ga hroom hhome s1
    have hgo : ¬ (f / 65536 ≠ 6 ∨ (!lineRoom s (f % 65536) (gaOf s q.addr)) = true ∨
        (!(remote (gaOf s q.addr) || lineRoom s (homeDie (gaOf s q.addr)) (gaOf s q.addr))) = true) := by
      rw [hf, show lineRoom s (f % 65536) (gaOf s q.addr) = true from hroom,
        show (remote (gaOf s q.addr) || lineRoom s (homeDie (gaOf s q.addr)) (gaOf s q.addr)) = true from hhome]
      decide
    rw [exec_l2Fill, execL2Fill]
    simp only [hreq, hpath, if_neg hgo, fillMiss_piece hkind hdata]
    rfl
  · have hgo : ¬ (s.sel.k / 65536 ≠ 2 ∧ tgetD s.served (s.sel.k * 128 + 127) 0 = s.cycle + 1) := fun h => hturn.elim h.1 (fun e => e h.2)
    rw [exec_arbiterService, execArbiterService]
    simp only [if_neg hgo, hchoose, hreq]
  · rw [exec_arbiterService, execArbiterService]
    exact if_pos ⟨hkind, hserved⟩
  · intro s0 s1
    rw [exec_pageWalk, execPageWalk]
    simp only [hwk, hfin]
    rfl

/-! ## MPIN and MUNPIN at their window (18 R370, R371) -/

section
variable {s t : State} {x : PinAsk} {page base slot n : Nat} {rest : List (Nat × Nat)} {sl : PwSlot}

theorem pinNext_noSlot (h : takeSlot s x.cur.p x.w page base = none) : pinNext s x page base = (s, x) := by
  simp only [pinNext, h]

theorem pinNext_held (h : takeSlot s x.cur.p x.w page base = some (t, slot)) (hsl : tget? (wellAt t x.cur.p x.w).slots slot = some sl)
    (hall : ∀ k < 128, bit sl.have_ k = true) : pinNext s x page base =
      (setWell t x.cur.p x.w { wellAt t x.cur.p x.w with slots := tput (wellAt t x.cur.p x.w).slots slot { sl with pin := true } },
        { x with todo := x.todo.tail, count := x.count + if sl.pin then 0 else 1 }) := by
  have hnone : ((List.range 128).filter (fun k => !bit sl.have_ k)).isEmpty = true := by
    rw [List.isEmpty_iff, List.filter_eq_nil_iff]
    intro k hk
    rw [hall k (List.mem_range.1 hk)]
    decide
  simp only [pinNext, h, hsl, Option.getD_some, hnone, if_true]
  cases sl.pin <;> rfl

theorem pinNext_missing (h : takeSlot s x.cur.p x.w page base = some (t, slot)) (hsl : tget? (wellAt t x.cur.p x.w).slots slot = some sl)
    (hsome : ∃ k < 128, bit sl.have_ k = false) : pinNext s x page base =
      ((((List.range 128).filter (fun k => !bit sl.have_ k)).filter (fun k => !filling t x.cur.p x.w (128 * page + k))).foldl
        (fun u k => fillReq u x.cur.p x.w (128 * page + k) base (ownerOf u x.cur.p x.w)) t, x) := by
  obtain ⟨k, hk, hbit⟩ := hsome
  have hne : ((List.range 128).filter (fun k => !bit sl.have_ k)).isEmpty = false := by
    rw [← Bool.not_eq_true, List.isEmpty_iff]
    exact List.ne_nil_of_mem (List.mem_filter.2 ⟨List.mem_range.2 hk, by rw [hbit]; rfl⟩)
  simp only [pinNext, h, hsl, Option.getD_some, hne, Bool.false_eq_true, if_false]

theorem pinGo_done (h : x.todo = []) : pinGo (n + 1) s x = (pinEmit s x, none) := by
  simp only [pinGo, h]

theorem pinGo_step (h : x.todo = (page, base) :: rest) : pinGo (n + 1) s x =
    let r := pinNext s x page base
    if r.2.todo.length < x.todo.length then pinGo n r.1 r.2 else (r.1, some r.2) := by
  simp only [pinGo, h]

section
variable (hin : (pagesOf x.cur).find? (fun page => !inWindow (wellAt s x.cur.p x.w) page) = none)
include hin

theorem pinTest_bad {k va : Nat} (h : pinXlat s x.cur (matchCtx s x.cur.p x.cur.plane x.cur.tag) x.w (pagesOf x.cur) = (t, .error (k, va))) :
    pinTest s x = (pinFault t x k va, none) := by
  simp only [pinTest, hin, h]

theorem pinTest_ok {xs : List (Nat × Nat)}
    (h : pinXlat s x.cur (matchCtx s x.cur.p x.cur.plane x.cur.tag) x.w (pagesOf x.cur) = (t, .ok xs)) :
    pinTest s x =
      (let pinned := ((wellAt s x.cur.p x.w).slots.filter (fun z => z.2.pin)).map (·.2.page)
       if 128 < pinned.length + (xs.filter (fun z => !pinned.contains z.1)).length then (pinFault t x cILLEGAL 0, none)
       else (t, some { x with began := true, todo := xs })) := by
  simp only [pinTest, hin, h]

end

theorem pinStep_test (hpins : x.pins = true) (hnew : x.began = false) : pinStep s x = match pinTest s x with
    | (s, some x) => pinGo 129 s x
    | r => r := by
  simp only [pinStep, hpins, hnew, Bool.not_true, Bool.false_eq_true, if_false] <;> rfl

end

theorem windowsPinPages : WindowsPinPages := by
  intro s x c ctx y pages
  refine ⟨fun hpins => ?_, fun hpins hnew => ⟨fun page hpage => ?_, fun hin => ?_⟩, fun hpins hbegan => ?_, fun n htodo => pinGo_done htodo,
    fun n page base rest t slot sl htodo hslot hsl => ⟨fun hall => ?_, fun hmiss => ?_⟩, fun n page base rest htodo hslot => ?_⟩
  · intro mine
    simp only [pinStep, hpins, Bool.not_false, if_true]
    rfl
  · simp only [pinStep_test hpins hnew, pinTest, show (pagesOf x.cur).find? (fun page => !inWindow (wellAt s x.cur.p x.w) page) = some page from hpage]
    rfl
  · intro z
    refine ⟨fun k va hz => ?_, fun xs hz => ?_⟩
    · rw [pinStep_test hpins hnew, pinTest_bad hin (Prod.ext rfl hz)]
      rfl
    · intro pinned more
      refine ⟨fun hmany => ?_, fun hfit => ?_⟩
      · rw [pinStep_test hpins hnew, pinTest_ok hin (Prod.ext rfl hz), if_pos hmany]
        rfl
      · rw [pinStep_test hpins hnew, pinTest_ok hin (Prod.ext rfl hz), if_neg (Nat.not_lt.2 hfit)]
  · simp only [pinStep, hpins, hbegan, Bool.not_true, Bool.false_eq_true, if_false, if_true]
  · intro w
    rw [pinGo_step htodo, pinNext_held hslot hsl hall]
    simp only [htodo, List.tail_cons, List.length_cons, Nat.lt_succ_self, if_true]
    rfl
  · intro asked
    rw [pinGo_step htodo, pinNext_missing hslot hsl hmiss]
    exact if_neg (Nat.lt_irrefl _)
  · rw [pinGo_step htodo, pinNext_noSlot hslot]
    exact if_neg (Nat.lt_irrefl _)

/-- Settles O36: configurations take effect; fills, arbiters, walks and windows serve what waits. -/
theorem wellsPagesAndFills : Obligations.WellsPagesAndFills := ⟨configurationTakesEffect, fillsServiceAndWalks, windowsPinPages⟩

end Sys2Proof.Proofs
end

section
/-!
PROOF. Transfers: their issue, their sectors and the completion of their tags; scale tokens (11 R249 to R255).
-/
namespace Sys2Proof.Proofs
open Sys2Proof.Machine Sys2Proof.Safety Sys2Proof.Claims

/-! ## The firing of a format T record (R250; 02 R53) -/

section
variable {s : State} {r : RecT} {i : Instr} {issue : State → Cur → State}

theorem badT_eq_false (h : Supplied s r.ctl [0]) (hrsv : r.rsv = 0) : badT r = false := by
  obtain ⟨-, hctl, hlit, -⟩ := h
  rw [badT, hctl, hlit, hrsv]
  rfl

theorem tFire_poison (h : Supplied s r.ctl [0]) (hrsv : r.rsv = 0) (hp : (portTok s.cur 0).poison = true) :
    tFire s r i false issue = .next (faultCur s s.cur cPOISON 0) := by
  have hbad := badT_eq_false h hrsv
  obtain ⟨hports, -, -, -, hnull, hpred⟩ := h
  simp only [tFire, hports, hbad, hnull, hpred, hp, Bool.not_true, Bool.or_self, Bool.false_eq_true, if_false, if_true]

section
variable (h : Supplied s r.ctl [0]) (hrsv : r.rsv = 0) (hp : (portTok s.cur 0).poison = false)
include h hrsv hp

theorem tFire_held {b : Block} (hb : InBlock s b) (htag : ctagTaken s s.cur.p r.ctag.toNat = false)
    (hwells : opOfT i = true → (shiftDesc s s.cur (portTok s.cur 0).lanes).isSome = true) : tFire s r i false issue = .next (held s b i) := by
  have hbad := badT_eq_false h hrsv
  obtain ⟨hports, -, -, -, hnull, hpred⟩ := h
  have hin : inBlock s = true ∧ (!s.cur.late) = true := ⟨inBlock_of hb, by rw [hb.2.1]; rfl⟩
  have hmove : (opOfT i && (shiftDesc s s.cur (portTok s.cur 0).lanes).isNone) = false := by
    cases hop : opOfT i with
    | false => rfl
    | true => rw [Option.isNone_eq_false_iff.2 (hwells hop)]; rfl
  simp only [tFire, hports, hbad, hnull, hpred, hp, Bool.not_true, Bool.or_self, Bool.false_eq_true, if_false, if_pos hin, htag, hmove,
    holdEff_of hb]

theorem tFire_waits (ha : ActsNow s) (htag : tagFree s s.cur.p r.ctag.toNat = false) :
    tFire s r i false issue = .next (waitOn s s.cur .done) := by
  have hbad := badT_eq_false h hrsv
  obtain ⟨hports, -, -, -, hnull, hpred⟩ := h
  simp only [tFire, hports, hbad, hnull, hpred, hp, Bool.not_true, Bool.or_self, Bool.false_eq_true, if_false, if_neg (inBlock_act ha), htag,
    Bool.not_false, if_true]

theorem tFire_issues (ha : ActsNow s) (htag : tagFree s s.cur.p r.ctag.toNat = true) :
    tFire s r i false issue = .next (issue s s.cur) := by
  have hbad := badT_eq_false h hrsv
  obtain ⟨hports, -, -, -, hnull, hpred⟩ := h
  simp only [tFire, hports, hbad, hnull, hpred, hp, Bool.not_true, Bool.or_self, Bool.false_eq_true, if_false, if_neg (inBlock_act ha), htag]

end
end

/-! ## Issue -/

theorem issueXfer_bad {s : State} {c : Cur} {op : Nat} {r : RecT} {d : List Lane} (hd : shiftDesc s c (portTok c 0).lanes = some d)
    (hbad : descBad s c.p (matchCtx s c.p c.plane c.tag) op r d = true) : issueXfer s c op r = faultCur s c cILLEGAL 0 := by
  simp only [issueXfer, hd, Option.isNone_some, Option.getD_some, hbad, Bool.false_or, if_true]

/-- The scribe whose completion tag a transfer takes. -/
def tagBusy (sc : Scribe) (tag : Nat) : Scribe :=
  let b : Word64 := BitVec.ofNat 64 (2 ^ tag)
  { setLate sc (sc.late &&& ~~~b) with busy := sc.busy ||| b, done := sc.done &&& ~~~b }

/-- The transfer that a match starts, with the slack that it leaves with. -/
def newXfer (s : State) (c : Cur) (op : Nat) (r : RecT) (d : List Lane) : Xfer :=
  let x : Xfer :=
    { id := s.fresh, op := op, p := c.p, site := c.site, plane := c.plane, node := c.node, tag := c.tag
      ctx := matchCtx s c.p c.plane c.tag, r := r, desc := d, cpanel := c.p, born := s.cycle, doneCount := 0, stopped := false, freed := false
      flagged := false, fifo := [] }
  { x with slack0 := slackAt (setScribe s c.p (tagBusy (scribeAt s c.p) r.ctag.toNat)) (dieOf c.p) x }

/-- The state in which a transfer stands, its tag busy and its tag number sent. -/
def xferStands (s : State) (c : Cur) (op : Nat) (r : RecT) (d : List Lane) : State :=
  emitRes { setScribe s c.p (tagBusy (scribeAt s c.p) r.ctag.toNat) with fresh := s.fresh + 1, xfers := s.xfers ++ [newXfer s c op r d] }
    c (formT r) 6 (ctagVal c r)

theorem foreignWell_of_sends {p : Nat} {s t : State} (h : OnlySends p s t) (x : Xfer) : foreignWell t x = foreignWell s x := by
  have hpanels : t.panels = s.panels := by rw [h.rest]
  have hwells : t.wells = s.wells := by rw [h.rest]
  simp only [foreignWell, tagged, panelAt, wellAt, hpanels, hwells]

theorem cycle_of_sends {p : Nat} {s t : State} (h : OnlySends p s t) : t.cycle = s.cycle := by rw [h.rest]

theorem xferStands_keeps (s : State) (c : Cur) (op : Nat) (r : RecT) (d : List Lane) (x : Xfer) :
    foreignWell (xferStands s c op r d) x = foreignWell s x ∧ (xferStands s c op r d).cycle = s.cycle := by
  have h := emitRes_onlySends { setScribe s c.p (tagBusy (scribeAt s c.p) r.ctag.toNat) with
    fresh := s.fresh + 1, xfers := s.xfers ++ [newXfer s c op r d] } c (formT r) 6 (ctagVal c r)
  exact ⟨(foreignWell_of_sends h x).trans rfl, (cycle_of_sends h).trans rfl⟩

theorem issueXfer_empty {s : State} {c : Cur} {op : Nat} {r : RecT} {d : List Lane} (hd : shiftDesc s c (portTok c 0).lanes = some d)
    (hbad : descBad s c.p (matchCtx s c.p c.plane c.tag) op r d = false) (hlen : r.len = 0)
    (hown : foreignWell s (newXfer s c op r d) = false) :
    issueXfer s c op r = { xferStands s c op r d with reqs := (xferStands s c op r d).reqs ++
      [{ kind := .xferSector s.fresh 0 0, path := [], born := s.cycle, ctx := matchCtx s c.p c.plane c.tag
         issuer := c.p, addr := 0, ctag := r.ctag.toNat }] } := by
  obtain ⟨hforeign, hcycle⟩ := xferStands_keeps s c op r d (newXfer s c op r d)
  have htotal : xTotal (newXfer s c op r d) = 0 := by
    rw [xTotal, rowSectors, show (newXfer s c op r d).r = r from rfl, hlen]; rfl
  simp only [issueXfer, hd, Option.isNone_some, Option.getD_some, hbad, Bool.or_self, Bool.false_eq_true, if_false]
  refine (if_neg (?_ : ¬ foreignWell (xferStands s c op r d) (newXfer s c op r d) = true)).trans ((if_pos htotal).trans ?_)
  · rw [hforeign, hown]; decide
  · rw [← hcycle]
    rfl

theorem ofNat_two_pow (n : Nat) : BitVec.ofNat 64 (2 ^ n) = (1 : Word64) <<< n := by
  apply BitVec.eq_of_toNat_eq
  rw [BitVec.toNat_ofNat, BitVec.toNat_shiftLeft, Nat.shiftLeft_eq]
  simp

theorem ctagVal_eq (c : Cur) (r : RecT) : ctagVal c r = both { tag := c.tag, ty := 6, lanes := [r.ctag.setWidth 32] } := by
  simp only [ctagVal, ackVal, word1, BitVec.ofNat_toNat]

theorem transfersIssue : TransfersIssue := by
  intro r s op i hi hrsv hs c ctx sc
  obtain ⟨hexec, hop⟩ : exec i s = tFire s r i false (fun s c => issueXfer s c op r) ∧ opOfT i = true := by
    simp only [List.mem_cons, Prod.mk.injEq, List.not_mem_nil, or_false] at hi
    rcases hi with ⟨rfl, rfl⟩ | ⟨rfl, rfl⟩ | ⟨rfl, rfl⟩ <;> exact ⟨rfl, rfl⟩
  refine ⟨fun hp => hexec.trans (tFire_poison hs hrsv hp), fun hp => ⟨fun b hb htag hmove => ?_, fun ha htag => ?_, fun d ha htag hd => ?_⟩⟩
  · exact hexec.trans (tFire_held hs hrsv hp hb htag fun _ => hmove)
  · exact hexec.trans (tFire_waits hs hrsv hp ha htag)
  · have hissue : exec i s = .next (issueXfer s s.cur op r) := hexec.trans (tFire_issues hs hrsv hp ha htag)
    refine ⟨fun hbad => by rw [hissue, issueXfer_bad hd hbad], fun hbad => ⟨hissue, fun hlen => ?_⟩⟩
    refine ⟨newXfer s s.cur op r d, rfl, rfl, rfl, rfl, rfl, rfl, rfl, fun hown => ?_⟩
    rw [hissue, issueXfer_empty hd hbad hlen hown]
    simp only [xferStands, tagBusy, ofNat_two_pow, ctagVal_eq]
    rfl

/-! ## Sectors (R250; 21 R404) -/

/-- A well's write generator serves the sector of a transfer (21 R404). -/
theorem serve_lastSector {s : State} {arb i id row k : Nat} {q : Req} {x : Xfer} {bs : List Byte} {bad : Bool} (hclass : arb / 65536 = 0)
    (hkind : q.kind = .xferSector id row k) (hpath : q.path = [arb]) (hdata : q.data = some (bs, bad)) (hx : xferOf s id = some x)
    (hgo : x.stopped = false) (harr : x.arr = none) :
    let t := noteRead s arb q
    serve s arb i q = xferWrite { t with reqs := setAt t.reqs i { q with path := [], due := s.cycle + 1 } } x q bs bad := by
  have hread : noteRead s arb q = s := by
    simp only [noteRead, hclass, readsToo, hkind]
    rfl
  have hat : atStage s arb q = (s, q) := by
    simp only [atStage, hclass, hkind, hdata, hx, Option.isSome_some, true_or, if_true]
    rfl
  rw [xferOf] at hx
  simp only [serve, hclass, hread, hat, hpath, List.tail_cons, endReq, hkind, hdata, xferOf, hx, hgo, harr, Option.isSome_none, Option.getD_some]
  rfl

theorem transferSectorsComplete : TransferSectorsComplete := by
  intro s q x id row k hkind hx
  refine ⟨fun hreq hpath => ?_, fun i bs bad hchoose hreq hpath hclass hserved hdata hgo harr => ?_⟩
  · intro s1
    have hexec : exec .transferSectorDone s =
        if x.stopped then .next (sweepXfer s1 id)
        else match x.arr with
          | some (a, _) => .next { s1 with arrivals := s1.arrivals ++ [a] }
          | none =>
            if x.r.len = 0 then (if s.cycle ≤ q.born then notNow else .next (sectorDone s1 id))
            else if s.cycle < q.due then notNow
            else .next (xferClose s1 id) := by
      rw [exec_transferSectorDone, execTransferSectorDone]
      simp only [hreq, hkind, hpath, List.isEmpty_nil, Bool.not_true, Bool.false_eq_true, if_false, hx] <;> rfl
    refine ⟨fun hstop => ?_, fun a dev hgo harr => ?_, fun hgo harr hlen hborn => ?_, fun hgo harr hlen hdue => ?_, fun hgo harr hlen hdue => ?_⟩
    · rw [hexec, if_pos hstop]
    · rw [hexec, hgo, harr]; rfl
    · rw [hexec, hgo, harr, if_pos hlen, if_neg (Nat.not_le.2 hborn)]; rfl
    · rw [hexec, hgo, harr, if_neg hlen, if_pos hdue]; rfl
    · intro last
      rw [hexec, hgo, harr, if_neg hlen, if_neg (Nat.not_lt.2 hdue)]
      simp only [xferClose, show xferOf s1 id = some x from hx, hgo, Bool.false_eq_true, if_false, last, Bool.and_eq_true, decide_eq_true_eq]
      rfl
  · have hturn : ¬ (s.sel.k / 65536 ≠ 2 ∧ tgetD s.served (s.sel.k * 128 + 127) 0 = s.cycle + 1) := fun h => hserved h.2
    rw [exec_arbiterService, execArbiterService]
    simp only [if_neg hturn, hchoose, hreq, serve_lastSector (s := noteServed s s.sel.k q) hclass hkind hpath hdata hx hgo harr]
    rfl

/-! ## Scale tokens (R254, R255; 03 R67) -/

theorem sclToks_of_d0 {r : RecN} {c : Cur} (hd1 : r.d1.site = 255) (hemit : emits r.ctl.emit0 true = true) (hd0 : r.d0.site ≠ 255)
    (hpred : lanePred r.ctl c = none) : sclToks r c = (List.range (portTok c 0).lanes.length).map (fun j => sclTok r c r.d0 j) := by
  have hfilter : [(r.d0, r.ctl.emit0), (r.d1, r.ctl.emit1)].filter (fun x => x.1.site != 255 && emits x.2 true) = [(r.d0, r.ctl.emit0)] := by
    rw [List.filter_cons_of_pos (by rw [hemit, bne_iff_ne.2 hd0]; rfl), List.filter_cons_of_neg (by rw [hd1]; simp), List.filter_nil]
  simp only [sclToks, hpred, predAt, if_true, hfilter, List.map_cons, List.map_nil]
  exact List.map_eq_flatMap.symm

/-- A payload's scale: its low 16 bits. -/
theorem payload_scale (v : Word64) : BitVec.ofNat 32 (v.toNat % 65536) = (v &&& 0xFFFF).setWidth 32 := by
  apply BitVec.eq_of_toNat_eq
  rw [BitVec.toNat_ofNat, BitVec.toNat_setWidth, BitVec.toNat_and]
  exact congrArg (· % 2 ^ 32) (Nat.and_two_pow_sub_one_eq_mod v.toNat 16).symm

/-- A payload's block: bits 19 to 16. -/
theorem payload_block (v : Word64) : BitVec.ofNat 32 (bits v.toNat 19 16) = ((v >>> 16) &&& 0xF).setWidth 32 := by
  apply BitVec.eq_of_toNat_eq
  rw [BitVec.toNat_ofNat, BitVec.toNat_setWidth, BitVec.toNat_and, BitVec.toNat_ushiftRight, Nat.shiftRight_eq_div_pow]
  exact congrArg (· % 2 ^ 32) (Nat.and_two_pow_sub_one_eq_mod (v.toNat / 2 ^ 16) 4).symm

theorem payload_colour (v : Word64) : bits v.toNat 63 52 = v.toNat / 2 ^ 52 := Nat.mod_eq_of_lt (by have := v.isLt; omega)

theorem scaleTokensAreSent : ScaleTokensAreSent := by
  intro s
  refine ⟨fun r hhi hfmt hcf hlit hctl hports hblk hnull hpred hd0 hd1 hemit hne hsite hlanes hroom => ?_, fun x rest k hq => ?_⟩
  · have hhi' : (r.hi.toNat / 2 != 0) = false := by rw [bne_eq_false_iff_eq]; omega
    have hcf' : (r.cf.toNat / 8 != 0) = false := by rw [bne_eq_false_iff_eq]; omega
    have hd1' : sclDestOk s.cur r.d1 = true := by rw [sclDestOk, hd1]; rfl
    have hroom' : decide (8 < r.cf.toNat % 8 + (portTok s.cur 0).lanes.length) = false := by
      rw [decide_eq_false_iff_not, Nat.mod_eq_of_lt hcf]; omega
    have hgrid : ¬ s.cur.site = 240 := by omega
    simp only [exec_sclemit, execSclemit, hports, hhi', hfmt, hcf', hlit, hctl, hblk, hd0, hd1', hroom', hnull, hpred, Bool.not_true, Bool.and_false,
      bne_self_eq_false, Bool.or_self, Bool.false_eq_true, or_self, if_false, sendScales, if_neg hgrid,
      sclToks_of_d0 hd1 hemit hne hlanes, List.map_map]
    rfl
  · intro pn e d col cx hvalid hnib hlo hhi hinj hroom
    have hgo : ¬ ((!sprtValid e) = true ∨ (!isNib (sprtDest e).site.toNat) = true) := by
      rw [sprtValid, bit_toNat, hvalid, show isNib (sprtDest e).site.toNat = true from hnib]; decide
    have hadm : ¬ (bits x.payload.toNat 63 52 < (ctxAt s (sprtCtx e)).colbase ∨ (ctxAt s (sprtCtx e)).collim < bits x.payload.toNat 63 52) := by
      rw [payload_colour]
      exact not_or.2 ⟨Nat.not_lt.2 hlo, Nat.not_lt.2 hhi⟩
    rw [exec_scalePortConvert, execScalePortConvert]
    simp only [hq, show tgetD (panelAt s s.sel.p).sprt x.node 0 = e from rfl, if_neg hgo, if_neg hadm, show (panelAt s s.sel.p).inj = some k from hinj,
      payload_tag, payload_scale, payload_block, pn]
    exact if_pos hroom

/-- Settles O37: transfers issue and complete by sectors, and scale tokens are sent and converted. -/
theorem transfers : Obligations.Transfers := ⟨transfersIssue, transferSectorsComplete, scaleTokensAreSent⟩

end Sys2Proof.Proofs
end

section
/-!
PROOF. Progress counters, pulses and the waits on completion tags (06 R123 to R126, R136; 11 R252, R253).
-/
namespace Sys2Proof.Proofs
open Sys2Proof.Machine Sys2Proof.Safety Sys2Proof.Claims

/-! ## The counter records (R252) -/

theorem badPg_eq_false {r : RecS} (hobj : r.obj.toNat < 64) (hcf : r.cf = 0) : badPg r = false := by
  rw [badPg, Nat.div_eq_of_lt hobj, hcf]
  rfl

theorem pgNum_of_lt {r : RecS} (hobj : r.obj.toNat < 64) : pgNum r = r.obj.toNat := Nat.mod_eq_of_lt hobj

/-- The stamp of a change leaves the counter's own fields. -/
theorem pgStamp_fields (s : State) (x : Pg) : (pgStamp s x).value = x.value ∧ (pgStamp s x).alloc = x.alloc ∧ (pgStamp s x).ctx = x.ctx ∧
    (pgStamp s x).acnt = x.acnt ∧ (pgStamp s x).prior = x.prior ∧ (pgStamp s x).pend = x.pend ∧ (pgStamp s x).stamp = s.cycle + 1 := by
  unfold pgStamp
  split
  · exact ⟨rfl, rfl, rfl, rfl, rfl, rfl, by assumption⟩
  · exact ⟨rfl, rfl, rfl, rfl, rfl, rfl, rfl⟩

theorem pgSet_now {s : State} {p k : Nat} {y : PgSet} (h : pulseDue s p = false) : pgSet s p k y = pgApply s p k y := by
  rw [pgSet, h]; exact if_neg Bool.false_ne_true

theorem pgSet_pends {s : State} {p k : Nat} {y : PgSet} (h : pulseDue s p = true) : pgSet s p k y = setPg s p k { pgAt s p k with pend := some y } :=
  if_pos h

section
variable {r : RecS} {s : State} (hobj : r.obj.toNat < 64) (hcf : r.cf = 0) (hs : Supplied s r.ctl [0])
include hobj hcf hs

theorem pginit_sets (hsub : r.sub = 0) (hhold : pgHolder (pgAt s s.cur.p r.obj.toNat) = none ∨
      pgHolder (pgAt s s.cur.p r.obj.toNat) = some (colourOf s.cur.tag)) :
    exec (.pginit r) s = .next (pgMove (pgSet s s.cur.p r.obj.toNat
      { alloc := true, value := laneN (portTok s.cur 0).lanes 0, prior := laneN (portTok s.cur 0).lanes 1 % 65536, colour := colourOf s.cur.tag
        ctx := matchCtx s s.cur.p s.cur.plane s.cur.tag }) r s.cur) := by
  have hmine : (pgHolder (pgAt s s.cur.p r.obj.toNat)).any (fun k => k != colourOf s.cur.tag) = false := by
    rcases hhold with h | h <;> rw [h]
    · rfl
    · exact bne_self_eq_false _
  rw [exec_pginit, execPginit, sFire_supplied hs (by rw [badPg_eq_false hobj hcf, hsub]; rfl) (.inl rfl)]
  simp only [pgNum_of_lt hobj, hmine, Bool.false_eq_true, if_false]

theorem pginit_other {col : Nat} (hsub : r.sub = 0) (hhold : pgHolder (pgAt s s.cur.p r.obj.toNat) = some col) (hne : col ≠ colourOf s.cur.tag) :
    exec (.pginit r) s = .next (faultCur s s.cur cILLEGAL 0) := by
  have hother : (pgHolder (pgAt s s.cur.p r.obj.toNat)).any (fun k => k != colourOf s.cur.tag) = true := by
    rw [hhold]; exact bne_iff_ne.2 hne
  rw [exec_pginit, execPginit, sFire_supplied hs (by rw [badPg_eq_false hobj hcf, hsub]; rfl) (.inl rfl)]
  simp only [pgNum_of_lt hobj, hother, if_true]

theorem pginitFree_sets (hsub : r.sub = 1) (hhold : pgHolder (pgAt s s.cur.p r.obj.toNat) = some (colourOf s.cur.tag)) :
    exec (.pginitFree r) s = .next (pgMove (pgSet s s.cur.p r.obj.toNat {}) r s.cur) := by
  rw [exec_pginitFree, execPginitFree, sFire_supplied hs (by rw [badPg_eq_false hobj hcf, hsub]; rfl) (.inl rfl)]
  simp only [pgNum_of_lt hobj, hhold, ne_eq, not_true_eq_false, if_false]

theorem pgadv_adds (hclean : Clean s) (halloc : (pgAt s s.cur.p r.obj.toNat).alloc = true)
    (hctx : (pgAt s s.cur.p r.obj.toNat).ctx = matchCtx s s.cur.p s.cur.plane s.cur.tag) :
    exec (.pgadv r) s = .next (pgMove (
      let x := pgAt s s.cur.p r.obj.toNat
      let n := if r.sub = 0 then laneN (portTok s.cur 0).lanes 0 else r.sub.toNat
      setPg s s.cur.p r.obj.toNat { pgStamp s x with value := (x.value + n) % 2 ^ 32, acnt := min 4095 (x.acnt + n) }) r s.cur) := by
  obtain ⟨hvalue, halloc', hctx', hacnt, -⟩ := pgStamp_fields s (pgAt s s.cur.p r.obj.toNat)
  rw [exec_pgadv, execPgadv, sFire_supplied hs (badPg_eq_false hobj hcf) (.inr hclean)]
  simp only [pgNum_of_lt hobj, halloc', hctx', hvalue, hacnt, halloc, hctx, Bool.not_true, Bool.false_eq_true, ne_eq, not_true_eq_false, if_false]

theorem pgadv_foreign (hclean : Clean s) (halloc : (pgAt s s.cur.p r.obj.toNat).alloc = true)
    (hctx : (pgAt s s.cur.p r.obj.toNat).ctx ≠ matchCtx s s.cur.p s.cur.plane s.cur.tag) :
    exec (.pgadv r) s = .next (faultCur s s.cur cPERMISSION 0) := by
  obtain ⟨-, halloc', hctx', -⟩ := pgStamp_fields s (pgAt s s.cur.p r.obj.toNat)
  rw [exec_pgadv, execPgadv, sFire_supplied hs (badPg_eq_false hobj hcf) (.inr hclean)]
  simp only [pgNum_of_lt hobj, halloc', hctx', halloc, hctx, Bool.not_true, Bool.false_eq_true, if_false, ne_eq, not_false_eq_true, if_true]

end

theorem progressCounters : ProgressCounters := by
  intro r s hobj hcf hs c a k x y ctx pass v pr
  refine ⟨fun hsub hhold => ⟨fun hdue => ?_, fun hdue => ?_⟩, fun col hsub hhold hne => pginit_other hobj hcf hs hsub hhold hne,
    fun hsub hhold => ⟨fun hdue => ?_, fun hdue => ?_⟩, fun hclean halloc hctx => pgadv_adds hobj hcf hs hclean halloc hctx,
    fun hclean halloc hctx => pgadv_foreign hobj hcf hs hclean halloc hctx, ?_⟩
  · rw [pginit_sets hobj hcf hs hsub hhold, pgSet_now hdue]
    rfl
  · rw [pginit_sets hobj hcf hs hsub hhold, pgSet_pends hdue]
    rfl
  · rw [pginitFree_sets hobj hcf hs hsub hhold, pgSet_now hdue]
    rfl
  · rw [pginitFree_sets hobj hcf hs hsub hhold, pgSet_pends hdue]
    rfl
  · intro w hsub halloc hctx
    rw [exec_pgread, execPgread, sFire_supplied hs (by rw [badPg_eq_false hobj hcf, hsub]; rfl) (.inl rfl)]
    simp only [pgNum_of_lt hobj, show pgStart s (pgAt s s.cur.p r.obj.toNat) = w from rfl, halloc, hctx, Bool.not_true, Bool.false_eq_true,
      if_false, c, ctx, ne_eq, not_true_eq_false]

/-! ## Waits on completion tags (R253) -/

section
variable {r : RecN} {s : State} {bad : Cur → Bool} {act : State → Cur → Option State}

theorem waitFire_takes (hhi : r.hi.toNat ≤ 1) (hfmt : r.fmt = 0) (hcf : r.cf.toNat ≤ 1)
    (ht : Takes s (formN r) (portTok s.cur 0).ty [0, 1] false) : waitFire r s bad act = .next (
      if bad s.cur then faultCur s s.cur cILLEGAL 0
      else if s.cur.site = 240 then (act s s.cur).getD (waitOn s s.cur (.test s.cycle))
      else waitOn s s.cur (.test (s.cycle + 2))) := by
  have hbad : badWait r = false := by
    rw [badWait, hfmt, Nat.div_eq_of_lt (by omega : r.hi.toNat < 2), Nat.div_eq_of_lt (by omega : r.cf.toNat < 2)]
    rfl
  rw [waitFire, fireWith_takes ht hbad]

end

theorem completionWaits : CompletionWaits := by
  intro r s step done m
  have hany : ∀ s c, (scribeAt s c.p).done &&& waitMask r c ≠ 0 →
      anyStep r s c = some (step s c true true ((scribeAt s c.p).done &&& waitMask r c) true) := by
    intro s c h
    simp only [anyStep, if_neg h, step, and_true]
    rfl
  have hnone : ∀ s c, (scribeAt s c.p).done &&& waitMask r c = 0 → anyStep r s c = none := fun s c h => if_pos h
  have hall : ∀ s c, (scribeAt s c.p).done &&& waitMask r c = waitMask r c → allStep r s c = some (step s c false true (waitMask r c) true) := by
    intro s c h
    simp only [allStep, h, ne_eq, not_true_eq_false, if_false, step, and_true]
    rfl
  have hsome : ∀ s c, (scribeAt s c.p).done &&& waitMask r c ≠ waitMask r c → allStep r s c = none := fun s c h => if_pos h
  have hff : ∀ s c, ffStep r s c = some (step s c false ((scribeAt s c.p).done &&& waitMask r c == waitMask r c) (waitMask r c)
      ((scribeAt s c.p).done &&& waitMask r c == waitMask r c)) := fun s c => rfl
  refine ⟨fun hhi hfmt hcf ht => ?_, fun p site x => ?_⟩
  · have hwait := fun bad act => waitFire_takes (bad := bad) (act := act) hhi hfmt hcf ht
    intro c
    refine ⟨fun h => ?_, fun hgrid => ⟨fun h => ?_, ?_, ?_⟩, fun hsite => ⟨fun h hd => ?_, fun h hd => ?_, fun hd => ?_, fun hd => ?_, ?_⟩⟩
    · rw [exec_waitany, execWaitany, hwait, if_pos (beq_iff_eq.2 h)]
    · rw [exec_waitany, execWaitany, hwait, if_neg (by simpa using h), if_neg hgrid]
    · rw [exec_waitall, execWaitall, hwait, if_neg Bool.false_ne_true, if_neg hgrid]
    · rw [exec_ffready, execFfready, hwait, if_neg Bool.false_ne_true, if_neg hgrid]
    · rw [exec_waitany, execWaitany, hwait, if_neg (by simpa using h), if_pos hsite, hany s s.cur hd, Option.getD_some]
    · rw [exec_waitany, execWaitany, hwait, if_neg (by simpa using h), if_pos hsite, hnone s s.cur hd, Option.getD_none]
    · rw [exec_waitall, execWaitall, hwait, if_neg Bool.false_ne_true, if_pos hsite, hall s s.cur hd, Option.getD_some]
    · rw [exec_waitall, execWaitall, hwait, if_neg Bool.false_ne_true, if_pos hsite, hsome s s.cur hd, Option.getD_none]
    · rw [exec_ffready, execFfready, hwait, if_neg Bool.false_ne_true, if_pos hsite, hff s s.cur, Option.getD_some]
  · intro c
    refine ⟨fun hw hd => ?_, fun hw hd => ?_, fun hw hd => ?_, fun hw hd => ?_, fun hw => ?_⟩
    · simp only [waitStep, hw]; exact hany s c hd
    · simp only [waitStep, hw]; exact hnone s c hd
    · simp only [waitStep, hw]; exact hall s c hd
    · simp only [waitStep, hw]; exact hsome s c hd
    · simp only [waitStep, hw]; exact hff s c

/-! ## Pulses (06 R126, R136) -/

/-- Nothing but what a pulse changes before it is noted differs in `t`. -/
structure PulseKeeps (s t : State) : Prop where
  rest : t = { s with pgs := t.pgs, xfers := t.xfers, ctxs := t.ctxs, scribes := t.scribes }

theorem PulseKeeps.refl (s : State) : PulseKeeps s s := ⟨rfl⟩

theorem PulseKeeps.trans {s t u : State} (h : PulseKeeps s t) (k : PulseKeeps t u) : PulseKeeps s u := by
  obtain ⟨h⟩ := h
  obtain ⟨k⟩ := k
  refine ⟨?_⟩
  rw [k, h]

theorem PulseKeeps.cycle {s t : State} (h : PulseKeeps s t) : t.cycle = s.cycle := by rw [h.rest]

theorem PulseKeeps.panels {s t : State} (h : PulseKeeps s t) : t.panels = s.panels := by rw [h.rest]

theorem PulseKeeps.foldl {β : Type} {f : State → β → State} (hf : ∀ u x, PulseKeeps u (f u x)) (l : List β) (s : State) :
    PulseKeeps s (l.foldl f s) := by
  induction l generalizing s with
  | nil => exact .refl s
  | cons x l ih => exact (hf s x).trans (ih (f s x))

theorem setPg_keepsPulse (s : State) (p k : Nat) (x : Pg) : PulseKeeps s (setPg s p k x) := ⟨rfl⟩

theorem flagLate_keepsPulse (s : State) (x : Xfer) : PulseKeeps s (flagLate s x) := ⟨rfl⟩

theorem pgApply_keepsPulse (s : State) (p k : Nat) (y : PgSet) : PulseKeeps s (pgApply s p k y) := by
  unfold pgApply
  split <;> exact ⟨rfl⟩

/-- A change of one counter of panel `p` after another: a counter sees its own change alone. -/
theorem pgAt_foldl_not_mem {f : State → Nat → State} {p j : Nat} (hf : ∀ u k, k ≠ j → pgAt (f u k) p j = pgAt u p j) (l : List Nat)
    (hj : j ∉ l) (s : State) : pgAt (l.foldl f s) p j = pgAt s p j := by
  induction l generalizing s with
  | nil => rfl
  | cons k l ih =>
    obtain ⟨hk, hl⟩ := not_or.1 (mt List.mem_cons.2 hj)
    rw [List.foldl_cons, ih hl, hf s k (Ne.symm hk)]

theorem pgAt_foldl_mem {f : State → Nat → State} {p j : Nat} (hf : ∀ u k, k ≠ j → pgAt (f u k) p j = pgAt u p j)
    (hkeep : ∀ u k, PulseKeeps u (f u k)) (l : List Nat) (hj : j ∈ l) (hone : l.Nodup) (s : State) :
    ∃ u, PulseKeeps s u ∧ pgAt u p j = pgAt s p j ∧ pgAt (l.foldl f s) p j = pgAt (f u j) p j := by
  obtain ⟨l1, l2, rfl⟩ := List.append_of_mem hj
  have hnot : j ∉ l1 ∧ j ∉ l2 := by
    obtain ⟨-, h2, h3⟩ := List.nodup_append.1 hone
    exact ⟨fun h => h3 j h j (List.mem_cons_self ..) rfl, (List.nodup_cons.1 h2).1⟩
  refine ⟨l1.foldl f s, .foldl hkeep l1 s, pgAt_foldl_not_mem hf l1 hnot.1 s, ?_⟩
  rw [List.foldl_append, List.foldl_cons, pgAt_foldl_not_mem hf l2 hnot.2]

theorem pgAt_freeXfers (s : State) (p k q j : Nat) : pgAt (freeXfers s p k) q j = pgAt s q j := rfl

theorem pgAt_pgApply_ne {s : State} {p k j : Nat} {y : PgSet} (h : k ≠ j) : pgAt (pgApply s p k y) p j = pgAt s p j := by
  have hkey : 64 * p + j ≠ 64 * p + k := by omega
  unfold pgApply
  split
  · rw [pgAt_setPg_ne _ _ hkey]
  · rw [pgAt_freeXfers, pgAt_setPg_ne _ _ hkey]

theorem pgAt_pgApply (s : State) (p k : Nat) (y : PgSet) : pgAt (pgApply s p k y) p k =
    if y.alloc then { pgStamp s (pgAt s p k) with value := y.value, lvalue := y.value, colour := y.colour, ctx := y.ctx, alloc := true, acnt := 0
                                                  prior := y.prior, rate := y.prior
                                                  hist := (s.cycle, y.value, y.prior) :: (pgStamp s (pgAt s p k)).hist, pend := none }
    else { stamp := (pgStamp s (pgAt s p k)).stamp, was := (pgStamp s (pgAt s p k)).was } := by
  unfold pgApply
  split
  · exact pgAt_setPg s p k fun e => List.cons_ne_nil _ _ (congrArg Pg.hist e)
  · rw [pgAt_freeXfers]
    refine pgAt_setPg s p k fun e => ?_
    have hstamp : (pgStamp s (pgAt s p k)).stamp = 0 := congrArg Pg.stamp e
    obtain ⟨-, -, -, -, -, -, h⟩ := pgStamp_fields s (pgAt s p k)
    omega

/-- The counters of panel `p` that a pulse of this cycle updates. -/
def pulsedOf (s : State) (p : Nat) : List Nat := (List.range 64).filter (fun k => pulsed s (pgAt s p k))

/-- A pulse updates one counter. -/
def pulseOne (p : Nat) (s : State) (k : Nat) : State := setPg s p k (pulsePg s p (pgAt s p k))

/-- What a PGINIT of the pulse's cycle has left for after the pulse takes effect. -/
def pulseLate (p : Nat) (s : State) (k : Nat) : State :=
  match (pgAt s p k).pend with
  | some y => pgApply s p k y
  | none => s

/-- The transfers that a pulse flags. -/
def pulseLates (s : State) (p : Nat) : List Xfer :=
  s.xfers.filter (fun x => x.cpanel == p && (pulsedOf s p).contains x.r.pgn.toNat && !x.freed && !x.stopped && !x.flagged &&
    !(scribeAt s x.p).late.getLsbD x.r.ctag.toNat && lateUnder (pgAt s p x.r.pgn.toNat).value x.r.mark.toNat)

/-- The state of a pulse before it is noted. -/
def pulseState (s : State) (p : Nat) : State :=
  (List.range 64).foldl (pulseLate p) ((pulseLates s p).foldl flagLate ((pulsedOf s p).foldl (pulseOne p) s))

/-- The pulse of panel `p` is noted, and a period written since the last one is taken over. -/
def pulseNoted (s : State) (p cycle : Nat) : State :=
  let pn := panelAt s p
  setPanel s p { pn with lastPulse := cycle + 1, plog := pn.plogPend.getD pn.plog, plogPend := none }

theorem pgAt_pulseNoted (s : State) (p cycle q k : Nat) : pgAt (pulseNoted s p cycle) q k = pgAt s q k := rfl

theorem lastPulse_pulseNoted (s : State) (p cycle : Nat) : (panelAt (pulseNoted s p cycle) p).lastPulse = cycle + 1 := by
  rw [pulseNoted, panelAt_setPanel]
  exact fun e => Nat.succ_ne_zero _ (congrArg Panel.lastPulse e)

theorem exec_pulse_of_due {s : State} (hp : s.cycle % pulseP s s.sel.p = 0) (hnew : (panelAt s s.sel.p).lastPulse ≠ s.cycle + 1) :
    exec .pulse s = .next (pulseNoted (pulseState s s.sel.p) s.sel.p s.cycle) := by
  have hdue : ¬ (s.cycle % pulseP s s.sel.p ≠ 0 ∨ (panelAt s s.sel.p).lastPulse = s.cycle + 1) := not_or.2 ⟨not_not.2 hp, hnew⟩
  rw [exec_pulse, execPulse]
  exact if_neg hdue

theorem pulseLate_keepsPulse (p : Nat) (s : State) (k : Nat) : PulseKeeps s (pulseLate p s k) := by
  unfold pulseLate
  split
  · exact pgApply_keepsPulse ..
  · exact .refl s

theorem pulseState_keepsPulse (s : State) (p : Nat) : PulseKeeps s (pulseState s p) :=
  ((PulseKeeps.foldl (fun u _ => setPg_keepsPulse u ..) _ s).trans (.foldl flagLate_keepsPulse _ _)).trans
    (.foldl (pulseLate_keepsPulse p) _ _)

theorem pulsePg_of_keeps {s u : State} (h : PulseKeeps s u) (p : Nat) (x : Pg) : pulsePg u p x = pulsePg s p x := by
  simp only [pulsePg, pgStamp, pulseP, panelAt, h.cycle, h.panels]

theorem pgAt_foldl_flagLate (l : List Xfer) (s : State) (p k : Nat) : pgAt (l.foldl flagLate s) p k = pgAt s p k := by
  induction l generalizing s with
  | nil => rfl
  | cons x l ih => rw [List.foldl_cons, ih]; rfl

/-- Each counter after the updates of a pulse. -/
theorem pgAt_pulsed (s : State) {p k : Nat} (hk : k < 64) : pgAt ((pulsedOf s p).foldl (pulseOne p) s) p k =
    if pulsed s (pgAt s p k) = true then pulsePg s p (pgAt s p k) else pgAt s p k := by
  have hne : ∀ u j, j ≠ k → pgAt (pulseOne p u j) p k = pgAt u p k := fun u j h => pgAt_setPg_ne _ _ (by omega)
  by_cases hp : pulsed s (pgAt s p k) = true
  · have hmem : k ∈ pulsedOf s p := List.mem_filter.2 ⟨List.mem_range.2 hk, hp⟩
    obtain ⟨u, hu, hat, hfold⟩ := pgAt_foldl_mem hne (fun u _ => setPg_keepsPulse u ..) _ hmem (List.nodup_range.filter _) s
    rw [hfold, if_pos hp, pulseOne, pgAt_setPg, hat, pulsePg_of_keeps hu]
    exact fun e => List.cons_ne_nil _ _ (congrArg Pg.hist e)
  · have hmem : k ∉ pulsedOf s p := fun h => hp (List.mem_filter.1 h).2
    rw [pgAt_foldl_not_mem hne _ hmem, if_neg hp]

/-- Each counter after a pulse and the PGINITs of its cycle. -/
theorem pgAt_pulseState (s : State) {p k : Nat} (hk : k < 64) : ∃ u, PulseKeeps s u ∧
    pgAt u p k = (if pulsed s (pgAt s p k) = true then pulsePg s p (pgAt s p k) else pgAt s p k) ∧
    pgAt (pulseState s p) p k = pgAt (pulseLate p u k) p k := by
  have hne : ∀ u j, j ≠ k → pgAt (pulseLate p u j) p k = pgAt u p k := by
    intro u j h
    unfold pulseLate
    split
    · exact pgAt_pgApply_ne h
    · rfl
  obtain ⟨u, hu, hat, hfold⟩ := pgAt_foldl_mem hne (pulseLate_keepsPulse p) (List.range 64) (List.mem_range.2 hk) List.nodup_range
    ((pulseLates s p).foldl flagLate ((pulsedOf s p).foldl (pulseOne p) s))
  refine ⟨u, ((PulseKeeps.foldl (fun u _ => setPg_keepsPulse u ..) _ s).trans (.foldl flagLate_keepsPulse _ _)).trans hu, ?_, hfold⟩
  rw [hat, pgAt_foldl_flagLate, pgAt_pulsed s hk]

theorem pulsePg_pend (s : State) (p : Nat) (x : Pg) : (pulsePg s p x).pend = x.pend := (pgStamp_fields s x).2.2.2.2.2.1

theorem pulseNoted_rest {s u : State} (h : PulseKeeps s u) {p cycle : Nat} :
    pulseNoted u p cycle = { s with pgs := (pulseNoted u p cycle).pgs, panels := (pulseNoted u p cycle).panels
                                    xfers := (pulseNoted u p cycle).xfers, ctxs := (pulseNoted u p cycle).ctxs
                                    scribes := (pulseNoted u p cycle).scribes } := by
  obtain ⟨h⟩ := h
  rw [h]
  rfl

theorem pulsesUpdateCounters : PulsesUpdateCounters := by
  intro s hp hnew
  have hkeeps := pulseState_keepsPulse s s.sel.p
  refine ⟨_, exec_pulse_of_due hp hnew, ?_, fun k hk hnot hpend => ?_, fun k hk y hpend => ?_, fun k hk hupd hpend => ?_, ?_⟩
  · exact lastPulse_pulseNoted ..
  · obtain ⟨u, hu, hat, hstate⟩ := pgAt_pulseState s (p := s.sel.p) hk
    rw [if_neg (by rw [hnot]; decide)] at hat
    rw [pgAt_pulseNoted, hstate]
    simp only [pulseLate, hat, hpend]
  · obtain ⟨u, hu, hat, hstate⟩ := pgAt_pulseState s (p := s.sel.p) hk
    have hat' : (pgAt u s.sel.p k).pend = some y := by
      rw [hat]; split
      · rw [pulsePg_pend, hpend]
      · exact hpend
    have hfin : pgAt (pulseState s s.sel.p) s.sel.p k = pgAt (pgApply u s.sel.p k y) s.sel.p k := by
      rw [hstate]; simp only [pulseLate, hat']
    rw [pgAt_pulseNoted, hfin, pgAt_pgApply]
    cases hy : y.alloc with
    | true => exact ⟨rfl, rfl, fun _ => ⟨rfl, rfl, rfl, rfl⟩⟩
    | false => exact ⟨rfl, rfl, fun h => absurd h Bool.false_ne_true⟩
  · obtain ⟨u, hu, hat, hstate⟩ := pgAt_pulseState s (p := s.sel.p) hk
    rw [if_pos hupd] at hat
    have hfin : pgAt (pulseState s s.sel.p) s.sel.p k = pulsePg s s.sel.p (pgAt s s.sel.p k) := by
      rw [hstate]; simp only [pulseLate, hat, pulsePg_pend, hpend]
    obtain ⟨hvalue, -, -, -, hprior, -⟩ := pgStamp_fields s (pgAt s s.sel.p k)
    rw [pgAt_pulseNoted, hfin]
    exact ⟨hvalue, rfl, rfl, hprior, rfl⟩
  · exact pulseNoted_rest hkeeps

/-- Settles O38: progress counters and pulses, and the waits on completion tags. -/
theorem progress : Obligations.Progress := ⟨progressCounters, pulsesUpdateCounters, completionWaits⟩

end Sys2Proof.Proofs
end

section
/-!
PROOF. Arrays: SYSMODE, WLOAD, MMA, ACCIN, ACCOUT, and the passes (11 R256 to R261; 03 R77, R78).
-/
namespace Sys2Proof.Proofs
open Sys2Proof.Machine Sys2Proof.Safety Sys2Proof.Claims

/-! ## SYSMODE (R256) -/

section
variable {r : RecN} {s : State} {leave : Bool} {i : Instr}

theorem badSys_eq_false (hlit : r.ctl.lituse = 0) (hfmt : arrTyOk r.fmt = true) (hcf : r.cf = 0) (hd0 : r.d0.site = 255 ∨ r.d0.site.toNat < 240)
    (hhi : r.hi = if leave then 1 else 0) : badSys leave r = false := by
  have hdest : (r.d0.site == 255 || decide (r.d0.site.toNat < 240)) = true := by
    rcases hd0 with h | h <;> simp [h]
  rw [badSys, hhi, hfmt, hcf, hlit, hdest, bne_self_eq_false]
  rfl

theorem sysFire_supplied (hfields : badSys leave r = false) (hsite : s.cur.site = 240) (hs : Supplied s r.ctl [0])
    (hp : (portTok s.cur 0).poison = false) : sysFire leave r i s =
      if sysBad s s.cur leave then .next (faultCur s s.cur cILLEGAL 0)
      else if inBlock s ∧ !s.cur.late then .next (holdEff s i)
      else .next (sysTry s s.cur leave r) := by
  obtain ⟨hports, hctl, -, hblk, hnull, hpred⟩ := hs
  simp only [sysFire, hports, hsite, hfields, hctl, hblk, hnull, hpred, hp, Bool.not_true, Bool.false_eq_true, ne_eq, not_true_eq_false, or_self,
    Bool.or_self, if_false]

theorem sysBad_enter {y0 y1 x0 x1 : Nat} (hrect : sysRect s s.cur = some (y0, y1, x0, x1)) :
    sysBad s s.cur false = enterBad s s.cur.p y0 y1 x0 x1 := by
  simp only [sysBad, hrect, Bool.false_eq_true, if_false]

theorem sysBad_leave {y0 y1 x0 x1 : Nat} (hrect : sysRect s s.cur = some (y0, y1, x0, x1)) :
    sysBad s s.cur true = (arrayAt s s.cur.p y0 y1 x0 x1).isNone := by
  simp only [sysBad, hrect, if_true]

end

theorem arraysAreFormedAndLeft : ArraysAreFormedAndLeft := by
  intro r s hfmt hcf hd0 hsite hs hp c
  have hlit := hs.2.2.1
  have henter : r.hi = 0 → exec (.sysmodeEnter r) s = _ := fun hhi =>
    (exec_sysmodeEnter r s).trans (sysFire_supplied (badSys_eq_false hlit hfmt hcf hd0 hhi) hsite hs hp)
  have hleave : r.hi = 1 → exec (.sysmodeLeave r) s = _ := fun hhi =>
    (exec_sysmodeLeave r s).trans (sysFire_supplied (badSys_eq_false hlit hfmt hcf hd0 hhi) hsite hs hp)
  refine ⟨fun hhi hbad => ?_, fun hhi hbad => ?_, fun b hb => ⟨fun hhi hok => ?_, fun hhi hok => ?_⟩,
    fun y0 y1 x0 x1 hlate hrect => ⟨fun hhi hok hmma => ?_, fun k hhi hk hpass => ?_⟩⟩
  · rw [henter hhi, if_pos hbad]
  · rw [hleave hhi, if_pos hbad]
  · rw [henter hhi, if_neg (by rw [hok]; decide), if_pos ⟨inBlock_of hb, by rw [hb.2.1]; rfl⟩, holdEff_of hb]
  · rw [hleave hhi, if_neg (by rw [hok]; decide), if_pos ⟨inBlock_of hb, by rw [hb.2.1]; rfl⟩, holdEff_of hb]
  · rw [henter hhi, if_neg (by rw [sysBad_enter hrect, hok]; decide), if_neg (inBlock_act (.inr hlate))]
    simp only [sysTry, show sysRect s s.cur = some (y0, y1, x0, x1) from hrect, show enterBad s s.cur.p y0 y1 x0 x1 = false from hok,
      show (cellSites y0 y1 x0 x1).any (mmaPending s s.cur.p) = false from hmma, Bool.false_eq_true, if_false]
    rfl
  · rw [hleave hhi, if_neg (by rw [sysBad_leave hrect, show arrayAt s s.cur.p y0 y1 x0 x1 = some k from hk]; exact Bool.false_ne_true),
      if_neg (inBlock_act (.inr hlate))]
    simp only [sysTry, show sysRect s s.cur = some (y0, y1, x0, x1) from hrect, show arrayAt s s.cur.p y0 y1 x0 x1 = some k from hk,
      hpass, Bool.false_eq_true, if_false, if_true]
    rfl

/-! ## WLOAD (R258) -/

theorem weightChunksLoad : WeightChunksLoad := by
  intro r s k row q hhi hfmt hcf hlit ht hcell c a t wb ch hty htt hlen hch hpoison
  have hfields : (r.hi.toNat / 2 != 0 || !arrTyOk r.fmt || r.cf != 0 || r.ctl.lituse == 2) = false := by
    rw [Nat.div_eq_of_lt (by omega : r.hi.toNat < 2), hfmt, hcf, beq_eq_false_iff_ne.2 hlit]
    rfl
  have hfull : ¬ (r.fmt ≠ a.ty ∨ t.ty ≠ a.ty ∨ t.lanes.length ≠ (if isBlockTy a.ty then 8 * blockLanes a.ty else 32) ∨
      32 * arrK a.ty / chunkElems a.ty ≤ ch) := by
    rintro (h | h | h | h)
    · exact h hty
    · exact h htt
    · exact h hlen
    · exact Nat.not_lt.2 h hch
  have hclean : ¬ (r.ctl.lituse ≠ 1 ∧ (portTok s.cur 1).poison = true) := by
    rintro ⟨h1, h2⟩
    rcases hpoison with h | h
    · exact h1 h
    · exact Bool.false_ne_true (h.symm.trans h2)
  have hexec : exec (.wload r) s = .next (if reading a q wb then waitOn s c (.acc c.p)
      else emitRes (setArray s k (loadChunk a row q wb ch c)) c (formN r) 6 (both (ackVal c.tag ch))) := by
    rw [exec_wload, execWload, fireWith_takes ht hfields]
    simp only [hcell]
    rw [if_neg hfull, if_neg hclean]
  exact ⟨fun h => by rw [hexec, if_pos h], fun h => by rw [hexec, if_neg (by rw [h]; decide)]; rfl⟩

/-! ## MMA (R259; 26 R412) -/

section
variable {r : RecN} {s : State} {k row q : Nat}

theorem execMma_of_cell (hctl3 : r.hi.getLsbD 3 = false) (hcf : r.cf = 0) (hlit : r.ctl.lituse = 0) (hctl : badCtl [0] r.ctl = false)
    (hports : hasPorts s.cur (portSet [0] r.ctl) = true) (hlev : r.hi.toNat % 8 < (layoutOf s s.cur.p s.cur.plane).length)
    (hcell : cellOf s s.cur.p s.cur.site = some (k, row, q)) (hlow : r.lit.toNat < 128) (hty : arrTyOk r.fmt = true) :
    let c := s.cur
    let a := s.arrays.getD k default
    let t := portTok c 0
    let off := anyNull c (portSet [0] r.ctl) || predFalse r.ctl c
    let x : PassRow := { row := row, j := r.lit.toNat % 64, level := r.hi.toNat % 8, wb := r.lit.getLsbD 6, site := c.site, node := c.node
                         plane := c.plane, tok := if off then none else some t, scales := if off then [] else c.scales }
    exec (.mma r) s =
      if q ≠ 0 then .next (sysSettle (withholdPass (faultCur s c cILLEGAL 0) c k) c.p)
      else if rowFired a c.tag row then .next (sysSettle (faultCur s c cILLEGAL 0) c.p)
      else if r.fmt != a.ty || (!off && (t.ty != a.ty || t.lanes.length != sliceLanes a.ty)) then
        .next (sysSettle (joinPass (faultCur s c cILLEGAL 0) c k { x with tok := none, scales := [] } true) c.p)
      else if skewFull s a c row (r.lit.toNat % 64) (r.hi.toNat % 8) then .next (waitOn s c (.acc c.p))
      else .next (sysSettle (joinPass (noteMma s c.p c.site) c k x false) c.p) := by
  have hlow' : (r.lit.toNat / 128 != 0) = false := by rw [Nat.div_eq_of_lt hlow]; rfl
  have hlev' : decide ((layoutOf s s.cur.p s.cur.plane).length ≤ r.hi.toNat % 8) = false := decide_eq_false (Nat.not_le.2 hlev)
  rw [exec_mma, execMma]
  simp only [hports, hctl3, hlow', hcf, hlit, hctl, hty, hlev', hcell, bit_toNat, Bool.not_true, bne_self_eq_false, Bool.or_self,
    Bool.false_eq_true, if_false]

theorem southCell_of {f : BitVec 4} (hcell : cellOf s s.cur.p s.cur.site = some (k, row, q)) (hrow : row + 1 = nrowOf (s.arrays.getD k default))
    (hf : f = accTy (s.arrays.getD k default).ty) : southCell s s.cur f = some (k, q) := by
  simp only [southCell, hcell]
  exact if_pos ⟨hrow, hf⟩

theorem badAccFmt_of {ty : BitVec 4} (hf : r.fmt = accTy ty) : badAccFmt r = false := by
  rw [badAccFmt, hf, accTy]
  split <;> rfl

end

theorem arrayRecordsComplete : ArrayRecordsComplete := by
  intro r s k row q hctl3 hcf hlit hctl hports hlev hcell c a t j lev
  refine ⟨fun hlow hty hfmt hq => ?_, fun hlow hty hq => ?_, fun hrow hfmt ht => ⟨fun hlow htt hlen => ?_, fun hlow hn => ?_⟩⟩
  · have hmma := execMma_of_cell hctl3 hcf hlit hctl hports hlev hcell hlow hty
    intro off x
    refine ⟨fun hfired => ?_, fun hfired hok => ?_⟩
    · rw [hmma, if_neg (not_not.2 hq), if_pos hfired]
    · have hright : ¬ (r.fmt != a.ty || (!off && (t.ty != a.ty || t.lanes.length != sliceLanes a.ty))) = true := by
        rw [hfmt, bne_self_eq_false]
        rcases hok with h | ⟨h1, h2⟩
        · rw [h]; exact Bool.false_ne_true
        · rw [h1, h2, bne_self_eq_false, bne_self_eq_false]; simp
      have hnot : ¬ rowFired a c.tag row = true := by rw [hfired]; decide
      refine ⟨fun hfull => ?_, fun hfull => ?_⟩
      · rw [hmma, if_neg (not_not.2 hq), if_neg hnot, if_neg hright, if_pos hfull]
      · rw [hmma, if_neg (not_not.2 hq), if_neg hnot, if_neg hright, if_neg (by rw [hfull]; decide)]
  · rw [execMma_of_cell hctl3 hcf hlit hctl hports hlev hcell hlow hty, if_pos hq]
  · have hfields : (r.hi.getLsbD 3 || badAccFmt r || r.cf != 0 || r.lit.toNat / 64 != 0 || r.ctl.lituse != 0 || !accLevelOk s r) = false := by
      rw [hctl3, badAccFmt_of hfmt, hcf, Nat.div_eq_of_lt hlow, hlit, accLevelOk, decide_eq_true hlev]; rfl
    have hfull : ¬ (t.ty ≠ r.fmt ∨ t.lanes.length ≠ 32) := not_or.2 ⟨not_not.2 htt, not_not.2 hlen⟩
    rw [exec_accin, execAccin, fireWith_takes ht hfields]
    simp only [southCell_of hcell hrow hfmt]
    rw [if_neg hfull]
    rfl
  · have hfields : (r.hi.getLsbD 3 || badAccFmt r || r.cf != 0 || r.lit.toNat / 2 ^ 24 != 0 || bits r.lit.toNat 23 8 == 0 || r.ctl.lituse != 0 ||
        !accLevelOk s r) = false := by
      rw [hctl3, badAccFmt_of hfmt, hcf, Nat.div_eq_of_lt hlow, hlit, accLevelOk, decide_eq_true hlev, beq_eq_false_iff_ne.2 (by omega)]; rfl
    intro acc base
    have hout : exec (.accout r) s = .next (
        if acc.run ≠ some base ∨ acc.next ≠ bits r.lit.toNat 23 8 then waitOn s c (.acc c.p)
        else
          let v : Val := { tag := c.tag, ty := r.fmt, lanes := acc.v }
          let xs := (destSends r.d0 r.ctl.emit0 (curPoison c || acc.poison) true false v (some v)) ++
            destSends r.d1 r.ctl.emit1 (curPoison c || acc.poison) true false v (some v)
          if xs.any (tooWide s c) then faultCur s c cILLEGAL 0
          else wakePanel (sends (setArray s k (setAcc a q j { acc with run := none, poison := false })) c xs) c.p (fun w => w == .acc c.p)) := by
      rw [exec_accout, execAccout, fireWith_takes ht hfields]
      simp only [southCell_of hcell hrow hfmt]
      rfl
    refine ⟨fun hwait => by rw [hout, if_pos hwait], fun hrun hnext => ?_⟩
    intro v xs hfit
    rw [hout, if_neg (not_or.2 ⟨not_not.2 hrun, not_not.2 hnext⟩)]
    exact congrArg Host.Outcome.next (if_neg (by rw [show xs.any (tooWide s c) = false from hfit]; decide))

/-! ## Passes (R260) -/

theorem accTurn_iff {x : Accum} {p : Nat} {b : Word64} : accTurn x p b = true ↔ (x.run = none ∧ p = 0) ∨ (x.run = some b ∧ p = x.next) := by
  simp only [accTurn, Bool.or_eq_true, Bool.and_eq_true, Option.isNone_iff_eq_none, beq_iff_eq]

theorem getD_setAt {α : Type} {l : List α} {k : Nat} {x y d : α} (h : l[k]? = some y) : (setAt l k x).getD k d = x := by
  obtain ⟨hk, -⟩ := List.getElem?_eq_some_iff.1 h
  have hlen : (l.take k).length = k := List.length_take_of_le (Nat.le_of_lt hk)
  rw [setAt, if_pos hk, List.getD_eq_getElem?_getD, List.getElem?_append_right (Nat.le_of_eq hlen), hlen, Nat.sub_self]
  rfl

/-- The accumulator of a pass's column, with a run begun for its first pass. -/
def accBegun (s : State) (a : SysArray) (q : Nat) (x : Pass) : Accum :=
  let acc := accAt a q x.j
  if acc.run.isNone then { acc with run := some (passBase s a x), next := 0, v := List.replicate 32 0, poison := false } else acc

/-- The accumulator of a pass's column after it. -/
def accAfter (s : State) (a : SysArray) (q : Nat) (x : Pass) : Accum :=
  let acc := accBegun s a q x
  { acc with v := (List.range 32).map (fun o => BitVec.ofNat 32 (outStep a x q o (acc.v.getD o 0)).1)
             next := acc.next + 1, poison := acc.poison || passPoison a x q }

theorem accAt_passColumn {s : State} {a : SysArray} {k n q : Nat} {x : Pass} (hk : s.arrays[k]? = some a) (hrun : (accAfter s a q x).run ≠ none) :
    accAt ((passColumn s k a n q x).arrays.getD k default) q x.j = accAfter s a q x := by
  have harrays : ∃ ps, (passColumn s k a n q x).arrays = setAt s.arrays k { setAcc a q x.j (accAfter s a q x) with passes := ps } := by
    simp only [passColumn, List.map_map]
    split
    · exact ⟨_, rfl⟩
    · exact ⟨_, by rw [(orFlags_onlySends 0 _ _ _ _).rest]; rfl⟩
  obtain ⟨ps, h⟩ := harrays
  rw [h, getD_setAt hk]
  exact tgetD_tsetD_of_ne _ _ fun e => hrun (congrArg Accum.run e)

theorem passesUpdateInOrder : PassesUpdateInOrder := by
  intro s a x hk hn q acc idx base
  refine ⟨fun hcomplete hcol hturn => ⟨?_, ?_⟩, fun hturn => ?_⟩
  · have hgo : ¬ ((!x.complete) = true ∨ (!(passCols a x).contains s.sel.q) = true ∨
        (!accTurn (accAt a s.sel.q x.j) (passIdx s a x) (passBase s a x)) = true) := by
      rw [hcomplete, hcol, accTurn_iff.2 hturn]; decide
    rw [exec_arrayPassUpdate, execArrayPassUpdate]
    simp only [hk, hn, if_neg hgo]
    rfl
  · have hafter : (accAfter s a q x).run = some base ∧ (accAfter s a q x).next = idx + 1 := by
      rcases hturn with ⟨hrun, hidx⟩ | ⟨hrun, hidx⟩
      · rw [hidx, accAfter, accBegun, show (accAt a q x.j).run = none from hrun]
        exact ⟨rfl, rfl⟩
      · rw [hidx, accAfter, accBegun, show (accAt a q x.j).run = some base from hrun]
        exact ⟨hrun, rfl⟩
    intro b acc' v0
    have hacc : acc' = accAfter s a q x := accAt_passColumn hk (by rw [hafter.1]; exact Option.some_ne_none _)
    rw [hacc]
    refine ⟨hafter.1, hafter.2, ?_⟩
    have hv : (accBegun s a q x).v = v0 := by
      simp only [accBegun, Option.isNone_iff_eq_none]
      split
      next h => exact (if_pos h).symm
      next h => exact (if_neg h).symm
    rw [accAfter, hv]
  · have hno : (!accTurn (accAt a s.sel.q x.j) (passIdx s a x) (passBase s a x)) = true := by
      rw [Bool.not_eq_true', ← Bool.not_eq_true, accTurn_iff]
      exact hturn
    rw [exec_arrayPassUpdate, execArrayPassUpdate]
    simp only [hk, hn, if_pos (Or.inr (Or.inr hno) : (!x.complete) = true ∨ (!(passCols a x).contains s.sel.q) = true ∨ _)]
    rfl

/-- Settles O39: arrays are formed and left, loaded and run. -/
theorem arrays : Obligations.Arrays := ⟨arraysAreFormedAndLeft, weightChunksLoad, arrayRecordsComplete, passesUpdateInOrder⟩

end Sys2Proof.Proofs
end

section
/-!
PROOF. Pace sets and sweeps (12 R271 to R276).
-/
namespace Sys2Proof.Proofs
open Sys2Proof.Machine Sys2Proof.Safety Sys2Proof.Claims

section
variable {r : RecS} {s : State} (hbad : paceBad r.obj = false) (hw : AtWell s r [0] 4)
include hbad hw

/-- A record of a pace set whose SUB is its own acts on its well. -/
theorem pace_acts {sub : BitVec 8} (hsub : r.sub = sub) {ty : BitVec 4} {act : State → Cur → Nat → State} :
    objFire s r [0] 4 (paceBad r.obj || r.sub != sub) ty act = .next (act s s.cur r.d1.site.toNat) :=
  objFire_atWell hw (by rw [hbad, hsub, bne_self_eq_false]; rfl)

theorem sweep_acts (hsub : r.sub.toNat < 8) {ty : BitVec 4} {act : State → Cur → Nat → State} :
    objFire s r [0] 4 (paceBad r.obj || decide (8 ≤ r.sub.toNat)) ty act = .next (act s s.cur r.d1.site.toNat) :=
  objFire_atWell hw (by rw [hbad, decide_eq_false (Nat.not_le.2 hsub)]; rfl)

end

theorem paceWrong_iff {s : State} {c : Cur} {r : RecS} {w m : Nat} :
    paceWrong s c r w m = true ↔ paceDesc s c.p w ≠ r.obj.toNat ∨ paceNM1 r.obj < m := by
  rw [paceWrong, Bool.or_eq_true, bne_iff_ne, decide_eq_true_eq]

theorem paceWrong_of_member {s : State} {c : Cur} {r : RecS} {w m : Nat} (hd : paceDesc s c.p w = r.obj.toNat) (hm : m ≤ paceNM1 r.obj) :
    paceWrong s c r w m = false := by
  rw [← Bool.not_eq_true, paceWrong_iff]
  omega

theorem pexpNext_near (desc d pexp : Nat) : pexpNext desc d pexp ≤ pexp + 1 ∧ pexp ≤ pexpNext desc d pexp + 1 := by
  simp only [pexpNext]
  split
  · omega
  · split
    · omega
    · split <;> omega

/-- The change of a member's value, with its flags (R275). -/
def memberDelta (s : State) (c : Cur) (w : Nat) : Nat × BitVec 5 :=
  fadd 10 0 0 (fread 10 (laneN (portTok c 0).lanes 1)) (fneg (fread 10 (memberAt s c.p w (laneN (portTok c 0).lanes 0)).value))

/-- A member after an update (R275). -/
def memberUpdated (s : State) (c : Cur) (w : Nat) : Member :=
  let x := memberAt s c.p w (laneN (portTok c 0).lanes 0)
  { x with value := laneN (portTok c 0).lanes 1, delta := (memberDelta s c w).1, span := (paceSidx s c.p w + 2 ^ 32 - x.slast) % 2 ^ 32
           slast := paceSidx s c.p w, pend := false, pexp := pexpNext (paceDesc s c.p w) (memberDelta s c w).1 x.pexp }

/-- A match whose operands take no further poison. -/
theorem ops_keep_poison (l : List (Nat × Token)) : l.map (fun y => (y.1, { y.2 with poison := y.2.poison || false })) = l := by
  simp only [Bool.or_false]
  exact List.map_id l

theorem paceSetsAreKept : PaceSetsAreKept := by
  intro r s hbad hw c w n m x
  refine ⟨fun hsub hn => ?_, fun hsub hn => ?_, fun hsub hd hm => ⟨fun hpend => ?_, fun hpend => ?_⟩, fun hsub hd hm => ⟨fun hpend => ?_, fun hpend => ?_⟩,
    fun hwrong => ⟨fun hsub => ?_, fun hsub => ?_⟩, fun hsub hm => ?_, fun hsub hm hmem hhead => ?_⟩
  · intro hd s1 s2
    rw [exec_pacesetInit, execPacesetInit, pace_acts hbad hw hsub]
    exact congrArg _ (if_neg (not_not.2 hn))
  · rw [exec_pacesetInit, execPacesetInit, pace_acts hbad hw hsub]
    exact congrArg _ (if_pos hn)
  · rw [exec_pacesetLoad, execPacesetLoad, pace_acts hbad hw hsub]
    refine congrArg _ ((if_neg ?_).trans (if_pos hpend))
    rw [paceWrong_of_member hd hm]; decide
  · rw [exec_pacesetLoad, execPacesetLoad, pace_acts hbad hw hsub]
    refine congrArg _ ((if_neg ?_).trans (if_neg ?_))
    · rw [paceWrong_of_member hd hm]; decide
    · rw [show (memberAt s s.cur.p r.d1.site.toNat (laneN (portTok s.cur 0).lanes 0)).pend = false from hpend]; decide
  · rw [exec_pacesetUpdate, execPacesetUpdate, pace_acts hbad hw hsub]
    refine congrArg _ (if_pos (.inr ?_))
    rw [show (memberAt s s.cur.p r.d1.site.toNat (laneN (portTok s.cur 0).lanes 0)).pend = false from hpend]; rfl
  · obtain ⟨hup, hdown⟩ := pexpNext_near (paceDesc s c.p w) (memberDelta s c w).1 x.pexp
    refine ⟨memberUpdated s c w, _, (memberDelta s c w).2, rfl, rfl, rfl, rfl, rfl, hup, hdown, rfl, ?_⟩
    rw [exec_pacesetUpdate, execPacesetUpdate, pace_acts hbad hw hsub]
    refine congrArg _ ((if_neg ?_).trans ?_)
    · rw [paceWrong_of_member hd hm, show (memberAt s s.cur.p r.d1.site.toNat (laneN (portTok s.cur 0).lanes 0)).pend = true from hpend]; decide
    · rfl
  · rw [exec_pacesetLoad, execPacesetLoad, pace_acts hbad hw hsub]
    exact congrArg _ (if_pos (paceWrong_iff.2 hwrong))
  · rw [exec_pacesetUpdate, execPacesetUpdate, pace_acts hbad hw hsub]
    exact congrArg _ (if_pos (.inl (paceWrong_iff.2 hwrong)))
  · rw [exec_paceq, execPaceq, pace_acts hbad hw hsub]
    exact congrArg _ (if_pos hm)
  · intro q
    rw [exec_paceq, execPaceq, pace_acts hbad hw hsub]
    refine congrArg _ ((if_neg (Nat.not_lt.2 hm)).trans ?_)
    simp only [show memberBad s s.cur.p r.d1.site.toNat (laneN (portTok s.cur 0).lanes 0) = false from hmem,
      show tgetD s.wbad (wbadKey s.cur.p r.d1.site.toNat 0) false = false from hhead, Bool.or_self, ops_keep_poison]
    rfl

/-! ## SWEEP (R274) -/

section
variable {s : State} {p w n t : Nat}

/-- The members of a set, each with its number. -/
def membersOf (s : State) (p w n : Nat) : List (Nat × Member) := (List.range n).map (fun m => (m, memberAt s p w m))

theorem membersOf_any_pend : (membersOf s p w n).any (fun x => x.2.pend) = true ↔ ∃ m < n, (memberAt s p w m).pend = true := by
  simp [membersOf]

theorem membersOf_due : (membersOf s p w n).filter (fun x => paceDue x.2 t) =
    ((List.range n).filter (fun m => paceDue (memberAt s p w m) t)).map (fun m => (m, memberAt s p w m)) := List.filter_map

end

/-! ### A member's mark is its own sector's -/

theorem mem_dedup {β : Type} [BEq β] [LawfulBEq β] {α : Type} {f : α → β} {l : List α} {acc : List β} {y : β}
    (h : y ∈ l.foldl (fun acc x => if acc.contains (f x) then acc else acc ++ [f x]) acc) : y ∈ acc ∨ ∃ x ∈ l, f x = y := by
  induction l generalizing acc with
  | nil => exact .inl h
  | cons x l ih =>
    rcases ih h with h | ⟨z, hz, rfl⟩
    · dsimp only at h
      split at h
      · exact .inl h
      · rcases List.mem_append.1 h with h | h
        · exact .inl h
        · exact .inr ⟨x, List.mem_cons_self .., (List.mem_singleton.1 h).symm⟩
    · exact .inr ⟨z, List.mem_cons_of_mem _ hz, rfl⟩

theorem tgetD_foldl_ne {α β : Type} [DecidableEq α] {f : Tab α → β → Tab α} {k : Nat} {d : α} {l : List β}
    (hf : ∀ x ∈ l, ∀ t, tgetD (f t x) k d = tgetD t k d) (t : Tab α) : tgetD (l.foldl f t) k d = tgetD t k d := by
  induction l generalizing t with
  | nil => rfl
  | cons x l ih =>
    rw [List.foldl_cons, ih (fun y hy => hf y (List.mem_cons_of_mem _ hy)), hf x (List.mem_cons_self ..)]

/-- A store leaves the marks of the sectors that it writes no byte of. -/
theorem wellStore_wbad_ne {s : State} {p w : Nat} {bs : List (Nat × Byte)} {poison : Bool} {sec : Nat} (h : ∀ y ∈ bs, y.1 / 32 ≠ sec) :
    tgetD (wellStore s p w bs poison).wbad (siteKey p w * 16384 + sec) false = tgetD s.wbad (siteKey p w * 16384 + sec) false := by
  refine tgetD_foldl_ne (fun x hx t => ?_) s.wbad
  have hne : siteKey p w * 16384 + sec ≠ siteKey p w * 16384 + x := by
    rcases mem_dedup hx with hx | ⟨y, hy, rfl⟩
    · exact absurd hx List.not_mem_nil
    · have := h y hy; omega
  split
  · exact tgetD_tsetD_ne _ _ _ hne
  · split
    · exact tgetD_tsetD_ne _ _ _ hne
    · rfl

theorem memberBad_key (s : State) (p w m : Nat) : memberBad s p w m = tgetD s.wbad (siteKey p w * 16384 + (2 + m)) false := by
  rw [memberBad, wbadKey, paceOff, show (64 + 32 * m) / 32 = 2 + m by omega]

theorem memberBad_setMember_ne {s : State} {p w m k : Nat} {x : Member} {poison : Bool} (h : k ≠ m) :
    memberBad (setMember s p w m x poison) p w k = memberBad s p w k := by
  rw [memberBad_key, memberBad_key]
  refine wellStore_wbad_ne fun y hy => ?_
  obtain ⟨i, hi, rfl⟩ := List.mem_map.1 hy
  have := List.mem_range.1 hi
  simp only [paceOff]
  omega

theorem memberBad_setHeader (s : State) (p w sidx desc k : Nat) : memberBad (setHeader s p w sidx desc) p w k = memberBad s p w k := by
  rw [memberBad_key, memberBad_key]
  refine wellStore_wbad_ne fun y hy => ?_
  obtain ⟨i, hi, rfl⟩ := List.mem_map.1 hy
  have := List.mem_range.1 hi
  simp only
  omega

/-- A sweep's members keep the marks that they had before it. -/
theorem foldl_setMember_marks {p w : Nat} {s : State} (f : Nat → Member) (l : List Nat) (hl : l.Nodup) (u : State)
    (hu : ∀ m ∈ l, memberBad u p w m = memberBad s p w m) :
    l.foldl (fun u m => setMember u p w m (f m) (memberBad u p w m)) u =
      l.foldl (fun u m => setMember u p w m (f m) (memberBad s p w m)) u := by
  induction l generalizing u with
  | nil => rw [List.foldl_nil, List.foldl_nil]
  | cons m l ih =>
    obtain ⟨hm, hl⟩ := List.nodup_cons.1 hl
    have hrest : ∀ k ∈ l, memberBad (setMember u p w m (f m) (memberBad s p w m)) p w k = memberBad s p w k := by
      intro k hk
      have hne : k ≠ m := fun e => hm (e ▸ hk)
      rw [memberBad_setMember_ne hne, hu k (List.mem_cons_of_mem _ hk)]
    rw [List.foldl_cons, List.foldl_cons, hu m (List.mem_cons_self ..)]
    exact ih hl (setMember u p w m (f m) (memberBad s p w m)) hrest

theorem sweepVisitsDueMembers : SweepVisitsDueMembers := by
  intro r s hbad hsub hw c w lay j n t hj
  have hlevel : ¬ lay.length ≤ r.sub.toNat % 8 := by rw [Nat.mod_eq_of_lt hsub]; exact Nat.not_le.2 hj
  have hacts := fun act => sweep_acts (ty := 6) (act := act) hbad hw hsub
  have hall : (∀ m < n, (memberAt s c.p w m).pend = false) → ¬ (membersOf s c.p w n).any (fun x => x.2.pend) = true := by
    rw [membersOf_any_pend]
    rintro h ⟨m, hm, hp⟩
    exact Bool.false_ne_true ((h m hm).symm.trans hp)
  refine ⟨fun hpend => ?_, fun hnone => ⟨fun hfew => ?_, fun hroom => ?_⟩⟩
  · rw [exec_sweep, execSweep, hacts]
    exact congrArg _ ((if_neg hlevel).trans (if_pos (membersOf_any_pend.2 hpend)))
  · rw [exec_sweep, execSweep, hacts]
    refine congrArg _ ((if_neg hlevel).trans ((if_neg (hall hnone)).trans (if_pos ?_)))
    rw [Nat.mod_eq_of_lt hsub]
    exact hfew
  · intro due s2
    have hsweep : exec (.sweep r) s = .next (if due.isEmpty then
          objEmit s2 c r 6 { tag := setfld lay c.tag j 0, ty := 6, lanes := [0, 0], null := true, eor := true }
        else startGen s2 c (d0Only r) j (.sweep (due.map (fun m => (m, BitVec.ofNat 32 (memberAt s c.p w m).value, memberBad s c.p w m))))
          (portTok c 0)) := by
      rw [exec_sweep, execSweep, hacts]
      refine congrArg _ ((if_neg hlevel).trans ((if_neg (hall hnone)).trans ((if_neg ?_).trans ?_)))
      · rw [Nat.mod_eq_of_lt hsub]
        exact Nat.not_lt.2 hroom
      · have hdue : (membersOf s s.cur.p r.d1.site.toNat (paceNM1 r.obj + 1)).filter (fun x => paceDue x.2
            ((paceSidx s s.cur.p r.d1.site.toNat + 1) % 2 ^ 32)) = due.map (fun m => (m, memberAt s s.cur.p r.d1.site.toNat m)) := membersOf_due
        rw [membersOf] at hdue
        have hmarks := foldl_setMember_marks (s := s) (p := s.cur.p) (w := r.d1.site.toNat)
          (fun m => { memberAt s s.cur.p r.d1.site.toNat m with pend := true }) due (List.nodup_range.filter _)
          (setHeader s s.cur.p r.d1.site.toNat ((paceSidx s s.cur.p r.d1.site.toNat + 1) % 2 ^ 32) (paceDesc s s.cur.p r.d1.site.toNat))
          (fun m _ => memberBad_setHeader ..)
        simp only [hdue, List.map_map, List.foldl_map, List.isEmpty_map, Nat.mod_eq_of_lt hsub, hmarks]
        rfl
    refine ⟨fun hempty => ?_, fun hsome => ?_⟩
    · rw [hsweep, if_pos (List.isEmpty_iff.2 hempty)]
    · rw [hsweep, if_neg (mt List.isEmpty_iff.1 hsome)]

/-- Settles O41: pace sets are kept, and sweeps visit the members that are due. -/
theorem paces : Obligations.Paces := ⟨paceSetsAreKept, sweepVisitsDueMembers⟩

end Sys2Proof.Proofs
end

section
/-!
PROOF. Rule records (13 R299; 19 R382, R390).
-/
namespace Sys2Proof.Proofs
open Sys2Proof.Machine Sys2Proof.Safety Sys2Proof.Claims

/-! ## A table that is listed twice

The state is of no run of the model: `tsetD` keeps one entry for a key. The statement's state is any state. -/

/-- RULESET, SUB 0, of table 1. -/
def twinRec : RecS :=
  { sub := 0, d0 := { site := 7, node := 1, port := 0 }, d1 := { site := 255, node := 0, port := 0 }
    ctl := { lituse := 0, pred := false, emit0 := 0, emit1 := 0, nullpass := false }, cf := 0, obj := 1 }

/-- The lanes of entry 31 of table 1. -/
def twinLanes : List Lane := [0x1F0001, 0x10002, 0, 0, 0xFFFFFFFE, 0xFFFFFFFF, 0, 0x100000]

/-- Table 1 of panel 0 is listed twice: as an empty table, and behind that as one with a round in progress. -/
def twinState : State :=
  { State.reset with
    cur := { site := 240, late := true, tag := 0x0010000000000000, ops := [(0, { ty := 6, lanes := twinLanes })] }
    rules := [(0, { tables := [(1, {}), (1, { inRound := true })] })] }

/-- What waits on table 1 of panel 0 in the state that an outcome answers. -/
def twinWaits (o : Outcome) : Bool :=
  match o with
  | .next s => !(tableAt s 0 1).waiters.isEmpty
  | _ => false

/-- The RULESET takes the empty table away when it is tried, meets the round of the other, and waits. -/
theorem twin_waits : twinWaits (exec (.rulesetWrite twinRec) twinState) = true := by decide +kernel

/-- By the statement nothing waits: the empty table has no round in progress. -/
theorem twin_claimed : twinWaits (.next (emit0
    (setTable twinState 0 1 { tableAt twinState 0 1 with
      entries := tput (tableAt twinState 0 1).entries (entryIdx (entryOf twinLanes)) (entryOf twinLanes), armed := none, accs := [] })
    twinState.cur twinRec (ackVal twinState.cur.tag (entryIdx (entryOf twinLanes))))) = false := by decide +kernel

theorem not_ruleRecordsTakeEffect : ¬ RuleRecordsTakeEffect := by
  intro h
  have hsup : Supplied twinState twinRec.ctl [0] := by decide
  have hwrite := (h twinRec twinState (by decide) rfl rfl rfl hsup (by decide) (by decide)).1 rfl
    (by decide +kernel) (by decide +kernel)
  have hclaim := (congrArg twinWaits (hwrite.2 (by decide))).trans twin_claimed
  exact Bool.false_ne_true (hclaim.symm.trans twin_waits)

/-- Refutes O42: where a state lists a table twice, an empty one before one with a round in progress, a RULESET that meets
the empty one waits on the other, and does not write its entry. The words of the statement hold of states that list a table
once; the statement does not ask for it. -/
theorem not_ruleRecords : ¬ Obligations.RuleRecords := fun h => not_ruleRecordsTakeEffect h.2

end Sys2Proof.Proofs
end

section
/-!
PROOF. Rule tables and collectives (19 R384 to R389).
-/
namespace Sys2Proof.Proofs
open Sys2Proof.Machine Sys2Proof.Safety Sys2Proof.Claims

/-! ## Arrivals (19 R384, R385) -/

section
variable {s : State} {a : Arrival}

/-- An arrival that no earlier one precedes meets its table. -/
theorem exec_ruleArrival_of (ha : s.arrivals[s.sel.k]? = some a) (hfirst : arrivalBehind a (s.arrivals.take s.sel.k) = false)
    {o : Option State} (ho : ruleMeet { s with arrivals := dropAt s.arrivals s.sel.k } a = o) :
    exec .ruleArrival s = o.elim notNow .next := by
  rw [exec_ruleArrival, execRuleArrival]
  simp only [ha, hfirst, ho, Bool.false_eq_true, if_false]
  cases o with
  | none => rfl
  | some u => rfl

theorem ruleHold_room (h : (engineAt s a.p).hold.length < 64) : ruleHold s a =
    some (arrivalFate (setEngine s a.p { engineAt s a.p with hold := (engineAt s a.p).hold ++ [{ a with told := true }] }) a true) :=
  if_pos h

theorem ruleHold_full (h : 64 ≤ (engineAt s a.p).hold.length) : ruleHold s a = none := if_neg (Nat.not_lt.2 h)

theorem ruleMeet_unarmed (h : (tableAt s a.p a.table).armed = none) : ruleMeet s a = ruleHold s a := by
  simp only [ruleMeet, h]

section
variable {r : Nat} (harmed : (tableAt s a.p a.table).armed = some r)
include harmed

theorem ruleMeet_now (hin : (tableAt s a.p a.table).inRound = true) (hr : a.round = r) : ruleMeet s a = ruleTake s a := by
  simp only [ruleMeet, harmed, hin, hr, and_self, if_true]

/-- An arrival of another round than the one in progress is held when its round is to come, and else is stale. -/
theorem ruleMeet_other (hother : (tableAt s a.p a.table).inRound = false ∨ a.round ≠ r) : ruleMeet s a =
    if 1 ≤ (a.round + 65536 - r) % 65536 ∧ (a.round + 65536 - r) % 65536 ≤ 32767 then ruleHold s a else some (ruleStale s a) := by
  have hnow : ¬ ((tableAt s a.p a.table).inRound = true ∧ a.round = r) := by
    rintro ⟨hin, hr⟩
    exact hother.elim (fun h => Bool.false_ne_true (h.symm.trans hin)) (fun h => h hr)
  simp only [ruleMeet, harmed]
  exact if_neg hnow

end

section
variable {cop i w : Nat} {x : RuleAcc} {ls : List Lane} {poison : Bool} (hstaged : x.staged = [])
include hstaged

/-- An arrival that is next is combined, and nothing stays staged. -/
theorem ruleRun_due : ruleRun cop (x.staged ++ [(x.next, ls, poison)]).length
    { x with width := w, staged := x.staged ++ [(x.next, ls, poison)] } = ruleApply cop { x with width := w } ls poison := by
  cases x
  subst hstaged
  simp only [List.nil_append, List.length_singleton, ruleRun, List.find?_cons, beq_self_eq_true, List.filter_cons, bne_self_eq_false,
    Bool.false_eq_true, if_false, List.filter_nil]

/-- An arrival ahead of its turn stays staged. -/
theorem ruleRun_early (hi : x.next < i) : ruleRun cop (x.staged ++ [(i, ls, poison)]).length
    { x with width := w, staged := x.staged ++ [(i, ls, poison)] } = { x with width := w, staged := [(i, ls, poison)] } := by
  have hne : (i == x.next) = false := beq_eq_false_iff_ne.2 (Nat.ne_of_gt hi)
  rw [hstaged, List.nil_append, List.length_singleton]
  simp only [ruleRun, List.find?_cons, hne, List.find?_nil]

end

/-- The used entry whose pattern an arrival's tag fits. -/
def ruleHit (s : State) (a : Arrival) : Option (Nat × BitVec 256) :=
  (usedEntries (tableAt s a.p a.table)).find? (fun x => a.tag &&& entryTmask x.2 == entryTval x.2 &&& entryTmask x.2)

/-- The state after an arrival was taken into the combination `y` of entry `idx`. -/
def takenIn (s : State) (a : Arrival) (idx : Nat) (y : RuleAcc) : State :=
  arrivalFate (setTable s a.p a.table { tableAt s a.p a.table with accs := tput (tableAt s a.p a.table).accs idx y }) a true

theorem ruleTake_missed (h : ruleHit s a = none) : ruleTake s a = some (ruleMiss s a) := by
  rw [ruleHit] at h
  simp only [ruleTake, h]

section
variable {idx : Nat} {en : BitVec 256} (hhit : ruleHit s a = some (idx, en))
include hhit

theorem ruleTake_past (hi : freeBits a.tag (entryTmask en) < (tgetD (tableAt s a.p a.table).accs idx {}).next) :
    ruleTake s a = some (ruleMiss s a) := by
  rw [ruleHit] at hhit
  simp only [ruleTake, hhit]
  exact if_pos (.inr (.inl hi))

section
variable (hwidth : (tgetD (tableAt s a.p a.table).accs idx {}).width = 0 ∨ (tgetD (tableAt s a.p a.table).accs idx {}).width = a.lanes.length)
    (hty : a.ty = copTy ((ruleCop (entryOpcode en)).getD 0)) (hcount : freeBits a.tag (entryTmask en) < entryCount en)
    (hstaged : (tgetD (tableAt s a.p a.table).accs idx {}).staged = [])
include hwidth hty hcount hstaged

omit hhit in
/-- An arrival that is due or early is no miss. -/
theorem no_miss (hi : (tgetD (tableAt s a.p a.table).accs idx {}).next ≤ freeBits a.tag (entryTmask en)) :
    ¬ (entryCount en ≤ freeBits a.tag (entryTmask en) ∨
      freeBits a.tag (entryTmask en) < (tgetD (tableAt s a.p a.table).accs idx {}).next ∨
      (tgetD (tableAt s a.p a.table).accs idx {}).staged.any (fun y => y.1 == freeBits a.tag (entryTmask en)) = true ∨
      ((tgetD (tableAt s a.p a.table).accs idx {}).width ≠ 0 ∧
        (tgetD (tableAt s a.p a.table).accs idx {}).width ≠ a.lanes.length) ∨
      a.ty ≠ copTy ((ruleCop (entryOpcode en)).getD 0)) := by
  rintro (h | h | h | ⟨h0, hw⟩ | h)
  · exact Nat.not_le.2 hcount h
  · exact Nat.not_le.2 h hi
  · rw [hstaged] at h; exact Bool.false_ne_true h
  · exact hwidth.elim h0 hw
  · exact h hty

/-- The arrival that is next is combined at once. -/
theorem ruleTake_due (hi : freeBits a.tag (entryTmask en) = (tgetD (tableAt s a.p a.table).accs idx {}).next) : ruleTake s a =
    some (takenIn s a idx (ruleApply ((ruleCop (entryOpcode en)).getD 0)
      { tgetD (tableAt s a.p a.table).accs idx {} with width := a.lanes.length } a.lanes a.poison)) := by
  have hmiss := no_miss hwidth hty hcount hstaged (Nat.le_of_eq hi.symm)
  rw [ruleHit] at hhit
  simp only [ruleTake, hhit]
  refine (if_neg hmiss).trans ((if_neg (fun h => absurd h.1 (by rw [hi]; exact Nat.lt_irrefl _))).trans ?_)
  rw [hi]
  exact congrArg (fun y => some (takenIn s a idx y)) (ruleRun_due hstaged)

/-- An arrival ahead of its turn is staged. -/
theorem ruleTake_early (hi : (tgetD (tableAt s a.p a.table).accs idx {}).next < freeBits a.tag (entryTmask en))
    (hroom : engineStaged s a.p < 64) : ruleTake s a =
    some (takenIn s a idx { tgetD (tableAt s a.p a.table).accs idx {} with
      width := a.lanes.length, staged := [(freeBits a.tag (entryTmask en), a.lanes, a.poison)] }) := by
  have hmiss := no_miss hwidth hty hcount hstaged (Nat.le_of_lt hi)
  rw [ruleHit] at hhit
  simp only [ruleTake, hhit]
  refine (if_neg hmiss).trans ((if_neg (fun h => absurd h.2 (Nat.not_le.2 hroom))).trans ?_)
  exact congrArg (fun y => some (takenIn s a idx y)) (ruleRun_early hstaged hi)

theorem ruleTake_full (hi : (tgetD (tableAt s a.p a.table).accs idx {}).next < freeBits a.tag (entryTmask en))
    (hfull : 64 ≤ engineStaged s a.p) : ruleTake s a = none := by
  have hmiss := no_miss hwidth hty hcount hstaged (Nat.le_of_lt hi)
  rw [ruleHit] at hhit
  simp only [ruleTake, hhit]
  exact (if_neg hmiss).trans (if_pos ⟨hi, hfull⟩)

end
end
end

theorem ruleArrivalsMeetTheirTable : RuleArrivalsMeetTheirTable := by
  intro s a ha hfirst s1 t e later heldNow
  have hmeet : ∀ {o : Option State}, ruleMeet s1 a = o → exec .ruleArrival s = o.elim notNow .next := exec_ruleArrival_of ha hfirst
  refine ⟨fun hu hroom => ?_, fun r hr hother => ⟨fun hl hroom => ?_, fun hl hfull => ?_, fun hl => ?_⟩, fun hr hin => ?_⟩
  · exact hmeet ((ruleMeet_unarmed (s := s1) hu).trans (ruleHold_room hroom))
  · exact hmeet ((ruleMeet_other (s := s1) hr hother).trans ((if_pos hl).trans (ruleHold_room hroom)))
  · exact hmeet ((ruleMeet_other (s := s1) hr hother).trans ((if_pos hl).trans (ruleHold_full hfull)))
  · exact hmeet ((ruleMeet_other (s := s1) hr hother).trans (if_neg hl))
  · have htake : ∀ {o : Option State}, ruleTake s1 a = o → exec .ruleArrival s = o.elim notNow .next :=
      fun h => hmeet ((ruleMeet_now (s := s1) hr hin rfl).trans h)
    refine ⟨fun hnone => htake (ruleTake_missed (s := s1) hnone), fun idx en hhit => ?_⟩
    intro i x cop put hwidth hty hcount hstaged
    exact ⟨fun hi => htake (ruleTake_due (s := s1) hhit hwidth hty hcount hstaged hi),
      fun hi hroom => htake (ruleTake_early (s := s1) hhit hwidth hty hcount hstaged hi hroom),
      fun hi hfull => htake (ruleTake_full (s := s1) hhit hwidth hty hcount hstaged hi hfull),
      fun hi => htake (ruleTake_past (s := s1) hhit hi)⟩

/-! ## Emission, fences and credits (19 R386, R388) -/

theorem ruleTablesEmit : RuleTablesEmit := by
  intro s idx e p n t edge a hin hnext
  have hin' : (!(tableAt s s.sel.p s.sel.num).inRound) = false := by rw [hin]; rfl
  have hready : 0 < t.credits → a.next = entryCount e → queueLen s p edge < 8 → gatedCtx s p edge (planeOf s p t.plane).ctx = false →
      ¬ (a.next ≠ entryCount e ∨ t.credits = 0 ∨ 8 ≤ queueLen s p edge ∨ gatedCtx s p edge (planeOf s p t.plane).ctx = true) := by
    rintro hc ha hq hg (h | h | h | h)
    · exact h ha
    · exact Nat.ne_of_gt hc h
    · exact Nat.not_le.2 hq h
    · exact Bool.false_ne_true (hg.symm.trans h)
  have hnow : nextEntry (tableAt s s.sel.p s.sel.num) = some (idx, e) := hnext
  refine ⟨fun h => ?_, fun hc ha hq hg hp => ?_, fun hc ha hq hg => ?_⟩
  · rw [exec_ruleEmit, execRuleEmit]
    simp only [hin', hnow, Bool.false_eq_true, if_false]
    exact if_pos (h.elim (fun h => .inr (.inl h)) .inl)
  · intro d tok s0 s1
    have hplane : (tableAt s s.sel.p s.sel.num).plane < 4 := hp
    have hemit : exec .ruleEmit s = .next (if (nextEntry (tableAt s1 p n)).isNone then
        ruleSettle p n (tableAt s1 p n).waiters.length (roundDone s1 p n) else s1) := by
      rw [exec_ruleEmit, execRuleEmit]
      simp only [hin', hnow, Bool.false_eq_true, if_false, hplane, if_true, Nat.mod_eq_of_lt hplane]
      exact if_neg (hready hc ha hq hg)
    rw [hemit]
    exact ⟨fun hmore => congrArg _ (if_neg (fun h => hmore (Option.isNone_iff_eq_none.1 h))),
      fun hlast => congrArg _ (if_pos (Option.isNone_iff_eq_none.2 hlast))⟩
  · rw [exec_ruleEmit, execRuleEmit]
    simp only [hin', hnow, Bool.false_eq_true, if_false]
    exact ⟨_, if_neg (hready hc ha hq hg)⟩

theorem drainFencesComplete : DrainFencesComplete := by
  intro s i f p n t hi hf hw
  have hnone : (tableAt s s.sel.p s.sel.num).waiters.length = 0 := congrArg List.length hw
  rw [exec_drainFenceComplete, execDrainFenceComplete]
  simp only [show idxOf (fenceDone s) (tableAt s s.sel.p s.sel.num).fences = some i from hi,
    show (tableAt s s.sel.p s.sel.num).fences[i]? = some f from hf, hnone]
  rfl

theorem creditsReturnToTables : CreditsReturnToTables := by
  intro s f hf hq hsnap hcredit s1 n t
  rw [exec_eauCredit, execEauCredit]
  simp only [hf, hq, hsnap, hcredit, Bool.not_true, Bool.or_self, Bool.false_eq_true, if_false]
  refine ⟨fun hn hu => ?_, fun hn hu hedge hnull => ?_⟩
  · exact (if_neg (Nat.not_le.2 hn)).trans (if_pos (Option.isNone_iff_eq_none.2 hu))
  · simp only [hnull, Bool.false_eq_true, if_false]
    exact (if_neg (Nat.not_le.2 hn)).trans ((if_neg (fun h => hu (Option.isNone_iff_eq_none.1 h))).trans (if_neg (fun h => h hedge)))

/-! ## COLL (19 R389) -/

/-- The arrival that a COLL sends out. -/
def collArrival (s : State) (c : Cur) : Arrival :=
  let b := (portTok c 1).lanes
  { p := collPanel b, table := collTable b, round := collRound b, tag := c.tag, ty := (portTok c 0).ty, lanes := (portTok c 0).lanes
    poison := curPoison c
    link := if dieOf c.p = dieOf (collPanel b) then none else some ((arbDie (dieOf c.p) (dieOf (collPanel b)) - 4 * 2 ^ 16) / 2)
    coll := s.fresh, origin := none }

/-- The transfer that carries it, with the slack that it leaves with. -/
def collXfer (s : State) (c : Cur) (r : RecT) : Xfer :=
  let x : Xfer :=
    { id := s.fresh, op := opColl, p := c.p, site := c.site, plane := c.plane, node := c.node, tag := c.tag
      ctx := matchCtx s c.p c.plane c.tag, r := r, desc := [], cpanel := c.p, born := s.cycle, doneCount := 0, stopped := false
      freed := false, flagged := false, fifo := [], arr := some (collArrival s c, collDev (portTok c 1).lanes) }
  { x with slack0 := slackAt (setScribe s c.p (tagBusy (scribeAt s c.p) r.ctag.toNat)) (dieOf c.p) x }

/-- The state in which a COLL has left: its tag is busy and its number is sent. -/
def collStands (s : State) (c : Cur) (r : RecT) : State :=
  emitRes { setScribe s c.p (tagBusy (scribeAt s c.p) r.ctag.toNat) with fresh := s.fresh + 1, xfers := s.xfers ++ [collXfer s c r] }
    c (formT r) 6 (ctagVal c r)

theorem collStands_cycle (s : State) (c : Cur) (r : RecT) : (collStands s c r).cycle = s.cycle :=
  (cycle_of_sends (emitRes_onlySends _ _ _ _ _)).trans rfl

/-- The request of a COLL on its path. -/
def collReq (s : State) (c : Cur) (r : RecT) (born : Nat) (path : List Nat) : Req :=
  { kind := .xferSector s.fresh 0 0, path := path, born := born, ctx := matchCtx s c.p c.plane c.tag, issuer := c.p, addr := 0
    ctag := r.ctag.toNat }

theorem issueColl_wrong {s : State} {c : Cur} {r : RecT} (h : collWrong s c r = true) : issueColl s c r = faultCur s c cILLEGAL 0 :=
  if_pos h

theorem issueColl_sends {s : State} {c : Cur} {r : RecT} (h : collWrong s c r = false) : issueColl s c r =
    if collOwn s (collDev (portTok c 1).lanes) then
      { collStands s c r with reqs := (collStands s c r).reqs ++
        [collReq s c r (collStands s c r).cycle (linkPath (dieOf c.p) (dieOf (collPanel (portTok c 1).lanes)))] }
    else match portPath (collStands s c r) (dieOf c.p) (collDev (portTok c 1).lanes) with
      | some path => { collStands s c r with reqs := (collStands s c r).reqs ++ [collReq s c r (collStands s c r).cycle path] }
      | none => xferFail (collStands s c r) (collXfer s c r) cPERMISSION 0 := by
  simp only [issueColl, h, Bool.false_eq_true, if_false]
  rfl

section
variable {s : State} {r : RecT} (h : Supplied s r.ctl [0, 1]) (hrsv : r.rsv = 0) (hlen : r.len = 0)
include h hrsv hlen

theorem execColl_held {b : Block} (hb : InBlock s b) (htag : ctagTaken s s.cur.p r.ctag.toNat = false) :
    execColl r s = .next (held s b (.coll r)) := by
  obtain ⟨hports, hctl, hlit, hblock, hnull, hpred⟩ := h
  have hin : inBlock s = true ∧ (!s.cur.late) = true := ⟨inBlock_of hb, by rw [hb.2.1]; rfl⟩
  simp only [execColl, hports, hctl, hlit, hblock, hnull, hpred, hrsv, hlen, bne_self_eq_false, Bool.not_true, Bool.or_self,
    Bool.false_eq_true, if_false, hin, htag, holdEff_of hb]
  rfl

/-- A COLL that acts now waits for its completion tag or is sent. -/
theorem execColl_acts (ha : ActsNow s) : execColl r s =
    if !collWrong s s.cur r ∧ !tagFree s s.cur.p r.ctag.toNat then .next (waitOn s s.cur .done) else .next (issueColl s s.cur r) := by
  obtain ⟨hports, hctl, hlit, hblock, hnull, hpred⟩ := h
  simp only [execColl, hports, hctl, hlit, hblock, hnull, hpred, hrsv, hlen, bne_self_eq_false, Bool.not_true, Bool.or_self,
    Bool.false_eq_true, if_false, if_neg (inBlock_act ha)]

end

theorem collectivesAreSent : CollectivesAreSent := by
  intro r s hrsv hlen hs c b dev die sc
  rw [exec_coll]
  refine ⟨fun k hk htag => execColl_held hs hrsv hlen hk htag, fun ha hwrong => ?_, fun ha hgood halloc => ?_⟩
  · have hw : collWrong s c r = true := by
      rw [collWrong]
      rcases hwrong with h | h <;> rw [h]
      · rfl
      · exact Bool.or_true _
    rw [execColl_acts hs hrsv hlen ha, if_neg (by rw [hw]; exact fun h => Bool.false_ne_true h.1), issueColl_wrong hw]
  · have hw : collWrong s c r = false := by rw [collWrong, hgood, halloc]; rfl
    rw [execColl_acts hs hrsv hlen ha, hw]
    refine ⟨fun htag => if_pos ⟨rfl, by rw [htag]; rfl⟩, fun htag => ?_⟩
    refine ⟨collXfer s c r, collArrival s c, rfl, rfl, rfl, rfl, rfl, rfl, rfl, rfl, rfl, rfl, rfl, rfl, ?_⟩
    intro m s1 s2 req
    rw [if_neg (by rw [htag]; exact fun h => Bool.false_ne_true h.2), issueColl_sends hw, collStands_cycle]
    refine ⟨fun hown => ?_, fun path hown hpath => ?_, fun hown hpath => ?_⟩
    · rw [if_pos hown]; rfl
    · rw [if_neg (by rw [hown]; exact Bool.false_ne_true)]
      simp only [show portPath (collStands s c r) (dieOf c.p) (collDev (portTok c 1).lanes) = some path from hpath]
      rfl
    · rw [if_neg (by rw [hown]; exact Bool.false_ne_true)]
      simp only [show portPath (collStands s c r) (dieOf c.p) (collDev (portTok c 1).lanes) = none from hpath]
      rfl

/-- Settles O43: arrivals meet their table, tables emit, fences complete, credits return, and collectives are sent. -/
theorem ruleTables : Obligations.RuleTables :=
  ⟨ruleArrivalsMeetTheirTable, ruleTablesEmit, drainFencesComplete, creditsReturnToTables, collectivesAreSent⟩

end Sys2Proof.Proofs
end

section
/-!
PROOF. The order of the points (16 R331; 17 R344).
-/
namespace Sys2Proof.Proofs
open Sys2Proof.Machine Sys2Proof.Safety Sys2Proof.Claims

/-! ## The order of requests -/

theorem lexBefore_three {a b c a' b' c' : Nat} :
    lexBefore [a, b, c] [a', b', c'] = true ↔ a < a' ∨ a = a' ∧ (b < b' ∨ b = b' ∧ c < c') := by
  simp only [lexBefore, List.zip_cons_cons, List.zip_nil_right, List.foldr_cons, List.foldr_nil, Bool.and_false, Bool.or_false,
    Bool.or_eq_true, Bool.and_eq_true, decide_eq_true_eq, beq_iff_eq]

theorem pointKey_before_iff {x y : PReq} : lexBefore (pointKey x) (pointKey y) = true ↔
    x.born < y.born ∨ x.born = y.born ∧ (x.kind < y.kind ∨ x.kind = y.kind ∧ x.cur.p < y.cur.p) := lexBefore_three

theorem pointKey_before_self (x : PReq) : lexBefore (pointKey x) (pointKey x) = false := by
  rw [← Bool.not_eq_true, pointKey_before_iff]
  omega

/-- What does not come before the best so far does not come before one that does. -/
theorem pointKey_not_before {x y z : PReq} (hy : lexBefore (pointKey y) (pointKey x) = false)
    (hz : lexBefore (pointKey z) (pointKey x) = true) : lexBefore (pointKey y) (pointKey z) = false := by
  rw [← Bool.not_eq_true, pointKey_before_iff] at *
  omega

/-! ## The first request of a point -/

section
variable (s : State) (point : Nat)

/-- The best of a point's requests once request `k` was looked at. -/
def pointStep (best : Option (Nat × PReq)) (k : Nat) : Option (Nat × PReq) :=
  match s.points[k]?, best with
  | some x, none => if x.point = point then some (k, x) else none
  | some x, some b => if x.point = point ∧ lexBefore (pointKey x) (pointKey b.2) then some (k, x) else best
  | none, _ => best

/-- The best of the first `n` requests. -/
def pointBest (n : Nat) : Option (Nat × PReq) := (List.range n).foldl (pointStep s point) none

theorem pointFirst_eq : pointFirst s point = (pointBest s point s.points.length).map (·.1) := rfl

theorem pointBest_succ (n : Nat) : pointBest s point (n + 1) = pointStep s point (pointBest s point n) n := by
  rw [pointBest, List.range_succ, List.foldl_append, List.foldl_cons, List.foldl_nil, pointBest]

/-- `best` is the first of a point's requests among the first `n`, or says that there is none. -/
def IsBest (n : Nat) (best : Option (Nat × PReq)) : Prop :=
  (∀ j x, best = some (j, x) → s.points[j]? = some x ∧ x.point = point ∧
    ∀ k < n, ∀ y, s.points[k]? = some y → y.point = point → lexBefore (pointKey y) (pointKey x) = false) ∧
  (best = none → ∀ k < n, ∀ y, s.points[k]? = some y → y.point ≠ point)

end

section
variable {s : State} {point n : Nat} {x : PReq} (hx : s.points[n]? = some x)
include hx

theorem isBest_take_first (h : IsBest s point n none) (hp : x.point = point) : IsBest s point (n + 1) (some (n, x)) := by
  obtain ⟨-, hnone⟩ := h
  refine ⟨?_, fun h => nomatch h⟩
  rintro j z ⟨⟩
  refine ⟨hx, hp, fun k hk y hy hyp => ?_⟩
  rcases Nat.lt_succ_iff_lt_or_eq.1 hk with hk | rfl
  · exact absurd hyp (hnone rfl k hk y hy)
  · obtain rfl : x = y := Option.some.inj (hx.symm.trans hy)
    exact pointKey_before_self x

theorem isBest_keep_none (h : IsBest s point n none) (hp : x.point ≠ point) : IsBest s point (n + 1) none := by
  obtain ⟨-, hnone⟩ := h
  refine ⟨fun j z h => (nomatch h), fun _ k hk y hy => ?_⟩
  rcases Nat.lt_succ_iff_lt_or_eq.1 hk with hk | rfl
  · exact hnone rfl k hk y hy
  · obtain rfl : x = y := Option.some.inj (hx.symm.trans hy)
    exact hp

theorem isBest_take_earlier {j : Nat} {b : PReq} (h : IsBest s point n (some (j, b))) (hp : x.point = point)
    (hlt : lexBefore (pointKey x) (pointKey b) = true) : IsBest s point (n + 1) (some (n, x)) := by
  obtain ⟨-, -, hfirst⟩ := h.1 j b rfl
  refine ⟨?_, fun h => nomatch h⟩
  rintro i z ⟨⟩
  refine ⟨hx, hp, fun k hk y hy hyp => ?_⟩
  rcases Nat.lt_succ_iff_lt_or_eq.1 hk with hk | rfl
  · exact pointKey_not_before (hfirst k hk y hy hyp) hlt
  · obtain rfl : x = y := Option.some.inj (hx.symm.trans hy)
    exact pointKey_before_self x

theorem isBest_keep {j : Nat} {b : PReq} (h : IsBest s point n (some (j, b)))
    (hlate : ¬ (x.point = point ∧ lexBefore (pointKey x) (pointKey b) = true)) : IsBest s point (n + 1) (some (j, b)) := by
  obtain ⟨hb, hp, hfirst⟩ := h.1 j b rfl
  refine ⟨?_, fun h => nomatch h⟩
  rintro i z ⟨⟩
  refine ⟨hb, hp, fun k hk y hy hyp => ?_⟩
  rcases Nat.lt_succ_iff_lt_or_eq.1 hk with hk | rfl
  · exact hfirst k hk y hy hyp
  · obtain rfl : x = y := Option.some.inj (hx.symm.trans hy)
    exact Bool.eq_false_iff.2 (fun hlt => hlate ⟨hyp, hlt⟩)

theorem pointStep_isBest {best : Option (Nat × PReq)} (h : IsBest s point n best) :
    IsBest s point (n + 1) (pointStep s point best n) := by
  cases best with
  | none =>
    simp only [pointStep, hx]
    split
    case isTrue hp => exact isBest_take_first hx h hp
    case isFalse hp => exact isBest_keep_none hx h hp
  | some b =>
    simp only [pointStep, hx]
    split
    case isTrue hp => exact isBest_take_earlier hx h hp.1 hp.2
    case isFalse hp => exact isBest_keep hx h hp

end

theorem pointBest_isBest {s : State} {point n : Nat} (hn : n ≤ s.points.length) : IsBest s point n (pointBest s point n) := by
  induction n with
  | zero => exact ⟨fun j x h => (nomatch h), fun _ k hk => absurd hk (Nat.not_lt_zero k)⟩
  | succ n ih =>
    rw [pointBest_succ]
    exact pointStep_isBest (List.getElem?_eq_getElem hn) (ih (Nat.le_of_succ_le hn))

/-- The request that a point serves first is its own, and none of its requests comes before it. -/
theorem pointFirst_spec {s : State} {point k : Nat} {x : PReq} (hk : pointFirst s point = some k) (hx : s.points[k]? = some x) :
    x.point = point ∧ ∀ y ∈ s.points, y.point = point → lexBefore (pointKey y) (pointKey x) = false := by
  rw [pointFirst_eq, Option.map_eq_some_iff] at hk
  obtain ⟨⟨j, z⟩, hbest, rfl⟩ := hk
  obtain ⟨hz, hp, hfirst⟩ := (pointBest_isBest (Nat.le_refl _)).1 j z hbest
  obtain rfl : z = x := Option.some.inj (hz.symm.trans hx)
  refine ⟨hp, fun y hy hyp => ?_⟩
  obtain ⟨i, hi, hyi⟩ := List.getElem_of_mem hy
  exact hfirst i hi y ((List.getElem?_eq_getElem hi).trans (congrArg some hyi)) hyp

/-! ## Requests -/

/-- A request that is no SPAWN stands at its point when it arrives. -/
theorem pointArrive_stands {s : State} {x : PReq} (h : ∀ r, x.i ≠ .spawn r) :
    pointArrive s x = { s with points := s.points ++ [{ x with born := s.cycle }] } := by
  unfold pointArrive
  split
  next r hr => exact absurd hr (h r)
  next => rfl

section
variable {s : State} {point die : Nat} {i : Instr} {c : Cur}

theorem askPoint_here (hdie : dieOf c.p = die) : askPoint s point die i c =
    pointArrive s { point := point, born := s.cycle, kind := pointKind i, i := i, cur := c } := if_pos hdie

theorem askPoint_far (hdie : dieOf c.p ≠ die) : askPoint s point die i c = { s with reqs := s.reqs ++ [{
    kind := .point { point := point, born := s.cycle, kind := pointKind i, i := i, cur := c }, path := [arbDie (dieOf c.p) die]
    born := s.cycle, ctx := matchCtx s c.p c.plane c.tag, issuer := c.p, addr := 0, ctag := 64 }] } := by
  rw [askPoint, if_neg hdie, linkPath, if_neg hdie]

end

theorem pointsServeInOrder : PointsServeInOrder := by
  intro s point
  refine ⟨fun die i c hi => ⟨fun hdie => ?_, askPoint_far⟩, fun n k x hk hx => ?_, fun k x => pointFirst_spec⟩
  · rw [askPoint_here hdie, pointArrive_stands hi]
  · intro rest
    have hgo : pointGo point (n + 1) s = if x.kind = 3 then pointGo point n (pointAct x.i x.cur rest)
        else if tgetD s.pointUsed point 0 = s.cycle + 1 ∨ (point = 0 ∧ drawBefore s (pointKey x)) then s
        else pointGo point n (pointAct x.i x.cur { rest with pointUsed := tput s.pointUsed point (s.cycle + 1) }) := by
      simp only [pointGo, hk, Option.bind_some, hx, Option.map_some]
      rfl
    rw [hgo]
    refine ⟨fun hread => if_pos hread, fun hturn hused => ?_, fun hturn hfree hdraw => ?_⟩
    · rw [if_neg hturn, if_pos (.inl hused)]
    · rw [if_neg hturn, if_neg]
      rintro (hused | ⟨hp, hbefore⟩)
      · exact hfree hused
      · exact Bool.false_ne_true ((hdraw hp).symm.trans hbefore)

end Sys2Proof.Proofs
end

section
/-!
PROOF. Groups of colours: SPAWN, CALLOC, RETURN, draws, and the end of a group (16 R331 to R339).
-/
namespace Sys2Proof.Proofs
open Sys2Proof.Machine Sys2Proof.Safety Sys2Proof.Claims

/-! ## SPAWN (16 R333) -/

section
variable {r : RecN} {s : State}

/-- The ports of a SPAWN: the place on port b stands only where its flag asks for it. -/
def spawnPorts (r : RecN) : List Nat := if bit r.hi.toNat 3 then [0, 1] else [0]

variable (hports : hasPorts s.cur (portSet (spawnPorts r) r.ctl) = true)
include hports

theorem spawn_faults (h : spawnBad r = true ∨ spawnRange s r = true) : execSpawn r s = .next (faultCur s s.cur cILLEGAL 0) := by
  have hbad : (spawnBad r || badCtl (spawnPorts r) r.ctl || anyBlock s.cur (portSet (spawnPorts r) r.ctl) || spawnRange s r) = true := by
    rcases h with h | h <;> rw [h]
    · rfl
    · exact Bool.or_true _
  rw [spawnPorts] at hports hbad
  simp only [execSpawn, hports, hbad, Bool.not_true, Bool.false_eq_true, if_false, if_true]

variable (hbad : spawnBad r = false) (hrange : spawnRange s r = false) (hctl : badCtl (spawnPorts r) r.ctl = false)
    (hblock : anyBlock s.cur (portSet (spawnPorts r) r.ctl) = false)
include hbad hrange hctl hblock

/-- A SPAWN with admitted fields asks the colour point, or sends its nulls. -/
theorem spawn_asks : execSpawn r s =
    if anyNull s.cur (portSet (spawnPorts r) r.ctl) || predFalse r.ctl s.cur then .next (if r.ctl.nullpass then spawnNulls s r else s)
    else .next (askPoint s 0 0 (.spawn r) s.cur) := by
  rw [spawnPorts] at *
  simp only [execSpawn, hports, hbad, hrange, hctl, hblock, Bool.not_true, Bool.or_self, Bool.false_eq_true, if_false]

end

theorem spawnQueuesADraw : SpawnQueuesADraw := by
  intro r s c base ctx n lay hports
  refine ⟨spawn_faults hports, fun hbad hrange hctl hblock => ⟨fun hnull hpred => ?_, fun hnone => ?_⟩⟩
  · intro d
    have hasks : exec (.spawn r) s = .next (askPoint s 0 0 (.spawn r) s.cur) := by
      rw [exec_spawn, spawn_asks hports hbad hrange hctl hblock, if_neg]
      rw [show anyNull s.cur (portSet (spawnPorts r) r.ctl) = false from hnull, hpred]
      exact Bool.false_ne_true
    refine ⟨fun hdie => hasks.trans ?_, fun _ => hasks⟩
    rw [askPoint_here hdie]
    rfl
  · have hnulls : exec (.spawn r) s = .next (if r.ctl.nullpass then spawnNulls s r else s) := by
      rw [exec_spawn, spawn_asks hports hbad hrange hctl hblock, if_pos]
      rw [Bool.or_eq_true]
      exact hnone
    rw [hnulls]
    exact ⟨fun hpass => by rw [hpass, if_neg Bool.false_ne_true], fun hpass => by rw [hpass, if_pos rfl]; rfl⟩

/-! ## CALLOC (16 R337) -/

theorem callocGrantsAndReads : CallocGrantsAndReads := by
  intro r s
  refine ⟨fun hfmt hcf => ?_, fun c => ?_⟩
  · have hbad : callocBad r = false := by rw [callocBad, hfmt, hcf]; rfl
    exact ⟨fun h => by rw [exec_callocGrant, execCallocGrant, fireWith_takes h hbad],
      fun h => by rw [exec_callocEntry, execCallocEntry, fireWith_takes h hbad]⟩
  · intro ctx part v k
    refine ⟨fun hnone => ?_, fun g hg => ?_, fun hlo hhi => ?_, fun hout => ?_⟩
    · have hgid : gidOf s (partOf s (matchCtx s c.p c.plane c.tag)) (colourOf c.tag) = none := hnone
      simp only [pointAct, grantServe, hgid]
    · intro packed
      have hgid : gidOf s (partOf s (matchCtx s c.p c.plane c.tag)) (colourOf c.tag) = some g := hg
      have hserve : pointAct (.callocGrant r) c s = if v = 0 ∨ 32 < v ∨ packed = true then faultCur s c cILLEGAL 0
          else emitRes (setGrant s part g (min v (widthLimit s part))) c (formN r) 6 (both (ackVal c.tag (min v (widthLimit s part)))) := by
        simp only [pointAct, grantServe, hgid]
        rfl
      rw [hserve]
      refine ⟨fun h => if_pos h, fun hpos hle hpk => ?_⟩
      rw [if_neg]
      · rfl
      · rintro (h | h | h)
        · exact Nat.ne_of_gt hpos h
        · exact Nat.not_le.2 h hle
        · exact Bool.false_ne_true (hpk.symm.trans h)
    · exact if_neg (fun h => h.elim (Nat.not_lt.2 hlo) (Nat.not_lt.2 hhi))
    · exact if_pos hout

/-! ## RETURN (16 R335) -/

theorem retServe_faults {r : RecN} {c : Cur} {s : State} (h : retWrong s c = true) : retServe r c s = faultCur s c cILLEGAL 0 := if_pos h

theorem retServe_acts {r : RecN} {c : Cur} {s : State} (h : retWrong s c = false) :
    retServe r c s = retAct s c (anyNull c (portSet [0] r.ctl) || predFalse r.ctl c) :=
  if_neg (by rw [h]; exact Bool.false_ne_true)

theorem returnSendsTheValue : ReturnSendsTheValue := by
  intro r s
  refine ⟨fun hbad hctl hports hblock => ?_, fun c => ?_⟩
  · have hret : exec (.ret r) s = if inBlock s ∧ !s.cur.late then .next (holdEff s (.ret r)) else .next (askPoint s 0 0 (.ret r) s.cur) := by
      rw [exec_ret]
      simp only [execRet, hports, hbad, hctl, hblock, Bool.not_true, Bool.or_self, Bool.false_eq_true, if_false]
    rw [hret]
    refine ⟨fun b hb => ?_, fun ha => if_neg (inBlock_act ha)⟩
    rw [if_pos ⟨inBlock_of hb, by rw [hb.2.1]; rfl⟩, holdEff_of hb]
  · intro part k e a
    refine ⟨fun hout => retServe_faults ?_, fun hok => ?_⟩
    · rw [retWrong]
      rcases hout with h | h
      · rw [show (colourAt s (partOf s (matchCtx s c.p c.plane c.tag)) (colourOf c.tag)).gstate = 0 from h]
        rfl
      · rw [show (colourAt s (partOf s (matchCtx s c.p c.plane c.tag)) (colourOf c.tag)).retd = true from h, Bool.or_true]
        rfl
    · intro done
      refine ⟨fun hnone => (retServe_acts hok).trans ?_, fun hdest => ?_⟩
      · have hnone' : (colourAt s (partOf s (matchCtx s c.p c.plane c.tag)) (colourOf c.tag)).rdest = 0xFF00 := hnone
        simp only [retAct, if_pos hnone']
        rfl
      · intro isNull d t
        refine (retServe_acts hok).trans ?_
        have hdest' : ¬ (colourAt s (partOf s (matchCtx s c.p c.plane c.tag)) (colourOf c.tag)).rdest = 0xFF00 := hdest
        simp only [retAct, if_neg hdest']
        rfl

/-! ## Draws (16 R331, R333) -/

section
variable {s : State} {k : Nat} {d : Draw}

theorem drawReady_of (hd : s.draws[k]? = some d) : drawReady s k =
    if (ctxAt s d.ctx).state ≠ 3 ∨ (s.draws.take k).any (fun y => y.ctx == d.ctx) then none
    else (drawColours s d).map (fun cs => (d, cs)) := by
  simp only [drawReady, hd]

theorem drawNow_none (h : drawReady s k = none) : drawNow s k = none := by simp only [drawNow, h]

theorem drawNow_ready {x : Draw × List Nat} (h : drawReady s k = some x) : drawNow s k =
    if tgetD s.pointUsed 0 0 = s.cycle + 1 ∨ drawBefore s (drawKey x.1) ∨
      s.points.any (fun y => y.point == 0 && lexBefore (pointKey y) (drawKey x.1)) then none else some x := by
  simp only [drawNow, h]

theorem drawNow_used (h : tgetD s.pointUsed 0 0 = s.cycle + 1) : drawNow s k = none := by
  cases hx : drawReady s k with
  | none => exact drawNow_none hx
  | some x => rw [drawNow_ready hx, if_pos (.inl h)]

theorem exec_colourDraw_none (h : drawNow s s.sel.k = none) : exec .colourDraw s = .refused .notEnabled := by
  rw [exec_colourDraw]
  simp only [execColourDraw, h]
  rfl

end

theorem drawsOpenGroups : DrawsOpenGroups := by
  intro s d c r cs hd hspawn
  refine ⟨fun hctx => ?_, fun hnone => ?_, fun hused => exec_colourDraw_none (drawNow_used hused),
    fun hctx hfirst hcs hfree hdraw hpoint => ?_⟩
  · refine exec_colourDraw_none (drawNow_none ?_)
    rw [drawReady_of hd, if_pos (.inl hctx)]
  · refine exec_colourDraw_none (drawNow_none ?_)
    rw [drawReady_of hd, hnone, Option.map_none, ite_self]
  · have hready : drawReady s s.sel.k = some (d, cs) := by
      rw [drawReady_of hd, hcs, if_neg, Option.map_some]
      rintro (h | h)
      · exact h hctx
      · exact Bool.false_ne_true (hfirst.symm.trans h)
    have hkey : drawKey d = [d.born, 2, c.p] := by rw [drawKey, hspawn]; rfl
    have hnow : drawNow s s.sel.k = some (d, cs) := by
      rw [drawNow_ready hready, hkey, if_neg]
      rintro (h | h | h)
      · exact hfree h
      · exact Bool.false_ne_true (hdraw.symm.trans h)
      · exact Bool.false_ne_true (hpoint.symm.trans h)
    rw [exec_colourDraw]
    simp only [execColourDraw, hnow, hspawn]

/-- The free colours of a context's range, lowest first. -/
def freeColours (s : State) (d : Draw) : List Nat :=
  ((List.range ((ctxAt s d.ctx).collim + 1 - (ctxAt s d.ctx).colbase)).map (· + (ctxAt s d.ctx).colbase)).filter (colourFree s d.part)

theorem mem_freeColours {s : State} {d : Draw} {k : Nat} : k ∈ freeColours s d ↔
    ((ctxAt s d.ctx).colbase ≤ k ∧ k ≤ (ctxAt s d.ctx).collim) ∧ colourFree s d.part k = true := by
  rw [freeColours, List.mem_filter, List.mem_map]
  refine and_congr_left' ⟨?_, fun h => ⟨k - (ctxAt s d.ctx).colbase, List.mem_range.2 ?_, ?_⟩⟩
  · rintro ⟨i, hi, rfl⟩
    have := List.mem_range.1 hi
    omega
  · omega
  · exact Nat.sub_add_cancel h.1

theorem pairwise_freeColours (s : State) (d : Draw) : (freeColours s d).Pairwise (· < ·) :=
  (List.pairwise_map.2 (List.pairwise_lt_range.imp (fun h => Nat.add_lt_add_right h _))).filter _

theorem drawColours_lowest {s : State} {d : Draw} (h : d.base = none) : drawColours s d =
    if d.n ≤ (freeColours s d).length then some ((freeColours s d).take d.n) else none := by
  simp only [drawColours, h]
  rfl

theorem drawColours_placed {s : State} {d : Draw} {b : Nat} (h : d.base = some b) : drawColours s d =
    if ((List.range d.n).map (fun i => (ctxAt s d.ctx).colbase + b + i)).all (colourFree s d.part) then
      some ((List.range d.n).map (fun i => (ctxAt s d.ctx).colbase + b + i)) else none := by
  simp only [drawColours, h]

/-- In a rising list, what lies below an element of an initial part is in that part. -/
theorem mem_take_of_lt {l : List Nat} (hl : l.Pairwise (· < ·)) {n j k : Nat} (hj : j ∈ l) (hk : k ∈ l.take n) (hlt : j < k) :
    j ∈ l.take n := by
  rw [← List.take_append_drop n l] at hj hl
  rcases List.mem_append.1 hj with h | h
  · exact h
  · exact absurd ((List.pairwise_append.1 hl).2.2 k hk j h) (Nat.not_lt.2 (Nat.le_of_lt hlt))

theorem drawsTakeTheLowestColours : DrawsTakeTheLowestColours := by
  intro s d cs hcs x
  cases hbase : d.base with
  | none =>
    rw [drawColours_lowest hbase] at hcs
    obtain ⟨hn, hcs⟩ := Option.ite_none_right_eq_some.1 hcs
    obtain rfl := Option.some.inj hcs
    have hmem : ∀ k ∈ (freeColours s d).take d.n, k ∈ freeColours s d := fun k hk => List.mem_of_mem_take hk
    refine ⟨?_, fun k hk => (mem_freeColours.1 (hmem k hk)).2, fun _ => ⟨fun k hk => (mem_freeColours.1 (hmem k hk)).1,
      (pairwise_freeColours s d).sublist (List.take_sublist ..), ?_⟩, fun b h => nomatch h⟩
    · rw [List.length_take, Nat.min_eq_left hn]
    · rintro j hlo hhi hfree ⟨k, hk, hlt⟩
      exact mem_take_of_lt (pairwise_freeColours s d) (mem_freeColours.2 ⟨⟨hlo, hhi⟩, hfree⟩) hk hlt
  | some b =>
    rw [drawColours_placed hbase] at hcs
    obtain ⟨hall, hcs⟩ := Option.ite_none_right_eq_some.1 hcs
    obtain rfl := Option.some.inj hcs
    refine ⟨by rw [List.length_map, List.length_range], List.all_eq_true.1 hall, fun h => (nomatch h), ?_⟩
    rintro b' ⟨⟩
    rfl

theorem returnTokensAreDelivered : ReturnTokensAreDelivered := by
  intro s x hx hfirst hup
  rw [exec_returnTokenDelivery]
  simp only [execReturnTokenDelivery, hx, hfirst, hup, Bool.not_true, Bool.false_eq_true, or_self, if_false]

/-! ## The end of a group (16 R336, R339) -/

theorem exec_groupIdle_of {s : State} {c : Nat} {rest : List Nat} (h : groupColours s s.sel.part s.sel.k = c :: rest) :
    exec .groupIdle s = if (colourAt s s.sel.part c).gstate = 1 ∧ (groupAt s s.sel.k).lastIssue + 64 ≤ s.cycle then
      .next (setGstate s s.sel.part s.sel.k 2) else .refused .notEnabled := by
  rw [exec_groupIdle]
  simp only [execGroupIdle, h]
  rfl

/-- The state in which a returned colour has drained: its entries are free, and its group has one colour fewer to wait for. -/
def drained (s : State) (part k : Nat) (e : Colour) : State :=
  let s1 := setColour (freeEntries s e.ctx k) part k { e with drained := true }
  setGroup s1 e.gid { groupAt s1 e.gid with left := (groupAt s1 e.gid).left - 1 }

theorem groupAt_setGroup (s : State) (gid : Nat) (x : GroupRec) : groupAt (setGroup s gid x) gid = x := by
  rw [groupAt, setGroup, tgetD, tget?_tput, Option.getD_some]

/-- A group that no launch drew passes its flags to its spawner's group. -/
theorem retireGroup_spawned {s : State} {part gid : Nat} {g : GroupRec} (hg : groupAt s gid = g) (hl : g.launch = none) :
    ∃ t, retireGroup s part gid = orFlags t part (colourOf g.rtag) g.flags := by
  simp only [retireGroup, hg, hl]
  exact ⟨_, rfl⟩

theorem groupsIdleAndDrain : GroupsIdleAndDrain := by
  intro s part k e
  have hdrain : exec .colourDrain s = if (!e.retd) = true ∨ e.drained = true ∨ e.gstate ≠ 4 ∨ colourBusy s e.ctx k = true then
      .refused .notEnabled
      else .next (if (groupAt (setColour (freeEntries s e.ctx k) part k { e with drained := true }) e.gid).left ≤ 1 then
        retireGroup (drained s part k e) part e.gid else drained s part k e) := exec_colourDrain s
  refine ⟨fun c rest hcs => ⟨fun hrun hidle => ?_, fun hearly => ?_⟩, fun hbusy => ?_, fun hretd hnot hst hfree => ?_⟩
  · rw [exec_groupIdle_of hcs, if_pos ⟨hrun, hidle⟩]
  · rw [exec_groupIdle_of hcs, if_neg (fun h => Nat.not_le.2 hearly h.2)]
  · rw [hdrain, if_pos (.inr (.inr (.inr hbusy)))]
  · intro s1 g s2
    have hgo : exec .colourDrain s = .next (if g.left ≤ 1 then retireGroup s2 part e.gid else s2) := by
      rw [hdrain, if_neg]
      · rfl
      · rw [hretd, hnot, hfree]
        rintro (h | h | h | h)
        · exact Bool.false_ne_true h
        · exact Bool.false_ne_true h
        · exact h hst
        · exact Bool.false_ne_true h
    rw [hgo]
    refine ⟨fun hmore => by rw [if_neg (Nat.not_le.2 hmore)], fun hlast => ⟨by rw [if_pos hlast], fun hl => ?_⟩⟩
    exact retireGroup_spawned (g := { g with left := g.left - 1 }) (groupAt_setGroup ..) hl

/-- Settles O44: groups are drawn, granted, returned and drained. -/
theorem groups : Obligations.Groups :=
  ⟨pointsServeInOrder, spawnQueuesADraw, callocGrantsAndReads, returnSendsTheValue, drawsOpenGroups, drawsTakeTheLowestColours,
    returnTokensAreDelivered, groupsIdleAndDrain⟩

end Sys2Proof.Proofs
end

section
/-!
PROOF. Barriers (17 R344 to R356).
-/
namespace Sys2Proof.Proofs
open Sys2Proof.Machine Sys2Proof.Safety Sys2Proof.Claims

theorem barBad_eq_false {r : RecS} {sub : BitVec 8} (hcf : r.cf = 0) (hobj : bits r.obj.toNat 31 14 = 0) (hsub : r.sub = sub) :
    barBad r sub = false := by
  rw [barBad, hcf, hobj, hsub, bne_self_eq_false]
  rfl

/-- The check of BINIT's word. -/
theorem binit_chk {r : RecS} {c : Cur} (h : binitBad r c = false) : (if binitBad r c then some cILLEGAL else none) = none := by
  rw [h, if_neg Bool.false_ne_true]

/-- The check of BARRIVE's parity. -/
theorem barrive_chk {c : Cur} (h : laneN (portTok c 0).lanes 0 ≤ 1) :
    (if 1 < laneN (portTok c 0).lanes 0 then some cILLEGAL else none) = none := if_neg (Nat.not_lt.2 h)

/-- The fields of BARRIVE, SUB 1, are admitted. -/
theorem barriveTag_fields {r : RecS} {s : State} (hcf : r.cf = 0) (hsub : r.sub = 1) (hlo : bits r.obj.toNat 15 14 = 0)
    (hhi : bits r.obj.toNat 31 19 = 0) (hlev : bits r.obj.toNat 18 16 < (layoutOf s s.cur.p s.cur.plane).length) :
    (r.sub != 1 || r.cf != 0 || bits r.obj.toNat 15 14 != 0 || bits r.obj.toNat 31 19 != 0 ||
      decide ((layoutOf s s.cur.p s.cur.plane).length ≤ bits r.obj.toNat 18 16)) = false := by
  rw [hsub, hcf, hlo, hhi, decide_eq_false (Nat.not_le.2 hlev)]
  rfl

theorem barrierRecordsAreHeld : BarrierRecordsAreHeld := by
  intro r s b hcf hs hp hb
  refine ⟨fun hobj => ?_, fun hsub hlo hhi hlev =>
    (exec_barriveTag r s).trans (bAct_held hs hp (barriveTag_fields hcf hsub hlo hhi hlev) hb rfl)⟩
  have hbad : ∀ {sub : BitVec 8}, r.sub = sub → barBad r sub = false := barBad_eq_false hcf hobj
  exact ⟨fun hsub hword => (exec_binit r s).trans (bAct_held hs hp (hbad hsub) hb (binit_chk hword)),
    fun hsub => (exec_binitFree r s).trans (bAct_held hs hp (hbad hsub) hb rfl),
    fun hsub hle => (exec_barrive r s).trans (bAct_held hs hp (hbad hsub) hb (barrive_chk hle)),
    fun hsub => ⟨(exec_bwait r s).trans (bAct_held hs hp (hbad hsub) hb rfl), (exec_bdrop r s).trans (bAct_held hs hp (hbad hsub) hb rfl),
      (exec_btest r s).trans (bAct_held hs hp (hbad hsub) hb rfl)⟩,
    fun hsub => (exec_btestTicket r s).trans (bAct_held hs hp (hbad hsub) hb rfl)⟩

/-! ## What a barrier point answers -/

section
variable {s : State} {r : RecS} {c : Cur} {member : Bool} {act : State → Nat → Nat → Barrier → State}

theorem withBarrier_free (h : (barrierAt s (barDie r c.p) (barIdx r)).state = 0) :
    withBarrier s r c member act = faultCur s c cILLEGAL 0 := by
  have hcause : barCause s r c member = some cILLEGAL := if_pos h
  simp only [withBarrier, hcause]

section
variable (hst : (barrierAt s (barDie r c.p) (barIdx r)).state ≠ 0)
include hst

theorem withBarrier_foreign (h : (barrierAt s (barDie r c.p) (barIdx r)).ctx ≠ matchCtx s c.p c.plane c.tag) :
    withBarrier s r c member act = faultCur s c cPERMISSION 0 := by
  have hcause : barCause s r c member = some cPERMISSION := (if_neg hst).trans (if_pos h)
  simp only [withBarrier, hcause]

variable (hctx : (barrierAt s (barDie r c.p) (barIdx r)).ctx = matchCtx s c.p c.plane c.tag)
include hctx

theorem withBarrier_outside (h : barMember (barrierAt s (barDie r c.p) (barIdx r)) (barDie r c.p) c.p = false) :
    withBarrier s r c true act = faultCur s c cILLEGAL 0 := by
  have hcause : barCause s r c true = some cILLEGAL :=
    (if_neg hst).trans ((if_neg (fun hn => hn hctx)).trans (if_pos (by rw [h]; rfl)))
  simp only [withBarrier, hcause]

theorem withBarrier_admits (h : (member && !barMember (barrierAt s (barDie r c.p) (barIdx r)) (barDie r c.p) c.p) = false) :
    withBarrier s r c member act = act s (barDie r c.p) (barIdx r) (barrierAt s (barDie r c.p) (barIdx r)) := by
  have hcause : barCause s r c member = none :=
    (if_neg hst).trans ((if_neg (fun hn => hn hctx)).trans (if_neg (by rw [h]; exact Bool.false_ne_true)))
  simp only [withBarrier, hcause]

end
end

/-! ## BINIT (17 R352) -/

theorem binitServe_free {r : RecS} {c : Cur} {s : State} (h : (barrierAt s (barDie r c.p) (barIdx r)).state = 0) :
    binitServe r c s = emitRes (setBarrier s (barDie r c.p) (barIdx r)
      { state := 1, scope := bits (laneN (portTok c 0).lanes 0) 26 24, ctx := matchCtx s c.p c.plane c.tag
        count := laneN (portTok c 0).lanes 0 % 65536, bwatch := bits (laneN (portTok c 0).lanes 0) 23 16, anchor := c.p })
      c (formS r) 6 (both (ackVal c.tag 0)) := if_neg (fun hn => hn h)

theorem binitServe_used {r : RecS} {c : Cur} {s : State} (h : (barrierAt s (barDie r c.p) (barIdx r)).state ≠ 0) :
    binitServe r c s = faultCur s c cILLEGAL 0 := if_pos h

theorem bfreeServe_free {r : RecS} {c : Cur} {s : State} (h : (barrierAt s (barDie r c.p) (barIdx r)).state = 0) :
    bfreeServe r c s = faultCur s c cILLEGAL 0 := withBarrier_free h

theorem bfreeServe_foreign {r : RecS} {c : Cur} {s : State} (hst : (barrierAt s (barDie r c.p) (barIdx r)).state ≠ 0)
    (hctx : (barrierAt s (barDie r c.p) (barIdx r)).ctx ≠ matchCtx s c.p c.plane c.tag) :
    bfreeServe r c s = faultCur s c cPERMISSION 0 := withBarrier_foreign hst hctx

theorem barriersAreMadeAndFreed : BarriersAreMadeAndFreed := by
  intro r s
  refine ⟨fun hcf hobj hs hp ha => ?_, fun c => ?_⟩
  · intro c die
    have hbad : ∀ {sub : BitVec 8}, r.sub = sub → barBad r sub = false := barBad_eq_false hcf hobj
    exact ⟨fun hsub hword => (exec_binit r s).trans (bAct_now hs hp (hbad hsub) ha (binit_chk hword)),
      fun hsub hword => (exec_binit r s).trans (bAct_fault hs hp (hbad hsub) (if_pos hword)),
      fun hsub => (exec_binitFree r s).trans (bAct_now hs hp (hbad hsub) ha rfl)⟩
  · intro v die b ctx ack
    refine ⟨binitServe_free, binitServe_used, bfreeServe_free, bfreeServe_foreign, fun hst hctx => ?_⟩
    have hfree : pointAct (.binitFree r) c s = if b.state = 2 ∨ (b.state = 1 ∧ b.arr = 0 ∧ b.early = 0) then
        ack (freeWaiters (setBarrier s die (barIdx r) {}) die (barIdx r)) else faultCur s c cILLEGAL 0 := by
      rw [pointAct, bfreeServe, withBarrier_admits hst hctx rfl]
    rw [hfree]
    refine ⟨fun h => if_pos h, fun h => if_neg ?_⟩
    omega

/-! ## BARRIVE (17 R346 to R348) -/

section
variable {b : Barrier} {e : Bool}

theorem barArrive_old (hst : b.state = 2) (he : b.phase = e) : barArrive b e = none := by
  rw [barArrive, if_pos hst, he, if_pos (beq_self_eq_true e)]

theorem barArrive_opens (hst : b.state = 2) (he : b.phase ≠ e) : barArrive b e =
    some ({ b with phase := e, arr := 1, state := 1, watch := 0, running := true }, b.nph) := by
  rw [barArrive, if_pos hst, if_neg (fun h => he (eq_of_beq h).symm)]

theorem barArrive_counts (hst : b.state = 1) (he : b.phase = e) (hrun : b.running = true) :
    barArrive b e = some ({ b with arr := b.arr + 1 }, b.nph) := by
  rw [barArrive, if_neg (by rw [hst]; decide), he, if_pos (beq_self_eq_true e), if_pos (.inl hrun)]

theorem barArrive_over (hst : b.state ≠ 2) (he : b.phase ≠ e) (hfull : b.early = b.count) : barArrive b e = none := by
  rw [barArrive, if_neg hst, if_neg (fun h => he (eq_of_beq h).symm), if_pos hfull]

theorem barArrive_early (hst : b.state = 1) (he : b.phase ≠ e) (hroom : b.early < b.count) :
    barArrive b e = some ({ b with early := b.early + 1 }, (b.nph + 1) % 2 ^ 32) := by
  rw [barArrive, if_neg (by rw [hst]; decide), if_neg (fun h => he (eq_of_beq h).symm), if_neg (Nat.ne_of_lt hroom)]

end

section
variable {s : State} {die idx : Nat} {b : Barrier}

theorem barSettle_short (h : b.arr < b.count) : barSettle s die idx b = setBarrier s die idx b := if_neg (Nat.not_le.2 h)

theorem barSettle_full (h : b.count ≤ b.arr) : barSettle s die idx b = barNotify (setBarrier s die idx (barComplete 2 b)) die idx :=
  if_pos h

/-- A phase with no early arrivals completes. -/
theorem barComplete_rests {n : Nat} (h : b.early = 0) :
    barComplete (n + 1) b = { b with nph := (b.nph + 1) % 2 ^ 32, state := 2, running := false } := by
  simp only [barComplete, h, if_true]

/-- The early arrivals, fewer than the count, open the next phase. -/
theorem barComplete_opens {n : Nat} (h : b.early ≠ 0) (hlt : b.early < b.count) : barComplete (n + 1) b =
    { b with nph := (b.nph + 1) % 2 ^ 32, phase := !b.phase, arr := b.early, early := 0, state := 1, watch := 0, running := true } := by
  simp only [barComplete, if_neg h, if_neg (Nat.not_le.2 hlt)]

/-- The last arrival of a phase, with none early. -/
theorem barComplete_last_rests (hlast : b.arr + 1 = b.count) (h : b.early = 0) : barComplete 2 { b with arr := b.arr + 1 } =
    { b with arr := b.count, nph := (b.nph + 1) % 2 ^ 32, state := 2, running := false } :=
  (barComplete_rests (b := { b with arr := b.arr + 1 }) h).trans (by rw [hlast])

/-- The last arrival of a phase, with early ones. -/
theorem barComplete_last_opens (hst : b.state = 1) (hrun : b.running = true) (h : b.early ≠ 0) (hlt : b.early < b.count) :
    barComplete 2 { b with arr := b.arr + 1 } =
      { b with nph := (b.nph + 1) % 2 ^ 32, phase := !b.phase, arr := b.early, early := 0, watch := 0 } :=
  (barComplete_opens (b := { b with arr := b.arr + 1 }) h hlt).trans (by rw [hst, hrun])

end

section
variable {s : State} {r : RecS} {c : Cur} {e : Bool} {b : Barrier} (hb : barrierAt s (barDie r c.p) (barIdx r) = b)
    (hst : b.state ≠ 0) (hctx : b.ctx = matchCtx s c.p c.plane c.tag) (hmem : barMember b (barDie r c.p) c.p = true)
include hb hst hctx hmem

theorem arriveAct_overrun (h : barArrive b e = none) :
    arriveAct s r c e = faultCur s c cOVERRUN (4096 * barDie r c.p + barIdx r) := by
  subst hb
  rw [arriveAct, withBarrier_admits hst hctx (by rw [hmem]; rfl)]
  simp only [h]

theorem arriveAct_takes {b' : Barrier} {n : Nat} (h : barArrive b e = some (b', n)) (h' : b'.state = 1) : arriveAct s r c e =
    barSettle (emitRes s c (formS r) 6 (both (ackVal c.tag n))) (barDie r c.p) (barIdx r) b' := by
  subst hb
  rw [arriveAct, withBarrier_admits hst hctx (by rw [hmem]; rfl)]
  simp only [h]
  exact if_neg (by rw [h']; decide)

end

/-- The parity that an arrival names. -/
theorem parity_of_b2n {n : Nat} {e : Bool} (h : n = b2n e) : (n == 1) = e := by
  rw [h]
  cases e with
  | false => rfl
  | true => rfl

theorem pointAct_arrival {r : RecS} {s : State} {c : Cur} {e : Bool} {i : Instr}
    (h : (i = .barrive r ∧ laneN (portTok c 0).lanes 0 = b2n e) ∨
      (i = .barriveTag r ∧ fld (layoutOf s c.p c.plane) c.tag (bits r.obj.toNat 18 16) % 2 = b2n e)) :
    pointAct i c s = arriveAct s r c e := by
  rcases h with ⟨rfl, h⟩ | ⟨rfl, h⟩
  · exact congrArg (arriveAct s r c) (parity_of_b2n h)
  · exact congrArg (arriveAct s r c) (parity_of_b2n h)

theorem arrivalsCompletePhases : ArrivalsCompletePhases := by
  intro r s
  refine ⟨fun hcf hs hp ha => ⟨fun hsub hobj hle =>
    (exec_barrive r s).trans (bAct_now hs hp (barBad_eq_false hcf hobj hsub) ha (barrive_chk hle)),
    fun hsub hlo hhi hlev => (exec_barriveTag r s).trans (bAct_now hs hp (barriveTag_fields hcf hsub hlo hhi hlev) ha rfl)⟩, fun c e i hi => ?_⟩
  intro die idx b ticket
  rw [pointAct_arrival hi]
  refine ⟨withBarrier_free, withBarrier_foreign, fun hst hctx => ⟨withBarrier_outside hst hctx, fun hmem => ?_⟩⟩
  have hover := arriveAct_overrun (e := e) (b := b) rfl hst hctx hmem
  have htake : ∀ {b' n}, barArrive b e = some (b', n) → b'.state = 1 → arriveAct s r c e = barSettle (ticket n) die idx b' :=
    arriveAct_takes (b := b) rfl hst hctx hmem
  refine ⟨fun h2 he => hover (barArrive_old h2 he), fun h2 he hfull => hover (barArrive_over h2 he hfull), fun h2 he hmany => ?_,
    fun h1 he hrun hless => ?_, fun h1 he hrun hlast hnone => ?_, fun h1 he hrun hlast hsome hfew => ?_, fun h1 he hroom hless => ?_⟩
  · rw [htake (barArrive_opens h2 he) rfl, barSettle_short hmany]
  · rw [htake (barArrive_counts h1 he hrun) h1, barSettle_short hless]
  · rw [htake (barArrive_counts h1 he hrun) h1, barSettle_full (Nat.le_of_eq hlast.symm), barComplete_last_rests hlast hnone]
  · rw [htake (barArrive_counts h1 he hrun) h1, barSettle_full (Nat.le_of_eq hlast.symm), 
      barComplete_last_opens h1 hrun (Nat.ne_of_gt hsome) hfew]
  · exact (htake (barArrive_early h1 he hroom) h1).trans (barSettle_short hless)

/-- Settles O45: barriers are made, arrived at, completed and freed. -/
theorem barriers : Obligations.Barriers := ⟨barrierRecordsAreHeld, barriersAreMadeAndFreed, arrivalsCompletePhases⟩

/-! ## BWAIT, BDROP, BTEST (17 R353 to R356) -/

theorem phaseDone_iff {b : Barrier} {t : Nat} : phaseDone b t = true ↔
    1 ≤ (b.nph + 2 ^ 32 - t % 2 ^ 32) % 2 ^ 32 ∧ (b.nph + 2 ^ 32 - t % 2 ^ 32) % 2 ^ 32 < 2 ^ 31 := by
  rw [phaseDone, Bool.and_eq_true, decide_eq_true_eq, decide_eq_true_eq]

theorem barriersAreWaitedFor : BarriersAreWaitedFor := by
  intro r s
  refine ⟨fun hcf hobj hs hp ha => ?_, fun c => ?_⟩
  · intro die asks
    have hbad : ∀ {sub : BitVec 8}, r.sub = sub → barBad r sub = false := barBad_eq_false hcf hobj
    refine ⟨fun hsub => ⟨fun hfirst => ?_, fun hagain => ?_,
      (exec_bdrop r s).trans (bAct_now hs hp (hbad hsub) ha rfl), (exec_btest r s).trans (bAct_now hs hp (hbad hsub) ha rfl)⟩,
      fun hsub => (exec_btestTicket r s).trans (bAct_now hs hp (hbad hsub) ha rfl)⟩
    · exact (exec_bwait r s).trans ((bAct_now hs hp (hbad hsub) ha rfl).trans (congrArg _ (if_neg hfirst)))
    · exact (exec_bwait r s).trans ((bAct_now hs hp (hbad hsub) ha rfl).trans (congrArg _ (if_pos hagain)))
  · intro die idx b v complete hst hctx
    have hdone : complete ↔ phaseDone b v = true := phaseDone_iff.symm
    have hread : ∀ {act : State → Nat → Nat → Barrier → State}, withBarrier s r c false act = act s die idx b :=
      withBarrier_admits hst hctx rfl
    have hticket : ∀ {d : Bool}, phaseDone b v = d →
        pointAct (.btestTicket r) c s = emitRes s c (formS r) 6 { both (passA c) with cond := d } := by
      rintro d rfl
      rw [pointAct, ticketServe, hread]
    have hwait : pointAct (.bwait r) c s = if phaseDone b v then emitRes s c (formS r) 6 (both (passA c)) else waitOn s c (.barrier die idx) := by
      rw [pointAct, bwaitServe, hread]
    refine ⟨fun h => hwait.trans (if_pos (hdone.1 h)), fun h => hwait.trans (if_neg (mt hdone.2 h)), fun hmem => ?_,
      by rw [pointAct, btestServe, hread]; rfl,
      fun h => hticket (hdone.1 h), fun h => hticket (Bool.eq_false_iff.2 (mt hdone.2 h))⟩
    have hdrop : ∀ {act : State → Nat → Nat → Barrier → State}, withBarrier s r c true act = act s die idx b :=
      withBarrier_admits hst hctx (by rw [show barMember (barrierAt s (barDie r c.p) (barIdx r)) (barDie r c.p) c.p = true from hmem]; rfl)
    refine ⟨fun h => by rw [pointAct, bdropServe, hdrop]; exact if_pos h, fun hpos hlt hearly => ?_⟩
    intro s1
    have hgo : pointAct (.bdrop r) c s = if b.state = 2 then setBarrier s1 die idx { b with count := b.count - v }
        else barSettle s1 die idx { b with count := b.count - v } := by
      rw [pointAct, bdropServe, hdrop]
      refine if_neg ?_
      omega
    rw [hgo]
    refine ⟨fun h => ?_, fun hst2 hfull => by rw [if_neg hst2]; exact barSettle_full hfull⟩
    rcases h with h | h
    · rw [if_pos h]
    · exact (if_congr Iff.rfl rfl (barSettle_short h)).trans (ite_self _)

theorem barriersStarveAndNotify : BarriersStarveAndNotify := by
  intro s die idx b
  have hstarve : exec .barrierWatchExpiry s = if b.state ≠ 1 ∨ b.bwatch = 0 ∨ b.watch < b.bwatch * 1024 then .refused .notEnabled
      else .next (post (setBarrier s die idx { b with state := 3 })
        { cause := cSTARVED, addr := 4096 * die + idx, site := 240, panel := b.anchor, ctx := b.ctx, outer := true }) :=
    exec_barrierWatchExpiry s
  refine ⟨fun h => hstarve.trans (if_pos (.inr h)), fun h1 hw hdue => hstarve.trans (if_neg ?_), fun x hx => ?_⟩
  · omega
  · rw [exec_barrierNotice]
    simp only [execBarrierNotice, hx]
    rfl

/-- Settles O46: barriers are waited for, tested and dropped, starve, and notify. -/
theorem barrierWaits : Obligations.BarrierWaits := ⟨barriersAreWaitedFor, barriersStarveAndNotify⟩

end Sys2Proof.Proofs
end

section
/-!
PROOF. Queues and the clicker (14 R302 to R316).
-/
namespace Sys2Proof.Proofs
open Sys2Proof.Machine Sys2Proof.Safety Sys2Proof.Claims

/-! ## Control lines (14 R302, R305, R315) -/

section
variable {s : State} {ok : Nat → Bool}

theorem lineEvent_unreached (h : reachesWindow s s.sel.fn s.sel.q = false) : lineEvent s ok = .refused .notEnabled :=
  if_pos (.inl (by rw [h]; rfl))

/-- A whole control line of a command that is the event's own acts on the queue. -/
theorem lineEvent_reaches (h : reachesWindow s s.sel.fn s.sel.q = true) (hq : s.sel.q < 256) (hl : s.sel.line.length = 8)
    (hok : ok (lineCmd s.sel.line) = true) : lineEvent s ok = .next (controlLine s s.sel.fn s.sel.q s.sel.line) := by
  refine if_neg ?_
  rw [h, hok]
  rintro (h | h | h | h)
  · exact Bool.false_ne_true h
  · exact Nat.not_le.2 hq h
  · exact h hl
  · exact Bool.false_ne_true h

end

section
variable {s : State} {fn q : Nat} {ws : List Word64}

theorem controlLine_config (h : lineCmd ws = 1) : controlLine s fn q ws = doConfig s fn q ws := by
  simp only [controlLine, h]

theorem controlLine_start (h : lineCmd ws = 2) : controlLine s fn q ws = doStart s q := by
  simp only [controlLine, h]

theorem controlLine_stop (h : lineCmd ws = 3) : controlLine s fn q ws = doStop s q := by
  simp only [controlLine, h]

theorem controlLine_reset (h : lineCmd ws = 4) : controlLine s fn q ws = doReset s q := by
  simp only [controlLine, h]

theorem controlLine_clro (h : lineCmd ws = 5) : controlLine s fn q ws = doClro s q := by
  simp only [controlLine, h]

theorem controlLine_other (h : lineCmd ws = 0 ∨ 5 < lineCmd ws) : controlLine s fn q ws = countBad s q := by
  unfold controlLine
  split
  case h_6 => rfl
  all_goals omega

theorem doConfig_taken (hst : (queueAt s q).state = 0 ∨ ((queueAt s q).state = 1 ∧ (queueAt s q).recs = []))
    (hok : configBad s fn ws = false) : doConfig s fn q ws = setQueue s q
      { state := 1, lsz := bits (ws.getD 0 0).toNat 59 56, ring := lineAddr ws 0, cpl := lineAddr ws 1, part := linePart fn ws
        log := lineAddr ws 2, llsz := bits (ws.getD 3 0).toNat 47 40, msiv := bits (ws.getD 3 0).toNat 63 48 } :=
  if_pos ⟨hst.imp id (fun h => ⟨h.1, List.isEmpty_iff.2 h.2⟩), by rw [hok]; rfl⟩

theorem doConfig_counted (h : ((queueAt s q).state ≠ 0 ∧ ¬ ((queueAt s q).state = 1 ∧ (queueAt s q).recs = [])) ∨ configBad s fn ws = true) :
    doConfig s fn q ws = countBad s q := by
  refine if_neg ?_
  rintro ⟨hst, hok⟩
  rcases h with ⟨h0, h1⟩ | hbad
  · exact hst.elim h0 (fun h => h1 ⟨h.1, List.isEmpty_iff.1 h.2⟩)
  · rw [hbad] at hok
    exact Bool.false_ne_true hok

theorem doStart_starts (hst : (queueAt s q).state = 1 ∨ (queueAt s q).state = 3) (hr : (queueAt s q).resetting = false) :
    doStart s q = setQueue s q { queueAt s q with state := 2 } := if_pos ⟨hst, by rw [hr]; rfl⟩

theorem doStart_counted (hst : (queueAt s q).state = 0 ∨ (queueAt s q).state = 2) : doStart s q = countBad s q := by
  refine if_neg ?_
  rintro ⟨h, -⟩
  omega

end

/-- A queue that stops rests once none of its launched records runs. -/
theorem queueRest_stopping {x : Queue} (hr : x.resetting = false) :
    queueRest { x with state := 3 } = { x with state := if x.running = [] then 1 else 3 } := by
  by_cases h : x.running = []
  · rw [queueRest, if_pos (List.isEmpty_iff.2 h), if_neg (by rw [hr]; exact Bool.false_ne_true), if_pos rfl, if_pos h]
  · rw [queueRest, if_neg (mt List.isEmpty_iff.1 h), if_neg h]

/-- A queue that is reset is FREE once none of its launched records runs. -/
theorem queueRest_resetting {x : Queue} : queueRest { x with state := 3, resetting := true, recs := [] } =
    if x.running = [] then { x with state := 0, resetting := false, recs := [] }
    else { x with state := 3, resetting := true, recs := [] } := by
  by_cases h : x.running = []
  · rw [queueRest, if_pos (List.isEmpty_iff.2 h), if_pos rfl, if_pos h]
  · rw [queueRest, if_neg (mt List.isEmpty_iff.1 h), if_neg h]

/-! ## Appends (14 R303) -/

section
variable {s : State} {q : Nat} {ws : List Word64}

theorem queueAppend_free (h : (queueAt s q).state = 0) : queueAppend s q ws = (countBad s q, 2, 0) := if_pos h

theorem qFree_of_ne {x : Queue} (h : x.state ≠ 0) : qFree x = 2 ^ x.lsz - x.recs.length := if_neg h

theorem queueAppend_full (h : (queueAt s q).state ≠ 0) (hfull : 2 ^ (queueAt s q).lsz ≤ (queueAt s q).recs.length) :
    queueAppend s q ws = (setQueue s q { queueAt s q with drops := sat32 ((queueAt s q).drops + 1), overflow := true }, 1, 0) :=
  (if_neg h).trans (if_pos (by rw [qFree_of_ne h]; exact Nat.sub_eq_zero_of_le hfull))

/-- The state after a record was appended under a sequence number. -/
def appended (s : State) (q : Nat) (ws : List Word64) (seq : Nat) : State :=
  let s1 := physStore s noCtx (recSlot (queueAt s q) seq) (wordBytes ((List.range 8).map (fun k => ws.getD k 0)))
  wakeAll (setQueue s1 q { queueAt s1 q with appseq := seq, recs := (queueAt s q).recs ++ [seq] }) (fun w => w == .queue q)

theorem queueAppend_room (h : (queueAt s q).state ≠ 0) (hroom : (queueAt s q).recs.length < 2 ^ (queueAt s q).lsz) :
    queueAppend s q ws = (appended s q ws (((queueAt s q).appseq + 1) % 2 ^ 32), 0, ((queueAt s q).appseq + 1) % 2 ^ 32) :=
  (if_neg h).trans (if_neg (by rw [qFree_of_ne h]; exact Nat.sub_ne_zero_of_lt hroom))

end

theorem execHostAppend_reaches {s : State} (h : reachesWindow s s.sel.fn s.sel.q = true) (hq : s.sel.q < 256) :
    execHostAppend s = if s.sel.line.length = 8 then .next (toPoint s s.sel.q (.line s.sel.fn s.sel.line)) else .next (countBad s s.sel.q) := by
  refine if_neg ?_
  rw [h]
  rintro (h | h)
  · exact Bool.false_ne_true h
  · exact Nat.not_le.2 hq h

theorem hostLinesMoveQueues : HostLinesMoveQueues := by
  intro s hq q ws fn x cmd counted
  refine ⟨fun h => ⟨(exec_queueConfig s).trans (lineEvent_unreached h), (exec_hostAppend s).trans (if_pos (.inl (by rw [h]; rfl)))⟩,
    fun h hl => ?_, fun h hl => ?_, fun h hl => ?_, fun born => ?_⟩
  · have hline : ∀ {i : Instr} {ok : Nat → Bool} {u : State}, exec i s = lineEvent s ok → ok cmd = true → controlLine s fn q ws = u →
        exec i s = .next u := fun hi hok hu => hi.trans ((lineEvent_reaches h hq hl hok).trans (congrArg _ hu))
    refine ⟨fun hc hbad => ?_, fun hc hst hok => ?_, fun hc hst hr => ?_, fun hc hst => ?_, fun hc hst hr => ?_, fun hc hst => ?_,
      fun hc hst => ?_, fun hc hst => ?_, fun hc => ?_, fun hc => ?_⟩
    · exact hline (exec_queueConfig s) (beq_iff_eq.2 hc) ((controlLine_config hc).trans (doConfig_counted hbad))
    · exact hline (exec_queueConfig s) (beq_iff_eq.2 hc) ((controlLine_config hc).trans (doConfig_taken hst hok))
    · exact hline (exec_queueStart s) (beq_iff_eq.2 hc) ((controlLine_start hc).trans (doStart_starts hst hr))
    · exact hline (exec_queueStart s) (beq_iff_eq.2 hc) ((controlLine_start hc).trans (doStart_counted hst))
    · refine hline (exec_queueStop s) (beq_iff_eq.2 hc) ((controlLine_stop hc).trans ((if_pos hst).trans ?_))
      rw [queueRest_stopping hr]
    · exact hline (exec_queueStop s) (beq_iff_eq.2 hc) ((controlLine_stop hc).trans (if_neg hst))
    · refine hline (exec_queueReset s) (beq_iff_eq.2 hc) ((controlLine_reset hc).trans ((if_pos hst).trans ?_))
      rw [queueRest_resetting]
    · exact hline (exec_queueReset s) (beq_iff_eq.2 hc) ((controlLine_reset hc).trans (if_neg (fun hn => hn hst)))
    · exact hline (exec_queueClro s) (beq_iff_eq.2 hc) (controlLine_clro hc)
    · refine hline (exec_controlLineRejected s) ?_ (controlLine_other hc)
      rw [Bool.or_eq_true, beq_iff_eq, decide_eq_true_eq]
      exact hc
  · exact (exec_hostAppend s).trans <| (execHostAppend_reaches h hq).trans (if_neg hl)
  · exact (exec_hostAppend s).trans <| (execHostAppend_reaches h hq).trans (if_pos hl)
  · exact ⟨fun h0 => congrArg Prod.fst (queueAppend_free h0), fun h0 hfull => congrArg Prod.fst (queueAppend_full h0 hfull),
      fun h0 hroom => congrArg Prod.fst (queueAppend_room h0 hroom)⟩

/-! ## Queue records (14 R312, R316) -/

theorem queueBad_eq_false {r : RecS} {sub : BitVec 8} (hcf : r.cf = 0) (hobj : bits r.obj.toNat 31 8 = 0) (hsub : r.sub = sub) :
    queueBad r sub = false := by
  rw [queueBad, hcf, hobj, hsub, bne_self_eq_false]
  rfl

theorem queueForeign_iff {s : State} {c : Cur} {q : Nat} : queueForeign s c q = true ↔
    (queueAt s q).state ≠ 0 ∧ (queueAt s q).part ≠ partOf s (matchCtx s c.p c.plane c.tag) := by
  rw [queueForeign, Bool.and_eq_true, bne_iff_ne, bne_iff_ne]

section
variable {s : State} {r : RecS} {i : Instr} {sub : BitVec 8} {ty : BitVec 4} (hs : Supplied s r.ctl [0]) (hp : Clean s)
    (hbad : queueBad r sub = false)
include hs hp hbad

theorem queueFire_foreign (h : queueForeign s s.cur (objQueue r) = true) : queueFire s r i sub ty = .next (faultCur s s.cur cPERMISSION 0) := by
  rw [queueFire, sFire_supplied hs hbad (.inr hp)]
  exact congrArg _ (if_pos h)

theorem queueFire_reaches (h : queueForeign s s.cur (objQueue r) = false) :
    queueFire s r i sub ty = .next (toPoint s (objQueue r) (.inst { i := i, cur := s.cur })) := by
  rw [queueFire, sFire_supplied hs hbad (.inr hp)]
  exact congrArg _ (if_neg (by rw [h]; exact Bool.false_ne_true))

end

/-! ### QTAKE -/

section
variable {r : RecS} {s : State} {c : Cur} {wait : Bool}

theorem takeAct_free (h : (queueAt s (objQueue r)).state = 0) : takeAct r wait s c = takeNone s c r 2 := if_pos h

theorem takeAct_running (h : 2 ≤ (queueAt s (objQueue r)).state) : takeAct r wait s c = takeNone s c r 4 :=
  (if_neg (by omega)).trans (if_pos (by omega))

section
variable (h : (queueAt s (objQueue r)).state = 1)
include h

theorem takeAct_stopped_empty (hrecs : (queueAt s (objQueue r)).recs = []) :
    takeAct r wait s c = if wait then waitOn s c (.queue (objQueue r)) else takeNone s c r 3 := by
  have hhead : headOf s (objQueue r) = none := by simp only [headOf, hrecs]
  rw [takeAct]
  simp only [hhead]
  exact (if_neg (by omega)).trans (if_neg (fun hn => hn h))

theorem takeAct_stopped {seq : Nat} {rest : List Nat} (hrecs : (queueAt s (objQueue r)).recs = seq :: rest) : takeAct r wait s c =
    emitRes (setQueue s (objQueue r) (countSeq { queueAt s (objQueue r) with recs := rest } seq)) c (formS r) 6
      { v0 := some { tag := c.tag, ty := 6, lanes := wordsLanes ((ringWords s (objQueue r) seq).map (·.toNat)) }
        v1 := some (statusVal c 0 seq) } := by
  have hhead : headOf s (objQueue r) = some (seq, ringWords s (objQueue r) seq) := by simp only [headOf, hrecs]
  rw [takeAct]
  simp only [hhead, hrecs, List.drop_succ_cons, List.drop_zero]
  exact (if_neg (by omega)).trans (if_neg (fun hn => hn h))

end
end

theorem queueRecordsAct : QueueRecordsAct := by
  intro r s q x
  refine ⟨fun hcf hobj hs hp => ?_, fun c born => ?_⟩
  · intro c ctx foreign deny there
    have hbad : ∀ {sub : BitVec 8}, r.sub = sub → queueBad r sub = false := queueBad_eq_false hcf hobj
    refine ⟨fun hf => ?_, fun hown => ?_⟩
    · have hforeign : queueForeign s s.cur (objQueue r) = true := queueForeign_iff.2 hf
      exact ⟨fun hsub => ⟨(exec_qput r s).trans (queueFire_foreign hs hp (hbad hsub) hforeign),
        (exec_qtake r s).trans (queueFire_foreign hs hp (hbad hsub) hforeign),
        (exec_qstat r s).trans (queueFire_foreign hs hp (hbad hsub) hforeign)⟩,
        fun hsub => (exec_qtakePoll r s).trans (queueFire_foreign hs hp (hbad hsub) hforeign)⟩
    · have hforeign : queueForeign s s.cur (objQueue r) = false := Bool.eq_false_iff.2 (mt queueForeign_iff.1 hown)
      refine ⟨fun hsub => ⟨(exec_qput r s).trans (queueFire_reaches hs hp (hbad hsub) hforeign),
        (exec_qtake r s).trans (queueFire_reaches hs hp (hbad hsub) hforeign),
        (exec_qstat r s).trans (queueFire_reaches hs hp (hbad hsub) hforeign)⟩,
        fun hsub => (exec_qtakePoll r s).trans (queueFire_reaches hs hp (hbad hsub) hforeign), fun hsub hsite => ?_⟩
      have hat : AtScribe s r := ⟨hsite, hs, hp⟩
      refine ⟨fun hpriv => ?_, fun hpriv hst => ?_, fun hpriv hst hlog => ?_⟩
      · refine (exec_qmark r s).trans (sAct_fault hat (hbad hsub) (if_pos ?_))
        rw [show privOf s (matchCtx s s.cur.p s.cur.plane s.cur.tag) = 0 from hpriv, Bool.or_eq_true]
        exact .inr rfl
      all_goals
        have hmay : ¬ (queueForeign s s.cur (objQueue r) || privOf s (matchCtx s s.cur.p s.cur.plane s.cur.tag) == 0) = true := by
          rw [hforeign, Bool.false_or, beq_iff_eq]
          exact hpriv
      · exact (exec_qmark r s).trans (sAct_fault hat (hbad hsub) ((if_neg hmay).trans (if_pos hst)))
      · have hchk : ¬ ((queueAt s (objQueue r)).state = 0 ∨ (queueAt s (objQueue r)).log = 0) := fun h => h.elim hst hlog
        exact ⟨fun b hb => (exec_qmark r s).trans (sAct_held hat (hbad hsub) hb ((if_neg hmay).trans (if_neg hchk))),
          fun hlate => (exec_qmark r s).trans (sAct_late hat (hbad hsub) hlate ((if_neg hmay).trans (if_neg hchk)))⟩
  · intro status nothing taken
    refine ⟨rfl, fun wait => ?_, rfl, rfl⟩
    intro i
    have htake : taken i = takeAct r wait s c := by
      cases wait with
      | false => rfl
      | true => rfl
    rw [htake]
    exact ⟨takeAct_free, takeAct_running, takeAct_stopped_empty, fun seq rest hst hrecs => takeAct_stopped hst hrecs⟩

/-- Settles O47: the host's lines move queues, and queue records act on them. -/
theorem queues : Obligations.Queues := ⟨hostLinesMoveQueues, queueRecordsAct⟩

/-! ## The clicker (14 R306 to R313) -/

theorem headsAreRefusedOrPlaced : HeadsAreRefusedOrPlaced := by
  intro s d s0 refusedHead hs prio t found hd hturn hfree
  have hgo : ¬ (3 ≤ s.sel.die ∨ s.cycle % 3 ≠ s.sel.die ∨ s.lastPlace = s.cycle + 1) := by
    rintro (h | h | h)
    · exact Nat.not_le.2 hd h
    · exact h hturn
    · exact hfree h
  rw [exec_launchPlacement, execLaunchPlacement]
  simp only [if_neg hgo]
  refine ⟨fun q seq ws rest hbad => ?_, fun hnone => ?_⟩
  · split
    next q' seq' ws' rest' heq =>
      obtain ⟨⟨⟩, -⟩ := List.cons.inj (heq.symm.trans hbad)
      rfl
    next heq => exact absurd (heq.symm.trans hbad) (List.cons_ne_nil _ _).symm
  · split
    next heq => exact absurd (heq.symm.trans hnone) (List.cons_ne_nil _ _)
    next =>
      refine ⟨fun hf => ?_, fun s1 q seq ws k xs hf => ?_, fun s1 q seq ws hf => ?_⟩
      · split
        next => rfl
        next heq => exact absurd (heq.symm.trans hf) (Option.some_ne_none _)
        next heq => exact absurd (heq.symm.trans hf) (Option.some_ne_none _)
      · split
        next heq => exact absurd (heq.symm.trans hf) (Option.some_ne_none _).symm
        next heq =>
          obtain ⟨⟩ := Option.some.inj (heq.symm.trans hf)
          rfl
        next hother heq =>
          obtain ⟨⟩ := Option.some.inj (heq.symm.trans hf)
          exact absurd rfl (hother _ _)
      · split
        next heq => exact absurd (heq.symm.trans hf) (Option.some_ne_none _).symm
        next heq => exact nomatch Option.some.inj (heq.symm.trans hf)
        next heq =>
          obtain ⟨⟩ := Option.some.inj (heq.symm.trans hf)
          rfl

theorem launchesComplete : LaunchesComplete := by
  intro s x hx
  have hgo : exec .launchCompletion s = if x.stage ≠ 3 then .refused .notEnabled
      else .next (completeRec (iter { s with launches := dropAt s.launches s.sel.k } x.panels.length (fun t i =>
        if (planeOf s (x.panels.getD i 0) (x.planes.getD i 0)).ctx == x.ctx && x.status != 3 then
          planeDrain t (x.panels.getD i 0) (x.planes.getD i 0) else t))
        x.q x.seq (bit (x.words.getD 1 0).toNat 36) x.status x.flags (s.cycle - x.born)) := by
    rw [exec_launchCompletion]
    simp only [execLaunchCompletion, hx]
    rfl
  rw [hgo]
  exact ⟨fun h => if_pos h, fun h => (if_neg (fun hn => hn h)).trans rfl⟩

/-- Settles O49: the clicker refuses or places heads, and launches complete. -/
theorem launches : Obligations.Launches := ⟨headsAreRefusedOrPlaced, launchesComplete⟩

end Sys2Proof.Proofs
end

section
/-!
PROOF. Context records, priorities and partitions (13 R280 to R299).
-/
namespace Sys2Proof.Proofs
open Sys2Proof.Machine Sys2Proof.Safety Sys2Proof.Claims

/-! ## Fields and owners -/

theorem ctxRecBad_eq_false {r : RecS} {subs : List Nat} (hcf : r.cf = 0) (hobj : bits r.obj.toNat 31 8 = 0) (hsub : r.sub.toNat ∈ subs) :
    ctxRecBad r subs = false := by
  rw [ctxRecBad, hcf, hobj, List.contains_iff_mem.2 hsub]
  rfl

theorem sub_mem_zero {r : RecS} (h : r.sub = 0) : r.sub.toNat ∈ [0] := by
  rw [h]
  exact List.mem_singleton_self _

theorem sub_mem_zero_one {r : RecS} (h : r.sub.toNat ≤ 1) : r.sub.toNat ∈ [0, 1] := by
  rw [List.mem_cons, List.mem_singleton]
  omega

section
variable {s : State} {c : Cur} {r : RecS}

theorem ctxCause_none_owned (h : ctxOwner s (objCtx s c r) = none) : ctxCause s c r = some cILLEGAL := by
  simp only [ctxCause, h]

theorem ctxCause_foreign {k : Nat} (h : ctxOwner s (objCtx s c r) = some k) (hk : k ≠ partOf s (matchCtx s c.p c.plane c.tag)) :
    ctxCause s c r = some cPERMISSION := by
  simp only [ctxCause, h]
  exact if_neg hk

theorem ctxCause_own (h : ctxOwner s (objCtx s c r) = some (partOf s (matchCtx s c.p c.plane c.tag))) : ctxCause s c r = none := by
  simp only [ctxCause, h]
  exact if_pos trivial

end

/-! ## PARK, RESUME, YIELD (13 R299) -/

theorem contextRecordsAreHeld : ContextRecordsAreHeld := by
  intro r s hcf hobj hat c own t owner illegal deny
  have hpark : r.sub = 0 → ctxRecBad r [0] = false := fun h => ctxRecBad_eq_false hcf hobj (sub_mem_zero h)
  have hresume : r.sub.toNat ≤ 1 → ctxRecBad r [0, 1] = false := fun h => ctxRecBad_eq_false hcf hobj (sub_mem_zero_one h)
  refine ⟨fun hsub howner => (exec_park r s).trans (sAct_fault hat (hpark hsub) (if_pos howner)), fun hnone => ⟨fun hsub hne => ?_, fun hsub => ?_⟩,
    fun k hk hne => ⟨fun hsub hown => ?_, fun hsub => ?_⟩, fun b hb => ⟨fun howner => ⟨fun hsub hne => ?_, fun hsub => ?_⟩, fun hsub => ?_⟩⟩
  · exact (exec_park r s).trans (sAct_fault hat (hpark hsub) ((if_neg hne).trans (ctxCause_none_owned hnone)))
  · exact (exec_resume r s).trans (sAct_fault hat (hresume hsub) (ctxCause_none_owned hnone))
  · exact (exec_park r s).trans (sAct_fault hat (hpark hsub) ((if_neg hown).trans (ctxCause_foreign hk hne)))
  · exact (exec_resume r s).trans (sAct_fault hat (hresume hsub) (ctxCause_foreign hk hne))
  · exact (exec_park r s).trans (sAct_held hat (hpark hsub) hb ((if_neg hne).trans (ctxCause_own howner)))
  · exact (exec_resume r s).trans (sAct_held hat (hresume hsub) hb (ctxCause_own howner))
  · exact (exec_yield r s).trans (sAct_held hat (hpark hsub) hb rfl)

section
variable {s : State} {ctx : Nat} {a : ParkAsk} {preempt : Bool}

theorem parkStart_starts (h : parkOf s ctx = none) : parkStart s ctx (some a) preempt = { s with parks := s.parks ++
    [{ ctx := ctx, round := 1, began := s.cycle, asks := [a], preempt := preempt, faulted := none }] } := by
  simp only [parkStart, h, Option.toList]

theorem parkStart_joins {y : Park} (h : parkOf s ctx = some y) :
    parkStart s ctx (some a) preempt = putPark s { y with asks := y.asks ++ [a] } := by
  simp only [parkStart, h, Option.toList]

end

/-- The context that a RESUME names. -/
def resumeTarget (a : ParkAsk) : Nat := if bits a.r.obj.toNat 7 0 = 0xFF then a.ctx else bits a.r.obj.toNat 7 0

section
variable {s : State} {a : ParkAsk}

theorem resumeAct_parking {y : Park} (h : parkOf s (resumeTarget a) = some y) :
    resumeAct s a = putPark s { y with asks := y.asks ++ [a] } :=
  (if_pos (Option.isSome_iff_exists.2 ⟨y, h⟩)).trans (parkStart_joins h)

variable (h : parkOf s (resumeTarget a) = none)
include h

theorem resumeAct_parked (hst : (ctxAt s (resumeTarget a)).state = 4) (hnone : s.resumes.any (fun y => y.ctx == resumeTarget a) = false) :
    resumeAct s a = resumeStart s (resumeTarget a)
      (if a.r.sub = 0 then none else some (laneNums a.cur (portTok a.cur 0).lanes.length)) (some a) :=
  (if_neg (fun hp => Option.isSome_iff_ne_none.1 hp h)).trans (if_pos ⟨hst, congrArg (! ·) hnone⟩)

theorem resumeAct_refused (h4 : (ctxAt s (resumeTarget a)).state ≠ 4) (h2 : (ctxAt s (resumeTarget a)).state ≠ 2) :
    resumeAct s a = resumeSays s a (resumeTarget a) 2 :=
  (if_neg (fun hp => Option.isSome_iff_ne_none.1 hp h)).trans ((if_neg (fun hn => h4 hn.1)).trans (if_neg (fun hn => h2 hn.1)))

end

theorem contextRecordsTakeEffect : ContextRecordsTakeEffect := by
  intro r s hcf hobj hat hlate c own t a x howner
  have hpark : r.sub = 0 → ctxRecBad r [0] = false := fun h => ctxRecBad_eq_false hcf hobj (sub_mem_zero h)
  refine ⟨fun hsub hne => ?_, fun hsub => ?_, fun hsub => ?_⟩
  · have hgo : exec (.park r) s = .next (if x.state = 3 then parkStart s t (some a) false else resumeSays s a t 2) :=
      (exec_park r s).trans (sAct_late hat (hpark hsub) hlate ((if_neg hne).trans (ctxCause_own howner)))
    rw [hgo]
    refine ⟨fun hst hnone => ?_, fun y hst hy => ?_, fun hst => ?_⟩
    · rw [if_pos hst, parkStart_starts hnone]
    · rw [if_pos hst, parkStart_joins hy]
    · rw [if_neg hst]
      rfl
  · have hgo : exec (.resume r) s = .next (resumeAct s a) :=
      (exec_resume r s).trans (sAct_late hat (ctxRecBad_eq_false hcf hobj (sub_mem_zero_one hsub)) hlate (ctxCause_own howner))
    rw [hgo]
    refine ⟨fun y hy => congrArg _ (resumeAct_parking hy), fun hnone hst hres => ?_, fun hnone h4 h2 =>
      congrArg _ (resumeAct_refused hnone h4 h2)⟩
    exact congrArg _ (resumeAct_parked hnone hst hres)
  · have hgo : exec (.yield r) s = .next (if (ctxAt s own).state = 3 ∧ workWaits s own 0 = true then parkStart s own none false else s) :=
      (exec_yield r s).trans (sAct_late hat (hpark hsub) hlate rfl)
    rw [hgo]
    refine ⟨fun hst hw => by rw [if_pos ⟨hst, hw⟩], fun h => ?_⟩
    rw [if_neg]
    rintro ⟨hst, hw⟩
    exact h.elim (fun hn => hn hst) (fun hn => Bool.false_ne_true (hn.symm.trans hw))

/-! ## CTXPRI (13 R285, R299) -/

section
variable {r : RecS} {s : State} {c : Cur} (hst : (ctxAt s (objCtx s c r)).state ≠ 4)
include hst

theorem ctxpriAct_here (hsub : r.sub = 0) :
    ctxpriAct s c r = ctxpriPanel s (objCtx s c r) (laneN (portTok c 0).lanes 0) c.p :=
  (if_neg hst).trans (if_neg (by rw [hsub]; decide))

theorem ctxpriAct_everywhere (hsub : r.sub = 1) : ctxpriAct s c r =
    (ctxAt s (objCtx s c r)).panels.foldl (fun u p => ctxpriPanel u (objCtx s c r) (laneN (portTok c 0).lanes 0) p) s :=
  (if_neg hst).trans (if_pos hsub)

end

/-- The check of a CTXPRI that names a context of the block's partition. -/
theorem ctxpri_chk {s : State} {c : Cur} {r : RecS} (h : ctxOwner s (objCtx s c r) = some (partOf s (matchCtx s c.p c.plane c.tag)))
    {o : Option Nat} (ho : (if privOf s (matchCtx s c.p c.plane c.tag) = 0 ∧
      (objCtx s c r ≠ matchCtx s c.p c.plane c.tag ∨ setsStrict s c r = true) then some cPERMISSION else none) = o) :
    (match ctxCause s c r with
      | some k => some k
      | none => if privOf s (matchCtx s c.p c.plane c.tag) = 0 ∧
          (objCtx s c r ≠ matchCtx s c.p c.plane c.tag ∨ setsStrict s c r = true) then some cPERMISSION else none) = o := by
  rw [ctxCause_own h]
  exact ho

theorem prioritiesAreSet : PrioritiesAreSet := by
  intro r s hcf hobj hsub hat c own t v ack
  have hbad : ctxRecBad r [0, 1] = false := ctxRecBad_eq_false hcf hobj (sub_mem_zero_one hsub)
  refine ⟨fun hearly howner => ⟨fun hpriv h => ?_, fun h b hb => ?_⟩, fun hlate hst => ⟨fun h0 => ?_, fun h1 => ?_⟩⟩
  · exact (exec_ctxpri r s).trans (sAck_fault hat hbad hearly (ctxpri_chk howner (if_pos ⟨hpriv, h⟩)))
  · refine (exec_ctxpri r s).trans (sAck_held hat hbad hb (ctxpri_chk howner (if_neg ?_)))
    rintro ⟨hpriv, hne | hstrict⟩
    · exact h.elim (fun hn => hn hpriv) (fun hn => hne hn.1)
    · exact h.elim (fun hn => hn hpriv) (fun hn => Bool.false_ne_true (hn.2.symm.trans hstrict))
  · exact (exec_ctxpri r s).trans ((sAck_late hat hbad hlate).trans (congrArg _ (ctxpriAct_here hst h0)))
  · exact (exec_ctxpri r s).trans ((sAck_late hat hbad hlate).trans (congrArg _ (ctxpriAct_everywhere hst h1)))

/-- Four nibbles and four bits beside each other. -/
def nibbleSum (a b : Nat → Nat) : Nat := (List.range 4).foldl (fun v k => v + put (a k) (4 * k) + put (b k) (16 + k)) 0

theorem put_of_pow {lo n : Nat} (h : 2 ^ lo = n) (v : Nat) : put v lo = v * n := by rw [put, h]

theorem nibbleSum_eq (a b : Nat → Nat) : nibbleSum a b =
    a 0 + b 0 * 65536 + (a 1 * 16 + b 1 * 131072) + (a 2 * 256 + b 2 * 262144) + (a 3 * 4096 + b 3 * 524288) := by
  rw [nibbleSum, show List.range 4 = [0, 1, 2, 3] from rfl, List.foldl_cons, List.foldl_cons, List.foldl_cons, List.foldl_cons,
    List.foldl_nil]
  rw [put_of_pow (show 2 ^ (4 * 0) = 1 from rfl), put_of_pow (show 2 ^ (4 * 1) = 16 from rfl), put_of_pow (show 2 ^ (4 * 2) = 256 from rfl),
    put_of_pow (show 2 ^ (4 * 3) = 4096 from rfl), put_of_pow (show 2 ^ (16 + 0) = 65536 from rfl),
    put_of_pow (show 2 ^ (16 + 1) = 131072 from rfl), put_of_pow (show 2 ^ (16 + 2) = 262144 from rfl),
    put_of_pow (show 2 ^ (16 + 3) = 524288 from rfl)]
  omega

theorem nibbleSum_fields {a b : Nat → Nat} (ha : ∀ k, a k < 16) (hb : ∀ k, b k < 2) {k : Nat} (hk : k < 4) :
    nibbleSum a b < 2 ^ 20 ∧ nibbleSum a b / 2 ^ (4 * k) % 16 = a k ∧ nibbleSum a b / 2 ^ (16 + k) % 2 = b k := by
  rw [nibbleSum_eq]
  have ha0 := ha 0
  have ha1 := ha 1
  have ha2 := ha 2
  have ha3 := ha 3
  have hb0 := hb 0
  have hb1 := hb 1
  have hb2 := hb 2
  have hb3 := hb 3
  match k, hk with
  | 0, _ => omega
  | 1, _ => omega
  | 2, _ => omega
  | 3, _ => omega

/-- The field of four bits and the bit of plane `k` that a PLPRI takes. -/
def priNibble (old new : Nat) (f : Nat → Bool) (k : Nat) : Nat := bits (if f k then new else old) (4 * k + 3) (4 * k)
def priStrict (old new : Nat) (f : Nat → Bool) (k : Nat) : Nat := bits (if f k then new else old) (16 + k) (16 + k)

theorem bits_nibble (v k : Nat) : bits v (4 * k + 3) (4 * k) = v / 2 ^ (4 * k) % 16 := by
  have hlen : 4 * k + 3 + 1 - 4 * k = 4 := by omega
  exact congrArg (fun n => v / 2 ^ (4 * k) % 2 ^ n) hlen

theorem bits_single (v k : Nat) : bits v k k = v / 2 ^ k % 2 := by
  rw [bits, show k + 1 - k = 1 by omega, Nat.pow_one]

theorem priMerge_toNat (old new : Nat) (f : Nat → Bool) :
    (priMerge old new f).toNat = nibbleSum (priNibble old new f) (priStrict old new f) % 2 ^ 20 := by
  have h : priMerge old new f = BitVec.ofNat 20 (nibbleSum (priNibble old new f) (priStrict old new f)) := by
    rw [priMerge, nibbleSum]
    congr 2
    funext v k
    rw [priNibble, priStrict]
    cases f k with
    | false => rfl
    | true => rfl
  rw [h, BitVec.toNat_ofNat]

theorem prioritiesOfOthersStay : PrioritiesOfOthersStay := by
  intro old new f k hk
  have ha : ∀ k, priNibble old new f k < 16 := fun k => by
    rw [priNibble, bits_nibble]
    exact Nat.mod_lt _ (by decide)
  have hb : ∀ k, priStrict old new f k < 2 := fun k => by
    rw [priStrict, bits_single]
    exact Nat.mod_lt _ (by decide)
  obtain ⟨hlt, hnib, hbit⟩ := nibbleSum_fields ha hb hk
  rw [priMerge_toNat, Nat.mod_eq_of_lt hlt]
  refine ⟨?_, ?_⟩
  · rw [bits_nibble, hnib, priNibble]
  · rw [bit, hbit, priStrict, bits_single, bit]

/-- Settles O50: context records are held and take effect, and priorities are set for the target's planes alone. -/
theorem contextRecords : Obligations.ContextRecords :=
  ⟨contextRecordsAreHeld, contextRecordsTakeEffect, prioritiesAreSet, prioritiesOfOthersStay⟩

/-! ## Partitions (13 R280, R293 to R298) -/

section
variable {s : State} {fn : Nat} (hwho : s.sel.who = .host fn) (hfn : fn ≤ 64) (hpart : s.sel.part ≤ 64)
include hwho hfn hpart

/-- The host's write reaches a partition register. -/
theorem host_reaches : ¬ ((!isHost s.sel.who) = true ∨ 65 ≤ s.sel.part) := by
  rw [hwho, isHost, decide_eq_true hfn]
  rintro (h | h)
  · exact Bool.false_ne_true h
  · exact Nat.not_le.2 (Nat.lt_succ_of_le hpart) h

theorem execPrangeWrite_host : execPrangeWrite s = .next (if fn = 0 then prangeWrite s s.sel.part s.sel.v.toNat else s) := by
  rw [execPrangeWrite, if_neg (host_reaches hwho hfn hpart), hwho, agentPriv]
  by_cases h : fn = 0
  · rw [if_pos h, if_pos h, if_pos rfl]
  · rw [if_neg h, if_neg h, if_neg (by decide)]

theorem pctlEvent_host {cmd : Nat} : pctlEvent s cmd = .next (if fn = 0 then pctlWrite s s.sel.part (2 * cmd) else s) := by
  rw [pctlEvent, if_neg (host_reaches hwho hfn hpart), hwho, agentPriv]
  by_cases h : fn = 0
  · rw [if_pos h, if_pos h, if_pos rfl]
  · rw [if_neg h, if_neg h, if_neg (by decide)]

end

section
variable {s : State} {part : Nat}

/-! What PSTATE admits (13 R298). -/

theorem preempt_admitted (h : (partAt s part).pstate = 0 ∨ (partAt s part).pstate = 6) : pctlWrite s part (2 * 1) = doPreempt s part := by
  refine (if_pos ?_).trans rfl
  rcases h with h | h <;> rw [h] <;> rfl

theorem preempt_ignored (h0 : (partAt s part).pstate ≠ 0) (h6 : (partAt s part).pstate ≠ 6) : pctlWrite s part (2 * 1) = s := by
  refine if_neg (mt (fun h => ?_) (not_or.2 ⟨h0, h6⟩))
  exact (Bool.or_eq_true_iff.1 h).imp beq_iff_eq.1 beq_iff_eq.1

theorem freeze_admits_iff {n : Nat} : pctlAdmits n 2 = true ↔ n ≤ 2 ∨ n = 6 := by
  rw [pctlAdmits, Bool.or_eq_true, decide_eq_true_eq, beq_iff_eq]

theorem reset_admits_iff {n : Nat} : pctlAdmits n 4 = true ↔ n ≤ 4 ∨ n = 6 := by
  rw [pctlAdmits, Bool.or_eq_true, decide_eq_true_eq, beq_iff_eq]

theorem freeze_admitted (h : (partAt s part).pstate ≤ 2 ∨ (partAt s part).pstate = 6) :
    pctlWrite s part (2 * 2) = freezeStart s part false := (if_pos (freeze_admits_iff.2 h)).trans rfl

theorem freeze_ignored (h3 : 3 ≤ (partAt s part).pstate) (h6 : (partAt s part).pstate ≠ 6) : pctlWrite s part (2 * 2) = s :=
  if_neg (mt freeze_admits_iff.1 (by omega))

theorem reset_admitted (h : (partAt s part).pstate ≤ 4 ∨ (partAt s part).pstate = 6) :
    pctlWrite s part (2 * 4) = freezeStart s part true := (if_pos (reset_admits_iff.2 h)).trans rfl

theorem reset_ignored (h5 : (partAt s part).pstate = 5) : pctlWrite s part (2 * 4) = s := if_neg (mt reset_admits_iff.1 (by omega))

theorem resumep_ignored (h : (partAt s part).pstate ≠ 2) : pctlWrite s part (2 * 8) = s := if_neg (mt beq_iff_eq.1 h)

/-- With nothing parked and no restore in progress a pre-empted partition runs again at once. -/
theorem resumep_admitted (h : (partAt s part).pstate = 2) (hparked : (partAt s part).parked = []) (hres : s.resumes = []) :
    pctlWrite s part (2 * 8) = setPart s part { partAt s part with pstate := 0, parked := [] } := by
  have hdo : doResumep s part = resumepGo s part := by rw [doResumep, hparked, List.foldl_nil]
  refine (if_pos (beq_iff_eq.2 h)).trans (hdo.trans (if_pos ⟨h, ?_, ?_⟩))
  · rw [hparked]
    rfl
  · rw [hres]
    rfl

end

theorem partitionsAreCommanded : PartitionsAreCommanded := by
  intro s fn hwho hfn hpart k v pt w
  have hprange := (exec_prangeWrite s).trans (execPrangeWrite_host hwho hfn hpart)
  have hpctl : ∀ {cmd : Nat}, pctlEvent s cmd = .next (if fn = 0 then pctlWrite s k (2 * cmd) else s) := pctlEvent_host hwho hfn hpart
  have hpreempt := (exec_preempt s).trans (hpctl (cmd := 1))
  have hfreeze := (exec_pctlFreeze s).trans (hpctl (cmd := 2))
  have hreset := (exec_pctlReset s).trans (hpctl (cmd := 4))
  have hresumep := (exec_resumep s).trans (hpctl (cmd := 8))
  rw [hprange, hpreempt, hfreeze, hreset, hresumep]
  refine ⟨fun hne => ?_, fun h0 => ?_⟩
  · simp only [if_neg hne, and_self]
  · simp only [if_pos h0]
    exact ⟨fun h => congrArg _ (if_pos h), fun h => congrArg _ (if_neg (Bool.eq_false_iff.1 h)),
      fun h => congrArg _ (preempt_admitted h), fun h h' => congrArg _ (preempt_ignored h h'), fun h => congrArg _ (freeze_admitted h),
      fun h h' => congrArg _ (freeze_ignored h h'), fun h => congrArg _ (reset_admitted h), fun h => congrArg _ (reset_ignored h),
      fun h => congrArg _ (resumep_ignored h), fun h hp hr => congrArg _ (resumep_admitted h hp hr)⟩

theorem partitionsFreezeAndClear : PartitionsFreezeAndClear := by
  intro s k pt cs
  have hfreeze : exec .partitionFrozen s = if pt.pstate ≠ 3 then .refused .notEnabled
      else if (!cs.all (ctxSettled s)) = true ∧ s.cycle < pt.frzT0.getD 0 + 4096 then .refused .notEnabled
      else
        let gone := s.transit.filter (stillMoves s cs)
        let s1 := writeDump (setPart { s with transit := s.transit.filter (fun f => !stillMoves s cs f) } k
          { pt with dropped := pt.dropped + gone.length }) k
        .next (setPart s1 k { partAt s1 k with pstate := if pt.clear_ then 5 else 4, frzT0 := none }) := exec_partitionFrozen s
  have hclear : exec .partitionCleared s = if pt.pstate ≠ 5 then .refused .notEnabled
      else .next (setPart (cs.foldl clearCtx s) k
        { partAt (cs.foldl clearCtx s) k with pstate := 6, clear_ := false, parked := [], dropped := 0 }) := exec_partitionCleared s
  rw [hfreeze, hclear]
  refine ⟨fun h => if_pos h, fun h hmoves hearly => ?_, fun h hdone => ?_, fun h => if_pos h, fun h => if_neg (fun hn => hn h)⟩
  · exact (if_neg (fun hn => hn h)).trans (if_pos ⟨by rw [hmoves]; rfl, hearly⟩)
  · refine (if_neg (fun hn => hn h)).trans (if_neg ?_)
    rintro ⟨hmoves, hearly⟩
    rcases hdone with hall | hlate
    · rw [hall] at hmoves
      exact Bool.false_ne_true hmoves
    · exact Nat.not_lt.2 hlate hearly

/-- Settles O52: partitions are commanded by the physical function, freeze and clear. -/
theorem partitions : Obligations.Partitions := ⟨partitionsAreCommanded, partitionsFreezeAndClear⟩

end Sys2Proof.Proofs
end

section
/-!
PROOF. System registers (13 R281, R285, R297 to R299).
-/
namespace Sys2Proof.Proofs
open Sys2Proof.Machine Sys2Proof.Safety Sys2Proof.Claims

/-! ## SREAD and SWRITE (13 R299) -/

theorem regBad_eq_false {r : RecS} (hsub : r.sub = 0) (hcf : r.cf = 0) (hobj : bits r.obj.toNat 31 24 = 0) : regBad r = false := by
  rw [regBad, hsub, hcf, hobj]
  rfl

section
variable {r : RecS} {s : State} (hat : AtScribe s r) (hbad : regBad r = false)
include hat hbad

theorem execSread_faults {k : Nat} (h : regCause s s.cur r false = some k) : execSread r s = .next (faultCur s s.cur k 0) := by
  obtain ⟨hsite, hs, hp⟩ := hat
  rw [execSread, if_neg (fun hn => hn hsite), sFire_supplied hs hbad (.inr hp)]
  simp only [h]

theorem execSread_sends (h : regCause s s.cur r false = none) : execSread r s =
    .next (emitRes (regClear s (objNum r) (regTarget s s.cur r)) s.cur (formS r) 7
      (both { tag := s.cur.tag, ty := 7, lanes := wordsLanes [regRead s (objNum r) (regTarget s s.cur r)
        (some (matchCtx s s.cur.p s.cur.plane s.cur.tag)) (some (blockColour s s.cur.p))] })) := by
  obtain ⟨hsite, hs, hp⟩ := hat
  rw [execSread, if_neg (fun hn => hn hsite), sFire_supplied hs hbad (.inr hp)]
  simp only [h]

end

/-- The check of an SWRITE. -/
def swriteCause (s : State) (c : Cur) (r : RecS) : Option Nat :=
  if 0x20 ≤ objNum r ∧ objNum r ≤ 0x3F ∧ (shiftDest s c (laneN (portTok c 0).lanes 0 % 65536)).isNone then some cILLEGAL
  else regCause s c r true

theorem swriteCause_eq_regCause {s : State} {c : Cur} {r : RecS}
    (h : objNum r < 0x20 ∨ 0x3F < objNum r ∨ (shiftDest s c (laneN (portTok c 0).lanes 0 % 65536)).isSome = true) :
    swriteCause s c r = regCause s c r true := by
  refine if_neg ?_
  rintro ⟨hlo, hhi, hnone⟩
  rcases h with h | h | h
  · exact Nat.not_le.2 h hlo
  · exact Nat.not_le.2 h hhi
  · rw [Option.isNone_iff_eq_none] at hnone
    rw [hnone] at h
    exact Bool.false_ne_true h

theorem registersAreReadAndWritten : RegistersAreReadAndWritten := by
  intro r s hsub hcf hobj hat c ctx num t colour ls ack
  have hbad := regBad_eq_false hsub hcf hobj
  have hheld : ∀ b, swriteCause s c r = none → InBlock s b → exec (.swrite r) s = .next (holdEff ack (.swrite r)) :=
    fun b h hb => (exec_swrite r s).trans (sAck_held hat hbad hb h)
  have hfault : ∀ k, c.late = false → swriteCause s c r = some k → exec (.swrite r) s = .next (faultCur s c k 0) :=
    fun k hl h => (exec_swrite r s).trans (sAck_fault hat hbad hl h)
  refine ⟨fun k h => (exec_sread r s).trans (execSread_faults hat hbad h), fun h => (exec_sread r s).trans (execSread_sends hat hbad h),
    fun hout => ⟨fun k hl h => ?_, fun b h hb => ?_, fun hl => ?_⟩, fun hlo hhi => ⟨fun d hd hl h b hb => ?_, fun hd hl => ?_⟩⟩
  · exact hfault k hl ((swriteCause_eq_regCause (hout.imp id .inl)).trans h)
  · exact hheld b ((swriteCause_eq_regCause (hout.imp id .inl)).trans h) hb
  · refine (exec_swrite r s).trans ((sAck_late hat hbad hl).trans ?_)
    have hval : swriteVal s s.cur r = laneN ls 0 + laneN ls 1 * 2 ^ 32 :=
      if_neg (fun hin => hout.elim (fun h => Nat.not_le.2 h hin.1) (fun h => Nat.not_le.2 h hin.2))
    rw [hval]
  · exact hheld b ((swriteCause_eq_regCause (.inr (.inr (by rw [hd]; rfl)))).trans h) hb
  · exact hfault _ hl (if_pos ⟨hlo, hhi, by rw [hd]; rfl⟩)

/-! ## Who reaches a register (13 R297, R281) -/

/-- The cause of a low privilege: `own` says that the register is the block's own, `reach` that its partition reaches it. -/
def lowCause (priv : Nat) (write user own reach : Bool) : Option Nat :=
  if !own && !reach then some cPERMISSION else if priv = 0 && (!own || (write && !user)) then some cPERMISSION else none

section
variable {priv : Nat} {write user : Bool}

theorem lowCause_out : lowCause priv write user false false = some cPERMISSION := rfl

theorem lowCause_reached (h : priv ≠ 0) : lowCause priv write user false true = none := by
  rw [lowCause, decide_eq_false h]
  rfl

theorem lowCause_reached_user {reach : Bool} (h : priv = 0) : lowCause priv write user false reach = some cPERMISSION := by
  rw [lowCause, decide_eq_true h]
  cases reach with
  | false => rfl
  | true => rfl

theorem lowCause_own {reach : Bool} (h : priv ≠ 0 ∨ write = false ∨ user = true) : lowCause priv write user true reach = none := by
  rcases h with h | h | h
  · rw [lowCause, decide_eq_false h]
    rfl
  · rw [lowCause, h, Bool.false_and, Bool.or_false, Bool.not_true, Bool.and_false]
    rfl
  · rw [lowCause, h, Bool.not_true, Bool.and_false, Bool.or_false, Bool.and_false]
    rfl

theorem lowCause_own_user {reach : Bool} (h : priv = 0) (hw : write = true) (hu : user = false) :
    lowCause priv write user true reach = some cPERMISSION := by
  rw [lowCause, decide_eq_true h, hw, hu]
  rfl

end

section
variable {s : State} {c : Cur} {r : RecS} {write : Bool}

/-- The cause of an access to a register that a panel or its scribe holds. -/
theorem regCause_local (h : regKind (objNum r) = .panel ∨ regKind (objNum r) = .scribe) : regCause s c r write =
    if 48 ≤ regTarget s c r then some cILLEGAL
    else lowCause (privOf s (matchCtx s c.p c.plane c.tag)) write (userWrite (objNum r)) (regTarget s c r == c.p)
      (panelOf s (partOf s (matchCtx s c.p c.plane c.tag)) (regTarget s c r)) := by
  rcases h with h | h <;> simp only [regCause, h] <;> rfl

theorem regCause_local_in (h : regKind (objNum r) = .panel ∨ regKind (objNum r) = .scribe) (ht : regTarget s c r < 48) {own reach : Bool}
    (hown : (regTarget s c r == c.p) = own) (hreach : panelOf s (partOf s (matchCtx s c.p c.plane c.tag)) (regTarget s c r) = reach) :
    regCause s c r write = lowCause (privOf s (matchCtx s c.p c.plane c.tag)) write (userWrite (objNum r)) own reach := by
  rw [regCause_local h, if_neg (Nat.not_le.2 ht), hown, hreach]

theorem regCause_context_unowned (h : regKind (objNum r) = .context) (hnone : ctxOwner s (regTarget s c r) = none) :
    regCause s c r write = some cILLEGAL := by
  simp only [regCause, h, hnone]

theorem regCause_context {k : Nat} (h : regKind (objNum r) = .context) (hk : ctxOwner s (regTarget s c r) = some k) :
    regCause s c r write = lowCause (privOf s (matchCtx s c.p c.plane c.tag)) write (userWrite (objNum r))
      (regTarget s c r == matchCtx s c.p c.plane c.tag) (k == partOf s (matchCtx s c.p c.plane c.tag)) := by
  simp only [regCause, h, hk]
  rfl

theorem regCause_group (h : regKind (objNum r) = .group) : regCause s c r write = if objTgt r ≠ 0xFF then some cILLEGAL else none := by
  simp only [regCause, h]

theorem regCause_partition (h : regKind (objNum r) = .partition) : regCause s c r write =
    if 64 < regTarget s c r then some cILLEGAL
    else if objNum r = 0x304 then
      (if privOf s (matchCtx s c.p c.plane c.tag) = 2 ∨
          (privOf s (matchCtx s c.p c.plane c.tag) = 1 ∧ regTarget s c r = partOf s (matchCtx s c.p c.plane c.tag)) then none
       else some cPERMISSION)
    else if privOf s (matchCtx s c.p c.plane c.tag) = 2 then none else some cPERMISSION := by
  simp only [regCause, h]

end

theorem registersAreProtected : RegistersAreProtected := by
  intro r s c write num t ctx priv part cause local_
  refine ⟨fun h => ?_, fun h ht => ?_, fun h ht hne hout => ?_, fun h ht hne hpriv hin => ?_, fun h ht hne hpriv => ?_, fun h ht heq hok => ?_,
    fun h ht heq hpriv hw hu => ?_, fun h hnone => regCause_context_unowned h hnone, fun k h hk hne hpart => ?_, fun h => ?_, fun h ht => ?_,
    fun h ht hne => ?_, fun hnum ht => ?_⟩
  · show regCause s c r write = _
    simp only [regCause, show regKind (objNum r) = .absent from h]
  · exact (regCause_local h).trans (if_pos ht)
  · exact (regCause_local_in h ht (beq_eq_false_iff_ne.2 hne) hout).trans lowCause_out
  · exact (regCause_local_in h ht (beq_eq_false_iff_ne.2 hne) hin).trans (lowCause_reached hpriv)
  · exact (regCause_local_in h ht (beq_eq_false_iff_ne.2 hne) rfl).trans (lowCause_reached_user hpriv)
  · exact (regCause_local_in h ht (beq_iff_eq.2 heq) rfl).trans (lowCause_own hok)
  · exact (regCause_local_in h ht (beq_iff_eq.2 heq) rfl).trans (lowCause_own_user hpriv hw hu)
  · refine (regCause_context h hk).trans ?_
    rw [beq_eq_false_iff_ne.2 hne, beq_eq_false_iff_ne.2 hpart]
    exact lowCause_out
  · rw [show cause = _ from regCause_group h, ite_eq_right_iff]
    exact ⟨fun hn => Classical.byContradiction (fun hne => nomatch hn hne), fun heq hne => absurd heq hne⟩
  · exact (regCause_partition h).trans (if_pos ht)
  · rw [show cause = _ from (regCause_partition h).trans ((if_neg (Nat.not_lt.2 ht)).trans (if_neg hne)), ite_eq_left_iff]
    exact ⟨fun hn => Classical.byContradiction (fun hp => nomatch hn hp), fun heq hp => absurd heq hp⟩
  · have h : regKind (objNum r) = .partition := by rw [show objNum r = 0x304 from hnum]; rfl
    rw [show cause = _ from (regCause_partition h).trans ((if_neg (Nat.not_lt.2 ht)).trans (if_pos hnum)), ite_eq_left_iff]
    exact ⟨fun hn => Classical.byContradiction (fun hp => nomatch hn hp), fun heq hp => absurd heq hp⟩

/-! ## The host's window (13 R281) -/

section
variable {s : State} {fn num : Nat} (hwho : s.sel.who = .host fn) (hfn : fn ≤ 64) (hoff : offBad s = false)
include hwho hfn hoff

/-- A host write with an offset of the window writes a register that its function reaches. -/
theorem windowEvent_host : windowEvent s num = .next (if hostReaches s fn (accessed s num).1 (accessed s num).2 then
    regWrite s (.host fn) (accessed s num).1 (accessed s num).2 s.sel.v.toNat none else s) := by
  have hok : ¬ ((!isHost (.host fn)) = true ∨ offBad s = true) := by
    rw [isHost, decide_eq_true hfn, hoff]
    rintro (h | h)
    · exact Bool.false_ne_true h
    · exact Bool.false_ne_true h
  rw [windowEvent, hwho]
  exact if_neg hok

section
variable (hnone : s.sel.off = none)
include hnone

omit hwho hfn hoff in
theorem accessed_plain : accessed s num = (num, s.sel.p) := by
  rw [accessed, hnone]
  rfl

theorem rowEvent_host : rowEvent s num = .next (if hostReaches s fn num s.sel.p then
    regWrite s (.host fn) num s.sel.p s.sel.v.toNat none else s) := by
  rw [rowEvent, windowEvent_host hwho hfn hoff, accessed_plain hnone, if_pos rfl]

end
end

/-- A function's reach of a panel's register. -/
theorem hostReaches_panel {s : State} {fn num t : Nat} (h : regKind num = .panel) :
    hostReaches s fn num t = (decide (t < 48) && (fn == 0 || panelOf s fn t)) := by
  simp only [hostReaches, h]

theorem hostReaches_panel_true {s : State} {fn num t : Nat} (h : regKind num = .panel) (ht : t < 48) (hfn : fn = 0 ∨ panelOf s fn t = true) :
    hostReaches s fn num t = true := by
  rw [hostReaches_panel h, decide_eq_true ht, Bool.true_and, Bool.or_eq_true, beq_iff_eq]
  exact hfn

theorem hostReaches_panel_false {s : State} {fn num t : Nat} (h : regKind num = .panel)
    (hout : 48 ≤ t ∨ (fn ≠ 0 ∧ panelOf s fn t = false)) : hostReaches s fn num t = false := by
  rw [hostReaches_panel h]
  rcases hout with ht | ⟨hne, hout⟩
  · rw [decide_eq_false (Nat.not_lt.2 ht), Bool.false_and]
  · rw [hout, beq_eq_false_iff_ne.2 hne, Bool.or_self, Bool.and_false]

theorem execRcRegisterRead_of {s : State} (hfn : s.sel.fn ≤ 64) (hoff : offBad s = false) : execRcRegisterRead s =
    if hostReaches s s.sel.fn (accessed s s.sel.num).1 (accessed s s.sel.num).2 then
      .next { regClear s (accessed s s.sel.num).1 (accessed s s.sel.num).2 with
        out := (regClear s (accessed s s.sel.num).1 (accessed s s.sel.num).2).out ++
          [.regData s.sel.fn (accessed s s.sel.num).1 (BitVec.ofNat 64 (regRead s (accessed s s.sel.num).1 (accessed s s.sel.num).2 none none))] }
    else .next { s with out := s.out ++ [.regData s.sel.fn (accessed s s.sel.num).1 0] } := by
  refine if_neg ?_
  rw [hoff]
  exact fun h => h.elim (Nat.not_lt.2 hfn) (fun h => Bool.false_ne_true h)

theorem hostsWriteRegisters : HostsWriteRegisters := by
  intro s fn hwho hfn hoff num p v pn
  have hplain : s.sel.off = none → p = s.sel.p := fun hnone => congrArg Prod.snd (accessed_plain hnone)
  refine ⟨fun o ho => ?_, fun hnone => ?_, fun hnone hp hreach => ?_, fun hnone hout => ?_, fun hrow => ⟨fun hreach => ?_, fun hout => ?_⟩,
    fun hfn' => ⟨fun hreach => ?_, fun hout => ?_⟩⟩
  · have hacc : accessed s s.sel.num = windowReg o := by rw [accessed, ho]; rfl
    exact ⟨congrArg Prod.fst hacc, congrArg Prod.snd hacc⟩
  · exact ⟨congrArg Prod.fst (accessed_plain hnone), hplain hnone⟩
  · have hrow : ∀ {num}, regKind num = .panel → rowEvent s num = .next (regWrite s (.host fn) num p v none) := by
      intro num hkind
      rw [hplain hnone] at hp hreach
      rw [rowEvent_host hwho hfn hoff hnone, if_pos (hostReaches_panel_true hkind hp hreach), hplain hnone]
    refine ⟨(exec_plpriWrite s).trans (hrow rfl), fun hlo hhi => ?_, fun hbad => ?_, (exec_svcmodeWrite s).trans (hrow rfl)⟩
    · exact (exec_pulseWrite s).trans ((hrow rfl).trans (congrArg _ (if_pos ⟨hlo, hhi⟩)))
    · refine (exec_pulseWrite s).trans ((hrow rfl).trans (congrArg _ (if_neg ?_)))
      exact fun h => hbad.elim (fun hlt => Nat.not_le.2 hlt h.1) (fun hgt => Nat.not_le.2 hgt h.2)
  · have hrow : ∀ {num}, regKind num = .panel → rowEvent s num = .next s := by
      intro num hkind
      rw [hplain hnone] at hout
      rw [rowEvent_host hwho hfn hoff hnone, hostReaches_panel_false hkind hout, if_neg Bool.false_ne_true]
    exact ⟨(exec_plpriWrite s).trans (hrow rfl), (exec_pulseWrite s).trans (hrow rfl), (exec_svcmodeWrite s).trans (hrow rfl)⟩
  · refine (exec_registerWrite s).trans ((if_neg (Bool.eq_false_iff.1 hrow)).trans ((windowEvent_host hwho hfn hoff).trans ?_))
    exact congrArg _ (if_pos hreach)
  · refine (exec_registerWrite s).trans ((if_neg (Bool.eq_false_iff.1 hrow)).trans ((windowEvent_host hwho hfn hoff).trans ?_))
    exact congrArg _ (if_neg (Bool.eq_false_iff.1 hout))
  · exact (exec_rcRegisterRead s).trans ((execRcRegisterRead_of hfn' hoff).trans (if_pos hreach))
  · exact (exec_rcRegisterRead s).trans ((execRcRegisterRead_of hfn' hoff).trans (if_neg (Bool.eq_false_iff.1 hout)))

theorem regWrite_pages {s : State} {a : Agent} {n t v : Nat} {k : Option Nat} (hlo : 0x100 ≤ n) (hhi : n ≤ 0x17F) :
    regWrite s a n t v k = s := by
  unfold regWrite
  split
  case h_22 => rw [if_neg (by omega), if_neg (by omega)]
  all_goals omega

theorem registerWritesTakeTheirFields : RegisterWritesTakeTheirFields := by
  intro s a t v k sc x w
  refine ⟨rfl, rfl, rfl, rfl, rfl, rfl, rfl, rfl, rfl, fun n hn => ?_, fun n => regWrite_pages⟩
  simp only [List.mem_cons, List.not_mem_nil, or_false] at hn
  rcases hn with rfl | rfl | rfl | rfl | rfl | rfl
  all_goals rfl

/-- Settles O53: registers are read, written and protected. -/
theorem registers : Obligations.Registers :=
  ⟨registersAreReadAndWritten, registersAreProtected, hostsWriteRegisters, registerWritesTakeTheirFields⟩

end Sys2Proof.Proofs
end

section
/-!
PROOF. Page records and service changes (02 R54; 18 R368 to R372).
-/
namespace Sys2Proof.Proofs
open Sys2Proof.Machine Sys2Proof.Safety Sys2Proof.Claims

theorem serviceChangesWhenIdle : ServiceChangesWhenIdle := by
  intro s v hv
  have hgo : exec .serviceModeChange s = if panelIdle s s.sel.p then
      .next (setPanel s s.sel.p { panelAt s s.sel.p with tagged := v, svcPend := none }) else .refused .notEnabled := by
    rw [exec_serviceModeChange]
    simp only [execServiceModeChange, hv]
    rfl
  rw [hgo]
  exact ⟨fun h => if_pos h, fun h => if_neg (Bool.eq_false_iff.1 h)⟩

/-! ## Fields and causes (18 R370 to R372) -/

theorem pageBad_eq_false {r : RecS} {sub : BitVec 8} {hi : Nat} (hcf : r.cf = 0) (hobj : bits r.obj.toNat 31 hi = 0) (hsub : r.sub = sub) :
    pageBad r sub hi = false := by
  rw [pageBad, hcf, hobj, hsub, bne_self_eq_false]
  rfl

theorem rangeBad_iff {c : Cur} {top : Nat} : rangeBad c top = true ↔ ¬ ((pageVa c % 4096 = 0 ∧ pageN c ≠ 0) ∧ pageN c ≤ top) := by
  rw [rangeBad, Bool.or_eq_true, Bool.or_eq_true, bne_iff_ne, beq_iff_eq, decide_eq_true_eq]
  omega

theorem rangeBad_eq_false {c : Cur} {top : Nat} (ha : pageVa c % 4096 = 0 ∧ pageN c ≠ 0) (hn : pageN c ≤ top) : rangeBad c top = false :=
  Bool.eq_false_iff.2 (fun h => rangeBad_iff.1 h ⟨ha, hn⟩)

section
variable {s : State} {c : Cur} {r : RecS}

theorem pinCause_range (h : rangeBad c 128 = true) : pinCause s c r = some cILLEGAL := if_pos h

variable {w : Nat} (hok : rangeBad c 128 = false) (hw : shiftSite s c (bits r.obj.toNat 7 0) = some w) (hwell : isWell w = true)
    (hmode : wellMode (wellAt s c.p w) = 5)
include hok hw hwell hmode

theorem pinCause_at : pinCause s c r = if (wellAt s c.p w).owner ≠ some (matchCtx s c.p c.plane c.tag) then some cPERMISSION else none := by
  refine (if_neg (Bool.eq_false_iff.1 hok)).trans ?_
  simp only [pageWell, hw, hwell, hmode, Bool.not_true, Bool.false_eq_true, ne_eq, not_true_eq_false, or_self, if_false]

end

section
variable {s : State} {c : Cur} {r : RecS} (hown : ctxOwner s (objCtx s c r) = some (partOf s (matchCtx s c.p c.plane c.tag)))
include hown

theorem minvCause_own : minvCause s c r = if privOf s (matchCtx s c.p c.plane c.tag) = 0 then some cPERMISSION else none := by
  simp only [minvCause, ctxCause_own hown]

theorem probeCause_own (h : objCtx s c r = matchCtx s c.p c.plane c.tag ∨ privOf s (matchCtx s c.p c.plane c.tag) ≠ 0) :
    probeCause s c r = none := by
  simp only [probeCause, ctxCause_own hown]
  exact if_neg (fun hn => h.elim hn.1 (fun hp => hp hn.2))

/-- The check of an MPROBE that names no well. -/
theorem mprobe_chk (hn : pageN c % 4 ≠ 3) (hw : bits r.obj.toNat 15 8 = 0xFF)
    (h : objCtx s c r = matchCtx s c.p c.plane c.tag ∨ privOf s (matchCtx s c.p c.plane c.tag) ≠ 0) :
    (if pageN c % 4 = 3 ∨ (bits r.obj.toNat 15 8 ≠ 0xFF ∧ (pageWell s c (bits r.obj.toNat 15 8)).isNone) then some cILLEGAL
      else probeCause s c r) = none :=
  (if_neg (fun hb => hb.elim hn (fun hb => hb.1 hw))).trans (probeCause_own hown h)

/-- The check of an MINV of a range. -/
theorem minv_chk (hrange : rangeBad c (2 ^ 30) = false) {o : Option Nat}
    (ho : (if privOf s (matchCtx s c.p c.plane c.tag) = 0 then some cPERMISSION else none) = o) :
    (if rangeBad c (2 ^ 30) then some cILLEGAL else minvCause s c r) = o :=
  (if_neg (Bool.eq_false_iff.1 hrange)).trans ((minvCause_own hown).trans ho)

end

theorem pageRecordsAreHeld : PageRecordsAreHeld := by
  intro r s b hcf hat hb c own priv t n aligned
  refine ⟨fun hobj hsub => ⟨fun hbad => ?_, fun w ha hn hw hwell hmode => ⟨fun howner => ?_, fun howner => ?_⟩⟩, fun hown => ⟨fun hobj hsub ha hn =>
    ⟨fun hpriv => ?_, fun hpriv => ?_⟩, fun hobj hsub hpriv => ?_, fun hreach => ⟨fun hobj hsub hn hw => ?_, fun hobj => ⟨fun hsub => ?_, fun hsub => ?_⟩⟩⟩⟩
  · have hf := pageBad_eq_false hcf hobj hsub
    have hc : pinCause s c r = some cILLEGAL := pinCause_range (rangeBad_iff.2 hbad)
    exact ⟨(exec_mpin r s).trans (sAct_fault hat hf hc), (exec_munpin r s).trans (sAct_fault hat hf hc)⟩
  · have hf := pageBad_eq_false hcf hobj hsub
    have hc : pinCause s c r = none := (pinCause_at (rangeBad_eq_false ha hn) hw hwell hmode).trans (if_neg (fun h => h howner))
    exact ⟨(exec_mpin r s).trans (sAct_held hat hf hb hc), (exec_munpin r s).trans (sAct_held hat hf hb hc)⟩
  · have hf := pageBad_eq_false hcf hobj hsub
    have hc : pinCause s c r = some cPERMISSION := (pinCause_at (rangeBad_eq_false ha hn) hw hwell hmode).trans (if_pos howner)
    exact ⟨(exec_mpin r s).trans (sAct_fault hat hf hc), (exec_munpin r s).trans (sAct_fault hat hf hc)⟩
  · exact (exec_minv r s).trans (sAct_held hat (pageBad_eq_false hcf hobj hsub) hb (minv_chk hown (rangeBad_eq_false ha hn) (if_neg hpriv)))
  · exact (exec_minv r s).trans (sAct_fault hat (pageBad_eq_false hcf hobj hsub) (minv_chk hown (rangeBad_eq_false ha hn) (if_pos hpriv)))
  · exact (exec_minvContext r s).trans (sAct_held hat (pageBad_eq_false hcf hobj hsub) hb ((minvCause_own hown).trans (if_neg hpriv)))
  · exact (exec_mprobe r s).trans (sAct_held hat (pageBad_eq_false hcf hobj hsub) hb (mprobe_chk hown hn hw hreach))
  · exact (exec_mprobeRead r s).trans (sAct_held hat (pageBad_eq_false hcf hobj hsub) hb (probeCause_own hown hreach))
  · exact (exec_mprobeReadClear r s).trans (sAct_held hat (pageBad_eq_false hcf hobj hsub) hb (probeCause_own hown hreach))

/-! ## What a probe sends (18 R372) -/

/-- The status word's part that tells where the probe's translation ends. -/
def probeEnd : Xlat → Nat
  | .ok pa _ => pa
  | .bad k => put (if k = cTRANSLATION then 1 else if k = cPERMISSION then 2 else 3) 56

theorem faultCode_word (x : Xlat) : put (faultCode x).1 56 + (faultCode x).2 = probeEnd x := by
  cases x with
  | ok pa k => rw [faultCode, probeEnd, put, Nat.zero_mul, Nat.zero_add]
  | bad k => rw [faultCode, probeEnd, Nat.add_zero]

theorem probeEnd_translation : probeEnd (.bad cTRANSLATION) = put 1 56 := by rw [probeEnd, if_pos rfl]

theorem probeEnd_permission : probeEnd (.bad cPERMISSION) = put 2 56 := by rw [probeEnd, if_neg (by decide), if_pos rfl]

theorem put_zero_left (lo : Nat) : put 0 lo = 0 := Nat.zero_mul _

theorem pageState_unnamed (s : State) (p va : Nat) (l : Word64) : pageState s p none va (some l) = if bit l.toNat 60 then 4 else 1 := by
  simp only [pageState, Option.bind_none]

section
variable {s : State} {c : Cur} {r : RecS} (hva : pageVa c < 2 ^ 56) (hw : bits r.obj.toNat 15 8 = 0xFF)
include hva hw

/-- A probe of an address in range that names no well ends in a leaf. -/
theorem probeAct_leaf {u : State} {l : Word64} (h : leafNow s (objCtx s c r) c.p 240 (pageVa c) = (u, .leaf l)) : probeAct s c r =
    emitRes u c (formS r) 7 (both { tag := c.tag, ty := 7, lanes := wordsLanes [l.toNat, put (if bit l.toNat 60 then 4 else 1) 61 +
      put (sizeLevel (pteSize l)) 58 + probeEnd (underLeaf u (objCtx s c r) l (pageVa c) (kindRight (pageN c % 4)))] }) := by
  rw [← faultCode_word, ← Nat.add_assoc, probeAct, if_pos hw, if_neg, h]
  · simp only [pageState_unnamed]
    rfl
  · exact Nat.not_le.2 hva

/-- It ends without one. -/
theorem probeAct_bad {u : State} {k : Nat} (h : leafNow s (objCtx s c r) c.p 240 (pageVa c) = (u, .bad k)) : probeAct s c r =
    emitRes u c (formS r) 7 (both { tag := c.tag, ty := 7, lanes := wordsLanes [0, probeEnd (.bad k)] }) := by
  rw [← faultCode_word, probeAct, if_pos hw, if_neg, h]
  · simp only [pageState, put_zero_left, Nat.zero_add]
    rfl
  · exact Nat.not_le.2 hva

end

theorem pageRecordsTakeEffect : PageRecordsTakeEffect := by
  intro r s hcf hat hlate c own priv t n aligned
  refine ⟨fun w hobj hsub ha hn hw hwell hmode howner => ?_, fun hown hpriv => ⟨fun hobj hsub ha hn => ?_, fun hobj hsub => ?_,
    fun hobj hsub hn hw hva => ?_, fun hobj => ?_⟩⟩
  · intro asks
    have hf := pageBad_eq_false hcf hobj hsub
    have hc : pinCause s c r = none := (pinCause_at (rangeBad_eq_false ha hn) hw hwell hmode).trans (if_neg (fun h => h howner))
    have hact : ∀ pins, pinAct s c r pins = pinsGo { s with pins := s.pins ++ [{ cur := c, r := r, w := w, pins := pins }] } := by
      intro pins
      simp only [pinAct, pageWell, hw]
    exact ⟨(exec_mpin r s).trans ((sAct_late hat hf hlate hc).trans (congrArg _ (hact true))),
      (exec_munpin r s).trans ((sAct_late hat hf hlate hc).trans (congrArg _ (hact false)))⟩
  · exact (exec_minv r s).trans (sAct_late hat (pageBad_eq_false hcf hobj hsub) hlate (minv_chk hown (rangeBad_eq_false ha hn) (if_neg hpriv)))
  · exact (exec_minvContext r s).trans (sAct_late hat (pageBad_eq_false hcf hobj hsub) hlate ((minvCause_own hown).trans (if_neg hpriv)))
  · intro x sends
    have hgo : exec (.mprobe r) s = .next (probeAct s c r) :=
      (exec_mprobe r s).trans (sAct_late hat (pageBad_eq_false hcf hobj hsub) hlate (mprobe_chk hown hn hw (.inr hpriv)))
    rw [hgo]
    refine ⟨fun l hl => ?_, fun hk => ?_, fun hk => ?_⟩
    · exact congrArg _ (probeAct_leaf hva hw (Prod.ext rfl hl))
    · rw [probeAct_bad hva hw (Prod.ext rfl hk), probeEnd_translation]
    · rw [probeAct_bad hva hw (Prod.ext rfl hk), probeEnd_permission]
  · intro die send
    have hc : probeCause s c r = none := probeCause_own hown (.inr hpriv)
    exact ⟨fun hsub => (exec_mprobeRead r s).trans (sAct_late hat (pageBad_eq_false hcf hobj hsub) hlate hc),
      fun hsub => (exec_mprobeReadClear r s).trans (sAct_late hat (pageBad_eq_false hcf hobj hsub) hlate hc)⟩

/-- Settles O54: a service changes when its panel is idle; page records are held and take effect. -/
theorem pagesAndService : Obligations.PagesAndService := ⟨serviceChangesWhenIdle, pageRecordsAreHeld, pageRecordsTakeEffect⟩

end Sys2Proof.Proofs
end

section
/-!
PROOF. TRAP, TRET, FTAKE and PTEST (20 R396 to R402).
-/
namespace Sys2Proof.Proofs
open Sys2Proof.Machine Sys2Proof.Safety Sys2Proof.Claims

theorem trapRecBad_eq_false {r : RecS} {sub : BitVec 8} {hi : Nat} (hsub : r.sub = sub) (hcf : r.cf = 0)
    (hctl : r.ctl = { lituse := 0, pred := false, emit0 := 0, emit1 := 0, nullpass := false }) (hobj : r.obj.toNat < 2 ^ hi) :
    trapRecBad r sub hi = false := by
  rw [trapRecBad, hsub, hcf, hctl, Nat.div_eq_of_lt hobj, bne_self_eq_false]
  rfl

/-! ## TRAP and TRET (20 R398) -/

theorem trapAndReturn : TrapAndReturn := by
  intro r s hsub hcf hctl hsite hs c
  refine ⟨fun hobj => ⟨fun b hb => ?_, fun hlate => ?_⟩, fun hobj => ?_, fun hobj => ⟨fun b hb => ?_, fun hlate => ?_⟩⟩
  · exact (exec_trap r s).trans (sActP_held hsite hs (.inl rfl) (trapRecBad_eq_false hsub hcf hctl hobj) hb rfl)
  · refine (exec_trap r s).trans ((sActP_late hsite hs (.inl rfl) (trapRecBad_eq_false hsub hcf hctl hobj) hlate rfl).trans ?_)
    rw [Nat.mod_eq_of_lt hobj]
  · have hhi : r.obj.toNat / 2 ^ 16 ≠ 0 := Nat.ne_of_gt (Nat.div_pos hobj (Nat.two_pow_pos 16))
    have hbad : trapRecBad r 0 16 = true := by
      rw [trapRecBad, bne_iff_ne.2 hhi, Bool.or_true]
    exact (exec_trap r s).trans (sActP_bad hsite hs hbad)
  all_goals have hf : trapRecBad r 0 0 = false := trapRecBad_eq_false hsub hcf hctl (by rw [hobj]; decide)
  · exact (exec_tret r s).trans (sActP_held hsite hs (.inl rfl) hf hb rfl)
  · exact (exec_tret r s).trans (sActP_late hsite hs (.inl rfl) hf hlate rfl)

/-! ## FTAKE (20 R398) -/

/-- Sends keep the match in its block. -/
theorem inBlock_of_sends {s t : State} (h : OnlySends s.cur.p s t) (hin : inBlock s = true) : inBlock t = true := by
  have hcur : t.cur = s.cur := by rw [h.rest]
  obtain ⟨hsite, hblk⟩ := Bool.and_eq_true_iff.1 hin
  rw [inBlock, hcur, hsite, Bool.true_and]
  rcases h.scribes with hsc | ⟨b, hsc⟩
  · rw [scribeAt, hsc]
    exact hblk
  · rw [scribeAt, hsc, tgetD, tget?_tput]
    rfl

section
variable {r : RecS} {sub : BitVec 8} {i : Instr} {s : State} (hsite : s.cur.site = 240) (hs : Supplied s r.ctl [0])
    (hf : trapRecBad r sub 0 = false)
include hsite hs hf

/-- An FTAKE of an empty mailbox. -/
theorem takeFire_empty (hnone : takeEntry s s.cur.p = none) (hearly : s.cur.late = false) : takeFire r sub i s = .next (
    if sub = 1 ∨ sub = 2 then faultCur s s.cur cILLEGAL 0 else emitRes s s.cur (formS r) 7 (both (entryVal s.cur none))) := by
  rw [takeFire, if_neg (fun hn => hn hsite), sFire_supplied hs hf (.inl rfl)]
  simp only [hnone, hearly, Bool.false_eq_true, if_false]

section
variable {k : Nat} {e : MbEntry} (he : takeEntry s s.cur.p = some (k, e))
include he

theorem takeFire_late (hlate : s.cur.late = true) : takeFire r sub i s = .next (takeAtCommit r s s.cur.p e) := by
  rw [takeFire, if_neg (fun hn => hn hsite), sFire_supplied hs hf (.inl rfl)]
  simp only [he, hlate, if_true]

/-- An FTAKE at its firing: a SUB of a chain takes an entry of a chain. -/
theorem takeFire_early (hearly : s.cur.late = false) : takeFire r sub i s = .next (
    if (sub = 1 ∨ sub = 2) ∧ !e.chain then faultCur s s.cur cILLEGAL 0
    else if sub = 3 then emitRes s s.cur (formS r) 7 (both (entryVal s.cur (some e)))
    else if inBlock (emitRes s s.cur (formS r) 7 (both (entryVal s.cur (some e)))) then
      onBlock (holdEff (emitRes s s.cur (formS r) 7 (both (entryVal s.cur (some e)))) i) s.cur.p (fun b => { b with claims := b.claims ++ [k] })
    else takeAtCommit r (emitRes s s.cur (formS r) 7 (both (entryVal s.cur (some e)))) s.cur.p e) := by
  rw [takeFire, if_neg (fun hn => hn hsite), sFire_supplied hs hf (.inl rfl)]
  simp only [he, hearly, Bool.false_eq_true, if_false]

end
end

/-- The FTAKEs by their SUB. -/
theorem exec_ftake_of {r : RecS} {s : State} {i : Instr} (h : (i = .ftake r ∧ r.sub = 0) ∨ (i = .ftakeRetry r ∧ r.sub = 1) ∨
    (i = .ftakeDiscard r ∧ r.sub = 2) ∨ (i = .ftakePeek r ∧ r.sub = 3)) : exec i s = takeFire r r.sub i s := by
  rcases h with ⟨rfl, h⟩ | ⟨rfl, h⟩ | ⟨rfl, h⟩ | ⟨rfl, h⟩
  · rw [exec_ftake, execFtake, h]
  · rw [exec_ftakeRetry, execFtakeRetry, h]
  · rw [exec_ftakeDiscard, execFtakeDiscard, h]
  · rw [exec_ftakePeek, execFtakePeek, h]

theorem mailboxesAreTaken : MailboxesAreTaken := by
  intro r s i hcf hobj hctl hsite hs hi c emit chained
  have hf : trapRecBad r r.sub 0 = false := trapRecBad_eq_false rfl hcf hctl (by rw [hobj]; decide)
  rw [exec_ftake_of hi]
  refine ⟨fun hnone hearly hch => ?_, fun hnone hearly hch => ?_, fun k e he => ⟨fun hearly hch hno => ?_, fun hpeek hearly => ?_,
    fun b hpeek hch hb => ?_, fun hlate => ?_⟩⟩
  · rw [takeFire_empty hsite hs hf hnone hearly, if_pos hch]
  · rw [takeFire_empty hsite hs hf hnone hearly, if_neg hch]
  · rw [takeFire_early hsite hs hf he hearly, if_pos ⟨hch, by rw [hno]; rfl⟩]
  · have hch : ¬ ((r.sub = 1 ∨ r.sub = 2) ∧ (!e.chain) = true) := by
      rw [hpeek]
      exact fun h => absurd h.1 (by decide)
    rw [takeFire_early hsite hs hf he hearly, if_neg hch, if_pos hpeek]
  · have hok : ¬ ((r.sub = 1 ∨ r.sub = 2) ∧ (!e.chain) = true) := by
      rintro ⟨h, hno⟩
      rw [hch h] at hno
      exact Bool.false_ne_true hno
    rw [takeFire_early hsite hs hf he hb.2.1, if_neg hok, if_neg hpeek,
      if_pos (inBlock_of_sends (emitRes_onlySends s s.cur _ _ _) (inBlock_of hb))]
  · rw [takeFire_late hsite hs hf he hlate, takeAtCommit]
    refine ⟨fun h => ?_, fun h => ?_, fun h => ?_⟩
    · rw [h, if_neg (by decide), if_neg (by decide)]
    · rw [if_pos h]
    · rw [h, if_neg (by decide), if_pos rfl]

/-! ## PTEST (20 R402) -/

/-- What a PTEST sends. -/
def ptestSends (c : Cur) (r : RecN) : List Send :=
  destSends r.d0 r.ctl.emit0 (curPoison c) (portTok c 0).poison false (passVal r.ctl c (portTok c 0)) (some (passVal r.ctl c (portTok c 0))) ++
    (if r.hi.getLsbD 1 then destSends r.d1 r.ctl.emit1 false (portTok c 0).poison false (passVal r.ctl c (portTok c 0))
      (some { tag := c.tag, ty := 6, lanes := [BitVec.ofNat 32 (b2n (portTok c 0).poison)] })
     else destSends r.d1 r.ctl.emit1 (curPoison c) (portTok c 0).poison false (passVal r.ctl c (portTok c 0))
      (some (passVal r.ctl c (portTok c 0))))

theorem poisonIsTested : PoisonIsTested := by
  intro r s hhi hfmt hcf hlit hctl hports hblock hnull hpred c a v flag xs report
  have hxs : xs = ptestSends c r := by
    have hflag : flag = { tag := c.tag, ty := 6, lanes := [BitVec.ofNat 32 (b2n a.poison)] } := by
      cases hp : a.poison <;> simp only [flag, hp] <;> rfl
    cases hbit : r.hi.getLsbD 1 <;> simp only [xs, ptestSends, hbit, hflag] <;> rfl
  have hgo : exec (.ptest r) s = if c.late then .next (post s report)
      else if xs.any (tooWide s c) then .next (faultCur s c cILLEGAL 0)
      else .next (sends (if r.hi.getLsbD 0 ∧ a.poison then (if inBlock s then holdEff s (.ptest r) else post s report) else s) c xs) := by
    rw [exec_ptest, hxs]
    simp only [execPtest, hports, Nat.div_eq_of_lt hhi, hfmt, hcf, hlit, hctl, hblock, hnull, hpred, bne_self_eq_false, Bool.not_true, Bool.or_self,
      Bool.false_eq_true, if_false]
    rfl
  rw [hgo]
  refine ⟨fun hlate => if_pos hlate, fun hearly hok => ?_⟩
  rw [if_neg (Bool.eq_false_iff.1 hearly), if_neg (Bool.eq_false_iff.1 hok)]
  refine ⟨fun hquiet => ?_, fun hp hbit => ⟨fun b hb => ?_, fun hsite => ?_⟩⟩
  · rw [if_neg]
    rintro ⟨hbit, hp⟩
    exact hquiet.elim (fun h => Bool.false_ne_true (h.symm.trans hp)) (fun h => Bool.false_ne_true (h.symm.trans hbit))
  · rw [if_pos ⟨hbit, hp⟩, if_pos (inBlock_of hb), holdEff_of hb]
  · have hout : ¬ inBlock s = true := by
      rw [inBlock, beq_eq_false_iff_ne.2 hsite]
      exact Bool.false_ne_true
    rw [if_pos ⟨hbit, hp⟩, if_neg hout]

/-- Settles O55: TRAP, TRET, FTAKE and PTEST do as files 20 says. -/
theorem trapRecords : Obligations.TrapRecords := ⟨trapAndReturn, mailboxesAreTaken, poisonIsTested⟩

end Sys2Proof.Proofs
end

section
/-!
PROOF. LSTAT and LCTL (19 R376, R378, R380, R390).
-/
namespace Sys2Proof.Proofs
open Sys2Proof.Machine Sys2Proof.Safety Sys2Proof.Claims

/-! ## Fields and causes -/

theorem linkRecBad_eq_false {r : RecS} {sub : BitVec 8} (hcf : r.cf = 0) (hsub : r.sub = sub) (hobj : bits r.obj.toNat 31 8 = 0) :
    linkRecBad r sub = false := by
  rw [linkRecBad, hcf, hsub, hobj, bne_self_eq_false]
  rfl

theorem linkBad_eq_false {r : RecS} {sub : BitVec 8} (hcf : r.cf = 0) (hsub : r.sub = sub) (hobj : bits r.obj.toNat 31 8 = 0)
    (hl : bits r.obj.toNat 7 0 ≤ 27) : (linkRecBad r sub || decide (27 < objLink r)) = false := by
  rw [linkRecBad_eq_false hcf hsub hobj, Bool.false_or]
  exact decide_eq_false (Nat.not_lt.2 hl)

theorem linkBad_eq_true {r : RecS} {sub : BitVec 8} (hl : 27 < bits r.obj.toNat 7 0) :
    (linkRecBad r sub || decide (27 < objLink r)) = true := by
  rw [show decide (27 < objLink r) = true from decide_eq_true hl, Bool.or_true]

theorem tableBad_eq_false {r : RecS} {sub : BitVec 8} (hcf : r.cf = 0) (hsub : r.sub = sub) (hobj : r.obj = 0) :
    (linkRecBad r sub || r.obj != 0) = false := by
  rw [linkRecBad_eq_false hcf hsub (by rw [hobj]; decide), hobj, bne_self_eq_false, Bool.or_self]

section
variable {s : State} {c : Cur}

theorem lctlCause_hyper (h : privOf s (matchCtx s c.p c.plane c.tag) = 2) : lctlCause s c = none := if_pos h

theorem lctlCause_other (h : privOf s (matchCtx s c.p c.plane c.tag) ≠ 2) : lctlCause s c = some cPERMISSION := if_neg h

theorem routeCause_other (h : privOf s (matchCtx s c.p c.plane c.tag) ≠ 2) : routeCause s c = some cPERMISSION := by
  simp only [routeCause, lctlCause_other h]

theorem ownCause_other (h : privOf s (matchCtx s c.p c.plane c.tag) ≠ 2) : ownCause s c = some cPERMISSION := by
  simp only [ownCause, lctlCause_other h]

theorem routeCause_hyper (h : privOf s (matchCtx s c.p c.plane c.tag) = 2) : routeCause s c =
    if 1152 ≤ routeDev c ∨ ¬ (isPort (routeLink c) = true ∨ routeLink c = 0xFF) ∨ (routeDev c = s.owndev.toNat ∧ routeLink c ≠ 0xFF)
      then some cILLEGAL else none := by
  have hlink : (!(isPort (routeLink c) || routeLink c == 0xFF)) = true ↔ ¬ (isPort (routeLink c) = true ∨ routeLink c = 0xFF) := by
    rw [Bool.not_eq_true', Bool.eq_false_iff, Ne, Bool.or_eq_true, beq_iff_eq]
  simp only [routeCause, lctlCause_hyper h, hlink]

theorem ownCause_hyper (h : privOf s (matchCtx s c.p c.plane c.tag) = 2) : ownCause s c =
    if (1152 ≤ laneN (portTok c 0).lanes 0 ∧ laneN (portTok c 0).lanes 0 ≠ 0xFFF) ∨ (routeOf s (laneN (portTok c 0).lanes 0)).isSome = true
      then some cILLEGAL else none := by
  simp only [ownCause, lctlCause_hyper h]

end

/-- What an LCTL that names a link does. -/
structure LinkAction where
  sub : BitVec 8
  instr : RecS → Instr
  ok : State → Nat → Bool
  act : State → Nat → State

/-- The LCTLs that name a link. -/
def linkActions : List LinkAction :=
  [⟨1, .lctlTrain, fun s l => (linkAt s l).state == 0, linkTrain⟩, ⟨2, .lctlDown, mayLeave, linkDown⟩, ⟨3, .lctlReset, mayLeave, linkReset⟩,
    ⟨5, .lctlClearCounters, fun _ _ => true, fun s l => setLink s l { linkAt s l with fails := 0, stale := 0, replays := 0, resets := 0 }⟩]

/-- Each of them is the one shared operation. -/
theorem exec_linkAction {x : LinkAction} (hx : x ∈ linkActions) (r : RecS) (s : State) :
    exec (x.instr r) s = lctlLink r x.sub (x.instr r) s x.ok x.act := by
  simp only [linkActions, List.mem_cons, List.not_mem_nil, or_false] at hx
  rcases hx with rfl | rfl | rfl | rfl
  · exact exec_lctlTrain r s
  · exact exec_lctlDown r s
  · exact exec_lctlReset r s
  · exact exec_lctlClearCounters r s

section
variable {r : RecS} {s : State} {sub : BitVec 8} {i : Instr} {ok : State → Nat → Bool} {act : State → Nat → State}
  (hcf : r.cf = 0) (hat : AtScribe s r) (hsub : r.sub = sub) (hobj : bits r.obj.toNat 31 8 = 0)
include hat

theorem lctlLink_beyond (hl : 27 < bits r.obj.toNat 7 0) : lctlLink r sub i s ok act = .next (faultCur s s.cur cILLEGAL 0) :=
  sAct_bad hat (linkBad_eq_true hl)

include hcf hsub hobj

theorem lctlLink_other (hl : bits r.obj.toNat 7 0 ≤ 27) (h : privOf s (matchCtx s s.cur.p s.cur.plane s.cur.tag) ≠ 2) :
    lctlLink r sub i s ok act = .next (faultCur s s.cur cPERMISSION 0) :=
  sAct_fault hat (linkBad_eq_false hcf hsub hobj hl) (lctlCause_other h)

theorem lctlLink_held (hl : bits r.obj.toNat 7 0 ≤ 27) (h : privOf s (matchCtx s s.cur.p s.cur.plane s.cur.tag) = 2) {b : Block}
    (hb : InBlock s b) : lctlLink r sub i s ok act = .next (held s b i) :=
  sAct_held hat (linkBad_eq_false hcf hsub hobj hl) hb (lctlCause_hyper h)

/-- At commit it acts, or is REFUSED. -/
theorem lctlLink_late (hl : bits r.obj.toNat 7 0 ≤ 27) (h : privOf s (matchCtx s s.cur.p s.cur.plane s.cur.tag) = 2)
    (hlate : s.cur.late = true) : lctlLink r sub i s ok act = .next (
      if bits r.obj.toNat 7 0 = 27 ∨ ok s (bits r.obj.toNat 7 0) = false then lctlSays s s.cur r 2
      else lctlSays (act s (bits r.obj.toNat 7 0)) s.cur r 0) := by
  refine (sAct_late hat (linkBad_eq_false hcf hsub hobj hl) hlate (lctlCause_hyper h)).trans (congrArg _ ?_)
  simp only [isHostPort, beq_iff_eq, Bool.not_eq_true']
  rfl

end

/-! ## Routes and the own number (19 R380, R416) -/

/-- An ask is written at once when none of its numbers is in use. -/
theorem routesGo_free {s : State} {a : RouteAsk} (h : ∀ d ∈ askDevs s a, devBusy s d = false) (hnone : s.routeAsks = []) :
    routesGo { s with routeAsks := s.routeAsks ++ [a] } = routeWrite s a := by
  have hfree : ¬ (askDevs s a).any (devBusy s) = true := by
    rw [Bool.not_eq_true, List.any_eq_false]
    exact fun d hd => Bool.eq_false_iff.1 (h d hd)
  have hs : { s with routeAsks := [] } = s := by
    rw [← hnone]
  rw [routesGo, hnone]
  show (if (askDevs { s with routeAsks := [] } a).any (devBusy { s with routeAsks := [] }) = true then _ else
    routeWrite { s with routeAsks := [] } a) = _
  rw [hs, if_neg hfree]

/-- It waits while one is. -/
theorem routesGo_busy {s : State} {a : RouteAsk} {d : Nat} (hd : d ∈ askDevs s a) (h : devBusy s d = true) (hnone : s.routeAsks = []) :
    routesGo { s with routeAsks := s.routeAsks ++ [a] } = { s with routeAsks := [a] } := by
  have hbusy : (askDevs s a).any (devBusy s) = true := List.any_eq_true.2 ⟨d, hd, h⟩
  have hs : { s with routeAsks := [] } = s := by
    rw [← hnone]
  rw [routesGo, hnone]
  show (if (askDevs { s with routeAsks := [] } a).any (devBusy { s with routeAsks := [] }) = true then
    { s with routeAsks := [] ++ [a] } else _) = _
  rw [hs, if_pos hbusy]
  rfl

/-- The numbers of an ask are its own or the two of a changed own number. -/
theorem mem_askDevs {s : State} {a : RouteAsk} {d : Nat} : d ∈ askDevs s a ↔
    (if a.own = true then d = s.owndev.toNat ∨ d = a.val else d = a.dev) ∧ d ≠ 0xFFF := by
  cases h : a.own <;> simp [askDevs, h]

theorem linkRecordsAreHeld : LinkRecordsAreHeld := by
  intro r s hcf hat c hyper l numbered v port
  refine ⟨fun x hx hsub hobj => ?_, fun hsub hobj hl b hb => ?_, fun hsub hobj => ?_, fun hsub hobj => ?_⟩
  · obtain ⟨y, hy, hxy⟩ : ∃ y ∈ linkActions, x = (y.sub, y.instr r) := by
      obtain ⟨y, hy, h⟩ := List.mem_map.1 (show x ∈ linkActions.map (fun y => (y.sub, y.instr r)) from hx)
      exact ⟨y, hy, h.symm⟩
    subst hxy
    rw [exec_linkAction hy]
    exact ⟨lctlLink_beyond hat, lctlLink_other hcf hat hsub hobj, fun b hl h hb => lctlLink_held hcf hat hsub hobj hl h hb⟩
  · exact (exec_lstat r s).trans (sAct_held hat (linkBad_eq_false hcf hsub hobj hl) hb rfl)
  · intro wrong
    refine ⟨fun h => ?_, fun h hw => ?_, fun b h hw hb => ?_⟩
    · exact (exec_lctlRoute r s).trans (sAct_fault hat (tableBad_eq_false hcf hsub hobj) (routeCause_other h))
    · exact (exec_lctlRoute r s).trans (sAct_fault hat (tableBad_eq_false hcf hsub hobj) ((routeCause_hyper h).trans (if_pos hw)))
    · exact (exec_lctlRoute r s).trans (sAct_held hat (tableBad_eq_false hcf hsub hobj) hb ((routeCause_hyper h).trans (if_neg hw)))
  · intro wrong
    refine ⟨fun h => ?_, fun h hw => ?_, fun b h hw hb => ?_⟩
    · exact (exec_lctlOwnNumber r s).trans (sAct_fault hat (tableBad_eq_false hcf hsub hobj) (ownCause_other h))
    · exact (exec_lctlOwnNumber r s).trans (sAct_fault hat (tableBad_eq_false hcf hsub hobj) ((ownCause_hyper h).trans (if_pos hw)))
    · exact (exec_lctlOwnNumber r s).trans (sAct_held hat (tableBad_eq_false hcf hsub hobj) hb ((ownCause_hyper h).trans (if_neg hw)))

theorem mayLeave_eq_false {s : State} {l : Nat} : mayLeave s l = false ↔
    (linkAt s l).state ≠ 2 ∨ (isDieLink l = true ∧ residentOn s (dieLinkEnds l) = true) := by
  rw [mayLeave, Bool.and_eq_false_iff, beq_eq_false_iff_ne, Bool.not_eq_false', Bool.and_eq_true]

theorem linkRecordsTakeEffect : LinkRecordsTakeEffect := by
  intro r s hcf hat hlate c hyper l x v port answer stays
  refine ⟨fun hobj hl => ⟨fun hsub => ?_, fun h => ?_⟩, fun h hobj hnone => ⟨fun hsub hv hport hown => ?_, fun hsub hv hroute hbo hbv => ?_⟩⟩
  · exact (exec_lstat r s).trans (sAct_late hat (linkBad_eq_false hcf hsub hobj hl) hlate rfl)
  · have htrain : r.sub = 1 → exec (.lctlTrain r) s = .next (if l = 27 ∨ (x.state == 0) = false then lctlSays s c r 2 else
        lctlSays (linkTrain s l) c r 0) := fun hsub => (exec_lctlTrain r s).trans (lctlLink_late hcf hat hsub hobj hl h hlate)
    have hdown : r.sub = 2 → exec (.lctlDown r) s = .next (if l = 27 ∨ mayLeave s l = false then lctlSays s c r 2 else
        lctlSays (linkDown s l) c r 0) := fun hsub => (exec_lctlDown r s).trans (lctlLink_late hcf hat hsub hobj hl h hlate)
    have hreset : r.sub = 3 → exec (.lctlReset r) s = .next (if l = 27 ∨ mayLeave s l = false then lctlSays s c r 2 else
        lctlSays (linkReset s l) c r 0) := fun hsub => (exec_lctlReset r s).trans (lctlLink_late hcf hat hsub hobj hl h hlate)
    have hclear : r.sub = 5 → exec (.lctlClearCounters r) s = .next (if l = 27 ∨ true = false then lctlSays s c r 2 else
        lctlSays (setLink s l { x with fails := 0, stale := 0, replays := 0, resets := 0 }) c r 0) :=
      fun hsub => (exec_lctlClearCounters r s).trans (lctlLink_late hcf hat hsub hobj hl h hlate)
    have hstays : l ≠ 27 → x.state = 2 → ¬ stays → ¬ (l = 27 ∨ mayLeave s l = false) := fun hport hup hgo hor =>
      hor.elim hport (fun hm => (mayLeave_eq_false.1 hm).elim (fun hn => hn hup) hgo)
    refine ⟨fun hsub hor => ?_, fun hsub hport hst => ?_, fun hsub hor => ?_, fun hsub hport hup hgo => ?_, fun hsub hor => ?_,
      fun hsub hport hup hgo => ?_, fun hsub hport => ?_, fun hsub hport => ?_⟩
    · exact (htrain hsub).trans (congrArg _ (if_pos (hor.imp id beq_eq_false_iff_ne.2)))
    · exact (htrain hsub).trans (congrArg _ (if_neg (fun hor => hor.elim hport (fun hn => beq_eq_false_iff_ne.1 hn hst))))
    · exact (hdown hsub).trans (congrArg _ (if_pos (hor.imp id mayLeave_eq_false.2)))
    · exact (hdown hsub).trans (congrArg _ (if_neg (hstays hport hup hgo)))
    · exact (hreset hsub).trans (congrArg _ (if_pos (hor.imp id mayLeave_eq_false.2)))
    · exact (hreset hsub).trans (congrArg _ (if_neg (hstays hport hup hgo)))
    · exact (hclear hsub).trans (congrArg _ (if_pos (.inl hport)))
    · exact (hclear hsub).trans (congrArg _ (if_neg (fun hor => hor.elim hport (fun hn => absurd hn (by decide)))))
  · have hgo : exec (.lctlRoute r) s = .next (routesGo { s with routeAsks := s.routeAsks ++
        [{ cur := c, r := r, dev := v, val := port, own := false }] }) := by
      refine (exec_lctlRoute r s).trans (sAct_late hat (tableBad_eq_false hcf hsub hobj) hlate ((routeCause_hyper h).trans (if_neg ?_)))
      rintro (hw | hw | ⟨hw, hp⟩)
      · exact Nat.not_le.2 hv hw
      · exact hw hport
      · exact hown.elim (fun hn => hn hw) hp
    rw [hgo]
    have hdev : ∀ d, d ∈ askDevs s { cur := c, r := r, dev := v, val := port, own := false } ↔ d = v := fun d =>
      mem_askDevs.trans (and_iff_left_of_imp (fun hd => ne_of_lt (lt_of_eq_of_lt (show d = v from hd) (lt_trans hv (by decide)))))
    exact ⟨fun hbusy => congrArg _ (routesGo_busy ((hdev v).2 rfl) hbusy hnone),
      fun hfree => congrArg _ (routesGo_free (fun d hd => (hdev d).1 hd ▸ hfree) hnone)⟩
  · have hgo : exec (.lctlOwnNumber r) s = .next (routesGo { s with routeAsks := s.routeAsks ++
        [{ cur := c, r := r, dev := 0, val := v, own := true }] }) := by
      refine (exec_lctlOwnNumber r s).trans (sAct_late hat (tableBad_eq_false hcf hsub hobj) hlate ((ownCause_hyper h).trans (if_neg ?_)))
      rintro (⟨hw, hn⟩ | hw)
      · exact hv.elim (fun hv => Nat.not_le.2 hv hw) hn
      · rw [hroute] at hw
        exact Bool.false_ne_true hw
    rw [hgo]
    refine congrArg _ (routesGo_free (fun d hd => ?_) hnone)
    rcases (mem_askDevs.1 hd).1 with rfl | rfl
    · exact hbo
    · exact hbv

/-- Settles O56: the link records do as file 19 says. -/
theorem linkRecords : Obligations.LinkRecords := ⟨linkRecordsAreHeld, linkRecordsTakeEffect⟩

end Sys2Proof.Proofs
end

section
/-!
PROOF. Flits, link states and host requests (19 R374 to R380, R417; 14 R302; 20 R400).
-/
namespace Sys2Proof.Proofs
open Sys2Proof.Machine Sys2Proof.Safety Sys2Proof.Claims

/-! ## The kinds of links (19 R373) -/

theorem isPort_dieLink {l : Nat} (h : isDieLink l = true) : isPort l = false := by
  have hl : l < 3 := of_decide_eq_true h
  rw [isPort, decide_eq_false (by omega), Bool.false_and]

theorem isHostPort_dieLink {l : Nat} (h : isDieLink l = true) : isHostPort l = false :=
  beq_eq_false_iff_ne.2 (fun he => absurd (he ▸ h) (by decide))

theorem lt_of_isPort {l : Nat} (h : isPort l = true) : l < 27 := of_decide_eq_true (Bool.and_eq_true_iff.1 h).2

/-- A die link holds nothing that its leaving UP ends. -/
theorem leavesUp_dieLink (s : State) {l : Nat} (h : isDieLink l = true) : leavesUp s l = s := by
  rw [leavesUp, isPort_dieLink h, isHostPort_dieLink h]
  rfl

theorem leavesUp_hostPort (s : State) : leavesUp s 27 = hostLeaves s := rfl

/-! ## Flits (19 R374, R375, R377) -/

/-- A flit at an UP link that nothing blocks. -/
theorem exec_flitReceive_of {s : State} (hl : s.sel.link < 27) (hup : (linkAt s s.sel.link).state = 2)
    (hfree : linkBlocked s s.sel.link = false) : exec .flitReceive s =
      if s.sel.flit.crcOk = false then .next (crcFail s s.sel.link)
      else if s.sel.flit.inc ≠ (linkAt s s.sel.link).inc then .next (setLink s s.sel.link
        { linkAt s s.sel.link with bad := 0, stale := satBits 32 ((linkAt s s.sel.link).stale + 1) })
      else if isDieLink s.sel.link = true then .next (setLink s s.sel.link { linkAt s s.sel.link with bad := 0 })
      else .next (deliverFlit (setLink s s.sel.link { linkAt s s.sel.link with bad := 0 }) s.sel.link s.sel.flit) := by
  rw [exec_flitReceive]
  simp only [execFlitReceive, hup, hfree, Nat.not_le.2 hl, ne_eq, not_true_eq_false, Bool.false_eq_true, or_self, if_false,
    Bool.not_eq_true']

/-- A request to another part is asked after. -/
theorem exec_responseTimeout_of {s : State} {m : Remote} (hm : s.remotes[s.sel.k]? = some m) : exec .responseTimeout s =
    if s.cycle < m.sent + 2 ^ 20 ∨ m.ans.isSome = true then .refused .notEnabled
    else .next (m.req.elim { s with remotes := dropAt s.remotes s.sel.k } (staleReq { s with remotes := dropAt s.remotes s.sel.k })) := by
  rw [exec_responseTimeout]
  simp only [execResponseTimeout, hm]
  cases m.req <;> rfl

theorem flitsAreReceived : FlitsAreReceived := by
  intro s l x k
  refine ⟨fun hl hup hfree => ?_, fun hdown => ?_, fun m hm => ?_⟩
  · rw [exec_flitReceive_of hl hup hfree]
    refine ⟨fun hcrc hbad => ?_, fun hcrc hbad hport => ?_, fun hcrc hbad hport => ?_, fun hcrc hinc => ?_, fun hcrc hinc hdie => ?_,
      fun hcrc hinc hdie => ?_⟩
    · rw [if_pos hcrc, crcFail, if_pos hbad]
    · rw [if_pos hcrc, crcFail, if_neg (Nat.not_lt.2 hbad), if_pos hport]
    · rw [if_pos hcrc, crcFail, if_neg (Nat.not_lt.2 hbad), if_neg (Bool.eq_false_iff.1 hport)]
    all_goals have hok : ¬ x.crcOk = false := fun h => Bool.false_ne_true (h.symm.trans hcrc)
    · exact (if_neg hok).trans (if_pos hinc)
    · exact (if_neg hok).trans ((if_neg (fun h => h hinc)).trans (if_pos hdie))
    · exact (if_neg hok).trans ((if_neg (fun h => h hinc)).trans (if_neg (Bool.eq_false_iff.1 hdie)))
  · exact (exec_flitReceive s).trans (if_pos (.inr (.inl hdown)))
  · rw [exec_responseTimeout_of hm]
    refine ⟨fun hearly => if_pos hearly, fun q hold hans hreq => ?_⟩
    rw [if_neg, hreq]
    · rfl
    · rintro (h | h)
      · exact Nat.not_lt.2 hold h
      · rw [hans] at h
        exact Bool.false_ne_true h

/-! ## States of links (19 R376 to R379) -/

theorem lanesOk_of {l n : Nat} (hn : n < 64) (hport : isPort l = true → n = 8) (hhost : l = 27 → n = 8 ∨ n = 16) : lanesOk l n = true := by
  rw [lanesOk]
  by_cases hp : isPort l = true
  · rw [if_pos hp, beq_iff_eq]
    exact hport hp
  · by_cases hh : isHostPort l = true
    · rw [if_neg hp, if_pos hh, Bool.or_eq_true, beq_iff_eq, beq_iff_eq]
      exact hhost (beq_iff_eq.1 hh)
    · rw [if_neg hp, if_neg hh]
      exact decide_eq_true hn

/-- The failure of a die link that has had nine CRC errors in a row. -/
theorem exec_dieLinkFailure_of {s : State} (hdie : isDieLink s.sel.link = true) (hup : (linkAt s s.sel.link).state = 2)
    (hbad : 9 ≤ (linkAt s s.sel.link).bad) : exec .dieLinkFailure s =
      if (!(freezable s).isEmpty) = true then .next (lifeAdd (freezeAll s) 10 s.sel.link 1)
      else if freezing s = true then .refused .notEnabled else .next (linkReset s s.sel.link) := by
  rw [exec_dieLinkFailure]
  simp only [execDieLinkFailure, hdie, hup, Nat.not_lt.2 hbad, Bool.not_true, Bool.false_eq_true, ne_eq, not_true_eq_false, or_self, if_false]
  rfl

theorem linksChangeState : LinksChangeState := by
  intro s l x
  have hin : l < 28 → ∀ n, x.state = n → ¬ (28 ≤ l ∨ x.state ≠ n) := fun hl n hst h => h.elim (Nat.not_le.2 hl) (fun hn => hn hst)
  refine ⟨fun hl hst hn hport hhost => ?_, fun hl hst => ?_, fun hl hst => ?_, fun hl hst => ?_, fun hp hst => ?_, fun hst => ?_,
    fun hdie hst hbad => ?_, fun hdie hbad => ?_⟩
  · refine (exec_trainingComplete s).trans (if_neg ?_)
    rintro (h | h | h)
    · exact Nat.not_le.2 hl h
    · exact h hst
    · rw [lanesOk_of hn hport hhost] at h
      exact Bool.false_ne_true h
  · exact (exec_trainingFail s).trans (if_neg (hin hl 1 hst))
  · exact (exec_resettingDrained s).trans (if_neg (hin hl 3 hst))
  · exact (exec_peerResetSeen s).trans (if_neg (hin hl 2 hst))
  · refine (exec_linkLeavesUp s).trans (if_neg ?_)
    rw [show isPort s.sel.link = true from hp]
    exact fun h => h.elim Bool.false_ne_true (fun hn => hn hst)
  · refine (exec_hostPortDown s).trans ((if_neg (fun hn => hn hst)).trans (congrArg _ ?_))
    cases s.sel.ok
    · exact leavesUp_hostPort _
    · exact leavesUp_hostPort _
  · rw [exec_dieLinkFailure_of hdie hst hbad]
    have hnone : freezable s = [] → ¬ (!(freezable s).isEmpty) = true := by
      intro h
      rw [h]
      exact Bool.false_ne_true
    refine ⟨fun hsome => if_pos ?_, fun h hf => (if_neg (hnone h)).trans (if_pos hf), fun h hf => ?_⟩
    · rw [Bool.not_eq_true', List.isEmpty_eq_false_iff]
      exact hsome
    · exact (if_neg (hnone h)).trans ((if_neg (Bool.eq_false_iff.1 hf)).trans (congrArg _ (leavesUp_dieLink _ hdie)))
  · exact (exec_dieLinkFailure s).trans (if_pos (.inr (.inr hbad)))

/-! ## The host's memory port (19 R417) -/

section
variable {s : State} (hfn : s.sel.req.fn < 65)
include hfn

/-- A host write of a function, whole. -/
theorem exec_hostWrite {bs : List Byte} (hbs : s.sel.req.bytes = some bs) (hlen : bs.length = s.sel.req.len) : exec .hostMemRequest s = .next (
    (windowOf s s.sel.req).elim (if hostServed s s.sel.req then hostStore s s.sel.req bs else s) (fun w =>
      if reachesWindow s s.sel.req.fn w.1 then windowStore s s.sel.req.fn w.1 w.2 bs else s)) := by
  rw [exec_hostMemRequest]
  simp only [execHostMemRequest, hbs, hlen, Nat.not_le.2 hfn, bne_self_eq_false, Bool.false_eq_true, or_self, if_false]
  cases windowOf s s.sel.req <;> rfl

/-- A host read of a function. -/
theorem exec_hostRead (hbs : s.sel.req.bytes = none) : exec .hostMemRequest s = .next (
    (windowOf s s.sel.req).elim (if hostServed s s.sel.req then hostLoad s s.sel.req
      else hostAnswer s s.sel.req (List.replicate s.sel.req.len 0) true) (fun w =>
      if reachesWindow s s.sel.req.fn w.1 then hostAnswer s s.sel.req (windowBytes s w.1 w.2 s.sel.req.len) false
      else hostAnswer s s.sel.req (List.replicate s.sel.req.len 0) true)) := by
  rw [exec_hostMemRequest]
  simp only [execHostMemRequest, hbs, Nat.not_le.2 hfn, Bool.false_eq_true, or_self, if_false]
  cases windowOf s s.sel.req with
  | none => exact (apply_ite _ _ _ _).symm
  | some w => rfl

end

theorem hostRequestsAreServed : HostRequestsAreServed := by
  intro s hfn x refused
  refine ⟨fun bs hbs hlen => ?_, fun hbs => ?_, fun h => (exec_hdmDecoderWrite s).trans (if_neg (Nat.not_le.2 h))⟩
  · rw [exec_hostWrite hfn hbs hlen]
    refine ⟨fun q off hw => ?_, fun hw => ?_⟩
    · rw [show windowOf s s.sel.req = some (q, off) from hw]
      exact ⟨fun h => congrArg _ (if_pos h), fun h => congrArg _ (if_neg (Bool.eq_false_iff.1 h))⟩
    · rw [show windowOf s s.sel.req = none from hw]
      exact ⟨fun h => congrArg _ (if_pos h), fun h => congrArg _ (if_neg (Bool.eq_false_iff.1 h))⟩
  · rw [exec_hostRead hfn hbs]
    refine ⟨fun q off hw => ?_, fun hw => ?_⟩
    · rw [show windowOf s s.sel.req = some (q, off) from hw]
      exact ⟨fun h => congrArg _ (if_pos h), fun h => congrArg _ (if_neg (Bool.eq_false_iff.1 h))⟩
    · rw [show windowOf s s.sel.req = none from hw]
      exact ⟨fun h => congrArg _ (if_pos h), fun h => congrArg _ (if_neg (Bool.eq_false_iff.1 h))⟩

/-- Settles O57: flits are received, links change state and host requests are served as file 19 says. -/
theorem linkEvents : Obligations.LinkEvents := ⟨flitsAreReceived, linksChangeState, hostRequestsAreServed⟩

end Sys2Proof.Proofs
end

section
/-!
PROOF. The management controller (26 R408 to R415; 01 R27).
-/
namespace Sys2Proof.Proofs
open Sys2Proof.Machine Sys2Proof.Safety Sys2Proof.Claims

/-! ## Supplies (26 R408, R409) -/

theorem suppliesBringTheDiesUp : SuppliesBringTheDiesUp := by
  intro s m
  have hon : m.standby = true → ¬ (!s.mgmt.standby) = true := by
    intro h
    rw [show s.mgmt.standby = true from h]
    exact Bool.false_ne_true
  have hmain : ∀ b, m.standby = true → m.main = b → ¬ ((!s.mgmt.standby) = true ∨ s.mgmt.main = !b) := by
    intro b h hb hor
    rw [show s.mgmt.main = b from hb] at hor
    exact hor.elim (hon h) (fun hn => by cases b <;> exact Bool.noConfusion hn)
  refine ⟨fun h => ⟨_, (exec_standbyPowerOn s).trans (if_neg (Bool.eq_false_iff.1 h)), rfl, rfl, rfl, rfl, rfl, rfl, rfl⟩,
    fun hs hm hf hr => ⟨dieRelease s, (exec_dieResetRelease s).trans (if_neg ?_), rfl, rfl, ?_⟩,
    fun h => (exec_dieResetRelease s).trans (if_pos ?_), fun h hm => (exec_mainPowerOn s).trans (if_neg (hmain false h hm)),
    fun h hm => ⟨_, (exec_mainPowerOff s).trans (if_neg ?_), rfl, rfl⟩,
    fun h => ⟨_, (exec_orderlyPowerDown s).trans (if_neg (hon h)), rfl, rfl⟩,
    fun h => ⟨_, (exec_standbyPowerLoss s).trans (if_neg (hon h)), rfl, rfl⟩⟩
  · simp only [show s.mgmt.standby = true from hs, show s.mgmt.main = true from hm, show s.mgmt.fwPass = true from hf,
      show s.mgmt.released = false from hr, Bool.not_true, Bool.false_eq_true, or_self, not_false_eq_true]
  · have hlinks : (dieRelease s).links = (dieRelease State.reset).links := rfl
    have htrained : ∀ l ∈ [0, 1, 2, 27], (tgetD (dieRelease State.reset).links l {}).state = 1 := by decide
    intro l hl
    rw [linkAt, hlinks]
    exact htrained l hl
  · simp only [Bool.not_eq_true']
    exact h
  · rw [show s.mgmt.main = true from hm]
    exact fun hor => hor.elim (hon h) Bool.false_ne_true

/-! ## Panels (26 R410, R411) -/

theorem panelsStartAndTest : PanelsStartAndTest := by
  intro s hp p pn
  have hin : ¬ 48 ≤ s.sel.p := Nat.not_le.2 hp
  refine ⟨fun hcyc hfuse hst => (exec_panelStart s).trans (if_neg ?_), fun hor => (exec_panelStart s).trans (if_pos (.inr (hor.imp id (fun h => .inl
      (congrArg Bool.not h))))), fun hst htest hfen hcyc => ?_⟩
  · simp only [hin, show s.cycle = 17500 * s.sel.p from hcyc, show s.mgmt.panelsFuse.getLsbD s.sel.p = true from hfuse,
      show (panelAt s s.sel.p).started = false from hst, ne_eq, not_true_eq_false, Bool.not_true, Bool.false_eq_true, or_self, not_false_eq_true]
  · have hgo : exec .selfTestComplete s = if s.sel.ok then .next (setPanel s p { pn with tested := true, tagged := true })
        else .next (lifeAdd (setPanel s p { pn with fenced := true }) 7 p 1) := by
      refine (exec_selfTestComplete s).trans (if_neg ?_)
      simp only [hin, show (panelAt s s.sel.p).started = true from hst, show (panelAt s s.sel.p).tested = false from htest,
        show (panelAt s s.sel.p).fenced = false from hfen, show ¬ (panelAt s s.sel.p).startCycle + 40000 < s.cycle from Nat.not_lt.2 hcyc,
        Bool.not_true, Bool.false_eq_true, or_self, not_false_eq_true]
    rw [hgo]
    exact ⟨fun h => if_pos h, fun h => if_neg (Bool.eq_false_iff.1 h)⟩

/-! ## The limiter (26 R412, R413) -/

theorem theLimiterSteps : TheLimiterSteps := by
  intro s hd die l ramp
  have hin : ¬ 3 ≤ s.sel.die := Nat.not_le.2 hd
  have hdue : l.lastStep + ramp ≤ s.cycle → ¬ (3 ≤ s.sel.die ∨ s.cycle < l.lastStep + ramp) := fun h hor =>
    hor.elim hin (Nat.not_lt.2 h)
  refine ⟨fun h => (exec_limiterStep s).trans (if_pos (.inr h)), fun hc hw => ?_, fun hc hw => ?_,
    fun hnum hceil hc => (exec_powerCeilingStep s).trans (if_neg ?_), fun h => (exec_powerCeilingStep s).trans (if_pos (.inr (.inl h)))⟩
  · have hgo := (exec_limiterStep s).trans ((if_neg (hdue hc)).trans (if_pos hw))
    refine ⟨fun hok hlow => hgo.trans (if_pos ⟨hok, hlow⟩), fun hor => hgo.trans (if_neg ?_)⟩
    rintro ⟨hok, hlow⟩
    exact hor.elim (fun h => Bool.false_ne_true (h.symm.trans hok)) (Nat.not_le.2 hlow)
  · have hgo := (exec_limiterStep s).trans ((if_neg (hdue hc)).trans (if_neg (Bool.eq_false_iff.1 hw)))
    refine ⟨fun hpass hduty => hgo.trans (if_pos ⟨hpass, hduty⟩), fun hor => hgo.trans (if_neg ?_)⟩
    rintro ⟨hpass, hduty⟩
    exact hor.elim (Nat.not_lt.2 hpass) (Nat.not_le.2 hduty)
  · rintro (h | h | h | h)
    · exact hin h
    · exact Nat.not_le.2 hnum h
    · exact hceil h
    · exact Nat.not_lt.2 hc h

/-! ## Requests (26 R414) -/

section
variable {s : State} (code : Nat) (ws : List Word64)

theorem serveMsg_takes (hon : s.mgmt.standby = true) (hfree : s.mgmt.serving = none) :
    serveMsg s code ws = .next { s with mgmt := { s.mgmt with serving := some (code, ws) } } := by
  rw [serveMsg, hon, hfree]
  rfl

theorem serveMsg_busy {x : Nat × List Word64} (h : s.mgmt.serving = some x) : serveMsg s code ws = .refused .notEnabled := by
  rw [serveMsg, h]
  exact if_pos (.inr rfl)

end

/-- A key changes the table of keys alone. -/
theorem addKey_keeps {m m' : Mgmt} {k : Word64} (h : addKey m k = some m') : m'.standby = m.standby ∧ m'.serving = m.serving := by
  rw [addKey] at h
  split at h
  · cases h
    exact ⟨rfl, rfl⟩
  · split at h
    · cases h
      exact ⟨rfl, rfl⟩
    · cases h

theorem mgmt_foldl {β : Type} {f : State → β → State} (hf : ∀ u x, (f u x).mgmt = u.mgmt) (l : List β) (s : State) :
    (l.foldl f s).mgmt = s.mgmt := by
  induction l generalizing s with
  | nil => rfl
  | cons x l ih => exact (ih (f s x)).trans (hf s x)

/-- Freezing a partition leaves the controller as it is. -/
theorem mgmt_freezeStart (s : State) (part : Nat) (clear : Bool) : (freezeStart s part clear).mgmt = s.mgmt := by
  rw [freezeStart]
  refine Eq.trans (mgmt_foldl (fun u x => ?_) _ _) (mgmt_foldl ?_ _ _)
  · split <;> rfl
  · exact fun u c => rfl

theorem mgmt_freezeAll (s : State) : (freezeAll s).mgmt = s.mgmt := mgmt_foldl (fun u k => mgmt_freezeStart u k false) _ _

theorem requestsAreServed : RequestsAreServed := by
  intro s hon m serve
  have hout : ∀ x, m.serving = some x → exec .mgmtBusy s = .next { s with out := s.out ++ [.mgmt s.sel.num [1]] } := by
    intro x hx
    refine (exec_mgmtBusy s).trans (if_neg ?_)
    rw [show s.mgmt.serving = some x from hx, hon]
    exact fun h => h.elim Bool.false_ne_true Bool.false_ne_true
  refine ⟨fun hfree => ?_, fun x hx => ⟨hout x hx, (exec_getIdentity s).trans (serveMsg_busy 1 _ hx), (exec_setPolicy s).trans ?_⟩⟩
  · have hserve : ∀ code ws, serveMsg s code ws = serve s code ws := fun code ws => serveMsg_takes code ws hon hfree
    have hnomain : m.main = false → ¬ s.mgmt.main = true := fun h => Bool.eq_false_iff.1 h
    have hoff : m.main = false → (!s.mgmt.main) = true := by
      intro h
      rw [show s.mgmt.main = false from h]
      rfl
    have hison : m.main = true → ¬ (!s.mgmt.main) = true := by
      intro h
      rw [show s.mgmt.main = true from h]
      exact Bool.false_ne_true
    have hsigned : s.sel.ok = true → ¬ (!s.sel.ok) = true := by
      intro h
      rw [h]
      exact Bool.false_ne_true
    refine ⟨(exec_getIdentity s).trans (hserve 1 _), (exec_getStatus s).trans (hserve 2 _), (exec_readCounters s).trans (hserve 3 _),
      fun hn => ?_, fun hn => ?_, fun hm => ?_, fun hm => ?_, fun hok => ?_, fun hok hm => ?_, fun hok hm => ⟨fun m' hadd => ?_, fun hadd => ?_⟩,
      (exec_attest s).trans (serveMsg_takes 7 _ hon hfree), fun hr hm => ?_, fun hr hm hrel => ?_⟩
    · exact (exec_readHistogram s).trans ((if_neg (Nat.not_le.2 hn)).trans (hserve 4 _))
    · exact (exec_readHistogram s).trans ((if_pos hn).trans (hserve 4 _))
    · exact (exec_setPolicy s).trans ((congrArg (fun g => serveMsg { s with mgmt := g } 5 [rspDone]) (if_pos hm)).trans
        (serveMsg_takes 5 _ hon hfree))
    · exact (exec_setPolicy s).trans ((congrArg (fun g => serveMsg { s with mgmt := g } 5 [rspDone]) (if_neg (hnomain hm))).trans
        (serveMsg_takes 5 _ hon hfree))
    · refine (exec_keyAdd s).trans ((if_pos ?_).trans (hserve 6 _))
      rw [hok]
      rfl
    · exact (exec_keyAdd s).trans ((if_neg (hsigned hok)).trans ((if_pos (hoff hm)).trans (serveMsg_takes 6 _ hon hfree)))
    · obtain ⟨hkeep, hkeep'⟩ := addKey_keeps hadd
      refine (exec_keyAdd s).trans ((if_neg (hsigned hok)).trans ((if_neg (hison hm)).trans ?_))
      rw [show addKey s.mgmt s.sel.v = some m' from hadd]
      exact serveMsg_takes 6 _ (hkeep.trans hon) (hkeep'.trans hfree)
    · refine (exec_keyAdd s).trans ((if_neg (hsigned hok)).trans ((if_neg (hison hm)).trans ?_))
      rw [show addKey s.mgmt s.sel.v = none from hadd]
      exact hserve 6 _
    · exact (exec_resetMain s).trans ((if_neg (Bool.eq_false_iff.1 hr)).trans ((if_pos (hoff hm)).trans (hserve 8 _)))
    · have hreleased : ¬ (!s.mgmt.released) = true := by
        rw [show s.mgmt.released = true from hrel]
        exact Bool.false_ne_true
      refine ⟨_, (exec_resetMain s).trans ((if_neg (Bool.eq_false_iff.1 hr)).trans ((if_neg (hison hm)).trans ((if_neg hreleased).trans
        (serveMsg_takes 8 _ ?_ ?_)))), rfl, rfl⟩
      · exact (congrArg Mgmt.standby (mgmt_freezeAll s)).trans hon
      · exact (congrArg Mgmt.serving (mgmt_freezeAll s)).trans hfree
  · refine serveMsg_busy 5 _ (x := x) ?_
    dsimp only
    split <;> exact hx

/-! ## Counters (26 R415) -/

/-- A sample that is due, with the sensors of the three dies alone. -/
theorem exec_histogramSample_of {s : State} {t0 t1 t2 : Nat} (hon : s.mgmt.standby = true) (hc : s.cycle % 2 ^ 20 = 0)
    (hnew : s.cycle ≠ s.mgmt.lastSample) (hnums : s.sel.nums = [t0, t1, t2]) (hk : s.sel.k = 0) : ∃ t, exec .histogramSample s = .next t ∧
      t.mgmt = { (lifeAdd (lifeAdd (lifeAdd (lifeAdd (lifeAdd s 8 (min 15 (t0 / 8)) 1) 8 (16 + min 15 (t1 / 8)) 1) 8
        (32 + min 15 (t2 / 8)) 1) 9 (min 15 (s.sel.num / 200)) 1) 0 0 0).mgmt with lastSample := s.cycle } := by
  have hdue : ¬ ((!s.mgmt.standby) = true ∨ s.cycle % 2 ^ 20 ≠ 0 ∨ s.cycle = s.mgmt.lastSample) := by
    rw [hon, hc]
    exact fun h => h.elim Bool.false_ne_true (fun h => h.elim (fun h => h rfl) hnew)
  refine ⟨_, (exec_histogramSample s).trans (if_neg hdue), ?_⟩
  simp only [lifeAdd, hnums, hk, List.range, List.range.loop, List.foldl, List.drop, List.getD_cons_zero, List.getD_cons_succ, Nat.mul_zero,
    Nat.zero_add, Nat.mul_one, Nat.reduceMul]

theorem countersAreKept : CountersAreKept := by
  intro s hon
  refine ⟨fun hc hnew => (exec_counterCommit s).trans (if_neg ?_), fun hc => (exec_counterCommit s).trans (if_pos (.inr (.inl hc))),
    fun hc => (exec_histogramSample s).trans (if_pos (.inr (.inl hc))), fun t0 t1 t2 hc hnew hnums hk =>
      exec_histogramSample_of hon hc hnew hnums hk⟩
  rw [hon, hc]
  exact fun h => h.elim Bool.false_ne_true (fun h => h.elim (fun h => h rfl) hnew)

/-- Settles O58: the management controller does as file 26 says. -/
theorem controller : Obligations.Controller :=
  ⟨suppliesBringTheDiesUp, panelsStartAndTest, theLimiterSteps, requestsAreServed, countersAreKept⟩

end Sys2Proof.Proofs
end

section
/-!
PROOF. Every record of classes 0 and 1 completes, and those of blocks (09 R183 to R210).
-/
namespace Sys2Proof.Proofs
open Sys2Proof.Machine Sys2Proof.Safety Sys2Proof.Claims

/-! ## Records that send their result -/

section
variable {s : State} {i : Instr} {f : Form} {ty : BitVec 4} {base : List Nat} {bad blk : Bool} {op : Cur → Res}

theorem sends_of_fire (h : exec i s = fire s f ty base bad blk op) (ht : Takes s f ty base blk) (hb : bad = false)
    (hv : (op s.cur).fault = none) : Sends s i f ty := ⟨op s.cur, hv, h.trans (fireWith_takes ht hb)⟩

theorem sendsAfter_of_fire {n : Nat} (h : exec i s = fireLate s f ty base bad blk op (fun _ => n)) (ht : Takes s f ty base blk)
    (hb : bad = false) (hv : (op s.cur).fault = none) : SendsAfter n s i f ty := ⟨op s.cur, hv, h.trans (fireLate_takes ht hb)⟩

theorem sends_of_move {r : RecN} (h : exec i s = moveFire s r base bad op) (ht : Moves s (formN r) base) (hb : bad = false)
    (hv : (op s.cur).fault = none) : Sends s i (formN r) (portTok s.cur 0).ty := ⟨op s.cur, hv, h.trans (moveFire_moves ht hb)⟩

end

/-! ## Class 0 -/

section
variable {r : RecN} {s : State} {i : Instr} {sat : Bool} {base : List Nat}

theorem sends_of_intVal {g : Int → Int → Int → Int} (h : exec i s = intVal r sat base g s) (hf : IntFields sat r)
    (ht : Takes s (formN r) r.fmt base false) : Sends s i (formN r) r.fmt := sends_of_fire h ht (badInt_eq_false.2 hf) rfl

theorem sends_of_intPat {g : Nat → Nat → Nat → Nat} (h : exec i s = intPat r sat base g s) (hf : IntFields sat r)
    (ht : Takes s (formN r) r.fmt base false) : Sends s i (formN r) r.fmt := sends_of_fire h ht (badInt_eq_false.2 hf) rfl

end

theorem integerRecordsComplete : IntegerRecordsComplete := by
  intro r s f t
  refine ⟨fun hf ht => ?_, fun hf ht => sends_of_intVal (exec_imad r s) hf ht, fun hf ht => ?_, fun hf ht => ?_, fun hf ht => ?_,
    fun hf ht => ?_, fun hf ht => ?_, fun hty hhi hpos hle => ?_, fun hty hrel hcf ht => ?_, fun hty hhi hcf hlit ht => ?_,
    fun hf h3 h7 ht => ?_, fun hf ht hty => ?_⟩
  · simp only [List.forall_mem_cons, List.not_mem_nil, false_implies, implies_true, and_true]
    exact ⟨sends_of_intVal (exec_iadd r s) hf ht, sends_of_intVal (exec_isub r s) hf ht, sends_of_intVal (exec_imul r s) hf ht,
      sends_of_intPat (exec_shl r s) hf ht⟩
  · simp only [List.forall_mem_cons, List.not_mem_nil, false_implies, implies_true, and_true]
    exact ⟨sends_of_intVal (exec_ineg r s) hf ht, sends_of_intVal (exec_iabs r s) hf ht⟩
  · simp only [List.forall_mem_cons, List.not_mem_nil, false_implies, implies_true, and_true]
    exact ⟨sends_of_intVal (exec_imulh r s) hf ht, sends_of_intVal (exec_imin r s) hf ht, sends_of_intVal (exec_imax r s) hf ht,
      sends_of_intPat (exec_and r s) hf ht, sends_of_intPat (exec_or r s) hf ht, sends_of_intPat (exec_xor r s) hf ht,
      sends_of_intPat (exec_andn r s) hf ht, sends_of_intPat (exec_shr r s) hf ht, sends_of_intPat (exec_sra r s) hf ht,
      sends_of_intPat (exec_rot r s) hf ht⟩
  · simp only [List.forall_mem_cons, List.not_mem_nil, false_implies, implies_true, and_true]
    exact ⟨sends_of_intVal (exec_iclamp r s) hf ht, sends_of_fire (exec_sel r s) ht (badInt_eq_false.2 hf) rfl⟩
  · simp only [List.forall_mem_cons, List.not_mem_nil, false_implies, implies_true, and_true]
    exact ⟨sends_of_intPat (exec_clz r s) hf ht, sends_of_intPat (exec_popc r s) hf ht, sends_of_intPat (exec_brev r s) hf ht⟩
  · obtain ⟨hdiv, hrem⟩ := integerDivides r s hf ht
    simp only [List.forall_mem_cons, List.not_mem_nil, false_implies, implies_true, and_true]
    exact ⟨⟨_, rfl, hdiv⟩, ⟨_, rfl, hrem⟩⟩
  · have hok := badField_eq_false hty hhi hpos hle
    exact ⟨fun ht => sends_of_fire (exec_bfx r s) ht hok rfl, fun ht => sends_of_fire (exec_bfi r s) ht hok rfl⟩
  · refine sends_of_fire (exec_icmp r s) ht ?_ rfl
    rw [isIntTy_of_lt hty, decide_eq_false (Nat.not_lt.2 hrel), hcf]
    rfl
  · exact ⟨_, rfl, addr_sends hty hhi hcf hlit ht⟩
  · exact ⟨_, rfl, iaddw_sends hf h3 h7 ht⟩
  · exact ⟨_, rfl, (icvt_sends hf ht).2 hty⟩

/-! ## Class 1 -/

/-- A match that holds every port of MERGE with a value has what it selects. -/
theorem merge_sends {r : RecN} {s : State} (hfmt : r.fmt = 0) (hf : MoveFields true false r) (hctl : badCtl [0, 1, 2] r.ctl = false)
    (hports : hasPorts s.cur (portSet [0, 1, 2] r.ctl) = true) (hnull : anyNull s.cur (portSet [0, 1, 2] r.ctl) = false)
    (hb : (opTok r s.cur 1).null = false) (hc : (opTok r s.cur 2).null = false) :
    Sends s (.merge r) (formN r) (opTok r s.cur (if laneN (lanesP r s.cur 2) 0 ≠ 0 then 0 else 1)).ty := by
  have ha : (opTok r s.cur 0).null = false := by
    have hmem : 0 ∈ portSet [0, 1, 2] r.ctl := by simp [portSet]
    have h0 : (portTok s.cur 0).null = false := by simpa using List.any_eq_false.1 hnull 0 hmem
    rw [opTok, if_neg (by omega)]
    exact h0
  refine ⟨_, rfl, mergeSelectsOnePort r s hfmt hf hctl (fun q hq _ => List.all_eq_true.1 hports q hq) hc ?_⟩
  split
  · exact ha
  · exact hb

theorem moveRecordsComplete : MoveRecordsComplete := by
  intro r s c f t
  refine ⟨fun hty hhi => (nopChangesNothing r s).1 hty hhi, fun hfmt hf hctl hports => (sinkAndConst r s hf).1 hfmt hctl hports,
    fun hty hf hlit ht => ⟨_, rfl, (sinkAndConst r s hf).2 hty hlit ht⟩, fun hfmt hf hm => ?_, fun hfmt hf hm => ?_,
    fun hfmt hf hm => ⟨_, rfl, exec_runend_moves hfmt hf hm⟩, fun hfmt hf hm => ⟨_, rfl, steer_sends hfmt hf hm⟩,
    fun hfmt hf hctl hports hnull hb hc => merge_sends hfmt hf hctl hports hnull hb hc, fun hfmt hf hlevel hm => ⟨fun hlit hwin hlow => ?_, fun hlit => ?_⟩,
    fun k e hfmt hf hlevel hctl hpred hports ha => ?_, fun hfmt hf hlevel hm => ?_, fun hty hf hlevel ht => ?_, fun hfmt hf hlevel => ⟨fun ht => ?_, fun hm => ?_⟩⟩
  · simp only [List.forall_mem_cons, List.not_mem_nil, false_implies, implies_true, and_true]
    exact ⟨⟨_, rfl, copy_sends hfmt hf hm⟩, ⟨_, rfl, void_sends hfmt hf hm⟩⟩
  · simp only [List.forall_mem_cons, List.not_mem_nil, false_implies, implies_true, and_true]
    exact ⟨⟨_, rfl, gate_sends hfmt hf hm⟩, ⟨_, rfl, join_sends hfmt hf hm⟩⟩
  · exact ⟨_, rfl, (levelsEnterWaveLeave r s hfmt hf hlevel hm).1 hlit hwin hlow⟩
  · obtain ⟨hwave, hleave⟩ := (levelsEnterWaveLeave r s hfmt hf hlevel hm).2 hlit
    simp only [List.forall_mem_cons, List.not_mem_nil, false_implies, implies_true, and_true]
    exact ⟨⟨_, rfl, hwave⟩, ⟨_, rfl, hleave⟩⟩
  · intro n mine hk he
    exact ⟨_, _, rfl, ((throttleSpendsACredit r s hfmt hf hlevel hctl hpred hports).2 k e hk he).1 ha⟩
  · have hgo := repeatSendsItsInvariant r s hfmt hf hlevel hm
    exact ⟨fun heor => ⟨_, rfl, hgo.trans (congrArg _ (if_neg (Bool.eq_false_iff.1 heor)))⟩,
      fun heor => ⟨_, rfl, hgo.trans (congrArg _ (if_pos heor))⟩⟩
  · obtain ⟨-, hnone, hsome⟩ := rangeStartsAGenerator r s hty hf hlevel ht
    exact ⟨fun h => ⟨_, rfl, hnone h⟩, fun h hle => hsome h hle⟩
  · obtain ⟨hget, -⟩ := tagGetAndSet r s hfmt hf hlevel
    cases hopx : opx r with
    | false => exact ⟨_, rfl, (hget ht).1 hopx⟩
    | true => exact ⟨_, rfl, (hget ht).2 hopx⟩
  · obtain ⟨-, hset⟩ := tagGetAndSet r s hfmt hf hlevel
    cases hopx : opx r with
    | false => exact ⟨_, rfl, (hset hm).1 hopx⟩
    | true => exact ⟨_, rfl, (hset hm).2 hopx⟩

/-! ## Blocks -/

theorem qWidth_isSome {f : BitVec 4} (h : f = 2 ∨ f = 3 ∨ f = 6 ∨ f = 7) : (qWidth f).isSome = true := by
  rcases h with rfl | rfl | rfl | rfl <;> rfl

theorem blockRecordsComplete : BlockRecordsComplete := by
  intro r s c sc
  refine ⟨fun hf hlit ht hw => ?_, fun b hsite hb hf hlit hw hctl hports hpoison hblk =>
    ⟨_, write_records hsite hb hf (qWidth_isSome hw) hlit hctl hports hpoison hblk⟩,
    fun b hsite hb hcf hlevel hfmt hctl hports hpoison hblk hnull hpred => ?_⟩
  · obtain ⟨w, hw⟩ := Option.isSome_iff_exists.1 (qWidth_isSome hw)
    exact ⟨_, rfl, read_sends hf hw hlit ht⟩
  · have htaken : ¬ (anyNull s.cur (portSet [5] r.ctl) || predFalse r.ctl s.cur) = true := by
      rw [show anyNull s.cur (portSet [5] r.ctl) = false from hnull, show predFalse r.ctl s.cur = false from hpred]
      exact Bool.false_ne_true
    have hexit : ∀ {op : Nat} {bad : Bool}, bad = false → ((op == 0x33) = true ∨ opx r = false) → exitFire op bad r s = .next (setScribe s c.p
        { sc with cur := some { b with exits := b.exits ++ [(c.node, op, r.lit, opx r, (portTok c 5).lanes.getD 0 0)] } }) :=
      fun hbad hopx => (exitFire_records hsite hb hbad ⟨hcf, hopx, .inr hlevel⟩ hfmt hctl hports hpoison hblk).trans
        (congrArg _ (if_neg htaken))
    refine ⟨fun hlit => (exec_branch r s).trans (hexit ?_ (.inl rfl)), fun hopx => (exec_bcall r s).trans (hexit rfl (.inr hopx)),
      fun hopx hlit => (exec_bret r s).trans (hexit ?_ (.inr hopx))⟩
    · rw [Nat.div_eq_of_lt hlit]
      rfl
    · rw [hlit]
      rfl

end Sys2Proof.Proofs
end

section
/-!
PROOF. Every record of classes 2 and 3 completes (03 R74; 10 R211 to R234; 11 R253, R254; 12 R277, R278; 20 R402).
-/
namespace Sys2Proof.Proofs
open Sys2Proof.Machine Sys2Proof.Safety Sys2Proof.Claims

/-! ## Class 2 -/

section
variable {r : RecN} {s : State} {i : Instr} {base : List Nat}

theorem sends_of_fltRnd {g : Nat → FV → FV → FV → FR} (h : exec i s = fltRnd r base g s) (hf : FltFields 6 r)
    (ht : Takes s (formN r) r.fmt base false) : Sends s i (formN r) r.fmt := ⟨_, rfl, h.trans (fltRnd_takes hf ht)⟩

theorem sends_of_fltMinmax {mx : Bool} (h : exec i s = fltMinmax r mx s) (hf : FltFields 2 r) (ht : Takes s (formN r) r.fmt [0, 1] false) :
    Sends s i (formN r) r.fmt := ⟨_, rfl, h.trans (fltMinmax_takes hf ht)⟩

theorem sendsAfter_of_special {lat : Nat} {g : Nat → FV → FV → FR} (h : exec i s = fltSpecial r base lat g s) (hfmt : r.fmt = 10)
    (hhi : r.hi = 0) (hcf : r.cf = 0) (ht : Takes s (formN r) r.fmt base false) : SendsAfter lat s i (formN r) 10 :=
  ⟨_, rfl, (h.trans (fltSpecial_takes hfmt hhi hcf ht)).trans (by rw [hfmt])⟩

/-- A match that is admitted under FMT is admitted under a type that is no block type. -/
theorem takes_of_plain {f : Form} {ty ty' : BitVec 4} {blk : Bool} (ht : Takes s f ty base blk) (hty : isBlockTy ty' = false) :
    Takes s f ty' base blk := by
  obtain ⟨h1, h2, -, h4, h5, h6⟩ := ht
  exact ⟨h1, h2, .inr hty, h4, h5, h6⟩

end

theorem floatingRecordsComplete : FloatingRecordsComplete := by
  intro r s f
  refine ⟨fun hf ht => ?_, fun hf ht => sends_of_fltRnd (exec_ffma r s) hf ht, fun hf ht => sends_of_fltRnd (exec_fround r s) hf ht,
    fun hf ht => ?_, fun hf ht => ?_, fun hf ht => ?_, fun hf ht => ?_, fun hfmt hhi hcf => ⟨fun ht => ?_, fun ht => ?_⟩⟩
  · simp only [List.forall_mem_cons, List.not_mem_nil, false_implies, implies_true, and_true]
    exact ⟨sends_of_fltRnd (exec_fadd r s) hf ht, sends_of_fltRnd (exec_fsub r s) hf ht, sends_of_fltRnd (exec_fmul r s) hf ht,
      sends_of_fire (exec_fscale r s) ht (badRnd_eq_false.2 hf) rfl⟩
  · simp only [List.forall_mem_cons, List.not_mem_nil, false_implies, implies_true, and_true]
    exact ⟨sends_of_fltMinmax (exec_fmin r s) hf ht, sends_of_fltMinmax (exec_fmax r s) hf ht⟩
  · exact sends_of_fire (exec_fcmp r s) (takes_of_plain ht rfl) (badOpx_eq_false.2 hf) rfl
  · exact sends_of_fire (exec_fclass r s) (takes_of_plain ht rfl) (badOpx_eq_false.2 hf) rfl
  · exact sends_of_fire (exec_fsgn r s) ht (badOpx_eq_false.2 hf) rfl
  · exact sendsAfter_of_special (exec_fdiv r s) hfmt hhi hcf ht
  · simp only [List.forall_mem_cons, List.not_mem_nil, false_implies, implies_true, and_true]
    exact ⟨sendsAfter_of_special (exec_fsqrt r s) hfmt hhi hcf ht,
      ⟨sendsAfter_of_special (exec_frcp r s) hfmt hhi hcf ht, sendsAfter_of_special (exec_frsq r s) hfmt hhi hcf ht⟩,
      ⟨sendsAfter_of_special (exec_frcpa r s) hfmt hhi hcf ht, sendsAfter_of_special (exec_frsqa r s) hfmt hhi hcf ht⟩,
      ⟨sendsAfter_of_special (exec_fexp2 r s) hfmt hhi hcf ht, sendsAfter_of_special (exec_flog2 r s) hfmt hhi hcf ht⟩,
      sendsAfter_of_special (exec_fsinpi r s) hfmt hhi hcf ht, sendsAfter_of_special (exec_fcospi r s) hfmt hhi hcf ht,
      sendsAfter_of_special (exec_ftanh r s) hfmt hhi hcf ht⟩

/-! ## Conversions, blocks and dot products -/

section
variable {r : RecN} {s : State}

theorem bxpack_completes (hf : LaneFields false true r) (hblk : isBlockTy r.fmt = true) (ht : Takes s (formN r) r.fmt [0] false)
    (ha : isFloatTy (portTok s.cur 0).ty = true) :
    ∃ v : Res, v.fault = none ∧ exec (.bxpack r) s = .next (emitRes { s with fresh := s.fresh + 2 } s.cur (formN r) r.fmt v) := by
  have ht' : Takes { s with fresh := s.fresh + 2 } (formN r) r.fmt [0] false := ht
  refine ⟨_, ?_, (exec_bxpack r s).trans (fireNul_takes ht' (bad3_eq_false.2 ⟨hblk, hf⟩))⟩
  simp only [ha, Bool.not_true, Bool.false_eq_true, if_false]

theorem bxunpk_completes (hcf : r.cf.toNat ≤ 3) (hrnd : rnd3 r ≤ 5) (hopx : opx r = false) (hflt : isFloatTy r.fmt = true)
    (ht : Takes s (formN r) r.fmt [0] true) (ha : isBlockTy (portTok s.cur 0).ty = true)
    (hlt : 2 * r.cf.toNat < blockCountW (portTok s.cur 0).ty (portTok s.cur 0).lanes.length) : Sends s (.bxunpk r) (formN r) r.fmt := by
  refine sends_of_fire (exec_bxunpk r s) ht (bxunpk_fields hcf hrnd hopx hflt) ?_
  have hmod : r.cf.toNat % 4 = r.cf.toNat := Nat.mod_eq_of_lt (by omega)
  simp only [ha, hmod, Nat.not_le.2 hlt, Bool.not_true, Bool.false_eq_true, or_self, if_false, both]

/-! ## Reductions -/

theorem sum_completes (hf : LaneFields true false r) (hty : r.fmt.toNat < 8) (ht : Takes s (formN r) r.fmt [0] false) :
    Sends s (.lsum r) (formN r) r.fmt := by
  refine sends_of_fire (exec_lsum r s) ht (bad3_eq_false.2 ⟨decide_eq_true (by omega), ?_⟩) ?_
  · rw [isIntTy_of_lt hty]
    exact hf
  · dsimp only
    split <;> rfl

theorem scan_completes (hf : LaneFields true false r) (hty : r.fmt.toNat < 8) (ht : Takes s (formN r) r.fmt [0] false) :
    Sends s (.lscan r) (formN r) r.fmt := by
  refine sends_of_fire (exec_lscan r s) ht (bad3_eq_false.2 ⟨decide_eq_true (by omega), hf⟩) ?_
  dsimp only
  split <;> rfl

theorem extreme_completes {mx : Bool} {i : Instr} (h : exec i s = laneExtreme r mx s) (hf : LaneFields true false r) (hty : r.fmt.toNat < 8)
    (ht : Takes s (formN r) r.fmt [0] false) : Sends s i (formN r) r.fmt :=
  sends_of_fire h ht (bad3_eq_false.2 ⟨decide_eq_true (by omega), hf⟩) rfl

/-! ## Packing of colours, experts and scales -/

theorem packc_completes (hf : LaneFields false false r) (hfmt : r.fmt = 0) (hlit : r.ctl.lituse = 0) (hctl : badCtl [0, 1] r.ctl = false)
    (hports : hasPorts s.cur (portSet [0, 1] r.ctl) = true) (hnull : anyNull s.cur (portSet [0, 1] r.ctl) = false)
    (hpred : predFalse r.ctl s.cur = false) (hwidth : (portTok s.cur 0).lanes.length + (portTok s.cur 1).lanes.length ≤ 32)
    (hty : (portTok s.cur 0).ty = (portTok s.cur 1).ty) (hsame : colourOf (portTok s.cur 0).tag = colourOf (portTok s.cur 1).tag) :
    Sends s (.packc r) (formN r) r.fmt :=
  ⟨_, rfl, ((packAndUnpackColours r s).1 hf hfmt hlit hctl hports hnull hpred hwidth hty (.inl hsame)).1 hsame⟩

theorem unpackc_completes (hf : LaneFields true false r) (hfmt : r.fmt = 0) (hlit : r.ctl.lituse = 0) (ht : Takes s (formN r) r.fmt [0] true)
    (hopx : opx r = true) (hpos : 0 < r.lit.toNat) (hlt : r.lit.toNat < (portTok s.cur 0).lanes.length) (h32 : r.lit.toNat < 32) :
    Sends s (.unpackc r) (formN r) r.fmt := by
  have hhigh : bits r.lit.toNat 31 5 = 0 := bits_eq_zero_of_lt (show r.lit.toNat < 2 ^ 5 from h32)
  have hmod : r.lit.toNat % 32 = r.lit.toNat := Nat.mod_eq_of_lt h32
  have hok : (bad3 true false (r.fmt == 0) r || (opx r && (bits r.lit.toNat 31 5 != 0 || r.lit.toNat % 32 == 0)) || r.ctl.lituse != 0) = false := by
    rw [bad3_eq_false.2 ⟨by rw [hfmt]; rfl, hf⟩, hlit, hhigh, hmod, beq_false_of_ne (Nat.pos_iff_ne_zero.1 hpos), hopx]
    rfl
  refine ⟨_, ?_, (exec_unpackc r s).trans (fireNul_takes ht hok)⟩
  simp only [hopx, hmod, if_true, decide_eq_false (Nat.not_le.2 hlt), Bool.not_true, Bool.and_false, Bool.false_and, Bool.or_self,
    Bool.false_eq_true, if_false]

theorem cmpfwd_completes (hf : LaneFields true false r) (hflt : isFloatTy r.fmt = true) (hlit : r.lit = 0) (huse : r.ctl.lituse = 0)
    (ht : Takes s (formN r) r.fmt [0, 1] false) (ha : (portTok s.cur 0).lanes.length = 4) (hb : (portTok s.cur 1).lanes.length = 4) :
    Sends s (.cmpfwd r) (formN r) r.fmt := by
  have hok : (bad3 true false (isFloatTy r.fmt) r || r.lit != 0 || r.ctl.lituse != 0) = false := by
    rw [bad3_eq_false.2 ⟨hflt, hf⟩, hlit, huse]
    rfl
  refine sends_of_fire (exec_cmpfwd r s) ht hok ?_
  simp only [ha, hb, ne_eq, not_true_eq_false, or_self, if_false]

/-- The first candidate of a table stands alone in it. -/
theorem rankadm_first (hbad : badRank s r = false) (hports : hasPorts s.cur (portSet [0] r.ctl) = true)
    (hnull : anyNull s.cur (portSet [0] r.ctl) = false) (hpred : predFalse r.ctl s.cur = false)
    (hblk : anyBlock s.cur (portSet [0] r.ctl) = false) (hlit : r.ctl.pred = false ∨ r.ctl.lituse ≠ 2) {tb : RankTable}
    (htb : tb = rankTable (nibAt s s.cur.p s.cur.site) s.cur.plane s.cur.node (baseTag s s.cur.p s.cur.plane s.cur.tag (bits r.lit.toNat 18 16)))
    (hnone : tb.entries = []) (hcap : 0 < r.lit.toNat % 65536) :
    exec (.rankadmCandidate r) s = .next (setNib s s.cur.p s.cur.site (putRank (nibAt s s.cur.p s.cur.site)
      { tb with counted := tb.counted + 1, entries := [{ portTok s.cur 0 with tag := s.cur.tag }] })) := by
  subst htb
  have hgo := ((rankAdmission r s).1 hbad hports hnull hpred hblk hlit (by rw [hnone]; exact fun e he => absurd he (List.not_mem_nil))).1
    (by rw [hnone]; exact hcap)
  rw [hgo, hnone, show insBy (candAbove r.fmt) { portTok s.cur 0 with tag := s.cur.tag } [] = [{ portTok s.cur 0 with tag := s.cur.tag }] from rfl,
    List.take_of_length_le hcap]

theorem sclemit_completes (hhi : r.hi.toNat ≤ 1) (hfmt : r.fmt = 5) (hcf : r.cf.toNat < 8) (hlit : r.ctl.lituse = 0) (hctl : badCtl [0] r.ctl = false)
    (hports : hasPorts s.cur (portSet [0] r.ctl) = true) (hblk : anyBlock s.cur (portSet [0] r.ctl) = false)
    (hnull : anyNull s.cur (portSet [0] r.ctl) = false) (hpred : predFalse r.ctl s.cur = false) (hd0 : sclDestOk s.cur r.d0 = true)
    (hd1 : sclDestOk s.cur r.d1 = true) (hroom : r.cf.toNat + (portTok s.cur 0).lanes.length ≤ 8) :
    exec (.sclemit r) s = .next (sendScales s s.cur (sclToks r s.cur)) := by
  have hroom' : decide (8 < r.cf.toNat % 8 + (portTok s.cur 0).lanes.length) = false := by
    rw [Nat.mod_eq_of_lt hcf]
    exact decide_eq_false (Nat.not_lt.2 hroom)
  simp only [exec_sclemit, execSclemit, hports, Nat.div_eq_of_lt (Nat.lt_succ_of_le hhi), hfmt, Nat.div_eq_of_lt hcf, hlit, hctl, hblk, hd0, hd1,
    hroom', hnull, hpred, Bool.not_true, Bool.and_false, bne_self_eq_false, Bool.or_self, Bool.false_eq_true, or_self, if_false]

/-- A clean PTEST passes its operand, and 0 where it tells of poison. -/
theorem ptest_completes (hhi : r.hi.toNat < 4) (hfmt : r.fmt = 0) (hcf : r.cf = 0) (hlit : r.ctl.lituse = 0) (hctl : badCtl [0] r.ctl = false)
    (hports : hasPorts s.cur (portSet [0] r.ctl) = true) (hblk : anyBlock s.cur (portSet [0] r.ctl) = false)
    (hnull : anyNull s.cur (portSet [0] r.ctl) = false) (hpred : predFalse r.ctl s.cur = false) (hearly : s.cur.late = false)
    (hclean : (portTok s.cur 0).poison = false) (hok : (ptestSends s.cur r).any (tooWide s s.cur) = false) :
    exec (.ptest r) s = .next (sends s s.cur (ptestSends s.cur r)) := by
  have hall := (poisonIsTested r s hhi hfmt hcf hlit hctl hports hblk hnull hpred).2 hearly
  have hsends : ∀ (flag : Val), flag = { tag := s.cur.tag, ty := 6, lanes := [if (portTok s.cur 0).poison then 1 else 0] } →
      destSends r.d0 r.ctl.emit0 (curPoison s.cur) (portTok s.cur 0).poison false (passVal r.ctl s.cur (portTok s.cur 0))
        (some (passVal r.ctl s.cur (portTok s.cur 0))) ++
      destSends r.d1 r.ctl.emit1 (if r.hi.getLsbD 1 then false else curPoison s.cur) (portTok s.cur 0).poison false
        (passVal r.ctl s.cur (portTok s.cur 0)) (some (if r.hi.getLsbD 1 then flag else passVal r.ctl s.cur (portTok s.cur 0))) =
      ptestSends s.cur r := by
    rintro flag rfl
    cases hbit : r.hi.getLsbD 1 <;> simp only [ptestSends, hbit, hclean] <;> rfl
  rw [hsends _ rfl] at hall
  exact (hall hok).1 (.inl hclean)

end

theorem waits_complete {r : RecN} {s : State} (hhi : r.hi.toNat ≤ 1) (hfmt : r.fmt = 0) (hcf : r.cf.toNat ≤ 1)
    (ht : Takes s (formN r) (portTok s.cur 0).ty [0, 1] false) :
    let m := waitMask r s.cur
    let done := (scribeAt s s.cur.p).done
    (s.cur.site = 240 → (∃ v t, v.fault = none ∧ exec (.ffready r) s = .next (emitRes t s.cur (formN r) 7 v)) ∧
      (done &&& m = m → ∃ v t, v.fault = none ∧ exec (.waitall r) s = .next (emitRes t s.cur (formN r) 7 v)) ∧
      (done &&& m ≠ 0 → ∃ v t, v.fault = none ∧ exec (.waitany r) s = .next (emitRes t s.cur (formN r) 7 v))) ∧
    (s.cur.site ≠ 240 → (∀ i ∈ [Instr.ffready r, .waitall r], exec i s = .next (waitOn s s.cur (.test (s.cycle + 2)))) ∧
      (m ≠ 0 → exec (.waitany r) s = .next (waitOn s s.cur (.test (s.cycle + 2))))) := by
  intro m done
  obtain ⟨-, hnib, hscribe⟩ := (completionWaits r s).1 hhi hfmt hcf ht
  refine ⟨fun hsite => ?_, fun hsite => ?_⟩
  · obtain ⟨hany, -, hall, -, hff⟩ := hscribe hsite
    have hmask : done &&& m ≠ 0 → m ≠ 0 := by
      rintro h hm
      rw [hm] at h
      exact h BitVec.and_zero
    exact ⟨⟨_, _, rfl, hff⟩, fun h => ⟨_, _, rfl, hall h⟩, fun h => ⟨_, _, rfl, hany (hmask h) h⟩⟩
  · obtain ⟨hany, hall, hff⟩ := hnib hsite
    simp only [List.forall_mem_cons, List.not_mem_nil, false_implies, implies_true, and_true]
    exact ⟨⟨hff, hall⟩, hany⟩

theorem laneRecordsComplete : LaneRecordsComplete := by
  intro r s c f a b lit
  refine ⟨fun hf ht => ⟨fun hfl ha => ?_, fun hfl ha => ?_, fun hint ha => ?_⟩, fun hf hblk ht ha => bxpack_completes hf hblk ht ha,
    fun hcf hrnd hopx hfl ht ha hlt => bxunpk_completes hcf hrnd hopx hfl ht ha hlt, fun hf hfmt hlit ht hty ha => ?_,
    fun hf hty ht => ?_, fun hf hfmt ht => ⟨_, rfl, shuf_sends hf hfmt ht⟩, fun hf hfmt hlit h7 h31 ht => ⟨_, rfl, bcast_sends hf hfmt hlit h7 h31 ht⟩,
    fun hf hty hone hlit h31 ht => ?_, fun hf hfmt hlit h31 ht hty => ?_,
    fun hf hfmt hlit hctl hports hnull hpred hwidth hty hsame => packc_completes hf hfmt hlit hctl hports hnull hpred hwidth hty hsame,
    fun hf hfmt hlit ht hopx hpos hlt h32 => unpackc_completes hf hfmt hlit ht hopx hpos hlt h32,
    fun hf hfl hlit huse ht ha hb => cmpfwd_completes hf hfl hlit huse ht ha hb,
    fun hbad hports hnull hpred hblk hlit hnone hcap => rankadm_first hbad hports hnull hpred hblk hlit rfl hnone hcap,
    fun hhi hfmt hcf hlit hctl hports hblk hnull hpred hd0 hd1 hroom =>
      sclemit_completes hhi hfmt hcf hlit hctl hports hblk hnull hpred hd0 hd1 hroom,
    fun hhi hfmt hcf ht => waits_complete hhi hfmt hcf ht,
    fun hhi hfmt hcf hlit hctl hports hblk hnull hpred hearly hclean => ?_⟩
  · exact ⟨_, rfl, ((conversionsComplete r s hf ht).1 hfl).1 ha⟩
  · exact ⟨_, rfl, ((conversionsComplete r s hf ht).1 hfl).2.2.1 ha⟩
  · exact ⟨_, rfl, ((conversionsComplete r s hf ht).2 hint).1 ha⟩
  · exact ⟨_, rfl, (dotAccumulatesInOrder r s hf hfmt hlit ht).2 hty ha⟩
  · simp only [List.forall_mem_cons, List.not_mem_nil, false_implies, implies_true, and_true]
    exact ⟨⟨sum_completes hf hty ht, scan_completes hf hty ht⟩,
      fun _ => ⟨extreme_completes (exec_lmax r s) hf hty ht, extreme_completes (exec_lmin r s) hf hty ht⟩⟩
  · exact ⟨_, rfl, (laneMovesComplete r s).2.2.1 hf hty hone hlit h31 ht⟩
  · exact ⟨_, rfl, (laneMovesComplete r s).2.2.2 hf hfmt hlit h31 ht hty⟩
  · intro v flag xs hok
    have hxs : xs = ptestSends c r := by
      have hcl : (portTok s.cur 0).poison = false := hclean
      simp only [xs, ptestSends, v, a, c, hcl]
      rfl
    rw [hxs] at hok ⊢
    exact ptest_completes hhi hfmt hcf hlit hctl hports hblk hnull hpred hearly hclean hok

end Sys2Proof.Proofs
end

section
/-!
PROOF. Every record of the memory, transfer, array and cavity classes completes (11 R235 to R261; 12 R265 to R276; 19 R389).
-/
namespace Sys2Proof.Proofs
open Sys2Proof.Machine Sys2Proof.Safety Sys2Proof.Claims

/-! ## Memory records (11 R235) -/

/-- The memory records with their opcodes. -/
def memInstrs (r : RecM) : List (Nat × Instr) :=
  [(0x80, .ld r), (0x81, .st r), (0x82, .ldx r), (0x83, .stx r), (0x84, .mnop r), (0x85, .fence r), (0x86, .order r), (0x87, .aadd r),
    (0x88, .amin r), (0x89, .amax r), (0x8A, .aand r), (0x8B, .aor r), (0x8C, .axor r), (0x8D, .axchg r), (0x8E, .acas r), (0x8F, .acc r),
    (0x90, .wcfg r), (0x91, .wfull r), (0x92, .wempty r), (0x93, .ldp r), (0x94, .promote r)]

/-- They share one firing. -/
theorem exec_memInstr {r : RecM} {x : Nat × Instr} (h : x ∈ memInstrs r) (s : State) : exec x.2 s = memFire x.1 r s := by
  have hall : ∀ x ∈ memInstrs r, exec x.2 s = memFire x.1 r s := by
    simp only [memInstrs, List.forall_mem_cons, List.not_mem_nil, false_implies, implies_true, and_true]
    exact ⟨rfl, rfl, rfl, rfl, rfl, rfl, rfl, rfl, rfl, rfl, rfl, rfl, rfl, rfl, rfl, rfl, rfl, rfl, rfl, rfl, rfl⟩
  exact hall x h

/-- The access of a match that its record admits holds what the match holds. -/
theorem accessOf_holds {s : State} {op : Nat} {r : RecM}
    (h : op = 0x8F → anyNull s.cur (portSet [0, 1] r.ctl) = false ∧ predFalse r.ctl s.cur = false) :
    let a := accessOf s op r
    a.id = s.fresh ∧ a.op = op ∧ a.r = r ∧ a.p = s.cur.p ∧ a.tag = s.cur.tag ∧ a.a = portTok? s.cur 0 ∧ a.b = portTok? s.cur 1 ∧
      a.c = portTok? s.cur 2 := by
  by_cases hop : op = 0x8F
  · subst hop
    obtain ⟨hnull, hpred⟩ := h rfl
    rw [accessOf_acc hnull hpred]
    exact ⟨rfl, rfl, rfl, rfl, rfl, rfl, rfl, rfl⟩
  · rw [accessOf_of_ne hop]
    exact ⟨rfl, rfl, rfl, rfl, rfl, rfl, rfl, rfl⟩

theorem memoryRecordsComplete : MemoryRecordsComplete := by
  intro r s c sent ha x hx hports hbad hacc
  obtain ⟨hid, hop, hr, hp, htag, hpa, hpb, hpc⟩ := accessOf_holds hacc
  refine ⟨accessOf s x.1 r, hid, hop, hr, hp, htag, hpa, hpb, hpc, ?_⟩
  rw [exec_memInstr hx, memFire_issues hports hbad (.inr ha), toSite, ositeOf, hp, hr]
  rfl

/-! ## Transfers and counters (11 R249 to R252; 19 R389) -/

/-- The completion tag that a transfer takes stays busy under what its match sends. -/
theorem busy_of_sends {p q : Nat} {s t : State} (h : OnlySends q s t) : (scribeAt t p).busy = (scribeAt s p).busy := by
  rcases h.scribes with hsc | ⟨b, hsc⟩
  · rw [scribeAt, hsc]
    rfl
  · by_cases hpq : p = q
    · subst hpq
      rw [scribeAt, hsc, tgetD, tget?_tput]
      rfl
    · rw [scribeAt, hsc, tgetD, tget?_tput_ne _ _ hpq]
      rfl

theorem tagBusy_busy (sc : Scribe) {tag : Nat} (h : tag < 64) : (tagBusy sc tag).busy.getLsbD tag = true := by
  rw [show (tagBusy sc tag).busy = sc.busy ||| BitVec.ofNat 64 (2 ^ tag) by rfl, ofNat_two_pow, BitVec.getLsbD_or, BitVec.getLsbD_shiftLeft,
    decide_eq_true h]
  simp

theorem tagBusy_ne (sc : Scribe) {tag : Nat} (h : tag < 64) : tagBusy sc tag ≠ {} := by
  intro hs
  have hb := tagBusy_busy sc h
  rw [hs] at hb
  simp at hb

/-- A COLL that is sent stands among the transfers with its tag busy. -/
theorem collStands_standing (s : State) (c : Cur) (r : RecT) : (collStands s c r).fresh = s.fresh + 1 ∧
    (xferOf (collStands s c r) s.fresh).isSome = true ∧ (scribeAt (collStands s c r) c.p).busy.getLsbD r.ctag.toNat = true := by
  have hsends := emitRes_onlySends { setScribe s c.p (tagBusy (scribeAt s c.p) r.ctag.toNat) with
    fresh := s.fresh + 1, xfers := s.xfers ++ [collXfer s c r] } c (formT r) 6 (ctagVal c r)
  have htag : r.ctag.toNat < 64 := r.ctag.isLt
  refine ⟨?_, ?_, ?_⟩
  · exact (congrArg State.fresh hsends.rest).trans rfl
  · have hx : (collStands s c r).xfers = s.xfers ++ [collXfer s c r] := (congrArg State.xfers hsends.rest).trans rfl
    rw [xferOf, hx, List.find?_isSome]
    exact ⟨collXfer s c r, List.mem_append_right _ (List.mem_singleton.2 rfl), beq_iff_eq.2 rfl⟩
  · rw [collStands, busy_of_sends hsends]
    show (scribeAt (setScribe s c.p (tagBusy (scribeAt s c.p) r.ctag.toNat)) c.p).busy.getLsbD r.ctag.toNat = true
    rw [scribeAt_setScribe s c.p (tagBusy_ne _ htag)]
    exact tagBusy_busy _ htag

theorem coll_completes {r : RecT} {s : State} {path : List Nat} (hrsv : r.rsv = 0) (ha : ActsNow s)
    (htag : tagFree s s.cur.p r.ctag.toNat = true) (hs : Supplied s r.ctl [0, 1]) (hlen : r.len = 0)
    (hgood : collBad (portTok s.cur 1).lanes = false) (halloc : (pgAt s s.cur.p r.pgn.toNat).alloc = true)
    (hown : collOwn s (collDev (portTok s.cur 1).lanes) = false) (hpath : portPath s (dieOf s.cur.p) (collDev (portTok s.cur 1).lanes) = some path) :
    ∃ t, exec (.coll r) s = .next t ∧ t.fresh = s.fresh + 1 ∧ (xferOf t s.fresh).isSome = true ∧
      (scribeAt t s.cur.p).busy.getLsbD r.ctag.toNat = true := by
  have hw : collWrong s s.cur r = false := by
    rw [collWrong, hgood, halloc]
    rfl
  have hsends := emitRes_onlySends { setScribe s s.cur.p (tagBusy (scribeAt s s.cur.p) r.ctag.toNat) with
    fresh := s.fresh + 1, xfers := s.xfers ++ [collXfer s s.cur r] } s.cur (formT r) 6 (ctagVal s.cur r)
  have hroutes : (collStands s s.cur r).routes = s.routes := (congrArg State.routes hsends.rest).trans rfl
  have hgo : portPath (collStands s s.cur r) (dieOf s.cur.p) (collDev (portTok s.cur 1).lanes) = some path := by
    rw [portPath, routeOf, hroutes]
    exact hpath
  refine ⟨{ collStands s s.cur r with reqs := (collStands s s.cur r).reqs ++ [collReq s s.cur r (collStands s s.cur r).cycle path] }, ?_,
    collStands_standing s s.cur r⟩
  rw [exec_coll, execColl_acts hs hrsv hlen ha, if_neg (by rw [htag]; exact fun h => Bool.false_ne_true h.2), issueColl_sends hw,
    if_neg (Bool.eq_false_iff.1 hown)]
  simp only [hgo]

theorem transferRecordsComplete : TransferRecordsComplete := by
  refine ⟨fun r s hrsv ha htag => ?_, fun r s hobj hcf hs => ?_⟩
  · intro c
    refine ⟨fun d hs hp hd x hx hbad => ?_, fun path hs hlen hgood halloc hown hpath => coll_completes hrsv ha htag hs hlen hgood halloc hown hpath⟩
    exact (((transfersIssue r s x.1 x.2 hx hrsv hs).2 hp).2.2 d ha htag hd).2 hbad |>.1
  · intro c k x ctx passes
    refine ⟨fun hsub hhold => ⟨_, _, rfl, pginit_sets hobj hcf hs hsub hhold⟩, fun hsub hhold => ⟨_, _, rfl, pginitFree_sets hobj hcf hs hsub hhold⟩,
      fun hclean halloc hctx => ⟨_, _, rfl, pgadv_adds hobj hcf hs hclean halloc hctx⟩, fun hsub hstamp halloc hctx => ?_⟩
    obtain ⟨-, -, -, -, -, hread⟩ := progressCounters r s hobj hcf hs
    have hw : (if x.stamp = s.cycle + 1 then x.was else ((pgWords x).1, (pgWords x).2, x.ctx)) = ((pgWords x).1, (pgWords x).2, x.ctx) :=
      if_neg hstamp
    exact ⟨_, rfl, hread hsub (by rw [hw]; exact halloc) (by rw [hw]; exact hctx)⟩

end Sys2Proof.Proofs
end

section
/-!
PROOF. Every record of the array and cavity classes completes (11 R256 to R261; 12 R265 to R276).
-/
namespace Sys2Proof.Proofs
open Sys2Proof.Machine Sys2Proof.Safety Sys2Proof.Claims

/-! ## Arrays -/

/-- A clean match holds no poisoned token. -/
theorem poison_of_clean {s : State} (h : Clean s) (k : Nat) : (portTok s.cur k).poison = false := by
  rw [portTok, portTok?]
  cases hf : s.cur.ops.find? (fun x => x.1 == k) with
  | none => rfl
  | some x => exact Bool.eq_false_iff.2 (List.any_eq_false.1 h x (List.mem_of_find?_eq_some hf))

theorem getLsbD_three_of_lt {x : BitVec 4} (h : x.toNat < 8) : x.getLsbD 3 = false := x.testBit_toNat.symm.trans (Nat.testBit_lt_two_pow h)

section
variable {r : RecN} {s : State} {k row q : Nat}

/-- An MMA of a west-edge cell with a slice of its array's type joins the pass of its tag. -/
theorem mma_completes (hcell : cellOf s s.cur.p s.cur.site = some (k, row, q)) (hcf : r.cf = 0) (hlit : r.ctl.lituse = 0) (hhi : r.hi.toNat < 8)
    (hlev : r.hi.toNat % 8 < (layoutOf s s.cur.p s.cur.plane).length) (hlow : r.lit.toNat < 128) (hty : arrTyOk r.fmt = true)
    (hfmt : r.fmt = (s.arrays.getD k default).ty) (hq : q = 0) (ht : Takes s (formN r) r.fmt [0] true)
    (ha : (portTok s.cur 0).ty = (s.arrays.getD k default).ty)
    (hlen : (portTok s.cur 0).lanes.length = sliceLanes (s.arrays.getD k default).ty)
    (hnew : rowFired (s.arrays.getD k default) s.cur.tag row = false)
    (hroom : skewFull s (s.arrays.getD k default) s.cur row (r.lit.toNat % 64) (r.hi.toNat % 8) = false) :
    exec (.mma r) s = .next (sysSettle (joinPass (noteMma s s.cur.p s.cur.site) s.cur k
      { row := row, j := r.lit.toNat % 64, level := r.hi.toNat % 8, wb := r.lit.getLsbD 6, site := s.cur.site, node := s.cur.node
        plane := s.cur.plane, tok := some (portTok s.cur 0), scales := s.cur.scales } false) s.cur.p) := by
  obtain ⟨hports, hctl, -, hnull, -, hpred⟩ := ht
  have hoff : (anyNull s.cur (portSet [0] r.ctl) || predFalse r.ctl s.cur) = false := by
    rw [show anyNull s.cur (portSet [0] r.ctl) = false from hnull, show predFalse r.ctl s.cur = false from hpred]
    rfl
  rw [execMma_of_cell (getLsbD_three_of_lt hhi) hcf hlit hctl hports hlev hcell hlow hty]
  simp only [hoff, hq, hnew, hfmt, ha, hlen, hroom, ne_eq, not_true_eq_false, bne_self_eq_false, Bool.not_false, Bool.or_self, Bool.and_false,
    Bool.false_eq_true, if_false]

end

theorem arrayRecordFormsComplete (r : RecN) (s : State) :
    let c := s.cur
    (∀ y0 y1 x0 x1, arrTyOk r.fmt = true → r.cf = 0 → (r.d0.site = 255 ∨ r.d0.site.toNat < 240) → c.site = 240 → c.late = true →
      Supplied s r.ctl [0] → Clean s → sysRect s c = some (y0, y1, x0, x1) →
      (r.hi = 0 → enterBad s c.p y0 y1 x0 x1 = false → (cellSites y0 y1 x0 x1).any (mmaPending s c.p) = false →
        exec (.sysmodeEnter r) s = .next (sysAck { s with arrays := s.arrays ++
          [{ p := c.p, y0 := y0, y1 := y1, x0 := x0, x1 := x1, ty := r.fmt, ctx := matchCtx s c.p c.plane c.tag }] } c r)) ∧
      (∀ k, r.hi = 1 → arrayAt s c.p y0 y1 x0 x1 = some k → (s.arrays.getD k default).passes.any (fun q => q.complete) = false →
        exec (.sysmodeLeave r) s = .next (sysAck { s with arrays := dropAt s.arrays k } c r))) := by
  intro c y0 y1 x0 x1 hty hcf hd0 hsite hlate hs hcl hrect
  obtain ⟨-, -, -, hdone⟩ := arraysAreFormedAndLeft r s hty hcf hd0 hsite hs (poison_of_clean hcl 0)
  exact hdone y0 y1 x0 x1 hlate hrect

/-! ## Cavities (12 R265 to R269) -/

section
variable {r : RecS} {s : State} {c : Cur} {w k : Nat}

/-- The first join of a cavity makes it. -/
theorem cavJoin_first {ls : Option (List Lane)} (hnone : cavAt (wellAt s c.p w) r.obj = none) (hfew : (wellAt s c.p w).cavs.length < 8)
    (hi : laneN (portTok c 0).lanes 0 < cavN r.obj)
    (hin : ∀ l, ls = some l → segBad r.obj l = false ∧ (segOf r.obj ls).1 ≤ laneN (portTok c 0).lanes 0 ∧
      laneN (portTok c 0).lanes 0 < (segOf r.obj ls).2.1)
    (hroom : cavBase r.obj * 4096 + regionBytes ((segOf r.obj ls).2.1 - (segOf r.obj ls).1) ≤
      bufCount (wellAt s c.p w) * bufBytes (wellAt s c.p w)) :
    ∃ t, cavJoin s c r w ls = objEmit t c r 6 (ackVal c.tag (laneN (portTok c 0).lanes 0)) := by
  have hinside : ∀ l, ls = some l → (segBad r.obj l || decide (laneN (portTok c 0).lanes 0 < (segOf r.obj ls).1) ||
      decide ((segOf r.obj ls).2.1 ≤ laneN (portTok c 0).lanes 0)) = false := by
    intro l hl
    obtain ⟨hseg, hlo, hhi⟩ := hin l hl
    rw [hseg, decide_eq_false (Nat.not_lt.2 hlo), decide_eq_false (Nat.not_le.2 hhi)]
    rfl
  cases ls with
  | none =>
    simp only [cavJoin, hnone, Nat.not_le.2 hi, Nat.not_lt.2 hroom, Nat.not_le.2 hfew, and_false, Bool.false_eq_true, or_self, if_false]
    exact ⟨_, rfl⟩
  | some l =>
    simp only [cavJoin, hnone, Nat.not_le.2 hi, hinside l rfl, Nat.not_lt.2 hroom, Nat.not_le.2 hfew, and_false, Bool.false_eq_true, or_self, if_false]
    exact ⟨_, rfl⟩

end

section
variable {r : RecS} {s : State} {k : Nat}

theorem cavjoinLocal_completes (hcav : cavBad r.obj = false) (hsub : r.sub = 0) (hw : AtWell s r [0] 1)
    (hnone : cavAt (wellAt s s.cur.p r.d1.site.toNat) r.obj = none) (hfew : (wellAt s s.cur.p r.d1.site.toNat).cavs.length < 8)
    (hi : laneN (portTok s.cur 0).lanes 0 < cavN r.obj) (hroom : cavBase r.obj * 4096 + regionBytes (cavN r.obj) ≤
      bufCount (wellAt s s.cur.p r.d1.site.toNat) * bufBytes (wellAt s s.cur.p r.d1.site.toNat)) :
    ∃ t c' v, c'.tag = s.cur.tag ∧ exec (.cavjoinLocal r) s = .next (objEmit t c' r 6 v) := by
  obtain ⟨t, ht⟩ := cavJoin_first (c := s.cur) (ls := none) hnone hfew hi (fun l hl => by cases hl) hroom
  refine ⟨t, s.cur, _, rfl, (exec_cavjoinLocal r s).trans ((objFire_atWell hw ?_).trans (congrArg _ ht))⟩
  rw [hcav, hsub]
  rfl

theorem cavjoinSegment_completes (hcav : cavBad r.obj = false) (hsub : r.sub = 1) (hw : AtWell s r [0, 1] 1)
    (hnone : cavAt (wellAt s s.cur.p r.d1.site.toNat) r.obj = none) (hfew : (wellAt s s.cur.p r.d1.site.toNat).cavs.length < 8)
    (hi : laneN (portTok s.cur 0).lanes 0 < cavN r.obj) (hseg : segBad r.obj (portTok s.cur 1).lanes = false)
    (hlo : (segOf r.obj (some (portTok s.cur 1).lanes)).1 ≤ laneN (portTok s.cur 0).lanes 0)
    (hhi : laneN (portTok s.cur 0).lanes 0 < (segOf r.obj (some (portTok s.cur 1).lanes)).2.1)
    (hroom : cavBase r.obj * 4096 + regionBytes ((segOf r.obj (some (portTok s.cur 1).lanes)).2.1 -
      (segOf r.obj (some (portTok s.cur 1).lanes)).1) ≤
        bufCount (wellAt s s.cur.p r.d1.site.toNat) * bufBytes (wellAt s s.cur.p r.d1.site.toNat)) :
    ∃ t c' v, c'.tag = s.cur.tag ∧ exec (.cavjoinSegment r) s = .next (objEmit t c' r 6 v) := by
  obtain ⟨t, ht⟩ := cavJoin_first (c := s.cur) (ls := some (portTok s.cur 1).lanes) hnone hfew hi
    (fun l hl => by cases hl; exact ⟨hseg, hlo, hhi⟩) hroom
  refine ⟨t, s.cur, _, rfl, (exec_cavjoinSegment r s).trans ((objFire_atWell hw ?_).trans (congrArg _ ht))⟩
  rw [hcav, hsub]
  rfl

theorem cavjoinLeave_completes (hcav : cavBad r.obj = false) (hsub : r.sub = 2) (hw : AtWell s r [0] 1)
    (hk : cavAt (wellAt s s.cur.p r.d1.site.toNat) r.obj = some k)
    (hdesc : ((wellAt s s.cur.p r.d1.site.toNat).cavs.getD k default).desc = r.obj)
    (hidle : cavBusy ((wellAt s s.cur.p r.d1.site.toNat).cavs.getD k default) = false) (hi : laneN (portTok s.cur 0).lanes 0 < cavN r.obj)
    (hjoined : ((wellAt s s.cur.p r.d1.site.toNat).cavs.getD k default).joined.contains (laneN (portTok s.cur 0).lanes 0) = true)
    (hfree : hasContrib ((wellAt s s.cur.p r.d1.site.toNat).cavs.getD k default) (laneN (portTok s.cur 0).lanes 0) = false) :
    ∃ t c' v, c'.tag = s.cur.tag ∧ exec (.cavjoinLeave r) s = .next (objEmit t c' r 6 v) := by
  have hfields : (cavBad r.obj || r.sub != 2) = false := by
    rw [hcav, hsub]
    rfl
  rw [exec_cavjoinLeave, execCavjoinLeave, objFire_atWell hw hfields]
  simp only [hk, hdesc, hidle, hjoined, hfree, Nat.not_le.2 hi, ne_eq, not_true_eq_false, Bool.not_true, Bool.false_eq_true, or_self, if_false]
  exact ⟨_, _, _, rfl, rfl⟩

/-- A contribution whose index has joined, and has none in the round, stands in the round. -/
theorem cav_completes (hcav : cavBad r.obj = false) (hsub : r.sub = 0) (hw : AtWell s r [0, 1] 1)
    (hk : cavAt (wellAt s s.cur.p r.d1.site.toNat) r.obj = some k)
    (hdesc : ((wellAt s s.cur.p r.d1.site.toNat).cavs.getD k default).desc = r.obj)
    (hidle : cavBusy ((wellAt s s.cur.p r.d1.site.toNat).cavs.getD k default) = false)
    (hjoined : ((wellAt s s.cur.p r.d1.site.toNat).cavs.getD k default).joined.contains (laneN (portTok s.cur 1).lanes 0) = true)
    (hfree : hasContrib ((wellAt s s.cur.p r.d1.site.toNat).cavs.getD k default) (laneN (portTok s.cur 1).lanes 0) = false)
    (hwidth : (portTok s.cur 0).lanes.length ≤ cavW r.obj) :
    ∃ y : Contrib, y.idx = laneN (portTok s.cur 1).lanes 0 ∧ y.tag = s.cur.tag ∧ exec (.cav r) s = .next (putEntry
      (setCav s s.cur.p r.d1.site.toNat k { (wellAt s s.cur.p r.d1.site.toNat).cavs.getD k default with
        contribs := ((wellAt s s.cur.p r.d1.site.toNat).cavs.getD k default).contribs ++ [y] }) s.cur.p r.d1.site.toNat
      (cavX ((wellAt s s.cur.p r.d1.site.toNat).cavs.getD k default) (laneN (portTok s.cur 1).lanes 0)) y.lanes y.poison) := by
  obtain ⟨⟨hports, hctl, hlit, hblk, hnull, -⟩, hobj, hown⟩ := hw
  have hb : (portTok s.cur 1).null = false := by
    have hmem : 1 ∈ portSet [0, 1] r.ctl := by simp [portSet, hlit]
    simpa using List.any_eq_false.1 hnull 1 hmem
  refine ⟨{ idx := laneN (portTok s.cur 1).lanes 0, lanes := contribLanes r s.cur (cavW r.obj)
            poison := curPoison s.cur && (contribLanes r s.cur (cavW r.obj)).any (·.isSome), tag := s.cur.tag, site := s.cur.site
            plane := s.cur.plane, node := s.cur.node, dest := r.d0, emit := emits r.ctl.emit0 true, late := s.cur.late }, rfl, rfl, ?_⟩
  simp only [exec_cav, execCav, hports, hobj, hcav, hsub, hlit, hctl, hblk, hb, hown, hk, hdesc, hjoined, hidle, hfree, Nat.not_lt.2 hwidth,
    bne_self_eq_false, Bool.not_true, Bool.or_self, Bool.false_eq_true, ne_eq, not_true_eq_false, and_false, or_self, if_false]

end

theorem paceq_completes {r : RecS} {s : State} (hpace : paceBad r.obj = false) (hsub : r.sub = 0) (hw : AtWell s r [0] 4)
    (hm : laneN (portTok s.cur 0).lanes 0 ≤ paceNM1 r.obj) :
    ∃ t c' v, c'.tag = s.cur.tag ∧ exec (.paceq r) s = .next (objEmit t c' r 6 v) := by
  rw [exec_paceq, execPaceq, pace_acts hpace hw hsub]
  simp only [if_neg (Nat.not_lt.2 hm)]
  refine ⟨_, _, _, ?_, rfl⟩
  rfl

theorem arrayAndCavityRecordsComplete : ArrayAndCavityRecordsComplete := by
  refine ⟨fun r s => ⟨arrayRecordFormsComplete r s, fun k row q hcell hcf hlit => ?_⟩, fun r s => ?_⟩
  · intro a t
    refine ⟨fun hhi hty ht hfmt ha hpoison hlen hch hfree => ?_, fun hhi hlev => ⟨fun hlow hty hfmt hq ht ha hlen hnew hroom =>
      mma_completes hcell hcf hlit hhi hlev hlow hty hfmt hq ht ha hlen hnew hroom, fun hrow hfmt ht => ⟨fun hlow ha hlen => ?_,
      fun hlow hn => ?_⟩⟩⟩
    · have hlane : (if r.ctl.lituse = 1 then r.lit.toNat else laneN (portTok s.cur 1).lanes 0) = laneN (portTok s.cur 1).lanes 0 :=
        if_neg (by rw [hlit]; decide)
      have hload := (weightChunksLoad r s k row q hhi hty hcf (by rw [hlit]; decide) ht hcell hfmt ha hlen (by rw [hlane]; exact hch) (.inr hpoison)).2 hfree
      rw [hlane] at hload
      exact hload
    all_goals have hall := (arrayRecordsComplete r s k row q (getLsbD_three_of_lt hhi) hcf hlit ht.2.1 ht.1 hlev hcell).2.2 hrow hfmt ht
    · exact ⟨_, rfl, rfl, hall.1 hlow ha hlen⟩
    · intro acc hrun hnext v xs hfit
      exact (hall.2 hlow hn).2 hrun hnext hfit
  · intro c w x i sent
    refine ⟨fun hcav hnone hfew hi => ⟨fun hsub hw hroom => cavjoinLocal_completes hcav hsub hw hnone hfew hi hroom, fun hsub hw => ?_⟩,
      fun k hcav hk => ?_, fun hpace hw => ?_⟩
    · intro b sg hseg hlo hhi hroom
      exact cavjoinSegment_completes hcav hsub hw hnone hfew hi hseg hlo hhi hroom
    · intro v hdesc hidle
      exact ⟨fun hsub hw hi hjoined hfree => cavjoinLeave_completes hcav hsub hw hk hdesc hidle hi hjoined hfree,
        fun hsub hw hjoined hfree hwidth => cav_completes hcav hsub hw hk hdesc hidle hjoined hfree hwidth⟩
    · obtain ⟨hinit, -, hload, hupdate, -, -, -⟩ := paceSetsAreKept r s hpace hw
      intro m
      refine ⟨fun hsub hn => ⟨_, _, _, rfl, hinit hsub hn⟩, fun hsub hd hm hpend => ⟨_, _, _, rfl, (hload hsub hd hm).2 hpend⟩,
        fun hsub hd hm hpend => ?_, fun hsub hm => ?_, fun hj hsub hnone hroom => ?_⟩
      · obtain ⟨x', bad, f, -, -, -, -, -, -, -, -, hgo⟩ := (hupdate hsub hd hm).2 hpend
        exact ⟨_, _, _, rfl, hgo⟩
      · exact paceq_completes hpace hsub hw hm
      · obtain ⟨hempty, hsome⟩ := ((sweepVisitsDueMembers r s hpace hsub hw hj).2 hnone).2 hroom
        by_cases hdue : (List.range (paceNM1 r.obj + 1)).filter (fun m => paceDue (memberAt s s.cur.p r.d1.site.toNat m)
            ((paceSidx s s.cur.p r.d1.site.toNat + 1) % 2 ^ 32)) = []
        · exact .inl ⟨_, _, _, rfl, hempty hdue⟩
        · exact .inr ⟨_, _, hsome hdue⟩

end Sys2Proof.Proofs
end


section
/-! PROOF. The records of the points and of the queues complete. -/
namespace Sys2Proof.Proofs
open Sys2Proof.Machine Sys2Proof.Safety Sys2Proof.Claims

/-! ## The records of the points and of the queues complete (O59) -/

theorem pointRecordsComplete : PointRecordsComplete := by
  refine ⟨fun r s => ⟨fun hports hbad hrange hctl hblock hnull hpred => ?_, (callocGrantsAndReads r s).1,
    fun hbad hctl hports hblock => ((returnSendsTheValue r s).1 hbad hctl hports hblock).2⟩, fun r s hcf hs hp ha => ?_⟩
  · obtain ⟨here, far⟩ := (((spawnQueuesADraw r s) hports).2 hbad hrange hctl hblock).1 hnull hpred
    exact ⟨fun hdie => ⟨_, rfl, rfl, rfl, here hdie⟩, far⟩
  · intro c die q asks there
    refine ⟨fun hobj => ?_, fun hsub hlo hhi hlev =>
      (exec_barriveTag r s).trans (bAct_now hs hp (barriveTag_fields hcf hsub hlo hhi hlev) ha rfl), fun hobj hown => ?_⟩
    · obtain ⟨init, -, free⟩ := (barriersAreMadeAndFreed r s).1 hcf hobj hs hp ha
      obtain ⟨waits, ticket⟩ := (barriersAreWaitedFor r s).1 hcf hobj hs hp ha
      refine ⟨fun hsub => ?_, fun hsub => ⟨free hsub, ticket hsub⟩⟩
      obtain ⟨wait, -, drop, test⟩ := waits hsub
      exact ⟨init hsub, fun hv => (exec_barrive r s).trans (bAct_now hs hp (barBad_eq_false hcf hobj hsub) ha (barrive_chk hv)),
        wait, drop, test⟩
    · have hmine : ¬ ((queueAt s q).state ≠ 0 ∧ (queueAt s q).part ≠ partOf s (matchCtx s c.p c.plane c.tag)) :=
        fun h => hown.elim h.1 h.2
      obtain ⟨plain, poll, mark⟩ := ((queueRecordsAct r s).1 hcf hobj hs hp).2 hmine
      exact ⟨plain, poll, fun hsub hsite hlate hpriv hst hlog => ((mark hsub hsite).2.2 hpriv hst hlog).2 hlate⟩

end Sys2Proof.Proofs
end


section
/-!
PROOF. Whether every record of the scribe completes (13 R299; 19 R390).

The other nine families of records complete: `integerRecordsComplete`, `moveRecordsComplete`, `blockRecordsComplete`,
`floatingRecordsComplete`, `laneRecordsComplete`, `memoryRecordsComplete`, `transferRecordsComplete`,
`arrayAndCavityRecordsComplete` and `pointRecordsComplete`. The records of the scribe do not for every state: the RULESET of
`twinState` waits on its table, though the table has no round in progress and nothing waits on it.
-/
namespace Sys2Proof.Proofs
open Sys2Proof.Machine Sys2Proof.Safety Sys2Proof.Claims

/-- A token is on its way, or panel 0 holds a report. -/
def shows (s : State) : Bool := !s.transit.isEmpty || !(boxAt s 0).entries.isEmpty

/-- What the state that an outcome answers shows. -/
def outcomeShows (o : Outcome) : Bool :=
  match o with
  | .next s => shows s
  | _ => false

theorem shows_post (s : State) {e : MbEntry} (h : e.panel = 0) : shows (post s e) = true := by
  have hlen : ((boxAt (post s e) 0).entries).length ≠ 0 := by
    rw [post, h, boxAt_postAt, List.length_take, length_withEntry]
    omega
  rw [shows, Bool.or_eq_true, Bool.not_eq_true', Bool.not_eq_true', List.isEmpty_eq_false_iff, List.isEmpty_eq_false_iff]
  exact .inr (fun hnil => hlen (by rw [hnil]; rfl))

theorem shows_transit (s : State) (ys : List Flight) (y : Flight) : shows { s with transit := ys ++ [y] } = true := by
  simp [shows]

/-- A token for site 7 that a scribe sends after its block's commit enters its queue, or is reported. -/
theorem shows_sendLate (s : State) {t : Token} (ht : t.site = 7) : shows (sendLate s 0 t) = true := by
  rw [sendLate, if_pos (by rw [ht]; decide)]
  split
  · rw [sendTok, if_neg (by rw [ht]; decide), if_neg (by rw [ht]; decide)]
    exact shows_transit s _ _
  · exact shows_post s rfl

/-- What the RULESET's acknowledgement sends to its destination. -/
theorem shows_send (s : State) {x : Send} (hx : x.dest = twinRec.d0) : shows (send s twinState.cur x) = true := by
  rw [send, if_pos (show twinState.cur.site = 240 from rfl), if_neg (by rintro ⟨-, h⟩; exact Bool.false_ne_true h)]
  refine shows_sendLate s ?_
  rw [tokenOf, hx]
  rfl

/-- A RULESET's acknowledgement is sent, or what keeps it back is reported. -/
theorem shows_emit0 (s : State) (n : Nat) : shows (emit0 s twinState.cur twinRec (ackVal twinState.cur.tag n)) = true := by
  rw [emit0, emitRes]
  dsimp only
  split
  · exact shows_post s rfl
  · exact shows_send _ rfl

/-- The RULESET of `twinState` sends nothing and reports nothing. -/
theorem twin_shows_nothing : outcomeShows (exec (.rulesetWrite twinRec) twinState) = false := by decide +kernel

theorem not_scribeRecordsComplete : ¬ ScribeRecordsComplete := by
  intro h
  have hat : AtScribe twinState twinRec := ⟨rfl, by decide, by decide⟩
  obtain ⟨hlate, -⟩ := h twinRec twinState rfl hat
  obtain ⟨hrules, -⟩ := hlate rfl
  obtain ⟨hwrite, -⟩ := hrules (by decide) (by decide) (by decide)
  obtain ⟨t, n, hgo⟩ := hwrite rfl (by decide +kernel) (by decide +kernel)
  have hshows : outcomeShows (exec (.rulesetWrite twinRec) twinState) = true := by
    rw [hgo]
    exact shows_emit0 t n
  exact Bool.false_ne_true (twin_shows_nothing.symm.trans hshows)

/-- Refutes O59: where a state lists a table twice, an empty one before one with a round in progress, a RULESET that meets the
empty one waits on the other, and neither writes its entry nor acknowledges it. The statement asks for the acknowledgement. -/
theorem not_everyRecordCompletes : ¬ Obligations.EveryRecordCompletes := by
  rintro ⟨-, -, -, -, -, -, -, -, -, hscribe⟩
  exact not_scribeRecordsComplete hscribe

end Sys2Proof.Proofs
end


section
/-! PROOF. The events of a nib complete (02 R38 to R46; 03 R68; 09 R199, R204; 10 R212; 12 R278). -/
namespace Sys2Proof.Proofs
open Sys2Proof.Machine Sys2Proof.Safety Sys2Proof.Claims

/-- The place that `idxOf` finds is a place of the list. -/
theorem getElem?_of_idxOf {α : Type} {p : α → Bool} {l : List α} {i : Nat} (h : idxOf p l = some i) : ∃ x, l[i]? = some x := by
  induction l generalizing i with
  | nil => cases h
  | cons y t ih =>
    rw [idxOf] at h
    split at h
    · obtain rfl := Option.some.inj h
      exact ⟨y, rfl⟩
    · obtain ⟨j, hj, rfl⟩ := Option.map_eq_some_iff.1 h
      exact ih hj

/-- A credit that a THROTTLE takes in opens an entry of its base or adds to one. -/
theorem throttleCredit_completes {s : State} {f : Flight} (hk : s.transit[s.sel.k]? = some f) (hqueued : f.queued = false)
    (hsnap : f.tok.snap = false) (hcredit : isCredit s f = true) (hbehind : behindOwn s s.sel.k f = false)
    (hlate : entryLate s f = false) (hnib : isNib f.tok.site.toNat = true) (hsite : f.tok.site.toNat < 240)
    (hshut : entryShut s (matchCtx s f.p f.tok.plane.toNat f.tok.tag) = false) (hadmits : admits s f.p f.tok.tag = true)
    (hruns : planeRuns s f.p f.tok.plane.toNat = true)
    (hport : (portsOf (recAt s f.p f.tok.site.toNat f.tok.plane.toNat f.tok.node.toNat)).contains 1 = true)
    (hrow : rowFree s f.p f.tok.site.toNat f.tok.plane.toNat f.tok.tag = true) :
    ∃ thr, exec .throttleCredit s = .next (settle (setNib (noteTook { s with transit := dropAt s.transit s.sel.k } f) f.p f.tok.site.toNat
      { nibAt (noteTook { s with transit := dropAt s.transit s.sel.k } f) f.p f.tok.site.toNat with thr := thr }) f.p f.tok.site.toNat) := by
  obtain ⟨opens, adds⟩ := throttleCreditOpensOrAdds s f hk hqueued hsnap hcredit hbehind hlate hnib hsite hshut hadmits hruns hport
  cases hidx : idxOf (fun e : ThrEntry => e.plane == f.tok.plane.toNat && e.node == f.tok.node.toNat &&
      e.base == baseTag s f.p f.tok.plane.toNat f.tok.tag
        (entryLevel (recAt s f.p f.tok.site.toNat f.tok.plane.toNat f.tok.node.toNat)))
      (nibAt (noteTook { s with transit := dropAt s.transit s.sel.k } f) f.p f.tok.site.toNat).thr with
  | none => exact ⟨_, opens hidx hrow⟩
  | some i =>
    obtain ⟨e, he⟩ := getElem?_of_idxOf hidx
    exact ⟨_, adds i e hidx he⟩

theorem nibEventsComplete : NibEventsComplete := by
  intro s p n
  refine ⟨fun f hk hqueued hsnap heau hbehind hlate hshut hnib hadmits hruns => ?_, fun site m store got hret hscales hroom =>
    ⟨_, frameMatchJoinsReadyList s site m store got hret hscales hroom⟩, fun f hk => (scaleTokensAreStored s f hk).1,
    fun hnib hstart hmod => ?_, fun d => delayedResultsAreDelivered s d, fun g fmt count hg hkind hlast hroom hslots hgate => ?_,
    fun r e hrow hdec hblk hcount => ?_⟩
  · intro site k w s1
    refine ⟨fun hcredit hmark => ?_, fun hcredit hsite hport hrow =>
      throttleCredit_completes hk hqueued hsnap hcredit hbehind hlate hnib hsite hshut hadmits hruns hport hrow⟩
    obtain ⟨-, -, arrives⟩ := tokenArrivalAtANib s f hk hqueued hsnap heau hcredit hbehind hlate hshut hnib
    exact (arrives hadmits hruns hmark).2
  · obtain ⟨n', hgo, hn', -⟩ := shareWindowStarts s hnib hstart hmod
    exact ⟨n'.share, by rw [hgo, hn']⟩
  · obtain ⟨ready, -, hgo⟩ := generatorSendsTokenByToken s g fmt count hg hkind hlast hroom hslots hgate
    exact ⟨_, _, _, rfl, rfl, rfl, hgo⟩
  · exact ⟨_, _, (rankAdmission r s).2 e hrow hdec hblk hcount⟩

end Sys2Proof.Proofs
end


section
/-!
PROOF. The events behind the wells complete (04 R86 to R95; 05 R108; 06 R126, R130; 11 R237, R246, R250, R255, R260; 12 R264, R266;
18 R365).
-/
namespace Sys2Proof.Proofs
open Sys2Proof.Machine Sys2Proof.Safety Sys2Proof.Claims

/-! ## Rounds of a cavity (12 R264, R266) -/

section
variable {s : State} {v : Cavity} (hk : (wellAt s s.sel.p s.sel.site).cavs[s.sel.k]? = some v) (hstall : v.stalled = false)
    (hbusy : cavBusy v = true)
include hk hstall hbusy

/-- The forward half of a round at the first segment of a cavity, which has no carry before it. -/
theorem cavityRound_forward (hhalf : v.half = false) (hseg : v.seg = 0) :
    exec .cavityRound s = .next (fwdHalf s s.sel.p s.sel.site s.sel.k v (noCarry v)) := by
  rw [exec_cavityRound, execCavityRound]
  simp only [hk, hbusy, hstall, hhalf, hseg, Bool.not_true, Bool.not_false, Bool.false_eq_true, or_self, if_true, if_false]

/-- A poll that finds no carry yet sets the time of the next. -/
theorem cavityCarryPoll_empty {up : Bool} {pa : Nat} {cls : Nat} (hdue : v.poll ≤ s.cycle)
    (hwants : (up = false ∧ v.half = false ∧ v.seg ≠ 0 ∧ v.pc = none) ∨ (up = true ∧ v.half = true ∧ v.last = false ∧ v.sc = none))
    (hx : (xlateNow s v.ctx s.sel.p 240 1 (v.link + 512 * v.seg + (if up then 256 else 0)) .read).2 = .ok pa cls)
    (hown : ownDev (xlateNow s v.ctx s.sel.p 240 1 (v.link + 512 * v.seg + (if up then 256 else 0)) .read).1 pa = true)
    (hnone : (readCarry (xlateNow s v.ctx s.sel.p 240 1 (v.link + 512 * v.seg + (if up then 256 else 0)) .read).1 s.sel.p s.sel.site v
      (v.link + 512 * v.seg + (if up then 256 else 0))).2 = .ok none) :
    exec .cavityCarryPoll s = .next (setCav (readCarry (xlateNow s v.ctx s.sel.p 240 1 (v.link + 512 * v.seg + (if up then 256 else 0)) .read).1
      s.sel.p s.sel.site v (v.link + 512 * v.seg + (if up then 256 else 0))).1 s.sel.p s.sel.site s.sel.k { v with poll := s.cycle + 64 }) := by
  have hhalf : v.half = up := by
    rcases hwants with ⟨hup, hv, -⟩ | ⟨hup, hv, -⟩ <;> rw [hup, hv]
  have hgo : (if up then v.last || v.sc.isSome else v.seg == 0 || v.pc.isSome) = false := by
    rcases hwants with ⟨hup, -, hseg, hpc⟩ | ⟨hup, -, hlast, hsc⟩
    · rw [hup, hpc, beq_false_of_ne hseg]; rfl
    · rw [hup, hlast, hsc]; rfl
  obtain ⟨s1, x, hxlate⟩ : ∃ s1 x, xlateNow s v.ctx s.sel.p 240 1 (v.link + 512 * v.seg + (if up then 256 else 0)) .read = (s1, x) :=
    ⟨_, _, rfl⟩
  rw [hxlate] at hx hown hnone ⊢
  obtain ⟨s2, y, hread⟩ : ∃ s2 y, readCarry s1 s.sel.p s.sel.site v (v.link + 512 * v.seg + (if up then 256 else 0)) = (s2, y) := ⟨_, _, rfl⟩
  rw [hread] at hnone ⊢
  obtain rfl : x = .ok pa cls := hx
  obtain rfl : y = .ok none := hnone
  rw [exec_cavityCarryPoll, execCavityCarryPoll]
  simp only [hk, hbusy, hstall, hhalf, hgo, hxlate, hread, show ownDev s1 pa = true from hown, if_neg (Nat.not_lt.2 hdue), Bool.not_true,
    Bool.false_eq_true, or_self, if_false]

end

theorem memoryEventsComplete : MemoryEventsComplete := by
  intro s p w o x
  obtain ⟨fill, line, serves, -, walk⟩ := fillsServiceAndWalks s
  refine ⟨fun place addr a hk hracc hreply hnew hroom hidx hcnt => ?_, fun pc rest hpend hmode hframes hret hslots hround hwell hpins hacc => ?_,
    fun a hk hlt hgate hclosed hseq hstuck hroom => ?_, fun a e rest hk hp hsite hw hskew hnull hheld hstart hturn hadm hpend hrel hspace hmode hop hfifo => ?_,
    fun a sec t slot hk hmode hcomb hfind hslot => ⟨_, rfl, fill a sec t slot hk hmode hcomb hfind hslot⟩,
    fun q f rest sec pa id hreq hpath hf hkind hdata => line q f rest _ _ id sec pa hreq hpath hf hkind hdata, serves,
    fun q y id row k hkind hx hreq hpath hgo harr hlen hborn => ?_, fun hp hnew => ?_, fun y rest k hq => ?_,
    fun a y hk hn hcomplete hcol hrun hidx => ?_, fun v hk hstall hbusy => ⟨cavityRound_forward hk hstall hbusy, fun up pa cls hdue hwants => ?_⟩, walk⟩
  · intro y t
    have hgo := (addendsApplyInIndexOrder s place addr a hk hracc hreply hnew hroom).2.2 hidx (by rw [hcnt]; decide)
    simp only [hcnt, if_true] at hgo
    exact hgo
  · exact (configurationTakesEffect s pc rest hpend hmode hframes hret hslots hround hwell hpins).1 hacc
  · exact ⟨_, rfl, rfl, ((orderBufferReleasesInChainOrder s a hk hlt hgate hstuck).1 hclosed).1 hseq hroom⟩
  · obtain ⟨-, fifo, -⟩ := wellAccessPerforms s a hk hp hsite hw (hp ▸ hskew) hnull hheld hstart hturn hadm (hp ▸ hpend) hrel
    refine ((fifo hspace (hp ▸ hmode)).2 e rest hop (hp ▸ hfifo)).trans ?_
    simp only [x, p, ← hp]
    rfl
  · exact ((transferSectorsComplete s q y id row k hkind hx).1 hreq hpath).2.2.1 hgo harr hlen hborn
  · obtain ⟨t, hgo, hlast, -, -, -, hkeeps⟩ := pulsesUpdateCounters s hp hnew
    exact ⟨t, hgo, hlast, hkeeps⟩
  · intro e hvalid hnib hlo hhi hinj hroom
    exact ⟨_, rfl, (scaleTokensAreSent s).2 y rest k hq hvalid hnib hlo hhi hinj hroom⟩
  · exact ((passesUpdateInOrder s a y hk hn).1 hcomplete hcol (.inl ⟨hrun, hidx⟩)).1
  · intro at_ z hx hown hnone
    exact cavityCarryPoll_empty hk hstall hbusy hdue hwants hx hown hnone

end Sys2Proof.Proofs
end


section
/-!
PROOF. The events of rule tables, groups, barriers, blocks and traps complete (19 R384 to R388; 16 R331 to R340; 17 R349, R350; 02 R52,
R53; 20 R397 to R400).
-/
namespace Sys2Proof.Proofs
open Sys2Proof.Machine Sys2Proof.Safety Sys2Proof.Claims

/-- Flags that are set or not leave the counters and the memory. -/
theorem flagged_keeps {poison : Bool} (s : State) (part colour : Nat) (f : BitVec 5) :
    (if poison then s else orFlags s part colour f).pgs = s.pgs ∧ (if poison then s else orFlags s part colour f).mem = s.mem := by
  cases poison with
  | true => exact ⟨rfl, rfl⟩
  | false =>
    rw [if_neg Bool.false_ne_true, (orFlags_onlySends 0 s part colour f).rest]
    exact ⟨rfl, rfl⟩

/-- PARKWAIT_EXPIRY: a context whose groups have all waited for their PWAIT, while work waits for its panels, parks. -/
theorem parkwaitExpiry_parks {s : State} (hruns : ctxRuns s s.sel.ctx = true) (hgroups : ctxGroups s s.sel.ctx ≠ [])
    (hwork : workWaits s s.sel.ctx 0 = true)
    (hidle : ∀ g ∈ ctxGroups s s.sel.ctx, ∀ c rest, groupColours s (partOf s s.sel.ctx) g = c :: rest →
      (colourAt s (partOf s s.sel.ctx) c).gstate = 2 ∧ (colourAt s (partOf s s.sel.ctx) c).pwait ≠ 0 ∧
        (groupAt s g).lastIssue + (colourAt s (partOf s s.sel.ctx) c).pwait < s.cycle) :
    exec .parkwaitExpiry s = .next (parkStart s s.sel.ctx none false) := by
  rw [exec_parkwaitExpiry, execParkwaitExpiry]
  refine if_neg ?_
  rw [hruns, hwork]
  rintro (h | h | h | h)
  · exact Bool.false_ne_true h
  · exact hgroups (List.isEmpty_iff.1 h)
  · rw [Bool.not_eq_true', ← Bool.not_eq_true, List.all_eq_true] at h
    refine h fun g hg => ?_
    split
    next c rest hcs =>
      obtain ⟨hstate, hpwait, hlong⟩ := hidle g hg c rest hcs
      rw [Bool.and_eq_true, Bool.and_eq_true, beq_iff_eq, bne_iff_ne, decide_eq_true_eq]
      exact ⟨⟨hstate, hpwait⟩, hlong⟩
    next => rfl
  · exact Bool.false_ne_true h

theorem pointEventsComplete : PointEventsComplete := by
  intro s p
  obtain ⟨idle, -, drain⟩ := groupsIdleAndDrain s
  obtain ⟨-, starves, notify⟩ := barriersStarveAndNotify s
  refine ⟨fun a ha hfirst hu hroom => (ruleArrivalsMeetTheirTable s a ha hfirst).1 hu hroom, fun idx e => ?_,
    fun i f => drainFencesComplete s i f, fun f hk hqueued hsnap hcredit hnode hnull => ?_,
    fun d c r cs hd hspawn => (drawsOpenGroups s d c r cs hd hspawn).2.2.2, returnTokensAreDelivered s, ?_,
    fun c rest hcs => (idle c rest hcs).1, fun hruns hgroups hwork hidle => parkwaitExpiry_parks hruns hgroups hwork hidle, starves, notify,
    fun k hk hmay hnext => ?_, fun b hb hgate hexc hone hdone hwaits htret => ?_, fun d hcur hgo hgate hth hdue => ?_,
    fun die addr g e hloc he => (errorsStrikeTheirStore s).2.1 die addr g e hloc he⟩
  · intro t hin hnext hc ha hq hg hp a d tok
    obtain ⟨-, emits, -⟩ := ruleTablesEmit s idx e hin hnext
    obtain ⟨more, last⟩ := emits hc ha hq hg hp
    let s0 := setTable s p s.sel.num { t with credits := t.credits - 1, accs := tput t.accs idx { a with emitted := true } }
    let u := if a.poison then s0 else orFlags s0 (partOf s0 (matchCtx s0 p t.plane (entryEtag e))) (colourOf (entryEtag e)) a.flags
    refine ⟨u, flagged_keeps s0 _ _ _, ?_⟩
    let s1 := sendTok u p (241 + t.edge) tok
    by_cases hlast : nextEntry (tableAt s1 p s.sel.num) = none
    · exact (last hlast).trans (congrArg _ (if_pos (Option.isNone_iff_eq_none.2 hlast)).symm)
    · exact (more hlast).trans (congrArg _ (if_neg (mt Option.isNone_iff_eq_none.1 hlast)).symm)
  · intro t harmed hedge
    exact (creditsReturnToTables s f hk hqueued hsnap hcredit).2 hnode harmed hedge hnull
  · intro e hretd hdrained hstate hbusy s1 hleft
    exact (drain hretd hdrained hstate hbusy).1 hleft
  · intro sc b s1 hok
    exact (((blocksAreEntered s k) hk).2.2 hmay hnext).1 hok
  · intro hfin
    exact ((blocksCommitOrFail s b hb hgate).2.2.2.1 hexc hone hdone hwaits htret).1 hfin
  · intro hok
    exact (((trapsAreTaken s).2) d hcur hgo hgate hth hdue).1 hok

end Sys2Proof.Proofs
end


section
/-!
PROOF. What the caches of far memory change (04 R90 to R97; 05 R104 to R106; 16 R342, R343): the functions on the L2 of a die, its
copies in page windows and its release filters leave every other part of the state, and far memory in its canonical form.
-/
namespace Sys2Proof.Proofs
open Sys2Proof.Machine Sys2Proof.Safety Sys2Proof.Claims

/-- Nothing but far memory and its copies, and the requests and services that writing them back brings, differs in `t`; far memory
stays canonical. -/
structure CacheKeeps (s t : State) : Prop where
  rest : t = { s with mem := t.mem, memBad := t.memBad, l2 := t.l2, l2lines := t.l2lines, wells := t.wells, traffic := t.traffic
                      filters := t.filters, reqs := t.reqs, served := t.served }
  mem : memWf s.mem = true → memWf t.mem = true

namespace CacheKeeps
variable {s t u : State}

theorem refl (s : State) : CacheKeeps s s := ⟨rfl, id⟩

theorem trans (h : CacheKeeps s t) (k : CacheKeeps t u) : CacheKeeps s u := by
  obtain ⟨hrest, hmem⟩ := h
  obtain ⟨krest, kmem⟩ := k
  refine ⟨?_, fun hs => kmem (hmem hs)⟩
  rw [krest, hrest]

theorem launches (h : CacheKeeps s t) : t.launches = s.launches := by rw [h.rest]

theorem wmem (h : CacheKeeps s t) : t.wmem = s.wmem := by rw [h.rest]

theorem memories (h : CacheKeeps s t) (hs : MemoriesOk s) : MemoriesOk t := ⟨h.mem hs.1, by rw [h.wmem]; exact hs.2⟩

theorem foldl {β : Type} {f : State → β → State} {l : List β} (h : CacheKeeps s t) (hf : ∀ u x, CacheKeeps s u → CacheKeeps s (f u x)) :
    CacheKeeps s (l.foldl f t) := by
  induction l generalizing t with
  | nil => exact h
  | cons x l ih => exact ih (hf t x h)

theorem foldl_fst {β γ : Type} {f : State × γ → β → State × γ} {l : List β} {y : State × γ} (h : CacheKeeps s y.1)
    (hf : ∀ u x, CacheKeeps s u.1 → CacheKeeps s (f u x).1) : CacheKeeps s (l.foldl f y).1 := by
  induction l generalizing y with
  | nil => exact h
  | cons x l ih => exact ih (hf y x h)

theorem iter {f : State → Nat → State} {n : Nat} (h : CacheKeeps s t) (hf : ∀ u x, CacheKeeps s u → CacheKeeps s (f u x)) :
    CacheKeeps s (Machine.iter t n f) := h.foldl hf

/-! ## Single sectors and lines -/

theorem count32 {die ctx k : Nat} (h : CacheKeeps s t) : CacheKeeps s (count32 t die ctx k) := h.trans ⟨rfl, id⟩

theorem putL2 {die hf : Nat} {x : L2Sector} (h : CacheKeeps s t) : CacheKeeps s (putL2 t die hf x) := h.trans ⟨rfl, id⟩

theorem delL2 {die hf : Nat} (h : CacheKeeps s t) : CacheKeeps s (delL2 t die hf) := h.trans ⟨rfl, id⟩

theorem setWell {p w : Nat} {x : Well} (h : CacheKeeps s t) : CacheKeeps s (setWell t p w x) := h.trans ⟨rfl, id⟩

theorem lines {x : Tab L2Line} (h : CacheKeeps s t) : CacheKeeps s { t with l2lines := x } := h.trans ⟨rfl, id⟩

theorem filterTab {x : Tab (List FilterEntry)} (h : CacheKeeps s t) : CacheKeeps s { t with filters := x } := h.trans ⟨rfl, id⟩

theorem asks {x : List Req} (h : CacheKeeps s t) : CacheKeeps s { t with reqs := x } := h.trans ⟨rfl, id⟩

theorem markServed {arb part : Nat} (h : CacheKeeps s t) : CacheKeeps s (markServed t arb part) := h.trans ⟨rfl, id⟩

theorem writeDram {hf ctx : Nat} {d : BitVec 256} {poison : Bool} (h : CacheKeeps s t) : CacheKeeps s (writeDram t hf ctx d poison) :=
  h.trans ⟨rfl, memWf_mwrites _ _⟩

theorem putLine {die hf : Nat} {x : LineTag} (h : CacheKeeps s t) : CacheKeeps s (putLine t die hf x) := h.lines

theorem gatherWindows {keep : Option Nat} {dies : List Nat} {drop : Bool} {ga : Nat} (h : CacheKeeps s t) :
    CacheKeeps s (gatherWindows t keep dies drop ga).1 := by
  refine foldl_fst h fun u k hu => ?_
  dsimp only
  split
  · exact hu
  · split
    · exact hu
    · exact hu.setWell

theorem crossHome {die hf : Nat} (h : CacheKeeps s t) : CacheKeeps s (crossHome t die hf) := by
  unfold Machine.crossHome
  split
  · split
    · exact h
    · exact h.count32.count32
  · exact h

section
variable {line : State → Nat → Nat → LineTag → State} (hline : ∀ s t die hf x, CacheKeeps s t → CacheKeeps s (line t die hf x))
include hline

theorem mergeWith {die hf : Nat} (h : CacheKeeps s t) : CacheKeeps s (mergeWith line t die hf) := by
  unfold Machine.mergeWith
  dsimp only
  split
  · exact h
  · split
    · exact h
    · have hpassed : ∀ (l : List Nat) {u : State}, CacheKeeps s u →
          CacheKeeps s (l.foldl (fun s d => Machine.delL2 (Machine.crossHome s d hf) d hf) u) :=
        fun l _ hu => hu.foldl fun _ _ hv => hv.crossHome.delL2
      split
      · exact (hline _ _ _ _ _ (hpassed _ h.gatherWindows.crossHome)).putL2.putL2
      · exact (hline _ _ _ _ _ (hpassed _ h.gatherWindows.crossHome)).putL2

theorem evictWith {key : Nat} (h : CacheKeeps s t) : CacheKeeps s (evictWith line t key) := by
  refine lines (h.iter fun u i hu => ?_)
  dsimp only
  split
  · exact hu
  · refine delL2 ?_
    split
    · split
      · exact hu.writeDram
      · exact hu
    · exact hu.mergeWith hline

end

theorem lineIn {n die hf : Nat} {x : LineTag} (h : CacheKeeps s t) : CacheKeeps s (lineIn n t die hf x) := by
  induction n generalizing s t die hf x with
  | zero => exact h.putLine
  | succ n ih =>
    unfold Machine.lineIn
    dsimp only
    split
    · exact h.lines
    · refine putLine ?_
      split
      · exact h
      · split
        · exact h.evictWith fun s t die hf x h => ih h
        · exact h

theorem ensureLine {die hf : Nat} {x : LineTag} (h : CacheKeeps s t) : CacheKeeps s (ensureLine t die hf x) := h.lineIn

theorem passOn {die hf : Nat} (h : CacheKeeps s t) : CacheKeeps s (passOn t die hf) := h.mergeWith fun _ _ _ _ _ h => h.ensureLine

theorem pushDie {die : Nat} (h : CacheKeeps s t) : CacheKeeps s (pushDie t die) := by
  refine h.foldl fun u x hu => ?_
  split
  · exact hu.passOn
  · exact hu

theorem fetchL2 {die hf ctx : Nat} {x : LineTag} (h : CacheKeeps s t) : CacheKeeps s (fetchL2 t die hf ctx x) := by
  have hcross : ∀ u : State, CacheKeeps s u → CacheKeeps s (if die = homeDie hf then u
      else Machine.count32 (Machine.count32 (Machine.putL2 (Machine.ensureLine u die hf x) die hf
        { data := (homeSector u hf).1, dirty := false, poison := (homeSector u hf).2, ctx := ctx }) (homeDie hf) ctx 3) die ctx 2) := by
    intro u hu
    split
    · exact hu
    · exact hu.ensureLine.putL2.count32.count32
  unfold Machine.fetchL2
  split
  · exact h.ensureLine
  · refine hcross _ ?_
    split
    · exact h.ensureLine
    · exact h.ensureLine.putL2.count32

theorem fetchLine {die hf ctx : Nat} {x : LineTag} (h : CacheKeeps s t) : CacheKeeps s (fetchLine t die hf ctx x) :=
  h.iter fun _ _ hu => hu.fetchL2

theorem installRemote {die ga ctx : Nat} {d : BitVec 256} {poison : Bool} (h : CacheKeeps s t) :
    CacheKeeps s (installRemote t die ga ctx d poison) := h.ensureLine.putL2

theorem invalidate {hf : Nat} (h : CacheKeeps s t) : CacheKeeps s (invalidate t hf) := by
  refine h.iter fun u d hu => ?_
  split
  · exact hu
  · exact hu.passOn.delL2

theorem putBytes {keep : Option Nat} {die hf ctx : Nat} {x : LineTag} {bs : List (Nat × Byte)} {poison wide : Bool} (h : CacheKeeps s t) :
    CacheKeeps s (putBytes t keep die hf ctx x bs poison wide) := by
  have hgather : ∀ u : State, CacheKeeps s u → CacheKeeps s (if die == homeDie hf then
      Machine.gatherWindows u keep ((List.range 3).filter (fun d => d != die)) true hf else (u, none)).1 := by
    intro u hu
    split
    · exact hu.gatherWindows
    · exact hu
  have hplace : ∀ (u : State) (b : Bool), CacheKeeps s u →
      CacheKeeps s (if b then Machine.ensureLine u die hf x else Machine.fetchL2 u die hf ctx x) := by
    intro u b hu
    split
    · exact hu.ensureLine
    · exact hu.fetchL2
  have hcopies : ∀ u : State, CacheKeeps s u → CacheKeeps s (if die == homeDie hf then Machine.invalidate u hf else u) := by
    intro u hu
    split
    · exact hu.invalidate
    · exact hu
  exact (hcopies _ (hplace _ _ (hgather _ h.gatherWindows))).putL2

theorem readL2 {die scope hf ctx : Nat} {x : LineTag} (h : CacheKeeps s t) : CacheKeeps s (readL2 t die scope hf ctx x).1 := by
  unfold Machine.readL2
  generalize (decide (3 ≤ scope) && die != homeDie hf) = far
  cases far with
  | false => exact h.fetchL2
  | true =>
    dsimp only [Bool.not_true]
    split
    · exact h.passOn.fetchL2
    · split
      · exact h.passOn.fetchL2.count32.count32.putL2
      · exact h.passOn.fetchL2.count32.count32

theorem writeL2 {keep : Option Nat} {die scope hf ctx : Nat} {x : LineTag} {bs : List (Nat × Byte)} {poison : Bool} (h : CacheKeeps s t) :
    CacheKeeps s (writeL2 t keep die scope hf ctx x bs poison) := by
  unfold Machine.writeL2
  split
  · exact h
  · split
    · exact h.putBytes
    · exact h.passOn.gatherWindows.putBytes.count32.count32

/-! ## Page windows and release filters -/

theorem dropNarrow {die : Nat} (h : CacheKeeps s t) : CacheKeeps s (dropNarrow t die) := by
  refine h.foldl fun u x hu => ?_
  dsimp only
  split
  · have hwindows : ∀ hf, CacheKeeps s ((windows u).foldl (fun s k =>
        match windowHolds s k hf with
        | some (i, sl) =>
          if dieOf (k / 256) = die ∧ !bit sl.dirty (hf % 4096 / 32) then
            Machine.setWell s (k / 256) (k % 256) { wellAt s (k / 256) (k % 256) with
              slots := tput (wellAt s (k / 256) (k % 256)).slots i (slotLose sl (hf % 4096 / 32) true) }
          else s
        | none => s) u) := by
      intro hf
      refine hu.foldl fun v k hv => ?_
      split
      · split
        · exact hv.setWell
        · exact hv
      · exact hv
    split
    · exact (hwindows _).putL2
    · exact hwindows _
  · exact hu

theorem leaveFilter {p hf : Nat} (h : CacheKeeps s t) : CacheKeeps s (leaveFilter t p hf) := h.filterTab

theorem wbSector {p w slot sec : Nat} (h : CacheKeeps s t) : CacheKeeps s (wbSector t p w slot sec) := by
  unfold Machine.wbSector
  dsimp only
  split
  · exact h
  · split
    · split
      · split
        · exact h.setWell
        · exact h.setWell.asks
      · exact h.setWell.markServed.putBytes
    · exact h

theorem wbSlot {p w slot : Nat} (h : CacheKeeps s t) : CacheKeeps s (wbSlot t p w slot) := by
  unfold Machine.wbSlot
  split
  · split
    · exact h
    · exact h.iter fun _ _ hu => hu.wbSector
  · exact h

theorem wbWindow {p w : Nat} (h : CacheKeeps s t) : CacheKeeps s (wbWindow t p w) := h.foldl fun _ _ hu => hu.wbSlot

theorem releaseWindow {p w : Nat} (h : CacheKeeps s t) : CacheKeeps s (releaseWindow t p w) := by
  have hleft : CacheKeeps s ((filterDirty t p w).foldl (fun s ga => Machine.leaveFilter s p ga) (Machine.wbWindow t p w)) :=
    h.wbWindow.foldl fun _ _ hu => hu.leaveFilter
  unfold Machine.releaseWindow
  dsimp only
  split
  · exact hleft
  · exact hleft.pushDie

theorem pushScope {p scope : Nat} {ctx : Option Nat} (h : CacheKeeps s t) : CacheKeeps s (pushScope t p scope ctx) := by
  have hreleased : CacheKeeps s ((windows t).foldl (fun s k =>
      if k / 256 = p ∧ (ctx = none ∨ ctx = (wellAt s p (k % 256)).owner) then Machine.releaseWindow s p (k % 256) else s) t) := by
    refine h.foldl fun u k hu => ?_
    split
    · exact hu.releaseWindow
    · exact hu
  unfold Machine.pushScope
  split
  · exact h
  · dsimp only
    split
    · exact hreleased.dropNarrow
    · exact hreleased.dropNarrow.pushDie

theorem recordRelease {p hf : Nat} (h : CacheKeeps s t) : CacheKeeps s (recordRelease t p hf) := by
  unfold Machine.recordRelease
  dsimp only
  split
  · exact h.filterTab
  · refine filterTab ?_
    split
    · exact h
    · split
      · refine h.iter fun u i hu => ?_
        split
        · exact hu.pushScope
        · exact hu
      · exact h

theorem promotePush {hf scope : Nat} (h : CacheKeeps s t) : CacheKeeps s (promotePush t hf scope) :=
  h.foldl fun _ _ hu => hu.pushScope.leaveFilter

/-- Bytes that the part itself stores. -/
theorem physStore {ctx pa : Nat} {bs : List Byte} (h : CacheKeeps s t) : CacheKeeps s (physStore t ctx pa bs) :=
  h.foldl fun _ _ hu => hu.writeL2

end CacheKeeps

end Sys2Proof.Proofs
end


section
/-!
PROOF. The events of queues, launches, planes and snapshots complete (14 R302 to R313; 15 R318 to R328).
-/
namespace Sys2Proof.Proofs
open Sys2Proof.Machine Sys2Proof.Safety Sys2Proof.Claims

/-! ## A launch that completes (14 R313) -/

theorem planeDrain_launches (s : State) (p k : Nat) : (planeDrain s p k).launches = s.launches := by
  unfold planeDrain
  dsimp only
  split
  · split <;> rfl
  · rfl

/-- Planes that drain leave the launches. -/
theorem iter_planeDrain_launches (s : State) (n : Nat) (mine : Nat → Bool) (p k : Nat → Nat) :
    (iter s n (fun t i => if mine i then planeDrain t (p i) (k i) else t)).launches = s.launches := by
  rw [iter]
  generalize List.range n = l
  induction l generalizing s with
  | nil => rfl
  | cons i l ih =>
    refine (ih _).trans ?_
    dsimp only
    split
    · exact planeDrain_launches ..
    · rfl

theorem physStore_launches (s : State) (ctx pa : Nat) (bs : List Byte) : (physStore s ctx pa bs).launches = s.launches :=
  (CacheKeeps.refl s).physStore.launches

theorem completeRec_launches (s : State) (q seq : Nat) (irq : Bool) (status : Nat) (flags : BitVec 5) (cycles : Nat) :
    (completeRec s q seq irq status flags cycles).launches = s.launches := by
  simp only [completeRec, setQueue, apply_ite State.launches, physStore_launches, ite_self]

theorem launchCompletion_leaves {s : State} {y : Launch} (hy : s.launches[s.sel.k]? = some y) (hstage : y.stage = 3) :
    ∃ t, exec .launchCompletion s = .next t ∧ t.launches = dropAt s.launches s.sel.k := by
  have hgo : ¬ y.stage ≠ 3 := fun h => h hstage
  rw [exec_launchCompletion]
  simp only [execLaunchCompletion, hy, if_neg hgo]
  exact ⟨_, rfl, (completeRec_launches ..).trans (iter_planeDrain_launches ..)⟩

/-! ## Flips and markers (15 R323, R324, R327) -/

theorem isWell_of_nib {site : Nat} (h : isNib site = true) : isWell site = false := by
  rw [isNib, Bool.and_eq_true, Bool.not_eq_true'] at h
  exact h.2

/-- A flip whose plane passes its re-check is taken, and the KFLIP that asked for it emits. -/
theorem flipTakesEffect_taken {s s0 : State} {k born : Nat} {c : Cur} {r : RecS}
    (hflip : (panelAt s s.sel.p).flip = some { target := k, ask := some (c, r), born := born })
    (hs0 : s0 = setPanel s s.sel.p { panelAt s s.sel.p with flip := none })
    (hstate : (planeOf s0 s.sel.p k).state = 2 ∨ (planeOf s0 s.sel.p k).state = 5) (hcheck : recheckBad s0 s.sel.p k = false)
    (hwords : ((planeOf s0 s.sel.p k).wells.any (flipWellBad s0 s.sel.p (planeOf s0 s.sel.p k).ctx) ||
      (planeOf s0 s.sel.p k).rules.any entryBad) = false) :
    exec .flipTakesEffect s = .next (launchesGo (flushFlip (planeEmit (flipTake s0 s.sel.p k) c r 0 s.sel.p k) s.sel.p)) := by
  have hnow : flipNow s0 s.sel.p k = (flipTake s0 s.sel.p k, true) := by
    have hready : ¬ ((planeOf s0 s.sel.p k).state ≠ 2 ∧ (planeOf s0 s.sel.p k).state ≠ 5) := fun h => hstate.elim h.1 h.2
    simp only [flipNow, if_neg hready, hcheck, hwords, Bool.false_eq_true, if_false]
  subst hs0
  rw [exec_flipTakesEffect]
  simp only [execFlipTakesEffect, hflip, hnow, if_true]

theorem launchEventsComplete : LaunchEventsComplete := by
  intro s q x ws
  refine ⟨fun hq hreach hlen => ?_, fun hdie hturn hfree => ?_, fun y hy hstage => launchCompletion_leaves hy hstage, ?_,
    fun k born c r hflip => ?_, fun f hk hqueued hsnap hbehind hlate => ?_, fun sn d hsn hdead hdue => ?_⟩
  · obtain ⟨-, control, -, append, -⟩ := hostLinesMoveQueues s hq
    obtain ⟨-, config, start, -, stop, -, reset, -, clro, other⟩ := control hreach hlen
    refine ⟨append hreach hlen, fun hc hst hok => ⟨_, rfl, rfl, config hc (.inl hst) hok⟩, start, stop, fun hc hst hrun => ?_, clro,
      fun hc => other (.inr hc)⟩
    exact (reset hc hst).trans (congrArg _ (congrArg _ (if_pos hrun)))
  · intro d s0 refusedHead hs prio t hnone
    exact ((headsAreRefusedOrPlaced s hdie hturn hfree).2 hnone).2.1
  · intro p k y
    refine ⟨fun hst hok => ?_, fun hst hempty => ?_⟩
    · rw [exec_stageComplete]
      exact (if_neg (fun h => h hst)).trans (if_pos hok)
    · rw [exec_planeEmpty]
      exact (if_neg (fun h => h hst)).trans (if_pos hempty)
  · intro p s0 y hstate hcheck hwords
    exact flipTakesEffect_taken hflip rfl hstate hcheck hwords
  · intro t site w hnib hdead hnew hadmits hruns hport hop
    have hwell : isWell f.tok.site.toNat = false := isWell_of_nib hnib
    rw [exec_markerArrival]
    simp only [execMarkerArrival, hk, hqueued, hsnap, hbehind, hlate, hwell, show isNib f.tok.site.toNat = true from hnib,
      show (panelAt s f.p).deadSnaps.contains (laneN f.tok.lanes 0) = false from hdead,
      show (nibAt s f.p f.tok.site.toNat).forwarded.contains (f.tok.plane.toNat, f.tok.node.toNat, laneN f.tok.lanes 0) = false from hnew,
      show admits s f.p f.tok.tag = true from hadmits, show planeRuns s f.p f.tok.plane.toNat = true from hruns,
      show (portsOf (recAt s f.p f.tok.site.toNat f.tok.plane.toNat f.tok.node.toNat)).contains f.tok.port.toNat = true from hport,
      show Machine.opOf (recAt s f.p f.tok.site.toNat f.tok.plane.toNat f.tok.node.toNat) = 0x22 from hop, Bool.not_true, Bool.or_self,
      Bool.false_eq_true, if_false, if_true]
    rfl
  · rw [exec_snapTimeout]
    simp only [execSnapTimeout, hsn, hdead]
    exact if_neg (Nat.not_lt.2 hdue)

end Sys2Proof.Proofs
end


section
/-!
PROOF. The events of contexts, registers and partitions complete (13 R280 to R298; 02 R54).
-/
namespace Sys2Proof.Proofs
open Sys2Proof.Machine Sys2Proof.Safety Sys2Proof.Claims

/-! ## The rounds of a park (13 R286 to R292) -/

section
variable {s : State} {x : Park} (h : parkOf s s.sel.ctx = some x)
include h

theorem parkIn_of {n : Nat} (hr : x.round = n) (hf : x.faulted = none) : parkIn s n = some x := by
  have hin : x.round = n ∧ x.faulted.isNone = true := ⟨hr, by rw [hf]; rfl⟩
  simp only [parkIn, h, if_pos hin]

theorem parkGate_completes (hr : x.round = 1) (hf : x.faulted = none) :
    exec .parkGate s = .next (putPark (setGates s x.ctx true) { x with round := 2 }) := by
  rw [exec_parkGate]
  simp only [execParkGate, parkIn_of h hr hf]

theorem parkSettle_completes (hr : x.round = 2) (hf : x.faulted = none) (hsettled : ctxSettled s x.ctx = true) :
    exec .parkSettle s = .next (putPark s { x with round := 3 }) := by
  rw [exec_parkSettle]
  simp only [execParkSettle, parkIn_of h hr hf, hsettled, if_true]

theorem parkQuiesce_completes (hr : x.round = 3) (hf : x.faulted = none) (hquiet : ctxQuiet s x.ctx = true) :
    exec .parkQuiesce s = .next (putPark s { x with round := 4 }) := by
  rw [exec_parkQuiesce]
  simp only [execParkQuiesce, parkIn_of h hr hf, hquiet, if_true]

theorem parkStream_completes (hr : x.round = 4) (hf : x.faulted = none) {u : State} {w : Nat}
    (hhd : readHeader s x.ctx ((ctxAt s x.ctx).panels.getD 0 0) = (u, .ok w)) :
    ∃ t f, exec .parkStream s = .next (putPark t { x with round := 5, faulted := f }) := by
  rw [exec_parkStream]
  simp only [execParkStream, parkIn_of h hr hf, hhd]
  exact ⟨_, _, rfl⟩

theorem parkCommit_completes (hr : x.round = 5) (hf : x.faulted = none) (hlate : parkLate s x = false) (hbusy : ctxBusy s x.ctx = false)
    (hpre : x.preempt = false) {u v : State} {w : Nat} (hhd : readHeader s x.ctx ((ctxAt s x.ctx).panels.getD 0 0) = (u, .ok w))
    (hcommit : commitHeader u x.ctx w = (v, none)) :
    ∃ t, exec .parkCommit s = .next (preemptGo (parkAnswer t x 0) (partOf v x.ctx)) := by
  rw [exec_parkCommit]
  simp only [execParkCommit, parkIn_of h hr hf, hlate, hbusy, hhd, hcommit, hpre, Bool.false_eq_true, or_self, if_false]
  exact ⟨_, rfl⟩

theorem parkAbandonTimeout_completes (hlate : parkLate s x = true) :
    exec .parkAbandonTimeout s = .next (preemptGo (parkAbandon s x) (partOf s x.ctx)) := by
  rw [exec_parkAbandonTimeout]
  simp only [execParkAbandonTimeout, h, hlate, if_true]

theorem parkFaultAbandon_completes {cause addr p : Nat} (hf : x.faulted = some (cause, addr, p)) (hpre : x.preempt = false) :
    exec .parkFaultAbandon s = .next (preemptGo (post (parkAbandon s x)
      { cause := cause, addr := addr, kind := 1, site := 240, panel := p, ctx := x.ctx }) (partOf s x.ctx)) := by
  rw [exec_parkFaultAbandon]
  simp only [execParkFaultAbandon, h, hf, hpre, Bool.false_eq_true, if_false]

end

/-- A valid image that fits the panels named is restored on them. -/
theorem resumeComplete_completes {s u v : State} {x : Resume} {w : Nat} {slots : List Nat}
    (hx : s.resumes.find? (fun x => x.ctx == s.sel.ctx) = some x) (hhd : readHeader s x.ctx (resumePanel s x) = (u, .ok w))
    (hvalid : bit w 0 = true) (hsl : readSlots u x.ctx (resumePanel s x) = (v, .ok slots))
    (hlen : slots.length ≤ ((tgetD v.images (2 * x.ctx + b2n (bit w 1)) []).take slots.length).length)
    (hok : targetsOk v x.ctx ((tgetD v.images (2 * x.ctx + b2n (bit w 1)) []).take slots.length)
      ((x.panels.getD slots).take slots.length) = true) :
    exec .resumeComplete s = .next (restoreImage v x (b2n (bit w 1))
      ((tgetD v.images (2 * x.ctx + b2n (bit w 1)) []).take slots.length) ((x.panels.getD slots).take slots.length)) := by
  rw [exec_resumeComplete]
  simp only [execResumeComplete, hx, hhd, hvalid, hsl, hok, Bool.not_true, Bool.false_eq_true, if_false]
  exact if_neg (Nat.not_lt.2 hlen)

/-! ## The host's writes of context records (13 R281 to R283) -/

section
variable {s : State} {fn : Nat} (hwho : s.sel.who = .host fn) (hfn : fn ≤ 64) (hreach : fn = 0 ∨ fn = s.sel.part)
include hwho hfn hreach

/-- Functions reach their own partition, function 0 all. -/
theorem reachesPart_host : reachesPart s s.sel.who s.sel.part = true := by
  rw [hwho]
  rcases hreach with rfl | rfl
  · rfl
  · rw [reachesPart, agentPart, beq_self_eq_true, Bool.or_true]

theorem ccmdEvent_host (hctx : s.sel.ctx < 256) (hpart : s.sel.part ≤ 64) (f : State → Nat → Nat → State) :
    ccmdEvent s f = .next (f s s.sel.part s.sel.ctx) := by
  have hin : ¬ ((!isHost s.sel.who) = true ∨ 256 ≤ s.sel.ctx ∨ 65 ≤ s.sel.part) := by
    rw [hwho, isHost, decide_eq_true hfn]
    rintro (h | h | h)
    · exact Bool.false_ne_true h
    · omega
    · omega
  rw [ccmdEvent, if_neg hin, if_pos (reachesPart_host hwho hfn hreach)]

theorem crecWrite_completes (hctx : s.sel.ctx < 256) (hown : ctxOwner s s.sel.ctx = some s.sel.part) (hnum : s.sel.num < 8)
    (hfree : (ctxAt s s.sel.ctx).state = 0) : exec .crecWrite s = .next (setCtx s s.sel.ctx
      (crecSet { ctxAt s s.sel.ctx with state := 1, part := s.sel.part } s.sel.num s.sel.v.toNat)) := by
  have hin : ¬ ((!isHost s.sel.who) = true ∨ 256 ≤ s.sel.ctx ∨ 8 ≤ s.sel.num) := by
    rw [hwho, isHost, decide_eq_true hfn]
    rintro (h | h | h)
    · exact Bool.false_ne_true h
    · omega
    · omega
  have hreached : ((ctxOwner s s.sel.ctx).map (reachesPart s s.sel.who)).getD false = true := by
    rw [hown]
    exact reachesPart_host hwho hfn hreach
  rw [exec_crecWrite]
  refine (if_neg hin).trans ((if_pos hreached).trans (congrArg _ ?_))
  simp only [crecWrite, hfree, hown, if_true]

theorem validate_completes (hctx : s.sel.ctx < 256) (hpart : s.sel.part ≤ 64) (hown : ctxOwner s s.sel.ctx = some s.sel.part)
    (hconfig : (ctxAt s s.sel.ctx).state = 1) (hvalid : ctxValid s s.sel.ctx = true) :
    ∃ t, exec .validate s = .next t ∧ (ctxAt t s.sel.ctx).state = 2 := by
  have hin : ¬ ((!inPart s s.sel.part s.sel.ctx) = true ∨ (ctxAt s s.sel.ctx).state ≠ 1) := by
    rw [inPart, hown, beq_self_eq_true, hconfig]
    decide
  refine ⟨_, (exec_validate s).trans (ccmdEvent_host hwho hfn hreach hctx hpart doValidate), ?_⟩
  rw [doValidate, if_neg hin, if_pos hvalid]
  exact congrArg Ctx.state (ctxAt_setCtx s (x := { ctxAt s s.sel.ctx with state := 2 }) s.sel.ctx
    (ne_of_apply_ne Ctx.state (by decide : (2 : Nat) ≠ 0)))

theorem release_completes (hctx : s.sel.ctx < 256) (hpart : s.sel.part ≤ 64) (hown : ctxOwner s s.sel.ctx = some s.sel.part)
    (hready : (ctxAt s s.sel.ctx).state = 2) : ∃ t, exec .release s = .next t ∧ (ctxAt t s.sel.ctx).state = 0 := by
  have hin : inPart s s.sel.part s.sel.ctx = true ∧ ((ctxAt s s.sel.ctx).state = 1 ∨ (ctxAt s s.sel.ctx).state = 2 ∨
      (ctxAt s s.sel.ctx).state = 4 ∨ (ctxAt s s.sel.ctx).state = 6) :=
    ⟨by rw [inPart, hown, beq_self_eq_true], .inr (.inl hready)⟩
  refine ⟨_, (exec_release s).trans (ccmdEvent_host hwho hfn hreach hctx hpart doRelease), ?_⟩
  rw [doRelease, if_pos hin]
  exact congrArg Ctx.state (congrArg (fun o => Option.getD o {}) (tget?_tput _ s.sel.ctx _))

end

/-! ## All of them -/

/-- A pair is its first part beside what its second part is known to be. -/
theorem pair_of_snd {α β : Type} {p : α × β} {b : β} (h : p.2 = b) : p = (p.1, b) := by rw [← h]

/-- An access that names no offset of the window has none that could be out of it. -/
theorem offBad_none {s : State} (h : s.sel.off = none) : offBad s = false := by
  rw [offBad, h]
  rfl

theorem contextEventsComplete : ContextEventsComplete := by
  intro s n k pt
  refine ⟨fun hruns hslice hcnt hwork => ?_, ?_, ?_, fun fn hwho hfn hctx hk hown hreach => ?_, fun hwho hk => ?_,
    fun hwho hoff hp => ?_, fun hoff hfn hreach => ?_, fun v hpend => (serviceChangesWhenIdle s v hpend).1, fun hst hsettled => ?_,
    fun hst => ?_⟩
  · have hgo : ¬ ((!ctxRuns s n) = true ∨ (ctxAt s n).slice = 0 ∨ (ctxAt s n).sliceCnt < (ctxAt s n).slice * 1024 ∨
        (!workWaits s n (ctxPrio s n)) = true) := by
      rw [hruns, hwork]
      rintro (h | h | h | h)
      · exact Bool.false_ne_true h
      · exact hslice h
      · exact Nat.not_lt.2 hcnt h
      · exact Bool.false_ne_true h
    exact (exec_sliceExpiry s).trans (if_neg hgo)
  · intro x hx hd
    exact ⟨fun hf => ⟨fun hr => parkGate_completes hx hr hf, fun hr => parkSettle_completes hx hr hf,
        fun hr => parkQuiesce_completes hx hr hf, fun w hr hw => parkStream_completes hx hr hf (pair_of_snd hw),
        fun w hr hlate hbusy hw hcommit hpre => parkCommit_completes hx hr hf hlate hbusy hpre (pair_of_snd hw) (pair_of_snd hcommit)⟩,
      fun hlate => parkAbandonTimeout_completes hx hlate, fun cause addr p hf hpre => parkFaultAbandon_completes hx hf hpre⟩
  · intro x w slots hx hd sl hw hvalid hslots im ps hlen hok
    exact resumeComplete_completes hx (pair_of_snd hw) hvalid (pair_of_snd hslots) hlen hok
  · exact ⟨fun hnum hfree => crecWrite_completes hwho hfn hreach hctx hown hnum hfree,
      fun hconfig hvalid => validate_completes hwho hfn hreach hctx hk hown hconfig hvalid,
      fun hready => release_completes hwho hfn hreach hctx hk hown hready⟩
  · obtain ⟨-, act⟩ := partitionsAreCommanded s 0 hwho (Nat.zero_le _) hk
    obtain ⟨-, writes, preempts, -, freezes, -, resets, -, -, resumes⟩ := act rfl
    exact ⟨writes, fun h => preempts (.inl h), fun h => ⟨freezes (.inl (Nat.le_trans (Nat.le_of_eq h) (Nat.zero_le 2))),
      resets (.inl (Nat.le_trans (Nat.le_of_eq h) (Nat.zero_le 4)))⟩, resumes⟩
  · intro p v pn
    have hnobad : offBad s = false := offBad_none hoff
    have hplain : accessed s s.sel.num = (s.sel.num, s.sel.p) := accessed_plain hoff
    have hreg := hostsWriteRegisters s 0 hwho (Nat.zero_le _) hnobad
    rw [hplain] at hreg
    obtain ⟨-, -, mine, -, writes, -⟩ := hreg
    obtain ⟨plpri, pulse, -, svc⟩ := mine hoff hp (.inl rfl)
    exact ⟨plpri, pulse, svc, fun hrow hreach => (writes hrow).1 hreach⟩
  · have hgo := execRcRegisterRead_of hfn (offBad_none hoff)
    rw [accessed_plain hoff] at hgo
    exact (exec_rcRegisterRead s).trans (hgo.trans (if_pos hreach))
  · obtain ⟨-, -, freezes, -, -⟩ := partitionsFreezeAndClear s
    refine ⟨_, freezes hst (.inl hsettled), ?_⟩
    rw [partAt_setPart]
    refine ne_of_apply_ne Part.pstate ?_
    dsimp only
    split
    · decide
    · decide
  · obtain ⟨-, -, -, -, clears⟩ := partitionsFreezeAndClear s
    refine ⟨_, clears hst, ?_⟩
    rw [partAt_setPart]
    exact ne_of_apply_ne Part.pstate (by decide : (6 : Nat) ≠ 0)

end Sys2Proof.Proofs
end


section
/-!
PROOF. The events of links and of bring-up, power and management complete (19 R374 to R379; 26 R408 to R415), and with them all events.
-/
namespace Sys2Proof.Proofs
open Sys2Proof.Machine Sys2Proof.Safety Sys2Proof.Claims

/-- What a free controller serves (26 R414). -/
theorem requests_complete {s : State} (hon : s.mgmt.standby = true) (hfree : s.mgmt.serving = none) :
    let serve := fun (i : Instr) (code : Nat) => ∃ (t : State) (ws : List Word64), exec i s =
      .next { t with mgmt := { t.mgmt with serving := some (code, 0 :: ws) } }
    serve .getIdentity 1 ∧ serve .getStatus 2 ∧ serve .readCounters 3 ∧ (s.sel.num < 4 → serve .readHistogram 4) ∧
      serve .setPolicy 5 ∧ (s.sel.ok = true → s.mgmt.main = false → serve .keyAdd 6) ∧ serve .attest 7 := by
  obtain ⟨taken, -⟩ := requestsAreServed s hon
  obtain ⟨identity, status, counters, hist, -, policyOn, policyOff, -, keyOff, -, attest, -, -⟩ := taken hfree
  refine ⟨⟨_, _, identity⟩, ⟨_, _, status⟩, ⟨_, _, counters⟩, fun hn => ⟨_, _, hist hn⟩, ?_, fun hok hm => ⟨_, [], keyOff hok hm⟩,
    ⟨_, _, attest⟩⟩
  cases hm : s.mgmt.main with
  | true => exact ⟨_, [], policyOn hm⟩
  | false => exact ⟨_, [], policyOff hm⟩

theorem linkEventsComplete : LinkEventsComplete := by
  intro s l x m
  obtain ⟨flit, -, timeout⟩ := flitsAreReceived s
  obtain ⟨trained, failed, drained, peer, leaves, hostDown, dieFailed, -⟩ := linksChangeState s
  obtain ⟨powerOn, released, -, mainOn, mainOff, orderly, loss⟩ := suppliesBringTheDiesUp s
  refine ⟨fun hl hup hfree hcrc hinc hdie => ?_, fun y q hy hold hans hreq => ?_, fun hport htrain hlanes => ?_, failed, drained, peer, leaves,
    fun hdie hup hbad hnone hidle => ?_, hostDown, fun bs hfn hbs hlen hwin hserved => ?_, fun hfn => ?_, fun hoff => ?_, fun hon => ?_, ?_, ?_,
    ?_, fun y hon hy => ?_, fun hon => ?_⟩
  · obtain ⟨-, -, -, -, -, delivered⟩ := flit hl hup hfree
    exact delivered hcrc hinc hdie
  · obtain ⟨-, stale⟩ := timeout y hy
    exact stale q hold hans hreq
  · have hl : l < 27 := lt_of_isPort hport
    exact trained (Nat.lt_succ_of_lt hl) htrain (hlanes ▸ by decide) (fun _ => hlanes) (fun h => absurd h (Nat.ne_of_lt hl))
  · obtain ⟨-, -, down⟩ := dieFailed hdie hup hbad
    exact down hnone hidle
  · obtain ⟨writes, -, -⟩ := hostRequestsAreServed s hfn
    obtain ⟨-, plain⟩ := writes bs hbs hlen
    exact (plain hwin).1 hserved
  · exact (exec_hdmDecoderWrite s).trans (if_neg (Nat.not_le.2 hfn))
  · obtain ⟨t, ht, hon, hrel, -⟩ := powerOn hoff
    exact ⟨t, ht, hon, hrel⟩
  · refine ⟨fun hmain hfw hrel => ?_, mainOn hon, fun hmain => ?_, orderly hon, loss hon⟩
    · obtain ⟨t, ht, hrel', -⟩ := released hon hmain hfw hrel
      exact ⟨t, ht, hrel'⟩
    · obtain ⟨t, ht, hm, -⟩ := mainOff hon hmain
      exact ⟨t, ht, by rw [hm], by rw [hm]⟩
  · intro p pn hp
    obtain ⟨starts, -, tests⟩ := panelsStartAndTest s hp
    exact ⟨starts, fun hst ht hf hc hok => (tests hst ht hf hc).1 hok⟩
  · intro die y hdie
    obtain ⟨-, up, -, ceiling, -⟩ := theLimiterSteps s hdie
    exact ⟨fun hc hwaits hok hduty => (up hc hwaits).1 hok hduty, ceiling⟩
  · intro hon hfree serve
    obtain ⟨taken, -⟩ := requestsAreServed s hon
    obtain ⟨-, -, -, -, -, -, -, -, -, -, -, -, reset⟩ := taken hfree
    obtain ⟨identity, status, counters, hist, policy, key, attest⟩ := requests_complete hon hfree
    exact ⟨identity, status, counters, hist, policy, key, attest, reset⟩
  · exact ((requestsAreServed s hon).2 y hy).1
  · obtain ⟨commit, -, -, sample⟩ := countersAreKept s hon
    refine ⟨commit, fun t0 t1 t2 hc hnew hnums hk => ?_⟩
    obtain ⟨t, ht, hm⟩ := sample t0 t1 t2 hc hnew hnums hk
    exact ⟨t, ht, by rw [hm]⟩

/-- Settles O60: every event form completes under the conditions of its occurrence. -/
theorem everyEventCompletes : Obligations.EveryEventCompletes :=
  ⟨nibEventsComplete, memoryEventsComplete, pointEventsComplete, launchEventsComplete, contextEventsComplete, linkEventsComplete⟩

end Sys2Proof.Proofs
end


section
/-!
PROOF. The canonical form of the byte memories (log 3): what it means for a state, for the states that a function answers, and the rules by
which it passes through updates, choices and folds. Each function of the model then has one lemma, proved along its definition.
-/
namespace Sys2Proof.Proofs
open Sys2Proof.Machine Sys2Proof.Safety Sys2Proof.Claims

/-- Both byte memories are in the canonical form. -/
structure Canon (s : State) : Prop where
  mem : memWf s.mem = true
  wmem : memWf s.wmem = true

/-- So they are in the next state, where there is one. -/
def CanonNext (o : Outcome) : Prop := ∀ t, o = .next t → Canon t

/-- So they are in the state, where there is one. -/
def CanonSome (o : Option State) : Prop := ∀ t, o = some t → Canon t

/-- So they are in the state of the pair, where there is one. -/
def CanonSomeFst {α : Type} (o : Option (State × α)) : Prop := ∀ x, o = some x → Canon x.1

theorem CanonNext.refused {r : Refusal} : CanonNext (.refused r) := fun _ h => by cases h

theorem CanonNext.fault {r : Fault} : CanonNext (.fault r) := fun _ h => by cases h

theorem CanonNext.notNow : CanonNext notNow := .refused

theorem CanonSome.none : CanonSome none := fun _ h => by cases h

theorem CanonSomeFst.none {α : Type} : CanonSomeFst (none : Option (State × α)) := fun _ h => by cases h

theorem CanonNext.ite {c : Prop} [Decidable c] {a b : Outcome} (ha : CanonNext a) (hb : CanonNext b) : CanonNext (if c then a else b) := by
  split
  · exact ha
  · exact hb

theorem CanonSome.ite {c : Prop} [Decidable c] {a b : Option State} (ha : CanonSome a) (hb : CanonSome b) :
    CanonSome (if c then a else b) := by
  split
  · exact ha
  · exact hb

theorem CanonSomeFst.ite {α : Type} {c : Prop} [Decidable c] {a b : Option (State × α)} (ha : CanonSomeFst a) (hb : CanonSomeFst b) :
    CanonSomeFst (if c then a else b) := by
  split
  · exact ha
  · exact hb

namespace Canon
variable {s t : State}

theorem ite {c : Prop} [Decidable c] (hs : Canon s) (ht : Canon t) : Canon (if c then s else t) := by
  split
  · exact hs
  · exact ht

theorem next (h : Canon s) : CanonNext (.next s) := fun _ ht => by cases ht; exact h

theorem some (h : Canon s) : CanonSome (some s) := fun _ ht => by cases ht; exact h

theorem someFst {α : Type} {x : State × α} (h : Canon x.1) : CanonSomeFst (Option.some x) := fun _ ht => by cases ht; exact h

/-- An update that leaves both memories keeps their form. -/
theorem of_eq (h : Canon s) (hm : t.mem = s.mem) (hw : t.wmem = s.wmem) : Canon t := ⟨hm ▸ h.mem, hw ▸ h.wmem⟩

theorem updReqs {x : List Req} (h : Canon s) : Canon { s with reqs := x } := h.of_eq rfl rfl

theorem updXfers {x : List Xfer} (h : Canon s) : Canon { s with xfers := x } := h.of_eq rfl rfl

theorem updRemotes {x : List Remote} (h : Canon s) : Canon { s with remotes := x } := h.of_eq rfl rfl

theorem updLaunches {x : List Launch} (h : Canon s) : Canon { s with launches := x } := h.of_eq rfl rfl

theorem updDraws {x : List Draw} (h : Canon s) : Canon { s with draws := x } := h.of_eq rfl rfl

theorem updGroups {x : Tab GroupRec} (h : Canon s) : Canon { s with groups := x } := h.of_eq rfl rfl

theorem updOut {x : List Output} (h : Canon s) : Canon { s with out := x } := h.of_eq rfl rfl

theorem updParks {x : List Park} (h : Canon s) : Canon { s with parks := x } := h.of_eq rfl rfl

theorem updImages {x : Tab (List SavedPanel)} (h : Canon s) : Canon { s with images := x } := h.of_eq rfl rfl

theorem updTlb {x : List TlbEntry} (h : Canon s) : Canon { s with tlb := x } := h.of_eq rfl rfl

theorem updTransit {x : List Flight} (h : Canon s) : Canon { s with transit := x } := h.of_eq rfl rfl

/-- The state that a pair is found to hold. -/
theorem of_fst {α : Type} {p : State × α} {a : α} (hp : p = (t, a)) (h : Canon p.1) : Canon t := by rw [hp] at h; exact h

theorem of_some {o : Option State} (ho : o = Option.some t) (h : CanonSome o) : Canon t := h t ho

theorem of_someFst {α : Type} {o : Option (State × α)} {x : State × α} (ho : o = Option.some x) (h : CanonSomeFst o) : Canon x.1 := h x ho

theorem of_next {o : Outcome} (ho : o = .next t) (h : CanonNext o) : Canon t := h t ho

theorem iteFst {α : Type} {c : Prop} [Decidable c] {p q : State × α} (hp : Canon p.1) (hq : Canon q.1) : Canon (if c then p else q).1 := by
  split
  · exact hp
  · exact hq

theorem elim {o : Option State} {f : State → State} (ho : CanonSome o) (h : Canon s) (hf : ∀ u, Canon u → Canon (f u)) :
    Canon (o.elim s f) := by
  cases o with
  | none => exact h
  | some t => exact hf t (ho t rfl)

theorem getD {o : Option State} (ho : CanonSome o) (h : Canon s) : Canon (o.getD s) := by
  cases o with
  | none => exact h
  | some t => exact ho t rfl

theorem of_onlySends {p : Nat} (h : Canon s) (hs : OnlySends p s t) : Canon t :=
  have hk := hs.memories ⟨h.mem, h.wmem⟩
  ⟨hk.1, hk.2⟩

theorem of_cacheKeeps (h : Canon s) (hs : CacheKeeps s t) : Canon t :=
  have hk := hs.memories ⟨h.mem, h.wmem⟩
  ⟨hk.1, hk.2⟩

theorem of_firingKeeps {p site : Nat} (h : Canon s) (hs : FiringKeeps p site s t) : Canon t :=
  h.of_eq (by rw [hs.rest]) (by rw [hs.rest])

theorem foldl {β : Type} {f : State → β → State} {l : List β} (h : Canon s) (hf : ∀ u x, Canon u → Canon (f u x)) :
    Canon (l.foldl f s) := by
  induction l generalizing s with
  | nil => exact h
  | cons x l ih => exact ih (hf s x h)

theorem foldl_fst {β γ : Type} {f : State × γ → β → State × γ} {l : List β} {y : State × γ} (h : Canon y.1)
    (hf : ∀ u x, Canon u.1 → Canon (f u x).1) : Canon (l.foldl f y).1 := by
  induction l generalizing y with
  | nil => exact h
  | cons x l ih => exact ih (hf y x h)

theorem foldl_bind {β : Type} {f : State → β → Option State} {l : List β} {o : Option State} (ho : CanonSome o)
    (hf : ∀ u x, Canon u → CanonSome (f u x)) : CanonSome (l.foldl (fun o x => o.bind fun u => f u x) o) := by
  induction l generalizing o with
  | nil => exact ho
  | cons x l ih =>
    refine ih ?_
    cases o with
    | none => exact .none
    | some u => exact hf u x (ho u rfl)

theorem iter {f : State → Nat → State} {n : Nat} (h : Canon s) (hf : ∀ u x, Canon u → Canon (f u x)) : Canon (Machine.iter s n f) :=
  h.foldl hf

end Canon
end Sys2Proof.Proofs
end


section
/-!
PROOF. The canonical form through the state's operations, the fabric and the nibs (02 R31 to R54; 08 R166, R167).
-/
namespace Sys2Proof.Proofs
open Sys2Proof.Machine Sys2Proof.Safety Sys2Proof.Claims

namespace Canon

theorem setNib {s : State} {p site : Nat} {n : Nib} (h : Canon s) : Canon (Machine.setNib s p site n) := h.of_eq rfl rfl

theorem setWell {s : State} {p w : Nat} {x : Well} (h : Canon s) :
    Canon (Machine.setWell s p w x) := h.of_cacheKeeps (CacheKeeps.refl _).setWell

theorem setObuf {s : State} {p site : Nat} {x : OBuf} (h : Canon s) : Canon (Machine.setObuf s p site x) := h.of_eq rfl rfl

theorem setScribe {s : State} {p : Nat} {x : Scribe} (h : Canon s) : Canon (Machine.setScribe s p x) := h.of_eq rfl rfl

theorem setPanel {s : State} {p : Nat} {x : Panel} (h : Canon s) : Canon (Machine.setPanel s p x) := h.of_eq rfl rfl

theorem setPlane {s : State} {p k : Nat} {x : Plane} (h : Canon s) : Canon (Machine.setPlane s p k x) := h.setPanel

theorem setPg {s : State} {p k : Nat} {x : Pg} (h : Canon s) : Canon (Machine.setPg s p k x) := h.of_eq rfl rfl

theorem setCtx {s : State} {c : Nat} {x : Ctx} (h : Canon s) : Canon (Machine.setCtx s c x) := h.of_eq rfl rfl

theorem setPart {s : State} {k : Nat} {x : Machine.Part} (h : Canon s) : Canon (Machine.setPart s k x) := h.of_eq rfl rfl

theorem setLink {s : State} {l : Nat} {x : Link} (h : Canon s) : Canon (Machine.setLink s l x) := h.of_eq rfl rfl

theorem setQueue {s : State} {q : Nat} {x : Queue} (h : Canon s) : Canon (Machine.setQueue s q x) := h.of_eq rfl rfl

theorem setBarrier {s : State} {die i : Nat} {x : Barrier} (h : Canon s) : Canon (Machine.setBarrier s die i x) := h.of_eq rfl rfl

theorem setEngine {s : State} {p : Nat} {x : RuleEngine} (h : Canon s) : Canon (Machine.setEngine s p x) := h.of_eq rfl rfl

theorem setTable {s : State} {p t : Nat} {x : RuleTable} (h : Canon s) : Canon (Machine.setTable s p t x) := h.setEngine

theorem setColour {s : State} {part c : Nat} {x : Colour} (h : Canon s) : Canon (Machine.setColour s part c x) := h.of_eq rfl rfl

theorem setGroup {s : State} {gid : Nat} {x : GroupRec} (h : Canon s) : Canon (Machine.setGroup s gid x) := h.of_eq rfl rfl

theorem postAt {s : State} {p : Nat} {e : MbEntry} (h : Canon s) : Canon (Machine.postAt s p e) := h.of_eq rfl rfl

theorem post {s : State} {e : MbEntry} (h : Canon s) : Canon (Machine.post s e) := h.postAt

theorem blockExc {s : State} {p cause info : Nat} (h : Canon s) : Canon (Machine.blockExc s p cause info) := by
  unfold Machine.blockExc
  dsimp only
  split
  · exact h
  · exact .ite h h.setScribe

theorem faultCur {s : State} {c : Cur} {cause addr : Nat} (h : Canon s) : Canon (Machine.faultCur s c cause addr) := .ite h.blockExc h.post

theorem sendTok {s : State} {p src : Nat} {t : Token} (h : Canon s) :
    Canon (Machine.sendTok s p src t) := .ite h (.ite h.post (h.of_eq rfl rfl))

theorem sendScribe {s : State} {p : Nat} {t : Token} (h : Canon s) : Canon (Machine.sendScribe s p t) := by
  unfold Machine.sendScribe
  split
  · split
    · exact h.setScribe
    · exact h
  · exact h.sendTok

theorem sendLate {s : State} {p : Nat} {t : Token} (h : Canon s) : Canon (Machine.sendLate s p t) := by
  unfold Machine.sendLate
  split
  · split
    · exact h.sendTok
    · exact h.post
  · exact h.sendTok

theorem send {s : State} {c : Cur} {x : Send} (h : Canon s) : Canon (Machine.send s c x) := .ite (.ite h.sendScribe h.sendLate) h.sendTok

theorem sends {s : State} {c : Cur} {xs : List Send} (h : Canon s) : Canon (Machine.sends s c xs) := h.foldl (fun _ _ hu => hu.send)

theorem orFlags {s : State} {part colour : Nat} {f : BitVec 5} (h : Canon s) : Canon (Machine.orFlags s part colour f) := by
  unfold Machine.orFlags
  split
  · exact h
  · split
    · exact h.setGroup
    · exact h.of_eq rfl rfl

theorem takeTrap {s : State} {p : Nat} {d : Due} (h : Canon s) : Canon (Machine.takeTrap s p d) := h.setScribe

theorem trapReturn {s : State} {p : Nat} (h : Canon s) : Canon (Machine.trapReturn s p) := h.setScribe

theorem notNow : CanonNext (Machine.notNow ) := .refused

theorem sendAll {s : State} {c : Cur} {xs : List Send} (h : Canon s) : Canon (Machine.sendAll s c xs) := .ite h.faultCur h.sends

theorem curFlags {s : State} {c : Cur} {f : BitVec 5} (h : Canon s) : Canon (Machine.curFlags s c f) := .ite h h.orFlags

theorem emitRes {s : State} {c : Cur} {f : Form} {ty : BitVec 4} {r : Res} (h : Canon s) : Canon (Machine.emitRes s c f ty r) := by
  unfold Machine.emitRes
  split
  · exact h.faultCur
  · exact .ite h.faultCur h.curFlags.sends

theorem emitNulls {s : State} {c : Cur} {f : Form} {ty : BitVec 4} (h : Canon s) : Canon (Machine.emitNulls s c f ty) := h.sendAll

theorem sendNulls {s : State} {c : Cur} {f : Form} {v0 v1 : Val} (h : Canon s) : Canon (Machine.sendNulls s c f v0 v1) := h.sendAll

theorem fireWith {s : State} {f : Form} {ty : BitVec 4} {base : List Nat} {bad blk : Bool} {op : Cur → Res}
    {fin : State → Cur → Form → BitVec 4 → Res → State} (h : Canon s)
    (hfin : ∀ (u : State) (x1 : Cur) (x2 : Form) (x3 : BitVec 4) (x4 : Res), Canon u → Canon (fin u x1 x2 x3 x4)) :
    CanonNext (Machine.fireWith s f ty base bad blk op fin) := by
  unfold Machine.fireWith
  dsimp only
  split
  · exact .refused
  · split
    · exact h.faultCur.next
    · split
      · exact next (.ite h.emitNulls h)
      · exact .ite h.emitNulls.next ((hfin _ _ _ _ _ h).next)

theorem fireNul {s : State} {f : Form} {ty : BitVec 4} {base : List Nat} {bad blk : Bool} {nuls : Cur → Val × Val} {op : Cur → Res} (h : Canon s) :
    CanonNext (Machine.fireNul s f ty base bad blk nuls op) := by
  unfold Machine.fireNul
  dsimp only
  split
  · exact .refused
  · split
    · exact h.faultCur.next
    · split
      · exact next (.ite h.sendNulls h)
      · exact .ite h.sendNulls.next h.emitRes.next

theorem fire {s : State} {f : Form} {ty : BitVec 4} {base : List Nat} {bad blk : Bool} {op : Cur → Res} (h : Canon s) :
    CanonNext (Machine.fire s f ty base bad blk op) := h.fireWith (fun _ _ _ _ _ hu => hu.emitRes)

theorem delayRes {lat : Cur → Nat} {s : State} {c : Cur} {f : Form} {ty : BitVec 4} {r : Res} (h : Canon s) :
    Canon (Machine.delayRes lat s c f ty r) := by
  unfold Machine.delayRes
  split
  · exact h.faultCur
  · exact .ite h.faultCur (.ite h.curFlags.sends h.setNib)

theorem fireLate {s : State} {f : Form} {ty : BitVec 4} {base : List Nat} {bad blk : Bool} {op : Cur → Res} {lat : Cur → Nat} (h : Canon s) :
    CanonNext (Machine.fireLate s f ty base bad blk op lat) := by
  unfold Machine.fireLate
  dsimp only
  split
  · exact .refused
  · split
    · exact h.faultCur.next
    · split
      · exact next (.ite h.delayRes h)
      · exact .ite h.delayRes.next h.delayRes.next

theorem pointArrive {s : State} {x : PReq} (h : Canon s) : Canon (Machine.pointArrive s x) := by
  unfold Machine.pointArrive
  split
  · exact h.of_eq rfl rfl
  · exact h.of_eq rfl rfl

theorem askPoint {s : State} {point die : Nat} {i : Instr} {c : Cur} (h : Canon s) :
    Canon (Machine.askPoint s point die i c) := .ite h.pointArrive (h.of_eq rfl rfl)

theorem mapPoints {s : State} {f : PReq → Option PReq} (h : Canon s) : Canon (Machine.mapPoints s f) := h.of_eq rfl rfl

theorem settle {s : State} {p site : Nat} (h : Canon s) : Canon (Machine.settle s p site) := by
  unfold Machine.settle
  dsimp only
  refine setNib ?_
  refine iter h (fun _ _ hu => ?_)
  split
  · exact hu.setNib
  · exact hu

theorem postTok {s : State} {p site cause : Nat} {t : Token} (h : Canon s) : Canon (Machine.postTok s p site cause t) := h.post

theorem toFrame {s : State} {p site : Nat} {t : Token} (h : Canon s) : Canon (Machine.toFrame s p site t) := by
  unfold Machine.toFrame
  split
  · exact h.postTok
  · dsimp only
    split
    · exact h.postTok
    · split
      · exact h.postTok
      · split
        · exact h.setWell
        · exact h.setWell

theorem discardTok {s : State} {p site : Nat} {t : Token} (h : Canon s) : Canon (Machine.discardTok s p site t) := h.postTok

theorem placeEntry {s : State} {p site : Nat} {t : Token} {w : Rec96} (h : Canon s) : CanonSome (Machine.placeEntry s p site t w) := by
  unfold Machine.placeEntry
  extract_lets n plane node op k base stick i shut g rest ops full m groups row n'
  have hrow : CanonSome row := .ite .none (.ite h.setNib.settle.some .none)
  clear_value row n' m full stick n
  refine .ite (.ite (.ite h.setNib.settle.some .none) (.ite .none hrow)) (.ite hrow (.ite (.ite h.setNib.some .none) (.ite ?_ ?_)))
  · split
    · exact .ite h.setNib.some .none
    · exact hrow
  · split
    · exact .ite h.setNib.some hrow
    · exact hrow

theorem placePlain {s : State} {p site : Nat} {t : Token} {w : Rec96} (h : Canon s) : CanonSome (Machine.placePlain s p site t w) := by
  unfold Machine.placePlain
  extract_lets n plane node k i g others ops joined fin
  have hfin : ∀ o, fin = Option.some o → CanonSome o := by
    intro o ho
    simp only [fin] at ho
    split at ho
    · cases ho
    · split at ho
      · cases ho
      · cases ho
        exact .ite h.setNib.some .none
  clear_value fin
  split
  · next o => exact hfin o rfl
  · refine .ite (.ite .none h.setNib.some) ?_
    extract_lets spilled inFrame
    exact .ite h.toFrame.some (.ite h.setNib.some (some (h.setNib.foldl fun _ _ hu => hu.toFrame)))

theorem placePackc {s : State} {p site : Nat} {t : Token} {w : Rec96} (h : Canon s) : CanonSome (Machine.placePackc s p site t w) := by
  unfold Machine.placePackc
  dsimp only
  split
  · exact .ite h.setNib.some .none
  · exact .ite .none h.setNib.some

theorem place {s : State} {p site : Nat} {t : Token} (h : Canon s) : CanonSome (Machine.place s p site t) := by
  unfold Machine.place
  dsimp only
  split
  · exact h.discardTok.some
  · exact .ite h.placeEntry (.ite h.placePackc h.placePlain)

theorem releaseHeld {s : State} {p site : Nat} {sel : Token → Bool} (h : Canon s) : Canon (Machine.releaseHeld s p site sel) := by
  unfold Machine.releaseHeld
  dsimp only
  refine foldl h.setNib (fun _ _ hu => ?_)
  split
  · rename_i heq1
    exact of_some heq1 hu.place
  · exact hu.of_eq rfl rfl

theorem snapEmit {s : State} {c : Cur} {r : RecS} {status id : Nat} (h : Canon s) : Canon (Machine.snapEmit s c r status id) := h.emitRes

theorem snapFail {s : State} {p site : Nat} {c : Cur} {r : RecS} {id : Nat} (h : Canon s) :
    Canon (Machine.snapFail s p site c r id) := h.post.setPanel.snapEmit

theorem sendMarkers {s : State} {c : Cur} {k id : Nat} (h : Canon s) :
    Canon (Machine.sendMarkers s c k id) := h.foldl (fun _ _ hu => hu.sendTok)

theorem openSnaps {s : State} {p : Nat} {l : List (Cur × RecS)} (h : Canon s) : Canon (Machine.openSnaps p l s) := by
  induction l generalizing s with
  | nil => exact h.setPanel
  | cons x l ih =>
    obtain ⟨c, r⟩ := x
    unfold Machine.openSnaps
    dsimp only
    split
    · exact ih h.faultCur
    · split
      · exact ih h.setPanel.snapFail
      · exact h.setPanel.setPanel.sendMarkers

theorem snapAbort {s : State} {p site : Nat} (h : Canon s) : Canon (Machine.snapAbort s p site) := by
  unfold Machine.snapAbort
  split
  · exact h
  · exact openSnaps (snapFail (h.setPanel.iter (fun _ _ hu => .ite hu.setNib.releaseHeld hu)))

theorem holdTok {s : State} {p site : Nat} {t : Token} (h : Canon s) :
    CanonSome (Machine.holdTok s p site t) := .ite h.setNib.some h.snapAbort.place

theorem takeToken {s : State} {p site : Nat} {t : Token} (h : Canon s) : CanonSome (Machine.takeToken s p site t) := by
  unfold Machine.takeToken
  split
  · split
    · exact .none
    · exact .ite h.postTok.some h.place
  · split
    · exact h.discardTok.some
    · split
      · exact h.postTok.some
      · exact .ite h.discardTok.some (.ite h.holdTok h.place)

theorem noteTook {s : State} {f : Flight} (h : Canon s) : Canon (Machine.noteTook s f) := .ite h.setNib h

theorem execTokenArrival {s : State} (h : Canon s) : CanonNext (Machine.execTokenArrival s) := by
  unfold Machine.execTokenArrival
  split
  · exact .notNow
  · split
    · exact .notNow
    · split
      · rename_i heq2
        exact (of_some heq2 (takeToken (noteTook (h.of_eq rfl rfl)))).next
      · exact .notNow

theorem execFrameMatchReturn {s : State} (h : Canon s) : CanonNext (Machine.execFrameMatchReturn s) := by
  unfold Machine.execFrameMatchReturn
  dsimp only
  split
  · exact .notNow
  · split
    · exact .notNow
    · exact .ite .notNow h.setWell.setNib.next

theorem execScaleTokenArrival {s : State} (h : Canon s) : CanonNext (Machine.execScaleTokenArrival s) := by
  unfold Machine.execScaleTokenArrival
  split
  · exact .notNow
  · dsimp only
    split
    · exact .ite (next (setPanel (h.of_eq rfl rfl))) .notNow
    · split
      · exact .notNow
      · split
        · exact next (discardTok (h.of_eq rfl rfl))
        · split
          · exact next (postTok (h.of_eq rfl rfl))
          · refine .ite ?_ ?_
            · exact next (discardTok (h.of_eq rfl rfl))
            · refine .ite ?_ ?_
              · exact next (discardTok (h.of_eq rfl rfl))
              · exact .ite (next (settle (setNib (h.of_eq rfl rfl)))) .notNow

theorem execShareWindowStart {s : State} (h : Canon s) : CanonNext (Machine.execShareWindowStart s) := .ite .notNow h.setNib.next

theorem setLimiter {s : State} {die : Nat} {x : Limiter} (h : Canon s) : Canon (Machine.setLimiter s die x) := h.of_eq rfl rfl

theorem noteMma {s : State} {p site : Nat} (h : Canon s) : Canon (Machine.noteMma s p site) := h.setLimiter

theorem setGstate {s : State} {part gid st : Nat} (h : Canon s) :
    Canon (Machine.setGstate s part gid st) := h.foldl (fun _ _ hu => hu.setColour)

theorem noteIssue {s : State} {p plane : Nat} {tag : Word64} (h : Canon s) : Canon (Machine.noteIssue s p plane tag) := by
  unfold Machine.noteIssue
  dsimp only
  split
  · exact h
  · exact .ite h.setGroup.setGstate h.setGroup

theorem pickIssue {s : State} {p site : Nat} (h : Canon s) : CanonSomeFst (Machine.pickIssue s p site) := by
  unfold Machine.pickIssue
  dsimp only
  split
  · exact .none
  · split
    · exact .none
    · split
      · exact .none
      · refine .ite ?_ ?_
        · exact .none
        · split
          · exact .none
          · exact someFst (.ite h.setNib.noteIssue h.setNib.noteIssue.settle)

theorem noteFired {s : State} {p node : Nat} (h : Canon s) : Canon (Machine.noteFired s p node) := by
  unfold Machine.noteFired
  split
  · exact h.setScribe
  · exact h

theorem unFired {s : State} {p node : Nat} (h : Canon s) : Canon (Machine.unFired s p node) := by
  unfold Machine.unFired
  split
  · exact h.setScribe
  · exact h

theorem beginIssue {s : State} {p site : Nat} {m : Match} (h : Canon s) :
    Canon (Machine.beginIssue s p site m) := .ite (noteFired (h.of_eq rfl rfl)) (h.of_eq rfl rfl)

theorem waitOn {s : State} {c : Cur} {w : WaitOn} (h : Canon s) : Canon (Machine.waitOn s c w) := setNib (.ite h.unFired h)

theorem wakePanel {s : State} {p : Nat} {f : WaitOn → Bool} (h : Canon s) : Canon (Machine.wakePanel s p f) := h.of_eq rfl rfl

theorem wakeAll {s : State} {f : WaitOn → Bool} (h : Canon s) : Canon (Machine.wakeAll s f) := h.of_eq rfl rfl

theorem execDelayedResultDelivery {s : State} (h : Canon s) : CanonNext (Machine.execDelayedResultDelivery s) := by
  unfold Machine.execDelayedResultDelivery
  dsimp only
  split
  · exact .notNow
  · exact .ite .notNow h.setNib.curFlags.sends.next

end Canon
end Sys2Proof.Proofs
end


section
/-!
PROOF. The canonical form through the caches, the records of classes 0 to 3, and accesses of memory (04, 05, 11, 18).
-/
namespace Sys2Proof.Proofs
open Sys2Proof.Machine Sys2Proof.Safety Sys2Proof.Claims

namespace Canon

theorem count32 {s : State} {die ctx k : Nat} (h : Canon s) :
    Canon (Machine.count32 s die ctx k) := h.of_cacheKeeps (CacheKeeps.refl _).count32

theorem putL2 {s : State} {die hf : Nat} {x : L2Sector} (h : Canon s) :
    Canon (Machine.putL2 s die hf x) := h.of_cacheKeeps (CacheKeeps.refl _).putL2

theorem delL2 {s : State} {die hf : Nat} (h : Canon s) : Canon (Machine.delL2 s die hf) := h.of_cacheKeeps (CacheKeeps.refl _).delL2

theorem writeDram {s : State} {hf ctx : Nat} {d : BitVec 256} {poison : Bool} (h : Canon s) :
    Canon (Machine.writeDram s hf ctx d poison) := h.of_cacheKeeps (CacheKeeps.refl _).writeDram

theorem gatherWindows {s : State} {keep : Option Nat} {dies : List Nat} {drop : Bool} {ga : Nat} (h : Canon s) :
    Canon (Machine.gatherWindows s keep dies drop ga).1 := h.of_cacheKeeps (CacheKeeps.refl _).gatherWindows

theorem crossHome {s : State} {die hf : Nat} (h : Canon s) :
    Canon (Machine.crossHome s die hf) := h.of_cacheKeeps (CacheKeeps.refl _).crossHome

theorem putLine {s : State} {die hf : Nat} {t : LineTag} (h : Canon s) :
    Canon (Machine.putLine s die hf t) := h.of_cacheKeeps (CacheKeeps.refl _).putLine

theorem ensureLine {s : State} {die hf : Nat} {t : LineTag} (h : Canon s) :
    Canon (Machine.ensureLine s die hf t) := h.of_cacheKeeps (CacheKeeps.refl _).ensureLine

theorem passOn {s : State} {die hf : Nat} (h : Canon s) : Canon (Machine.passOn s die hf) := h.of_cacheKeeps (CacheKeeps.refl _).passOn

theorem pushDie {s : State} {die : Nat} (h : Canon s) : Canon (Machine.pushDie s die) := h.of_cacheKeeps (CacheKeeps.refl _).pushDie

theorem fetchL2 {s : State} {die hf ctx : Nat} {t : LineTag} (h : Canon s) :
    Canon (Machine.fetchL2 s die hf ctx t) := h.of_cacheKeeps (CacheKeeps.refl _).fetchL2

theorem fetchLine {s : State} {die hf ctx : Nat} {t : LineTag} (h : Canon s) :
    Canon (Machine.fetchLine s die hf ctx t) := h.of_cacheKeeps (CacheKeeps.refl _).fetchLine

theorem installRemote {s : State} {die ga ctx : Nat} {d : BitVec 256} {poison : Bool} (h : Canon s) :
    Canon (Machine.installRemote s die ga ctx d poison) := h.of_cacheKeeps (CacheKeeps.refl _).installRemote

theorem invalidate {s : State} {hf : Nat} (h : Canon s) : Canon (Machine.invalidate s hf) := h.of_cacheKeeps (CacheKeeps.refl _).invalidate

theorem putBytes {s : State} {keep : Option Nat} {die hf ctx : Nat} {t : LineTag} {bs : List (Nat × Byte)} {poison wide : Bool} (h : Canon s) :
    Canon (Machine.putBytes s keep die hf ctx t bs poison wide) := h.of_cacheKeeps (CacheKeeps.refl _).putBytes

theorem dropNarrow {s : State} {die : Nat} (h : Canon s) :
    Canon (Machine.dropNarrow s die) := h.of_cacheKeeps (CacheKeeps.refl _).dropNarrow

theorem leaveFilter {s : State} {p hf : Nat} (h : Canon s) :
    Canon (Machine.leaveFilter s p hf) := h.of_cacheKeeps (CacheKeeps.refl _).leaveFilter

theorem markServed {s : State} {arb part : Nat} (h : Canon s) :
    Canon (Machine.markServed s arb part) := h.of_cacheKeeps (CacheKeeps.refl _).markServed

theorem wbSector {s : State} {p w slot sec : Nat} (h : Canon s) :
    Canon (Machine.wbSector s p w slot sec) := h.of_cacheKeeps (CacheKeeps.refl _).wbSector

theorem wbSlot {s : State} {p w slot : Nat} (h : Canon s) : Canon (Machine.wbSlot s p w slot) := h.of_cacheKeeps (CacheKeeps.refl _).wbSlot

theorem wbWindow {s : State} {p w : Nat} (h : Canon s) : Canon (Machine.wbWindow s p w) := h.of_cacheKeeps (CacheKeeps.refl _).wbWindow

theorem releaseWindow {s : State} {p w : Nat} (h : Canon s) :
    Canon (Machine.releaseWindow s p w) := h.of_cacheKeeps (CacheKeeps.refl _).releaseWindow

theorem readL2 {s : State} {die scope hf ctx : Nat} {t : LineTag} (h : Canon s) :
    Canon (Machine.readL2 s die scope hf ctx t).1 := h.of_cacheKeeps (CacheKeeps.refl _).readL2

theorem writeL2 {s : State} {keep : Option Nat} {die scope hf ctx : Nat} {t : LineTag} {bs : List (Nat × Byte)} {poison : Bool} (h : Canon s) :
    Canon (Machine.writeL2 s keep die scope hf ctx t bs poison) := h.of_cacheKeeps (CacheKeeps.refl _).writeL2

theorem pushScope {s : State} {p scope : Nat} {ctx : Option Nat} (h : Canon s) :
    Canon (Machine.pushScope s p scope ctx) := h.of_cacheKeeps (CacheKeeps.refl _).pushScope

theorem recordRelease {s : State} {p hf : Nat} (h : Canon s) :
    Canon (Machine.recordRelease s p hf) := h.of_cacheKeeps (CacheKeeps.refl _).recordRelease

theorem promotePush {s : State} {hf scope : Nat} (h : Canon s) :
    Canon (Machine.promotePush s hf scope) := h.of_cacheKeeps (CacheKeeps.refl _).promotePush

theorem tlbAdd {s : State} {cache key ctx va : Nat} {leaf : Word64} (h : Canon s) :
    Canon (Machine.tlbAdd s cache key ctx va leaf) := .ite h (h.of_eq rfl rfl)

theorem tlbInstall {s : State} {ctx p site va : Nat} {leaf : Word64} (h : Canon s) :
    Canon (Machine.tlbInstall s ctx p site va leaf) := .ite h.tlbAdd.tlbAdd.tlbAdd h.tlbAdd.tlbAdd

theorem leafNow {s : State} {ctx p site va : Nat} (h : Canon s) : Canon (Machine.leafNow s ctx p site va).1 := by
  unfold Machine.leafNow
  split
  · exact h.tlbInstall
  · split
    · exact h.tlbInstall
    · exact h

theorem xlateNow {s : State} {ctx p site space addr : Nat} {k : Right} (h : Canon s) :
    Canon (Machine.xlateNow s ctx p site space addr k).1 := by
  unfold Machine.xlateNow
  split
  · exact h
  · split
    · exact h
    · split
      · rename_i heq1
        exact of_fst heq1 h.leafNow
      · rename_i heq1
        exact of_fst heq1 h.leafNow

theorem vread {s : State} {ctx p va n : Nat} (h : Canon s) : Canon (Machine.vread s ctx p va n).1 := by
  unfold Machine.vread
  refine foldl_fst h (fun _ _ hu => ?_)
  split
  · exact hu
  · split
    · rename_i heq2
      exact of_fst heq2 hu.xlateNow
    · rename_i heq2
      split
      · dsimp only
        exact (of_fst heq2 hu.xlateNow).readL2
      · exact (of_fst heq2 hu.xlateNow).of_eq rfl rfl

theorem fltRnd {r : RecN} {base : List Nat} {g : Nat → FV → FV → FV → FR} {s : State} (h : Canon s) :
    CanonNext (Machine.fltRnd r base g s) := h.fire

theorem fltSpecial {r : RecN} {base : List Nat} {lat : Nat} {g : Nat → FV → FV → FR} {s : State} (h : Canon s) :
    CanonNext (Machine.fltSpecial r base lat g s) := h.fireLate

theorem execFadd {r : RecN} {s : State} (h : Canon s) : CanonNext (Machine.execFadd r s) := h.fltRnd

theorem execFsub {r : RecN} {s : State} (h : Canon s) : CanonNext (Machine.execFsub r s) := h.fltRnd

theorem execFmul {r : RecN} {s : State} (h : Canon s) : CanonNext (Machine.execFmul r s) := h.fltRnd

theorem execFfma {r : RecN} {s : State} (h : Canon s) : CanonNext (Machine.execFfma r s) := h.fltRnd

theorem fltMinmax {r : RecN} {max : Bool} {s : State} (h : Canon s) : CanonNext (Machine.fltMinmax r max s) := h.fire

theorem execFmin {r : RecN} {s : State} (h : Canon s) : CanonNext (Machine.execFmin r s) := h.fltMinmax

theorem execFmax {r : RecN} {s : State} (h : Canon s) : CanonNext (Machine.execFmax r s) := h.fltMinmax

theorem execFcmp {r : RecN} {s : State} (h : Canon s) : CanonNext (Machine.execFcmp r s) := h.fire

theorem execFclass {r : RecN} {s : State} (h : Canon s) : CanonNext (Machine.execFclass r s) := h.fire

theorem execFdiv {r : RecN} {s : State} (h : Canon s) : CanonNext (Machine.execFdiv r s) := h.fltSpecial

theorem execFsqrt {r : RecN} {s : State} (h : Canon s) : CanonNext (Machine.execFsqrt r s) := h.fltSpecial

theorem execFrcp {r : RecN} {s : State} (h : Canon s) : CanonNext (Machine.execFrcp r s) := h.fltSpecial

theorem execFrsq {r : RecN} {s : State} (h : Canon s) : CanonNext (Machine.execFrsq r s) := h.fltSpecial

theorem execFrcpa {r : RecN} {s : State} (h : Canon s) : CanonNext (Machine.execFrcpa r s) := h.fltSpecial

theorem execFrsqa {r : RecN} {s : State} (h : Canon s) : CanonNext (Machine.execFrsqa r s) := h.fltSpecial

theorem execFexp2 {r : RecN} {s : State} (h : Canon s) : CanonNext (Machine.execFexp2 r s) := h.fltSpecial

theorem execFlog2 {r : RecN} {s : State} (h : Canon s) : CanonNext (Machine.execFlog2 r s) := h.fltSpecial

theorem execFsinpi {r : RecN} {s : State} (h : Canon s) : CanonNext (Machine.execFsinpi r s) := h.fltSpecial

theorem execFcospi {r : RecN} {s : State} (h : Canon s) : CanonNext (Machine.execFcospi r s) := h.fltSpecial

theorem execFtanh {r : RecN} {s : State} (h : Canon s) : CanonNext (Machine.execFtanh r s) := h.fltSpecial

theorem execFscale {r : RecN} {s : State} (h : Canon s) : CanonNext (Machine.execFscale r s) := h.fire

theorem execFround {r : RecN} {s : State} (h : Canon s) : CanonNext (Machine.execFround r s) := h.fltRnd

theorem execFsgn {r : RecN} {s : State} (h : Canon s) : CanonNext (Machine.execFsgn r s) := h.fire

theorem intPat {r : RecN} {satOk : Bool} {base : List Nat} {g : Nat → Nat → Nat → Nat} {s : State} (h : Canon s) :
    CanonNext (Machine.intPat r satOk base g s) := h.fire

theorem intVal {r : RecN} {satOk : Bool} {base : List Nat} {g : Int → Int → Int → Int} {s : State} (h : Canon s) :
    CanonNext (Machine.intVal r satOk base g s) := h.fire

theorem intDiv {r : RecN} {g : BitVec 4 → Int → Int → Nat} {s : State} (h : Canon s) : CanonNext (Machine.intDiv r g s) := h.fireLate

theorem execNop {r : RecN} {s : State} (h : Canon s) : CanonNext (Machine.execNop r s) := .ite h.faultCur.next h.next

theorem execIadd {r : RecN} {s : State} (h : Canon s) : CanonNext (Machine.execIadd r s) := h.intVal

theorem execIsub {r : RecN} {s : State} (h : Canon s) : CanonNext (Machine.execIsub r s) := h.intVal

theorem execImul {r : RecN} {s : State} (h : Canon s) : CanonNext (Machine.execImul r s) := h.intVal

theorem execImulh {r : RecN} {s : State} (h : Canon s) : CanonNext (Machine.execImulh r s) := h.intVal

theorem execImad {r : RecN} {s : State} (h : Canon s) : CanonNext (Machine.execImad r s) := h.intVal

theorem execIdiv {r : RecN} {s : State} (h : Canon s) : CanonNext (Machine.execIdiv r s) := h.intDiv

theorem execIrem {r : RecN} {s : State} (h : Canon s) : CanonNext (Machine.execIrem r s) := h.intDiv

theorem execImin {r : RecN} {s : State} (h : Canon s) : CanonNext (Machine.execImin r s) := h.intVal

theorem execImax {r : RecN} {s : State} (h : Canon s) : CanonNext (Machine.execImax r s) := h.intVal

theorem execIabs {r : RecN} {s : State} (h : Canon s) : CanonNext (Machine.execIabs r s) := h.intVal

theorem execIneg {r : RecN} {s : State} (h : Canon s) : CanonNext (Machine.execIneg r s) := h.intVal

theorem execAnd {r : RecN} {s : State} (h : Canon s) : CanonNext (Machine.execAnd r s) := h.intPat

theorem execOr {r : RecN} {s : State} (h : Canon s) : CanonNext (Machine.execOr r s) := h.intPat

theorem execXor {r : RecN} {s : State} (h : Canon s) : CanonNext (Machine.execXor r s) := h.intPat

theorem execAndn {r : RecN} {s : State} (h : Canon s) : CanonNext (Machine.execAndn r s) := h.intPat

theorem execShl {r : RecN} {s : State} (h : Canon s) : CanonNext (Machine.execShl r s) := h.intPat

theorem execShr {r : RecN} {s : State} (h : Canon s) : CanonNext (Machine.execShr r s) := h.intPat

theorem execSra {r : RecN} {s : State} (h : Canon s) : CanonNext (Machine.execSra r s) := h.intPat

theorem execRot {r : RecN} {s : State} (h : Canon s) : CanonNext (Machine.execRot r s) := h.intPat

theorem execClz {r : RecN} {s : State} (h : Canon s) : CanonNext (Machine.execClz r s) := h.intPat

theorem execPopc {r : RecN} {s : State} (h : Canon s) : CanonNext (Machine.execPopc r s) := h.intPat

theorem execBrev {r : RecN} {s : State} (h : Canon s) : CanonNext (Machine.execBrev r s) := h.intPat

theorem execBfx {r : RecN} {s : State} (h : Canon s) : CanonNext (Machine.execBfx r s) := h.fire

theorem execBfi {r : RecN} {s : State} (h : Canon s) : CanonNext (Machine.execBfi r s) := h.fire

theorem execIcmp {r : RecN} {s : State} (h : Canon s) : CanonNext (Machine.execIcmp r s) := h.fire

theorem execSel {r : RecN} {s : State} (h : Canon s) : CanonNext (Machine.execSel r s) := h.fire

theorem execIclamp {r : RecN} {s : State} (h : Canon s) : CanonNext (Machine.execIclamp r s) := h.intVal

theorem execAddr {r : RecN} {s : State} (h : Canon s) : CanonNext (Machine.execAddr r s) := h.fire

theorem execIaddw {r : RecN} {s : State} (h : Canon s) : CanonNext (Machine.execIaddw r s) := h.fire

theorem execIcvt {r : RecN} {s : State} (h : Canon s) : CanonNext (Machine.execIcvt r s) := h.fire

theorem execCvt {r : RecN} {s : State} (h : Canon s) : CanonNext (Machine.execCvt r s) := h.fire

theorem execFtoi {r : RecN} {s : State} (h : Canon s) : CanonNext (Machine.execFtoi r s) := h.fire

theorem execItof {r : RecN} {s : State} (h : Canon s) : CanonNext (Machine.execItof r s) := h.fire

theorem execBxpack {r : RecN} {s : State} (h : Canon s) : CanonNext (Machine.execBxpack r s) := fireNul (h.of_eq rfl rfl)

theorem execBxunpk {r : RecN} {s : State} (h : Canon s) : CanonNext (Machine.execBxunpk r s) := h.fire

theorem execDot {r : RecN} {s : State} (h : Canon s) : CanonNext (Machine.execDot r s) := h.fireLate

theorem execLsum {r : RecN} {s : State} (h : Canon s) : CanonNext (Machine.execLsum r s) := h.fire

theorem execLscan {r : RecN} {s : State} (h : Canon s) : CanonNext (Machine.execLscan r s) := h.fire

theorem laneExtreme {r : RecN} {max : Bool} {s : State} (h : Canon s) : CanonNext (Machine.laneExtreme r max s) := h.fire

theorem execLmax {r : RecN} {s : State} (h : Canon s) : CanonNext (Machine.execLmax r s) := h.laneExtreme

theorem execLmin {r : RecN} {s : State} (h : Canon s) : CanonNext (Machine.execLmin r s) := h.laneExtreme

theorem execShuf {r : RecN} {s : State} (h : Canon s) : CanonNext (Machine.execShuf r s) := h.fireNul

theorem execBcast {r : RecN} {s : State} (h : Canon s) : CanonNext (Machine.execBcast r s) := by
  unfold Machine.execBcast
  exact h.fireNul

theorem execIota {r : RecN} {s : State} (h : Canon s) : CanonNext (Machine.execIota r s) := h.fire

theorem execLmask {r : RecN} {s : State} (h : Canon s) : CanonNext (Machine.execLmask r s) := h.fire

theorem packWrite {s : State} {part a b wa wb : Nat} (h : Canon s) : Canon (Machine.packWrite s part a b wa wb) := h.setColour

theorem packServe {c : Cur} {s : State} (h : Canon s) : Canon (Machine.packServe c s) := h.packWrite

theorem packFire {r : RecN} {s : State} (h : Canon s) : Canon (Machine.packFire r s) := by
  unfold Machine.packFire
  dsimp only
  split
  · exact h.faultCur
  · exact .ite h.faultCur (.ite h.emitRes h.askPoint.sends)

theorem execPackc {r : RecN} {s : State} (h : Canon s) : CanonNext (Machine.execPackc r s) := by
  unfold Machine.execPackc
  dsimp only
  split
  · exact .refused
  · split
    · exact h.faultCur.next
    · split
      · exact next (.ite h.sendNulls h)
      · exact .ite h.sendNulls.next h.packFire.next

theorem execUnpackc {r : RecN} {s : State} (h : Canon s) : CanonNext (Machine.execUnpackc r s) := h.fireNul

theorem moveNulls {s : State} {c : Cur} {f : Form} {t : Token} (h : Canon s) : Canon (Machine.moveNulls s c f t) := h.sendNulls

theorem moveFire {s : State} {r : RecN} {base : List Nat} {bad : Bool} {op : Cur → Res} (h : Canon s) :
    CanonNext (Machine.moveFire s r base bad op) := by
  unfold Machine.moveFire
  dsimp only
  split
  · exact .refused
  · split
    · exact h.faultCur.next
    · split
      · exact next (.ite h.moveNulls h)
      · exact .ite h.moveNulls.next h.emitRes.next

theorem execCopy {r : RecN} {s : State} (h : Canon s) : CanonNext (Machine.execCopy r s) := h.moveFire

theorem execConst {r : RecN} {s : State} (h : Canon s) : CanonNext (Machine.execConst r s) := h.fire

theorem execSink {r : RecN} {s : State} (h : Canon s) : CanonNext (Machine.execSink r s) := .ite .refused (.ite h.faultCur.next h.next)

theorem execGate {r : RecN} {s : State} (h : Canon s) : CanonNext (Machine.execGate r s) := h.moveFire

theorem execJoin {r : RecN} {s : State} (h : Canon s) : CanonNext (Machine.execJoin r s) := by
  unfold Machine.execJoin
  dsimp only
  split
  · exact .refused
  · split
    · exact h.faultCur.next
    · split
      · exact next (.ite h.sendNulls h)
      · exact .ite h.sendNulls.next h.emitRes.next

theorem execVoid {r : RecN} {s : State} (h : Canon s) : CanonNext (Machine.execVoid r s) := h.moveFire

theorem execSteer {r : RecN} {s : State} (h : Canon s) : CanonNext (Machine.execSteer r s) := by
  unfold Machine.execSteer
  dsimp only
  split
  · exact .refused
  · split
    · exact h.faultCur.next
    · split
      · exact next (.ite h.sendAll h)
      · split
        · exact next (.ite h.moveNulls h)
        · exact .ite h.moveNulls.next h.emitRes.next

theorem execMerge {r : RecN} {s : State} (h : Canon s) : CanonNext (Machine.execMerge r s) := by
  unfold Machine.execMerge
  dsimp only
  split
  · exact .refused
  · split
    · exact h.faultCur.next
    · split
      · exact next (.ite h.moveNulls h)
      · exact .ite (next (.ite h.moveNulls h)) h.emitRes.next

theorem execEnter {r : RecN} {s : State} (h : Canon s) : CanonNext (Machine.execEnter r s) := by
  unfold Machine.execEnter
  exact h.moveFire

theorem execWave {r : RecN} {s : State} (h : Canon s) : CanonNext (Machine.execWave r s) := by
  unfold Machine.execWave
  exact h.moveFire

theorem execLeave {r : RecN} {s : State} (h : Canon s) : CanonNext (Machine.execLeave r s) := by
  unfold Machine.execLeave
  exact h.moveFire

theorem execThrottleCredit {s : State} (h : Canon s) : CanonNext (Machine.execThrottleCredit s) := by
  unfold Machine.execThrottleCredit
  split
  · exact .notNow
  · dsimp only
    split
    · exact .notNow
    · split
      · exact next (postTok (noteTook (h.of_eq rfl rfl)))
      · split
        · exact next (discardTok (noteTook (h.of_eq rfl rfl)))
        · split
          · exact next (discardTok (noteTook (h.of_eq rfl rfl)))
          · split
            · split
              · exact next (settle (setNib (noteTook (h.of_eq rfl rfl))))
              · exact .notNow
            · split
              · exact .notNow
              · exact next (settle (setNib (noteTook (h.of_eq rfl rfl))))

theorem throttleFire {r : RecN} {s : State} {n : Nib} {i : Nat} {e : ThrEntry} (h : Canon s) :
    Canon (Machine.throttleFire r s n i e) := settle (.ite (.ite h.setNib.moveNulls h.setNib) h.setNib.emitRes)

theorem execThrottleAdmit {r : RecN} {s : State} (h : Canon s) : CanonNext (Machine.execThrottleAdmit r s) := by
  unfold Machine.execThrottleAdmit
  dsimp only
  split
  · exact .refused
  · split
    · exact h.faultCur.settle.next
    · split
      · split
        · exact h.throttleFire.next
        · exact h.next
      · exact h.setNib.next

theorem freeSticky {s : State} {p site plane node : Nat} {base : Word64} (h : Canon s) :
    Canon (Machine.freeSticky s p site plane node base) := h.setNib.settle

theorem execRepeat {r : RecN} {s : State} (h : Canon s) : CanonNext (Machine.execRepeat r s) := by
  unfold Machine.execRepeat
  dsimp only
  split
  · exact .refused
  · split
    · exact h.faultCur.next
    · refine Canon.next ?_
      split
      · exact freeSticky (.ite (.ite h.moveNulls h) (.ite h.moveNulls h.emitRes))
      · exact .ite (.ite h.moveNulls h) (.ite h.moveNulls h.emitRes)

theorem execTagget {r : RecN} {s : State} (h : Canon s) : CanonNext (Machine.execTagget r s) := h.fire

theorem execTagset {r : RecN} {s : State} (h : Canon s) : CanonNext (Machine.execTagset r s) := by
  unfold Machine.execTagset
  exact h.moveFire

theorem startGen {s : State} {c : Cur} {f : Form} {level : Nat} {kind : GenKind} {arg : Token} (h : Canon s) :
    Canon (Machine.startGen s c f level kind arg) := h.setNib.settle

theorem rangeFire {r : RecN} {s : State} {c : Cur} (h : Canon s) :
    Canon (Machine.rangeFire r s c) := .ite h.faultCur (.ite h.emitRes h.startGen)

theorem execRange {r : RecN} {s : State} (h : Canon s) : CanonNext (Machine.execRange r s) := h.fireWith (fun _ _ _ _ _ hu => hu.rangeFire)

theorem execRunend {r : RecN} {s : State} (h : Canon s) : CanonNext (Machine.execRunend r s) := h.moveFire

theorem execRead {r : RecN} {s : State} (h : Canon s) : CanonNext (Machine.execRead r s) := h.fire

theorem onBlock {s : State} {p : Nat} {f : Block → Block} (h : Canon s) : Canon (Machine.onBlock s p f) := by
  unfold Machine.onBlock
  split
  · exact h.setScribe
  · exact h

theorem execWrite {r : RecN} {s : State} (h : Canon s) : CanonNext (Machine.execWrite r s) := by
  unfold Machine.execWrite
  dsimp only
  split
  · exact .refused
  · exact .ite h.faultCur.next (.ite h.faultCur.next h.onBlock.next)

theorem exitFire {op : Nat} {bad : Bool} {r : RecN} {s : State} (h : Canon s) : CanonNext (Machine.exitFire op bad r s) := by
  unfold Machine.exitFire
  dsimp only
  split
  · exact .refused
  · split
    · exact h.faultCur.next
    · exact .ite h.faultCur.next (.ite h.next h.onBlock.next)

theorem execBranch {r : RecN} {s : State} (h : Canon s) : CanonNext (Machine.execBranch r s) := h.exitFire

theorem execBcall {r : RecN} {s : State} (h : Canon s) : CanonNext (Machine.execBcall r s) := h.exitFire

theorem execBret {r : RecN} {s : State} (h : Canon s) : CanonNext (Machine.execBret r s) := h.exitFire

theorem accSend {s : State} {a : Access} {v : Val} {cond : Bool} (h : Canon s) : Canon (Machine.accSend s a v cond) := h.sendAll

theorem accNull {s : State} {a : Access} (h : Canon s) : Canon (Machine.accNull s a) := .ite h.accSend h

theorem putAccess {s : State} {a : Access} (h : Canon s) : Canon (Machine.putAccess s a) := h.setObuf

theorem dropAccess {s : State} {p site id : Nat} (h : Canon s) : Canon (Machine.dropAccess s p site id) := h.setObuf

theorem wellDiscards {s : State} {a : Access} {cause addr : Nat} (h : Canon s) :
    Canon (Machine.wellDiscards s a cause addr) := h.post.dropAccess

theorem orderDone {s : State} {a : Access} (h : Canon s) : Canon (Machine.orderDone s a) := by
  unfold Machine.orderDone
  dsimp only
  refine .ite ?_ ?_
  · exact .ite h h.pushScope
  · exact accSend (dropAccess (.ite h h.pushScope))

theorem settleOrders {s : State} {p site : Nat} (h : Canon s) : Canon (Machine.settleOrders s p site) := by
  unfold Machine.settleOrders
  refine iter h (fun _ _ hu => ?_)
  dsimp only
  split
  · split
    · exact hu.wellDiscards
    · exact .ite hu.dropAccess.accNull hu.orderDone
  · exact hu

theorem finishAccess {s : State} {a : Access} {v : Val} {cond : Bool} (h : Canon s) :
    Canon (Machine.finishAccess s a v cond) := h.dropAccess.accSend.settleOrders

theorem accFault {s : State} {a : Access} {cause addr : Nat} (h : Canon s) :
    Canon (Machine.accFault s a cause addr) := .ite h.post.putAccess h.post.dropAccess.settleOrders

theorem accStale {s : State} {a : Access} {addr : Nat} (h : Canon s) : Canon (Machine.accStale s a addr) := h.post.dropAccess.settleOrders

theorem wellStore {s : State} {p w : Nat} {bs : List (Nat × Byte)} {poison : Bool} (h : Canon s) :
    Canon (Machine.wellStore s p w bs poison) :=
  ⟨h.mem, memWf_foldl bs (fun x => wellAddr p w x.1) (fun x => x.2) h.wmem⟩

theorem performBytes {s : State} {w : Nat} {a : Access} {plan : List (Nat × Nat)} (h : Canon s) :
    Canon (Machine.performBytes s w a plan).1 := iteFst h (iteFst h.wellStore h.wellStore)

theorem toCombiner {s : State} {a : Access} {place addr : Nat} (h : Canon s) : Canon (Machine.toCombiner s a place addr) := h.of_eq rfl rfl

theorem walkEnds {s : State} {die ctx va : Nat} {e : WalkEnd} (h : Canon s) : Canon (Machine.walkEnds s die ctx va e) := h.of_eq rfl rfl

theorem walkRead {s : State} {die ctx va level table : Nat} (h : Canon s) :
    Canon (Machine.walkRead s die ctx va level table) := h.of_eq rfl rfl

theorem walkStart {s : State} {die ctx va : Nat} (h : Canon s) : Canon (Machine.walkStart s die ctx va) := by
  unfold Machine.walkStart
  dsimp only
  split
  · exact h.walkEnds
  · exact h.walkRead

theorem walkOn {s : State} {die ctx va level : Nat} {w : Word64} (h : Canon s) : Canon (Machine.walkOn s die ctx va level w) := by
  unfold Machine.walkOn
  split
  · exact h.walkEnds
  · exact h.walkRead

theorem walksRestart {s : State} {ctx lo hi : Nat} (h : Canon s) :
    Canon (Machine.walksRestart s ctx lo hi) := foldl (h.of_eq rfl rfl) (fun _ _ hu => hu.walkStart)

theorem startWalk {s : State} {a : Access} {addr : Nat} (h : Canon s) :
    Canon (Machine.startWalk s a addr) := .ite h (.ite h (walkStart (h.of_eq rfl rfl)))

theorem noteRelease {s : State} {a : Access} {ga : Nat} (h : Canon s) : Canon (Machine.noteRelease s a ga) := .ite h.recordRelease h

theorem performSector {s : State} {keep : Option Nat} {a : Access} {sec ga cls : Nat} (h : Canon s) :
    Canon (Machine.performSector s keep a sec ga cls).1 := by
  unfold Machine.performSector
  dsimp only
  exact iteFst h.noteRelease.writeL2 (iteFst h.noteRelease.readL2 h.noteRelease.readL2.writeL2)

theorem beforeRelease {s : State} {a : Access} {ga : Nat} (h : Canon s) : Canon (Machine.beforeRelease s a ga) := .ite h.pushScope h

theorem scatterPart {s : State} {a : Access} {bad : Nat} (h : Canon s) : Canon (Machine.scatterPart s a bad) := by
  unfold Machine.scatterPart
  dsimp only
  refine foldl_fst h (fun _ _ hu => ?_)
  split
  · split
    · exact iteFst (.ite hu.writeL2 hu) hu
    · exact hu
  · exact hu

theorem dropRemote {s : State} {die ga : Nat} {wide : Bool} (h : Canon s) : Canon (Machine.dropRemote s die ga wide) := by
  unfold Machine.dropRemote
  dsimp only
  refine delL2 ?_
  split
  · exact h
  · refine foldl h (fun _ _ hu => ?_)
    split
    · exact .ite hu hu.wbSector.setWell
    · exact hu

theorem sendPieces {s : State} {a : Access} {pas : List (Nat × Nat × Nat)} {path : Nat → Nat → List Nat} (h : Canon s) :
    Canon (Machine.sendPieces s a pas path) := updReqs (h.foldl (fun _ _ hu => .ite hu.dropRemote hu))

theorem setOut {s : State} {a : Access} {pas : List (Nat × Nat × Nat)} {path : Nat → Nat → List Nat} (h : Canon s) :
    Canon (Machine.setOut s a pas path) := by
  unfold Machine.setOut
  dsimp only
  split
  · exact finishAccess (.ite (h.foldl (fun _ _ hu => .ite hu hu.promotePush)) h)
  · split
    · exact sendPieces (noteRelease (putAccess (.ite (h.foldl (fun _ _ hu => .ite hu hu.promotePush)) h)))
    · exact sendPieces (putAccess (.ite (h.foldl (fun _ _ hu => .ite hu hu.promotePush)) h))

theorem expand {s : State} {a : Access} (h : Canon s) : Canon (Machine.expand s a) := by
  unfold Machine.expand
  dsimp only
  split
  · exact h.accFault
  · split
    · exact h.accFault
    · split
      · exact .ite h.accFault h.startWalk
      · split
        · exact accFault (.ite h.scatterPart h)
        · split
          · exact h
          · refine .ite ?_ ?_
            · split
              · exact h
              · exact h.beforeRelease
            · refine setOut ?_
              split
              · exact h
              · exact h.beforeRelease

theorem advance {s : State} {p site : Nat} (h : Canon s) : Canon (Machine.advance s p site) := by
  unfold Machine.advance
  split
  · exact h
  · refine iter h (fun _ _ hu => ?_)
    dsimp only
    split
    · exact .ite hu.expand hu
    · exact hu

theorem execOrderBufferRelease {s : State} (h : Canon s) : CanonNext (Machine.execOrderBufferRelease s) := by
  unfold Machine.execOrderBufferRelease
  dsimp only
  split
  · exact .notNow
  · exact .ite .notNow h.setObuf.settleOrders.advance.next

theorem wcfgAt {s : State} {a : Access} (h : Canon s) : Canon (Machine.wcfgAt s a) := .ite h.accFault (.ite h.accFault h.putAccess.setWell)

theorem markAt {s : State} {a : Access} (h : Canon s) :
    Canon (Machine.markAt s a) := .ite h.accFault (.ite h.accFault h.setWell.finishAccess)

theorem fifoAt {s : State} {a : Access} (h : Canon s) : CanonSome (Machine.fifoAt s a) := by
  unfold Machine.fifoAt
  dsimp only
  split
  · exact .ite h.setWell.finishAccess.some .none
  · split
    · split
      · exact .none
      · exact h.setWell.finishAccess.some
    · exact h.accFault.some

theorem wellOut {s : State} {a : Access} (h : Canon s) : Canon (Machine.wellOut s a) := .ite h.finishAccess (h.of_eq rfl rfl)

theorem storeAt {s : State} {a : Access} (h : Canon s) : CanonSome (Machine.storeAt s a) := by
  unfold Machine.storeAt
  dsimp only
  split
  · exact h.accFault.some
  · split
    · exact .none
    · split
      · exact h.accFault.some
      · exact .ite h.accFault.some (.ite h.toCombiner.some h.wellOut.some)

theorem flushSlot {s : State} {p w slot : Nat} (h : Canon s) : Canon (Machine.flushSlot s p w slot) := h.wbSlot

theorem slotUsed {s : State} {p w slot : Nat} (h : Canon s) : Canon (Machine.slotUsed s p w slot) := by
  unfold Machine.slotUsed
  dsimp only
  split
  · exact h.setWell
  · exact h

theorem takeSlot {s : State} {p w page base : Nat} (h : Canon s) : CanonSomeFst (Machine.takeSlot s p w page base) := by
  unfold Machine.takeSlot
  split
  · exact h.slotUsed.someFst
  · split
    · exact .none
    · exact h.flushSlot.setWell.someFst

theorem fillReq {s : State} {p w sec base ctx : Nat} (h : Canon s) : Canon (Machine.fillReq s p w sec base ctx) := h.of_eq rfl rfl

theorem fillPut {s : State} {p w page sec : Nat} {bs : List Byte} {bad : Bool} (h : Canon s) :
    Canon (Machine.fillPut s p w page sec bs bad) := by
  unfold Machine.fillPut
  split
  · exact h
  · exact .ite h h.wellStore.setWell

theorem renew {s : State} {p w slot sec ga : Nat} (h : Canon s) : Canon (Machine.renew s p w slot sec ga) := by
  unfold Machine.renew
  split
  · exact .ite h.wellStore h
  · exact h

theorem windowNarrow {s : State} {a : Access} {sec : Nat} (h : Canon s) : Canon (Machine.windowNarrow s a sec).1 := by
  unfold Machine.windowNarrow
  dsimp only
  split
  · exact h
  · exact setWell (performBytes (noteRelease (.ite h.renew h)))

theorem windowWide {s : State} {a : Access} {sec ga cls : Nat} (h : Canon s) : Canon (Machine.windowWide s a sec ga cls).1 := by
  unfold Machine.windowWide
  dsimp only
  split
  · exact h.performSector
  · split
    · exact h.wbSector.performSector
    · exact h.wbSector.performSector.wellStore.slotUsed

theorem windowYields {s : State} {a : Access} {pas : List (Nat × Nat × Nat)} (h : Canon s) : Canon (Machine.windowYields s a pas) := by
  unfold Machine.windowYields
  dsimp only
  refine foldl h (fun _ _ hu => ?_)
  split
  · split
    · exact hu.wbSector.setWell
    · exact hu
  · exact hu

theorem windowAt {s : State} {a : Access} (h : Canon s) : CanonSome (Machine.windowAt s a) := by
  unfold Machine.windowAt
  dsimp only
  split
  · exact h.accFault.some
  · split
    · exact h.accFault.some
    · split
      · exact h.accFault.some
      · split
        · exact h.accFault.some
        · split
          · exact .ite .none h.startWalk.some
          · split
            · exact h.accFault.some
            · split
              · exact .none
              · refine .ite ?_ ?_
                · refine Canon.some ?_
                  split
                  · exact h
                  · exact h.beforeRelease
                · refine Canon.some ?_
                  refine setOut ?_
                  refine windowYields ?_
                  split
                  · exact h
                  · exact h.beforeRelease

theorem execPageWindowFill {s : State} (h : Canon s) : CanonNext (Machine.execPageWindowFill s) := by
  unfold Machine.execPageWindowFill
  dsimp only
  split
  · exact .notNow
  · split
    · exact .notNow
    · split
      · exact .notNow
      · split
        · rename_i heq3
          exact (of_someFst heq3 h.takeSlot).fillReq.next
        · exact .notNow

theorem paceAt {s : State} {a : Access} (h : Canon s) : Canon (Machine.paceAt s a) := by
  unfold Machine.paceAt
  dsimp only
  split
  · exact .ite h.accFault (finishAccess (.ite h h.curFlags))
  · split
    · split
      · exact h.accFault
      · exact .ite h.accFault h.performBytes.finishAccess
    · exact h.accFault

theorem wellRelease {s : State} {a : Access} (h : Canon s) : Canon (Machine.wellRelease s a) := .ite h.pushScope h

theorem afterRelease {s : State} {a : Access} {k : State → Option State} (h : Canon s) (hk : ∀ (u : State), Canon u → CanonSome (k u)) :
    CanonSome (Machine.afterRelease s a k) := .ite .none (.ite h.wellRelease.some ((hk _ h.wellRelease)))

theorem accessWell {s : State} {a : Access} (h : Canon s) : CanonSome (Machine.accessWell s a) := by
  unfold Machine.accessWell
  dsimp only
  split
  · exact h.accFault.some
  · split
    · exact h.wcfgAt.some
    · split
      · exact .none
      · split
        · exact h.accFault.some
        · split
          · exact h.accFault.some
          · split
            · exact h.markAt.some
            · split
              · exact h.accFault.some
              · split
                · exact h.accFault.some
                · split
                  · split
                    · exact h.afterRelease (fun _ hu => hu.storeAt)
                    · exact h.accFault.some
                  · split
                    · exact h.afterRelease (fun _ hu => hu.storeAt)
                    · exact h.accFault.some
                  · split
                    · exact h.afterRelease (fun _ hu => hu.fifoAt)
                    · exact h.accFault.some
                  · exact h.paceAt.some
                  · exact h.windowAt
                  · exact h.accFault.some

theorem execWellAccess {s : State} (h : Canon s) : CanonNext (Machine.execWellAccess s) := by
  unfold Machine.execWellAccess
  dsimp only
  split
  · exact .notNow
  · split
    · exact .notNow
    · split
      · rename_i heq2
        exact (of_some heq2 h.accessWell).next
      · exact .notNow

theorem execWcfgTakeEffect {s : State} (h : Canon s) : CanonNext (Machine.execWcfgTakeEffect s) := by
  unfold Machine.execWcfgTakeEffect
  dsimp only
  split
  · exact .notNow
  · split
    · exact .notNow
    · refine Canon.next ?_
      split
      · exact finishAccess (wakePanel (setWell (.ite (h.foldl (fun _ _ hu => hu.flushSlot)) h)))
      · exact wakePanel (setWell (.ite (h.foldl (fun _ _ hu => hu.flushSlot)) h))

theorem applyAddend {s : State} {place : Nat} {a : Access} (h : Canon s) : Canon (Machine.applyAddend s place a).1 := by
  unfold Machine.applyAddend
  dsimp only
  split
  · exact h
  · split
    · exact h.wellStore
    · exact foldl (h.foldl (fun _ _ hu => hu.passOn.readL2)) (fun _ _ hu => hu.writeL2)

theorem respond {s : State} {die dev : Nat} {carried : Option Carried} {body : FlitBody} (h : Canon s) :
    Canon (Machine.respond s die dev carried body) := by
  unfold Machine.respond
  split
  · exact h
  · exact h.of_eq rfl rfl

theorem ackAddend {s : State} {a : Access} {i cnt : Nat} {flags : BitVec 5} (h : Canon s) : Canon (Machine.ackAddend s a i cnt flags) := by
  unfold Machine.ackAddend
  split
  · exact h.respond
  · exact advance (finishAccess (.ite h h.curFlags))

theorem applyRun {place n : Nat} {s : State} {x : AccSlot} (h : Canon s) : Canon (Machine.applyRun place n s x).1 := by
  induction n generalizing s x with
  | zero => exact h
  | succ n ih =>
    unfold Machine.applyRun
    split
    · exact h
    · exact ih (ackAddend h.applyAddend)

theorem addendAt {s : State} {k place addr : Nat} {a : Access} {i cnt : Nat} {base : Word64} (h : Canon s) :
    CanonSome (Machine.addendAt s k place addr a i cnt base) := by
  unfold Machine.addendAt
  extract_lets s0 here j sl s1 sl1 others
  have h0 : Canon s0 := h.of_eq rfl rfl
  refine .ite .none (.ite ?_ (.ite .none ?_))
  · have h1 : Canon s1 := .ite h0 (h0.of_eq rfl rfl)
    refine some ?_
    split
    · exact h1.respond
    · exact h1.accFault.advance
  · exact some (of_eq (h0.applyRun (place := place) (n := sl1.staged.length) (x := sl1)) rfl rfl)

theorem execAccAddend {s : State} (h : Canon s) : CanonNext (Machine.execAccAddend s) := by
  unfold Machine.execAccAddend
  split
  · exact .notNow
  · split
    · split
      · rename_i heq3
        exact (of_some heq3 h.addendAt).next
      · exact .notNow

theorem execPageWalk {s : State} (h : Canon s) : CanonNext (Machine.execPageWalk s) := by
  unfold Machine.execPageWalk
  split
  · exact .notNow
  · split
    · exact .notNow
    · dsimp only
      refine Canon.next ?_
      refine foldl ?_ (fun _ _ hu => hu.advance)
      split
      · exact tlbInstall (h.of_eq rfl rfl)
      · exact foldl (h.of_eq rfl rfl) (fun _ _ hu => .ite (hu.foldl (fun _ _ hv => .ite hv.accFault hv)) hu)

end Canon
end Sys2Proof.Proofs
end


section
/-!
PROOF. The canonical form through memory records, transfers, waits, arrays and cavities (04, 06, 11, 12).
-/
namespace Sys2Proof.Proofs
open Sys2Proof.Machine Sys2Proof.Safety Sys2Proof.Claims

namespace Canon

theorem toSite {s : State} {a : Access} (h : Canon s) : Canon (Machine.toSite s a) := h.setObuf

theorem memFire {op : Nat} {r : RecM} {s : State} (h : Canon s) : CanonNext (Machine.memFire op r s) := by
  unfold Machine.memFire
  dsimp only
  split
  · exact .refused
  · split
    · exact h.faultCur.next
    · split
      · split
        · exact next (toSite (onBlock (h.of_eq rfl rfl)))
        · exact next (onBlock (onBlock (h.of_eq rfl rfl)))
      · exact next (toSite (h.of_eq rfl rfl))

theorem execLd {r : RecM} {s : State} (h : Canon s) : CanonNext (Machine.execLd r s) := h.memFire

theorem execSt {r : RecM} {s : State} (h : Canon s) : CanonNext (Machine.execSt r s) := h.memFire

theorem execLdx {r : RecM} {s : State} (h : Canon s) : CanonNext (Machine.execLdx r s) := h.memFire

theorem execStx {r : RecM} {s : State} (h : Canon s) : CanonNext (Machine.execStx r s) := h.memFire

theorem execMnop {r : RecM} {s : State} (h : Canon s) : CanonNext (Machine.execMnop r s) := h.memFire

theorem execFence {r : RecM} {s : State} (h : Canon s) : CanonNext (Machine.execFence r s) := h.memFire

theorem execOrder {r : RecM} {s : State} (h : Canon s) : CanonNext (Machine.execOrder r s) := h.memFire

theorem execAadd {r : RecM} {s : State} (h : Canon s) : CanonNext (Machine.execAadd r s) := h.memFire

theorem execAmin {r : RecM} {s : State} (h : Canon s) : CanonNext (Machine.execAmin r s) := h.memFire

theorem execAmax {r : RecM} {s : State} (h : Canon s) : CanonNext (Machine.execAmax r s) := h.memFire

theorem execAand {r : RecM} {s : State} (h : Canon s) : CanonNext (Machine.execAand r s) := h.memFire

theorem execAor {r : RecM} {s : State} (h : Canon s) : CanonNext (Machine.execAor r s) := h.memFire

theorem execAxor {r : RecM} {s : State} (h : Canon s) : CanonNext (Machine.execAxor r s) := h.memFire

theorem execAxchg {r : RecM} {s : State} (h : Canon s) : CanonNext (Machine.execAxchg r s) := h.memFire

theorem execAcas {r : RecM} {s : State} (h : Canon s) : CanonNext (Machine.execAcas r s) := h.memFire

theorem execAcc {r : RecM} {s : State} (h : Canon s) : CanonNext (Machine.execAcc r s) := h.memFire

theorem execWcfg {r : RecM} {s : State} (h : Canon s) : CanonNext (Machine.execWcfg r s) := h.memFire

theorem execWfull {r : RecM} {s : State} (h : Canon s) : CanonNext (Machine.execWfull r s) := h.memFire

theorem execWempty {r : RecM} {s : State} (h : Canon s) : CanonNext (Machine.execWempty r s) := h.memFire

theorem execLdp {r : RecM} {s : State} (h : Canon s) : CanonNext (Machine.execLdp r s) := h.memFire

theorem execPromote {r : RecM} {s : State} (h : Canon s) : CanonNext (Machine.execPromote r s) := h.memFire

theorem tagDone {s : State} {p tag : Nat} {ok : Bool} (h : Canon s) : Canon (Machine.tagDone s p tag ok) := by
  unfold Machine.tagDone
  exact h.setScribe.wakePanel

theorem putXfer {s : State} {x : Xfer} (h : Canon s) : Canon (Machine.putXfer s x) := h.of_eq rfl rfl

theorem sweepXfer {s : State} {id : Nat} (h : Canon s) : Canon (Machine.sweepXfer s id) := by
  unfold Machine.sweepXfer
  split
  · exact .ite (h.of_eq rfl rfl) h
  · exact h

theorem xferFail {s : State} {x : Xfer} {cause addr : Nat} (h : Canon s) :
    Canon (Machine.xferFail s x cause addr) := .ite h h.post.putXfer.tagDone.sweepXfer

theorem xferClose {s : State} {id : Nat} (h : Canon s) : Canon (Machine.xferClose s id) := by
  unfold Machine.xferClose
  split
  · exact h
  · exact .ite h.sweepXfer (.ite (tagDone (h.of_eq rfl rfl)) h)

theorem xferCount {s : State} {id : Nat} (h : Canon s) : Canon (Machine.xferCount s id) := by
  unfold Machine.xferCount
  split
  · exact h.putXfer
  · exact h

theorem sectorDone {s : State} {id : Nat} (h : Canon s) : Canon (Machine.sectorDone s id) := h.xferCount.xferClose

theorem xferRead {s : State} {x : Xfer} {r : Req} (h : Canon s) : Canon (Machine.xferRead s x r).1 := by
  unfold Machine.xferRead
  split
  · exact iteFst h h.xferFail
  · split
    · rename_i heq1
      exact of_fst heq1 h.readL2

theorem fifoPush {s : State} {x : Xfer} {bs : List Byte} {bad : Bool} (h : Canon s) :
    Canon (Machine.fifoPush s x bs bad) := h.setWell.putXfer

theorem xferWrite {s : State} {x : Xfer} {r : Req} {bs : List Byte} {bad : Bool} (h : Canon s) :
    Canon (Machine.xferWrite s x r bs bad) := by
  unfold Machine.xferWrite
  split
  · exact h.xferCount
  · split
    · dsimp only
      split
      · exact h.wellStore.xferCount
      · exact h.wellStore.xferCount
      · exact h.fifoPush.xferCount
      · exact h.xferFail
    · exact h.writeL2.xferCount

theorem sendOut {s : State} {link dev ctx : Nat} {carried : Option Carried} {body : FlitBody} (h : Canon s) :
    Canon (Machine.sendOut s link dev ctx carried body) := .ite h.setLink.count32 h.setLink

theorem staleAccess {s : State} {p site id : Nat} (h : Canon s) : Canon (Machine.staleAccess s p site id) := by
  unfold Machine.staleAccess
  split
  · exact advance (accStale (h.of_eq rfl rfl))
  · exact h

theorem pinsFail {s : State} {p w page : Nat} (h : Canon s) :
    Canon (Machine.pinsFail s p w page) := foldl (h.of_eq rfl rfl) (fun _ _ hu => hu.faultCur)

theorem onCavity {s : State} {p w base : Nat} {f : Cavity → Cavity} (h : Canon s) : Canon (Machine.onCavity s p w base f) := h.setWell

theorem resettle {s : State} {p : Nat} (h : Canon s) :
    Canon (Machine.resettle s p) := h.foldl (fun _ _ hu => .ite hu.settleOrders.advance hu)

theorem staleReq {s : State} {r : Req} (h : Canon s) : Canon (Machine.staleReq s r) := by
  unfold Machine.staleReq
  split
  · exact h.staleAccess
  · split
    · exact h.xferFail.sweepXfer
    · exact h
  · exact pinsFail (h.foldl (fun _ _ hu => hu.staleAccess))
  · exact h.post.resettle
  · exact h.walkEnds
  · exact onCavity (post (h.of_eq rfl rfl))
  · exact h

theorem leavePart {s : State} {link : Nat} {r : Req} (h : Canon s) : Canon (Machine.leavePart s link r) := by
  unfold Machine.leavePart
  extract_lets id ask dev hf
  have hask : ∀ d c b, Canon (ask d c b) := by
    intro d c b
    have hsent : Canon (Machine.sendOut { s with fresh := id + 1 } link d r.ctx c b) := sendOut (h.of_eq rfl rfl)
    exact hsent.of_eq rfl rfl
  clear_value ask
  refine .ite h.staleReq ?_
  split
  · split
    · exact h
    · exact hask _ _ _
  · split
    · exact h
    · exact .ite h.sweepXfer (hask _ _ _)
  · exact hask _ _ _
  · exact hask _ _ _
  · exact hask _ _ _
  · exact h.sendOut
  · exact setLink (.ite h.count32 h)
  · exact h

theorem serveIncoming {s : State} {r : Req} {dev : Nat} {body : FlitBody} (h : Canon s) : Canon (Machine.serveIncoming s r dev body) := by
  unfold Machine.serveIncoming
  dsimp only
  split
  · exact h.readL2.respond
  · exact h.promotePush.readL2.respond
  · exact h.writeL2.respond
  · exact h.readL2.writeL2.respond
  · exact h.of_eq rfl rfl
  · exact h

theorem answerPiece {s : State} {p site id sec : Nat} {bs : List Byte} {poison : Bool} (h : Canon s) :
    Canon (Machine.answerPiece s p site id sec bs poison) := by
  unfold Machine.answerPiece
  split
  · exact h
  · dsimp only
    split
    · split
      · exact advance (accFault (.ite h h.delL2))
      · exact advance (finishAccess (.ite (.ite h h.delL2) (curFlags (.ite h h.delL2))))
    · refine .ite ?_ ?_
      · exact advance (finishAccess (.ite h h.delL2))
      · exact putAccess (.ite h h.delL2)

theorem answer {s : State} {m : Remote} {bs : List Byte} {poison : Bool} (h : Canon s) : Canon (Machine.answer s m bs poison) := by
  unfold Machine.answer
  split
  · exact h
  · dsimp only
    split
    · exact .ite h.answerPiece (h.of_eq rfl rfl)
    · split
      · exact h.of_eq rfl rfl
      · refine sectorDone ?_
        split
        · exact h.dropRemote
        · exact h
    · exact h.of_eq rfl rfl
    · exact h.delL2.resettle
    · exact h.onCavity
    · exact h.delL2
    · exact h

theorem pieceAct {s : State} {arb : Nat} {r : Req} {p site id sec : Nat} (h : Canon s) :
    Canon (Machine.pieceAct s arb r p site id sec) := by
  unfold Machine.pieceAct
  split
  · exact h
  · dsimp only
    split
    · exact h.of_eq rfl rfl
    · split
      · split
        · split
          · exact h.ensureLine.putAccess
          · exact h
        · exact putAccess (iteFst h.windowWide h.performSector)
      · exact putAccess (iteFst h.windowNarrow h.performBytes)

theorem pieceEnd {s : State} {p site id sec : Nat} (h : Canon s) : Canon (Machine.pieceEnd s p site id sec) := by
  unfold Machine.pieceEnd
  split
  · exact h
  · exact .ite h (.ite h.finishAccess.advance h.putAccess)

theorem hostAct {s : State} {r : Req} {hf : Nat} {bs : List (Nat × Byte)} {poison : Bool} (h : Canon s) :
    Canon (Machine.hostAct s r hf bs poison).1 := by
  unfold Machine.hostAct
  split
  · split
    · rename_i heq1
      exact of_fst heq1 h.readL2
  · exact h.writeL2

theorem hostEnd {s : State} {id sec : Nat} {data : Option (List Byte × Bool)} (h : Canon s) : Canon (Machine.hostEnd s id sec data) := by
  unfold Machine.hostEnd
  split
  · exact h
  · dsimp only
    split
    · exact h.of_eq rfl rfl
    · exact .ite (h.of_eq rfl rfl) (h.of_eq rfl rfl)

theorem noteServed {s : State} {arb : Nat} {r : Req} (h : Canon s) : Canon (Machine.noteServed s arb r) := h.markServed

theorem dropReq {s : State} {i : Nat} (h : Canon s) : Canon (Machine.dropReq s i) := h.of_eq rfl rfl

theorem noteRead {s : State} {arb : Nat} {r : Req} (h : Canon s) :
    Canon (Machine.noteRead s arb r) := .ite h.setWell (.ite h.setWell.noteServed h)

theorem atStage {s : State} {arb : Nat} {r : Req} (h : Canon s) : Canon (Machine.atStage s arb r).1 := by
  unfold Machine.atStage
  dsimp only
  split
  · exact .ite h.count32.count32 h
  · split
    · split
      · exact h.pieceAct
      · exact h.serveIncoming
      · split
        · exact iteFst h h.xferRead
        · exact h
      · exact iteFst h h.fetchL2
      · exact h
      · exact h.hostAct
      · exact h
    · exact h

theorem endReq {s : State} {i : Nat} {r : Req} (h : Canon s) : Canon (Machine.endReq s i r) := by
  unfold Machine.endReq
  split
  · exact h.dropReq.pieceEnd
  · dsimp only
    split
    · exact h.of_eq rfl rfl
    · exact .ite (h.of_eq rfl rfl) (xferWrite (h.of_eq rfl rfl))
  · exact h.dropReq.fillPut
  · exact h.dropReq.walkOn
  · exact h.dropReq.hostEnd
  · exact h.dropReq.pointArrive
  · split
    · exact answer (h.of_eq rfl rfl)
    · exact h.dropReq
  · exact h.dropReq

theorem moveOn {s : State} {i : Nat} {r : Req} {path : List Nat} (h : Canon s) : Canon (Machine.moveOn s i r path) := h.of_eq rfl rfl

theorem serve {s : State} {arb i : Nat} {r : Req} (h : Canon s) : Canon (Machine.serve s arb i r) := by
  unfold Machine.serve
  dsimp only
  split
  · exact h.moveOn
  · split
    · exact h.dropReq.leavePart
    · split
      · exact h.dropReq.staleReq
      · split
        · exact h.noteRead.atStage.endReq
        · exact h.noteRead.atStage.moveOn

theorem execArbiterService {s : State} (h : Canon s) : CanonNext (Machine.execArbiterService s) := by
  unfold Machine.execArbiterService
  dsimp only
  split
  · exact .notNow
  · split
    · exact .notNow
    · split
      · exact .notNow
      · exact h.noteServed.serve.next

theorem fillMiss {s : State} {die : Nat} {r : Req} (h : Canon s) : Canon (Machine.fillMiss s die r).1 := by
  unfold Machine.fillMiss
  dsimp only
  generalize r.kind = kind
  generalize r.data = data
  cases data with
  | some d =>
    cases kind
    all_goals
      dsimp only
      split
      · exact h.installRemote
      · exact h.fetchL2
  | none =>
    cases kind
    case xferSector =>
      dsimp only
      exact h.fetchLine
    all_goals
      dsimp only
      exact h.fetchL2

theorem execL2Fill {s : State} (h : Canon s) : CanonNext (Machine.execL2Fill s) := by
  unfold Machine.execL2Fill
  split
  · exact .notNow
  · next r _ =>
    split
    · exact .notNow
    · next f _ _ =>
      dsimp only
      split
      · exact .notNow
      · exact next (of_eq (h.fillMiss (die := f % 65536) (r := r)) rfl rfl)

theorem execTransferSectorDone {s : State} (h : Canon s) : CanonNext (Machine.execTransferSectorDone s) := by
  unfold Machine.execTransferSectorDone
  split
  · exact .notNow
  · split
    · split
      · exact .notNow
      · dsimp only
        split
        · exact h.dropReq.next
        · split
          · exact h.dropReq.sweepXfer.next
          · split
            · exact next (h.of_eq rfl rfl)
            · split
              · exact .ite .notNow h.dropReq.sectorDone.next
              · exact .ite .notNow h.dropReq.xferClose.next
    · exact .notNow

theorem xferPlace {s : State} {x : Xfer} {space addr : Nat} {k : Right} (h : Canon s) :
    Canon (Machine.xferPlace s x space addr k).1 := iteFst h h.xlateNow

theorem xferSend {s : State} {id row k : Nat} (h : Canon s) : Canon (Machine.xferSend s id row k) := by
  unfold Machine.xferSend
  split
  · exact h
  · split
    · exact h
    · dsimp only
      split
      · rename_i heq2
        split
        · exact (of_fst heq2 h.xferPlace).putXfer
        · exact (of_fst heq2 h.xferPlace).xferFail
      · rename_i heq2
        split
        · rename_i heq3
          exact (of_fst heq3 (iteFst ((of_fst heq2 h.xferPlace)) ((of_fst heq2 h.xferPlace).xferPlace))).xferFail
        · rename_i heq3
          exact (of_fst heq3 (iteFst ((of_fst heq2 h.xferPlace)) ((of_fst heq2 h.xferPlace).xferPlace))).of_eq rfl rfl

theorem issueXfer {s : State} {c : Cur} {op : Nat} {r : RecT} (h : Canon s) : Canon (Machine.issueXfer s c op r) := by
  unfold Machine.issueXfer
  extract_lets ctx d? d b sc sc' s1 x x' s2 s3 s4
  have h3 : Canon s3 := emitRes (h.of_eq rfl rfl)
  have h4 : Canon s4 := h3.foldl fun _ _ hu => hu.iter fun _ _ hv => hv.xferSend
  clear_value s3 s4
  refine .ite h.faultCur (.ite h3.xferFail (.ite (h3.of_eq rfl rfl) ?_))
  split
  · exact .ite (tagDone (h4.of_eq rfl rfl)) h4.sweepXfer
  · exact h4

theorem holdEff {s : State} {i : Instr} (h : Canon s) : Canon (Machine.holdEff s i) := h.onBlock

theorem tFire {s : State} {r : RecT} {i : Instr} {bad : Bool} {issue : State → Cur → State} (h : Canon s)
    (hissue : ∀ (u : State) (x1 : Cur), Canon u → Canon (issue u x1)) :
    CanonNext (Machine.tFire s r i bad issue) := by
  unfold Machine.tFire
  dsimp only
  split
  · exact .refused
  · split
    · exact h.faultCur.next
    · split
      · exact next (.ite h.emitNulls h)
      · split
        · exact h.emitNulls.next
        · split
          · exact h.faultCur.next
          · split
            · exact .ite h.faultCur.next h.holdEff.next
            · exact .ite h.waitOn.next ((hissue _ _ h).next)

theorem execXfer {r : RecT} {s : State} (h : Canon s) : CanonNext (Machine.execXfer r s) := h.tFire (fun _ _ hu => hu.issueXfer)

theorem execXfers {r : RecT} {s : State} (h : Canon s) : CanonNext (Machine.execXfers r s) := h.tFire (fun _ _ hu => hu.issueXfer)

theorem execPref {r : RecT} {s : State} (h : Canon s) : CanonNext (Machine.execPref r s) := h.tFire (fun _ _ hu => hu.issueXfer)

theorem sFire {s : State} {r : RecS} {base : List Nat} {bad pz : Bool} {ty : BitVec 4} {act : State → Cur → State} (h : Canon s)
    (hact : ∀ (u : State) (x1 : Cur), Canon u → Canon (act u x1)) :
    CanonNext (Machine.sFire s r base bad pz ty act) := by
  unfold Machine.sFire
  dsimp only
  split
  · exact .refused
  · split
    · exact h.faultCur.next
    · split
      · exact next (.ite h.emitNulls h)
      · split
        · exact h.emitNulls.next
        · exact .ite h.faultCur.next ((hact _ _ h).next)

theorem pgMove {s : State} {r : RecS} {c : Cur} (h : Canon s) : Canon (Machine.pgMove s r c) := h.emitRes

theorem freeXfers {s : State} {p k : Nat} (h : Canon s) : Canon (Machine.freeXfers s p k) := h.of_eq rfl rfl

theorem pgApply {s : State} {p k : Nat} {y : PgSet} (h : Canon s) : Canon (Machine.pgApply s p k y) := .ite h.setPg h.setPg.freeXfers

theorem pgSet {s : State} {p k : Nat} {y : PgSet} (h : Canon s) : Canon (Machine.pgSet s p k y) := .ite h.setPg h.pgApply

theorem execPginit {r : RecS} {s : State} (h : Canon s) :
    CanonNext (Machine.execPginit r s) := h.sFire (fun _ _ hu => .ite hu.faultCur hu.pgSet.pgMove)

theorem execPginitFree {r : RecS} {s : State} (h : Canon s) :
    CanonNext (Machine.execPginitFree r s) := h.sFire (fun _ _ hu => .ite hu.faultCur hu.pgSet.pgMove)

theorem execPgadv {r : RecS} {s : State} (h : Canon s) :
    CanonNext (Machine.execPgadv r s) := h.sFire (fun _ _ hu => .ite hu.faultCur (.ite hu.faultCur hu.setPg.pgMove))

theorem execPgread {r : RecS} {s : State} (h : Canon s) :
    CanonNext (Machine.execPgread r s) := h.sFire (fun _ _ hu => .ite hu.faultCur (.ite hu.faultCur hu.emitRes))

theorem flagLate {s : State} {x : Xfer} (h : Canon s) : Canon (Machine.flagLate s x) := h.setCtx.setScribe.putXfer

theorem execPulse {s : State} (h : Canon s) : CanonNext (Machine.execPulse s) := by
  unfold Machine.execPulse
  dsimp only
  split
  · exact .notNow
  · refine Canon.next ?_
    refine setPanel ?_
    refine iter (foldl (h.foldl (fun _ _ hu => hu.setPg)) (fun _ _ hu => hu.flagLate)) (fun _ _ hu => ?_)
    split
    · exact hu.pgApply
    · exact hu

theorem clearDone {s : State} {p : Nat} {m : Word64} (h : Canon s) : Canon (Machine.clearDone s p m) := h.setScribe

theorem anyStep {r : RecN} {s : State} {c : Cur} (h : Canon s) :
    CanonSome (Machine.anyStep r s c) := .ite .none (some (emitRes (.ite h.clearDone h)))

theorem allStep {r : RecN} {s : State} {c : Cur} (h : Canon s) :
    CanonSome (Machine.allStep r s c) := .ite .none (some (emitRes (.ite h.clearDone h)))

theorem ffStep {r : RecN} {s : State} {c : Cur} (h : Canon s) : CanonSome (Machine.ffStep r s c) := some (emitRes (.ite h.clearDone h))

theorem waitFire {r : RecN} {s : State} {bad : Cur → Bool} {act : State → Cur → Option State} (h : Canon s)
    (hact : ∀ (u : State) (x1 : Cur), Canon u → CanonSome (act u x1)) :
    CanonNext (Machine.waitFire r s bad act) := by
  unfold Machine.waitFire
  refine fireWith h (fun _ _ _ _ _ hu => ?_)
  split
  · exact hu.faultCur
  · exact .ite (getD ((hact _ _ hu)) hu.waitOn) hu.waitOn

theorem execWaitany {r : RecN} {s : State} (h : Canon s) : CanonNext (Machine.execWaitany r s) := h.waitFire (fun _ _ hu => hu.anyStep)

theorem execWaitall {r : RecN} {s : State} (h : Canon s) : CanonNext (Machine.execWaitall r s) := h.waitFire (fun _ _ hu => hu.allStep)

theorem execFfready {r : RecN} {s : State} (h : Canon s) : CanonNext (Machine.execFfready r s) := h.waitFire (fun _ _ hu => hu.ffStep)

theorem waitStep {s : State} {p site : Nat} {m : Match} (h : Canon s) : CanonSome (Machine.waitStep s p site m) := by
  unfold Machine.waitStep
  dsimp only
  split
  · exact h.anyStep
  · exact h.allStep
  · exact h.ffStep
  · exact .none

theorem siteTests {s : State} {p site : Nat} (h : Canon s) : Canon (Machine.siteTests s p site) := by
  unfold Machine.siteTests
  refine foldl h (fun _ _ hu => ?_)
  split
  · split
    · split
      · exact elim hu.setNib.waitStep hu (fun _ hv => settle (.ite hv.noteFired hv))
      · exact hu
    · exact hu
  · exact hu

theorem panelTests {s : State} {p : Nat} (h : Canon s) : Canon (Machine.panelTests s p) := h.foldl (fun _ _ hu => hu.siteTests)

theorem sendScales {s : State} {c : Cur} {xs : List ScaleTok} (h : Canon s) : Canon (Machine.sendScales s c xs) := by
  unfold Machine.sendScales
  split
  · split
    · exact h.onBlock
    · split
      · exact h.of_eq rfl rfl
      · exact .ite h h.faultCur
  · exact h.of_eq rfl rfl

theorem execSclemit {r : RecN} {s : State} (h : Canon s) : CanonNext (Machine.execSclemit r s) := by
  unfold Machine.execSclemit
  dsimp only
  split
  · exact .refused
  · exact .ite h.faultCur.next (.ite h.next h.sendScales.next)

theorem portDrop {s : State} {p cause : Nat} {x : ScaleTok} (h : Canon s) : Canon (Machine.portDrop s p cause x) := h.post

theorem execScalePortConvert {s : State} (h : Canon s) : CanonNext (Machine.execScalePortConvert s) := by
  unfold Machine.execScalePortConvert
  dsimp only
  split
  · exact .notNow
  · split
    · exact h.setPanel.portDrop.next
    · split
      · exact h.setPanel.portDrop.next
      · split
        · exact h.setPanel.portDrop.next
        · exact .ite h.setPanel.sendTok.next .notNow

theorem setArray {s : State} {i : Nat} {a : SysArray} (h : Canon s) : Canon (Machine.setArray s i a) := h.of_eq rfl rfl

theorem sysAck {s : State} {c : Cur} {r : RecN} (h : Canon s) : Canon (Machine.sysAck s c r) := h.emitRes

theorem sysTry {s : State} {c : Cur} {leave : Bool} {r : RecN} (h : Canon s) : Canon (Machine.sysTry s c leave r) := by
  unfold Machine.sysTry
  dsimp only
  split
  · exact h.faultCur
  · split
    · split
      · exact h.faultCur
      · exact .ite h.setPanel (sysAck (h.of_eq rfl rfl))
    · exact .ite h.faultCur (.ite h.setPanel (sysAck (h.of_eq rfl rfl)))

theorem sysSettle {s : State} {p : Nat} (h : Canon s) : Canon (Machine.sysSettle s p) := .ite h (h.setPanel.foldl (fun _ _ hu => hu.sysTry))

theorem sysFire {leave : Bool} {r : RecN} {i : Instr} {s : State} (h : Canon s) : CanonNext (Machine.sysFire leave r i s) := by
  unfold Machine.sysFire
  dsimp only
  split
  · exact .refused
  · split
    · exact h.faultCur.next
    · split
      · exact next (.ite h.emitNulls h)
      · split
        · exact h.emitNulls.next
        · split
          · exact h.faultCur.next
          · exact .ite h.faultCur.next (.ite h.holdEff.next h.sysTry.next)

theorem execSysmodeEnter {r : RecN} {s : State} (h : Canon s) : CanonNext (Machine.execSysmodeEnter r s) := h.sysFire

theorem execSysmodeLeave {r : RecN} {s : State} (h : Canon s) : CanonNext (Machine.execSysmodeLeave r s) := h.sysFire

theorem execWload {r : RecN} {s : State} (h : Canon s) : CanonNext (Machine.execWload r s) := by
  unfold Machine.execWload
  refine fireWith h (fun _ _ _ _ _ hu => ?_)
  dsimp only
  split
  · exact hu.faultCur
  · refine .ite ?_ ?_
    · exact hu.faultCur
    · exact .ite hu.faultCur (.ite hu.waitOn hu.setArray.emitRes)

theorem passColumn {s : State} {i : Nat} {a : SysArray} {n q : Nat} {x : Pass} (h : Canon s) :
    Canon (Machine.passColumn s i a n q x) := .ite h.setArray h.setArray.orFlags

theorem execArrayPassUpdate {s : State} (h : Canon s) : CanonNext (Machine.execArrayPassUpdate s) := by
  unfold Machine.execArrayPassUpdate
  split
  · exact .notNow
  · split
    · exact .notNow
    · exact .ite .notNow h.passColumn.wakePanel.sysSettle.next

theorem withholdPass {s : State} {c : Cur} {i : Nat} (h : Canon s) : Canon (Machine.withholdPass s c i) := by
  unfold Machine.withholdPass
  dsimp only
  split
  · exact h.setArray
  · exact .ite h h.setArray

theorem joinPass {s : State} {c : Cur} {i : Nat} {row : PassRow} {bad : Bool} (h : Canon s) :
    Canon (Machine.joinPass s c i row bad) := h.setArray.foldl (fun _ _ hu => hu.post)

theorem execMma {r : RecN} {s : State} (h : Canon s) : CanonNext (Machine.execMma r s) := by
  unfold Machine.execMma
  dsimp only
  split
  · exact .refused
  · split
    · exact h.faultCur.sysSettle.next
    · split
      · exact h.faultCur.sysSettle.next
      · split
        · exact h.faultCur.withholdPass.sysSettle.next
        · split
          · exact h.faultCur.sysSettle.next
          · split
            · exact h.faultCur.joinPass.sysSettle.next
            · exact .ite h.waitOn.next h.noteMma.joinPass.sysSettle.next

theorem execAccin {r : RecN} {s : State} (h : Canon s) : CanonNext (Machine.execAccin r s) := by
  unfold Machine.execAccin
  refine fireWith h (fun _ _ _ _ _ hu => ?_)
  split
  · exact hu.faultCur
  · exact .ite hu.faultCur hu.setArray

theorem execAccout {r : RecN} {s : State} (h : Canon s) : CanonNext (Machine.execAccout r s) := by
  unfold Machine.execAccout
  refine fireWith h (fun _ _ _ _ _ hu => ?_)
  split
  · exact hu.faultCur
  · dsimp only
    split
    · exact hu.waitOn
    · exact .ite hu.faultCur hu.setArray.sends.wakePanel

theorem engineStore {s : State} {ctx p va : Nat} {bs : List Byte} {poison : Bool} (h : Canon s) :
    Canon (Machine.engineStore s ctx p va bs poison).1 := by
  unfold Machine.engineStore
  split
  · rename_i heq1
    exact of_fst heq1 h.xlateNow
  · rename_i heq1
    exact iteFst ((of_fst heq1 h.xlateNow).writeL2) ((of_fst heq1 h.xlateNow).of_eq rfl rfl)

theorem vwrite {s : State} {ctx p va : Nat} {bs : List Byte} {poison : Bool} (h : Canon s) :
    Canon (Machine.vwrite s ctx p va bs poison).1 := by
  unfold Machine.vwrite
  refine foldl_fst h (fun _ _ hu => ?_)
  split
  · exact hu
  · exact hu.engineStore

theorem objFire {s : State} {r : RecS} {base : List Nat} {mode : Nat} {bad : Bool} {ty : BitVec 4} {act : State → Cur → Nat → State}
    (h : Canon s) (hact : ∀ (u : State) (x1 : Cur) (x2 : ℕ), Canon u → Canon (act u x1 x2)) :
    CanonNext (Machine.objFire s r base mode bad ty act) := h.sFire (fun _ _ hu => .ite hu.faultCur ((hact _ _ _ hu)))

theorem objEmit {s : State} {c : Cur} {r : RecS} {ty : BitVec 4} {v : Val} (h : Canon s) : Canon (Machine.objEmit s c r ty v) := h.emitRes

theorem setRound {s : State} {p w : Nat} {v : Cavity} {n : Nat} (h : Canon s) : Canon (Machine.setRound s p w v n) := h.wellStore

theorem setCav {s : State} {p w k : Nat} {v : Cavity} (h : Canon s) : Canon (Machine.setCav s p w k v) := h.setWell

theorem cavJoin {s : State} {c : Cur} {r : RecS} {w : Nat} {ls : Option (List Lane)} (h : Canon s) :
    Canon (Machine.cavJoin s c r w ls) := by
  unfold Machine.cavJoin
  dsimp only
  refine .ite ?_ ?_
  · exact h.faultCur
  · split
    · exact h.setWell.setRound.objEmit
    · exact .ite h.faultCur (.ite h.waitOn h.setCav.objEmit)

theorem execCavjoinLocal {r : RecS} {s : State} (h : Canon s) :
    CanonNext (Machine.execCavjoinLocal r s) := h.objFire (fun _ _ _ hu => hu.cavJoin)

theorem execCavjoinSegment {r : RecS} {s : State} (h : Canon s) :
    CanonNext (Machine.execCavjoinSegment r s) := h.objFire (fun _ _ _ hu => hu.cavJoin)

theorem execCavjoinLeave {r : RecS} {s : State} (h : Canon s) : CanonNext (Machine.execCavjoinLeave r s) := by
  unfold Machine.execCavjoinLeave
  refine objFire h (fun _ _ _ hu => ?_)
  dsimp only
  split
  · exact hu.faultCur
  · split
    · exact hu.faultCur
    · exact .ite hu.waitOn (objEmit (.ite hu.setWell hu.setCav))

theorem putEntry {s : State} {p w off : Nat} {x : List (Option Lane)} {poison : Bool} (h : Canon s) :
    Canon (Machine.putEntry s p w off x poison) := h.wellStore

theorem execCav {r : RecS} {s : State} (h : Canon s) : CanonNext (Machine.execCav r s) := by
  unfold Machine.execCav
  dsimp only
  split
  · exact .refused
  · split
    · exact h.faultCur.next
    · split
      · exact next (.ite h.emitNulls h)
      · split
        · exact h.faultCur.next
        · split
          · exact h.faultCur.next
          · split
            · exact h.faultCur.next
            · exact .ite h.waitOn.next h.setCav.putEntry.next

theorem cavStall {s : State} {p w k : Nat} {v : Cavity} {cause addr : Nat} (h : Canon s) :
    Canon (Machine.cavStall s p w k v cause addr) := h.post.setCav

theorem sendCarry {s : State} {p w : Nat} {v : Cavity} {up : Bool} {pa round : Nat} {x : List (Option Lane) × Bool} (h : Canon s) :
    Canon (Machine.sendCarry s p w v up pa round x) := h.of_eq rfl rfl

theorem putCarry {s : State} {p w : Nat} {v : Cavity} {area : Nat} {up : Bool} {round : Nat} {x : List (Option Lane) × Bool} (h : Canon s) :
    Canon (Machine.putCarry s p w v area up round x).1 := by
  unfold Machine.putCarry
  dsimp only
  split
  · rename_i heq1
    exact of_fst heq1 h.xlateNow
  · rename_i heq1
    split
    · exact (of_fst heq1 h.xlateNow).sendCarry
    · split
      · rename_i heq2
        exact of_fst heq2 ((of_fst heq1 h.xlateNow).vwrite)
      · rename_i heq2
        split
        · rename_i heq3
          exact of_fst heq3 ((of_fst heq2 ((of_fst heq1 h.xlateNow).vwrite)).vwrite)
        · rename_i heq3
          exact (of_fst heq3 ((of_fst heq2 ((of_fst heq1 h.xlateNow).vwrite)).vwrite)).vwrite

theorem fwdHalf {s : State} {p w k : Nat} {v : Cavity} {pc : List (Option Lane) × Bool} (h : Canon s) :
    Canon (Machine.fwdHalf s p w k v pc) := by
  unfold Machine.fwdHalf
  extract_lets r round s1 v'
  have h1 : Canon s1 := h.foldl fun _ _ hu => hu.putEntry
  clear_value s1
  refine .ite h1.setCav ?_
  split
  · next heq => exact (of_fst heq h1.putCarry).setCav
  · next heq => exact (of_fst heq h1.putCarry).cavStall

theorem cavResult {s : State} {p : Nat} {v : Cavity} {y : Contrib} {lanes : List Lane} {poison : Bool} {f : BitVec 5} (h : Canon s) :
    Canon (Machine.cavResult s p v y lanes poison f) := by
  unfold Machine.cavResult
  dsimp only
  split
  · exact .ite h h.orFlags
  · exact .ite h.faultCur (send (.ite h h.orFlags))

theorem bwdHalf {s : State} {p w k : Nat} {v : Cavity} {sc : List (Option Lane) × Bool} (h : Canon s) :
    Canon (Machine.bwdHalf s p w k v sc) := by
  unfold Machine.bwdHalf
  dsimp only
  split
  · rename_i heq1
    exact (of_fst heq1 (iteFst (putCarry (h.foldl (fun _ _ hu => hu.putEntry))) (h.foldl (fun _ _ hu => hu.putEntry)))).cavStall
  · rename_i heq1
    refine wakePanel ?_
    refine setRound ?_
    refine setCav ?_
    refine foldl ((of_fst heq1 (iteFst (putCarry (h.foldl (fun _ _ hu => hu.putEntry))) (h.foldl (fun _ _ hu => hu.putEntry))))) (fun _ _ hu => ?_)
    split
    · exact hu
    · exact hu.cavResult

theorem execCavityRound {s : State} (h : Canon s) : CanonNext (Machine.execCavityRound s) := by
  unfold Machine.execCavityRound
  dsimp only
  split
  · exact .notNow
  · split
    · exact .notNow
    · split
      · split
        · exact h.fwdHalf.next
        · exact .notNow
      · split
        · exact h.bwdHalf.next
        · exact .notNow

theorem readCarry {s : State} {p w : Nat} {v : Cavity} {at_ : Nat} (h : Canon s) : Canon (Machine.readCarry s p w v at_).1 := by
  unfold Machine.readCarry
  split
  · rename_i heq1
    exact of_fst heq1 h.vread
  · rename_i heq1
    split
    · exact of_fst heq1 h.vread
    · split
      · rename_i heq2
        exact of_fst heq2 ((of_fst heq1 h.vread).vread)
      · rename_i heq2
        exact of_fst heq2 ((of_fst heq1 h.vread).vread)

theorem askCarry {s : State} {p w : Nat} {v : Cavity} {up : Bool} {pa : Nat} {secs : List Nat} (h : Canon s) :
    Canon (Machine.askCarry s p w v up pa secs) := h.of_eq rfl rfl

theorem pollRemote {s : State} {p w k : Nat} {v : Cavity} {up : Bool} {pa : Nat} (h : Canon s) :
    CanonSome (Machine.pollRemote s p w k v up pa) := by
  unfold Machine.pollRemote
  dsimp only
  split
  · exact .none
  · split
    · exact .ite .none h.setCav.askCarry.some
    · split
      · exact h.setCav.some
      · split
        · exact h.setCav.some
        · exact h.askCarry.some

theorem execCavityCarryPoll {s : State} (h : Canon s) : CanonNext (Machine.execCavityCarryPoll s) := by
  unfold Machine.execCavityCarryPoll
  dsimp only
  split
  · exact .notNow
  · refine .ite ?_ ?_
    · exact .notNow
    · split
      · rename_i heq2
        exact .ite .notNow ((of_fst heq2 h.xlateNow).cavStall.next)
      · rename_i heq2
        split
        · split
          · rename_i heq3
            exact (of_some heq3 ((of_fst heq2 h.xlateNow).pollRemote)).next
          · exact .notNow
        · split
          · exact .notNow
          · split
            · rename_i heq3
              exact (of_fst heq3 ((of_fst heq2 h.xlateNow).readCarry)).cavStall.next
            · rename_i heq3
              exact (of_fst heq3 ((of_fst heq2 h.xlateNow).readCarry)).setCav.next
            · rename_i heq3
              exact (of_fst heq3 ((of_fst heq2 h.xlateNow).readCarry)).setCav.next

theorem setMember {s : State} {p w m : Nat} {x : Member} {poison : Bool} (h : Canon s) :
    Canon (Machine.setMember s p w m x poison) := h.wellStore

theorem setHeader {s : State} {p w sidx desc : Nat} (h : Canon s) : Canon (Machine.setHeader s p w sidx desc) := h.wellStore

theorem execPacesetInit {r : RecS} {s : State} (h : Canon s) : CanonNext (Machine.execPacesetInit r s) := by
  unfold Machine.execPacesetInit
  refine objFire h (fun _ _ _ hu => ?_)
  split
  · exact hu.faultCur
  · exact objEmit (wakePanel (hu.wellStore.iter (fun _ _ hv => hv.setMember)))

theorem execPacesetLoad {r : RecS} {s : State} (h : Canon s) :
    CanonNext (Machine.execPacesetLoad r s) := h.objFire (fun _ _ _ hu => .ite hu.faultCur (.ite hu.waitOn hu.setMember.objEmit))

theorem execPacesetUpdate {r : RecS} {s : State} (h : Canon s) : CanonNext (Machine.execPacesetUpdate r s) := by
  unfold Machine.execPacesetUpdate
  refine objFire h (fun _ _ _ hu => ?_)
  dsimp only
  split
  · exact hu.faultCur
  · exact objEmit (wakePanel (.ite hu.setMember hu.setMember.curFlags))

theorem execSweep {r : RecS} {s : State} (h : Canon s) : CanonNext (Machine.execSweep r s) := by
  unfold Machine.execSweep
  refine objFire h (fun _ _ _ hu => ?_)
  dsimp only
  split
  · exact hu.faultCur
  · split
    · exact hu.waitOn
    · split
      · exact hu.faultCur
      · split
        · exact objEmit (hu.setHeader.foldl (fun _ _ hv => hv.setMember))
        · exact startGen (hu.setHeader.foldl (fun _ _ hv => hv.setMember))

theorem execPaceq {r : RecS} {s : State} (h : Canon s) :
    CanonNext (Machine.execPaceq r s) := h.objFire (fun _ _ _ hu => .ite hu.faultCur hu.objEmit)

end Canon
end Sys2Proof.Proofs
end


section
/-!
PROOF. The canonical form through rule tables, objects, groups, kernels and barriers (15 to 17, 19).
-/
namespace Sys2Proof.Proofs
open Sys2Proof.Machine Sys2Proof.Safety Sys2Proof.Claims

namespace Canon

theorem sActP {pz : Bool} {s : State} {r : RecS} {i : Instr} {base : List Nat} {bad : Bool} {ty : BitVec 4} {chk : State → Cur → Option Nat}
    {act : State → Cur → State} (h : Canon s) (hact : ∀ (u : State) (x1 : Cur), Canon u → Canon (act u x1)) :
    CanonNext (Machine.sActP pz s r i base bad ty chk act) := by
  unfold Machine.sActP
  split
  · exact .refused
  · refine sFire h (fun _ _ hu => ?_)
    split
    · exact hu.faultCur
    · exact .ite hu.holdEff ((hact _ _ hu))

theorem sAct {s : State} {r : RecS} {i : Instr} {base : List Nat} {bad : Bool} {ty : BitVec 4} {chk : State → Cur → Option Nat}
    {act : State → Cur → State} (h : Canon s) (hact : ∀ (u : State) (x1 : Cur), Canon u → Canon (act u x1)) :
    CanonNext (Machine.sAct s r i base bad ty chk act) := h.sActP (fun _ _ hu => (hact _ _ hu))

theorem emit0 {s : State} {c : Cur} {r : RecS} {v : Val} (h : Canon s) : Canon (Machine.emit0 s c r v) := h.emitRes

theorem emit1 {s : State} {c : Cur} {r : RecS} {v : Val} (h : Canon s) : Canon (Machine.emit1 s c r v) := h.emitRes

theorem arrivalFate {s : State} {a : Arrival} {taken : Bool} (h : Canon s) : Canon (Machine.arrivalFate s a taken) := by
  unfold Machine.arrivalFate
  split
  · exact h
  · split
    · split
      · exact h
      · exact h.setLink
    · split
      · exact tagDone (h.of_eq rfl rfl)
      · exact h

theorem ruleMiss {s : State} {a : Arrival} (h : Canon s) : Canon (Machine.ruleMiss s a) := h.postAt.arrivalFate

theorem ruleStale {s : State} {a : Arrival} (h : Canon s) : Canon (Machine.ruleStale s a) := by
  unfold Machine.ruleStale
  dsimp only
  refine arrivalFate ?_
  split
  · exact h.setLink
  · exact h

theorem ruleTake {s : State} {a : Arrival} (h : Canon s) : CanonSome (Machine.ruleTake s a) := by
  unfold Machine.ruleTake
  dsimp only
  split
  · exact h.ruleMiss.some
  · split
    · exact h.ruleMiss.some
    · exact .ite .none h.setTable.arrivalFate.some

theorem ruleHold {s : State} {a : Arrival} (h : Canon s) : CanonSome (Machine.ruleHold s a) := .ite h.setEngine.arrivalFate.some .none

theorem ruleMeet {s : State} {a : Arrival} (h : Canon s) : CanonSome (Machine.ruleMeet s a) := by
  unfold Machine.ruleMeet
  dsimp only
  split
  · exact h.ruleHold
  · exact .ite h.ruleTake (.ite h.ruleHold h.ruleStale.some)

theorem execRuleArrival {s : State} (h : Canon s) : CanonNext (Machine.execRuleArrival s) := by
  unfold Machine.execRuleArrival
  split
  · exact .notNow
  · split
    · exact .notNow
    · split
      · rename_i heq2
        exact (of_some heq2 (ruleMeet (h.of_eq rfl rfl))).next
      · exact .notNow

theorem roundDone {s : State} {p t : Nat} (h : Canon s) :
    Canon (Machine.roundDone s p t) := setTable (foldl (h.of_eq rfl rfl) (fun _ _ hu => hu.setLink))

theorem armNow {s : State} {c : Cur} {r : RecS} (h : Canon s) : Canon (Machine.armNow s c r) := by
  unfold Machine.armNow
  dsimp only
  split
  · exact roundDone (emit0 (setTable (h.of_eq rfl rfl)))
  · exact emit0 (setTable (h.of_eq rfl rfl))

theorem ruleWrite {s : State} {c : Cur} {r : RecS} (h : Canon s) : Canon (Machine.ruleWrite s c r) := h.setTable.emit0

theorem ruleTry {s : State} {x : HeldEff} (h : Canon s) : CanonSome (Machine.ruleTry s x) := by
  unfold Machine.ruleTry
  split
  · exact .ite .none h.ruleWrite.some
  · exact .ite h.armNow.some .none
  · exact h.some

theorem ruleSettle {p t n : Nat} {s : State} (h : Canon s) : Canon (Machine.ruleSettle p t n s) := by
  induction n generalizing s with
  | zero => exact h
  | succ n ih =>
    unfold Machine.ruleSettle
    split
    · exact h
    · split
      · next heq => exact ih (of_some heq h.setTable.ruleTry)
      · exact h

theorem ruleQueue {s : State} {c : Cur} {r : RecS} {i : Instr} (h : Canon s) : Canon (Machine.ruleQueue s c r i) := h.setTable.ruleSettle

theorem ruleDiscard {s : State} {p t : Nat} {held : Bool} (h : Canon s) :
    Canon (Machine.ruleDiscard s p t held) := setTable (.ite h.setEngine h)

theorem execRulesetWrite {r : RecS} {s : State} (h : Canon s) :
    CanonNext (Machine.execRulesetWrite r s) := h.sAct (fun _ _ hu => hu.ruleQueue)

theorem execRulesetClear {r : RecS} {s : State} (h : Canon s) :
    CanonNext (Machine.execRulesetClear r s) := h.sAct (fun _ _ hu => hu.ruleDiscard.setTable.emit0.ruleSettle)

theorem execRulearmArm {r : RecS} {s : State} (h : Canon s) : CanonNext (Machine.execRulearmArm r s) := h.sAct (fun _ _ hu => hu.ruleQueue)

theorem execRulearmDisarm {r : RecS} {s : State} (h : Canon s) :
    CanonNext (Machine.execRulearmDisarm r s) := h.sAct (fun _ _ hu => hu.ruleDiscard.emit0.ruleSettle)

theorem execRuleEmit {s : State} (h : Canon s) : CanonNext (Machine.execRuleEmit s) := by
  unfold Machine.execRuleEmit
  dsimp only
  split
  · exact .notNow
  · split
    · exact .notNow
    · split
      · exact .notNow
      · refine Canon.next ?_
        refine .ite ?_ ?_
        · refine ruleSettle ?_
          refine roundDone ?_
          split
          · exact sendTok (.ite h.setTable h.setTable.orFlags)
          · exact postTok (.ite h.setTable h.setTable.orFlags)
        · split
          · exact sendTok (.ite h.setTable h.setTable.orFlags)
          · exact postTok (.ite h.setTable h.setTable.orFlags)

theorem execDrainFenceComplete {s : State} (h : Canon s) : CanonNext (Machine.execDrainFenceComplete s) := by
  unfold Machine.execDrainFenceComplete
  dsimp only
  split
  · exact .notNow
  · split
    · exact .notNow
    · exact h.setTable.emit1.ruleSettle.next

theorem execEauCredit {s : State} (h : Canon s) : CanonNext (Machine.execEauCredit s) := by
  unfold Machine.execEauCredit
  split
  · exact .notNow
  · split
    · exact .notNow
    · dsimp only
      split
      · exact next (discardTok (h.of_eq rfl rfl))
      · split
        · exact next (h.of_eq rfl rfl)
        · split
          · exact next (discardTok (h.of_eq rfl rfl))
          · exact next (setTable (h.of_eq rfl rfl))

theorem issueColl {s : State} {c : Cur} {r : RecT} (h : Canon s) : Canon (Machine.issueColl s c r) := by
  unfold Machine.issueColl
  dsimp only
  split
  · exact h.faultCur
  · split
    · exact updReqs (emitRes (h.of_eq rfl rfl))
    · split
      · exact updReqs (emitRes (h.of_eq rfl rfl))
      · exact xferFail (emitRes (h.of_eq rfl rfl))

theorem execColl {r : RecT} {s : State} (h : Canon s) : CanonNext (Machine.execColl r s) := by
  unfold Machine.execColl
  dsimp only
  split
  · exact .refused
  · split
    · exact h.faultCur.next
    · split
      · exact next (.ite h.emitNulls h)
      · split
        · exact h.emitNulls.next
        · split
          · exact .ite h.faultCur.next h.holdEff.next
          · exact .ite h.waitOn.next h.issueColl.next

theorem readObj {s : State} {ctx p va n : Nat} (h : Canon s) : Canon (Machine.readObj s ctx p va n).1 := by
  unfold Machine.readObj
  split
  · rename_i heq1
    exact of_fst heq1 h.vread
  · rename_i heq1
    exact of_fst heq1 h.vread

theorem readObject {s : State} {ctx p va : Nat} (h : Canon s) : Canon (Machine.readObject s ctx p va).1 := by
  unfold Machine.readObject
  split
  · rename_i heq1
    exact of_fst heq1 h.readObj
  · rename_i heq1
    split
    · exact of_fst heq1 h.readObj
    · split
      · exact of_fst heq1 h.readObj
      · split
        · rename_i heq2
          exact of_fst heq2 ((of_fst heq1 h.readObj).readObj)
        · rename_i heq2
          dsimp only
          split
          · exact of_fst heq2 ((of_fst heq1 h.readObj).readObj)
          · split
            · rename_i heq3
              exact of_fst heq3 ((of_fst heq2 ((of_fst heq1 h.readObj).readObj)).readObj)
            · rename_i heq3
              exact iteFst (of_fst heq3 (of_fst heq2 (of_fst heq1 h.readObj).readObj).readObj) (of_fst heq3 (of_fst heq2 (of_fst heq1 h.readObj).readObj).readObj)

theorem stageStart {s : State} {p plane ctx va kidx kp : Nat} {dy dx : Int} {assigned : Nat → Nat} (h : Canon s) :
    Canon (Machine.stageStart s p plane ctx va kidx kp dy dx assigned) := by
  unfold Machine.stageStart
  dsimp only
  split
  · exact h.setPlane
  · split
    · rename_i heq1
      exact (of_fst heq1 h.readObject).setPlane
    · rename_i heq1
      split
      · exact (of_fst heq1 h.readObject).setPlane
      · exact (of_fst heq1 h.readObject).setPlane

theorem loadStores {s : State} {p plane : Nat} (h : Canon s) :
    Canon (Machine.loadStores s p plane) := setScribe (h.iter (fun _ _ hu => .ite hu.setNib hu))

theorem openGroup {s : State} {part ctx : Nat} {cs : List Nat} {gid grant rlev : Nat} {rtag : Word64} {rpanel rplane : Nat} {rdest : BitVec 16}
    {launch : Option Nat} (h : Canon s) :
    Canon (Machine.openGroup s part ctx cs gid grant rlev rtag rpanel rplane rdest launch) := h.setGroup.iter (fun _ _ hu => hu.setColour)

theorem clearPack {s : State} {part c : Nat} (h : Canon s) : Canon (Machine.clearPack s part c) := h.of_eq rfl rfl

theorem spawnNulls {s : State} {r : RecN} (h : Canon s) : Canon (Machine.spawnNulls s r) := h.iter (fun _ _ hu => hu.send)

theorem execSpawn {r : RecN} {s : State} (h : Canon s) : CanonNext (Machine.execSpawn r s) := by
  unfold Machine.execSpawn
  dsimp only
  refine .ite ?_ ?_
  · exact .refused
  · refine .ite ?_ ?_
    · exact h.faultCur.next
    · exact .ite (next (.ite h.spawnNulls h)) h.askPoint.next

theorem setGrant {s : State} {part gid v : Nat} (h : Canon s) :
    Canon (Machine.setGrant s part gid v) := h.foldl (fun _ _ hu => hu.setColour)

theorem grantServe {r : RecN} {c : Cur} {s : State} (h : Canon s) : Canon (Machine.grantServe r c s) := by
  unfold Machine.grantServe
  dsimp only
  split
  · exact h.faultCur
  · exact .ite h.faultCur h.setGrant.emitRes

theorem execCallocGrant {r : RecN} {s : State} (h : Canon s) :
    CanonNext (Machine.execCallocGrant r s) := h.fireWith (fun _ _ _ _ _ hu => hu.askPoint)

theorem entryServe {r : RecN} {c : Cur} {s : State} (h : Canon s) : Canon (Machine.entryServe r c s) := .ite h.faultCur h.emitRes

theorem execCallocEntry {r : RecN} {s : State} (h : Canon s) :
    CanonNext (Machine.execCallocEntry r s) := h.fireWith (fun _ _ _ _ _ hu => hu.askPoint)

theorem retAct {s : State} {c : Cur} {isNull : Bool} (h : Canon s) :
    Canon (Machine.retAct s c isNull) := clearPack (setGstate (setColour (.ite h (h.of_eq rfl rfl))))

theorem retServe {r : RecN} {c : Cur} {s : State} (h : Canon s) : Canon (Machine.retServe r c s) := .ite h.faultCur h.retAct

theorem execRet {r : RecN} {s : State} (h : Canon s) : CanonNext (Machine.execRet r s) := by
  unfold Machine.execRet
  dsimp only
  split
  · exact .refused
  · exact .ite h.faultCur.next (.ite h.holdEff.next h.askPoint.next)

theorem execReturnTokenDelivery {s : State} (h : Canon s) : CanonNext (Machine.execReturnTokenDelivery s) := by
  unfold Machine.execReturnTokenDelivery
  split
  · exact .notNow
  · exact .ite .notNow (next (h.of_eq rfl rfl))

theorem drawSpawn {s : State} {d : Draw} {cs : List Nat} {c : Cur} {r : RecN} (h : Canon s) :
    Canon (Machine.drawSpawn s d cs c r) := startGen (openGroup (h.of_eq rfl rfl))

theorem execGeneratorEmit {s : State} (h : Canon s) : CanonNext (Machine.execGeneratorEmit s) := by
  unfold Machine.execGeneratorEmit
  dsimp only
  split
  · exact .notNow
  · exact .ite .notNow h.setNib.sendAll.settle.next

theorem execGroupIdle {s : State} (h : Canon s) : CanonNext (Machine.execGroupIdle s) := by
  unfold Machine.execGroupIdle
  dsimp only
  split
  · exact .notNow
  · exact .ite h.setGstate.next .notNow

theorem freeEntries {s : State} {ctx colour : Nat} (h : Canon s) : Canon (Machine.freeEntries s ctx colour) := h.of_eq rfl rfl

theorem retireGroup {s : State} {part gid : Nat} (h : Canon s) : Canon (Machine.retireGroup s part gid) := by
  unfold Machine.retireGroup
  dsimp only
  split
  · exact of_eq (h.foldl (fun _ _ hu => hu.clearPack.setColour)) rfl rfl
  · exact orFlags (updGroups (h.foldl (fun _ _ hu => hu.clearPack.setColour)))

theorem execColourDrain {s : State} (h : Canon s) : CanonNext (Machine.execColourDrain s) := by
  unfold Machine.execColourDrain
  dsimp only
  split
  · exact .notNow
  · refine Canon.next ?_
    split
    · exact h.freeEntries.setColour.setGroup.retireGroup
    · exact h.freeEntries.setColour.setGroup

theorem physStore {s : State} {ctx pa : Nat} {bs : List Byte} (h : Canon s) :
    Canon (Machine.physStore s ctx pa bs) := h.of_cacheKeeps (CacheKeeps.refl _).physStore

theorem planeEmit {s : State} {c : Cur} {r : RecS} {status p k : Nat} (h : Canon s) :
    Canon (Machine.planeEmit s c r status p k) := h.emitRes

theorem planeAnswer {s : State} {p k : Nat} {what : Nat → Bool} {status : Nat} (h : Canon s) :
    Canon (Machine.planeAnswer s p k what status) := h.setPlane.foldl (fun _ _ hu => hu.planeEmit)

theorem stageAct {s : State} {c : Cur} {r : RecS} (h : Canon s) : Canon (Machine.stageAct s c r) := .ite h.planeEmit h.stageStart.setPlane

theorem execKstage {r : RecS} {s : State} (h : Canon s) : CanonNext (Machine.execKstage r s) := h.sAct (fun _ _ hu => hu.stageAct)

theorem flipTake {s : State} {p k : Nat} (h : Canon s) : Canon (Machine.flipTake s p k) := by
  unfold Machine.flipTake
  dsimp only
  refine setPanel ?_
  refine setPlane ?_
  split
  · split
    · exact foldl (h.foldl (fun _ _ hu => .ite hu.setWell hu.setWell)) (fun _ _ hu => hu.setTable)
    · exact setPlane (foldl (h.foldl (fun _ _ hu => .ite hu.setWell hu.setWell)) (fun _ _ hu => hu.setTable))
  · exact foldl (h.foldl (fun _ _ hu => .ite hu.setWell hu.setWell)) (fun _ _ hu => hu.setTable)

theorem flipFail {s : State} {p k code : Nat} (h : Canon s) : Canon (Machine.flipFail s p k code) := h.setPlane

theorem flipNow {s : State} {p k : Nat} (h : Canon s) :
    Canon (Machine.flipNow s p k).1 := iteFst h (iteFst h.flipFail (iteFst h.flipFail h.flipTake))

theorem flipAct {s : State} {c : Cur} {r : RecS} (h : Canon s) : Canon (Machine.flipAct s c r) := .ite h.planeEmit h.setPanel

theorem execKflip {r : RecS} {s : State} (h : Canon s) : CanonNext (Machine.execKflip r s) := h.sAct (fun _ _ hu => hu.flipAct)

theorem planeIdle {s : State} {p k : Nat} (h : Canon s) : Canon (Machine.planeIdle s p k) := by
  unfold Machine.planeIdle
  exact planeAnswer (h.of_eq rfl rfl)

theorem planePurge {s : State} {p k : Nat} (h : Canon s) : Canon (Machine.planePurge s p k) := h.of_eq rfl rfl

theorem planeDrain {s : State} {p k : Nat} (h : Canon s) : Canon (Machine.planeDrain s p k) := .ite (.ite h.setPlane.setPanel h.setPlane) h

theorem drainAct {s : State} {c : Cur} {r : RecS} (h : Canon s) : Canon (Machine.drainAct s c r) := by
  unfold Machine.drainAct
  dsimp only
  split
  · exact h.planeDrain.setPlane
  · exact h.planeDrain.setPlane
  · exact h.planeEmit
  · exact h.planeEmit
  · exact h.planeEmit
  · exact h.planeEmit
  · exact h.planeEmit

theorem purgeAct {s : State} {c : Cur} {r : RecS} (h : Canon s) : Canon (Machine.purgeAct s c r) := .ite h.setPlane h.planeEmit

theorem execKdrain {r : RecS} {s : State} (h : Canon s) : CanonNext (Machine.execKdrain r s) := h.sAct (fun _ _ hu => hu.drainAct)

theorem execKdrainPurge {r : RecS} {s : State} (h : Canon s) : CanonNext (Machine.execKdrainPurge r s) := h.sAct (fun _ _ hu => hu.purgeAct)

theorem execKdrainPoll {r : RecS} {s : State} (h : Canon s) : CanonNext (Machine.execKdrainPoll r s) := h.sAct (fun _ _ hu => hu.planeEmit)

theorem execPlaneEmpty {s : State} (h : Canon s) : CanonNext (Machine.execPlaneEmpty s) := by
  unfold Machine.execPlaneEmpty
  dsimp only
  split
  · exact .notNow
  · split
    · exact h.planeIdle.next
    · exact .ite h.planePurge.planeIdle.next .notNow

theorem execSnap {r : RecS} {s : State} (h : Canon s) :
    CanonNext (Machine.execSnap r s) := h.sAct (fun _ _ hu => .ite hu.setPanel hu.openSnaps)

theorem forwardMarker {s : State} {p site : Nat} {t : Token} {w : Rec96} (h : Canon s) :
    Canon (Machine.forwardMarker s p site t w) := h.setNib.foldl (fun _ _ hu => hu.sendTok)

theorem countMarker {s : State} {p id : Nat} (h : Canon s) : Canon (Machine.countMarker s p id) := by
  unfold Machine.countMarker
  split
  · exact h
  · exact .ite h (.ite h.setPanel h.setPanel.snapEmit.openSnaps)

theorem joinMarker {s : State} {p site : Nat} {t : Token} {w : Rec96} (h : Canon s) :
    Canon (Machine.joinMarker s p site t w) := .ite h.setNib.forwardMarker.releaseHeld h.setNib

theorem execMarkerArrival {s : State} (h : Canon s) : CanonNext (Machine.execMarkerArrival s) := by
  unfold Machine.execMarkerArrival
  split
  · exact .notNow
  · split
    · exact .notNow
    · dsimp only
      split
      · exact next (discardTok (noteTook (h.of_eq rfl rfl)))
      · split
        · exact next (noteTook (h.of_eq rfl rfl))
        · split
          · exact next (postTok (noteTook (h.of_eq rfl rfl)))
          · split
            · exact next (discardTok (noteTook (h.of_eq rfl rfl)))
            · split
              · exact next (countMarker (noteTook (h.of_eq rfl rfl)))
              · split
                · split
                  · exact .notNow
                  · exact next (forwardMarker (noteTook (h.of_eq rfl rfl)))
                · split
                  · exact .notNow
                  · exact next (joinMarker (noteTook (h.of_eq rfl rfl)))

theorem execSnapTimeout {s : State} (h : Canon s) : CanonNext (Machine.execSnapTimeout s) := by
  unfold Machine.execSnapTimeout
  dsimp only
  split
  · exact .notNow
  · split
    · exact .notNow
    · exact .ite .notNow h.snapAbort.next

theorem setLaunch {s : State} {x : Launch} (h : Canon s) : Canon (Machine.setLaunch s x) := h.of_eq rfl rfl

theorem launchFail {s : State} {x : Launch} {status : Nat} (h : Canon s) :
    Canon (Machine.launchFail s x status) := setLaunch (updDraws (.ite h (updGroups (h.foldl (fun _ _ hu => hu.setColour)))))

theorem launchStage {s : State} {x : Launch} (h : Canon s) : Canon (Machine.launchStage s x) := h.iter (fun _ _ hu => .ite hu hu.stageStart)

theorem launchLog {s : State} {x : Launch} (h : Canon s) : Canon (Machine.launchLog s x) := .ite h (.ite h.physStore.setQueue h.setQueue)

theorem launchEnter {s : State} {x : Launch} {i : Nat} (h : Canon s) : Canon (Machine.launchEnter s x i) := h.setScribe

theorem launchGo {s : State} {id : Nat} (h : Canon s) : Canon (Machine.launchGo s id) := by
  unfold Machine.launchGo
  split
  · exact h
  · extract_lets pl
    refine .ite h (.ite h.launchFail (.ite (.ite h (h.setLaunch.launchLog.iter fun _ _ hu => hu.launchEnter)) ?_))
    exact h.foldl fun _ _ hu => .ite hu.setPanel hu

theorem launchesGo {s : State} (h : Canon s) : Canon (Machine.launchesGo s) := h.foldl (fun _ _ hu => hu.launchGo)

theorem execStageComplete {s : State} (h : Canon s) : CanonNext (Machine.execStageComplete s) := by
  unfold Machine.execStageComplete
  dsimp only
  split
  · exact .notNow
  · split
    · exact h.loadStores.setPlane.planeAnswer.launchesGo.next
    · exact h.setPlane.planeAnswer.launchesGo.next

theorem flushFlip {s : State} {p : Nat} (h : Canon s) : Canon (Machine.flushFlip s p) := by
  unfold Machine.flushFlip
  extract_lets s1 sc s2 s3
  have h1 : Canon s1 := h.iter fun _ _ hu => hu.ruleSettle
  have h3 : Canon s3 := h1.setScribe.foldl fun _ _ hu => hu.sendLate
  clear_value s3
  split
  · exact h3.of_eq rfl rfl
  · exact h3.foldl fun _ _ hu => hu.portDrop

theorem execFlipTakesEffect {s : State} (h : Canon s) : CanonNext (Machine.execFlipTakesEffect s) := by
  unfold Machine.execFlipTakesEffect
  dsimp only
  split
  · exact .notNow
  · refine Canon.next ?_
    refine launchesGo ?_
    refine flushFlip ?_
    split
    · exact h.setPanel.flipNow.planeEmit
    · exact .ite h.setPanel.flipNow.updLaunches h.setPanel.flipNow

theorem execColourDraw {s : State} (h : Canon s) : CanonNext (Machine.execColourDraw s) := by
  unfold Machine.execColourDraw
  split
  · exact .notNow
  · dsimp only
    split
    · exact next (drawSpawn (h.of_eq rfl rfl))
    · split
      · exact next (h.of_eq rfl rfl)
      · exact next (launchGo (launchStage (setLaunch (openGroup (h.of_eq rfl rfl)))))
    · exact next (h.of_eq rfl rfl)

theorem bAct {s : State} {r : RecS} {i : Instr} {base : List Nat} {bad : Bool} {ty : BitVec 4} {chk : State → Cur → Option Nat}
    {act : State → Cur → State} (h : Canon s) (hact : ∀ (u : State) (x1 : Cur), Canon u → Canon (act u x1)) :
    CanonNext (Machine.bAct s r i base bad ty chk act) := by
  unfold Machine.bAct
  refine sFire h (fun _ _ hu => ?_)
  split
  · exact hu.faultCur
  · exact .ite hu.holdEff ((hact _ _ hu))

theorem askBar {s : State} {r : RecS} {i : Instr} {c : Cur} (h : Canon s) : Canon (Machine.askBar s r i c) := h.askPoint

theorem withBarrier {s : State} {r : RecS} {c : Cur} {member : Bool} {act : State → Nat → Nat → Barrier → State} (h : Canon s)
    (hact : ∀ (u : State) (x1 x2 : ℕ) (x3 : Barrier), Canon u → Canon (act u x1 x2 x3)) :
    Canon (Machine.withBarrier s r c member act) := by
  unfold Machine.withBarrier
  split
  · exact h.faultCur
  · exact hact _ _ _ _ h

theorem barNotify {s : State} {die idx : Nat} (h : Canon s) : Canon (Machine.barNotify s die idx) := h.of_eq rfl rfl

theorem barSettle {s : State} {die idx : Nat} {b : Barrier} (h : Canon s) :
    Canon (Machine.barSettle s die idx b) := .ite h.setBarrier.barNotify h.setBarrier

theorem arriveAct {s : State} {r : RecS} {c : Cur} {e : Bool} (h : Canon s) : Canon (Machine.arriveAct s r c e) := by
  unfold Machine.arriveAct
  refine withBarrier h (fun _ _ _ _ hu => ?_)
  split
  · exact hu.faultCur
  · exact .ite hu.emitRes.setBarrier hu.emitRes.barSettle

theorem binitServe {r : RecS} {c : Cur} {s : State} (h : Canon s) : Canon (Machine.binitServe r c s) := .ite h.faultCur h.setBarrier.emitRes

theorem execBinit {r : RecS} {s : State} (h : Canon s) : CanonNext (Machine.execBinit r s) := h.bAct (fun _ _ hu => hu.askBar)

theorem freeWaiters {s : State} {die idx : Nat} (h : Canon s) :
    Canon (Machine.freeWaiters s die idx) := foldl (h.of_eq rfl rfl) (fun _ _ hu => hu.faultCur)

theorem bfreeServe {r : RecS} {c : Cur} {s : State} (h : Canon s) :
    Canon (Machine.bfreeServe r c s) := h.withBarrier (fun _ _ _ _ hu => .ite hu.setBarrier.freeWaiters.emitRes hu.faultCur)

theorem execBinitFree {r : RecS} {s : State} (h : Canon s) : CanonNext (Machine.execBinitFree r s) := h.bAct (fun _ _ hu => hu.askBar)

theorem execBarrive {r : RecS} {s : State} (h : Canon s) : CanonNext (Machine.execBarrive r s) := h.bAct (fun _ _ hu => hu.askBar)

theorem execBarriveTag {r : RecS} {s : State} (h : Canon s) : CanonNext (Machine.execBarriveTag r s) := h.bAct (fun _ _ hu => hu.askBar)

theorem bwaitServe {r : RecS} {c : Cur} {s : State} (h : Canon s) :
    Canon (Machine.bwaitServe r c s) := h.withBarrier (fun _ _ _ _ hu => .ite hu.emitRes hu.waitOn)

theorem execBwait {r : RecS} {s : State} (h : Canon s) :
    CanonNext (Machine.execBwait r s) := h.bAct (fun _ _ hu => .ite hu.bwaitServe hu.askBar)

theorem bdropServe {r : RecS} {c : Cur} {s : State} (h : Canon s) : Canon (Machine.bdropServe r c s) := by
  unfold Machine.bdropServe
  refine withBarrier h (fun _ _ _ _ hu => ?_)
  dsimp only
  split
  · exact hu.faultCur
  · exact .ite hu.emitRes.setBarrier hu.emitRes.barSettle

theorem execBdrop {r : RecS} {s : State} (h : Canon s) : CanonNext (Machine.execBdrop r s) := h.bAct (fun _ _ hu => hu.askBar)

theorem btestServe {r : RecS} {c : Cur} {s : State} (h : Canon s) :
    Canon (Machine.btestServe r c s) := h.withBarrier (fun _ _ _ _ hu => hu.emitRes)

theorem execBtest {r : RecS} {s : State} (h : Canon s) : CanonNext (Machine.execBtest r s) := h.bAct (fun _ _ hu => hu.askBar)

theorem ticketServe {r : RecS} {c : Cur} {s : State} (h : Canon s) :
    Canon (Machine.ticketServe r c s) := h.withBarrier (fun _ _ _ _ hu => hu.emitRes)

theorem execBtestTicket {r : RecS} {s : State} (h : Canon s) : CanonNext (Machine.execBtestTicket r s) := h.bAct (fun _ _ hu => hu.askBar)

theorem pointAct {i : Instr} {c : Cur} {s : State} (h : Canon s) : Canon (Machine.pointAct i c s) := by
  unfold Machine.pointAct
  split
  · exact h.retServe
  · exact h.grantServe
  · exact h.entryServe
  · exact h.packServe
  · exact h.binitServe
  · exact h.bfreeServe
  · exact h.bdropServe
  · exact h.arriveAct
  · exact h.arriveAct
  · exact h.bwaitServe
  · exact h.btestServe
  · exact h.ticketServe
  · exact h

theorem pointGo {point n : Nat} {s : State} (h : Canon s) : Canon (Machine.pointGo point n s) := by
  induction n generalizing s with
  | zero => exact h
  | succ n ih =>
    unfold Machine.pointGo
    split
    · exact h
    · exact .ite (ih (pointAct (h.of_eq rfl rfl))) (.ite h (ih (pointAct (h.of_eq rfl rfl))))

theorem pointsGo {s : State} (h : Canon s) : Canon (Machine.pointsGo s) := h.foldl (fun _ _ hu => hu.pointGo)

theorem execBarrierWatchExpiry {s : State} (h : Canon s) :
    CanonNext (Machine.execBarrierWatchExpiry s) := .ite .notNow h.setBarrier.post.next

theorem execBarrierNotice {s : State} (h : Canon s) : CanonNext (Machine.execBarrierNotice s) := by
  unfold Machine.execBarrierNotice
  split
  · exact .notNow
  · exact next (setNib (h.of_eq rfl rfl))

theorem execCmpfwd {r : RecN} {s : State} (h : Canon s) : CanonNext (Machine.execCmpfwd r s) := h.fire

theorem execRankadmCandidate {r : RecN} {s : State} (h : Canon s) : CanonNext (Machine.execRankadmCandidate r s) := by
  unfold Machine.execRankadmCandidate
  dsimp only
  split
  · exact .refused
  · split
    · exact h.faultCur.next
    · split
      · exact next (.ite h.setNib.sendAll h.setNib)
      · split
        · exact h.faultCur.next
        · refine Canon.next ?_
          split
          · exact h.setNib.sendAll
          · exact h.setNib

theorem execRankadmBatchComplete {s : State} (h : Canon s) : CanonNext (Machine.execRankadmBatchComplete s) := by
  unfold Machine.execRankadmBatchComplete
  dsimp only
  split
  · exact .notNow
  · split
    · refine .ite ?_ ?_
      · exact .notNow
      · refine Canon.next ?_
        split
        · exact h.setNib.freeSticky.faultCur
        · exact h.setNib.freeSticky.sendAll
    · exact .notNow

end Canon
end Sys2Proof.Proofs
end


section
/-!
PROOF. The canonical form through queues, launches, parks, contexts and partitions (13 to 15).
-/
namespace Sys2Proof.Proofs
open Sys2Proof.Machine Sys2Proof.Safety Sys2Proof.Claims

namespace Canon

theorem countBad {s : State} {q : Nat} (h : Canon s) : Canon (Machine.countBad s q) := h.setQueue

theorem queueAppend {s : State} {q : Nat} {ws : List Word64} (h : Canon s) : Canon (Machine.queueAppend s q ws).1 := by
  unfold Machine.queueAppend
  extract_lets x seq s1 q' s2
  have h2 : Canon s2 := h.physStore.setQueue
  clear_value s2
  split
  · exact h.countBad
  · split
    · exact h.setQueue
    · exact (h2.wakeAll : Canon (Machine.wakeAll s2 fun w => w == .queue q))

theorem toPoint {s : State} {q : Nat} {w : QWhat} (h : Canon s) : Canon (Machine.toPoint s q w) := h.of_eq rfl rfl

theorem completeRec {s : State} {q seq : Nat} {irq : Bool} {status : Nat} {flags : BitVec 5} {cycles : Nat} (h : Canon s) :
    Canon (Machine.completeRec s q seq irq status flags cycles) := .ite h.physStore.setQueue.updOut h.physStore.setQueue

theorem completeHead {s : State} {q seq : Nat} {irq : Bool} {status : Nat} (h : Canon s) :
    Canon (Machine.completeHead s q seq irq status) := h.setQueue.completeRec

theorem execLaunchCompletion {s : State} (h : Canon s) : CanonNext (Machine.execLaunchCompletion s) := by
  unfold Machine.execLaunchCompletion
  split
  · exact .notNow
  · split
    · exact .notNow
    · exact next (completeRec (iter (h.of_eq rfl rfl) (fun _ _ hu => .ite hu.planeDrain hu)))

theorem doConfig {s : State} {fn q : Nat} {ws : List Word64} (h : Canon s) :
    Canon (Machine.doConfig s fn q ws) := .ite h.setQueue h.countBad

theorem doStart {s : State} {q : Nat} (h : Canon s) : Canon (Machine.doStart s q) := .ite h.setQueue h.countBad

theorem doStop {s : State} {q : Nat} (h : Canon s) : Canon (Machine.doStop s q) := .ite h.setQueue h.countBad

theorem doReset {s : State} {q : Nat} (h : Canon s) : Canon (Machine.doReset s q) := .ite h.setQueue h.countBad

theorem doClro {s : State} {q : Nat} (h : Canon s) : Canon (Machine.doClro s q) := h.setQueue

theorem controlLine {s : State} {fn q : Nat} {ws : List Word64} (h : Canon s) : Canon (Machine.controlLine s fn q ws) := by
  unfold Machine.controlLine
  split
  · exact h.doConfig
  · exact h.doStart
  · exact h.doStop
  · exact h.doReset
  · exact h.doClro
  · exact h.countBad

theorem lineEvent {s : State} {ok : Nat → Bool} (h : Canon s) : CanonNext (Machine.lineEvent s ok) := .ite .notNow h.controlLine.next

theorem execQueueConfig {s : State} (h : Canon s) : CanonNext (Machine.execQueueConfig s) := h.lineEvent

theorem execQueueStart {s : State} (h : Canon s) : CanonNext (Machine.execQueueStart s) := h.lineEvent

theorem execQueueStop {s : State} (h : Canon s) : CanonNext (Machine.execQueueStop s) := h.lineEvent

theorem execQueueReset {s : State} (h : Canon s) : CanonNext (Machine.execQueueReset s) := h.lineEvent

theorem execQueueClro {s : State} (h : Canon s) : CanonNext (Machine.execQueueClro s) := h.lineEvent

theorem execControlLineRejected {s : State} (h : Canon s) : CanonNext (Machine.execControlLineRejected s) := h.lineEvent

theorem execHostAppend {s : State} (h : Canon s) :
    CanonNext (Machine.execHostAppend s) := .ite .notNow (.ite h.toPoint.next h.countBad.next)

theorem headKernel {s : State} {die : Nat} {ws : List Word64} (h : Canon s) : Canon (Machine.headKernel s die ws).1 := by
  unfold Machine.headKernel
  dsimp only
  split
  · rename_i heq1
    exact of_fst heq1 h.readObj
  · rename_i heq1
    split
    · exact of_fst heq1 h.readObj
    · split
      · rename_i heq2
        exact of_fst heq2 ((of_fst heq1 h.readObj).readObj)
      · rename_i heq2
        split
        · exact of_fst heq2 ((of_fst heq1 h.readObj).readObj)
        · split
          · exact of_fst heq2 ((of_fst heq1 h.readObj).readObj)
          · split
            · exact of_fst heq2 ((of_fst heq1 h.readObj).readObj)
            · split
              · rename_i heq4
                exact of_fst heq4 ((of_fst heq2 ((of_fst heq1 h.readObj).readObj)).readObj)
              · rename_i heq4
                exact of_fst heq4 ((of_fst heq2 ((of_fst heq1 h.readObj).readObj)).readObj)

theorem withoutCtx {s : State} {ctx : Nat} (h : Canon s) : Canon (Machine.withoutCtx s ctx) := h.of_eq rfl rfl

theorem turnTick {s : State} (h : Canon s) : Canon (Machine.turnTick s) := h.of_eq rfl rfl

theorem putAct {r : RecS} {s : State} {c : Cur} (h : Canon s) : Canon (Machine.putAct r s c) := by
  unfold Machine.putAct
  exact h.pushScope.queueAppend.emitRes

theorem takeNone {s : State} {c : Cur} {r : RecS} {st : Nat} (h : Canon s) : Canon (Machine.takeNone s c r st) := h.emitRes

theorem takeAct {r : RecS} {wait : Bool} {s : State} {c : Cur} (h : Canon s) : Canon (Machine.takeAct r wait s c) := by
  unfold Machine.takeAct
  dsimp only
  split
  · exact h.takeNone
  · split
    · exact h.takeNone
    · split
      · exact .ite h.waitOn h.takeNone
      · exact h.setQueue.emitRes

theorem statAct {r : RecS} {s : State} {c : Cur} (h : Canon s) : Canon (Machine.statAct r s c) := h.emitRes

theorem markAct {r : RecS} {s : State} {c : Cur} (h : Canon s) : Canon (Machine.markAct r s c) := by
  unfold Machine.markAct
  exact h.setQueue.emitRes

theorem queueFire {s : State} {r : RecS} {i : Instr} {sub : BitVec 8} {ty : BitVec 4} (h : Canon s) :
    CanonNext (Machine.queueFire s r i sub ty) := h.sFire (fun _ _ hu => .ite hu.faultCur hu.toPoint)

theorem execQput {r : RecS} {s : State} (h : Canon s) : CanonNext (Machine.execQput r s) := h.queueFire

theorem execQtake {r : RecS} {s : State} (h : Canon s) : CanonNext (Machine.execQtake r s) := h.queueFire

theorem execQtakePoll {r : RecS} {s : State} (h : Canon s) : CanonNext (Machine.execQtakePoll r s) := h.queueFire

theorem execQstat {r : RecS} {s : State} (h : Canon s) : CanonNext (Machine.execQstat r s) := h.queueFire

theorem execQmark {r : RecS} {s : State} (h : Canon s) : CanonNext (Machine.execQmark r s) := h.sAct (fun _ _ hu => hu.toPoint)

theorem takeReq {s : State} {x : QReq} (h : Canon s) : Canon (Machine.takeReq s x) := by
  unfold Machine.takeReq
  split
  · exact h.queueAppend
  · split
    · exact h.putAct
    · exact h.takeAct
    · exact h.takeAct
    · exact h.statAct
    · exact h.markAct
    · exact h

theorem queuePoints {s : State} (h : Canon s) :
    Canon (Machine.queuePoints s) := foldl_fst (h.of_eq rfl rfl) (fun _ _ hu => iteFst (hu.of_eq rfl rfl) hu.takeReq)

theorem admitCtx {s : State} {ctx p : Nat} (h : Canon s) :
    Canon (Machine.admitCtx s ctx p) := .ite (.ite h h.setPanel) (setCtx (.ite h h.setPanel))

theorem makeResident {s : State} {ctx : Nat} (h : Canon s) : Canon (Machine.makeResident s ctx) := h.setCtx

theorem stripPanel {s : State} {ctx st p : Nat} (h : Canon s) : Canon (Machine.stripPanel s ctx st p) := by
  unfold Machine.stripPanel
  extract_lets im pn mine pl ws s1 keep s2 s3 sc s4 s5 s6 b
  have h1 : Canon s1 := h.iter fun _ _ hu => hu.setNib.setObuf
  have h2 : Canon s2 := h1.foldl fun _ _ hu => hu.setWell
  have h3 : Canon s3 := .ite h2.setNib.setScribe h2
  have h6 : Canon s6 := h3.setScribe.setPanel.foldl fun _ _ hu => hu.setTable
  exact ⟨h6.mem, memWf_filter _ h6.wmem⟩

theorem stripCtx {s : State} {ctx st : Nat} (h : Canon s) :
    Canon (Machine.stripCtx s ctx st) := setCtx (h.foldl (fun _ _ hu => hu.stripPanel))

theorem parkGroups {s : State} {ctx : Nat} (h : Canon s) : Canon (Machine.parkGroups s ctx) := h.foldl (fun _ _ hu => hu.setGstate)

theorem resumeGroups {s : State} {ctx : Nat} (h : Canon s) :
    Canon (Machine.resumeGroups s ctx) := h.foldl (fun _ _ hu => hu.setGroup.setGstate)

theorem restage {s : State} {im : List SavedPanel} {ps : List Nat} {ctx p k : Nat} {y : Plane} (h : Canon s) :
    CanonSome (Machine.restage s im ps ctx p k y) := by
  unfold Machine.restage
  split
  · exact h.setPlane.some
  · dsimp only
    refine .ite ?_ ?_
    · exact .none
    · exact some (setPlane (.ite h.stageStart h.stageStart.loadStores))

theorem restagePanel {s : State} {im : List SavedPanel} {ps : List Nat} {ctx p : Nat} {x : SavedPanel} (h : Canon s) :
    CanonSome (Machine.restagePanel s im ps ctx p x) := foldl_bind h.some fun _ _ hu => hu.restage

theorem deliverPending {s : State} {p : Nat} {t : Token} (h : Canon s) :
    Canon (Machine.deliverPending s p t) := .ite (h.of_eq rfl rfl) (getD h.takeToken (h.of_eq rfl rfl))

theorem loadGroup {s : State} {p site : Nat} {g : Machine.Group} (h : Canon s) : Canon (Machine.loadGroup s p site g) := by
  unfold Machine.loadGroup
  dsimp only
  split
  · exact h.setNib
  · refine foldl h (fun _ _ hu => ?_)
    split
    · exact hu.setNib
    · split
      · exact .ite hu.setNib hu.setNib
      · exact hu.setNib

theorem putWell {s : State} {ctx p w : Nat} {x : Well} (h : Canon s) : Canon (Machine.putWell s ctx p w x) := .ite h.setWell h.setWell

theorem putImage {s : State} {f : Nat → Nat} {ctx p : Nat} {x : SavedPanel} (h : Canon s) : Canon (Machine.putImage s f ctx p x) := by
  unfold Machine.putImage
  extract_lets s1 s2 pn mine pri alone late s3 pn' s4 s5 s6 s7 held s8 s9 s10 sc s11 s12 b
  have h1 : Canon s1 := h.foldl fun _ _ hu => hu.putWell
  have h2 : Canon s2 := h1.of_eq rfl rfl
  have h3 : Canon s3 := by
    unfold s3
    split
    · exact .ite h2.setPlane h2
    · exact h2
  have h5 : Canon s5 := h3.setPanel.foldl fun _ _ hu => hu.setTable
  have h6 : Canon s6 := h5.foldl fun _ _ hu => hu.setPg
  have h7 : Canon s7 := h6.foldl fun _ _ hu => hu.setObuf
  have h8 : Canon s8 := h7.foldl fun _ _ hu => hu.setNib
  have h9 : Canon s9 := h8.foldl fun _ _ hu => hu.deliverPending
  have h10 : Canon s10 := h9.foldl fun _ _ hu => settle (hu.setNib.foldl fun _ _ hv => hv.loadGroup)
  have h12 : Canon s12 := .ite h10.setScribe.setNib h10
  exact h12.of_eq rfl rfl

theorem moveCtx {s : State} {f : Nat → Nat} {ctx : Nat} (h : Canon s) :
    Canon (Machine.moveCtx s f ctx) := foldl (h.of_eq rfl rfl) (fun _ _ hu => hu.xferSend)

theorem setImage {s : State} {ctx : Nat} {im : List SavedPanel} (h : Canon s) : Canon (Machine.setImage s ctx im) := h.of_eq rfl rfl

theorem askEmit {s : State} {a : ParkAsk} {status : Nat} (h : Canon s) : Canon (Machine.askEmit s a status) := .ite h.setImage h.emitRes

theorem setLast {s : State} {ctx status : Nat} (h : Canon s) : Canon (Machine.setLast s ctx status) := h.setCtx

theorem putPark {s : State} {x : Park} (h : Canon s) : Canon (Machine.putPark s x) := h.of_eq rfl rfl

theorem parkStart {s : State} {ctx : Nat} {ask : Option ParkAsk} {preempt : Bool} (h : Canon s) :
    Canon (Machine.parkStart s ctx ask preempt) := by
  unfold Machine.parkStart
  split
  · exact h.putPark
  · exact h.of_eq rfl rfl

theorem setGates {s : State} {ctx : Nat} {shut : Bool} (h : Canon s) :
    Canon (Machine.setGates s ctx shut) := h.foldl (fun _ _ hu => hu.foldl (fun _ _ hv => hv.setNib))

theorem resumeStart {s : State} {ctx : Nat} {ps : Option (List Nat)} {ask : Option ParkAsk} (h : Canon s) :
    Canon (Machine.resumeStart s ctx ps ask) := h.of_eq rfl rfl

theorem resumeSays {s : State} {a : ParkAsk} {ctx status : Nat} (h : Canon s) :
    Canon (Machine.resumeSays s a ctx status) := h.setLast.askEmit

theorem resumeAct {s : State} {a : ParkAsk} (h : Canon s) : Canon (Machine.resumeAct s a) := by
  unfold Machine.resumeAct
  dsimp only
  refine .ite ?_ ?_
  · exact h.parkStart
  · refine .ite ?_ ?_
    · exact h.resumeStart
    · refine .ite ?_ ?_
      · refine .ite ?_ ?_
        · exact resumeSays (h.makeResident.foldl (fun _ _ hu => hu.admitCtx))
        · exact h.resumeSays
      · exact h.resumeSays

theorem parkAnswer {s : State} {x : Park} {status : Nat} (h : Canon s) :
    Canon (Machine.parkAnswer s x status) := h.setLast.foldl (fun _ _ hu => .ite hu.resumeAct hu.askEmit)

theorem parkAbandon {s : State} {x : Park} (h : Canon s) : Canon (Machine.parkAbandon s x) := parkAnswer (setGates (h.of_eq rfl rfl))

theorem preemptGo {s : State} {part : Nat} (h : Canon s) : Canon (Machine.preemptGo s part) := by
  unfold Machine.preemptGo
  dsimp only
  split
  · exact h
  · split
    · exact h
    · exact .ite h.setPart (h.foldl (fun _ _ hu => hu.parkStart))

theorem freezeStart {s : State} {part : Nat} {clear : Bool} (h : Canon s) :
    Canon (Machine.freezeStart s part clear) := setPart (foldl (of_eq (h.foldl (fun _ _ hu => hu.setCtx)) rfl rfl) (fun _ _ hu => .ite hu.setLaunch hu))

theorem execParkGate {s : State} (h : Canon s) : CanonNext (Machine.execParkGate s) := by
  unfold Machine.execParkGate
  split
  · exact .notNow
  · exact h.setGates.putPark.next

theorem execParkSettle {s : State} (h : Canon s) : CanonNext (Machine.execParkSettle s) := by
  unfold Machine.execParkSettle
  split
  · exact .notNow
  · exact .ite h.putPark.next .notNow

theorem execParkQuiesce {s : State} (h : Canon s) : CanonNext (Machine.execParkQuiesce s) := by
  unfold Machine.execParkQuiesce
  split
  · exact .notNow
  · exact .ite h.putPark.next .notNow

theorem readHeader {s : State} {ctx p : Nat} (h : Canon s) : Canon (Machine.readHeader s ctx p).1 := by
  unfold Machine.readHeader
  split
  · rename_i heq1
    exact of_fst heq1 h.vread
  · rename_i heq1
    exact of_fst heq1 h.vread
  · rename_i heq1
    exact of_fst heq1 h.vread

theorem streamWrite {ctx p va : Nat} {bs : List Byte} {bad : Bool} {x : Machine.Stream} (h : Canon x.1) :
    Canon (Machine.streamWrite ctx p va bs bad x).1 := by
  unfold Machine.streamWrite
  split
  · exact h
  · split
    · rename_i heq2
      exact of_fst heq2 h.vwrite
    · rename_i heq2
      exact of_fst heq2 h.vwrite

theorem streamArea {ctx p va size : Nat} {x : Machine.Stream} (h : Canon x.1) :
    Canon (Machine.streamArea ctx p va size x).1 := foldl_fst (h.of_eq rfl rfl) (fun _ _ hu => hu.streamWrite)

theorem streamRows {ctx p va : Nat} {n : Nib} {x : Machine.Stream} (h : Canon x.1) :
    Canon (Machine.streamRows ctx p va n x).1 := h.foldl_fst (fun _ _ hu => hu.streamWrite)

theorem streamWell {ctx base p w : Nat} {x : Machine.Stream} (h : Canon x.1) :
    Canon (Machine.streamWell ctx base p w x).1 := h.foldl_fst (fun _ _ hu => hu.streamWrite)

theorem streamPanel {ctx half i p : Nat} {x : Machine.Stream} (h : Canon x.1) :
    Canon (Machine.streamPanel ctx half i p x).1 := foldl_fst (foldl_fst (h.foldl_fst (fun _ _ hu => hu.streamArea)) (fun _ _ hu => hu.streamRows)) (fun _ _ hu => iteFst hu hu.streamWell)

theorem unpinWindows {s : State} {ctx p : Nat} (h : Canon s) :
    Canon (Machine.unpinWindows s ctx p) := h.foldl (fun _ _ hu => .ite hu.wbWindow.setWell hu)

theorem execParkStream {s : State} (h : Canon s) : CanonNext (Machine.execParkStream s) := by
  unfold Machine.execParkStream
  split
  · exact .notNow
  · dsimp only
    split
    · rename_i heq2
      exact (of_fst heq2 h.readHeader).putPark.next
    · rename_i heq2
      exact next (putPark (foldl_fst ((of_fst heq2 h.readHeader).foldl (fun _ _ hu => hu.unpinWindows)) (fun _ _ hu => hu.streamPanel)))

theorem commitHeader {s : State} {ctx w : Nat} (h : Canon s) :
    Canon (Machine.commitHeader s ctx w).1 := h.streamWrite.streamWrite.streamWrite

theorem execParkCommit {s : State} (h : Canon s) : CanonNext (Machine.execParkCommit s) := by
  unfold Machine.execParkCommit
  split
  · exact .notNow
  · split
    · exact .notNow
    · dsimp only
      split
      · rename_i heq2
        exact (of_fst heq2 h.readHeader).putPark.next
      · rename_i heq2
        split
        · rename_i heq3
          exact (of_fst heq3 ((of_fst heq2 h.readHeader).commitHeader)).putPark.next
        · rename_i heq3
          refine Canon.next ?_
          refine preemptGo ?_
          refine parkAnswer ?_
          split
          · exact setPart (parkGroups (updParks (setCtx (stripCtx ((of_fst heq3 ((of_fst heq2 h.readHeader).commitHeader)).of_eq rfl rfl)))))
          · exact parkGroups (updParks (setCtx (stripCtx ((of_fst heq3 ((of_fst heq2 h.readHeader).commitHeader)).of_eq rfl rfl))))

theorem execParkFaultAbandon {s : State} (h : Canon s) : CanonNext (Machine.execParkFaultAbandon s) := by
  unfold Machine.execParkFaultAbandon
  split
  · exact .notNow
  · split
    · exact .notNow
    · dsimp only
      refine Canon.next ?_
      split
      · exact h.parkAbandon.post.freezeStart
      · exact h.parkAbandon.post.preemptGo

theorem execParkAbandonTimeout {s : State} (h : Canon s) : CanonNext (Machine.execParkAbandonTimeout s) := by
  unfold Machine.execParkAbandonTimeout
  split
  · exact .notNow
  · exact .ite h.parkAbandon.preemptGo.next .notNow

theorem execSliceExpiry {s : State} (h : Canon s) : CanonNext (Machine.execSliceExpiry s) := .ite .notNow h.parkStart.next

theorem execParkwaitExpiry {s : State} (h : Canon s) : CanonNext (Machine.execParkwaitExpiry s) := .ite .notNow h.parkStart.next

theorem resumeLaunches {s : State} {ctx status : Nat} (h : Canon s) :
    Canon (Machine.resumeLaunches s ctx status) := h.foldl (fun _ _ hu => .ite (.ite hu.setLaunch hu.launchFail) hu)

theorem unreserve {s : State} {ctx : Nat} (h : Canon s) : Canon (Machine.unreserve s ctx) := setCtx (h.foldl (fun _ _ hu => hu.setPanel))

theorem resumepGo {s : State} {part : Nat} (h : Canon s) : Canon (Machine.resumepGo s part) := .ite h.setPart h

theorem resumeEnd {s : State} {x : Resume} {status : Nat} (h : Canon s) : Canon (Machine.resumeEnd s x status) := by
  unfold Machine.resumeEnd
  dsimp only
  refine resumepGo ?_
  refine resumeLaunches ?_
  split
  · refine askEmit ?_
    split
    · exact setLast (h.of_eq rfl rfl)
    · exact unreserve (setLast (h.of_eq rfl rfl))
  · split
    · exact setLast (h.of_eq rfl rfl)
    · exact unreserve (setLast (h.of_eq rfl rfl))

theorem loadWell {ctx base p w : Nat} {x : Stream} (h : Canon x.1) : Canon (Machine.loadWell ctx base p w x).1 := by
  unfold Machine.loadWell
  refine foldl_fst h fun u i hu => ?_
  obtain ⟨u, o⟩ := u
  cases o with
  | some y => exact hu
  | none =>
    have hread : Canon (Machine.vread u ctx p (wellArea base w + 32 * i) 32).1 := vread hu
    generalize Machine.vread u ctx p (wellArea base w + 32 * i) 32 = r at hread ⊢
    obtain ⟨t, c | ⟨bs, bad⟩⟩ := r
    · exact hread
    · exact ⟨hread.mem, memWf_mwrites _ _ hread.wmem⟩

theorem loadWells {ctx half i p : Nat} {y : SavedPanel} {x : Machine.Stream} (h : Canon x.1) :
    Canon (Machine.loadWells ctx half i p y x).1 := h.foldl_fst (fun _ _ hu => iteFst hu hu.loadWell)

theorem readSlots {s : State} {ctx p : Nat} (h : Canon s) : Canon (Machine.readSlots s ctx p).1 := by
  unfold Machine.readSlots
  split
  · rename_i heq1
    exact of_fst heq1 h.vread
  · rename_i heq1
    exact of_fst heq1 h.vread
  · rename_i heq1
    exact of_fst heq1 h.vread

theorem resumeFault {s : State} {x : Resume} {f : Nat × Nat × Nat} (h : Canon s) : Canon (Machine.resumeFault s x f) := h.resumeEnd.post

theorem restoreImage {s : State} {x : Resume} {n : Nat} {im : List SavedPanel} {ps : List Nat} (h : Canon s) :
    Canon (Machine.restoreImage s x n im ps) := by
  unfold Machine.restoreImage
  extract_lets ctx xs f s1
  have h1 : Canon s1 := h.foldl fun _ _ hu => hu.admitCtx
  have h2 : CanonSome (xs.foldl (fun t y => t.bind fun t => Machine.restagePanel t im ps ctx (ps.getD y.1 0) y.2) (Option.some s1)) :=
    foldl_bind h1.some fun _ _ hu => hu.restagePanel
  split
  · exact h.resumeEnd
  · next s2 hs2 =>
    have hloaded : Canon (xs.foldl (fun r y => Machine.loadWells ctx n y.1 (ps.getD y.1 0) y.2 r) ((s2, none) : Stream)).1 :=
      foldl_fst (of_some hs2 h2) fun _ _ hu => loadWells hu
    split
    · exact h.resumeFault
    · next heq =>
      extract_lets s3
      have h3 : Canon s3 := (of_fst heq hloaded).foldl fun _ _ hu => hu.putImage
      exact h3.moveCtx.makeResident.resumeGroups.resumeEnd.launchesGo

theorem execResumeComplete {s : State} (h : Canon s) : CanonNext (Machine.execResumeComplete s) := by
  unfold Machine.execResumeComplete
  split
  · exact .notNow
  · dsimp only
    split
    · rename_i heq2
      exact (of_fst heq2 h.readHeader).resumeFault.next
    · rename_i heq2
      split
      · exact (of_fst heq2 h.readHeader).resumeEnd.next
      · split
        · rename_i heq3
          exact (of_fst heq3 ((of_fst heq2 h.readHeader).readSlots)).resumeFault.next
        · rename_i heq3
          split
          · exact (of_fst heq3 ((of_fst heq2 h.readHeader).readSlots)).resumeEnd.next
          · split
            · exact (of_fst heq3 ((of_fst heq2 h.readHeader).readSlots)).resumeEnd.next
            · exact (of_fst heq3 ((of_fst heq2 h.readHeader).readSlots)).restoreImage.next

theorem execPark {r : RecS} {s : State} (h : Canon s) :
    CanonNext (Machine.execPark r s) := h.sAct (fun _ _ hu => .ite hu.parkStart hu.resumeSays)

theorem execResume {r : RecS} {s : State} (h : Canon s) : CanonNext (Machine.execResume r s) := h.sAct (fun _ _ hu => hu.resumeAct)

theorem execYield {r : RecS} {s : State} (h : Canon s) : CanonNext (Machine.execYield r s) := h.sAct (fun _ _ hu => .ite hu.parkStart hu)

theorem headFate {s : State} {d : Nat} {ws : List Word64} (h : Canon s) : Canon (Machine.headFate s d ws).1 := by
  unfold Machine.headFate
  split
  · rename_i heq1
    exact of_fst heq1 h.headKernel
  · rename_i heq1
    split
    · exact of_fst heq1 h.headKernel
    · exact of_fst heq1 h.headKernel

theorem firstHead {d : Nat} {l : List (Nat × Nat × List Word64)} {s : State} (h : Canon s) : CanonSomeFst (Machine.firstHead d l s) := by
  induction l generalizing s with
  | nil => exact .none
  | cons x l ih =>
    unfold Machine.firstHead
    split
    · next heq => exact ih (of_fst heq h.headFate)
    · next heq => exact someFst (of_fst heq h.headFate)

theorem launchRecord {s : State} {q seq : Nat} {ws : List Word64} {k : KEntry} {xs : List (Nat × Nat)} (h : Canon s) :
    Canon (Machine.launchRecord s q seq ws k xs) := by
  unfold Machine.launchRecord
  dsimp only
  refine .ite ?_ ?_
  · exact resumeStart (foldl (.ite (makeResident (h.of_eq rfl rfl)) (h.of_eq rfl rfl)) (fun _ _ hu => hu.admitCtx))
  · exact foldl (.ite (makeResident (h.of_eq rfl rfl)) (h.of_eq rfl rfl)) (fun _ _ hu => hu.admitCtx)

theorem execLaunchPlacement {s : State} (h : Canon s) : CanonNext (Machine.execLaunchPlacement s) := by
  unfold Machine.execLaunchPlacement
  dsimp only
  split
  · exact .notNow
  · split
    · exact next (completeHead (h.of_eq rfl rfl))
    · split
      · exact .notNow
      · rename_i heq2
        exact next (launchRecord ((of_someFst heq2 (firstHead (h.of_eq rfl rfl))).of_eq rfl rfl))
      · rename_i heq2
        exact (of_someFst heq2 (firstHead (h.of_eq rfl rfl))).completeHead.next

theorem crecWrite {s : State} {n k v : Nat} (h : Canon s) : Canon (Machine.crecWrite s n k v) := by
  unfold Machine.crecWrite
  dsimp only
  split
  · split
    · exact h
    · exact h.setCtx
  · exact .ite h h.setCtx

theorem execCrecWrite {s : State} (h : Canon s) : CanonNext (Machine.execCrecWrite s) := .ite .notNow (.ite h.crecWrite.next h.next)

theorem ccmdSays {s : State} {part n res : Nat} (h : Canon s) : Canon (Machine.ccmdSays s part n res) := h.setPart

theorem doValidate {s : State} {part n : Nat} (h : Canon s) : Canon (Machine.doValidate s part n) := by
  unfold Machine.doValidate
  dsimp only
  split
  · exact h.ccmdSays
  · exact .ite (ccmdSays (h.of_eq rfl rfl)) h.ccmdSays

theorem dropWork {s : State} {n : Nat} (h : Canon s) : Canon (Machine.dropWork s n) := by
  unfold Machine.dropWork
  extract_lets part s1 s2
  have h2 : Canon s2 := mapPoints (h.foldl fun _ _ hu => .ite hu.setLaunch hu)
  exact h2.of_eq rfl rfl

theorem doRelease {s : State} {part n : Nat} (h : Canon s) : Canon (Machine.doRelease s part n) := by
  unfold Machine.doRelease
  extract_lets x s1 s2 s3
  have h1 : Canon s1 := by
    unfold s1
    split
    · exact h.resumeEnd
    · exact h
  have h3 : Canon s3 := dropWork (updLaunches h1.unreserve)
  exact .ite (ccmdSays (h3.of_eq rfl rfl)) h.ccmdSays

theorem ccmdEvent {s : State} {f : State → Nat → Nat → State} (h : Canon s) (hf : ∀ (u : State) (x1 x2 : ℕ), Canon u → Canon (f u x1 x2)) :
    CanonNext (Machine.ccmdEvent s f) := .ite .notNow (next (.ite ((hf _ _ _ h)) h))

theorem execValidate {s : State} (h : Canon s) : CanonNext (Machine.execValidate s) := h.ccmdEvent (fun _ _ _ hu => hu.doValidate)

theorem execRelease {s : State} (h : Canon s) : CanonNext (Machine.execRelease s) := h.ccmdEvent (fun _ _ _ hu => hu.doRelease)

theorem prangeWrite {s : State} {part v : Nat} (h : Canon s) : Canon (Machine.prangeWrite s part v) := .ite h h.setPart

theorem execPrangeWrite {s : State} (h : Canon s) : CanonNext (Machine.execPrangeWrite s) := .ite .notNow (next (.ite h.prangeWrite h))

theorem doPreempt {s : State} {part : Nat} (h : Canon s) : Canon (Machine.doPreempt s part) := h.setPart.preemptGo

theorem doResumep {s : State} {part : Nat} (h : Canon s) :
    Canon (Machine.doResumep s part) := resumepGo (h.foldl (fun _ _ hu => .ite hu hu.resumeStart))

theorem pctlWrite {s : State} {part v : Nat} (h : Canon s) : Canon (Machine.pctlWrite s part v) := by
  unfold Machine.pctlWrite
  split
  · split
    · exact h.doPreempt
    · exact h.freezeStart
    · exact h.freezeStart
    · exact h.doResumep
  · exact h

theorem pctlEvent {s : State} {cmd : Nat} (h : Canon s) : CanonNext (Machine.pctlEvent s cmd) := .ite .notNow (next (.ite h.pctlWrite h))

theorem execPreempt {s : State} (h : Canon s) : CanonNext (Machine.execPreempt s) := h.pctlEvent

theorem execPctlFreeze {s : State} (h : Canon s) : CanonNext (Machine.execPctlFreeze s) := h.pctlEvent

theorem execPctlReset {s : State} (h : Canon s) : CanonNext (Machine.execPctlReset s) := h.pctlEvent

theorem execResumep {s : State} (h : Canon s) : CanonNext (Machine.execResumep s) := h.pctlEvent

theorem dumpPanel {ctx base p : Nat} {x : Machine.Stream} (h : Canon x.1) :
    Canon (Machine.dumpPanel ctx base p x).1 := foldl_fst (h.foldl_fst (fun _ _ hu => hu.streamArea)) (fun _ _ hu => hu.streamRows)

/-- Proved along the list: the step of the fold stays applied to its arguments, so that the checker compares calls, not their results. -/
theorem foldl_dumpPanel {ctx : Nat} {f g : Nat → Nat} {l : List Nat} {x : Stream} (h : Canon x.1) :
    Canon (l.foldl (fun x i => Machine.dumpPanel ctx (f i) (g i) x) x).1 := by
  induction l generalizing x with
  | nil => exact h
  | cons i l ih =>
    rw [List.foldl_cons]
    exact ih h.dumpPanel

theorem writeDump {s : State} {part : Nat} (h : Canon s) : Canon (Machine.writeDump s part) := by
  unfold Machine.writeDump
  cases Machine.frozenCtxs s part with
  | nil => exact h
  | cons c cs => exact foldl_dumpPanel (streamWrite (h.of_eq rfl rfl))

theorem execPartitionFrozen {s : State} (h : Canon s) : CanonNext (Machine.execPartitionFrozen s) := by
  unfold Machine.execPartitionFrozen
  dsimp only
  split
  · exact .notNow
  · split
    · exact .notNow
    · exact next (setPart (writeDump (setPart (h.of_eq rfl rfl))))

theorem dropBarriers {s : State} {n : Nat} (h : Canon s) : Canon (Machine.dropBarriers s n) := h.of_eq rfl rfl

theorem clearCtx {s : State} {n : Nat} (h : Canon s) :
    Canon (Machine.clearCtx s n) := setCtx (updTlb (dropBarriers (dropWork (stripCtx (h.of_eq rfl rfl)))))

theorem execPartitionCleared {s : State} (h : Canon s) : CanonNext (Machine.execPartitionCleared s) := by
  unfold Machine.execPartitionCleared
  dsimp only
  split
  · exact .notNow
  · exact next (setPart (h.foldl (fun _ _ hu => hu.clearCtx)))

end Canon
end Sys2Proof.Proofs
end


section
/-!
PROOF. The canonical form through registers, pages, traps, links, the module's management and the scribe (13, 18 to 20, 26).
-/
namespace Sys2Proof.Proofs
open Sys2Proof.Machine Sys2Proof.Safety Sys2Proof.Claims

namespace Canon

theorem regClear {s : State} {num t : Nat} (h : Canon s) : Canon (Machine.regClear s num t) := .ite h.setCtx (.ite (h.of_eq rfl rfl) h)

theorem plpriWrite {s : State} {a : Agent} {p v : Nat} (h : Canon s) : Canon (Machine.plpriWrite s a p v) := h.setPanel

theorem pulseWrite {s : State} {p v : Nat} (h : Canon s) : Canon (Machine.pulseWrite s p v) := .ite h.setPanel h

theorem svcmodeWrite {s : State} {p v : Nat} (h : Canon s) : Canon (Machine.svcmodeWrite s p v) := h.setPanel

theorem sprtWrite {s : State} {a : Agent} {p k v : Nat} (h : Canon s) : Canon (Machine.sprtWrite s a p k v) := h.setPanel

theorem ccmdWrite {s : State} {part v : Nat} (h : Canon s) : Canon (Machine.ccmdWrite s part v) := by
  unfold Machine.ccmdWrite
  split
  · exact h.doValidate
  · exact h.doRelease
  · exact h.setPart

theorem regWrite {s : State} {a : Agent} {num t v : Nat} {colour : Option Nat} (h : Canon s) :
    Canon (Machine.regWrite s a num t v colour) := by
  unfold Machine.regWrite
  dsimp only
  split
  · exact h.svcmodeWrite
  · exact h.pulseWrite
  · exact h.setScribe
  · exact h.setScribe
  · exact h.plpriWrite
  · exact h.setCtx
  · exact h.setCtx
  · exact h.setCtx
  · split
    · split
      · exact h.setGroup
      · exact h.of_eq rfl rfl
    · exact h
  · exact h.setScribe
  · exact h.setScribe
  · exact h.setScribe
  · exact h.setScribe
  · exact h.setScribe
  · exact h.setScribe
  · exact h.setScribe
  · exact h.prangeWrite
  · exact h.setPart
  · exact h.setPart
  · exact h.pctlWrite
  · exact h.ccmdWrite
  · exact .ite h.sprtWrite (.ite h.crecWrite h)

theorem execSread {r : RecS} {s : State} (h : Canon s) : CanonNext (Machine.execSread r s) := by
  unfold Machine.execSread
  split
  · exact .refused
  · refine sFire h (fun _ _ hu => ?_)
    split
    · exact hu.faultCur
    · exact hu.regClear.emitRes

theorem sAck {s : State} {r : RecS} {i : Instr} {bad : Bool} {chk : State → Cur → Option Nat} {act : State → Cur → State} (h : Canon s)
    (hact : ∀ (u : State) (x1 : Cur), Canon u → Canon (act u x1)) :
    CanonNext (Machine.sAck s r i bad chk act) := by
  unfold Machine.sAck
  split
  · exact .refused
  · refine sFire h (fun _ _ hu => ?_)
    split
    · exact hact _ _ hu
    · split
      · exact hu.faultCur
      · exact .ite hu.emitRes.holdEff ((hact _ _ hu.emitRes))

theorem execSwrite {r : RecS} {s : State} (h : Canon s) : CanonNext (Machine.execSwrite r s) := h.sAck (fun _ _ hu => hu.regWrite)

theorem ctxpriPanel {s : State} {ctx v p : Nat} (h : Canon s) : Canon (Machine.ctxpriPanel s ctx v p) := h.setPanel

theorem ctxpriAct {s : State} {c : Cur} {r : RecS} (h : Canon s) : Canon (Machine.ctxpriAct s c r) := by
  unfold Machine.ctxpriAct
  dsimp only
  split
  · exact h.setImage.foldl_fst (fun _ _ hu => iteFst hu.streamArea hu)
  · exact .ite (h.foldl (fun _ _ hu => hu.ctxpriPanel)) h.ctxpriPanel

theorem execCtxpri {r : RecS} {s : State} (h : Canon s) : CanonNext (Machine.execCtxpri r s) := h.sAck (fun _ _ hu => hu.ctxpriAct)

theorem windowWrite {s : State} {a : Agent} {num t v : Nat} (h : Canon s) : Canon (Machine.windowWrite s a num t v) := by
  unfold Machine.windowWrite
  split
  · exact .ite h.regWrite h
  · exact h

theorem windowEvent {s : State} {num : Nat} (h : Canon s) : CanonNext (Machine.windowEvent s num) := .ite .notNow h.windowWrite.next

theorem rowEvent {s : State} {num : Nat} (h : Canon s) : CanonNext (Machine.rowEvent s num) := .ite h.windowEvent .notNow

theorem execPlpriWrite {s : State} (h : Canon s) : CanonNext (Machine.execPlpriWrite s) := h.rowEvent

theorem execPulseWrite {s : State} (h : Canon s) : CanonNext (Machine.execPulseWrite s) := h.rowEvent

theorem execSvcmodeWrite {s : State} (h : Canon s) : CanonNext (Machine.execSvcmodeWrite s) := h.rowEvent

theorem execRegisterWrite {s : State} (h : Canon s) : CanonNext (Machine.execRegisterWrite s) := .ite .notNow h.windowEvent

theorem execRcRegisterRead {s : State} (h : Canon s) : CanonNext (Machine.execRcRegisterRead s) := by
  unfold Machine.execRcRegisterRead
  dsimp only
  split
  · exact .notNow
  · exact .ite h.regClear.updOut.next (next (h.of_eq rfl rfl))

theorem execServiceModeChange {s : State} (h : Canon s) : CanonNext (Machine.execServiceModeChange s) := by
  unfold Machine.execServiceModeChange
  dsimp only
  split
  · exact .notNow
  · exact .ite h.setPanel.next .notNow

theorem pinXlat {s : State} {c : Cur} {ctx w : Nat} {pages : List Nat} (h : Canon s) : Canon (Machine.pinXlat s c ctx w pages).1 := by
  unfold Machine.pinXlat
  refine foldl_fst h (fun _ _ hu => ?_)
  split
  · exact hu
  · split
    · rename_i heq2
      exact of_fst heq2 hu.xlateNow
    · rename_i heq2
      exact of_fst heq2 hu.xlateNow

theorem pinFault {s : State} {x : PinAsk} {cause addr : Nat} (h : Canon s) : Canon (Machine.pinFault s x cause addr) := h.faultCur

theorem pinEmit {s : State} {x : PinAsk} (h : Canon s) : Canon (Machine.pinEmit s x) := h.emitRes

theorem unpin {s : State} {x : PinAsk} (h : Canon s) : Canon (Machine.unpin s x) := h.setWell.pinEmit

theorem pinTest {s : State} {x : PinAsk} (h : Canon s) : Canon (Machine.pinTest s x).1 := by
  unfold Machine.pinTest
  dsimp only
  split
  · exact h.pinFault
  · split
    · rename_i heq2
      exact (of_fst heq2 h.pinXlat).pinFault
    · rename_i heq2
      exact iteFst ((of_fst heq2 h.pinXlat).pinFault) ((of_fst heq2 h.pinXlat))

theorem pinNext {s : State} {x : PinAsk} {page base : Nat} (h : Canon s) : Canon (Machine.pinNext s x page base).1 := by
  unfold Machine.pinNext
  dsimp only
  split
  · exact h
  · rename_i heq1
    exact iteFst ((of_someFst heq1 h.takeSlot).setWell) ((of_someFst heq1 h.takeSlot).foldl (fun _ _ hu => hu.fillReq))

theorem pinGo {n : Nat} {s : State} {x : PinAsk} (h : Canon s) : Canon (Machine.pinGo n s x).1 := by
  induction n generalizing s x with
  | zero => exact h
  | succ n ih =>
    unfold Machine.pinGo
    split
    · exact h.pinEmit
    · exact iteFst (ih h.pinNext) h.pinNext

theorem pinStep {s : State} {x : PinAsk} (h : Canon s) : Canon (Machine.pinStep s x).1 := by
  unfold Machine.pinStep
  split
  · exact h.unpin
  · split
    · exact h.pinGo
    · split
      · rename_i heq1
        exact (of_fst heq1 h.pinTest).pinGo
      · exact h.pinTest

theorem pinsGo {s : State} (h : Canon s) : Canon (Machine.pinsGo s) := by
  unfold Machine.pinsGo
  refine foldl (h.of_eq rfl rfl) (fun _ _ hu => ?_)
  split
  · exact hu.of_eq rfl rfl
  · dsimp only
    split
    · exact hu.pinStep.of_eq rfl rfl
    · exact hu.pinStep

theorem pinAct {s : State} {c : Cur} {r : RecS} {pins : Bool} (h : Canon s) : Canon (Machine.pinAct s c r pins) := by
  unfold Machine.pinAct
  split
  · exact h.faultCur
  · exact pinsGo (h.of_eq rfl rfl)

theorem execMpin {r : RecS} {s : State} (h : Canon s) : CanonNext (Machine.execMpin r s) := h.sAct (fun _ _ hu => hu.pinAct)

theorem execMunpin {r : RecS} {s : State} (h : Canon s) : CanonNext (Machine.execMunpin r s) := h.sAct (fun _ _ hu => hu.pinAct)

theorem dropSlots {s : State} {p w lo hi : Nat} (h : Canon s) :
    Canon (Machine.dropSlots s p w lo hi) := h.foldl (fun _ _ hu => .ite hu.flushSlot.setWell hu)

theorem minvGo {s : State} (h : Canon s) : Canon (Machine.minvGo s) := foldl (h.of_eq rfl rfl) (fun _ _ hu => hu.emitRes)

theorem minvAct {s : State} {c : Cur} {r : RecS} {lo hi : Nat} (h : Canon s) : Canon (Machine.minvAct s c r lo hi) := by
  unfold Machine.minvAct
  extract_lets ctx wait s1 s2
  have hs2 : Canon s2 := foldl (h.of_eq rfl rfl) fun _ _ hu => .ite hu.dropSlots hu
  exact minvGo (walksRestart (hs2.of_eq rfl rfl))

theorem execMinv {r : RecS} {s : State} (h : Canon s) : CanonNext (Machine.execMinv r s) := h.sAct (fun _ _ hu => hu.minvAct)

theorem execMinvContext {r : RecS} {s : State} (h : Canon s) : CanonNext (Machine.execMinvContext r s) := h.sAct (fun _ _ hu => hu.minvAct)

theorem probeAct {s : State} {c : Cur} {r : RecS} (h : Canon s) : Canon (Machine.probeAct s c r) := by
  unfold Machine.probeAct
  exact emitRes (iteFst h h.leafNow)

theorem execMprobe {r : RecS} {s : State} (h : Canon s) : CanonNext (Machine.execMprobe r s) := h.sAct (fun _ _ hu => hu.probeAct)

theorem execMprobeRead {r : RecS} {s : State} (h : Canon s) : CanonNext (Machine.execMprobeRead r s) := h.sAct (fun _ _ hu => hu.emitRes)

theorem execMprobeReadClear {r : RecS} {s : State} (h : Canon s) :
    CanonNext (Machine.execMprobeReadClear r s) := h.sAct (fun _ _ hu => emitRes (hu.of_eq rfl rfl))

theorem execTrap {r : RecS} {s : State} (h : Canon s) : CanonNext (Machine.execTrap r s) := h.sActP (fun _ _ hu => hu.setScribe)

theorem execTret {r : RecS} {s : State} (h : Canon s) : CanonNext (Machine.execTret r s) := h.sActP (fun _ _ hu => hu.trapReturn)

theorem dropEntry {s : State} {p : Nat} (h : Canon s) : Canon (Machine.dropEntry s p) := by
  unfold Machine.dropEntry
  dsimp only
  split
  · exact h.of_eq rfl rfl
  · exact h

theorem retryHeld {s : State} {p : Nat} {e : MbEntry} (h : Canon s) : Canon (Machine.retryHeld s p e) := h.setObuf.advance

theorem discardHeld {s : State} {p : Nat} {e : MbEntry} (h : Canon s) : Canon (Machine.discardHeld s p e) := h.setObuf.settleOrders.advance

theorem takeAtCommit {r : RecS} {s : State} {p : Nat} {e : MbEntry} (h : Canon s) : Canon (Machine.takeAtCommit r s p e) := by
  unfold Machine.takeAtCommit
  dsimp only
  split
  · exact h.dropEntry.retryHeld
  · exact .ite h.dropEntry.discardHeld h.dropEntry

theorem takeFire {r : RecS} {sub : BitVec 8} {i : Instr} {s : State} (h : Canon s) : CanonNext (Machine.takeFire r sub i s) := by
  unfold Machine.takeFire
  split
  · exact .refused
  · refine sFire h (fun _ _ hu => ?_)
    split
    · exact .ite hu (.ite hu.faultCur hu.emitRes)
    · split
      · exact hu.takeAtCommit
      · split
        · exact hu.faultCur
        · dsimp only
          split
          · exact hu.emitRes
          · exact .ite hu.emitRes.holdEff.onBlock hu.emitRes.takeAtCommit

theorem execFtake {r : RecS} {s : State} (h : Canon s) : CanonNext (Machine.execFtake r s) := h.takeFire

theorem execFtakeRetry {r : RecS} {s : State} (h : Canon s) : CanonNext (Machine.execFtakeRetry r s) := h.takeFire

theorem execFtakeDiscard {r : RecS} {s : State} (h : Canon s) : CanonNext (Machine.execFtakeDiscard r s) := h.takeFire

theorem execFtakePeek {r : RecS} {s : State} (h : Canon s) : CanonNext (Machine.execFtakePeek r s) := h.takeFire

theorem ptestReport {s : State} {c : Cur} {r : RecN} (h : Canon s) : Canon (Machine.ptestReport s c r) := h.post

theorem execPtest {r : RecN} {s : State} (h : Canon s) : CanonNext (Machine.execPtest r s) := by
  unfold Machine.execPtest
  dsimp only
  split
  · exact .refused
  · split
    · exact h.faultCur.next
    · split
      · exact next (.ite h.moveNulls h)
      · split
        · exact h.moveNulls.next
        · split
          · exact h.ptestReport.next
          · refine .ite ?_ ?_
            · exact h.faultCur.next
            · exact next (sends (.ite (.ite h.holdEff h.ptestReport) h))

theorem doubleFault {s : State} {p cause info : Nat} (h : Canon s) :
    Canon (Machine.doubleFault s p cause info) := .ite h.setScribe.post.freezeStart h.setScribe.post

theorem execTrapTaken {s : State} (h : Canon s) : CanonNext (Machine.execTrapTaken s) := by
  unfold Machine.execTrapTaken
  dsimp only
  split
  · exact .notNow
  · split
    · exact .notNow
    · exact next (.ite h.takeTrap h.doubleFault)

theorem lifeAdd {s : State} {item unit n : Nat} (h : Canon s) : Canon (Machine.lifeAdd s item unit n) := h.of_eq rfl rfl

theorem strikeReport {s : State} {g site addr : Nat} {t : Token} {ctx : Nat} (h : Canon s) :
    Canon (Machine.strikeReport s g site addr t ctx) := h.postAt

theorem loadError {s : State} {p k : Nat} (h : Canon s) : Canon (Machine.loadError s p k) := .ite h.setPlane h

theorem execUncorrectableError {s : State} (h : Canon s) : CanonNext (Machine.execUncorrectableError s) := by
  unfold Machine.execUncorrectableError
  dsimp only
  split
  · split
    · exact .notNow
    · exact next (lifeAdd (strikeReport (h.of_eq rfl rfl)))
  · split
    · exact .notNow
    · exact h.putL2.strikeReport.lifeAdd.next
  · split
    · exact .notNow
    · exact next (lifeAdd (strikeReport (h.of_eq rfl rfl)))
  · split
    · exact .notNow
    · exact h.setNib.strikeReport.lifeAdd.next
  · split
    · exact .notNow
    · split
      · exact .notNow
      · exact h.setWell.strikeReport.lifeAdd.next
  · split
    · exact .notNow
    · exact next (lifeAdd (strikeReport (h.of_eq rfl rfl)))
  · split
    · exact h.loadError.setScribe.strikeReport.lifeAdd.next
    · exact .ite .notNow h.loadError.setNib.strikeReport.lifeAdd.next

theorem portLeaves {s : State} {l : Nat} (h : Canon s) : Canon (Machine.portLeaves s l) := by
  unfold Machine.portLeaves
  dsimp only
  refine foldl (foldl (h.of_eq rfl rfl) (fun _ _ hu => hu.staleReq)) (fun _ _ hu => ?_)
  split
  · exact hu.staleReq
  · exact hu

theorem hostLeaves {s : State} (h : Canon s) :
    Canon (Machine.hostLeaves s) := foldl (foldl (h.of_eq rfl rfl) (fun _ _ hu => hu.accStale.advance)) (fun _ _ hu => hu.xferFail)

theorem leavesUp {s : State} {l : Nat} (h : Canon s) : Canon (Machine.leavesUp s l) := .ite h.portLeaves (.ite h.hostLeaves h)

theorem linkDown {s : State} {l : Nat} (h : Canon s) : Canon (Machine.linkDown s l) := h.setLink.leavesUp

theorem linkReset {s : State} {l : Nat} (h : Canon s) : Canon (Machine.linkReset s l) := h.setLink.leavesUp

theorem execLstat {r : RecS} {s : State} (h : Canon s) : CanonNext (Machine.execLstat r s) := h.sAct (fun _ _ hu => hu.emitRes)

theorem lctlSays {s : State} {c : Cur} {r : RecS} {status : Nat} (h : Canon s) : Canon (Machine.lctlSays s c r status) := h.emitRes

theorem lctlLink {r : RecS} {sub : BitVec 8} {i : Instr} {s : State} {ok : State → Nat → Bool} {act : State → Nat → State} (h : Canon s)
    (hact : ∀ (u : State) (x1 : ℕ), Canon u → Canon (act u x1)) :
    CanonNext (Machine.lctlLink r sub i s ok act) := h.sAct (fun _ _ hu => .ite hu.lctlSays ((hact _ _ hu).lctlSays))

theorem linkTrain {s : State} {l : Nat} (h : Canon s) : Canon (Machine.linkTrain s l) := h.setLink

theorem execLctlTrain {r : RecS} {s : State} (h : Canon s) :
    CanonNext (Machine.execLctlTrain r s) := h.lctlLink (fun _ _ hu => hu.linkTrain)

theorem execLctlDown {r : RecS} {s : State} (h : Canon s) : CanonNext (Machine.execLctlDown r s) := h.lctlLink (fun _ _ hu => hu.linkDown)

theorem execLctlReset {r : RecS} {s : State} (h : Canon s) :
    CanonNext (Machine.execLctlReset r s) := h.lctlLink (fun _ _ hu => hu.linkReset)

theorem execLctlClearCounters {r : RecS} {s : State} (h : Canon s) :
    CanonNext (Machine.execLctlClearCounters r s) := h.lctlLink (fun _ _ hu => hu.setLink)

theorem routeWrite {s : State} {a : RouteAsk} (h : Canon s) :
    Canon (Machine.routeWrite s a) := lctlSays (.ite (h.of_eq rfl rfl) (h.of_eq rfl rfl))

theorem routesGo {s : State} (h : Canon s) :
    Canon (Machine.routesGo s) := foldl (h.of_eq rfl rfl) (fun _ _ hu => .ite (hu.of_eq rfl rfl) hu.routeWrite)

theorem execLctlRoute {r : RecS} {s : State} (h : Canon s) :
    CanonNext (Machine.execLctlRoute r s) := h.sAct (fun _ _ hu => routesGo (hu.of_eq rfl rfl))

theorem execLctlOwnNumber {r : RecS} {s : State} (h : Canon s) :
    CanonNext (Machine.execLctlOwnNumber r s) := h.sAct (fun _ _ hu => routesGo (hu.of_eq rfl rfl))

theorem incomingReq {s : State} {l : Nat} {x : Flit} {addr : Nat} (h : Canon s) :
    Canon (Machine.incomingReq s l x addr) := .ite h (h.of_eq rfl rfl)

theorem collFate {s : State} {m : Remote} {taken : Bool} (h : Canon s) : Canon (Machine.collFate s m taken) := by
  unfold Machine.collFate
  split
  · split
    · split
      · exact tagDone (h.of_eq rfl rfl)
      · exact h
    · exact h
  · exact h

theorem takeRemote {s t : State} {id : Nat} {m : Remote} (h : Canon s) (ht : Machine.takeRemote s id = Option.some (m, t)) : Canon t := by
  unfold Machine.takeRemote at ht
  split at ht
  · cases ht
    exact h.updRemotes
  · cases ht

theorem answerAt {s : State} {l id : Nat} {bs : List Byte} {poison : Bool} (h : Canon s) : Canon (Machine.answerAt s l id bs poison) := by
  unfold Machine.answerAt
  split
  · exact h
  next m s1 htake => exact .ite h (.ite (h.takeRemote htake).answer (h.of_eq rfl rfl))

theorem performFlit {s : State} {l : Nat} {x : Flit} (h : Canon s) : Canon (Machine.performFlit s l x) := by
  unfold Machine.performFlit
  split
  · exact h.incomingReq
  · exact h.incomingReq
  · exact h.incomingReq
  · exact h.incomingReq
  · exact h.incomingReq
  · exact h.answerAt
  · exact .ite h (h.of_eq rfl rfl)
  · split
    next m s1 htake => exact (h.takeRemote htake).collFate
    · exact h
  · exact h

theorem deliverFlit {s : State} {l : Nat} {x : Flit} (h : Canon s) : Canon (Machine.deliverFlit s l x) := by
  unfold Machine.deliverFlit
  dsimp only
  refine .ite ?_ ?_
  · exact performFlit (.ite h.count32 h)
  · split
    · exact .ite h.count32 h
    · exact updReqs (.ite h.count32 h)

theorem crcFail {s : State} {l : Nat} (h : Canon s) : Canon (Machine.crcFail s l) := .ite h.setLink.lifeAdd (.ite h.linkReset h.setLink)

theorem execFlitReceive {s : State} (h : Canon s) : CanonNext (Machine.execFlitReceive s) := by
  unfold Machine.execFlitReceive
  dsimp only
  split
  · exact .notNow
  · split
    · exact h.crcFail.next
    · split
      · exact h.setLink.next
      · exact .ite h.setLink.next h.setLink.deliverFlit.next

theorem execResponseTimeout {s : State} (h : Canon s) : CanonNext (Machine.execResponseTimeout s) := by
  unfold Machine.execResponseTimeout
  split
  · exact .notNow
  · split
    · exact .notNow
    · dsimp only
      refine Canon.next ?_
      split
      · exact staleReq (h.of_eq rfl rfl)
      · exact h.of_eq rfl rfl

theorem execTrainingComplete {s : State} (h : Canon s) : CanonNext (Machine.execTrainingComplete s) := .ite .notNow h.setLink.next

theorem execTrainingFail {s : State} (h : Canon s) : CanonNext (Machine.execTrainingFail s) := .ite .notNow h.setLink.leavesUp.lifeAdd.next

theorem execResettingDrained {s : State} (h : Canon s) :
    CanonNext (Machine.execResettingDrained s) := .ite .notNow h.setLink.linkTrain.lifeAdd.next

theorem execPeerResetSeen {s : State} (h : Canon s) : CanonNext (Machine.execPeerResetSeen s) := .ite .notNow h.linkReset.next

theorem execLinkLeavesUp {s : State} (h : Canon s) : CanonNext (Machine.execLinkLeavesUp s) := .ite .notNow h.linkReset.next

theorem execHostPortDown {s : State} (h : Canon s) :
    CanonNext (Machine.execHostPortDown s) := .ite .notNow (next (.ite h.linkReset h.linkDown))

theorem freezeAll {s : State} (h : Canon s) : Canon (Machine.freezeAll s) := h.foldl (fun _ _ hu => hu.freezeStart)

theorem execDieLinkFailure {s : State} (h : Canon s) : CanonNext (Machine.execDieLinkFailure s) := by
  unfold Machine.execDieLinkFailure
  dsimp only
  split
  · exact .notNow
  · split
    · exact h.freezeAll.lifeAdd.next
    · exact .ite .notNow h.linkReset.next

/-- A die out of reset holds no byte that differs from what an unlisted one reads as. -/
theorem dieReset {s : State} (_ : Canon s) : Canon (Machine.dieReset s) := ⟨rfl, rfl⟩

theorem dieRelease {s : State} (h : Canon s) : Canon (Machine.dieRelease s) := foldl (h.dieReset.of_eq rfl rfl) (fun _ _ hu => hu.linkTrain)

theorem execStandbyPowerOn {s : State} (h : Canon s) :
    CanonNext (Machine.execStandbyPowerOn s) := .ite .notNow (next (h.dieReset.of_eq rfl rfl))

theorem execDieResetRelease {s : State} (h : Canon s) : CanonNext (Machine.execDieResetRelease s) := .ite .notNow h.dieRelease.next

theorem execMainPowerOn {s : State} (h : Canon s) : CanonNext (Machine.execMainPowerOn s) := .ite .notNow (next (h.of_eq rfl rfl))

theorem execMainPowerOff {s : State} (h : Canon s) :
    CanonNext (Machine.execMainPowerOff s) := .ite .notNow (next (h.dieReset.of_eq rfl rfl))

theorem execOrderlyPowerDown {s : State} (h : Canon s) :
    CanonNext (Machine.execOrderlyPowerDown s) := .ite .notNow (next (h.dieReset.of_eq rfl rfl))

theorem execStandbyPowerLoss {s : State} (h : Canon s) :
    CanonNext (Machine.execStandbyPowerLoss s) := .ite .notNow (next (h.dieReset.of_eq rfl rfl))

theorem execPanelStart {s : State} (h : Canon s) : CanonNext (Machine.execPanelStart s) := .ite .notNow h.setPanel.next

theorem execSelfTestComplete {s : State} (h : Canon s) :
    CanonNext (Machine.execSelfTestComplete s) := .ite .notNow (.ite h.setPanel.next h.setPanel.lifeAdd.next)

theorem execLimiterStep {s : State} (h : Canon s) : CanonNext (Machine.execLimiterStep s) := by
  unfold Machine.execLimiterStep
  dsimp only
  split
  · exact .notNow
  · split
    · exact .ite h.setLimiter.next .notNow
    · exact .ite h.setLimiter.next .notNow

theorem execPowerCeilingStep {s : State} (h : Canon s) : CanonNext (Machine.execPowerCeilingStep s) := .ite .notNow h.setLimiter.next

theorem serveMsg {s : State} {code : Nat} {ws : List Word64} (h : Canon s) :
    CanonNext (Machine.serveMsg s code ws) := .ite .notNow (next (h.of_eq rfl rfl))

theorem mgmtTick {s : State} (h : Canon s) : Canon (Machine.mgmtTick s) := by
  unfold Machine.mgmtTick
  split
  · exact h.of_eq rfl rfl
  · exact h

theorem execGetIdentity {s : State} (h : Canon s) : CanonNext (Machine.execGetIdentity s) := h.serveMsg

theorem execGetStatus {s : State} (h : Canon s) : CanonNext (Machine.execGetStatus s) := h.serveMsg

theorem execReadCounters {s : State} (h : Canon s) : CanonNext (Machine.execReadCounters s) := h.serveMsg

theorem execReadHistogram {s : State} (h : Canon s) : CanonNext (Machine.execReadHistogram s) := .ite h.serveMsg h.serveMsg

theorem execSetPolicy {s : State} (h : Canon s) : CanonNext (Machine.execSetPolicy s) := serveMsg (h.of_eq rfl rfl)

theorem execKeyAdd {s : State} (h : Canon s) : CanonNext (Machine.execKeyAdd s) := by
  unfold Machine.execKeyAdd
  split
  · exact h.serveMsg
  · split
    · exact serveMsg (h.of_eq rfl rfl)
    · split
      · exact serveMsg (h.of_eq rfl rfl)
      · exact h.serveMsg

theorem execAttest {s : State} (h : Canon s) : CanonNext (Machine.execAttest s) := serveMsg (h.of_eq rfl rfl)

theorem resetMain {s : State} (h : Canon s) : Canon (Machine.resetMain s) := h.dieReset.of_eq rfl rfl

theorem execResetMain {s : State} (h : Canon s) : CanonNext (Machine.execResetMain s) := by
  unfold Machine.execResetMain
  split
  · exact .ite h.freezeAll.next (.ite .notNow h.resetMain.next)
  · split
    · exact h.serveMsg
    · split
      · exact h.resetMain.serveMsg
      · exact serveMsg (h.freezeAll.of_eq rfl rfl)

theorem execMgmtBusy {s : State} (h : Canon s) : CanonNext (Machine.execMgmtBusy s) := .ite .notNow (next (h.of_eq rfl rfl))

theorem execCounterCommit {s : State} (h : Canon s) : CanonNext (Machine.execCounterCommit s) := .ite .notNow (next (h.of_eq rfl rfl))

theorem execHistogramSample {s : State} (h : Canon s) : CanonNext (Machine.execHistogramSample s) := by
  unfold Machine.execHistogramSample
  split
  · exact .notNow
  · exact next (of_eq (foldl (lifeAdd (lifeAdd (h.foldl (fun _ _ hu => hu.lifeAdd)))) (fun _ _ hu => hu.lifeAdd)) rfl rfl)

theorem windowStore {s : State} {fn q off : Nat} {bs : List Byte} (h : Canon s) :
    Canon (Machine.windowStore s fn q off bs) := .ite h.countBad (.ite h.controlLine h.toPoint)

theorem hostStore {s : State} {x : HostReq} {bs : List Byte} (h : Canon s) : Canon (Machine.hostStore s x bs) := h.of_eq rfl rfl

theorem hostLoad {s : State} {x : HostReq} (h : Canon s) : Canon (Machine.hostLoad s x) := h.of_eq rfl rfl

theorem hostAnswer {s : State} {x : HostReq} {bs : List Byte} {poison : Bool} (h : Canon s) :
    Canon (Machine.hostAnswer s x bs poison) := h.of_eq rfl rfl

theorem execHostMemRequest {s : State} (h : Canon s) : CanonNext (Machine.execHostMemRequest s) := by
  unfold Machine.execHostMemRequest
  dsimp only
  refine .ite ?_ ?_
  · exact .notNow
  · split
    · exact next (.ite h.windowStore h)
    · exact next (.ite h.hostAnswer h.hostAnswer)
    · exact next (.ite h.hostStore h)
    · exact .ite h.hostLoad.next h.hostAnswer.next

theorem execHdmDecoderWrite {s : State} (h : Canon s) : CanonNext (Machine.execHdmDecoderWrite s) := .ite .notNow (next (h.of_eq rfl rfl))

theorem fireRecord {i : Instr} {s : State} (h : Canon s) : CanonNext (Machine.fireRecord i s) := by
  cases i
  case nop r => exact h.execNop
  case iadd r => exact h.execIadd
  case isub r => exact h.execIsub
  case imul r => exact h.execImul
  case imulh r => exact h.execImulh
  case imad r => exact h.execImad
  case idiv r => exact h.execIdiv
  case irem r => exact h.execIrem
  case imin r => exact h.execImin
  case imax r => exact h.execImax
  case iabs r => exact h.execIabs
  case ineg r => exact h.execIneg
  case and r => exact h.execAnd
  case or r => exact h.execOr
  case xor r => exact h.execXor
  case andn r => exact h.execAndn
  case shl r => exact h.execShl
  case shr r => exact h.execShr
  case sra r => exact h.execSra
  case rot r => exact h.execRot
  case clz r => exact h.execClz
  case popc r => exact h.execPopc
  case brev r => exact h.execBrev
  case bfx r => exact h.execBfx
  case bfi r => exact h.execBfi
  case icmp r => exact h.execIcmp
  case sel r => exact h.execSel
  case iclamp r => exact h.execIclamp
  case addr r => exact h.execAddr
  case iaddw r => exact h.execIaddw
  case icvt r => exact h.execIcvt
  case copy r => exact h.execCopy
  case const r => exact h.execConst
  case sink r => exact h.execSink
  case gate r => exact h.execGate
  case join r => exact h.execJoin
  case steer r => exact h.execSteer
  case merge r => exact h.execMerge
  case enter r => exact h.execEnter
  case wave r => exact h.execWave
  case leave r => exact h.execLeave
  case throttleAdmit r => exact h.execThrottleAdmit
  case tagget r => exact h.execTagget
  case tagset r => exact h.execTagset
  case void r => exact h.execVoid
  case range r => exact h.execRange
  case runend r => exact h.execRunend
  case read r => exact h.execRead
  case write r => exact h.execWrite
  case branch r => exact h.execBranch
  case bcall r => exact h.execBcall
  case bret r => exact h.execBret
  case fadd r => exact h.execFadd
  case fsub r => exact h.execFsub
  case fmul r => exact h.execFmul
  case ffma r => exact h.execFfma
  case fmin r => exact h.execFmin
  case fmax r => exact h.execFmax
  case fcmp r => exact h.execFcmp
  case fclass r => exact h.execFclass
  case fdiv r => exact h.execFdiv
  case fsqrt r => exact h.execFsqrt
  case frcp r => exact h.execFrcp
  case frsq r => exact h.execFrsq
  case frcpa r => exact h.execFrcpa
  case frsqa r => exact h.execFrsqa
  case fexp2 r => exact h.execFexp2
  case flog2 r => exact h.execFlog2
  case fsinpi r => exact h.execFsinpi
  case fcospi r => exact h.execFcospi
  case ftanh r => exact h.execFtanh
  case fscale r => exact h.execFscale
  case fround r => exact h.execFround
  case fsgn r => exact h.execFsgn
  case cvt r => exact h.execCvt
  case ftoi r => exact h.execFtoi
  case itof r => exact h.execItof
  case bxpack r => exact h.execBxpack
  case bxunpk r => exact h.execBxunpk
  case dot r => exact h.execDot
  case lsum r => exact h.execLsum
  case lscan r => exact h.execLscan
  case lmax r => exact h.execLmax
  case lmin r => exact h.execLmin
  case shuf r => exact h.execShuf
  case bcast r => exact h.execBcast
  case iota r => exact h.execIota
  case lmask r => exact h.execLmask
  case packc r => exact h.execPackc
  case unpackc r => exact h.execUnpackc
  case cmpfwd r => exact h.execCmpfwd
  case rankadmCandidate r => exact h.execRankadmCandidate
  case ld r => exact h.execLd
  case st r => exact h.execSt
  case ldx r => exact h.execLdx
  case stx r => exact h.execStx
  case mnop r => exact h.execMnop
  case fence r => exact h.execFence
  case order r => exact h.execOrder
  case aadd r => exact h.execAadd
  case amin r => exact h.execAmin
  case amax r => exact h.execAmax
  case aand r => exact h.execAand
  case aor r => exact h.execAor
  case axor r => exact h.execAxor
  case axchg r => exact h.execAxchg
  case acas r => exact h.execAcas
  case acc r => exact h.execAcc
  case wcfg r => exact h.execWcfg
  case wfull r => exact h.execWfull
  case wempty r => exact h.execWempty
  case ldp r => exact h.execLdp
  case promote r => exact h.execPromote
  case xfer r => exact h.execXfer
  case xfers r => exact h.execXfers
  case pref r => exact h.execPref
  case pginit r => exact h.execPginit
  case pginitFree r => exact h.execPginitFree
  case pgadv r => exact h.execPgadv
  case pgread r => exact h.execPgread
  case waitany r => exact h.execWaitany
  case waitall r => exact h.execWaitall
  case ffready r => exact h.execFfready
  case sclemit r => exact h.execSclemit
  case wload r => exact h.execWload
  case mma r => exact h.execMma
  case accin r => exact h.execAccin
  case accout r => exact h.execAccout
  case sysmodeEnter r => exact h.execSysmodeEnter
  case sysmodeLeave r => exact h.execSysmodeLeave
  case cavjoinLocal r => exact h.execCavjoinLocal
  case cavjoinSegment r => exact h.execCavjoinSegment
  case cavjoinLeave r => exact h.execCavjoinLeave
  case cav r => exact h.execCav
  case pacesetInit r => exact h.execPacesetInit
  case pacesetLoad r => exact h.execPacesetLoad
  case pacesetUpdate r => exact h.execPacesetUpdate
  case sweep r => exact h.execSweep
  case paceq r => exact h.execPaceq
  case rulesetWrite r => exact h.execRulesetWrite
  case rulesetClear r => exact h.execRulesetClear
  case rulearmArm r => exact h.execRulearmArm
  case rulearmDisarm r => exact h.execRulearmDisarm
  case coll r => exact h.execColl
  case spawn r => exact h.execSpawn
  case callocGrant r => exact h.execCallocGrant
  case callocEntry r => exact h.execCallocEntry
  case ret r => exact h.execRet
  case binit r => exact h.execBinit
  case binitFree r => exact h.execBinitFree
  case barrive r => exact h.execBarrive
  case barriveTag r => exact h.execBarriveTag
  case bwait r => exact h.execBwait
  case bdrop r => exact h.execBdrop
  case btest r => exact h.execBtest
  case btestTicket r => exact h.execBtestTicket
  case qput r => exact h.execQput
  case qtake r => exact h.execQtake
  case qtakePoll r => exact h.execQtakePoll
  case qstat r => exact h.execQstat
  case qmark r => exact h.execQmark
  case kstage r => exact h.execKstage
  case kflip r => exact h.execKflip
  case kdrain r => exact h.execKdrain
  case kdrainPurge r => exact h.execKdrainPurge
  case kdrainPoll r => exact h.execKdrainPoll
  case snap r => exact h.execSnap
  case ctxpri r => exact h.execCtxpri
  case park r => exact h.execPark
  case resume r => exact h.execResume
  case yield r => exact h.execYield
  case sread r => exact h.execSread
  case swrite r => exact h.execSwrite
  case mpin r => exact h.execMpin
  case munpin r => exact h.execMunpin
  case minv r => exact h.execMinv
  case minvContext r => exact h.execMinvContext
  case mprobe r => exact h.execMprobe
  case mprobeRead r => exact h.execMprobeRead
  case mprobeReadClear r => exact h.execMprobeReadClear
  case trap r => exact h.execTrap
  case tret r => exact h.execTret
  case ftake r => exact h.execFtake
  case ftakeRetry r => exact h.execFtakeRetry
  case ftakeDiscard r => exact h.execFtakeDiscard
  case ftakePeek r => exact h.execFtakePeek
  case ptest r => exact h.execPtest
  case lstat r => exact h.execLstat
  case lctlTrain r => exact h.execLctlTrain
  case lctlDown r => exact h.execLctlDown
  case lctlReset r => exact h.execLctlReset
  case lctlRoute r => exact h.execLctlRoute
  case lctlClearCounters r => exact h.execLctlClearCounters
  case lctlOwnNumber r => exact h.execLctlOwnNumber
  -- REPEAT, whose name is a word of Lean's tactics and can name no case; the others are the events.
  · exact h.execRepeat
  all_goals exact .notNow

theorem fireRead {s : State} {p : Nat} {b : Block} {n : Nat} (h : Canon s) : Canon (Machine.fireRead s p b n) := by
  unfold Machine.fireRead
  dsimp only
  split
  · split
    · split
      · exact h.beginIssue.faultCur
      · split
        · rename_i heq2
          exact of_next heq2 h.beginIssue.execRead
        · exact h.beginIssue
    · exact h
  · exact h

theorem execBlockEntry {s : State} (h : Canon s) : CanonNext (Machine.execBlockEntry s) := by
  unfold Machine.execBlockEntry
  dsimp only
  split
  · exact .notNow
  · split
    · exact .notNow
    · split
      · exact next (.ite h.doubleFault h.setScribe)
      · refine Canon.next ?_
        split
        · exact h.setScribe.noteIssue.onBlock
        · exact h.setScribe.noteIssue.foldl (fun _ _ hu => hu.fireRead)

theorem mapAccesses {s : State} {p : Nat} {f : Access → Access} (h : Canon s) : Canon (Machine.mapAccesses s p f) := h.of_eq rfl rfl

theorem mapContribs {s : State} {p : Nat} {f : Contrib → Contrib} (h : Canon s) : Canon (Machine.mapContribs s p f) := h.of_eq rfl rfl

theorem lateReqs {s : State} {p : Nat} (h : Canon s) : Canon (Machine.lateReqs s p) := h.of_eq rfl rfl

theorem settleBlock {s : State} {p : Nat} (h : Canon s) : Canon (Machine.settleBlock s p) := by
  unfold Machine.settleBlock
  extract_lets n keep s1 s2
  have hs2 : Canon s2 := h.setNib.lateReqs.mapAccesses.mapContribs
  exact hs2.of_eq rfl rfl

theorem dropBlock {s : State} {p : Nat} (h : Canon s) : Canon (Machine.dropBlock s p) := by
  unfold Machine.dropBlock
  extract_lets n none_ keep s1 s2 s3
  have hs3 : Canon s3 := mapPoints h.setNib.mapAccesses.mapContribs
  exact hs3.of_eq rfl rfl

theorem failBlock {s : State} {p : Nat} {b : Block} {cause info : Nat} (h : Canon s) : Canon (Machine.failBlock s p b cause info) := by
  unfold Machine.failBlock
  dsimp only
  refine launchesGo ?_
  split
  · exact h.setScribe.dropBlock.doubleFault
  · exact h.setScribe.dropBlock.setScribe

theorem writeQs {s : State} {p : Nat} {b : Block} (h : Canon s) : Canon (Machine.writeQs s p b) := by
  unfold Machine.writeQs
  refine foldl h (fun _ _ hu => ?_)
  split
  · exact hu.setScribe
  · exact hu

theorem releaseStores {s : State} {b : Block} (h : Canon s) : Canon (Machine.releaseStores s b) := h.foldl (fun _ _ hu => hu.toSite)

theorem heldEffects {s : State} {b : Block} (h : Canon s) : Canon (Machine.heldEffects s b) := by
  unfold Machine.heldEffects
  refine h.foldl fun u e hu => ?_
  have hrec := (hu.of_eq rfl rfl : Canon { u with cur := { e.cur with late := true } }).fireRecord (i := e.i)
  split
  next t ht => exact hrec t ht
  · exact hu

theorem blockSends {s : State} {p : Nat} {b : Block} (h : Canon s) : Canon (Machine.blockSends s p b) := by
  unfold Machine.blockSends
  split
  · exact h.setScribe
  · dsimp only
    split
    · exact of_eq (h.foldl (fun _ _ hu => hu.sendLate)) rfl rfl
    · exact foldl (h.foldl (fun _ _ hu => hu.sendLate)) (fun _ _ hu => hu.portDrop)

theorem commitBlock {s : State} {p : Nat} {b : Block} {next : Option (Nat × List Nat)} (h : Canon s) :
    Canon (Machine.commitBlock s p b next) := h.writeQs.settleBlock.setScribe.releaseStores.heldEffects.blockSends.launchesGo

theorem execBlockCommit {s : State} (h : Canon s) : CanonNext (Machine.execBlockCommit s) := by
  unfold Machine.execBlockCommit
  dsimp only
  split
  · exact .notNow
  · split
    · exact .notNow
    · split
      · exact h.failBlock.next
      · split
        · exact h.failBlock.next
        · split
          · exact .notNow
          · split
            · exact .ite h.failBlock.next h.commitBlock.next
            · split
              · exact h.commitBlock.next
              · split
                · exact h.commitBlock.next
                · exact h.failBlock.next

end Canon
end Sys2Proof.Proofs
end


section
/-!
PROOF. The canonical form through the schedule of a cycle and a step (00, 02, 08).
-/
namespace Sys2Proof.Proofs
open Sys2Proof.Machine Sys2Proof.Safety Sys2Proof.Claims

namespace Canon

theorem exec {i : Instr} {s : State} (h : Canon s) : CanonNext (Machine.exec i s) := by
  have hrec := h.fireRecord (i := i)
  cases i with
  | tokenArrival => exact h.execTokenArrival
  | frameMatchReturn => exact h.execFrameMatchReturn
  | scaleTokenArrival => exact h.execScaleTokenArrival
  | shareWindowStart => exact h.execShareWindowStart
  | delayedResultDelivery => exact h.execDelayedResultDelivery
  | throttleCredit => exact h.execThrottleCredit
  | generatorEmit => exact h.execGeneratorEmit
  | rankadmBatchComplete => exact h.execRankadmBatchComplete
  | accAddend => exact h.execAccAddend
  | wcfgTakeEffect => exact h.execWcfgTakeEffect
  | orderBufferRelease => exact h.execOrderBufferRelease
  | wellAccess => exact h.execWellAccess
  | pageWindowFill => exact h.execPageWindowFill
  | l2Fill => exact h.execL2Fill
  | arbiterService => exact h.execArbiterService
  | transferSectorDone => exact h.execTransferSectorDone
  | pulse => exact h.execPulse
  | scalePortConvert => exact h.execScalePortConvert
  | arrayPassUpdate => exact h.execArrayPassUpdate
  | cavityRound => exact h.execCavityRound
  | cavityCarryPoll => exact h.execCavityCarryPoll
  | ruleArrival => exact h.execRuleArrival
  | ruleEmit => exact h.execRuleEmit
  | drainFenceComplete => exact h.execDrainFenceComplete
  | eauCredit => exact h.execEauCredit
  | colourDraw => exact h.execColourDraw
  | returnTokenDelivery => exact h.execReturnTokenDelivery
  | colourDrain => exact h.execColourDrain
  | groupIdle => exact h.execGroupIdle
  | parkwaitExpiry => exact h.execParkwaitExpiry
  | sliceExpiry => exact h.execSliceExpiry
  | barrierWatchExpiry => exact h.execBarrierWatchExpiry
  | barrierNotice => exact h.execBarrierNotice
  | hostAppend => exact h.execHostAppend
  | queueConfig => exact h.execQueueConfig
  | queueStart => exact h.execQueueStart
  | queueStop => exact h.execQueueStop
  | queueReset => exact h.execQueueReset
  | queueClro => exact h.execQueueClro
  | launchPlacement => exact h.execLaunchPlacement
  | launchCompletion => exact h.execLaunchCompletion
  | stageComplete => exact h.execStageComplete
  | planeEmpty => exact h.execPlaneEmpty
  | markerArrival => exact h.execMarkerArrival
  | snapTimeout => exact h.execSnapTimeout
  | parkGate => exact h.execParkGate
  | parkSettle => exact h.execParkSettle
  | parkQuiesce => exact h.execParkQuiesce
  | parkStream => exact h.execParkStream
  | parkCommit => exact h.execParkCommit
  | parkFaultAbandon => exact h.execParkFaultAbandon
  | parkAbandonTimeout => exact h.execParkAbandonTimeout
  | crecWrite => exact h.execCrecWrite
  | validate => exact h.execValidate
  | release => exact h.execRelease
  | prangeWrite => exact h.execPrangeWrite
  | plpriWrite => exact h.execPlpriWrite
  | pulseWrite => exact h.execPulseWrite
  | svcmodeWrite => exact h.execSvcmodeWrite
  | serviceModeChange => exact h.execServiceModeChange
  | preempt => exact h.execPreempt
  | pctlFreeze => exact h.execPctlFreeze
  | pctlReset => exact h.execPctlReset
  | resumep => exact h.execResumep
  | registerWrite => exact h.execRegisterWrite
  | pageWalk => exact h.execPageWalk
  | blockEntry => exact h.execBlockEntry
  | blockCommit => exact h.execBlockCommit
  | trapTaken => exact h.execTrapTaken
  | uncorrectableError => exact h.execUncorrectableError
  | flitReceive => exact h.execFlitReceive
  | trainingComplete => exact h.execTrainingComplete
  | trainingFail => exact h.execTrainingFail
  | resettingDrained => exact h.execResettingDrained
  | peerResetSeen => exact h.execPeerResetSeen
  | linkLeavesUp => exact h.execLinkLeavesUp
  | responseTimeout => exact h.execResponseTimeout
  | dieLinkFailure => exact h.execDieLinkFailure
  | hostMemRequest => exact h.execHostMemRequest
  | hostPortDown => exact h.execHostPortDown
  | standbyPowerOn => exact h.execStandbyPowerOn
  | dieResetRelease => exact h.execDieResetRelease
  | panelStart => exact h.execPanelStart
  | selfTestComplete => exact h.execSelfTestComplete
  | limiterStep => exact h.execLimiterStep
  | powerCeilingStep => exact h.execPowerCeilingStep
  | getIdentity => exact h.execGetIdentity
  | getStatus => exact h.execGetStatus
  | readCounters => exact h.execReadCounters
  | readHistogram => exact h.execReadHistogram
  | setPolicy => exact h.execSetPolicy
  | keyAdd => exact h.execKeyAdd
  | attest => exact h.execAttest
  | resetMain => exact h.execResetMain
  | mgmtBusy => exact h.execMgmtBusy
  | counterCommit => exact h.execCounterCommit
  | histogramSample => exact h.execHistogramSample
  | flipTakesEffect => exact h.execFlipTakesEffect
  | resumeComplete => exact h.execResumeComplete
  | partitionFrozen => exact h.execPartitionFrozen
  | partitionCleared => exact h.execPartitionCleared
  | rcRegisterRead => exact h.execRcRegisterRead
  | controlLineRejected => exact h.execControlLineRejected
  | hdmDecoderWrite => exact h.execHdmDecoderWrite
  | mainPowerOn => exact h.execMainPowerOn
  | mainPowerOff => exact h.execMainPowerOff
  | orderlyPowerDown => exact h.execOrderlyPowerDown
  | standbyPowerLoss => exact h.execStandbyPowerLoss
  | _ => exact hrec

theorem planCycle {s : State} (h : Canon s) : Canon (Machine.planCycle s) := h.of_eq rfl rfl

theorem sendFlits {s : State} (h : Canon s) : Canon (Machine.sendFlits s) := by
  unfold Machine.sendFlits
  refine foldl h (fun _ _ hu => ?_)
  split
  · split
    · exact hu.of_eq rfl rfl
    · exact hu
  · exact hu

theorem countSlices {s : State} (h : Canon s) : Canon (Machine.countSlices s) := h.of_eq rfl rfl

theorem passCycle {s : State} (h : Canon s) :
    Canon (Machine.passCycle s) := routesGo (minvGo (turnTick (sendFlits (countSlices (h.of_eq rfl rfl)))))

theorem tick {s : State} (h : Canon s) : Canon (Machine.tick s) := planCycle (.ite h.mgmtTick.passCycle h.mgmtTick)

theorem fireMatch {s : State} {p site : Nat} {m : Match} (h : Canon s) : CanonNext (Machine.fireMatch s p site m) := by
  unfold Machine.fireMatch
  split
  · split
    · exact exec (h.of_eq rfl rfl)
    · exact h.next
  · refine .ite h.beginIssue.faultCur.settle.next ?_
    split
    · exact h.beginIssue.exec
    · exact h.beginIssue.faultCur.next

theorem issueSite {s : State} {p site : Nat} (h : Canon s) : CanonNext (Machine.issueSite s p site) := by
  unfold Machine.issueSite
  split
  · exact h.next
  · rename_i heq1
    exact (of_someFst heq1 h.pickIssue).fireMatch

theorem runEvent {i : Instr} {sel : Sel} {s : State} (h : Canon s) : CanonNext (Machine.runEvent i sel s) := by
  unfold Machine.runEvent
  refine .ite h.next ?_
  split
  · exact h.next
  · exact exec (h.of_eq rfl rfl)

theorem runMove {m : Move} {s : State} (h : Canon s) : CanonNext (Machine.runMove m s) := by
  unfold Machine.runMove
  split
  · exact h.runEvent
  · exact h.issueSite
  · exact h.panelTests.next
  · exact h.queuePoints.next
  · exact h.pointsGo.next
  · exact h.passOn.next
  · exact h.pinsGo.next

theorem step {s : State} (h : Canon s) : CanonNext (Machine.step s) := by
  unfold Machine.step
  split
  · exact h.tick.next
  · exact runMove (h.of_eq rfl rfl)

end Canon
end Sys2Proof.Proofs
end


section
/-!
PROOF. Every step keeps the canonical form of the byte memories (log 3).
-/
namespace Sys2Proof.Proofs
open Sys2Proof.Machine Sys2Proof.Safety Sys2Proof.Claims

/-- Settles O2, along the step: each move runs an instruction, an event or a point's service, and each of these writes the byte memories only
through `mwrite` and `mwrites`, which keep the form, or starts them anew. -/
theorem memoriesStayCanonical : Obligations.MemoriesStayCanonical := by
  unfold Obligations.MemoriesStayCanonical
  intro s t hmem hwmem hstep
  obtain ⟨hm, hw⟩ := Canon.step ⟨hmem, hwmem⟩ t hstep
  exact ⟨hm, hw⟩

end Sys2Proof.Proofs
end
